-- ==== Sys2Proof/Word.lean ====
section
/-! DEFINITION. The machine word and byte, and the two map shapes the state is built from. -/
namespace Sys2Proof

/-- A register word (R59: registers are 32 bits or a group of 32-bit words). -/
abbrev Word := BitVec 32

/-- A byte of an addressed memory. -/
abbrev Byte := BitVec 8

/-- A sparse map from a key to a value: keys strictly rising, no entry equal to what an unlisted key reads as. -/
abbrev SMap (β : Type) := List (Nat × β)

end Sys2Proof
end

