-- ==== Sys2Proof/Machine/Bits.lean ====
section
/-! DEFINITION. Bit fields, sign extension, multi-word values and saturation: the arithmetic every block shares. -/
namespace Sys2Proof.Machine

/-- Bit `i` of a word. -/
def bit (w : Word) (i : Nat) : Bool := w.getLsbD i

/-- The field of `len` bits from bit `lo`, as a number. -/
def fld (w : Word) (lo len : Nat) : Nat := (w.toNat >>> lo) % 2 ^ len

/-- The word with the field of `len` bits from bit `lo` replaced. -/
def setFld (w : Word) (lo len v : Nat) : Word :=
  BitVec.ofNat 32 (w.toNat - (fld w lo len) * 2 ^ lo + (v % 2 ^ len) * 2 ^ lo)

/-- The word with one bit replaced. -/
def setBit (w : Word) (i : Nat) (b : Bool) : Word := setFld w i 1 (if b then 1 else 0)

/-- A Bool as a number. -/
def b2n (b : Bool) : Nat := if b then 1 else 0

/-- The signed value of the low `n` bits of a number. -/
def sext (n v : Nat) : Int :=
  let m := v % 2 ^ n
  if 2 ^ n ≤ 2 * m then (m : Int) - (2 ^ n : Nat) else (m : Int)

/-- The signed value of a word. -/
def sw (w : Word) : Int := w.toInt

/-- A signed number as a 32-bit word, wrapping. -/
def ofI (i : Int) : Word := BitVec.ofInt 32 i

/-- A number as a 32-bit word, wrapping. -/
def ofN (n : Nat) : Word := BitVec.ofNat 32 n

/-- The signed 64-bit value of a low and a high word (R7). -/
def join (lo hi : Word) : Int := (hi ++ lo).toInt

/-- The unsigned 64-bit value of a low and a high word (R7). -/
def joinN (lo hi : Word) : Nat := hi.toNat * 2 ^ 32 + lo.toNat

/-- Low and high word of a signed 64-bit value, wrapping. -/
def lo32 (i : Int) : Word := BitVec.ofInt 32 i
def hi32 (i : Int) : Word := BitVec.ofInt 32 (i / 4294967296)

/-- A number limited to a range. -/
def clampI (lo hi x : Int) : Int := if x < lo then lo else if hi < x then hi else x

/-- A saturating 32-bit counter, one up. -/
def satInc (w : Word) : Word := if w = BitVec.allOnes 32 then w else w + 1

/-- A count added to a saturating 32-bit counter. -/
def satAdd (w : Word) (n : Nat) : Word := ofN (min (w.toNat + n) 0xFFFFFFFF)

/-- A signed number limited to 32 bits. -/
def satI32 (x : Int) : Word := ofI (clampI (-2147483648) 2147483647 x)

/-- A number limited to the Q1.23 range and sign-extended to a word (Table 0-4). -/
def q23 (x : Int) : Word := ofI (clampI (-8388608) 8388607 x)

/-- The list with element `i` replaced. -/
def setAt {α : Type} (l : List α) (i : Nat) (a : α) : List α := l.set i a

/-- The floor of a quotient, 0 where the divisor is 0. -/
def idiv (a b : Int) : Int := if b = 0 then 0 else Int.fdiv a b

/-- A quotient rounded to the nearest integer, halves away from zero. -/
def rdiv (a : Int) (b : Nat) : Int :=
  if b = 0 then 0 else if 0 ≤ a then (2 * a + b) / (2 * b) else -((2 * (-a) + b) / (2 * b))

/-- The ceiling of a quotient of naturals. -/
def cdiv (a b : Nat) : Nat := if b = 0 then 0 else (a + b - 1) / b

/-- One bit of a CRC over reflected polynomial `p`. -/
def crcBit (p c : Nat) : Nat := if c % 2 = 1 then Nat.xor (c / 2) p else c / 2

/-- One byte into the CRC-32C register (R47: polynomial 0x1EDC6F41, reflected 0x82F63B78). -/
def crc32cByte (c b : Nat) : Nat :=
  let p := 0x82F63B78
  let x := Nat.xor c (b % 256)
  crcBit p (crcBit p (crcBit p (crcBit p (crcBit p (crcBit p (crcBit p (crcBit p x)))))))

/-- The four bytes of a word, least significant first. -/
def wordBytes (w : Word) : List Nat :=
  [w.toNat % 256, w.toNat / 256 % 256, w.toNat / 65536 % 256, w.toNat / 16777216]

/-- CRC-32C of a byte string (R47). -/
def crc32c (bs : List Nat) : Word := BitVec.ofNat 32 (Nat.xor (bs.foldl crc32cByte 0xFFFFFFFF) 0xFFFFFFFF)

/-- One bit of CRC-16/CCITT-FALSE. -/
def crc16Bit (c : Nat) : Nat :=
  if 0x8000 ≤ c then Nat.xor (c * 2 % 65536) 0x1021 else c * 2 % 65536

/-- One byte into the CRC-16/CCITT-FALSE register (polynomial 0x1021, not reflected). -/
def crc16Byte (c b : Nat) : Nat :=
  let x := Nat.xor c ((b % 256) * 256)
  crc16Bit (crc16Bit (crc16Bit (crc16Bit (crc16Bit (crc16Bit (crc16Bit (crc16Bit x)))))))

/-- CRC-16/CCITT-FALSE of a byte string (Table 0-4), initial value 0xFFFF. -/
def crc16 (bs : List Nat) : Nat := bs.foldl crc16Byte 0xFFFF

end Sys2Proof.Machine
end

