-- ==== Sys2Proof/Machine/Types.lean ====
section
/-! DEFINITION. The fixed names of the hardware: page types (Table 2-1), bus masters (Table 1-13), PGERR codes
(Table 2-9), page states (Table 2-5), commit boundaries, and the address of a page. -/
namespace Sys2Proof

/-- The 43 page types of Table 2-1 (R36). -/
inductive PgTy where
  | sys
  | pwr
  | clk
  | sec
  | tamp
  | flt
  | time
  | dlk
  | fab
  | mem
  | enc
  | ssn
  | axis
  | prk
  | pcmp
  | step
  | ustp
  | lc
  | lsch
  | ce
  | cslot
  | pwm
  | fin
  | fcg
  | fch
  | pcv
  | le
  | rseq
  | frc
  | sig
  | acq
  | recStore
  | eth
  | ptp
  | can
  | pcie
  | hsp
  | msp
  | psp
  | apc
  | dio
  | gpio
  | dbg
  deriving DecidableEq, Repr

namespace PgTy

/-- The type code of Table 2-1. -/
def code : PgTy → Nat
  | .sys => 0x01
  | .pwr => 0x02
  | .clk => 0x03
  | .sec => 0x04
  | .tamp => 0x05
  | .flt => 0x06
  | .time => 0x07
  | .dlk => 0x08
  | .fab => 0x09
  | .mem => 0x0A
  | .enc => 0x10
  | .ssn => 0x11
  | .axis => 0x12
  | .prk => 0x13
  | .pcmp => 0x14
  | .step => 0x15
  | .ustp => 0x16
  | .lc => 0x18
  | .lsch => 0x19
  | .ce => 0x1A
  | .cslot => 0x1B
  | .pwm => 0x1C
  | .fin => 0x1D
  | .fcg => 0x20
  | .fch => 0x21
  | .pcv => 0x22
  | .le => 0x24
  | .rseq => 0x26
  | .frc => 0x27
  | .sig => 0x28
  | .acq => 0x2A
  | .recStore => 0x2B
  | .eth => 0x30
  | .ptp => 0x31
  | .can => 0x32
  | .pcie => 0x34
  | .hsp => 0x35
  | .msp => 0x36
  | .psp => 0x37
  | .apc => 0x38
  | .dio => 0x3A
  | .gpio => 0x3C
  | .dbg => 0x3E

/-- The instance count of Table 2-1. -/
def count : PgTy → Nat
  | .sys => 1
  | .pwr => 1
  | .clk => 1
  | .sec => 1
  | .tamp => 1
  | .flt => 1
  | .time => 1
  | .dlk => 4
  | .fab => 1
  | .mem => 2
  | .enc => 64
  | .ssn => 16
  | .axis => 128
  | .prk => 4
  | .pcmp => 64
  | .step => 64
  | .ustp => 1
  | .lc => 18
  | .lsch => 1
  | .ce => 8
  | .cslot => 64
  | .pwm => 32
  | .fin => 1
  | .fcg => 3
  | .fch => 96
  | .pcv => 8
  | .le => 6
  | .rseq => 8
  | .frc => 1
  | .sig => 1
  | .acq => 16
  | .recStore => 1
  | .eth => 3
  | .ptp => 1
  | .can => 8
  | .pcie => 1
  | .hsp => 1
  | .msp => 2
  | .psp => 8
  | .apc => 1
  | .dio => 1
  | .gpio => 1
  | .dbg => 1

/-- Every page type, in the order of Table 2-1. -/
def all : List PgTy :=
  [.sys, .pwr, .clk, .sec, .tamp, .flt, .time, .dlk, .fab, .mem, .enc, .ssn, .axis, .prk, .pcmp, .step, .ustp, .lc, .lsch, .ce, .cslot, .pwm] ++
  [.fin, .fcg, .fch, .pcv, .le, .rseq, .frc, .sig, .acq, .recStore, .eth, .ptp, .can, .pcie, .hsp, .msp, .psp, .apc, .dio, .gpio, .dbg]

/-- The page type of a code, where the directory has one (R26). -/
def ofCode (c : Nat) : Option PgTy := all.find? (fun t => t.code == c)

/-- The power domain of a page (Table 2-1, Table 1-12): loop cores 0 to 5 lie in PD3, 6 to 11 in PD4, 12 to 17 in PD5. -/
def domain (t : PgTy) (inst : Nat) : Nat :=
  match t with
  | .lc => 3 + inst / 6
  | .sys => 1
  | .pwr => 0
  | .clk => 1
  | .sec => 0
  | .tamp => 0
  | .flt => 1
  | .time => 1
  | .dlk => 11
  | .fab => 1
  | .mem => 12
  | .enc => 8
  | .ssn => 8
  | .axis => 8
  | .prk => 8
  | .pcmp => 8
  | .step => 8
  | .ustp => 8
  | .lsch => 1
  | .ce => 6
  | .cslot => 6
  | .pwm => 8
  | .fin => 8
  | .fcg => 9
  | .fch => 9
  | .pcv => 10
  | .le => 7
  | .rseq => 7
  | .frc => 7
  | .sig => 7
  | .acq => 12
  | .recStore => 12
  | .eth => 11
  | .ptp => 11
  | .can => 11
  | .pcie => 11
  | .hsp => 11
  | .msp => 11
  | .psp => 11
  | .apc => 1
  | .dio => 13
  | .gpio => 1
  | .dbg => 0

end PgTy

/-- The kinds of commit boundary of Table 2-1. -/
inductive Boundary where
  | imm      -- the first cycle of the owning island after acceptance
  | tick     -- the next base tick
  | frame    -- the end of the page's next frame
  | sample   -- a control slot's next sample event
  | pwm      -- the module's zero or period event
  | trigger  -- a fast channel's next effective trigger
  | word     -- a precision converter's next output word
  | bench    -- the start of a bench's next cycle
  | step     -- a recipe step boundary
  | rearm    -- an acquisition unit's next re-arm
  deriving DecidableEq, Repr

/-- The commit boundary of a page type (R36). -/
def PgTy.boundary : PgTy → Boundary
  | .sys => .imm
  | .pwr => .imm
  | .clk => .imm
  | .sec => .imm
  | .tamp => .imm
  | .flt => .imm
  | .time => .imm
  | .dlk => .frame
  | .fab => .imm
  | .mem => .imm
  | .enc => .tick
  | .ssn => .frame
  | .axis => .tick
  | .prk => .tick
  | .pcmp => .imm
  | .step => .tick
  | .ustp => .tick
  | .lc => .imm
  | .lsch => .tick
  | .ce => .imm
  | .cslot => .sample
  | .pwm => .pwm
  | .fin => .imm
  | .fcg => .imm
  | .fch => .trigger
  | .pcv => .word
  | .le => .bench
  | .rseq => .step
  | .frc => .imm
  | .sig => .imm
  | .acq => .rearm
  | .recStore => .imm
  | .eth => .frame
  | .ptp => .imm
  | .can => .frame
  | .pcie => .imm
  | .hsp => .frame
  | .msp => .frame
  | .psp => .frame
  | .apc => .imm
  | .dio => .frame
  | .gpio => .imm
  | .dbg => .imm

/-- One register page: a type and an instance. -/
structure PageId where
  ty : PgTy
  inst : Nat
  deriving DecidableEq, Repr

/-- The key under which the state holds a page: type code in bits [15:8], instance in bits [7:0]. -/
def pk (t : PgTy) (n : Nat) : Nat := t.code * 256 + n % 256

/-- The key of a page. -/
def PageId.key (p : PageId) : Nat := pk p.ty p.inst

/-- Whether the directory holds the page (R26). -/
def PageId.present (p : PageId) : Bool := p.inst < p.ty.count

/-- The bus masters, numbered as LOG_INFO.MASTER numbers them (Table 1-13). -/
inductive Master where
  | lc (n : Fin 18)
  | le (n : Fin 6)
  | ap0 | ap1 | sc | pcieHost | pcieDma | hsp | debugPort | fixedBlock
  deriving DecidableEq, Repr

/-- LOG_INFO.MASTER of a master (Table 1-13). -/
def Master.code : Master → Nat
  | .lc n => n.val
  | .le n => 18 + n.val
  | .ap0 => 24
  | .ap1 => 25
  | .sc => 26
  | .pcieHost => 27
  | .pcieDma => 28
  | .hsp => 29
  | .debugPort => 30
  | .fixedBlock => 31

/-- Whether a master reaches the device from outside, over PCIe or the host serial port (R506, R518). -/
def Master.isHost : Master → Bool
  | .pcieHost => true
  | .pcieDma => true
  | .hsp => true
  | _ => false

/-- Whether a master is an application core. -/
def Master.isAp : Master → Bool
  | .ap0 => true
  | .ap1 => true
  | _ => false

/-- The engines a debug halt can stop (R42). -/
inductive Engine where
  | lc (n : Fin 18)
  | ce (n : Fin 8)
  | le (n : Fin 6)
  | ap (n : Fin 2)
  deriving DecidableEq, Repr

/-- The PGERR codes of Table 2-9, without NONE. -/
inductive ErrCode where
  | crcMismatch | range | locked | wrongState | cmdCheck | budget | conflict | lifecycle | memExceeded | notPresent | busy
  deriving DecidableEq, Repr

/-- The number of a PGERR code (Table 2-9). -/
def ErrCode.num : ErrCode → Nat
  | .crcMismatch => 1
  | .range => 2
  | .locked => 3
  | .wrongState => 4
  | .cmdCheck => 5
  | .budget => 6
  | .conflict => 7
  | .lifecycle => 8
  | .memExceeded => 9
  | .notPresent => 10
  | .busy => 11

/-- Page states (Table 2-5). -/
inductive PgState where
  | off | idle | run | hold | safe | update | fault
  deriving DecidableEq, Repr

/-- PGSTAT.STATE of a state. -/
def PgState.num : PgState → Nat
  | .off => 0
  | .idle => 1
  | .run => 2
  | .hold => 3
  | .safe => 4
  | .update => 5
  | .fault => 6

/-- The update events of Table 1-7. -/
inductive UpdEv where
  | write | tick | pwmEvent | convEnd | edge | bench | step | frame | task
  deriving DecidableEq, Repr

/-- The code of an update event (Table 1-7). -/
def UpdEv.num : UpdEv → Nat
  | .write => 0
  | .tick => 1
  | .pwmEvent => 2
  | .convEnd => 3
  | .edge => 4
  | .bench => 5
  | .step => 6
  | .frame => 7
  | .task => 8

/-- The access codes of Table 0-3. -/
inductive Acc where
  | ro | rw | rs | wo | w1c | wc
  deriving DecidableEq, Repr

/-- A serial sensor frame as it arrived (R92): the bits from LEAD to TRAIL right-aligned, and for BiSS nE, nW, the CRC, the CDS bit and the
delay measured to the start bit in 1.25 ns. -/
structure SsnFrame where
  bits : BitVec 64
  ne : Bool
  nw : Bool
  crc : BitVec 16
  cds : Bool
  delay : Nat
  deriving DecidableEq, Repr

/-- A memory error a loop-core bundle meets in its fetch or in one of its accesses (R183): uncorrectable or corrected, the
memory as UE_ADDR.MEM names it and the word address. -/
structure LcErr where
  ue : Bool
  mem : Fin 3
  word : Fin 16384
  deriving DecidableEq, Repr

/-- The core that issues a bundle, and the memory error the bundle meets. -/
structure LcAt where
  core : Fin 18
  err : Option LcErr
  deriving DecidableEq, Repr

/-- An error a control engine meets in a slot's memory (Table 8-7): uncorrectable or corrected, the area as UE_ADDR.AREA names it
(0 parameters, 1 table, 2 state, 3 microcode) and the word. -/
structure CsErr where
  ue : Bool
  area : Fin 4
  word : Fin 4096
  deriving DecidableEq, Repr

/-- The two move slots of a 64-bit parallel bundle (R197), X in the upper and Y in the lower half of its second word. -/
structure LcSlots where
  x : BitVec 16
  y : BitVec 16
  deriving DecidableEq, Repr

/-- A trigger event of the Draora Link (Table 14-2): the owner's node, the line, its level and the due extended time. -/
structure TrgEv where
  node : Nat
  line : Nat
  level : Bool
  due : Nat
  deriving DecidableEq, Repr

/-- A remote-signal record (R395). -/
structure LinkRec where
  node : Nat
  exp : Nat
  typ : Nat
  lo : Word
  hi : Word
  ts : Word
  deriving DecidableEq, Repr

/-- A Draora Link frame (Table 14-2), its reserved bits 0, with the CRC it carries. -/
structure LinkFrame where
  crc : Word
  ver : Nat
  node : Nat
  up : Bool
  masterOk : Bool
  fseq : Nat
  time : Nat
  rate : Word
  step : Int
  echo : Nat
  turn : Nat
  nodes : Word
  evs : List TrgEv
  recs : List LinkRec
  stepAt : Nat
  deriving DecidableEq, Repr

/-- A request that reaches the PCIe endpoint (R428, R429): a memory read of one or two words or a write of one word at an
offset of BAR0 or BAR2, or a change of the MSI-X function mask. `ecc`: the memory errors the read meets, each uncorrectable or corrected,
at its address (R33, R34). -/
inductive PcieReq where
  | read (bar2 : Bool) (off : Nat) (wide : Bool) (ecc : List (Bool × Nat))
  | write (bar2 : Bool) (off : Nat) (v : Word)
  | functionMask (on : Bool)
  deriving DecidableEq, Repr

/-- A CAN frame (R452): identifier, IDE, FDF, BRS, ESI, RTR, DLC and its data bytes. -/
structure CanFrame where
  id : BitVec 29
  ide : Bool
  fdf : Bool
  brs : Bool
  esi : Bool
  rtr : Bool
  dlc : Fin 16
  data : List Nat
  deriving DecidableEq, Repr

/-- What a field die answers at a refresh (R475): nothing, a frame that is discarded, or a good one with pin levels read back,
present open-load and short conditions, L+ in 0.1 V, sixteen input voltages and eight output currents. -/
inductive DieAns where
  | silent
  | bad
  | good (pins ol sh : BitVec 8) (lplus : Nat) (volts curs : List Nat)
  deriving DecidableEq, Repr

/-- An image in flash (Table 19-2): the 512 bytes of its header, and the body as stored. -/
structure FlashImg where
  hdr : List Nat
  body : List Nat
  deriving DecidableEq, Repr, Inhabited

/-- An entry of a boot table (R495): the image kind, whether it is entry B, its generation number, and the image its flash offset
names. -/
structure BootEntry where
  kind : Fin 8
  entryB : Bool
  gen : Nat
  img : FlashImg
  deriving DecidableEq, Repr, Inhabited

/-- What the boot ROM reads at a reset (R495, R498, R502): whether the device key and every slot check, the boot tables of `MSP[0]` and
`MSP[1]` where those are valid, and the flash ranges to lock. -/
structure BootRes where
  ksOk : Bool
  tab0 : Option (List BootEntry)
  tab1 : Option (List BootEntry)
  locks : List Word
  deriving DecidableEq, Repr, Inhabited

/-- What the boot settles from it (R495 to R497, R517): the source of the application cores' firmware, the kinds that failed, whether some kind fell
back, the body of the boot configuration, the security versions that run, and the entry address of that firmware. -/
structure BootEnd where
  src : Nat
  fail : BitVec 8
  fallback : Bool
  cfg : Option (List Word)
  vers : List (Nat × Nat)
  entry : Nat
  deriving DecidableEq, Repr

/-- The compiled code of a bench or of a user block, as R309 builds it: elementary operations, block calls (the block's TYPE and,
in a bench, the INST_ID it works on, in a user block the number of the part) and counted loops, one after the other. -/
inductive LeCode where
  | fin
  | ops (n : Nat) (rest : LeCode)
  | call (typ part : Nat) (rest : LeCode)
  | loop (count : Nat) (body rest : LeCode)
  deriving DecidableEq, Repr

/-- The types of Table 11-1 whose values are numbers. -/
inductive LeNum where
  | dint | fix | pos | real
  deriving DecidableEq, Repr

/-- Operations on numbers, comparisons of them, and logical operations on BOOL. -/
inductive LeOp where
  | add | sub | mul | div
  deriving DecidableEq, Repr
inductive LeCmp where
  | eq | lt | le
  deriving DecidableEq, Repr
inductive LeLog where
  | and | or | xor
  deriving DecidableEq, Repr

/-- A value that a bench cycle computes (R306 to R308), in the slot layout of its type, a REAL as the bits of its binary32: a constant, a
signal of the cycle's snapshot, output `port` (0 Q, 1 ET or CV, 2 QD) of block call `k` of the cycle, `n` bytes of the data of the
instance of a user block, or an elementary operation on such values. -/
inductive LeVal where
  | lit (v : BitVec 64)
  | sig (id : Nat)
  | out (k port : Nat)
  | var (id off n : Nat)
  | not (a : LeVal)
  | log (o : LeLog) (a b : LeVal)
  | num (ty : LeNum) (o : LeOp) (a b : LeVal)
  | cmp (ty : LeNum) (o : LeCmp) (a b : LeVal)
  | toReal (a : LeVal)
  | ofReal (a : LeVal)
  deriving DecidableEq, Repr

/-- What the code of a bench does in a cycle: a block call, of an instance by its INST_ID and then by the parts of user blocks that lead
to it, with the inputs in the order IEC 61131-3 names them, PT, PV or the selector among them; a value stored into the data of the
instance of a user block; a signal written; a value computed. -/
inductive LeAct where
  | call (path : List Nat) (ins : List LeVal)
  | store (id off n : Nat) (v : LeVal)
  | write (id : BitVec 16) (v : LeVal)
  | eval (v : LeVal)
  deriving DecidableEq, Repr

/-- The boundary-scan instructions (R499, Table 19-3). -/
inductive JtagInstr where
  | idcode | bypass | samplePreload | extest | clamp | intest | other
  deriving DecidableEq, Repr

end Sys2Proof
end

