-- ==== Sys2Proof/Syntax.lean ====
section
/-! DEFINITION. The commands and events of the device: one constructor per row of the opcode table, with the operands
that the row's rule names. An event carries what the outside or the passing of time supplies with it. -/
namespace Sys2Proof

/-- The steps of the device, one constructor per row of spec/opcode_table.json. -/
inductive Instr where
  /-- PAGE_ENABLE (R39): A write of PGCTL.EN switches a page between OFF and its enabled state. -/
  | pageEnable (pg : PageId) (on : Bool)
  /-- SOFT_RESET (R40): A write of PGCTL.SRST=1 soft-resets the block, or is refused with WRONG_STATE in a running state. -/
  | softReset (pg : PageId)
  /-- FREEZE (R51): A write of PGCTL.FREEZE holds the block at its next commit boundary, or releases a hold that FREEZE caused. -/
  | pageFreeze (pg : PageId) (on : Bool)
  /-- LOCK_REQUEST (R43): A write of PGCTL.LOCKREQ=1 locks the page in the next island cycle. -/
  | lockRequest (pg : PageId)
  /-- UNLOCK_WINDOW (R44): Two consecutive PGKEY writes of the key pair open a one-write unlock window; any other word restarts the sequence with LOCKED. -/
  | unlockWindow (pg : PageId) (w : Word)
  /-- DBGSAFE_CHANGE (R45): The one PGCTL write allowed in an unlock window changes DBGSAFE, and is refused whole with LIFECYCLE in SECURED when it clears it. -/
  | dbgsafeChange (pg : PageId) (w : Word)
  /-- PGCOMMIT_WRITE (R48): A write of PGCOMMIT sets COMMIT_PENDING and compares the written CRC with the CRC of the staging store. -/
  | pgcommitWrite (pg : PageId) (crc : Word)
  /-- COMMIT_VALIDATION_END (R48): Validation of a staged set ends within 256 or 4,096 island cycles and accepts the commit or refuses it with a code of Table 2-9. -/
  | commitValidationEnd (pg : PageId)
  /-- COMMIT_BOUNDARY (R49): At the page's commit boundary every staged value of an accepted commit becomes active and COMMITTED sets. -/
  | commitBoundary (pg : PageId)
  /-- START (R54): Common command START takes a page from IDLE to RUN. -/
  | cmdStart (pg : PageId) (m : Master) (chk : BitVec 16)
  /-- STOP (R54): Common command STOP takes a page from RUN or HOLD to IDLE by the block's stop behaviour. -/
  | cmdStop (pg : PageId) (m : Master) (chk : BitVec 16)
  /-- HOLD (R54): Common command HOLD takes a page from RUN to HOLD. -/
  | cmdHold (pg : PageId) (m : Master) (chk : BitVec 16)
  /-- CONTINUE (R54): Common command CONTINUE takes a page from HOLD to RUN. -/
  | cmdContinue (pg : PageId) (m : Master) (chk : BitVec 16)
  /-- DISCARD (R54): Common command DISCARD sets the staging store equal to the active values and clears STAGED_DIRTY. -/
  | cmdDiscard (pg : PageId) (m : Master) (chk : BitVec 16)
  /-- CLEAR_FAULT (R54): Common command CLEAR_FAULT takes a page from FAULT to IDLE once the cause has gone. -/
  | cmdClearFault (pg : PageId) (m : Master) (chk : BitVec 16)
  /-- ABORT (R54): Common command ABORT ends the running or queued long operation with PGPROG PHASE 14. -/
  | cmdAbort (pg : PageId) (m : Master) (chk : BitVec 16)
  /-- COMMAND_BOUNDARY (R55): An accepted command that waits acts at the page's commit boundary, clears CMD_PENDING and sets CMD_DONE. -/
  | commandBoundary (pg : PageId)
  /-- INT_CLR_WRITE (R62): A write of INT_CLR clears the INT_RAW bits written 1, except those that an event sets in the same cycle. -/
  | intClrWrite (pg : PageId) (w : Word) (ev : Word)
  /-- INT_SET_WRITE (R62): A write of INT_SET sets INT_RAW bits as their events would. -/
  | intSetWrite (pg : PageId) (w : Word)
  /-- WIDE_READ_SNAPSHOT (R60): A read of the low word of a wide value latches its remaining words into a snapshot that later high-word reads return. -/
  | wideReadSnapshot (pg : PageId) (off : Nat)
  /-- WIDE_WRITE_APPLY (R61): The write of the highest word of a wide RW value applies all its words in one island cycle. -/
  | wideWriteApply (pg : PageId) (off : Nat) (v : Word)
  /-- REGISTER_WRITE (R2): A write to a register without behaviour of its own acts by its access code, live, staged or ignored. -/
  | registerWrite (m : Master) (pg : PageId) (off : Nat) (v : Word)
  /-- W1C_STATUS_WRITE (R62): A write to a W1C status register clears the bits written 1 unless the hardware sets them in the same cycle. -/
  | w1cStatusWrite (pg : PageId) (off : Nat) (w : Word) (ev : Word)
  /-- READ_CLEAR_REGISTER (R222): A read of a maximum register such as LOAD_MAX, QUEUE_MAX, B_MAX, WAIT_MAX or HIST_PEAK returns the value and clears it. -/
  | readClearRegister (pg : PageId) (off : Nat)
  /-- BASE_TICK (R376): A base tick edge falls at each multiple of 62,500 steps of extended time, slewed by one step per tick after a time step. -/
  | baseTick (t : Nat)
  /-- APC_PUBLISH (R19): An application core or host publishes an APC-sourced signal by writing VALUE_LO and, for 48.16, VALUE_HI. -/
  | apcPublish (m : Master) (id : BitVec 16) (hi : Bool) (v : Word)
  /-- PI_VALUE_READ (R18): A read of VALUE_LO of a process-image slot snapshots VALUE_HI, TSTAMP and STATUS of that slot. -/
  | piValueRead (id : BitVec 16) (ecc : List (Bool × Nat))
  /-- DEBUG_HALT (R42): A debug halt of a controlling engine drives each page with DBGSAFE=1 into SAFE within 1 µs. -/
  | debugHalt (e : Engine)
  /-- ACCESS_ERROR (R27): An access outside the address map or against its access column ends with an error response to the master. -/
  | accessError (m : Master) (addr : Nat) (write : Bool)
  /-- FAB_LOG_IDX_WRITE (R32): A write of FAB LOG_IDX selects a log entry by age, or is ignored with RANGE at or above LOG_COUNT. -/
  | fabLogIdxWrite (v : Word)
  /-- FAB_CLEAR_LOG (R33): The FAB command CLEAR_LOG empties the log, zeroes LOG_OVF and clears STAT.OVF. -/
  | fabClearLog (chk : BitVec 16)
  /-- SCRUB (R35): The MEM command SCRUB runs one full scrub pass of the channel as a long operation. -/
  | memScrub (n : Fin 2) (chk : BitVec 16)
  /-- SCRUB_PASS_END (R35): A scrub pass ends, increments SCRUB_CNT and sets SCRUB_DONE. -/
  | scrubPassEnd (n : Fin 2) (ecc : List (Bool × Nat))
  /-- SCRUB_TIMER (R35): With SCRUB_EN=1 a background pass starts every SCRUB_HOURS hours. -/
  | scrubTimer (n : Fin 2) (t : Nat) (ecc : List (Bool × Nat))
  /-- ENC_EDGE_ACCEPT (R70): An ENC input transition is accepted after holding its level for the filter time, counted and timestamped. -/
  | encEdgeAccept (n : Fin 64) (t te : Nat) (a b z : Bool)
  /-- ENC_INDEX (R73): An accepted rising Z edge latches the position and time of the index. -/
  | encIndex (n : Fin 64) (t te : Nat)
  /-- STANDSTILL (R83): No accepted edge for STANDSTILL_T µs sets speed and acceleration to 0 and STAT.STILL. -/
  | standstill (n : Fin 64) (t : Nat)
  /-- SET_POS (R75): The ENC command SET_POS moves the position at the next base tick so that it equals PRESET. -/
  | setPos (n : Fin 64) (chk : BitVec 16)
  /-- ARM_INDEX (R88): The ENC command ARM_INDEX arms the next index to reset the position in ONCE mode. -/
  | armIndex (n : Fin 64) (chk : BitVec 16)
  /-- LEARN_LINES (R77): The ENC command LEARN_LINES measures the net count over LEARN_REVS revolutions as a long operation. -/
  | learnLines (n : Fin 64) (chk : BitVec 16)
  /-- SSN_FRAME_START (R93): A trigger starts a serial sensor frame, or is skipped and counted when a frame runs. -/
  | ssnFrameStart (m : Fin 16) (t : Nat)
  /-- SSN_FRAME_END (R94): A received sensor frame is judged good or bad and a good one updates count, observer and publication. -/
  | ssnFrameEnd (m : Fin 16) (t : Nat) (sl : Bool) (f : SsnFrame)
  /-- SSN_TIMEOUT (R92): A start bit or line release missing within TIMEOUT makes the frame a NO_ACK frame. -/
  | ssnTimeout (m : Fin 16) (t : Nat) (f : Option SsnFrame)
  /-- SSN_TRIGGER (R96): The SSN command TRIGGER starts a frame when CFG.TRIG selects commands. -/
  | ssnTrigger (m : Fin 16) (chk : BitVec 16)
  /-- CDM_TX_WRITE (R97): A write of CDM_TX restarts the CDM bit sequence at the next BiSS frame. -/
  | cdmTxWrite (m : Fin 16) (v : Word)
  /-- CDS_RX_READ (R97): A read of CDS_RX returns the last 32 CDS bits and restarts the count for CDS_FULL. -/
  | cdsRxRead (m : Fin 16)
  /-- MOVE_ABS (R108): The AXIS command MOVE_ABS plans a time-optimal move to TARGET. -/
  | moveAbs (n : Fin 128) (chk : BitVec 16)
  /-- MOVE_REL (R108): The AXIS command MOVE_REL plans a move by TARGET from TARGET_ACT or SETP. -/
  | moveRel (n : Fin 128) (chk : BitVec 16)
  /-- VELOCITY (R109): The AXIS command VELOCITY ramps to VTARGET and holds it. -/
  | axisVelocity (n : Fin 128) (chk : BitVec 16)
  /-- GEAR_IN (R112): The AXIS command GEAR_IN engages gearing to the master by VEL or CATCHUP. -/
  | gearIn (n : Fin 128) (chk : BitVec 16)
  /-- GEAR_OUT (R113): The AXIS command GEAR_OUT brings the set-point to rest within the limits. -/
  | gearOut (n : Fin 128) (chk : BitVec 16)
  /-- CAM_IN (R118): The AXIS command CAM_IN puts the axis into CAM mode waiting for CAM_START. -/
  | camIn (n : Fin 128) (chk : BitVec 16)
  /-- CAM_OUT (R119): The AXIS command CAM_OUT leaves CAM mode at the next wrap or at once and brings the set-point to rest. -/
  | camOut (n : Fin 128) (chk : BitVec 16)
  /-- PVT_START (R120): The AXIS command PVT_START runs a TIME pricking table from x = 0. -/
  | pvtStart (n : Fin 128) (chk : BitVec 16)
  /-- FOLLOW_ON (R123): The AXIS command FOLLOW_ON makes the set-point track an external set-point within the limits. -/
  | followOn (n : Fin 128) (chk : BitVec 16)
  /-- FOLLOW_OFF (R125): The AXIS command FOLLOW_OFF ends following and brings the set-point to rest. -/
  | followOff (n : Fin 128) (chk : BitVec 16)
  /-- HOME (R135): The AXIS command HOME runs the homing method of HOMECFG.METHOD. -/
  | axisHome (n : Fin 128) (chk : BitVec 16)
  /-- RESUME (R128): The AXIS command RESUME plans a fresh move from rest to the unchanged TARGET_ACT. -/
  | axisResume (n : Fin 128) (chk : BitVec 16)
  /-- QUICKSTOP (R126): The AXIS command QUICKSTOP brings the set-point to rest at QDEC and enters SAFE. -/
  | quickstop (n : Fin 128) (chk : BitVec 16)
  /-- LIMIT_ACCEPT (R131): A hard-limit input that holds its active level for DEBOUNCE.LIM is accepted, latches ACT and stops motion into it. -/
  | limitAccept (n : Fin 128) (t : Nat) (neg : Bool) (dt : Nat)
  /-- LIMIT_RELEASE (R132): An accepted limit clears once the axis has moved LIM_CLEAR away and the input has held inactive for the debounce. -/
  | limitRelease (n : Fin 128) (t : Nat) (neg : Bool)
  /-- HOME_EDGE_ACCEPT (R135): A home input edge that holds for DEBOUNCE.HOME is accepted and moves homing to its next phase. -/
  | homeEdgeAccept (n : Fin 128) (t : Nat) (active : Bool) (dt : Nat)
  /-- PRK_CHECK (R116): The PRK command CHECK scans the table named by CHECK_SEL as a long operation. -/
  | prkCheck (n : Fin 4) (chk : BitVec 16)
  /-- PRK_CHECK_END (R116): The table scan ends, setting VALID or failing with BAD_POINT. -/
  | prkCheckEnd (n : Fin 4)
  /-- PRK_POINT_WRITE (R116): A write to a pricking point clears the table's VALID, or is discarded with CONFLICT while the table is in use. -/
  | prkPointWrite (m : Master) (addr : Nat) (v : Word)
  /-- PCMP_FIRE (R147): The compared value reaches the head's compare value and the unit performs its action at the pin. -/
  | pcmpFire (n : Fin 64) (t : Nat)
  /-- PCMP_PULSE_END (R147): A PULSE output returns to its inactive level after WIDTH × 125 ps. -/
  | pcmpPulseEnd (n : Fin 64) (t : Nat)
  /-- PCMP_LATCH_EDGE (R153): An accepted latch-input edge appends its time and position to the latch queue. -/
  | pcmpLatchEdge (n : Fin 64) (te : Nat) (rising : Bool)
  /-- MARK_WINDOW_CLOSE (R155): A registration window closes without a mark and counts in MARK_MISS_CNT. -/
  | markWindowClose (n : Fin 64) (t : Nat)
  /-- LATCH_QUEUE_READ (R154): A read of LATCH_POS_LO returns and removes the oldest latch entry and snapshots its other words. -/
  | latchQueueRead (n : Fin 64)
  /-- FLUSH (R157): The PCMP command FLUSH empties the compare queue without counting misses. -/
  | pcmpFlush (n : Fin 64) (chk : BitVec 16)
  /-- LATCH_CLEAR (R157): The PCMP command LATCH_CLEAR empties the latch queue and clears LQ_OVF. -/
  | latchClear (n : Fin 64) (chk : BitVec 16)
  /-- STEP_EMIT (R160): A STEP channel emits a step at the instant the interpolated set-point crosses a whole count, delayed to the pulse minima. -/
  | stepEmit (n : Fin 64) (t : Nat)
  /-- STEP_HOLD_AMP (R162): After SETV has been 0 for HOLD_DELAY µs the amplitude becomes AMP_HOLD. -/
  | stepHoldAmp (n : Fin 64) (t : Nat)
  /-- EDIT_SEL_WRITE (R167): A write of USTP EDIT_SEL starts a copy of the named active table into the staging store. -/
  | editSelWrite (v : Word)
  /-- USTP_COPY_END (R167): The staging-window copy ends with BUSY=0 and STAGED_DIRTY=0. -/
  | ustpCopyEnd
  /-- NOP (R198): Loop-core instruction NOP does nothing. -/
  | lcNop (a : LcAt) (wide : Bool)
  /-- MPY (R198): Loop-core instruction MPY writes the product of two data registers to an accumulator. -/
  | lcMpy (a : LcAt) (mv : Option LcSlots) (an : Fin 4) (da db : Fin 32)
  /-- MAC (R198): Loop-core instruction MAC adds a product to an accumulator, saturating once. -/
  | lcMac (a : LcAt) (mv : Option LcSlots) (an : Fin 4) (da db : Fin 32)
  /-- MSU (R198): Loop-core instruction MSU subtracts a product from an accumulator. -/
  | lcMsu (a : LcAt) (mv : Option LcSlots) (an : Fin 4) (da db : Fin 32)
  /-- PMAC (R198): Loop-core instruction PMAC accumulates two products into a pair of accumulators. -/
  | lcPmac (a : LcAt) (mv : Option LcSlots) (an : Fin 4) (da db dd : Fin 32)
  /-- CLRA (R198): Loop-core instruction CLRA clears an accumulator. -/
  | lcClra (a : LcAt) (mv : Option LcSlots) (an : Fin 4)
  /-- LDA (R198): Loop-core instruction LDA loads a data register into an accumulator. -/
  | lcLda (a : LcAt) (mv : Option LcSlots) (an : Fin 4) (da : Fin 32)
  /-- ADDA (R198): Loop-core instruction ADDA adds two accumulators. -/
  | lcAdda (a : LcAt) (mv : Option LcSlots) (an am : Fin 4)
  /-- SUBA (R198): Loop-core instruction SUBA subtracts two accumulators. -/
  | lcSuba (a : LcAt) (mv : Option LcSlots) (an am : Fin 4)
  /-- NEGA (R198): Loop-core instruction NEGA negates an accumulator. -/
  | lcNega (a : LcAt) (mv : Option LcSlots) (an : Fin 4)
  /-- ABSA (R198): Loop-core instruction ABSA takes the magnitude of an accumulator. -/
  | lcAbsa (a : LcAt) (mv : Option LcSlots) (an : Fin 4)
  /-- SHLA (R173): Loop-core instruction SHLA shifts an accumulator left with saturation. -/
  | lcShla (a : LcAt) (mv : Option LcSlots) (an : Fin 4) (k : Fin 16)
  /-- SHRA (R198): Loop-core instruction SHRA shifts an accumulator arithmetically right. -/
  | lcShra (a : LcAt) (mv : Option LcSlots) (an : Fin 4) (k : Fin 16)
  /-- SATA (R198): Loop-core instruction SATA limits an accumulator to −1 to 1 − 2⁻⁴⁷. -/
  | lcSata (a : LcAt) (mv : Option LcSlots) (an : Fin 4)
  /-- RNDA (R198): Loop-core instruction RNDA rounds an accumulator at bit 24 by MR.RND. -/
  | lcRnda (a : LcAt) (mv : Option LcSlots) (an : Fin 4)
  /-- MOVA (R175): Loop-core instruction MOVA converts an accumulator to a 24-bit data register. -/
  | lcMova (a : LcAt) (mv : Option LcSlots) (dd : Fin 32) (an : Fin 4)
  /-- ADD (R176): Loop-core instruction ADD adds two data registers, wrapping. -/
  | lcAdd (a : LcAt) (mv : Option LcSlots) (dd da db : Fin 32)
  /-- SUB (R176): Loop-core instruction SUB subtracts two data registers, wrapping. -/
  | lcSub (a : LcAt) (mv : Option LcSlots) (dd da db : Fin 32)
  /-- ADDS (R176): Loop-core instruction ADDS adds two data registers, saturating. -/
  | lcAdds (a : LcAt) (mv : Option LcSlots) (dd da db : Fin 32)
  /-- SUBS (R176): Loop-core instruction SUBS subtracts two data registers, saturating. -/
  | lcSubs (a : LcAt) (mv : Option LcSlots) (dd da db : Fin 32)
  /-- NEG (R176): Loop-core instruction NEG negates a data register, wrapping. -/
  | lcNeg (a : LcAt) (mv : Option LcSlots) (dd da : Fin 32)
  /-- ABS (R176): Loop-core instruction ABS takes the magnitude of a data register, saturating. -/
  | lcAbs (a : LcAt) (mv : Option LcSlots) (dd da : Fin 32)
  /-- AND (R198): Loop-core instruction AND combines two data registers bitwise. -/
  | lcAnd (a : LcAt) (mv : Option LcSlots) (dd da db : Fin 32)
  /-- OR (R198): Loop-core instruction OR combines two data registers bitwise. -/
  | lcOr (a : LcAt) (mv : Option LcSlots) (dd da db : Fin 32)
  /-- XOR (R198): Loop-core instruction XOR combines two data registers bitwise. -/
  | lcXor (a : LcAt) (mv : Option LcSlots) (dd da db : Fin 32)
  /-- SHL (R176): Loop-core instruction SHL shifts a data register left, wrapping. -/
  | lcShl (a : LcAt) (mv : Option LcSlots) (dd da : Fin 32) (k : Fin 16)
  /-- SHR (R198): Loop-core instruction SHR shifts a data register arithmetically right. -/
  | lcShr (a : LcAt) (mv : Option LcSlots) (dd da : Fin 32) (k : Fin 16)
  /-- SHRL (R198): Loop-core instruction SHRL shifts a data register logically right. -/
  | lcShrl (a : LcAt) (mv : Option LcSlots) (dd da : Fin 32) (k : Fin 16)
  /-- MIN (R198): Loop-core instruction MIN takes the signed minimum of two data registers. -/
  | lcMin (a : LcAt) (mv : Option LcSlots) (dd da db : Fin 32)
  /-- MAX (R198): Loop-core instruction MAX takes the signed maximum of two data registers. -/
  | lcMax (a : LcAt) (mv : Option LcSlots) (dd da db : Fin 32)
  /-- CMP (R198): Loop-core instruction CMP sets flags from the difference of two data registers. -/
  | lcCmp (a : LcAt) (mv : Option LcSlots) (da db : Fin 32)
  /-- CLIP (R198): Loop-core instruction CLIP limits a data register to ±|Db|. -/
  | lcClip (a : LcAt) (mv : Option LcSlots) (dd da db : Fin 32)
  /-- MOV (R198): Loop-core instruction MOV copies a register. -/
  | lcMov (a : LcAt) (rd rs : Fin 64)
  /-- MVC_TO_CONTROL (R170): Loop-core instruction MVC writes a control register by Table 6-2. -/
  | lcMvcToControl (a : LcAt) (ctl rs : Fin 64)
  /-- MVC_FROM_CONTROL (R170): Loop-core instruction MVC reads a control register into a register. -/
  | lcMvcFromControl (a : LcAt) (rd ctl : Fin 64)
  /-- CLRF (R177): Loop-core instruction CLRF clears the sticky AOV and SOV flags. -/
  | lcClrf (a : LcAt)
  /-- ROT (R189): Loop-core instruction ROT rotates the rotating register base. -/
  | lcRot (a : LcAt)
  /-- LD (R181): Loop-core instruction LD loads a register from X or Y memory. -/
  | lcLd (a : LcAt) (y : Bool) (p : Fin 8) (am : Fin 8) (ofs : BitVec 11) (reg : Fin 64)
  /-- ST (R181): Loop-core instruction ST stores a register to X or Y memory. -/
  | lcSt (a : LcAt) (y : Bool) (p : Fin 8) (am : Fin 8) (ofs : BitVec 11) (reg : Fin 64)
  /-- LDP (R180): Loop-core instruction LDP loads a register pair from an aligned word pair. -/
  | lcLdp (a : LcAt) (y : Bool) (p : Fin 8) (am : Fin 8) (ofs : BitVec 11) (reg : Fin 64)
  /-- STP (R180): Loop-core instruction STP stores a register pair to an aligned word pair. -/
  | lcStp (a : LcAt) (y : Bool) (p : Fin 8) (am : Fin 8) (ofs : BitVec 11) (reg : Fin 64)
  /-- MOVE_SLOT_LOAD (R197): A move slot of a parallel bundle loads a data register through a pointer. -/
  | lcMoveSlotLoad (a : LcAt) (y pair : Bool) (p : Fin 8) (am : Fin 4) (d : Fin 32) (other : BitVec 16)
  /-- MOVE_SLOT_STORE (R197): A move slot of a parallel bundle stores a data register through a pointer. -/
  | lcMoveSlotStore (a : LcAt) (y pair : Bool) (p : Fin 8) (am : Fin 4) (d : Fin 32) (other : BitVec 16)
  /-- MOVE_SLOT_EXCHANGE (R197): An exchange slot stores a data register and loads it with the word's previous value. -/
  | lcMoveSlotExchange (a : LcAt) (y : Bool) (p : Fin 8) (am : Fin 4) (d : Fin 32) (other : BitVec 16)
  /-- IN (R204): Loop-core instruction IN reads a fast-path port into a data register. -/
  | lcIn (a : LcAt) (reg : Fin 64) (port : Fin 2048)
  /-- OUT (R204): Loop-core instruction OUT writes a data register into the output buffer for a port. -/
  | lcOut (a : LcAt) (reg : Fin 64) (port : Fin 2048)
  /-- LDG (R184): Loop-core instruction LDG loads from the system address map, stalling until the transfer completes. -/
  | lcLdg (a : LcAt) (g1 : Bool) (reg : Fin 64) (ofs : BitVec 17) (stall : Nat) (ecc : List (Bool × Nat))
  /-- STG (R184): Loop-core instruction STG stores to the system address map, stalling until the transfer completes. -/
  | lcStg (a : LcAt) (g1 : Bool) (reg : Fin 64) (ofs : BitVec 17) (stall : Nat)
  /-- FTAP (R199): Loop-core instruction FTAP computes two filter taps and moves the delay line through FTC. -/
  | lcFtap (a : LcAt) (clr : Bool) (an : Fin 4) (px py : Fin 8)
  /-- BR (R188): Loop-core instruction BR branches to TGT if its condition holds, after one delay slot. -/
  | lcBr (a : LcAt) (cond : Fin 16) (tgt : BitVec 14)
  /-- CALL (R188): Loop-core instruction CALL branches to TGT and writes LINK. -/
  | lcCall (a : LcAt) (cond : Fin 16) (tgt : BitVec 14)
  /-- RET (R188): Loop-core instruction RET branches to LINK. -/
  | lcRet (a : LcAt) (cond : Fin 16)
  /-- RETI (R194): Loop-core instruction RETI returns to level SR.PLVL at EPC. -/
  | lcReti (a : LcAt) (cond : Fin 16)
  /-- BREAK (R191): Loop-core instruction BREAK ends the innermost repeat after its delay slot. -/
  | lcBreak (a : LcAt) (cond : Fin 16)
  /-- TEND (R203): Loop-core instruction TEND ends the sample, releasing buffered OUT writes and publishing outputs. -/
  | lcTend (a : LcAt) (cond : Fin 16)
  /-- TRAP (R195): Loop-core instruction TRAP takes exception 0x05 with its number in ECAUSE. -/
  | lcTrap (a : LcAt) (cond n : Fin 16)
  /-- BREP (R190): Loop-core instruction BREP starts a block repeat of CNT iterations. -/
  | lcBrep (a : LcAt) (reg : Option (Fin 32)) (cnt : BitVec 16) (rot : Bool) (last : BitVec 8)
  /-- BREP_LOOP_END (R190): The repeat count of a block repeat runs out and the bundle after the body issues next. -/
  | lcBrepLoopEnd (c : Fin 18)
  /-- MOVI (R198): Loop-core instruction MOVI loads a signed 20-bit immediate. -/
  | lcMovi (a : LcAt) (reg : Fin 64) (imm : BitVec 20)
  /-- LDI (R198): Loop-core instruction LDI loads a 32-bit immediate. -/
  | lcLdi (a : LcAt) (reg : Fin 64) (imm : Word)
  /-- LDC (R170): Loop-core instruction LDC loads a control register with a 32-bit immediate. -/
  | lcLdc (a : LcAt) (ctl : Fin 64) (imm : Word)
  /-- LC_INTERRUPT (R192): A level-1 or level-2 interrupt request enters its level and fetches its vector. -/
  | lcInterrupt (c : Fin 18) (v : Fin 32)
  /-- SAMPLE_START (R201): A released sample starts on its core once earlier samples end, with reset level-0 registers. -/
  | sampleStart (c : Fin 18) (gap : Nat)
  /-- SAMPLE_CUT (R206): A sample charged TBUDGET cycles or passing its deadline is cut and its outputs discarded. -/
  | sampleCut (c : Fin 18)
  /-- STITCH (R211): The LSCH command STITCH moves the tasks of a core to a standby core. -/
  | lschStitch (chk : BitVec 16)
  /-- STITCH_COPY_END (R211): A copy phase of the stitch-over ends and the next phase begins. -/
  | stitchCopyEnd (lost : List (Fin 8192)) (ecc : List (Bool × Nat))
  /-- STITCH_SWITCH (R212): At the first free switch tick the moved tasks take the target core. -/
  | stitchSwitch (t : Nat)
  /-- STITCH_TIMEOUT (R213): No switch tick within STITCH_TMO ends the stitch-over in PHASE 14. -/
  | stitchTimeout (t : Nat)
  /-- FAILOVER_SWITCH (R215): The fail-over switches the failed core's tasks to the target at the first tick after the copy. -/
  | failoverSwitch (t : Nat)
  /-- FAILOVER_TIMEOUT (R216): No switch within FO_LIMIT raises LC_FAILOVER for the core's groups. -/
  | failoverTimeout (t : Nat)
  /-- RESTART (R218): The LSCH command RESTART reloads every core in service from its image. -/
  | lschRestart (chk : BitVec 16)
  /-- RESTART_END (R218): The reload ends and releases resume at the next tick. -/
  | lschRestartEnd (t : Nat) (ecc : List (Bool × Nat))
  /-- SELFTEST (R217): The LC command SELFTEST tests a free standby core's memories and datapath. -/
  | lcSelftest (c : Fin 18) (chk : BitVec 16)
  /-- SELFTEST_END (R217): The self-test ends in PHASE 15 or in PHASE 14 with the core in FAULT. -/
  | lcSelftestEnd (c : Fin 18) (cause : Fin 9) (w : Fin 16384)
  /-- CSLOT_SAMPLE_EVENT (R223): A control slot's sample event runs its 24-cycle output phase and delivers duties. -/
  | cslotSampleEvent (k : Fin 64) (t : Nat)
  /-- UPDATE_PHASE (R225): The slot's update phase runs on the matrix unit once it is free and publishes the slot's signals. -/
  | updatePhase (e : Fin 8) (t : Nat) (err : Option CsErr)
  /-- INPUT_WATCHDOG (R242): WDOG sample events without a loop-task write start the fallback loop or raise CSLOT_WDOG. -/
  | inputWatchdog (k : Fin 64) (t : Nat)
  /-- RT_EXPIRED (R244): A fallback running RT_MAX ms raises CSLOT_RT_EXPIRED. -/
  | rtExpired (k : Fin 64) (t : Nat)
  /-- PLAUS_FAULT (R235): PLAUS.CNT consecutive implausible residuals raise CSLOT_PLAUS and may enter FAULT. -/
  | plausFault (k : Fin 64)
  /-- REP_LEARN (R246): The CSLOT command REP_LEARN starts learning on the enabled channels. -/
  | repLearn (k : Fin 64) (chk : BitVec 16)
  /-- REP_FREEZE (R246): The CSLOT command REP_FREEZE stops learning while corrections still apply. -/
  | repFreeze (k : Fin 64) (chk : BitVec 16)
  /-- REP_CLEAR (R246): The CSLOT command REP_CLEAR clears all four tables as a long operation. -/
  | repClear (k : Fin 64) (chk : BitVec 16)
  /-- REP_CLEAR_END (R246): The table clear ends in PHASE 15. -/
  | repClearEnd (k : Fin 64)
  /-- RIDE (R242): The CSLOT command RIDE starts the fallback loop at the next sample event. -/
  | cslotRide (k : Fin 64) (chk : BitVec 16)
  /-- RESET_STATE (R226): The CSLOT command RESET_STATE sets the state to X_INIT at the next sample event. -/
  | resetState (k : Fin 64) (chk : BitVec 16)
  /-- REP_DATA_ACCESS (R240): An access of REP_DATA reads or writes the selected bin, advancing with AINC. -/
  | repDataAccess (k : Fin 64) (v : Option Word)
  /-- CE_UCODE_LOADED (R248): The control engine finishes loading its microcode and enters RUN. -/
  | ceUcodeLoaded (e : Fin 8) (t : Nat)
  /-- PWM_ZERO_EVENT (R251): A PWM counter reaches its zero event, writing ZERO_TS and serving commits and loads. -/
  | pwmZeroEvent (n : Fin 32) (t : Nat)
  /-- PWM_PERIOD_EVENT (R251): A PWM counter reaches its period event. -/
  | pwmPeriodEvent (n : Fin 32) (t : Nat)
  /-- PWM_POSITION_TRIGGER (R260): The counter reaches TRG_POS and fires the position trigger output. -/
  | pwmPositionTrigger (n : Fin 32) (k : Fin 4) (t : Nat)
  /-- FORCE_WRITE (R262): A write of PWM FORCE forces pair outputs from the next load event. -/
  | forceWrite (n : Fin 32) (v : Word)
  /-- FIN_TRIP (R264): An enabled fault pin at its active level latches and drives its mapped modules safe within 15 ns. -/
  | finTrip (raw : BitVec 16) (t : Nat)
  /-- FIN_CLEAR (R265): The FIN command CLEAR clears the latches of the pins in CLR_MASK. -/
  | finClear (chk : BitVec 16)
  /-- PWM_CLOCK_LOSS (R266): The PWM island clock absent for 5 ns hands the pads to the hold cells and raises PWM_CLK. -/
  | pwmClockLoss (t : Nat)
  /-- PWM_CLOCK_RETURN (R266): The returning clock puts every module that was counting into FAULT with cause CLOCK. -/
  | pwmClockReturn (t : Nat)
  /-- PWM_READBACK_MISMATCH (R268): A pad level differing from its intended level for RB_T raises PWM_READBACK. -/
  | pwmReadbackMismatch (n : Fin 32) (out : Fin 6) (held : Nat)
  /-- FCH_EFFECTIVE_TRIGGER (R278): A channel's trigger event, delayed by DELAY, starts or queues its conversion. -/
  | fchEffectiveTrigger (c : Fin 96) (t : Nat)
  /-- FCH_TRIGGER (R294): The FCH command TRIGGER starts a conversion. -/
  | fchTrigger (c : Fin 96) (chk : BitVec 16)
  /-- CONV_END (R282): A conversion ends and its corrected result becomes the channel's RESULT. -/
  | convEnd (c : Fin 96) (t : Nat) (qs other : List (BitVec 16))
  /-- FCH_LIMIT (R283): LIM_N consecutive results outside the limits set LIM_FAULT and raise FCH_LIMIT. -/
  | fchLimit (c : Fin 96)
  /-- FCG_CAL (R284): The FCG command CAL queues or starts a calibration of the named converter. -/
  | fcgCal (g : Fin 3) (chk : BitVec 16)
  /-- BOBBIN_CAL_END (R284): The bobbin converter's self-calibration ends and the shadow phase begins. -/
  | bobbinCalEnd (g : Fin 3) (t : Nat) (ofs : Int) (gain : Nat)
  /-- SHADOW_COMPLETE (R286): SHADOW_N shadow pairs are compared, passing to takeover or failing with cause 1. -/
  | shadowComplete (g : Fin 3) (t : Nat)
  /-- CONVERTER_CAL_END (R284): The converter under calibration finishes its working copy of coefficients. -/
  | converterCalEnd (g : Fin 3) (t : Nat) (ofs : Int) (gain : Nat)
  /-- VERIFY_COMPLETE (R286): SHADOW_N verify pairs are compared, passing to handback or parking the converter. -/
  | verifyComplete (g : Fin 3) (t : Nat)
  /-- CAL_TIMEOUT (R287): SHADOW_N pairs not reached within CAL_TMO fail the calibration with cause 4. -/
  | calTimeout (g : Fin 3) (t : Nat)
  /-- CONVERSION_FAILURE (R289): A conversion not complete within its occupation time parks the converter or faults its channels. -/
  | conversionFailure (c : Fin 96) (t : Nat)
  /-- AUTO_CAL_TIMER (R290): Every CAL_PERIOD seconds the group queues a calibration of the next working converter. -/
  | autoCalTimer (g : Fin 3) (t : Nat)
  /-- STARTUP_CAL_END (R291): The start-up calibration of all nine converters after START ends. -/
  | startupCalEnd (g : Fin 3) (t : Nat) (cs : List (Int × Nat))
  /-- PCV_OUTPUT_WORD (R299): A precision converter's settled word for a channel is published at CONV_END. -/
  | pcvOutputWord (k : Fin 8) (t : Nat) (p : Option (Fin 16)) (w : Int)
  /-- PCV_CAL (R302): The PCV command CAL calibrates offset and gain for every gain in use. -/
  | pcvCal (k : Fin 8) (chk : BitVec 16)
  /-- BENCH_RELEASE (R313): A bench is released at its phase plus whole periods of bench time. -/
  | benchRelease (e : Fin 6) (b : Fin 4) (t : Nat)
  /-- BENCH_CYCLE_START (R314): A released bench starts its cycle with a snapshot once no higher bench runs. -/
  | benchCycleStart (e : Fin 6) (b : Fin 4) (t : Nat) (ecc : List (Bool × Nat))
  /-- BENCH_CYCLE_END (R314): A bench cycle ends and publishes every signal it wrote with event BENCH. -/
  | benchCycleEnd (e : Fin 6) (b : Fin 4) (t : Nat) (acts : List LeAct)
  /-- LE_WATCHDOG_TRIP (R318): A bench cycle not ended within its budget trips the engine watchdog and puts the engine in SAFE. -/
  | leWatchdogTrip (e : Fin 6) (b : Fin 4) (t : Nat) (i : Fin 65536)
  /-- LE_LOAD (R312): The LE command LOAD reads a program image into the standby slot. -/
  | leLoad (e : Fin 6) (chk : BitVec 16)
  /-- LE_LOAD_END (R312): The program load ends in PHASE 15 with STANDBY_OK or in PHASE 14. -/
  | leLoadEnd (e : Fin 6) (prog : List LeCode) (env : List (Nat × LeCode)) (ecc : List (Bool × Nat))
  /-- LE_UNLOAD (R325): The LE command UNLOAD frees the standby slot. -/
  | leUnload (e : Fin 6) (chk : BitVec 16)
  /-- RESET_INST (R325): The LE command RESET_INST returns every instance of the running slot to its initial data. -/
  | resetInst (e : Fin 6) (chk : BitVec 16)
  /-- FORCE_SET (R328): An FRC commit with OP SET forces a signal to the window value. -/
  | forceSet (id : BitVec 16) (v : BitVec 64)
  /-- FORCE_RELEASE (R328): An FRC commit with OP RELEASE frees the force entry of the signal. -/
  | forceRelease (id : BitVec 16)
  /-- RELEASE_ALL (R332): The FRC command RELEASE_ALL frees every force entry. -/
  | releaseAll (chk : BitVec 16)
  /-- RSEQ_CLOCK_EDGE (R334): At each step-clock edge the stepper reads its condition, publishes ramps and decides whether the step ends. -/
  | rseqClockEdge (r : Fin 8) (t : Nat)
  /-- RSEQ_STEP_END (R336): A step ends by its kind, the successor is entered and its actions written. -/
  | rseqStepEnd (r : Fin 8)
  /-- WAIT_TIMEOUT (R336): A WAIT condition not true ARG clocks after DUR makes a hold request with cause TIMEOUT. -/
  | waitTimeout (r : Fin 8)
  /-- RSEQ_PULSE_END (R339): A PULSE action writes its end value after T clocks. -/
  | rseqPulseEnd (r : Fin 8)
  /-- RSEQ_LOAD (R337): The RSEQ command LOAD reads a recipe image into the inactive bank. -/
  | rseqLoad (r : Fin 8) (chk : BitVec 16)
  /-- RSEQ_LOAD_END (R337): The recipe load ends with the bank VALID or in PHASE 14. -/
  | rseqLoadEnd (r : Fin 8) (ecc : List (Bool × Nat))
  /-- RSEQ_UNLOAD (R347): The RSEQ command UNLOAD makes the inactive bank invalid. -/
  | rseqUnload (r : Fin 8) (chk : BitVec 16)
  /-- BRANCH_ABORT (R341): The RSEQ command BRANCH_ABORT makes an abort request. -/
  | branchAbort (r : Fin 8) (chk : BitVec 16)
  /-- TLOG_CLEAR (R347): The RSEQ command TLOG_CLEAR empties the transition log. -/
  | tlogClear (r : Fin 8) (chk : BitVec 16)
  /-- TLOG_ENT_READ (R345): A read of TLOG_ENT returns and removes the oldest transition-log entry. -/
  | tlogEntRead (r : Fin 8)
  /-- ENT_ID_WRITE (R350): A write of SIG ENT_ID starts a copy of that entry into the staged window. -/
  | entIdWrite (v : Word)
  /-- SIG_COPY_END (R350): The entry-window copy ends with BUSY=0 and STAGED_DIRTY=0. -/
  | sigCopyEnd
  /-- SIG_LOAD (R353): The SIG command LOAD replaces a range of signal-table entries from a table in memory. -/
  | sigLoad (chk : BitVec 16)
  /-- SIG_LOAD_END (R353): The table load ends with all entries active together or none changed. -/
  | sigLoadEnd (ecc : List (Bool × Nat))
  /-- HISTORY_APPEND (R357): A queued history entry or mark is appended to the history ring. -/
  | historyAppend (t : Nat) (ecc : List (Bool × Nat))
  /-- ACQ_SAMPLE (R361): An acquisition unit takes a sample at its instant and stores a frame per AVG_K. -/
  | acqSample (u : Fin 16) (t : Nat) (pads : Word)
  /-- ACQ_TRIGGER (R364): A trigger event is accepted or ignored by the unit's phase and may start POST. -/
  | acqTrigger (u : Fin 16) (t : Nat)
  /-- ACQ_TRIGGER_CMD (R364): The ACQ command TRIGGER acts as a trigger whatever KIND is. -/
  | acqTriggerCmd (u : Fin 16) (chk : BitVec 16)
  /-- REARM (R368): The ACQ command REARM abandons ARMING or ARMED, applies a pending commit and starts ARMING. -/
  | acqRearm (u : Fin 16) (chk : BitVec 16)
  /-- POST_COMPLETE (R367): The POST-th post-trigger frame is stored and REARM begins. -/
  | postComplete (u : Fin 16) (t : Nat)
  /-- REARM_END (R367): After 16 frame periods the header is written, REC_DONE sets and the next record starts per SEQ. -/
  | acqRearmEnd (u : Fin 16) (t : Nat)
  /-- EXPORT (R371): The REC command EXPORT copies a record or a history range to EXP_DST. -/
  | recExport (chk : BitVec 16)
  /-- EXPORT_END (R371): The export ends in PHASE 15 with EXP_LEN, or in PHASE 14. -/
  | recExportEnd (lost : Bool) (ues : List Nat)
  /-- TIME_WRAP (R375): The 32-bit nanosecond counter wraps, incrementing the wrap count and writing a WRAP mark. -/
  | timeWrap (t : Nat)
  /-- RATE_WRITE (R377): A write of TIME RATE adjusts the rate of device time from the next cycle, or is discarded. -/
  | rateWrite (v : Word)
  /-- STEP (R378): The TIME command STEP adds STEP_VAL to extended time, refused beyond JUMP_LIMIT. -/
  | timeStep (chk : BitVec 16)
  /-- FORCE_STEP (R378): The TIME command FORCE_STEP applies STEP_VAL whatever its size. -/
  | timeForceStep (chk : BitVec 16)
  /-- STEP_APPLY (R379): An accepted or announced step applies to device time, marking history and records. -/
  | timeStepApply (t : Nat)
  /-- HOLDOVER (R380): No adjustment for HOLDOVER_T ms sets HOLDOVER and raises TIME_HOLDOVER. -/
  | holdover (t : Nat)
  /-- JOIN (R391): The TIME command JOIN aligns a slave to its upstream master. -/
  | timeJoin (chk : BitVec 16)
  /-- JOIN_TIMEOUT (R391): No lock within JOIN_TMO ends JOIN in PHASE 14. -/
  | timeJoinTimeout (t : Nat)
  /-- LINK_FRAME_SEND (R388): A Draora Link port sends a frame at each multiple of 8,000 steps. -/
  | linkFrameSend (p : Fin 4) (t : Nat)
  /-- LINK_FRAME_RECEIVE (R389): A received link frame is checked and its time, records, triggers and announcements taken. -/
  | linkFrameReceive (p : Fin 4) (ta t : Nat) (f : LinkFrame)
  /-- LINK_DOWN (R399): A port losing frame lock for 4 frames clears UP and raises DLK_DOWN. -/
  | linkDown (p : Fin 4) (t : Nat)
  /-- NODE_LOST (R396): A node absent from NODES for 8 frames is lost and its imported signals go safe. -/
  | nodeLost (node : Fin 32) (t : Nat)
  /-- DLK_CALIBRATE (R393): The DLK command CALIBRATE measures the port's internal delays. -/
  | dlkCalibrate (p : Fin 4) (chk : BitVec 16)
  /-- DLK_CALIBRATE_END (R393): The calibration ends in PHASE 15 with STAT.CAL=1. -/
  | dlkCalibrateEnd (p : Fin 4) (tx rx : Word)
  /-- TRIGGER_LINE_CHANGE (R394): A trigger bus line's local level changes and, in DOMAIN mode on the owner, makes an event. -/
  | triggerLineChange (l : Fin 8) (level : Bool) (t : Nat)
  /-- TRIGGER_EVENT_DUE (R394): A domain trigger event reaches its due time and the line changes on every device. -/
  | triggerEventDue (t : Nat)
  /-- TXQ_KEY_READ (R383): A read of TXQ_KEY returns and removes the oldest transmit timestamp entry. -/
  | txqKeyRead (p : Fin 3)
  /-- TXQ_FLUSH (R386): The PTP command TXQ_FLUSH empties the three timestamp queues. -/
  | txqFlush (chk : BitVec 16)
  /-- FAULT_RAISE (R404): A fault source raise reaches FLT, sets group levels and writes or repeats a log entry. -/
  | faultRaise (src : Fin 64) (pg : PageId) (sub : Nat) (detail : BitVec 16)
  /-- FAULT_CONDITION_END (R404): An instance's LEVEL condition ends, clearing its hold and setting SRC_CLEAR. -/
  | faultConditionEnd (src : Fin 64) (pg : PageId) (sub : Nat)
  /-- RECOVER (R416): The FLT command RECOVER takes groups of RECOVER_MASK into recovery. -/
  | fltRecover (chk : BitVec 16)
  /-- RECOVERED (R417): The FLT command RECOVERED returns recovering groups to level NONE. -/
  | fltRecovered (chk : BitVec 16)
  /-- ACK (R419): The FLT command ACK sets ACK in every log entry. -/
  | fltAck (chk : BitVec 16)
  /-- FLT_CLEAR_LOG (R419): The FLT command CLEAR_LOG removes every acknowledged inactive entry. -/
  | fltClearLog (chk : BitVec 16)
  /-- RAISE (R419): The FLT command RAISE raises SW_FAULT with RAISE_MASK and RAISE_DETAIL. -/
  | fltRaise (chk : BitVec 16)
  /-- RECOVER_TIMEOUT (R417): A group still recovering RECOVER_T ms after RECOVER leaves recovery with its level kept. -/
  | fltRecoverTimeout (g : Fin 32)
  /-- FLT_LOG_IDX_WRITE (R415): A write of FLT LOG_IDX selects a log entry, or is ignored with RANGE at or above LOG_COUNT. -/
  | fltLogIdxWrite (v : Word)
  /-- PCIE_REQUEST (R428): A host memory request through BAR0 or BAR2 is served or completed as Unsupported Request. -/
  | pcieRequest (r : PcieReq)
  /-- MSIX_UNMASK (R429): Unmasking an MSI-X vector with its pending bit sends the message if the line is still asserted. -/
  | msixUnmask (v : Option (Fin 64))
  /-- CH_TAIL_WRITE (R430): A write of CH_TAIL gives descriptors to a DMA channel. -/
  | chTailWrite (c : Fin 16) (v : Word)
  /-- DMA_DESCRIPTOR (R430): A DMA channel processes the descriptor at CH_HEAD and writes its status back. -/
  | dmaDescriptor (c : Fin 16) (desc : List Word) (src : List Nat) (hostErr : Option Nat) (ecc : List (Bool × Nat))
  /-- PCIE_LINK_RESET (R432): A link-down, hot reset or function-level reset stops every DMA channel at once. -/
  | pcieLinkReset (flr : Bool)
  /-- HSP_READ (R436): A host serial READ frame reads words and returns them with a status and CRC. -/
  | hspRead (t : Nat) (alive : BitVec 8) (len : Nat) (addr : Nat) (crc : BitVec 16) (early : Bool) (ecc : List (Bool × Nat))
  /-- HSP_WRITE (R437): A good host serial WRITE frame writes its words at the release of select. -/
  | hspWrite (t : Nat) (alive : BitVec 8) (len : Nat) (addr : Nat) (data : List Nat) (crc : BitVec 16) (early : Bool)
  /-- HSP_STATUS (R433): A host serial STATUS frame returns the reply status word. -/
  | hspStatus (t : Nat) (alive : BitVec 8) (addr : Nat) (crc : BitVec 16) (early : Bool)
  /-- HSP_SILENT (R435): No good frame for SILENT_T ms sets STAT.SILENT. -/
  | hspSilent (t : Nat)
  /-- XIP_READ (R440): A read in an XIP window is served from the flash cache or fetches lines. -/
  | xipRead (p : Fin 2) (m : Master) (off : BitVec 28) (fetch : List (List Nat)) (ecc : List (Bool × Nat))
  /-- INDIRECT (R441): The MSP command INDIRECT sends a flash command and polls the flash status. -/
  | mspIndirect (p : Fin 2) (m : Master) (chk : BitVec 16)
  /-- INDIRECT_DONE (R441): The flash busy bit clears and INDIRECT ends in PHASE 15. -/
  | mspIndirectDone (p : Fin 2) (data : List Nat)
  /-- INDIRECT_TIMEOUT (R441): The poll exceeding IND_POLL.TMO ends INDIRECT in PHASE 14. -/
  | mspIndirectTimeout (p : Fin 2) (t : Nat)
  /-- PSP_FRAME (R442): A peripheral serial frame starts at its trigger, exchanging NWORDS words. -/
  | pspFrame (n : Fin 8) (t : Nat) (rx : List Word) (crc : BitVec 16)
  /-- PSP_TRIGGER (R442): The PSP command TRIGGER starts a frame. -/
  | pspTrigger (n : Fin 8) (chk : BitVec 16)
  /-- ETH_RECEIVE (R446): A received Ethernet frame is timestamped, forwarded by the switch or written to a receive ring. -/
  | ethReceive (p : Fin 3) (t : Nat) (frame : List Nat) (good : Bool) (te : Nat) (ecc : List (Bool × Nat))
  /-- ETH_TRANSMIT (R447): A transmit descriptor's frame leaves its port. -/
  | ethTransmit (p : Fin 3) (t : Nat) (ecc : List (Bool × Nat))
  /-- ETH_ADDRESS_AGE (R446): A learned address not seen for AGE seconds is aged out of the table. -/
  | ethAddressAge (t : Nat)
  /-- MDIO_ACCESS (R445): A write of MDIO with GO=1 runs one MDIO read or write on ETH[2]. -/
  | mdioAccess (p : Fin 3) (v : Word)
  /-- MDIO_DONE (R445): The MDIO transfer ends and sets MDIO_DONE. -/
  | mdioDone (data : BitVec 16)
  /-- RESTART_AP0 (R448): The APC command RESTART_AP0 resets AP0 and starts it at AP0_BOOT. -/
  | restartAp0 (chk : BitVec 16)
  /-- RESTART_AP1 (R448): The APC command RESTART_AP1 resets AP1 and starts it at AP1_BOOT. -/
  | restartAp1 (chk : BitVec 16)
  /-- READY_WRITE (R448): A core writing its READY bit ends its restart in PHASE 15. -/
  | readyWrite (m : Master) (v : Word)
  /-- RESTART_TIMEOUT (R448): No READY within 120 ms ends the restart in PHASE 14. -/
  | restartTimeout (t : Nat)
  /-- MB_RING (R449): A write of MB_RING posts a mailbox request to the service firmware. -/
  | mbRing (m : Master) (v : Word)
  /-- MB_RSP_RING (R449): A write of MB_RSP_RING posts the firmware's mailbox response. -/
  | mbRspRing (m : Master) (v : Word)
  /-- MB_ACK (R449): A write of MB_ACK clears REQ_PEND or RSP_PEND. -/
  | mbAck (m : Master) (w : Word)
  /-- CAN_FRAME_RECEIVE (R457): A received CAN frame is stored in the next object of the matching queue or lost. -/
  | canFrameReceive (k : Fin 8) (tsof t : Nat) (f : CanFrame)
  /-- TX_REQ (R460): A write of TX_REQ requests transmission of TX objects. -/
  | txReq (k : Fin 8) (w : Fin 4) (v : Word)
  /-- TX_CANCEL (R461): A write of TX_CANCEL cancels pending transmission requests. -/
  | txCancel (k : Fin 8) (w : Fin 4) (v : Word) (onBus : Option (Fin 128))
  /-- CAN_FRAME_SENT (R460): A requested frame is sent and sets TX_DONE. -/
  | canFrameSent (k : Fin 8) (tsof t : Nat) (tdc : Fin 128)
  /-- CAN_ARBITRATION_LOST (R462): A transmission attempt lost in arbitration is counted and may abandon the request. -/
  | canArbitrationLost (k : Fin 8) (tsof t : Nat)
  /-- CAN_ERROR (R467): A bus error updates the error counters and may reach warning, error-passive or bus-off. -/
  | canError (k : Fin 8) (tx : Bool) (inc : Fin 9) (lec : Fin 7) (tsof t : Nat)
  /-- RX_FULL_WRITE (R458): Writing 1 to an RX_FULL bit returns the object to the controller. -/
  | rxFullWrite (k : Fin 8) (w : Fin 4) (v ev : Word)
  /-- OBJ_IDX_WRITE (R459): A write of OBJ_IDX selects an object for the window. -/
  | objIdxWrite (k : Fin 8) (v : Word)
  /-- OBJ_HDR_READ (R459): A read of OBJ_HDR snapshots the object's timestamp, info and data. -/
  | objHdrRead (k : Fin 8)
  /-- CAN_CYCLIC_REQUEST (R465): A TX object with TIME set is requested at each multiple of TIME ms. -/
  | canCyclicRequest (k : Fin 8) (n : Fin 128) (t : Nat)
  /-- RX_STALE (R465): No frame for TIME ms marks an RX queue stale and takes its signals safe. -/
  | rxStale (k : Fin 8) (h : Fin 128) (t : Nat)
  /-- TIME_REFERENCE (R466): The time master requests its reference object at each multiple of REF_PERIOD. -/
  | timeReference (k : Fin 8) (t : Nat) (onBus : Bool)
  /-- CAN_RECOVER (R468): The CAN command RECOVER starts the bus-off recovery sequence. -/
  | canRecover (k : Fin 8) (chk : BitVec 16)
  /-- CAN_RECOVERY_END (R468): The 128th recessive-bit occurrence ends recovery and returns the page to RUN. -/
  | canRecoveryEnd (k : Fin 8)
  /-- FIELD_REFRESH (R475): At each refresh the interface exchanges output and input frames with both field dies. -/
  | fieldRefresh (t : Nat) (a0 a1 : DieAns)
  /-- DIE_LOST (R475): No good input frame from a die for 3 refreshes puts the page in FAULT with DIE_LOST. -/
  | dieLost (d : Fin 2) (t : Nat)
  /-- DIO_INPUT_ACCEPT (R479): A field input change that holds for IN_FILT µs is accepted. -/
  | dioInputAccept (i : Fin 32) (level : Bool)
  /-- WIRE_BREAK (R480): An input below WB_THR for WB_T ms reports a wire break and raises DIO_FIELD. -/
  | wireBreak (i : Fin 32)
  /-- WIRE_BREAK_CLEAR (R480): An input at or above WB_THR for WB_T ms clears its wire break. -/
  | wireBreakClear (i : Fin 32)
  /-- OUTPUT_DIAGNOSTIC (R483): An output diagnostic condition sets its bit, may switch the output off and raises DIO_FIELD. -/
  | outputDiagnostic (o : Fin 16) (kind : Fin 4)
  /-- OC_RETRY (R483): With OC_RETRY=1 the die retries an overcurrent output every 100 ms. -/
  | ocRetry (o : Fin 16) (holds : Bool)
  /-- CLEAR_DIAG (R488): The DIO command CLEAR_DIAG clears latched diagnostics and switches outputs back to their commands. -/
  | clearDiag (chk : BitVec 16)
  /-- FIELD_SILENCE (R484): No good output frame for SAFE_T ms makes a die drive its outputs to SAFE_VAL and latch SAFE_HELD. -/
  | fieldSilence (d : Fin 2) (t : Nat)
  /-- LPLUS_LOW (R474): L+ below 18.0 V switches off the die's outputs. -/
  | lplusLow (d : Fin 2)
  /-- LPLUS_RESTORE (R474): L+ above 19.0 V for 10 ms switches the outputs back to their commands. -/
  | lplusRestore (d : Fin 2)
  /-- LC_ADVANCE (R492): The SEC command LC_ADVANCE runs a life-cycle transition. -/
  | lcAdvance (m : Master) (chk : BitVec 16)
  /-- KEY_LOAD (R503): The SEC command KEY_LOAD fills a key-store slot. -/
  | keyLoad (m : Master) (chk : BitVec 16)
  /-- KEY_ERASE (R503): The SEC command KEY_ERASE zeroises one key-store slot. -/
  | keyErase (m : Master) (chk : BitVec 16)
  /-- KEY_ERASE_ALL (R503): The SEC command KEY_ERASE_ALL zeroises every key-store slot. -/
  | keyEraseAll (m : Master) (chk : BitVec 16)
  /-- ROLLBACK_SET (R497): The SEC command ROLLBACK_SET raises MIN_VER of a kind to the running image's SEC_VER. -/
  | rollbackSet (m : Master) (chk : BitVec 16)
  /-- ROOT_REVOKE (R506): The SEC command ROOT_REVOKE revokes a root hash unless it is the last one. -/
  | rootRevoke (m : Master) (chk : BitVec 16)
  /-- DERIVE (R503): The SEC command DERIVE writes the HKDF of a DERIVE slot and label into DERIVED. -/
  | secDerive (m : Master) (chk : BitVec 16)
  /-- PROVISION (R506): The SEC command PROVISION burns a root or debug-key hash in OPEN. -/
  | secProvision (m : Master) (chk : BitVec 16)
  /-- NEW_CHALLENGE (R500): The DBG command NEW_CHALLENGE fills CHALLENGE with 32 random bytes. -/
  | newChallenge (m : Master) (chk : BitVec 16)
  /-- UNLOCK (R500): The DBG command UNLOCK verifies the response and opens a debug session or counts a failure. -/
  | dbgUnlock (m : Master) (chk : BitVec 16)
  /-- LOCK (R500): The DBG command LOCK ends the debug session. -/
  | dbgLock (m : Master) (chk : BitVec 16)
  /-- TAMPER_ALARM (R504): A tamper sensor alarm logs, resets or erases the key store by its level. -/
  | tamperAlarm (sensor : Fin 5) (vbat : Bool) (b : BootRes)
  /-- JTAG_INSTRUCTION (R499): Selecting a boundary-scan instruction opens it or decodes as BYPASS, holding system reset for EXTEST, CLAMP and INTEST. -/
  | jtagInstruction (i : JtagInstr) (b : BootRes)
  /-- DOMAIN_ON_COMPLETE (R510): A domain's rail, clocks and reset complete and its isolation releases. -/
  | domainOnComplete (d : Fin 14) (ecc : List (Bool × Nat))
  /-- BROWNOUT (R512): A switched rail below 0.70 V for 1 µs switches its domain off and raises PWR_BROWNOUT. -/
  | brownout (d : Fin 14)
  /-- BROWNOUT_RECOVERY (R512): The rail holding 0.72 V for 1 ms ends the PWR_BROWNOUT condition. -/
  | brownoutRecovery (d : Fin 14)
  /-- POWER_ON_RESET (R514): A power-on reset clears all logic and the security core runs the start-up sequence. -/
  | powerOnReset (b : BootRes)
  /-- SYSTEM_RESET (R514): A system reset clears PD1 to PD13 and reruns start-up from stage 2. -/
  | systemReset (cause : Fin 6) (b : BootRes)
  /-- RESET (R518): The SYS command RESET starts a system reset with cause SOFT. -/
  | sysReset (m : Master) (chk : BitVec 16) (b : BootRes)
  /-- STAGE_WRITE (R518): A write of SYS STAGE by AP0, AP1 or the security core records the start-up stage. -/
  | stageWrite (m : Master) (v : Word)
  /-- IRQ_SEL_WRITE (R519): A write of IRQ_SEL loads IRQ_LINE with the line of the named page. -/
  | irqSelWrite (v : Word)
  /-- IRQ_LINE_WRITE (R519): A write of IRQ_LINE maps the selected page to a line at once. -/
  | irqLineWrite (v : Word)
  /-- REFERENCE_LOSS (R509): A reference clock lost puts the PLLs in holdover and sets REF_LOST. -/
  | referenceLoss
  /-- REFERENCE_LOCK (R508): The PLLs lock onto a changed or returned reference and set REF_SWITCH. -/
  | referenceLock
  /-- PLL_LOCK_LOSS (R509): A PLL losing lock sets LOCK_LOST and browns out the domains that use it. -/
  | pllLockLoss (p : Fin 4)
  /-- GPIO_EDGE (R540): An enabled edge on a pad sets EDGE_ST and may publish an EDGE signal. -/
  | gpioEdge (pad : Fin 616) (level : Bool)
  /-- GPIO_OUT_SET (R540): A write of OUT_SET sets the named OUT bits. -/
  | gpioOutSet (w : Fin 20) (v : Word)
  /-- GPIO_OUT_CLR (R540): A write of OUT_CLR clears the named OUT bits. -/
  | gpioOutClr (w : Fin 20) (v : Word)
  /-- DLK_FRAME_LOCK (R399): A Draora Link port in RUN gains frame lock after training, sets STAT.UP and INT_RAW.UP. -/
  | dlkFrameLock (p : Fin 4) (t : Nat)
  /-- ETH_LINK_CHANGE (R445): An Ethernet port's link comes up, with auto-negotiation done, or goes down, changing STAT.LINK and setting INT_RAW.LINK. -/
  | ethLinkChange (p : Fin 3) (up : Bool) (speed : Fin 4) (an : Bool)
  /-- PCIE_LINK_UP (R426): PCIe link training completes, STAT.LINK_UP sets and the endpoint starts answering requests. -/
  | pcieLinkUp (speed : Fin 8) (width : Fin 8)
  /-- CAN_BUS_INTEGRATION (R469): After START the controller sees 11 recessive bits, clears STAT.INTEGRATING and begins taking part in the bus. -/
  | canBusIntegration (k : Fin 8)
  /-- HSP_BAD_FRAME (R437): A host serial frame with a reserved OP, illegal LEN or ADDR, or an early select release is discarded, counted in BAD_CNT and flagged BAD_FRAME in the next reply. -/
  | hspBadFrame
  /-- ILLEGAL_BUNDLE (R195): A loop core issues a bundle with a reserved opcode, function, register code or field, has no effect and takes the ILLEGAL exception. -/
  | lcIllegalBundle (a : LcAt) (w v : Word)
  /-- DEBUG_RESUME (R42): An engine held in a debug halt resumes, and its LC page leaves HOLD while pages it drove safe stay in SAFE. -/
  | debugResume (e : Engine)
  /-- VISO_IN_LOSS (R473): Loss of VISO_IN stops the transformer drive and every field output turns off within 2 ms whatever SAFE_VAL says. -/
  | visoInLoss
  /-- VBAT_LOW (R513): VBAT falling below 1.6 V sets TAMP.INT_RAW.VBAT_LOW. -/
  | vbatLow
  /-- DOMAIN_OFF_COMPLETE (R510): A domain switched off finishes its four switch-off steps within 50 µs and the switching operation moves on to the domains that go on. -/
  | domainOffComplete (d : Fin 14)
  /-- OVER_TEMPERATURE_RECOVERY (R483): A field output switch shut off for over-temperature cools below 135 °C and, with OC_RETRY=1, switches back on to its command. -/
  | overTemperatureRecovery (o : Fin 16)
  /-- MARK_WINDOW_OPEN (R155): The source position reaches a registration window start W_k in forward motion, opening the window and setting STAT.MARK_WIN. -/
  | markWindowOpen (n : Fin 64) (t : Nat)
  deriving DecidableEq, Repr

end Sys2Proof
end

