-- ==== Sys2Proof/WellFormed.lean ====
section
/-! DEFINITION. Well-formed commands: every operand within what the spec's field, frame or table for it can hold. -/
namespace Sys2Proof

/-- Bytes. -/
def bytesWf (l : List Nat) : Bool := l.all (fun b => decide (b < 256))

/-- Words. -/
def wordsWf (l : List Nat) : Bool := l.all (fun b => decide (b < 4294967296))

/-- The offset of a register in a page (R36, R59). -/
def offWf (off : Nat) : Bool := decide (off < 4096) && off % 4 == 0

/-- A system address (R25). -/
def addrWf (a : Nat) : Bool := decide (a < 0x1000000000)

/-- A request reaches its window at a word, or at a pair of words where it reads two (R428). -/
def pcieWf : PcieReq → Bool
  | .read bar2 off wide _ => decide (off < (if bar2 then 0x400000000 else 0x8000000)) && off % (if wide then 8 else 4) == 0
  | .write bar2 off _ => decide (off < (if bar2 then 0x400000000 else 0x8000000)) && off % 4 == 0
  | .functionMask _ => true

/-- A CAN frame carries at most 64 data bytes, of a remote frame none (R452). -/
def canWf (f : CanFrame) : Bool := bytesWf f.data && decide (f.data.length ≤ 64) && (!f.rtr || f.data.isEmpty)

/-- A trigger event and a record of a link frame (Table 14-2, R395). -/
def trgWf (e : TrgEv) : Bool := decide (e.node < 32) && decide (e.line < 8) && decide (e.due < 18446744073709551616)
def recWf (r : LinkRec) : Bool := decide (r.node < 32) && decide (r.exp < 256) && decide (r.typ < 4)

/-- A link frame has its fields' widths (Table 14-2). -/
def linkWf (f : LinkFrame) : Bool :=
  decide (f.ver < 16) && decide (f.node < 32) && decide (f.fseq < 65536) && decide (f.time < 18446744073709551616) &&
    decide (-2147483648 ≤ f.step) && decide (f.step < 2147483648) && decide (f.echo < 65536) && decide (f.turn < 4294967296) &&
    f.evs.all trgWf && decide (f.evs.length ≤ 8) && f.recs.all recWf && decide (f.recs.length ≤ 55) &&
    decide (f.stepAt < 18446744073709551616)

/-- An input frame of a field die (Table 18-5). -/
def dieWf : DieAns → Bool
  | .silent => true
  | .bad => true
  | .good _ _ _ lplus volts curs => decide (lplus < 1024) && bytesWf volts && curs.all (fun c => decide (c < 65536)) &&
      decide (volts.length ≤ 16) && decide (curs.length ≤ 8)

/-- An image in flash: 512 bytes of header, bytes of body; a boot table holds two entries, A and B, for each kind (R495, R496). -/
def imgWf (i : FlashImg) : Bool := i.hdr.length == 512 && bytesWf i.hdr && bytesWf i.body
def tableWf (l : List BootEntry) : Bool :=
  l.all (fun e => imgWf e.img) &&
    [1, 2, 3, 4, 5, 6, 7].all (fun k => (l.filter (fun e => e.kind.val == k)).map (fun e => e.entryB) == [false, true])

/-- What a boot reads: boot tables, four words of flash ranges (R495, R498). -/
def bootWf (b : BootRes) : Bool := (b.tab0.all tableWf) && (b.tab1.all tableWf) && decide (b.locks.length ≤ 4)

/-- A filter word of a precision converter (R298). -/
def pcvWf (w : Int) : Bool := decide (-8388608 ≤ w) && decide (w < 8388608)

/-- Coefficients as their registers hold them (Table 10-5). -/
def coefWf (ofs : Int) (gain : Nat) : Bool := decide (-2147483648 ≤ ofs) && decide (ofs < 2147483648) && decide (gain < 4294967296)

/-- A DMA descriptor has eight words and the source bytes are bytes (R430). -/
def descWf (desc : List Word) (src : List Nat) : Bool := desc.length == 8 && bytesWf src

/-- Whether a command is well formed. -/
def Instr.wellFormed : Instr → Bool
  | .pageEnable pg _ => pg.present
  | .softReset pg => pg.present
  | .pageFreeze pg _ => pg.present
  | .lockRequest pg => pg.present
  | .unlockWindow pg _ => pg.present
  | .dbgsafeChange pg _ => pg.present
  | .pgcommitWrite pg _ => pg.present
  | .commitValidationEnd pg => pg.present
  | .commitBoundary pg => pg.present
  | .cmdStart pg _ _ => pg.present
  | .cmdStop pg _ _ => pg.present
  | .cmdHold pg _ _ => pg.present
  | .cmdContinue pg _ _ => pg.present
  | .cmdDiscard pg _ _ => pg.present
  | .cmdClearFault pg _ _ => pg.present
  | .cmdAbort pg _ _ => pg.present
  | .commandBoundary pg => pg.present
  | .intClrWrite pg _ _ => pg.present
  | .intSetWrite pg _ => pg.present
  | .wideReadSnapshot pg off => pg.present && offWf off
  | .wideWriteApply pg off _ => pg.present && offWf off
  | .registerWrite _ pg off _ => pg.present && offWf off
  | .w1cStatusWrite pg off _ _ => pg.present && offWf off
  | .readClearRegister pg off => pg.present && offWf off
  | .baseTick _ => true
  | .apcPublish _ _ _ _ => true
  | .piValueRead _ _ => true
  | .debugHalt _ => true
  | .accessError _ addr _ => addrWf addr
  | .fabLogIdxWrite _ => true
  | .fabClearLog _ => true
  | .memScrub _ _ => true
  | .scrubPassEnd _ _ => true
  | .scrubTimer _ _ _ => true
  | .encEdgeAccept _ _ _ _ _ _ => true
  | .encIndex _ _ _ => true
  | .standstill _ _ => true
  | .setPos _ _ => true
  | .armIndex _ _ => true
  | .learnLines _ _ => true
  | .ssnFrameStart _ _ => true
  | .ssnFrameEnd _ _ _ _ => true
  | .ssnTimeout _ _ _ => true
  | .ssnTrigger _ _ => true
  | .cdmTxWrite _ _ => true
  | .cdsRxRead _ => true
  | .moveAbs _ _ => true
  | .moveRel _ _ => true
  | .axisVelocity _ _ => true
  | .gearIn _ _ => true
  | .gearOut _ _ => true
  | .camIn _ _ => true
  | .camOut _ _ => true
  | .pvtStart _ _ => true
  | .followOn _ _ => true
  | .followOff _ _ => true
  | .axisHome _ _ => true
  | .axisResume _ _ => true
  | .quickstop _ _ => true
  | .limitAccept _ _ _ _ => true
  | .limitRelease _ _ _ => true
  | .homeEdgeAccept _ _ _ _ => true
  | .prkCheck _ _ => true
  | .prkCheckEnd _ => true
  | .prkPointWrite _ addr _ => addrWf addr
  | .pcmpFire _ _ => true
  | .pcmpPulseEnd _ _ => true
  | .pcmpLatchEdge _ _ _ => true
  | .markWindowClose _ _ => true
  | .latchQueueRead _ => true
  | .pcmpFlush _ _ => true
  | .latchClear _ _ => true
  | .stepEmit _ _ => true
  | .stepHoldAmp _ _ => true
  | .editSelWrite _ => true
  | .ustpCopyEnd => true
  | .lcNop _ _ => true
  | .lcMpy _ _ _ _ _ => true
  | .lcMac _ _ _ _ _ => true
  | .lcMsu _ _ _ _ _ => true
  | .lcPmac _ _ _ _ _ _ => true
  | .lcClra _ _ _ => true
  | .lcLda _ _ _ _ => true
  | .lcAdda _ _ _ _ => true
  | .lcSuba _ _ _ _ => true
  | .lcNega _ _ _ => true
  | .lcAbsa _ _ _ => true
  | .lcShla _ _ _ _ => true
  | .lcShra _ _ _ _ => true
  | .lcSata _ _ _ => true
  | .lcRnda _ _ _ => true
  | .lcMova _ _ _ _ => true
  | .lcAdd _ _ _ _ _ => true
  | .lcSub _ _ _ _ _ => true
  | .lcAdds _ _ _ _ _ => true
  | .lcSubs _ _ _ _ _ => true
  | .lcNeg _ _ _ _ => true
  | .lcAbs _ _ _ _ => true
  | .lcAnd _ _ _ _ _ => true
  | .lcOr _ _ _ _ _ => true
  | .lcXor _ _ _ _ _ => true
  | .lcShl _ _ _ _ _ => true
  | .lcShr _ _ _ _ _ => true
  | .lcShrl _ _ _ _ _ => true
  | .lcMin _ _ _ _ _ => true
  | .lcMax _ _ _ _ _ => true
  | .lcCmp _ _ _ _ => true
  | .lcClip _ _ _ _ _ => true
  | .lcMov _ _ _ => true
  | .lcMvcToControl _ _ _ => true
  | .lcMvcFromControl _ _ _ => true
  | .lcClrf _ => true
  | .lcRot _ => true
  | .lcLd _ _ _ _ _ _ => true
  | .lcSt _ _ _ _ _ _ => true
  | .lcLdp _ _ _ _ _ _ => true
  | .lcStp _ _ _ _ _ _ => true
  | .lcMoveSlotLoad _ _ _ _ _ _ _ => true
  | .lcMoveSlotStore _ _ _ _ _ _ _ => true
  | .lcMoveSlotExchange _ _ _ _ _ _ => true
  | .lcIn _ _ _ => true
  | .lcOut _ _ _ => true
  | .lcLdg _ _ _ _ _ _ => true
  | .lcStg _ _ _ _ _ => true
  | .lcFtap _ _ _ _ _ => true
  | .lcBr _ _ _ => true
  | .lcCall _ _ _ => true
  | .lcRet _ _ => true
  | .lcReti _ _ => true
  | .lcBreak _ _ => true
  | .lcTend _ _ => true
  | .lcTrap _ _ _ => true
  | .lcBrep _ _ _ _ _ => true
  | .lcBrepLoopEnd _ => true
  | .lcMovi _ _ _ => true
  | .lcLdi _ _ _ => true
  | .lcLdc _ _ _ => true
  | .lcInterrupt _ _ => true
  | .sampleStart _ _ => true
  | .sampleCut _ => true
  | .lschStitch _ => true
  | .stitchCopyEnd _ _ => true
  | .stitchSwitch _ => true
  | .stitchTimeout _ => true
  | .failoverSwitch _ => true
  | .failoverTimeout _ => true
  | .lschRestart _ => true
  | .lschRestartEnd _ _ => true
  | .lcSelftest _ _ => true
  | .lcSelftestEnd _ _ _ => true
  | .cslotSampleEvent _ _ => true
  | .updatePhase _ _ _ => true
  | .inputWatchdog _ _ => true
  | .rtExpired _ _ => true
  | .plausFault _ => true
  | .repLearn _ _ => true
  | .repFreeze _ _ => true
  | .repClear _ _ => true
  | .repClearEnd _ => true
  | .cslotRide _ _ => true
  | .resetState _ _ => true
  | .repDataAccess _ _ => true
  | .ceUcodeLoaded _ _ => true
  | .pwmZeroEvent _ _ => true
  | .pwmPeriodEvent _ _ => true
  | .pwmPositionTrigger _ _ _ => true
  | .forceWrite _ _ => true
  | .finTrip _ _ => true
  | .finClear _ => true
  | .pwmClockLoss _ => true
  | .pwmClockReturn _ => true
  | .pwmReadbackMismatch _ _ _ => true
  | .fchEffectiveTrigger _ _ => true
  | .fchTrigger _ _ => true
  | .convEnd _ _ _ _ => true
  | .fchLimit _ => true
  | .fcgCal _ _ => true
  | .bobbinCalEnd _ _ ofs gain => coefWf ofs gain
  | .shadowComplete _ _ => true
  | .converterCalEnd _ _ ofs gain => coefWf ofs gain
  | .verifyComplete _ _ => true
  | .calTimeout _ _ => true
  | .conversionFailure _ _ => true
  | .autoCalTimer _ _ => true
  | .startupCalEnd _ _ cs => cs.length == 9 && cs.all (fun (e : Int × Nat) => coefWf e.1 e.2)
  | .pcvOutputWord _ _ _ w => pcvWf w
  | .pcvCal _ _ => true
  | .benchRelease _ _ _ => true
  | .benchCycleStart _ _ _ _ => true
  | .benchCycleEnd _ _ _ _ => true
  | .leWatchdogTrip _ _ _ _ => true
  | .leLoad _ _ => true
  | .leLoadEnd _ _ _ _ => true
  | .leUnload _ _ => true
  | .resetInst _ _ => true
  | .forceSet _ _ => true
  | .forceRelease _ => true
  | .releaseAll _ => true
  | .rseqClockEdge _ _ => true
  | .rseqStepEnd _ => true
  | .waitTimeout _ => true
  | .rseqPulseEnd _ => true
  | .rseqLoad _ _ => true
  | .rseqLoadEnd _ _ => true
  | .rseqUnload _ _ => true
  | .branchAbort _ _ => true
  | .tlogClear _ _ => true
  | .tlogEntRead _ => true
  | .entIdWrite _ => true
  | .sigCopyEnd => true
  | .sigLoad _ => true
  | .sigLoadEnd _ => true
  | .historyAppend _ _ => true
  | .acqSample _ _ _ => true
  | .acqTrigger _ _ => true
  | .acqTriggerCmd _ _ => true
  | .acqRearm _ _ => true
  | .postComplete _ _ => true
  | .acqRearmEnd _ _ => true
  | .recExport _ => true
  | .recExportEnd _ _ => true
  | .timeWrap _ => true
  | .rateWrite _ => true
  | .timeStep _ => true
  | .timeForceStep _ => true
  | .timeStepApply _ => true
  | .holdover _ => true
  | .timeJoin _ => true
  | .timeJoinTimeout _ => true
  | .linkFrameSend _ _ => true
  | .linkFrameReceive _ _ _ f => linkWf f
  | .linkDown _ _ => true
  | .nodeLost _ _ => true
  | .dlkCalibrate _ _ => true
  | .dlkCalibrateEnd _ _ _ => true
  | .triggerLineChange _ _ _ => true
  | .triggerEventDue _ => true
  | .txqKeyRead _ => true
  | .txqFlush _ => true
  | .faultRaise _ pg _ _ => pg.present
  | .faultConditionEnd _ pg _ => pg.present
  | .fltRecover _ => true
  | .fltRecovered _ => true
  | .fltAck _ => true
  | .fltClearLog _ => true
  | .fltRaise _ => true
  | .fltRecoverTimeout _ => true
  | .fltLogIdxWrite _ => true
  | .pcieRequest r => pcieWf r
  | .msixUnmask _ => true
  | .chTailWrite _ _ => true
  | .dmaDescriptor _ desc src _ _ => descWf desc src
  | .pcieLinkReset _ => true
  | .hspRead _ _ len addr _ _ _ => decide (len < 65536) && addrWf addr
  | .hspWrite _ _ len addr data _ _ => decide (len < 65536) && addrWf addr && wordsWf data
  | .hspStatus _ _ addr _ _ => addrWf addr
  | .hspSilent _ => true
  | .xipRead _ _ _ fetch _ => fetch.all bytesWf
  | .mspIndirect _ _ _ => true
  | .mspIndirectDone _ data => bytesWf data
  | .mspIndirectTimeout _ _ => true
  | .pspFrame _ _ _ _ => true
  | .pspTrigger _ _ => true
  | .ethReceive _ _ frame _ _ _ => bytesWf frame
  | .ethTransmit _ _ _ => true
  | .ethAddressAge _ => true
  | .mdioAccess _ _ => true
  | .mdioDone _ => true
  | .restartAp0 _ => true
  | .restartAp1 _ => true
  | .readyWrite _ _ => true
  | .restartTimeout _ => true
  | .mbRing _ _ => true
  | .mbRspRing _ _ => true
  | .mbAck _ _ => true
  | .canFrameReceive _ _ _ f => canWf f
  | .txReq _ _ _ => true
  | .txCancel _ _ _ _ => true
  | .canFrameSent _ _ _ _ => true
  | .canArbitrationLost _ _ _ => true
  | .canError _ _ _ _ _ _ => true
  | .rxFullWrite _ _ _ _ => true
  | .objIdxWrite _ _ => true
  | .objHdrRead _ => true
  | .canCyclicRequest _ _ _ => true
  | .rxStale _ _ _ => true
  | .timeReference _ _ _ => true
  | .canRecover _ _ => true
  | .canRecoveryEnd _ => true
  | .fieldRefresh _ a0 a1 => dieWf a0 && dieWf a1
  | .dieLost _ _ => true
  | .dioInputAccept _ _ => true
  | .wireBreak _ => true
  | .wireBreakClear _ => true
  | .outputDiagnostic _ _ => true
  | .ocRetry _ _ => true
  | .clearDiag _ => true
  | .fieldSilence _ _ => true
  | .lplusLow _ => true
  | .lplusRestore _ => true
  | .lcAdvance _ _ => true
  | .keyLoad _ _ => true
  | .keyErase _ _ => true
  | .keyEraseAll _ _ => true
  | .rollbackSet _ _ => true
  | .rootRevoke _ _ => true
  | .secDerive _ _ => true
  | .secProvision _ _ => true
  | .newChallenge _ _ => true
  | .dbgUnlock _ _ => true
  | .dbgLock _ _ => true
  | .tamperAlarm _ _ b => bootWf b
  | .jtagInstruction _ b => bootWf b
  | .domainOnComplete _ _ => true
  | .brownout _ => true
  | .brownoutRecovery _ => true
  | .powerOnReset b => bootWf b
  | .systemReset cause b => decide (cause ≠ 0) && bootWf b
  | .sysReset _ _ b => bootWf b
  | .stageWrite _ _ => true
  | .irqSelWrite _ => true
  | .irqLineWrite _ => true
  | .referenceLoss => true
  | .referenceLock => true
  | .pllLockLoss _ => true
  | .gpioEdge _ _ => true
  | .gpioOutSet _ _ => true
  | .gpioOutClr _ _ => true
  | .dlkFrameLock _ _ => true
  | .ethLinkChange _ _ _ _ => true
  | .pcieLinkUp _ _ => true
  | .canBusIntegration _ => true
  | .hspBadFrame => true
  | .lcIllegalBundle _ _ _ => true
  | .debugResume _ => true
  | .visoInLoss => true
  | .vbatLow => true
  | .domainOffComplete _ => true
  | .overTemperatureRecovery _ => true
  | .markWindowOpen _ _ => true

end Sys2Proof
end

