-- ==== Sys2Proof/Decode.lean ====
section
/-! DEFINITION. The words of the opcode table: its rows give no bits, so no word spells a command; and the bundles of the loop
cores, whose words the spec encodes (R196 to R198, Tables 6-8 to 6-11). -/
namespace Sys2Proof

open Machine

/-- The command that a word spells by the table's bits: none, since no row of the table has bits. -/
def decodeTableWord (_nbits _w : Nat) : Option Instr := none

/-! ## Fields of a bundle's first word (Table 6-8) -/

/-- OP, and the fields of format R. -/
def lcOp (w : Word) : Nat := fld w 26 5
def fieldA (w : Word) : Fin 4 := Fin.ofNat 4 (fld w 19 2)
def fieldDa (w : Word) : Fin 32 := Fin.ofNat 32 (fld w 14 5)
def fieldDb (w : Word) : Fin 32 := Fin.ofNat 32 (fld w 9 5)
def fieldDd (w : Word) : Fin 32 := Fin.ofNat 32 (fld w 4 5)
def fieldAm (w : Word) : Fin 4 := Fin.ofNat 4 (fld w 9 2)
def fieldK (w : Word) : Fin 16 := Fin.ofNat 16 (fld w 0 4)

/-- A six-bit register or control code at a place. -/
def fieldCode (w : Word) (lo : Nat) : Fin 64 := Fin.ofNat 64 (fld w lo 6)

/-- An instruction that needs a condition on its fields to be legal. -/
def legal (b : Bool) (i : Instr) : Option Instr := if b then some i else none

/-- Whether a code names a register (R170), one that is no accumulator, a data register, or a control register (Table 6-2). -/
def regCode (c : Nat) : Bool := c < 60
def plainCode (c : Nat) : Bool := c < 32 || (36 ≤ c && c < 60)
def dataCode (c : Nat) : Bool := c < 32
def ctlCode (c : Nat) : Bool := c < 10
def ctlWritable (c : Nat) : Bool := c < 9

/-! ## Arithmetic slots and move slots -/

/-- Format R, OP 0x01 to 0x03: the operation of an arithmetic slot (Table 6-10). -/
def lcArithmetic (a : LcAt) (mv : Option LcSlots) (w : Word) : Option Instr :=
  match lcOp w, fld w 21 5 with
  | 1, 0x00 => some (.lcMpy a mv (fieldA w) (fieldDa w) (fieldDb w))
  | 1, 0x01 => some (.lcMac a mv (fieldA w) (fieldDa w) (fieldDb w))
  | 1, 0x02 => some (.lcMsu a mv (fieldA w) (fieldDa w) (fieldDb w))
  | 1, 0x03 => some (.lcPmac a mv (fieldA w) (fieldDa w) (fieldDb w) (fieldDd w))
  | 2, 0x00 => some (.lcClra a mv (fieldA w))
  | 2, 0x01 => some (.lcLda a mv (fieldA w) (fieldDa w))
  | 2, 0x02 => some (.lcAdda a mv (fieldA w) (fieldAm w))
  | 2, 0x03 => some (.lcSuba a mv (fieldA w) (fieldAm w))
  | 2, 0x04 => some (.lcNega a mv (fieldA w))
  | 2, 0x05 => some (.lcAbsa a mv (fieldA w))
  | 2, 0x06 => some (.lcShla a mv (fieldA w) (fieldK w))
  | 2, 0x07 => some (.lcShra a mv (fieldA w) (fieldK w))
  | 2, 0x08 => some (.lcSata a mv (fieldA w))
  | 2, 0x09 => some (.lcRnda a mv (fieldA w))
  | 2, 0x0A => some (.lcMova a mv (fieldDd w) (fieldA w))
  | 3, 0x00 => some (.lcAdd a mv (fieldDd w) (fieldDa w) (fieldDb w))
  | 3, 0x01 => some (.lcAdds a mv (fieldDd w) (fieldDa w) (fieldDb w))
  | 3, 0x02 => some (.lcSub a mv (fieldDd w) (fieldDa w) (fieldDb w))
  | 3, 0x03 => some (.lcSubs a mv (fieldDd w) (fieldDa w) (fieldDb w))
  | 3, 0x04 => some (.lcNeg a mv (fieldDd w) (fieldDa w))
  | 3, 0x05 => some (.lcAbs a mv (fieldDd w) (fieldDa w))
  | 3, 0x06 => some (.lcAnd a mv (fieldDd w) (fieldDa w) (fieldDb w))
  | 3, 0x07 => some (.lcOr a mv (fieldDd w) (fieldDa w) (fieldDb w))
  | 3, 0x08 => some (.lcXor a mv (fieldDd w) (fieldDa w) (fieldDb w))
  | 3, 0x09 => some (.lcShl a mv (fieldDd w) (fieldDa w) (fieldK w))
  | 3, 0x0A => some (.lcShr a mv (fieldDd w) (fieldDa w) (fieldK w))
  | 3, 0x0B => some (.lcShrl a mv (fieldDd w) (fieldDa w) (fieldK w))
  | 3, 0x0C => some (.lcMin a mv (fieldDd w) (fieldDa w) (fieldDb w))
  | 3, 0x0D => some (.lcMax a mv (fieldDd w) (fieldDa w) (fieldDb w))
  | 3, 0x0E => some (.lcCmp a mv (fieldDa w) (fieldDb w))
  | 3, 0x0F => some (.lcClip a mv (fieldDd w) (fieldDa w) (fieldDb w))
  | _, _ => none

/-- Whether a move slot is disabled, or laid out as Table 6-9 and R197 allow. -/
def slotLegal (v : BitVec 16) : Bool :=
  v == 0 || (v.getLsbD 15 && !v.getLsbD 1 && !v.getLsbD 0 && !(v.getLsbD 13 && v.extractLsb' 3 5 == 31#5) &&
    !(v.getLsbD 2 && (!v.getLsbD 14 || v.getLsbD 13)))

/-- The register codes a move slot writes: what it loads or exchanges, and the pointer it updates. -/
def slotWrites (v : BitVec 16) : List Nat :=
  let d := (v.extractLsb' 3 5).toNat
  if v = 0 then []
  else (if v.getLsbD 14 && !v.getLsbD 2 then [] else if v.getLsbD 13 then [d, d + 1] else [d]) ++
    (if v.extractLsb' 8 2 = 0#2 then [] else [36 + (v.extractLsb' 10 3).toNat])

/-- The data register an arithmetic slot writes. -/
def arithWrites (w : Word) : List Nat :=
  if (lcOp w = 3 ∧ fld w 21 5 ≠ 0x0E) ∨ (lcOp w = 2 ∧ fld w 21 5 = 0x0A) then [fld w 4 5] else []

/-- Whether no register is written by two slots of a bundle (R187). -/
def slotsApart (l x y : List Nat) : Bool := !x.any (fun d => y.contains d) && !l.any (fun d => x.contains d || y.contains d)

/-- A bundle of move slots alone: the command of the first active one, which carries the other; with none active it does nothing. -/
def lcMoves (a : LcAt) (x y : BitVec 16) : Instr :=
  let side := x == 0
  let v := if side then y else x
  let other := if side then x else y
  let p : Fin 8 := Fin.ofNat 8 (v.extractLsb' 10 3).toNat
  let am : Fin 4 := Fin.ofNat 4 (v.extractLsb' 8 2).toNat
  let d : Fin 32 := Fin.ofNat 32 (v.extractLsb' 3 5).toNat
  if v = 0 then .lcNop a true
  else if v.getLsbD 2 then .lcMoveSlotExchange a side p am d other
  else if v.getLsbD 14 then .lcMoveSlotStore a side (v.getLsbD 13) p am d other
  else .lcMoveSlotLoad a side (v.getLsbD 13) p am d other

/-! ## Bundles -/

/-- A 64-bit bundle: OP 0x00 to 0x03 with move slots, or format L (R196). -/
def lcDecode64 (a : LcAt) (w v : Word) : Option Instr :=
  let x : BitVec 16 := v.extractLsb' 16 16
  let y : BitVec 16 := v.extractLsb' 0 16
  let apart (l : List Nat) : Bool := slotLegal x && slotLegal y && slotsApart l (slotWrites x) (slotWrites y)
  match lcOp w with
  | 0 => if apart [] && fld w 0 26 == 0 then some (lcMoves a x y) else none
  | 1 => if apart [] then lcArithmetic a (some ⟨x, y⟩) w else none
  | 2 => if apart (arithWrites w) then lcArithmetic a (some ⟨x, y⟩) w else none
  | 3 => if apart (arithWrites w) then lcArithmetic a (some ⟨x, y⟩) w else none
  | 0x1F =>
    let c := fieldCode w 16
    if fld w 0 16 != 0 then none
    else match fld w 22 4 with
      | 0 => legal (regCode c) (.lcLdi a c v)
      | 1 => legal (ctlWritable c && !(c.val == 1 && fld v 0 2 == 3)) (.lcLdc a c v)
      | _ => none
  | _ => none

/-- A 32-bit bundle. -/
def lcDecode32 (a : LcAt) (w : Word) : Option Instr :=
  match lcOp w with
  | 0 => legal (w == 0) (.lcNop a false)
  | 1 => lcArithmetic a none w
  | 2 => lcArithmetic a none w
  | 3 => lcArithmetic a none w
  | 4 =>
    let rd := fieldCode w 16
    let rs := fieldCode w 10
    if fld w 0 10 != 0 then none
    else match fld w 22 4 with
      | 0 => legal (plainCode rd && plainCode rs) (.lcMov a rd rs)
      | 1 => legal (ctlWritable rd && regCode rs) (.lcMvcToControl a rd rs)
      | 2 => legal (regCode rd && ctlCode rs) (.lcMvcFromControl a rd rs)
      | 3 => some (.lcClrf a)
      | 4 => some (.lcRot a)
      | _ => none
  | 5 =>
    let p : Fin 8 := Fin.ofNat 8 (fld w 20 3)
    let am : Fin 8 := Fin.ofNat 8 (fld w 17 3)
    let c := fieldCode w 11
    let ofs : BitVec 11 := w.extractLsb' 0 11
    let y := bit w 25
    let ok := regCode c && am.val != 7
    let pair := c.val != 31 && c.val != 43 && c.val != 51 && c.val != 59
    match bit w 24, bit w 23 with
    | false, false => legal ok (.lcLd a y p am ofs c)
    | false, true => legal ok (.lcSt a y p am ofs c)
    | true, false => legal (ok && pair) (.lcLdp a y p am ofs c)
    | true, true => legal (ok && pair) (.lcStp a y p am ofs c)
  | 6 =>
    let c := fieldCode w 18
    let port : Fin 2048 := Fin.ofNat 2048 (fld w 0 11)
    let ofs : BitVec 17 := w.extractLsb' 0 17
    match fld w 24 2 with
    | 0 => legal (dataCode c && fld w 11 6 == 0) (.lcIn a c port)
    | 1 => legal (dataCode c && fld w 11 6 == 0) (.lcOut a c port)
    | 2 => legal (dataCode c) (.lcLdg a (bit w 17) c ofs 0 [])
    | _ => legal (dataCode c) (.lcStg a (bit w 17) c ofs 0)
  | 7 => legal (fld w 0 17 == 0)
    (.lcFtap a (bit w 25) (Fin.ofNat 4 (fld w 23 2)) (Fin.ofNat 8 (fld w 20 3)) (Fin.ofNat 8 (fld w 17 3)))
  | 8 =>
    let cond : Fin 16 := Fin.ofNat 16 (fld w 18 4)
    let tgt : BitVec 14 := w.extractLsb' 0 14
    if cond.val = 15 then none
    else match fld w 22 4 with
      | 0 => some (.lcBr a cond tgt)
      | 1 => some (.lcCall a cond tgt)
      | 2 => some (.lcRet a cond)
      | 3 => some (.lcReti a cond)
      | 4 => some (.lcBreak a cond)
      | 5 => some (.lcTend a cond)
      | 6 => some (.lcTrap a cond (Fin.ofNat 16 (fld w 14 4)))
      | _ => none
  | 9 =>
    let reg : Option (Fin 32) := if bit w 25 then some (Fin.ofNat 32 (fld w 8 5)) else none
    legal (fld w 0 8 != 0) (.lcBrep a reg (w.extractLsb' 8 16) (bit w 24) (w.extractLsb' 0 8))
  | 0x0A => let c := fieldCode w 20
    legal (plainCode c) (.lcMovi a c (w.extractLsb' 0 20))
  | _ => none

/-- The instruction that the words of a bundle spell, the second word of a 64-bit bundle only; none where they spell an illegal bundle.
The stall of a transfer on the system bus is no part of its word and stands at 0. -/
def lcDecode (a : LcAt) (w v : Word) : Option Instr := if bit w 31 then lcDecode64 a w v else lcDecode32 a w

end Sys2Proof
end

