-- ==== Sys2Proof/Config.lean ====
section
/-! DEFINITION. What the spec leaves open: constants without a body, so that no proof can see their values. -/
namespace Sys2Proof.Config

/-- A fresh 32-bit value the spec does not fix, by the number of the free value. -/
opaque free32 : Nat → BitVec 32

/-- A fresh signed number the spec does not fix, by the number of the free value. -/
opaque freeInt : Nat → Int

/-- Whether an unstated free choice is taken, by the number of the free value. -/
opaque freeBool : Nat → Bool

/-- Whether the rounding of a quotient goes up where the spec states none, by dividend and divisor. -/
opaque roundUp : Int → Nat → Bool

/-- Whether the observer's decay per edge (R78) is rounded up to a unit of 2⁻³², by bandwidth in Hz and edge interval in steps of
125 ps: the exponential's precision is not stated. -/
opaque decayUp : Nat → Nat → Bool

/-- Whether a REP_CLEAR that ABORT ends has cleared a table entry (R246), by the number of the free value and the entry. -/
opaque binCleared : Nat → Nat → Bool

/-- The fixed cost in steps of 125 ps of a crossing between islands that Table 1-4 does not list, at most 4 ns (R10). -/
opaque crossing : Nat

/-- Whether a logic engine rounds a result of FIX or POS up where the exact one lies between two (Table 11-1 states no rounding), by the
exact numerator and denominator. -/
opaque leUp : Int → Nat → Bool

/-- A DINT, FIX or POS divided by 0 in a logic engine, by the dividend: only that of REAL is stated (R307). -/
opaque leDivZero : Int → Int

/-- A word of what the initial data of a library block stand for: its TYPE, the parts that lead to it, the data, the number of the word;
the layout of the data is not given (Table 11-2, Table 11-4). -/
opaque blockWord : Nat → List Nat → List (BitVec 8) → Nat → BitVec 32

/-- What PID, LAG1, RAMP, SCALE, TPO and HYST put out, and a byte of their data after it: TYPE, now in µs of bench time, inputs and data
(Table 11-2 gives no formula). -/
opaque blockOut : Nat → Nat → List (BitVec 64) → List (BitVec 8) → BitVec 32
opaque blockByte : Nat → Nat → List (BitVec 64) → List (BitVec 8) → Nat → BitVec 8

/-- The revision of the control engines' microcode (Table 8-7), by engine. -/
opaque ucodeRev : Nat → BitVec 8

/-- A byte of the boot ROM, whose contents the spec does not give, by its address. -/
opaque bootRom : Nat → Byte

/-- What the internal delays of a link port add to HOP_DELAY after CALIBRATE (R393), by INT_TX and INT_RX. -/
opaque hopInternal : BitVec 32 → BitVec 32 → Int

/-- SHA-384 of some bytes: 48 bytes by FIPS 180-4, whose arithmetic the spec does not repeat. -/
opaque sha384 : List Nat → Vector Nat 48

/-- Whether an ECDSA P-384 signature stands: public key (X, Y), digest, signature (r, s), as bytes (FIPS 186-5). -/
opaque ecdsaOk : List Nat → List Nat → List Nat → Bool

/-- The 32 bytes of HKDF-SHA-384 of a key-store slot's value and a label (R503). -/
opaque hkdf : List Nat → BitVec 32 → List Nat

/-- AES-256-GCM decryption: key, IV, associated data, stored bytes, tag; none where the tag does not agree (R496), whose arithmetic the
spec does not repeat. -/
opaque gcmOpen : List Nat → List Nat → List Nat → List Nat → List Nat → Option (List Nat)

/-- The key value that the body of a verified image of KIND 0x07 carries for a slot, by the value of slot 0, under which its keys are
encrypted (R503): the layout of the body is not given. -/
opaque bundleKey : List Nat → List Nat → Nat → List Nat

/-- Whether a token is Kenica's vendor token (Table 19-1), whose form the spec does not give. -/
opaque vendorToken : List Nat → Bool

/-- The vendor key hash in the boot ROM (R500). -/
opaque vendorHash : Nat → List Nat

/-- The words of `SEC.ID`, fixed per part (R493). -/
opaque deviceId : Nat → BitVec 32

/-- What the security core's boot finds in the flash at a reset whose command carries no finding (a RESET written to PGCMD as a
plain register write), by the number of the free value. -/
opaque bootRes : Nat → BootRes

end Sys2Proof.Config
end

