-- ==== Sys2Proof/Machine/Maps.lean ====
section
/-! DEFINITION. The sparse map every part of the state is kept in: reading, writing and its canonical form. -/
namespace Sys2Proof.Machine

variable {β : Type}

/-- The value at a key: the listed one, else the default at that key. -/
def SMap.get (d : Nat → β) : SMap β → Nat → β
  | [], k => d k
  | (a, v) :: m, k => if k = a then v else SMap.get d m k

/-- The map without a key. -/
def SMap.erase : SMap β → Nat → SMap β
  | [], _ => []
  | (a, v) :: m, k => if k = a then SMap.erase m k else (a, v) :: SMap.erase m k

/-- The map with an entry put in front of the first greater key. -/
def SMap.insert : SMap β → Nat → β → SMap β
  | [], k, v => [(k, v)]
  | (a, w) :: m, k, v => if k < a then (k, v) :: (a, w) :: m else (a, w) :: SMap.insert m k v

/-- Write one key: an entry equal to the default at its key is removed. -/
def SMap.set [DecidableEq β] (d : Nat → β) (m : SMap β) (k : Nat) (v : β) : SMap β :=
  if v = d k then SMap.erase m k else SMap.insert (SMap.erase m k) k v

/-- Keys strictly rising. -/
def SMap.sorted : SMap β → Bool
  | [] => true
  | (a, _) :: m => m.all (fun e => decide (a < e.1)) && SMap.sorted m

/-- The canonical form: keys strictly rising and no entry equal to its default. -/
def SMap.wf [DecidableEq β] (d : Nat → β) (m : SMap β) : Bool :=
  SMap.sorted m && m.all (fun e => decide (e.2 ≠ d e.1))

/-- The keys listed. -/
def SMap.keys (m : SMap β) : List Nat := m.map (fun e => e.1)

end Sys2Proof.Machine
end

