-- ==== Sys2Proof/Machine/Regs.lean ====
section
/-! DEFINITION. The block registers of every page type: offset, count, stride, access code, reset value and defined
bits, as the register-map and field tables of the spec give them, and a name for each offset. -/
namespace Sys2Proof.Machine

/-- One row of a register map: `count` words from `off`, `stride` bytes apart. `mask` holds the defined bits of a
word that software writes; reserved bits are stored as 0 (R3, R46). `prot` marks a protected register (R44). -/
structure RegRow where
  off : Nat
  count : Nat
  stride : Nat
  acc : Acc
  prot : Bool
  reset : Word
  mask : Word
  deriving DecidableEq, Repr

/-! Offsets of `SYS` (Table 20-5, R519). -/
/-- `SYS.RST_CAUSE`. -/
abbrev Reg.SYS.RST_CAUSE : Nat := 0x080
/-- `SYS.STAGE`. -/
abbrev Reg.SYS.STAGE : Nat := 0x084
/-- `SYS.BOOT_CFG`. -/
abbrev Reg.SYS.BOOT_CFG : Nat := 0x088
/-- `SYS.PART`. -/
abbrev Reg.SYS.PART : Nat := 0x08C
/-- `SYS.IRQ_SEL`. -/
abbrev Reg.SYS.IRQ_SEL : Nat := 0x100
/-- `SYS.IRQ_LINE`. -/
abbrev Reg.SYS.IRQ_LINE : Nat := 0x104
/-- `SYS.IRQ_PEND`. -/
abbrev Reg.SYS.IRQ_PEND : Nat := 0x200
/-- `SYS.IRQ_ROUTE_T`. -/
abbrev Reg.SYS.IRQ_ROUTE_T : Nat := 0x800
/-- `SYS.IRQ_ROUTE_V`. -/
abbrev Reg.SYS.IRQ_ROUTE_V : Nat := 0x804

/-- The register map of `SYS` (Table 20-5). -/
def regsSYS : List RegRow :=
  [⟨Reg.SYS.RST_CAUSE, 1, 4, .w1c, false, 0x00000000, 0x0000003F⟩,
   ⟨Reg.SYS.STAGE, 1, 4, .rw, false, 0x00000000, 0x0000000F⟩,
   ⟨Reg.SYS.BOOT_CFG, 1, 4, .ro, false, 0x00000000, 0xFFFFFFFF⟩,
   ⟨Reg.SYS.PART, 1, 4, .ro, false, 0x00000000, 0xFFFFFFFF⟩,
   ⟨Reg.SYS.IRQ_SEL, 1, 4, .rw, false, 0x00000000, 0x0000FFFF⟩,
   ⟨Reg.SYS.IRQ_LINE, 1, 4, .rw, false, 0x00000000, 0x000000FF⟩,
   ⟨Reg.SYS.IRQ_PEND, 8, 4, .ro, false, 0x00000000, 0xFFFFFFFF⟩,
   ⟨Reg.SYS.IRQ_ROUTE_T, 256, 8, .rw, false, 0x00000000, 0x07FFFFFF⟩,
   ⟨Reg.SYS.IRQ_ROUTE_V, 256, 8, .rw, false, 0x00000000, 0x0000013F⟩]

/-! Offsets of `PWR` (Table 20-6, R520). -/
/-- `PWR.DOM_EN`. -/
abbrev Reg.PWR.DOM_EN : Nat := 0x040
/-- `PWR.STAT`. -/
abbrev Reg.PWR.STAT : Nat := 0x080
/-- `PWR.BOR_STAT`. -/
abbrev Reg.PWR.BOR_STAT : Nat := 0x084
/-- `PWR.BOR_CNT`. -/
abbrev Reg.PWR.BOR_CNT : Nat := 0x088
/-- `PWR.VMON`. -/
abbrev Reg.PWR.VMON : Nat := 0x08C

/-- The register map of `PWR` (Table 20-6). -/
def regsPWR : List RegRow :=
  [⟨Reg.PWR.DOM_EN, 1, 4, .rs, false, 0x00000000, 0x00003FFF⟩,
   ⟨Reg.PWR.STAT, 1, 4, .ro, false, 0x00000001, 0xFFFFFFFF⟩,
   ⟨Reg.PWR.BOR_STAT, 1, 4, .ro, false, 0x00000000, 0xFFFFFFFF⟩,
   ⟨Reg.PWR.BOR_CNT, 1, 4, .ro, false, 0x00000000, 0xFFFFFFFF⟩,
   ⟨Reg.PWR.VMON, 1, 4, .ro, false, 0x00000000, 0xFFFFFFFF⟩]

/-! Offsets of `CLK` (Table 20-7, R521). -/
/-- `CLK.CFG`. -/
abbrev Reg.CLK.CFG : Nat := 0x040
/-- `CLK.STAT`. -/
abbrev Reg.CLK.STAT : Nat := 0x080
/-- `CLK.REF_DEV`. -/
abbrev Reg.CLK.REF_DEV : Nat := 0x084

/-- The register map of `CLK` (Table 20-7). -/
def regsCLK : List RegRow :=
  [⟨Reg.CLK.CFG, 1, 4, .rs, false, 0x00000000, 0x00000003⟩,
   ⟨Reg.CLK.STAT, 1, 4, .ro, false, 0x00000000, 0xFFFFFFFF⟩,
   ⟨Reg.CLK.REF_DEV, 1, 4, .ro, false, 0x00000000, 0xFFFFFFFF⟩]

/-! Offsets of `SEC` (Table 19-5, R506). -/
/-- `SEC.CFG`. -/
abbrev Reg.SEC.CFG : Nat := 0x040
/-- `SEC.TRANSITION`. -/
abbrev Reg.SEC.TRANSITION : Nat := 0x044
/-- `SEC.KIND_SEL`. -/
abbrev Reg.SEC.KIND_SEL : Nat := 0x048
/-- `SEC.PROV_SEL`. -/
abbrev Reg.SEC.PROV_SEL : Nat := 0x04C
/-- `SEC.SRC_LO`. -/
abbrev Reg.SEC.SRC_LO : Nat := 0x050
/-- `SEC.SRC_HI`. -/
abbrev Reg.SEC.SRC_HI : Nat := 0x054
/-- `SEC.STAT`. -/
abbrev Reg.SEC.STAT : Nat := 0x080
/-- `SEC.ID`. -/
abbrev Reg.SEC.ID : Nat := 0x084
/-- `SEC.ROOT_STAT`. -/
abbrev Reg.SEC.ROOT_STAT : Nat := 0x0A0
/-- `SEC.MIN_VER`. -/
abbrev Reg.SEC.MIN_VER : Nat := 0x0B0
/-- `SEC.KEY_IDX`. -/
abbrev Reg.SEC.KEY_IDX : Nat := 0x0D0
/-- `SEC.KEY_ATTR`. -/
abbrev Reg.SEC.KEY_ATTR : Nat := 0x0D4
/-- `SEC.KEY_STAT`. -/
abbrev Reg.SEC.KEY_STAT : Nat := 0x0D8
/-- `SEC.KEY_DATA`. -/
abbrev Reg.SEC.KEY_DATA : Nat := 0x0E0
/-- `SEC.TOKEN`. -/
abbrev Reg.SEC.TOKEN : Nat := 0x100
/-- `SEC.FLASH_LOCK`. -/
abbrev Reg.SEC.FLASH_LOCK : Nat := 0x200
/-- `SEC.DERIVE_LABEL`. -/
abbrev Reg.SEC.DERIVE_LABEL : Nat := 0x220
/-- `SEC.DERIVED`. -/
abbrev Reg.SEC.DERIVED : Nat := 0x240

/-- The register map of `SEC` (Table 19-5). -/
def regsSEC : List RegRow :=
  [⟨Reg.SEC.CFG, 1, 4, .rs, false, 0x00000000, 0x00000001⟩,
   ⟨Reg.SEC.TRANSITION, 1, 4, .rw, false, 0x00000000, 0x00000007⟩,
   ⟨Reg.SEC.KIND_SEL, 1, 4, .rw, false, 0x00000000, 0x000000FF⟩,
   ⟨Reg.SEC.PROV_SEL, 1, 4, .rw, false, 0x00000000, 0x00000007⟩,
   ⟨Reg.SEC.SRC_LO, 1, 4, .rw, false, 0x00000000, 0xFFFFFFFF⟩,
   ⟨Reg.SEC.SRC_HI, 1, 4, .rw, false, 0x00000000, 0xFFFFFFFF⟩,
   ⟨Reg.SEC.STAT, 1, 4, .ro, false, 0x00000000, 0xFFFFFFFF⟩,
   ⟨Reg.SEC.ID, 4, 4, .ro, false, 0x00000000, 0xFFFFFFFF⟩,
   ⟨Reg.SEC.ROOT_STAT, 1, 4, .ro, false, 0x00000000, 0xFFFFFFFF⟩,
   ⟨Reg.SEC.MIN_VER, 7, 4, .ro, false, 0x00000000, 0xFFFFFFFF⟩,
   ⟨Reg.SEC.KEY_IDX, 1, 4, .rw, false, 0x00000000, 0x0000000F⟩,
   ⟨Reg.SEC.KEY_ATTR, 1, 4, .rw, false, 0x00000000, 0x00000013⟩,
   ⟨Reg.SEC.KEY_STAT, 1, 4, .ro, false, 0x00000000, 0xFFFFFFFF⟩,
   ⟨Reg.SEC.KEY_DATA, 8, 4, .wo, false, 0x00000000, 0xFFFFFFFF⟩,
   ⟨Reg.SEC.TOKEN, 64, 4, .wo, false, 0x00000000, 0xFFFFFFFF⟩,
   ⟨Reg.SEC.FLASH_LOCK, 4, 4, .ro, false, 0x00000000, 0xFFFFFFFF⟩,
   ⟨Reg.SEC.DERIVE_LABEL, 1, 4, .rw, false, 0x00000000, 0xFFFFFFFF⟩,
   ⟨Reg.SEC.DERIVED, 8, 4, .ro, false, 0x00000000, 0xFFFFFFFF⟩]

/-! Offsets of `TAMP` (Table 19-6, R506). -/
/-- `TAMP.CFG`. -/
abbrev Reg.TAMP.CFG : Nat := 0x040
/-- `TAMP.VOLT_WIN`. -/
abbrev Reg.TAMP.VOLT_WIN : Nat := 0x044
/-- `TAMP.CLK_WIN`. -/
abbrev Reg.TAMP.CLK_WIN : Nat := 0x048
/-- `TAMP.TEMP_LIM`. -/
abbrev Reg.TAMP.TEMP_LIM : Nat := 0x04C
/-- `TAMP.STAT`. -/
abbrev Reg.TAMP.STAT : Nat := 0x080
/-- `TAMP.LOG_COUNT`. -/
abbrev Reg.TAMP.LOG_COUNT : Nat := 0x084
/-- `TAMP.LOG_IDX`. -/
abbrev Reg.TAMP.LOG_IDX : Nat := 0x088
/-- `TAMP.LOG_W0`. -/
abbrev Reg.TAMP.LOG_W0 : Nat := 0x08C
/-- `TAMP.LOG_W1`. -/
abbrev Reg.TAMP.LOG_W1 : Nat := 0x090
/-- `TAMP.ERASE_CNT`. -/
abbrev Reg.TAMP.ERASE_CNT : Nat := 0x094
/-- `TAMP.VBAT_TIME_LO`. -/
abbrev Reg.TAMP.VBAT_TIME_LO : Nat := 0x098
/-- `TAMP.VBAT_TIME_HI`. -/
abbrev Reg.TAMP.VBAT_TIME_HI : Nat := 0x09C

/-- The register map of `TAMP` (Table 19-6). -/
def regsTAMP : List RegRow :=
  [⟨Reg.TAMP.CFG, 1, 4, .rs, false, 0x000003D5, 0x000003FF⟩,
   ⟨Reg.TAMP.VOLT_WIN, 1, 4, .rs, false, 0x034802BC, 0xFFFFFFFF⟩,
   ⟨Reg.TAMP.CLK_WIN, 1, 4, .rs, false, 0x00000032, 0x000000FF⟩,
   ⟨Reg.TAMP.TEMP_LIM, 1, 4, .rs, false, 0x007DFFCE, 0xFFFFFFFF⟩,
   ⟨Reg.TAMP.STAT, 1, 4, .ro, false, 0x00000000, 0xFFFFFFFF⟩,
   ⟨Reg.TAMP.LOG_COUNT, 1, 4, .ro, false, 0x00000000, 0xFFFFFFFF⟩,
   ⟨Reg.TAMP.LOG_IDX, 1, 4, .rw, false, 0x00000000, 0x0000000F⟩,
   ⟨Reg.TAMP.LOG_W0, 1, 4, .ro, false, 0x00000000, 0xFFFFFFFF⟩,
   ⟨Reg.TAMP.LOG_W1, 1, 4, .ro, false, 0x00000000, 0xFFFFFFFF⟩,
   ⟨Reg.TAMP.ERASE_CNT, 1, 4, .ro, false, 0x00000000, 0xFFFFFFFF⟩,
   ⟨Reg.TAMP.VBAT_TIME_LO, 1, 4, .ro, false, 0x00000000, 0xFFFFFFFF⟩,
   ⟨Reg.TAMP.VBAT_TIME_HI, 1, 4, .ro, false, 0x00000000, 0xFFFFFFFF⟩]

/-! Offsets of `FLT` (Table 15-6, R420). -/
/-- `FLT.CFG`. -/
abbrev Reg.FLT.CFG : Nat := 0x040
/-- `FLT.AXIS_GRP`. -/
abbrev Reg.FLT.AXIS_GRP : Nat := 0x080
/-- `FLT.PCMP_GRP`. -/
abbrev Reg.FLT.PCMP_GRP : Nat := 0x280
/-- `FLT.SRC_MASK`. -/
abbrev Reg.FLT.SRC_MASK : Nat := 0x380
/-- `FLT.REACT`. -/
abbrev Reg.FLT.REACT : Nat := 0x600
/-- `FLT.GRP_LEVEL`. -/
abbrev Reg.FLT.GRP_LEVEL : Nat := 0xC00
/-- `FLT.GRP_RECOVERING`. -/
abbrev Reg.FLT.GRP_RECOVERING : Nat := 0xC10
/-- `FLT.SRC_ACTIVE_LO`. -/
abbrev Reg.FLT.SRC_ACTIVE_LO : Nat := 0xC14
/-- `FLT.SRC_ACTIVE_HI`. -/
abbrev Reg.FLT.SRC_ACTIVE_HI : Nat := 0xC18
/-- `FLT.LOG_COUNT`. -/
abbrev Reg.FLT.LOG_COUNT : Nat := 0xC1C
/-- `FLT.LOG_SEQ`. -/
abbrev Reg.FLT.LOG_SEQ : Nat := 0xC20
/-- `FLT.DISPLACED`. -/
abbrev Reg.FLT.DISPLACED : Nat := 0xC24
/-- `FLT.LOG_IDX`. -/
abbrev Reg.FLT.LOG_IDX : Nat := 0xC28
/-- `FLT.LOG_W`. -/
abbrev Reg.FLT.LOG_W : Nat := 0xC2C
/-- `FLT.RECOVER_MASK`. -/
abbrev Reg.FLT.RECOVER_MASK : Nat := 0xC40
/-- `FLT.RAISE_MASK`. -/
abbrev Reg.FLT.RAISE_MASK : Nat := 0xC44
/-- `FLT.RAISE_DETAIL`. -/
abbrev Reg.FLT.RAISE_DETAIL : Nat := 0xC48

/-- The register map of `FLT` (Table 15-6). -/
def regsFLT : List RegRow :=
  [⟨Reg.FLT.CFG, 1, 4, .rs, false, 0x00001388, 0x0000FFFF⟩,
   ⟨Reg.FLT.AXIS_GRP, 128, 4, .rs, false, 0x00000000, 0xFFFFFFFF⟩,
   ⟨Reg.FLT.PCMP_GRP, 64, 4, .rs, false, 0x00000000, 0xFFFFFFFF⟩,
   ⟨Reg.FLT.SRC_MASK, 64, 4, .rs, true, 0x00000000, 0xFFFFFFFF⟩,
   ⟨Reg.FLT.REACT, 256, 4, .rs, true, 0x00000000, 0x77777777⟩,
   ⟨Reg.FLT.GRP_LEVEL, 4, 4, .ro, false, 0x00000000, 0xFFFFFFFF⟩,
   ⟨Reg.FLT.GRP_RECOVERING, 1, 4, .ro, false, 0x00000000, 0xFFFFFFFF⟩,
   ⟨Reg.FLT.SRC_ACTIVE_LO, 1, 4, .ro, false, 0x00000000, 0xFFFFFFFF⟩,
   ⟨Reg.FLT.SRC_ACTIVE_HI, 1, 4, .ro, false, 0x00000000, 0xFFFFFFFF⟩,
   ⟨Reg.FLT.LOG_COUNT, 1, 4, .ro, false, 0x00000000, 0xFFFFFFFF⟩,
   ⟨Reg.FLT.LOG_SEQ, 1, 4, .ro, false, 0x00000000, 0xFFFFFFFF⟩,
   ⟨Reg.FLT.DISPLACED, 1, 4, .ro, false, 0x00000000, 0xFFFFFFFF⟩,
   ⟨Reg.FLT.LOG_IDX, 1, 4, .rw, false, 0x00000000, 0x000000FF⟩,
   ⟨Reg.FLT.LOG_W, 5, 4, .ro, false, 0x00000000, 0xFFFFFFFF⟩,
   ⟨Reg.FLT.RECOVER_MASK, 1, 4, .rw, false, 0x00000000, 0xFFFFFFFF⟩,
   ⟨Reg.FLT.RAISE_MASK, 1, 4, .rw, false, 0x00000000, 0xFFFFFFFF⟩,
   ⟨Reg.FLT.RAISE_DETAIL, 1, 4, .rw, false, 0x00000000, 0x0000FFFF⟩]

/-! Offsets of `TIME` (Table 14-5, R400). -/
/-- `TIME.DOMAIN`. -/
abbrev Reg.TIME.DOMAIN : Nat := 0x040
/-- `TIME.JUMP_LIMIT`. -/
abbrev Reg.TIME.JUMP_LIMIT : Nat := 0x044
/-- `TIME.HOLDOVER_T`. -/
abbrev Reg.TIME.HOLDOVER_T : Nat := 0x048
/-- `TIME.JOIN_TMO`. -/
abbrev Reg.TIME.JOIN_TMO : Nat := 0x04C
/-- `TIME.TRG_DELAY`. -/
abbrev Reg.TIME.TRG_DELAY : Nat := 0x050
/-- `TIME.TRG_CFG`. -/
abbrev Reg.TIME.TRG_CFG : Nat := 0x060
/-- `TIME.RATE`. -/
abbrev Reg.TIME.RATE : Nat := 0x080
/-- `TIME.STEP_VAL_LO`. -/
abbrev Reg.TIME.STEP_VAL_LO : Nat := 0x088
/-- `TIME.STEP_VAL_HI`. -/
abbrev Reg.TIME.STEP_VAL_HI : Nat := 0x08C
/-- `TIME.NOW_LO`. -/
abbrev Reg.TIME.NOW_LO : Nat := 0x100
/-- `TIME.NOW_HI`. -/
abbrev Reg.TIME.NOW_HI : Nat := 0x104
/-- `TIME.STAT`. -/
abbrev Reg.TIME.STAT : Nat := 0x108
/-- `TIME.TICK_DEV`. -/
abbrev Reg.TIME.TICK_DEV : Nat := 0x10C
/-- `TIME.STEP_LAST_LO`. -/
abbrev Reg.TIME.STEP_LAST_LO : Nat := 0x110
/-- `TIME.STEP_LAST_HI`. -/
abbrev Reg.TIME.STEP_LAST_HI : Nat := 0x114
/-- `TIME.LINK_ERR`. -/
abbrev Reg.TIME.LINK_ERR : Nat := 0x118
/-- `TIME.TRG_LATE`. -/
abbrev Reg.TIME.TRG_LATE : Nat := 0x11C
/-- `TIME.TRG_LOST`. -/
abbrev Reg.TIME.TRG_LOST : Nat := 0x120
/-- `TIME.COALESCE`. -/
abbrev Reg.TIME.COALESCE : Nat := 0x124
/-- `TIME.TYPE_ERR`. -/
abbrev Reg.TIME.TYPE_ERR : Nat := 0x128
/-- `TIME.NODES`. -/
abbrev Reg.TIME.NODES : Nat := 0x12C
/-- `TIME.EXPORT`. -/
abbrev Reg.TIME.EXPORT : Nat := 0x400

/-- The register map of `TIME` (Table 14-5). -/
def regsTIME : List RegRow :=
  [⟨Reg.TIME.DOMAIN, 1, 4, .rs, false, 0x00000000, 0x00031F03⟩,
   ⟨Reg.TIME.JUMP_LIMIT, 1, 4, .rs, false, 0x000003E8, 0xFFFFFFFF⟩,
   ⟨Reg.TIME.HOLDOVER_T, 1, 4, .rs, false, 0x00000FA0, 0xFFFFFFFF⟩,
   ⟨Reg.TIME.JOIN_TMO, 1, 4, .rs, false, 0x000003E8, 0xFFFFFFFF⟩,
   ⟨Reg.TIME.TRG_DELAY, 1, 4, .rs, false, 0x00000008, 0x000000FF⟩,
   ⟨Reg.TIME.TRG_CFG, 8, 4, .rs, false, 0x00000000, 0x00001F07⟩,
   ⟨Reg.TIME.RATE, 1, 4, .rw, false, 0x00000000, 0xFFFFFFFF⟩,
   ⟨Reg.TIME.STEP_VAL_LO, 1, 4, .rw, false, 0x00000000, 0xFFFFFFFF⟩,
   ⟨Reg.TIME.STEP_VAL_HI, 1, 4, .rw, false, 0x00000000, 0xFFFFFFFF⟩,
   ⟨Reg.TIME.NOW_LO, 1, 4, .ro, false, 0x00000000, 0xFFFFFFFF⟩,
   ⟨Reg.TIME.NOW_HI, 1, 4, .ro, false, 0x00000000, 0xFFFFFFFF⟩,
   ⟨Reg.TIME.STAT, 1, 4, .ro, false, 0x00000000, 0xFFFFFFFF⟩,
   ⟨Reg.TIME.TICK_DEV, 1, 4, .ro, false, 0x00000000, 0xFFFFFFFF⟩,
   ⟨Reg.TIME.STEP_LAST_LO, 1, 4, .ro, false, 0x00000000, 0xFFFFFFFF⟩,
   ⟨Reg.TIME.STEP_LAST_HI, 1, 4, .ro, false, 0x00000000, 0xFFFFFFFF⟩,
   ⟨Reg.TIME.LINK_ERR, 1, 4, .ro, false, 0x00000000, 0xFFFFFFFF⟩,
   ⟨Reg.TIME.TRG_LATE, 1, 4, .ro, false, 0x00000000, 0xFFFFFFFF⟩,
   ⟨Reg.TIME.TRG_LOST, 1, 4, .ro, false, 0x00000000, 0xFFFFFFFF⟩,
   ⟨Reg.TIME.COALESCE, 1, 4, .ro, false, 0x00000000, 0xFFFFFFFF⟩,
   ⟨Reg.TIME.TYPE_ERR, 1, 4, .ro, false, 0x00000000, 0xFFFFFFFF⟩] ++
  [⟨Reg.TIME.NODES, 1, 4, .ro, false, 0x00000000, 0xFFFFFFFF⟩,
   ⟨Reg.TIME.EXPORT, 256, 4, .rs, false, 0x00000000, 0x0001FFFF⟩]

/-! Offsets of `DLK` (Table 14-7, R402). -/
/-- `DLK.ASYM`. -/
abbrev Reg.DLK.ASYM : Nat := 0x040
/-- `DLK.STAT`. -/
abbrev Reg.DLK.STAT : Nat := 0x080
/-- `DLK.HOP_DELAY`. -/
abbrev Reg.DLK.HOP_DELAY : Nat := 0x084
/-- `DLK.INT_TX`. -/
abbrev Reg.DLK.INT_TX : Nat := 0x088
/-- `DLK.INT_RX`. -/
abbrev Reg.DLK.INT_RX : Nat := 0x08C
/-- `DLK.PEER_NODES`. -/
abbrev Reg.DLK.PEER_NODES : Nat := 0x090
/-- `DLK.CRC_CNT`. -/
abbrev Reg.DLK.CRC_CNT : Nat := 0x094
/-- `DLK.FRAME_CNT`. -/
abbrev Reg.DLK.FRAME_CNT : Nat := 0x098
/-- `DLK.REC_TX`. -/
abbrev Reg.DLK.REC_TX : Nat := 0x09C
/-- `DLK.BACKLOG`. -/
abbrev Reg.DLK.BACKLOG : Nat := 0x0A0

/-- The register map of `DLK` (Table 14-7). -/
def regsDLK : List RegRow :=
  [⟨Reg.DLK.ASYM, 1, 4, .rs, false, 0x00000000, 0xFFFFFFFF⟩,
   ⟨Reg.DLK.STAT, 1, 4, .ro, false, 0x00000000, 0xFFFFFFFF⟩,
   ⟨Reg.DLK.HOP_DELAY, 1, 4, .ro, false, 0x00000000, 0xFFFFFFFF⟩,
   ⟨Reg.DLK.INT_TX, 1, 4, .ro, false, 0x00000000, 0xFFFFFFFF⟩,
   ⟨Reg.DLK.INT_RX, 1, 4, .ro, false, 0x00000000, 0xFFFFFFFF⟩,
   ⟨Reg.DLK.PEER_NODES, 1, 4, .ro, false, 0x00000000, 0xFFFFFFFF⟩,
   ⟨Reg.DLK.CRC_CNT, 1, 4, .ro, false, 0x00000000, 0xFFFFFFFF⟩,
   ⟨Reg.DLK.FRAME_CNT, 1, 4, .ro, false, 0x00000000, 0xFFFFFFFF⟩,
   ⟨Reg.DLK.REC_TX, 1, 4, .ro, false, 0x00000000, 0xFFFFFFFF⟩,
   ⟨Reg.DLK.BACKLOG, 1, 4, .ro, false, 0x00000000, 0xFFFFFFFF⟩]

/-! Offsets of `FAB` (Table 1-13, R33). -/
/-- `FAB.CFG`. -/
abbrev Reg.FAB.CFG : Nat := 0x040
/-- `FAB.STAT`. -/
abbrev Reg.FAB.STAT : Nat := 0x080
/-- `FAB.LOG_OVF`. -/
abbrev Reg.FAB.LOG_OVF : Nat := 0x084
/-- `FAB.LOG_IDX`. -/
abbrev Reg.FAB.LOG_IDX : Nat := 0x088
/-- `FAB.LOG_ADDR_LO`. -/
abbrev Reg.FAB.LOG_ADDR_LO : Nat := 0x08C
/-- `FAB.LOG_ADDR_HI`. -/
abbrev Reg.FAB.LOG_ADDR_HI : Nat := 0x090
/-- `FAB.LOG_INFO`. -/
abbrev Reg.FAB.LOG_INFO : Nat := 0x094
/-- `FAB.LOG_TS_LO`. -/
abbrev Reg.FAB.LOG_TS_LO : Nat := 0x098
/-- `FAB.LOG_TS_HI`. -/
abbrev Reg.FAB.LOG_TS_HI : Nat := 0x09C
/-- `FAB.SRAM_CE_CNT`. -/
abbrev Reg.FAB.SRAM_CE_CNT : Nat := 0x0A0
/-- `FAB.PI_CE_CNT`. -/
abbrev Reg.FAB.PI_CE_CNT : Nat := 0x0A4
/-- `FAB.UE_ADDR_LO`. -/
abbrev Reg.FAB.UE_ADDR_LO : Nat := 0x0A8
/-- `FAB.UE_ADDR_HI`. -/
abbrev Reg.FAB.UE_ADDR_HI : Nat := 0x0AC

/-- The register map of `FAB` (Table 1-13). -/
def regsFAB : List RegRow :=
  [⟨Reg.FAB.CFG, 1, 4, .rs, false, 0x00000000, 0x00000001⟩,
   ⟨Reg.FAB.STAT, 1, 4, .ro, false, 0x00000000, 0xFFFFFFFF⟩,
   ⟨Reg.FAB.LOG_OVF, 1, 4, .ro, false, 0x00000000, 0xFFFFFFFF⟩,
   ⟨Reg.FAB.LOG_IDX, 1, 4, .rw, false, 0x00000000, 0x0000000F⟩,
   ⟨Reg.FAB.LOG_ADDR_LO, 1, 4, .ro, false, 0x00000000, 0xFFFFFFFF⟩,
   ⟨Reg.FAB.LOG_ADDR_HI, 1, 4, .ro, false, 0x00000000, 0xFFFFFFFF⟩,
   ⟨Reg.FAB.LOG_INFO, 1, 4, .ro, false, 0x00000000, 0x000003FF⟩,
   ⟨Reg.FAB.LOG_TS_LO, 1, 4, .ro, false, 0x00000000, 0xFFFFFFFF⟩,
   ⟨Reg.FAB.LOG_TS_HI, 1, 4, .ro, false, 0x00000000, 0xFFFFFFFF⟩,
   ⟨Reg.FAB.SRAM_CE_CNT, 1, 4, .ro, false, 0x00000000, 0xFFFFFFFF⟩,
   ⟨Reg.FAB.PI_CE_CNT, 1, 4, .ro, false, 0x00000000, 0xFFFFFFFF⟩,
   ⟨Reg.FAB.UE_ADDR_LO, 1, 4, .ro, false, 0x00000000, 0xFFFFFFFF⟩,
   ⟨Reg.FAB.UE_ADDR_HI, 1, 4, .ro, false, 0x00000000, 0xFFFFFFFF⟩]

/-! Offsets of `MEM` (Table 1-14, R35). -/
/-- `MEM.CFG`. -/
abbrev Reg.MEM.CFG : Nat := 0x040
/-- `MEM.STAT`. -/
abbrev Reg.MEM.STAT : Nat := 0x080
/-- `MEM.CE_CNT`. -/
abbrev Reg.MEM.CE_CNT : Nat := 0x084
/-- `MEM.UE_CNT`. -/
abbrev Reg.MEM.UE_CNT : Nat := 0x088
/-- `MEM.CE_ADDR_LO`. -/
abbrev Reg.MEM.CE_ADDR_LO : Nat := 0x08C
/-- `MEM.CE_ADDR_HI`. -/
abbrev Reg.MEM.CE_ADDR_HI : Nat := 0x090
/-- `MEM.UE_ADDR_LO`. -/
abbrev Reg.MEM.UE_ADDR_LO : Nat := 0x094
/-- `MEM.UE_ADDR_HI`. -/
abbrev Reg.MEM.UE_ADDR_HI : Nat := 0x098
/-- `MEM.SCRUB_CNT`. -/
abbrev Reg.MEM.SCRUB_CNT : Nat := 0x09C

/-- The register map of `MEM` (Table 1-14). -/
def regsMEM : List RegRow :=
  [⟨Reg.MEM.CFG, 1, 4, .rs, false, 0x00180001, 0xFFFF0001⟩,
   ⟨Reg.MEM.STAT, 1, 4, .ro, false, 0x00000000, 0xFFFFFFFF⟩,
   ⟨Reg.MEM.CE_CNT, 1, 4, .ro, false, 0x00000000, 0xFFFFFFFF⟩,
   ⟨Reg.MEM.UE_CNT, 1, 4, .ro, false, 0x00000000, 0xFFFFFFFF⟩,
   ⟨Reg.MEM.CE_ADDR_LO, 1, 4, .ro, false, 0x00000000, 0xFFFFFFFF⟩,
   ⟨Reg.MEM.CE_ADDR_HI, 1, 4, .ro, false, 0x00000000, 0xFFFFFFFF⟩,
   ⟨Reg.MEM.UE_ADDR_LO, 1, 4, .ro, false, 0x00000000, 0xFFFFFFFF⟩,
   ⟨Reg.MEM.UE_ADDR_HI, 1, 4, .ro, false, 0x00000000, 0xFFFFFFFF⟩,
   ⟨Reg.MEM.SCRUB_CNT, 1, 4, .ro, false, 0x00000000, 0xFFFFFFFF⟩]

/-! Offsets of `ENC` (Table 3-4, R91). -/
/-- `ENC.CFG`. -/
abbrev Reg.ENC.CFG : Nat := 0x040
/-- `ENC.FILT`. -/
abbrev Reg.ENC.FILT : Nat := 0x044
/-- `ENC.INDEX`. -/
abbrev Reg.ENC.INDEX : Nat := 0x048
/-- `ENC.LINES`. -/
abbrev Reg.ENC.LINES : Nat := 0x04C
/-- `ENC.LINE_TOL`. -/
abbrev Reg.ENC.LINE_TOL : Nat := 0x050
/-- `ENC.OBS_BW`. -/
abbrev Reg.ENC.OBS_BW : Nat := 0x054
/-- `ENC.STANDSTILL_T`. -/
abbrev Reg.ENC.STANDSTILL_T : Nat := 0x058
/-- `ENC.PRESET_LO`. -/
abbrev Reg.ENC.PRESET_LO : Nat := 0x060
/-- `ENC.PRESET_HI`. -/
abbrev Reg.ENC.PRESET_HI : Nat := 0x064
/-- `ENC.POS_LO`. -/
abbrev Reg.ENC.POS_LO : Nat := 0x080
/-- `ENC.POS_HI`. -/
abbrev Reg.ENC.POS_HI : Nat := 0x084
/-- `ENC.SPEED_LO`. -/
abbrev Reg.ENC.SPEED_LO : Nat := 0x088
/-- `ENC.SPEED_HI`. -/
abbrev Reg.ENC.SPEED_HI : Nat := 0x08C
/-- `ENC.ACCEL_LO`. -/
abbrev Reg.ENC.ACCEL_LO : Nat := 0x090
/-- `ENC.ACCEL_HI`. -/
abbrev Reg.ENC.ACCEL_HI : Nat := 0x094
/-- `ENC.STAT`. -/
abbrev Reg.ENC.STAT : Nat := 0x098
/-- `ENC.COUNT`. -/
abbrev Reg.ENC.COUNT : Nat := 0x09C
/-- `ENC.TICK_POS_LO`. -/
abbrev Reg.ENC.TICK_POS_LO : Nat := 0x0A0
/-- `ENC.TICK_POS_HI`. -/
abbrev Reg.ENC.TICK_POS_HI : Nat := 0x0A4
/-- `ENC.TICK_SPEED_LO`. -/
abbrev Reg.ENC.TICK_SPEED_LO : Nat := 0x0A8
/-- `ENC.TICK_SPEED_HI`. -/
abbrev Reg.ENC.TICK_SPEED_HI : Nat := 0x0AC
/-- `ENC.EDGE_TS_LO`. -/
abbrev Reg.ENC.EDGE_TS_LO : Nat := 0x0B0
/-- `ENC.EDGE_TS_HI`. -/
abbrev Reg.ENC.EDGE_TS_HI : Nat := 0x0B4
/-- `ENC.IDX_POS_LO`. -/
abbrev Reg.ENC.IDX_POS_LO : Nat := 0x0B8
/-- `ENC.IDX_POS_HI`. -/
abbrev Reg.ENC.IDX_POS_HI : Nat := 0x0BC
/-- `ENC.IDX_TS_LO`. -/
abbrev Reg.ENC.IDX_TS_LO : Nat := 0x0C0
/-- `ENC.IDX_TS_HI`. -/
abbrev Reg.ENC.IDX_TS_HI : Nat := 0x0C4
/-- `ENC.SHIFT_LO`. -/
abbrev Reg.ENC.SHIFT_LO : Nat := 0x0C8
/-- `ENC.SHIFT_HI`. -/
abbrev Reg.ENC.SHIFT_HI : Nat := 0x0CC
/-- `ENC.LINE_DEV`. -/
abbrev Reg.ENC.LINE_DEV : Nat := 0x0D0
/-- `ENC.LINES_LEARNED`. -/
abbrev Reg.ENC.LINES_LEARNED : Nat := 0x0D4
/-- `ENC.EDGE_ERR_CNT`. -/
abbrev Reg.ENC.EDGE_ERR_CNT : Nat := 0x0D8

/-- The register map of `ENC` (Table 3-4). -/
def regsENC : List RegRow :=
  [⟨Reg.ENC.CFG, 1, 4, .rs, false, 0x00000000, 0x000001F7⟩,
   ⟨Reg.ENC.FILT, 1, 4, .rs, false, 0x00000808, 0x0000FFFF⟩,
   ⟨Reg.ENC.INDEX, 1, 4, .rs, false, 0x00000000, 0x0000FF73⟩,
   ⟨Reg.ENC.LINES, 1, 4, .rs, false, 0x00000000, 0xFFFFFFFF⟩,
   ⟨Reg.ENC.LINE_TOL, 1, 4, .rs, false, 0x00000002, 0x000000FF⟩,
   ⟨Reg.ENC.OBS_BW, 1, 4, .rs, false, 0x000003E8, 0xFFFFFFFF⟩,
   ⟨Reg.ENC.STANDSTILL_T, 1, 4, .rs, false, 0x00002710, 0xFFFFFFFF⟩,
   ⟨Reg.ENC.PRESET_LO, 1, 4, .rs, false, 0x00000000, 0xFFFFFFFF⟩,
   ⟨Reg.ENC.PRESET_HI, 1, 4, .rs, false, 0x00000000, 0xFFFFFFFF⟩,
   ⟨Reg.ENC.POS_LO, 1, 4, .ro, false, 0x00000000, 0xFFFFFFFF⟩,
   ⟨Reg.ENC.POS_HI, 1, 4, .ro, false, 0x00000000, 0xFFFFFFFF⟩,
   ⟨Reg.ENC.SPEED_LO, 1, 4, .ro, false, 0x00000000, 0xFFFFFFFF⟩,
   ⟨Reg.ENC.SPEED_HI, 1, 4, .ro, false, 0x00000000, 0xFFFFFFFF⟩,
   ⟨Reg.ENC.ACCEL_LO, 1, 4, .ro, false, 0x00000000, 0xFFFFFFFF⟩,
   ⟨Reg.ENC.ACCEL_HI, 1, 4, .ro, false, 0x00000000, 0xFFFFFFFF⟩,
   ⟨Reg.ENC.STAT, 1, 4, .ro, false, 0x00000000, 0x00001FFF⟩,
   ⟨Reg.ENC.COUNT, 1, 4, .ro, false, 0x00000000, 0xFFFFFFFF⟩,
   ⟨Reg.ENC.TICK_POS_LO, 1, 4, .ro, false, 0x00000000, 0xFFFFFFFF⟩,
   ⟨Reg.ENC.TICK_POS_HI, 1, 4, .ro, false, 0x00000000, 0xFFFFFFFF⟩,
   ⟨Reg.ENC.TICK_SPEED_LO, 1, 4, .ro, false, 0x00000000, 0xFFFFFFFF⟩] ++
  [⟨Reg.ENC.TICK_SPEED_HI, 1, 4, .ro, false, 0x00000000, 0xFFFFFFFF⟩,
   ⟨Reg.ENC.EDGE_TS_LO, 1, 4, .ro, false, 0x00000000, 0xFFFFFFFF⟩,
   ⟨Reg.ENC.EDGE_TS_HI, 1, 4, .ro, false, 0x00000000, 0xFFFFFFFF⟩,
   ⟨Reg.ENC.IDX_POS_LO, 1, 4, .ro, false, 0x00000000, 0xFFFFFFFF⟩,
   ⟨Reg.ENC.IDX_POS_HI, 1, 4, .ro, false, 0x00000000, 0xFFFFFFFF⟩,
   ⟨Reg.ENC.IDX_TS_LO, 1, 4, .ro, false, 0x00000000, 0xFFFFFFFF⟩,
   ⟨Reg.ENC.IDX_TS_HI, 1, 4, .ro, false, 0x00000000, 0xFFFFFFFF⟩,
   ⟨Reg.ENC.SHIFT_LO, 1, 4, .ro, false, 0x00000000, 0xFFFFFFFF⟩,
   ⟨Reg.ENC.SHIFT_HI, 1, 4, .ro, false, 0x00000000, 0xFFFFFFFF⟩,
   ⟨Reg.ENC.LINE_DEV, 1, 4, .ro, false, 0x00000000, 0xFFFFFFFF⟩,
   ⟨Reg.ENC.LINES_LEARNED, 1, 4, .ro, false, 0x00000000, 0xFFFFFFFF⟩,
   ⟨Reg.ENC.EDGE_ERR_CNT, 1, 4, .ro, false, 0x00000000, 0xFFFFFFFF⟩]

/-! Offsets of `SSN` (Table 3-6, R97). -/
/-- `SSN.CFG`. -/
abbrev Reg.SSN.CFG : Nat := 0x040
/-- `SSN.FORMAT`. -/
abbrev Reg.SSN.FORMAT : Nat := 0x044
/-- `SSN.CLKDIV`. -/
abbrev Reg.SSN.CLKDIV : Nat := 0x048
/-- `SSN.TIMING`. -/
abbrev Reg.SSN.TIMING : Nat := 0x04C
/-- `SSN.LINE_DELAY`. -/
abbrev Reg.SSN.LINE_DELAY : Nat := 0x050
/-- `SSN.CRC`. -/
abbrev Reg.SSN.CRC : Nat := 0x054
/-- `SSN.OBS_BW`. -/
abbrev Reg.SSN.OBS_BW : Nat := 0x058
/-- `SSN.LIMITS`. -/
abbrev Reg.SSN.LIMITS : Nat := 0x05C
/-- `SSN.CDM_TX`. -/
abbrev Reg.SSN.CDM_TX : Nat := 0x060
/-- `SSN.POS_LO`. -/
abbrev Reg.SSN.POS_LO : Nat := 0x080
/-- `SSN.POS_HI`. -/
abbrev Reg.SSN.POS_HI : Nat := 0x084
/-- `SSN.SPEED_LO`. -/
abbrev Reg.SSN.SPEED_LO : Nat := 0x088
/-- `SSN.SPEED_HI`. -/
abbrev Reg.SSN.SPEED_HI : Nat := 0x08C
/-- `SSN.ACCEL_LO`. -/
abbrev Reg.SSN.ACCEL_LO : Nat := 0x090
/-- `SSN.ACCEL_HI`. -/
abbrev Reg.SSN.ACCEL_HI : Nat := 0x094
/-- `SSN.STAT`. -/
abbrev Reg.SSN.STAT : Nat := 0x098
/-- `SSN.RAW_LO`. -/
abbrev Reg.SSN.RAW_LO : Nat := 0x09C
/-- `SSN.RAW_HI`. -/
abbrev Reg.SSN.RAW_HI : Nat := 0x0A0
/-- `SSN.LATCH_TS_LO`. -/
abbrev Reg.SSN.LATCH_TS_LO : Nat := 0x0A4
/-- `SSN.LATCH_TS_HI`. -/
abbrev Reg.SSN.LATCH_TS_HI : Nat := 0x0A8
/-- `SSN.DELAY_MEAS`. -/
abbrev Reg.SSN.DELAY_MEAS : Nat := 0x0AC
/-- `SSN.BAD_CNT`. -/
abbrev Reg.SSN.BAD_CNT : Nat := 0x0B0
/-- `SSN.SKIP_CNT`. -/
abbrev Reg.SSN.SKIP_CNT : Nat := 0x0B4
/-- `SSN.CDS_RX`. -/
abbrev Reg.SSN.CDS_RX : Nat := 0x0B8

/-- The register map of `SSN` (Table 3-6). -/
def regsSSN : List RegRow :=
  [⟨Reg.SSN.CFG, 1, 4, .rs, false, 0x00000000, 0x00003F1F⟩,
   ⟨Reg.SSN.FORMAT, 1, 4, .rs, false, 0x00000001, 0x0F0F1F3F⟩,
   ⟨Reg.SSN.CLKDIV, 1, 4, .rs, false, 0x00000009, 0xFFFFFFFF⟩,
   ⟨Reg.SSN.TIMING, 1, 4, .rs, false, 0x00140000, 0xFFFF00FF⟩,
   ⟨Reg.SSN.LINE_DELAY, 1, 4, .rs, false, 0x00000000, 0xFFFFFFFF⟩,
   ⟨Reg.SSN.CRC, 1, 4, .rs, false, 0x00000000, 0xFFFF009F⟩,
   ⟨Reg.SSN.OBS_BW, 1, 4, .rs, false, 0x000003E8, 0xFFFFFFFF⟩,
   ⟨Reg.SSN.LIMITS, 1, 4, .rs, false, 0x00000003, 0xFFFFFFFF⟩,
   ⟨Reg.SSN.CDM_TX, 1, 4, .rw, false, 0x00000000, 0xFFFFFFFF⟩,
   ⟨Reg.SSN.POS_LO, 1, 4, .ro, false, 0x00000000, 0xFFFFFFFF⟩,
   ⟨Reg.SSN.POS_HI, 1, 4, .ro, false, 0x00000000, 0xFFFFFFFF⟩,
   ⟨Reg.SSN.SPEED_LO, 1, 4, .ro, false, 0x00000000, 0xFFFFFFFF⟩,
   ⟨Reg.SSN.SPEED_HI, 1, 4, .ro, false, 0x00000000, 0xFFFFFFFF⟩,
   ⟨Reg.SSN.ACCEL_LO, 1, 4, .ro, false, 0x00000000, 0xFFFFFFFF⟩,
   ⟨Reg.SSN.ACCEL_HI, 1, 4, .ro, false, 0x00000000, 0xFFFFFFFF⟩,
   ⟨Reg.SSN.STAT, 1, 4, .ro, false, 0x00000000, 0x0000001F⟩,
   ⟨Reg.SSN.RAW_LO, 1, 4, .ro, false, 0x00000000, 0xFFFFFFFF⟩,
   ⟨Reg.SSN.RAW_HI, 1, 4, .ro, false, 0x00000000, 0xFFFFFFFF⟩,
   ⟨Reg.SSN.LATCH_TS_LO, 1, 4, .ro, false, 0x00000000, 0xFFFFFFFF⟩,
   ⟨Reg.SSN.LATCH_TS_HI, 1, 4, .ro, false, 0x00000000, 0xFFFFFFFF⟩] ++
  [⟨Reg.SSN.DELAY_MEAS, 1, 4, .ro, false, 0x00000000, 0xFFFFFFFF⟩,
   ⟨Reg.SSN.BAD_CNT, 1, 4, .ro, false, 0x00000000, 0xFFFFFFFF⟩,
   ⟨Reg.SSN.SKIP_CNT, 1, 4, .ro, false, 0x00000000, 0xFFFFFFFF⟩,
   ⟨Reg.SSN.CDS_RX, 1, 4, .ro, false, 0x00000000, 0xFFFFFFFF⟩]

/-! Offsets of `AXIS` (Table 4-6, R141). -/
/-- `AXIS.CFG`. -/
abbrev Reg.AXIS.CFG : Nat := 0x040
/-- `AXIS.LIMCFG`. -/
abbrev Reg.AXIS.LIMCFG : Nat := 0x044
/-- `AXIS.DEBOUNCE`. -/
abbrev Reg.AXIS.DEBOUNCE : Nat := 0x048
/-- `AXIS.LIM_CLEAR`. -/
abbrev Reg.AXIS.LIM_CLEAR : Nat := 0x04C
/-- `AXIS.VMAX_LO`. -/
abbrev Reg.AXIS.VMAX_LO : Nat := 0x050
/-- `AXIS.VMAX_HI`. -/
abbrev Reg.AXIS.VMAX_HI : Nat := 0x054
/-- `AXIS.AMAX_LO`. -/
abbrev Reg.AXIS.AMAX_LO : Nat := 0x058
/-- `AXIS.AMAX_HI`. -/
abbrev Reg.AXIS.AMAX_HI : Nat := 0x05C
/-- `AXIS.DMAX_LO`. -/
abbrev Reg.AXIS.DMAX_LO : Nat := 0x060
/-- `AXIS.DMAX_HI`. -/
abbrev Reg.AXIS.DMAX_HI : Nat := 0x064
/-- `AXIS.JMAX_LO`. -/
abbrev Reg.AXIS.JMAX_LO : Nat := 0x068
/-- `AXIS.JMAX_HI`. -/
abbrev Reg.AXIS.JMAX_HI : Nat := 0x06C
/-- `AXIS.QDEC_LO`. -/
abbrev Reg.AXIS.QDEC_LO : Nat := 0x070
/-- `AXIS.QDEC_HI`. -/
abbrev Reg.AXIS.QDEC_HI : Nat := 0x074
/-- `AXIS.SWLIM_POS_LO`. -/
abbrev Reg.AXIS.SWLIM_POS_LO : Nat := 0x078
/-- `AXIS.SWLIM_POS_HI`. -/
abbrev Reg.AXIS.SWLIM_POS_HI : Nat := 0x07C
/-- `AXIS.SWLIM_NEG_LO`. -/
abbrev Reg.AXIS.SWLIM_NEG_LO : Nat := 0x080
/-- `AXIS.SWLIM_NEG_HI`. -/
abbrev Reg.AXIS.SWLIM_NEG_HI : Nat := 0x084
/-- `AXIS.FERR_LIM`. -/
abbrev Reg.AXIS.FERR_LIM : Nat := 0x088
/-- `AXIS.SP_LAG_LIM`. -/
abbrev Reg.AXIS.SP_LAG_LIM : Nat := 0x08C
/-- `AXIS.TARGET_LO`. -/
abbrev Reg.AXIS.TARGET_LO : Nat := 0x090
/-- `AXIS.TARGET_HI`. -/
abbrev Reg.AXIS.TARGET_HI : Nat := 0x094
/-- `AXIS.VTARGET_LO`. -/
abbrev Reg.AXIS.VTARGET_LO : Nat := 0x098
/-- `AXIS.VTARGET_HI`. -/
abbrev Reg.AXIS.VTARGET_HI : Nat := 0x09C
/-- `AXIS.MASTER`. -/
abbrev Reg.AXIS.MASTER : Nat := 0x0A0
/-- `AXIS.GEAR_NUM`. -/
abbrev Reg.AXIS.GEAR_NUM : Nat := 0x0A4
/-- `AXIS.GEAR_DEN`. -/
abbrev Reg.AXIS.GEAR_DEN : Nat := 0x0A8
/-- `AXIS.SYNC_CFG`. -/
abbrev Reg.AXIS.SYNC_CFG : Nat := 0x0AC
/-- `AXIS.CAM_START_LO`. -/
abbrev Reg.AXIS.CAM_START_LO : Nat := 0x0B0
/-- `AXIS.CAM_START_HI`. -/
abbrev Reg.AXIS.CAM_START_HI : Nat := 0x0B4
/-- `AXIS.SP_SRC`. -/
abbrev Reg.AXIS.SP_SRC : Nat := 0x0B8
/-- `AXIS.SP_SCALE`. -/
abbrev Reg.AXIS.SP_SCALE : Nat := 0x0BC
/-- `AXIS.HOMECFG`. -/
abbrev Reg.AXIS.HOMECFG : Nat := 0x0C0
/-- `AXIS.HOME_VFAST`. -/
abbrev Reg.AXIS.HOME_VFAST : Nat := 0x0C4
/-- `AXIS.HOME_VSLOW`. -/
abbrev Reg.AXIS.HOME_VSLOW : Nat := 0x0C8
/-- `AXIS.HOME_DIST`. -/
abbrev Reg.AXIS.HOME_DIST : Nat := 0x0CC
/-- `AXIS.HOME_OFS_LO`. -/
abbrev Reg.AXIS.HOME_OFS_LO : Nat := 0x0D0
/-- `AXIS.HOME_OFS_HI`. -/
abbrev Reg.AXIS.HOME_OFS_HI : Nat := 0x0D4
/-- `AXIS.SETP_LO`. -/
abbrev Reg.AXIS.SETP_LO : Nat := 0x100
/-- `AXIS.SETP_HI`. -/
abbrev Reg.AXIS.SETP_HI : Nat := 0x104
/-- `AXIS.SETV_LO`. -/
abbrev Reg.AXIS.SETV_LO : Nat := 0x108
/-- `AXIS.SETV_HI`. -/
abbrev Reg.AXIS.SETV_HI : Nat := 0x10C
/-- `AXIS.SETA_LO`. -/
abbrev Reg.AXIS.SETA_LO : Nat := 0x110
/-- `AXIS.SETA_HI`. -/
abbrev Reg.AXIS.SETA_HI : Nat := 0x114
/-- `AXIS.ACT_LO`. -/
abbrev Reg.AXIS.ACT_LO : Nat := 0x118
/-- `AXIS.ACT_HI`. -/
abbrev Reg.AXIS.ACT_HI : Nat := 0x11C
/-- `AXIS.FERR`. -/
abbrev Reg.AXIS.FERR : Nat := 0x120
/-- `AXIS.STAT`. -/
abbrev Reg.AXIS.STAT : Nat := 0x124
/-- `AXIS.REMAIN_LO`. -/
abbrev Reg.AXIS.REMAIN_LO : Nat := 0x128
/-- `AXIS.REMAIN_HI`. -/
abbrev Reg.AXIS.REMAIN_HI : Nat := 0x12C
/-- `AXIS.TARGET_ACT_LO`. -/
abbrev Reg.AXIS.TARGET_ACT_LO : Nat := 0x130
/-- `AXIS.TARGET_ACT_HI`. -/
abbrev Reg.AXIS.TARGET_ACT_HI : Nat := 0x134
/-- `AXIS.SP_LAG_LO`. -/
abbrev Reg.AXIS.SP_LAG_LO : Nat := 0x138
/-- `AXIS.SP_LAG_HI`. -/
abbrev Reg.AXIS.SP_LAG_HI : Nat := 0x13C
/-- `AXIS.LATCH_LO`. -/
abbrev Reg.AXIS.LATCH_LO : Nat := 0x140
/-- `AXIS.LATCH_HI`. -/
abbrev Reg.AXIS.LATCH_HI : Nat := 0x144
/-- `AXIS.HOME_REF_LO`. -/
abbrev Reg.AXIS.HOME_REF_LO : Nat := 0x148
/-- `AXIS.HOME_REF_HI`. -/
abbrev Reg.AXIS.HOME_REF_HI : Nat := 0x14C
/-- `AXIS.SYNC_OFS_LO`. -/
abbrev Reg.AXIS.SYNC_OFS_LO : Nat := 0x150
/-- `AXIS.SYNC_OFS_HI`. -/
abbrev Reg.AXIS.SYNC_OFS_HI : Nat := 0x154

/-- The register map of `AXIS` (Table 4-6). -/
def regsAXIS : List RegRow :=
  [⟨Reg.AXIS.CFG, 1, 4, .rs, false, 0x00000000, 0x00000FFF⟩,
   ⟨Reg.AXIS.LIMCFG, 1, 4, .rs, false, 0x00000000, 0xFFFFFFFF⟩,
   ⟨Reg.AXIS.DEBOUNCE, 1, 4, .rs, false, 0x00000000, 0xFFFFFFFF⟩,
   ⟨Reg.AXIS.LIM_CLEAR, 1, 4, .rs, false, 0x00000100, 0xFFFFFFFF⟩,
   ⟨Reg.AXIS.VMAX_LO, 1, 4, .rs, false, 0x00000000, 0xFFFFFFFF⟩,
   ⟨Reg.AXIS.VMAX_HI, 1, 4, .rs, false, 0x00000000, 0x0000FFFF⟩,
   ⟨Reg.AXIS.AMAX_LO, 1, 4, .rs, false, 0x00000000, 0xFFFFFFFF⟩,
   ⟨Reg.AXIS.AMAX_HI, 1, 4, .rs, false, 0x00000000, 0x0000FFFF⟩,
   ⟨Reg.AXIS.DMAX_LO, 1, 4, .rs, false, 0x00000000, 0xFFFFFFFF⟩,
   ⟨Reg.AXIS.DMAX_HI, 1, 4, .rs, false, 0x00000000, 0x0000FFFF⟩,
   ⟨Reg.AXIS.JMAX_LO, 1, 4, .rs, false, 0x00000000, 0xFFFFFFFF⟩,
   ⟨Reg.AXIS.JMAX_HI, 1, 4, .rs, false, 0x00000000, 0x0000FFFF⟩,
   ⟨Reg.AXIS.QDEC_LO, 1, 4, .rs, false, 0x00000000, 0xFFFFFFFF⟩,
   ⟨Reg.AXIS.QDEC_HI, 1, 4, .rs, false, 0x00000000, 0x0000FFFF⟩,
   ⟨Reg.AXIS.SWLIM_POS_LO, 1, 4, .rs, false, 0x00000000, 0xFFFFFFFF⟩,
   ⟨Reg.AXIS.SWLIM_POS_HI, 1, 4, .rs, false, 0x00000000, 0xFFFFFFFF⟩,
   ⟨Reg.AXIS.SWLIM_NEG_LO, 1, 4, .rs, false, 0x00000000, 0xFFFFFFFF⟩,
   ⟨Reg.AXIS.SWLIM_NEG_HI, 1, 4, .rs, false, 0x00000000, 0xFFFFFFFF⟩,
   ⟨Reg.AXIS.FERR_LIM, 1, 4, .rs, false, 0x00000000, 0xFFFFFFFF⟩,
   ⟨Reg.AXIS.SP_LAG_LIM, 1, 4, .rs, false, 0x00000000, 0xFFFFFFFF⟩] ++
  [⟨Reg.AXIS.TARGET_LO, 1, 4, .rs, false, 0x00000000, 0xFFFFFFFF⟩,
   ⟨Reg.AXIS.TARGET_HI, 1, 4, .rs, false, 0x00000000, 0xFFFFFFFF⟩,
   ⟨Reg.AXIS.VTARGET_LO, 1, 4, .rs, false, 0x00000000, 0xFFFFFFFF⟩,
   ⟨Reg.AXIS.VTARGET_HI, 1, 4, .rs, false, 0x00000000, 0xFFFFFFFF⟩,
   ⟨Reg.AXIS.MASTER, 1, 4, .rs, false, 0x00000000, 0xFFFF7F07⟩,
   ⟨Reg.AXIS.GEAR_NUM, 1, 4, .rs, false, 0x00000001, 0xFFFFFFFF⟩,
   ⟨Reg.AXIS.GEAR_DEN, 1, 4, .rs, false, 0x00000001, 0xFFFFFFFF⟩,
   ⟨Reg.AXIS.SYNC_CFG, 1, 4, .rs, false, 0x00000000, 0x000000FF⟩,
   ⟨Reg.AXIS.CAM_START_LO, 1, 4, .rs, false, 0x00000000, 0xFFFFFFFF⟩,
   ⟨Reg.AXIS.CAM_START_HI, 1, 4, .rs, false, 0x00000000, 0xFFFFFFFF⟩,
   ⟨Reg.AXIS.SP_SRC, 1, 4, .rs, false, 0x00000000, 0xFFFF3F07⟩,
   ⟨Reg.AXIS.SP_SCALE, 1, 4, .rs, false, 0x00010000, 0xFFFFFFFF⟩,
   ⟨Reg.AXIS.HOMECFG, 1, 4, .rs, false, 0x00000000, 0xFFFF001F⟩,
   ⟨Reg.AXIS.HOME_VFAST, 1, 4, .rs, false, 0x00000000, 0xFFFFFFFF⟩,
   ⟨Reg.AXIS.HOME_VSLOW, 1, 4, .rs, false, 0x00000000, 0xFFFFFFFF⟩,
   ⟨Reg.AXIS.HOME_DIST, 1, 4, .rs, false, 0x00000000, 0xFFFFFFFF⟩,
   ⟨Reg.AXIS.HOME_OFS_LO, 1, 4, .rs, false, 0x00000000, 0xFFFFFFFF⟩,
   ⟨Reg.AXIS.HOME_OFS_HI, 1, 4, .rs, false, 0x00000000, 0xFFFFFFFF⟩,
   ⟨Reg.AXIS.SETP_LO, 1, 4, .ro, false, 0x00000000, 0xFFFFFFFF⟩,
   ⟨Reg.AXIS.SETP_HI, 1, 4, .ro, false, 0x00000000, 0xFFFFFFFF⟩] ++
  [⟨Reg.AXIS.SETV_LO, 1, 4, .ro, false, 0x00000000, 0xFFFFFFFF⟩,
   ⟨Reg.AXIS.SETV_HI, 1, 4, .ro, false, 0x00000000, 0xFFFFFFFF⟩,
   ⟨Reg.AXIS.SETA_LO, 1, 4, .ro, false, 0x00000000, 0xFFFFFFFF⟩,
   ⟨Reg.AXIS.SETA_HI, 1, 4, .ro, false, 0x00000000, 0xFFFFFFFF⟩,
   ⟨Reg.AXIS.ACT_LO, 1, 4, .ro, false, 0x00000000, 0xFFFFFFFF⟩,
   ⟨Reg.AXIS.ACT_HI, 1, 4, .ro, false, 0x00000000, 0xFFFFFFFF⟩,
   ⟨Reg.AXIS.FERR, 1, 4, .ro, false, 0x00000000, 0xFFFFFFFF⟩,
   ⟨Reg.AXIS.STAT, 1, 4, .ro, false, 0x00000000, 0x000FFFFF⟩,
   ⟨Reg.AXIS.REMAIN_LO, 1, 4, .ro, false, 0x00000000, 0xFFFFFFFF⟩,
   ⟨Reg.AXIS.REMAIN_HI, 1, 4, .ro, false, 0x00000000, 0xFFFFFFFF⟩,
   ⟨Reg.AXIS.TARGET_ACT_LO, 1, 4, .ro, false, 0x00000000, 0xFFFFFFFF⟩,
   ⟨Reg.AXIS.TARGET_ACT_HI, 1, 4, .ro, false, 0x00000000, 0xFFFFFFFF⟩,
   ⟨Reg.AXIS.SP_LAG_LO, 1, 4, .ro, false, 0x00000000, 0xFFFFFFFF⟩,
   ⟨Reg.AXIS.SP_LAG_HI, 1, 4, .ro, false, 0x00000000, 0xFFFFFFFF⟩,
   ⟨Reg.AXIS.LATCH_LO, 1, 4, .ro, false, 0x00000000, 0xFFFFFFFF⟩,
   ⟨Reg.AXIS.LATCH_HI, 1, 4, .ro, false, 0x00000000, 0xFFFFFFFF⟩,
   ⟨Reg.AXIS.HOME_REF_LO, 1, 4, .ro, false, 0x00000000, 0xFFFFFFFF⟩,
   ⟨Reg.AXIS.HOME_REF_HI, 1, 4, .ro, false, 0x00000000, 0xFFFFFFFF⟩,
   ⟨Reg.AXIS.SYNC_OFS_LO, 1, 4, .ro, false, 0x00000000, 0xFFFFFFFF⟩,
   ⟨Reg.AXIS.SYNC_OFS_HI, 1, 4, .ro, false, 0x00000000, 0xFFFFFFFF⟩]

/-! Offsets of `PRK` (Table 4-8, R142). -/
/-- `PRK.TBL_RANGE`. -/
abbrev Reg.PRK.TBL_RANGE : Nat := 0x040
/-- `PRK.TBL_MODE`. -/
abbrev Reg.PRK.TBL_MODE : Nat := 0x080
/-- `PRK.CHECK_SEL`. -/
abbrev Reg.PRK.CHECK_SEL : Nat := 0x0C0
/-- `PRK.VALID`. -/
abbrev Reg.PRK.VALID : Nat := 0x0C4
/-- `PRK.IN_USE`. -/
abbrev Reg.PRK.IN_USE : Nat := 0x0C8
/-- `PRK.BAD_POINT`. -/
abbrev Reg.PRK.BAD_POINT : Nat := 0x0CC
/-- `PRK.REJ_POINT`. -/
abbrev Reg.PRK.REJ_POINT : Nat := 0x0D0
/-- `PRK.REJ_CNT`. -/
abbrev Reg.PRK.REJ_CNT : Nat := 0x0D4

/-- The register map of `PRK` (Table 4-8). -/
def regsPRK : List RegRow :=
  [⟨Reg.PRK.TBL_RANGE, 16, 4, .rs, false, 0x00000000, 0x3FFF3FFF⟩,
   ⟨Reg.PRK.TBL_MODE, 16, 4, .rs, false, 0x00000000, 0x00000003⟩,
   ⟨Reg.PRK.CHECK_SEL, 1, 4, .rw, false, 0x00000000, 0x0000000F⟩,
   ⟨Reg.PRK.VALID, 1, 4, .ro, false, 0x00000000, 0xFFFFFFFF⟩,
   ⟨Reg.PRK.IN_USE, 1, 4, .ro, false, 0x00000000, 0xFFFFFFFF⟩,
   ⟨Reg.PRK.BAD_POINT, 1, 4, .ro, false, 0x00000000, 0xFFFFFFFF⟩,
   ⟨Reg.PRK.REJ_POINT, 1, 4, .ro, false, 0x00000000, 0xFFFFFFFF⟩,
   ⟨Reg.PRK.REJ_CNT, 1, 4, .ro, false, 0x00000000, 0xFFFFFFFF⟩]

/-! Offsets of `PCMP` (Table 5-2, R159). -/
/-- `PCMP.CFG`. -/
abbrev Reg.PCMP.CFG : Nat := 0x040
/-- `PCMP.LEAD`. -/
abbrev Reg.PCMP.LEAD : Nat := 0x044
/-- `PCMP.LATCH_CFG`. -/
abbrev Reg.PCMP.LATCH_CFG : Nat := 0x048
/-- `PCMP.ENTRY_POS_LO`. -/
abbrev Reg.PCMP.ENTRY_POS_LO : Nat := 0x050
/-- `PCMP.ENTRY_POS_HI`. -/
abbrev Reg.PCMP.ENTRY_POS_HI : Nat := 0x054
/-- `PCMP.ENTRY_INC_LO`. -/
abbrev Reg.PCMP.ENTRY_INC_LO : Nat := 0x058
/-- `PCMP.ENTRY_INC_HI`. -/
abbrev Reg.PCMP.ENTRY_INC_HI : Nat := 0x05C
/-- `PCMP.ENTRY_CTRL`. -/
abbrev Reg.PCMP.ENTRY_CTRL : Nat := 0x060
/-- `PCMP.ENTRY_REPEAT`. -/
abbrev Reg.PCMP.ENTRY_REPEAT : Nat := 0x064
/-- `PCMP.ENTRY_WIDTH`. -/
abbrev Reg.PCMP.ENTRY_WIDTH : Nat := 0x068
/-- `PCMP.WIN_START_LO`. -/
abbrev Reg.PCMP.WIN_START_LO : Nat := 0x070
/-- `PCMP.WIN_START_HI`. -/
abbrev Reg.PCMP.WIN_START_HI : Nat := 0x074
/-- `PCMP.WIN_LEN_LO`. -/
abbrev Reg.PCMP.WIN_LEN_LO : Nat := 0x078
/-- `PCMP.WIN_LEN_HI`. -/
abbrev Reg.PCMP.WIN_LEN_HI : Nat := 0x07C
/-- `PCMP.WIN_PITCH_LO`. -/
abbrev Reg.PCMP.WIN_PITCH_LO : Nat := 0x080
/-- `PCMP.WIN_PITCH_HI`. -/
abbrev Reg.PCMP.WIN_PITCH_HI : Nat := 0x084
/-- `PCMP.MARK_EXPECT_LO`. -/
abbrev Reg.PCMP.MARK_EXPECT_LO : Nat := 0x088
/-- `PCMP.MARK_EXPECT_HI`. -/
abbrev Reg.PCMP.MARK_EXPECT_HI : Nat := 0x08C
/-- `PCMP.STAT`. -/
abbrev Reg.PCMP.STAT : Nat := 0x100
/-- `PCMP.QCOUNT`. -/
abbrev Reg.PCMP.QCOUNT : Nat := 0x104
/-- `PCMP.HEAD_POS_LO`. -/
abbrev Reg.PCMP.HEAD_POS_LO : Nat := 0x108
/-- `PCMP.HEAD_POS_HI`. -/
abbrev Reg.PCMP.HEAD_POS_HI : Nat := 0x10C
/-- `PCMP.HEAD_REPEAT`. -/
abbrev Reg.PCMP.HEAD_REPEAT : Nat := 0x110
/-- `PCMP.FIRE_CNT`. -/
abbrev Reg.PCMP.FIRE_CNT : Nat := 0x114
/-- `PCMP.MISS_CNT`. -/
abbrev Reg.PCMP.MISS_CNT : Nat := 0x118
/-- `PCMP.LATE_CNT`. -/
abbrev Reg.PCMP.LATE_CNT : Nat := 0x11C
/-- `PCMP.FIRE_TS_LO`. -/
abbrev Reg.PCMP.FIRE_TS_LO : Nat := 0x120
/-- `PCMP.FIRE_TS_HI`. -/
abbrev Reg.PCMP.FIRE_TS_HI : Nat := 0x124
/-- `PCMP.LQ_COUNT`. -/
abbrev Reg.PCMP.LQ_COUNT : Nat := 0x128
/-- `PCMP.LATCH_POS_LO`. -/
abbrev Reg.PCMP.LATCH_POS_LO : Nat := 0x130
/-- `PCMP.LATCH_POS_HI`. -/
abbrev Reg.PCMP.LATCH_POS_HI : Nat := 0x134
/-- `PCMP.LATCH_TS_LO`. -/
abbrev Reg.PCMP.LATCH_TS_LO : Nat := 0x138
/-- `PCMP.LATCH_TS_HI`. -/
abbrev Reg.PCMP.LATCH_TS_HI : Nat := 0x13C
/-- `PCMP.MARK_POS_LO`. -/
abbrev Reg.PCMP.MARK_POS_LO : Nat := 0x140
/-- `PCMP.MARK_POS_HI`. -/
abbrev Reg.PCMP.MARK_POS_HI : Nat := 0x144
/-- `PCMP.MARK_DEV_LO`. -/
abbrev Reg.PCMP.MARK_DEV_LO : Nat := 0x148
/-- `PCMP.MARK_DEV_HI`. -/
abbrev Reg.PCMP.MARK_DEV_HI : Nat := 0x14C
/-- `PCMP.MARK_CNT`. -/
abbrev Reg.PCMP.MARK_CNT : Nat := 0x150
/-- `PCMP.MARK_MISS_CNT`. -/
abbrev Reg.PCMP.MARK_MISS_CNT : Nat := 0x154

/-- The register map of `PCMP` (Table 5-2). -/
def regsPCMP : List RegRow :=
  [⟨Reg.PCMP.CFG, 1, 4, .rs, false, 0x00000000, 0x1F073FFF⟩,
   ⟨Reg.PCMP.LEAD, 1, 4, .rs, false, 0x00000000, 0x0000FFFF⟩,
   ⟨Reg.PCMP.LATCH_CFG, 1, 4, .rs, false, 0x00000000, 0x0001FF77⟩,
   ⟨Reg.PCMP.ENTRY_POS_LO, 1, 4, .rs, false, 0x00000000, 0xFFFFFFFF⟩,
   ⟨Reg.PCMP.ENTRY_POS_HI, 1, 4, .rs, false, 0x00000000, 0xFFFFFFFF⟩,
   ⟨Reg.PCMP.ENTRY_INC_LO, 1, 4, .rs, false, 0x00000000, 0xFFFFFFFF⟩,
   ⟨Reg.PCMP.ENTRY_INC_HI, 1, 4, .rs, false, 0x00000000, 0xFFFFFFFF⟩,
   ⟨Reg.PCMP.ENTRY_CTRL, 1, 4, .rs, false, 0x00000000, 0x0000FF3F⟩,
   ⟨Reg.PCMP.ENTRY_REPEAT, 1, 4, .rs, false, 0x00000000, 0x00FFFFFF⟩,
   ⟨Reg.PCMP.ENTRY_WIDTH, 1, 4, .rs, false, 0x00000050, 0x00FFFFFF⟩,
   ⟨Reg.PCMP.WIN_START_LO, 1, 4, .rs, false, 0x00000000, 0xFFFFFFFF⟩,
   ⟨Reg.PCMP.WIN_START_HI, 1, 4, .rs, false, 0x00000000, 0xFFFFFFFF⟩,
   ⟨Reg.PCMP.WIN_LEN_LO, 1, 4, .rs, false, 0x00000000, 0xFFFFFFFF⟩,
   ⟨Reg.PCMP.WIN_LEN_HI, 1, 4, .rs, false, 0x00000000, 0xFFFFFFFF⟩,
   ⟨Reg.PCMP.WIN_PITCH_LO, 1, 4, .rs, false, 0x00000000, 0xFFFFFFFF⟩,
   ⟨Reg.PCMP.WIN_PITCH_HI, 1, 4, .rs, false, 0x00000000, 0xFFFFFFFF⟩,
   ⟨Reg.PCMP.MARK_EXPECT_LO, 1, 4, .rs, false, 0x00000000, 0xFFFFFFFF⟩,
   ⟨Reg.PCMP.MARK_EXPECT_HI, 1, 4, .rs, false, 0x00000000, 0xFFFFFFFF⟩,
   ⟨Reg.PCMP.STAT, 1, 4, .ro, false, 0x00000000, 0x000000FF⟩,
   ⟨Reg.PCMP.QCOUNT, 1, 4, .ro, false, 0x00000000, 0xFFFFFFFF⟩] ++
  [⟨Reg.PCMP.HEAD_POS_LO, 1, 4, .ro, false, 0x00000000, 0xFFFFFFFF⟩,
   ⟨Reg.PCMP.HEAD_POS_HI, 1, 4, .ro, false, 0x00000000, 0xFFFFFFFF⟩,
   ⟨Reg.PCMP.HEAD_REPEAT, 1, 4, .ro, false, 0x00000000, 0xFFFFFFFF⟩,
   ⟨Reg.PCMP.FIRE_CNT, 1, 4, .ro, false, 0x00000000, 0xFFFFFFFF⟩,
   ⟨Reg.PCMP.MISS_CNT, 1, 4, .ro, false, 0x00000000, 0xFFFFFFFF⟩,
   ⟨Reg.PCMP.LATE_CNT, 1, 4, .ro, false, 0x00000000, 0xFFFFFFFF⟩,
   ⟨Reg.PCMP.FIRE_TS_LO, 1, 4, .ro, false, 0x00000000, 0xFFFFFFFF⟩,
   ⟨Reg.PCMP.FIRE_TS_HI, 1, 4, .ro, false, 0x00000000, 0xFFFFFFFF⟩,
   ⟨Reg.PCMP.LQ_COUNT, 1, 4, .ro, false, 0x00000000, 0xFFFFFFFF⟩,
   ⟨Reg.PCMP.LATCH_POS_LO, 1, 4, .ro, false, 0x00000000, 0xFFFFFFFF⟩,
   ⟨Reg.PCMP.LATCH_POS_HI, 1, 4, .ro, false, 0x00000000, 0xFFFFFFFF⟩,
   ⟨Reg.PCMP.LATCH_TS_LO, 1, 4, .ro, false, 0x00000000, 0xFFFFFFFF⟩,
   ⟨Reg.PCMP.LATCH_TS_HI, 1, 4, .ro, false, 0x00000000, 0xFFFFFFFF⟩,
   ⟨Reg.PCMP.MARK_POS_LO, 1, 4, .ro, false, 0x00000000, 0xFFFFFFFF⟩,
   ⟨Reg.PCMP.MARK_POS_HI, 1, 4, .ro, false, 0x00000000, 0xFFFFFFFF⟩,
   ⟨Reg.PCMP.MARK_DEV_LO, 1, 4, .ro, false, 0x00000000, 0xFFFFFFFF⟩,
   ⟨Reg.PCMP.MARK_DEV_HI, 1, 4, .ro, false, 0x00000000, 0xFFFFFFFF⟩,
   ⟨Reg.PCMP.MARK_CNT, 1, 4, .ro, false, 0x00000000, 0xFFFFFFFF⟩,
   ⟨Reg.PCMP.MARK_MISS_CNT, 1, 4, .ro, false, 0x00000000, 0xFFFFFFFF⟩]

/-! Offsets of `STEP` (Table 5-4, R166). -/
/-- `STEP.CFG`. -/
abbrev Reg.STEP.CFG : Nat := 0x040
/-- `STEP.PULSE_T`. -/
abbrev Reg.STEP.PULSE_T : Nat := 0x044
/-- `STEP.DIR_T`. -/
abbrev Reg.STEP.DIR_T : Nat := 0x048
/-- `STEP.LAG_LIM`. -/
abbrev Reg.STEP.LAG_LIM : Nat := 0x04C
/-- `STEP.AMP`. -/
abbrev Reg.STEP.AMP : Nat := 0x050
/-- `STEP.AMP_HOLD`. -/
abbrev Reg.STEP.AMP_HOLD : Nat := 0x054
/-- `STEP.HOLD_DELAY`. -/
abbrev Reg.STEP.HOLD_DELAY : Nat := 0x058
/-- `STEP.STAT`. -/
abbrev Reg.STEP.STAT : Nat := 0x080
/-- `STEP.STEPS_LO`. -/
abbrev Reg.STEP.STEPS_LO : Nat := 0x084
/-- `STEP.STEPS_HI`. -/
abbrev Reg.STEP.STEPS_HI : Nat := 0x088
/-- `STEP.LAG`. -/
abbrev Reg.STEP.LAG : Nat := 0x08C
/-- `STEP.PHASE_A`. -/
abbrev Reg.STEP.PHASE_A : Nat := 0x090
/-- `STEP.PHASE_B`. -/
abbrev Reg.STEP.PHASE_B : Nat := 0x094
/-- `STEP.ELEC`. -/
abbrev Reg.STEP.ELEC : Nat := 0x098

/-- The register map of `STEP` (Table 5-4). -/
def regsSTEP : List RegRow :=
  [⟨Reg.STEP.CFG, 1, 4, .rs, false, 0x00000000, 0x000F77FF⟩,
   ⟨Reg.STEP.PULSE_T, 1, 4, .rs, false, 0x00100010, 0xFFFFFFFF⟩,
   ⟨Reg.STEP.DIR_T, 1, 4, .rs, false, 0x00000010, 0x0000FFFF⟩,
   ⟨Reg.STEP.LAG_LIM, 1, 4, .rs, false, 0x00000000, 0xFFFFFFFF⟩,
   ⟨Reg.STEP.AMP, 1, 4, .rs, false, 0x00400000, 0xFFFFFFFF⟩,
   ⟨Reg.STEP.AMP_HOLD, 1, 4, .rs, false, 0x00200000, 0xFFFFFFFF⟩,
   ⟨Reg.STEP.HOLD_DELAY, 1, 4, .rs, false, 0x000003E8, 0xFFFFFFFF⟩,
   ⟨Reg.STEP.STAT, 1, 4, .ro, false, 0x00000000, 0x0000003F⟩,
   ⟨Reg.STEP.STEPS_LO, 1, 4, .ro, false, 0x00000000, 0xFFFFFFFF⟩,
   ⟨Reg.STEP.STEPS_HI, 1, 4, .ro, false, 0x00000000, 0xFFFFFFFF⟩,
   ⟨Reg.STEP.LAG, 1, 4, .ro, false, 0x00000000, 0xFFFFFFFF⟩,
   ⟨Reg.STEP.PHASE_A, 1, 4, .ro, false, 0x00000000, 0xFFFFFFFF⟩,
   ⟨Reg.STEP.PHASE_B, 1, 4, .ro, false, 0x00000000, 0xFFFFFFFF⟩,
   ⟨Reg.STEP.ELEC, 1, 4, .ro, false, 0x00000000, 0xFFFFFFFF⟩]

/-! Offsets of `USTP` (Table 5-6, R168). -/
/-- `USTP.EDIT_SEL`. -/
abbrev Reg.USTP.EDIT_SEL : Nat := 0x040
/-- `USTP.IN_USE`. -/
abbrev Reg.USTP.IN_USE : Nat := 0x044
/-- `USTP.TBL_DATA`. -/
abbrev Reg.USTP.TBL_DATA : Nat := 0x100

/-- The register map of `USTP` (Table 5-6). -/
def regsUSTP : List RegRow :=
  [⟨Reg.USTP.EDIT_SEL, 1, 4, .rw, false, 0x00000000, 0x00000003⟩,
   ⟨Reg.USTP.IN_USE, 1, 4, .ro, false, 0x00000000, 0xFFFFFFFF⟩,
   ⟨Reg.USTP.TBL_DATA, 512, 4, .rs, false, 0x00000000, 0xFFFFFFFF⟩]

/-! Offsets of `LC` (Table 7-8, R222). -/
/-- `LC.IMG_LO`. -/
abbrev Reg.LC.IMG_LO : Nat := 0x040
/-- `LC.IMG_HI`. -/
abbrev Reg.LC.IMG_HI : Nat := 0x044
/-- `LC.G0_INIT`. -/
abbrev Reg.LC.G0_INIT : Nat := 0x048
/-- `LC.G1_INIT`. -/
abbrev Reg.LC.G1_INIT : Nat := 0x04C
/-- `LC.IRQV`. -/
abbrev Reg.LC.IRQV : Nat := 0x060
/-- `LC.STAT`. -/
abbrev Reg.LC.STAT : Nat := 0x100
/-- `LC.HALT_EPC`. -/
abbrev Reg.LC.HALT_EPC : Nat := 0x104
/-- `LC.CE_CNT`. -/
abbrev Reg.LC.CE_CNT : Nat := 0x108
/-- `LC.UE_ADDR`. -/
abbrev Reg.LC.UE_ADDR : Nat := 0x10C
/-- `LC.XLOST`. -/
abbrev Reg.LC.XLOST : Nat := 0x110
/-- `LC.ST_RESULT`. -/
abbrev Reg.LC.ST_RESULT : Nat := 0x114
/-- `LC.LOAD_MAX`. -/
abbrev Reg.LC.LOAD_MAX : Nat := 0x118
/-- `LC.SIGIN`. -/
abbrev Reg.LC.SIGIN : Nat := 0x200
/-- `LC.OUTW`. -/
abbrev Reg.LC.OUTW : Nat := 0x300

/-- The register map of `LC` (Table 7-8). -/
def regsLC : List RegRow :=
  [⟨Reg.LC.IMG_LO, 1, 4, .rs, false, 0x00000000, 0xFFFFFFFF⟩,
   ⟨Reg.LC.IMG_HI, 1, 4, .rs, false, 0x00000000, 0xFFFFFFFF⟩,
   ⟨Reg.LC.G0_INIT, 1, 4, .rs, false, 0x00000000, 0xFFFFFFFF⟩,
   ⟨Reg.LC.G1_INIT, 1, 4, .rs, false, 0x00000000, 0xFFFFFFFF⟩,
   ⟨Reg.LC.IRQV, 24, 4, .rs, false, 0x00000000, 0x000081FF⟩,
   ⟨Reg.LC.STAT, 1, 4, .ro, false, 0x00000000, 0x0000FFFF⟩,
   ⟨Reg.LC.HALT_EPC, 1, 4, .ro, false, 0x00000000, 0xFFFFFFFF⟩,
   ⟨Reg.LC.CE_CNT, 1, 4, .ro, false, 0x00000000, 0xFFFFFFFF⟩,
   ⟨Reg.LC.UE_ADDR, 1, 4, .ro, false, 0x00000000, 0x0000FFFF⟩,
   ⟨Reg.LC.XLOST, 1, 4, .ro, false, 0x00000000, 0xFFFFFFFF⟩,
   ⟨Reg.LC.ST_RESULT, 1, 4, .ro, false, 0x00000000, 0x0003FFFF⟩,
   ⟨Reg.LC.LOAD_MAX, 1, 4, .ro, false, 0x00000000, 0xFFFFFFFF⟩,
   ⟨Reg.LC.SIGIN, 64, 4, .rs, false, 0x00000000, 0x0000FFFF⟩,
   ⟨Reg.LC.OUTW, 64, 4, .ro, false, 0x00000000, 0xFFFFFFFF⟩]

/-! Offsets of `LSCH` (Table 7-6, R221). -/
/-- `LSCH.CFG`. -/
abbrev Reg.LSCH.CFG : Nat := 0x040
/-- `LSCH.OVR_LIMIT`. -/
abbrev Reg.LSCH.OVR_LIMIT : Nat := 0x044
/-- `LSCH.STANDBY`. -/
abbrev Reg.LSCH.STANDBY : Nat := 0x048
/-- `LSCH.STITCH`. -/
abbrev Reg.LSCH.STITCH : Nat := 0x04C
/-- `LSCH.STITCH_IMG_LO`. -/
abbrev Reg.LSCH.STITCH_IMG_LO : Nat := 0x050
/-- `LSCH.STITCH_IMG_HI`. -/
abbrev Reg.LSCH.STITCH_IMG_HI : Nat := 0x054
/-- `LSCH.STAT`. -/
abbrev Reg.LSCH.STAT : Nat := 0x060
/-- `LSCH.FO_CNT`. -/
abbrev Reg.LSCH.FO_CNT : Nat := 0x064
/-- `LSCH.RESERVE`. -/
abbrev Reg.LSCH.RESERVE : Nat := 0x080
/-- `LSCH.TCFG`. -/
abbrev Reg.LSCH.TCFG : Nat := 0x100
/-- `LSCH.TENTRY`. -/
abbrev Reg.LSCH.TENTRY : Nat := 0x104
/-- `LSCH.TBUDGET`. -/
abbrev Reg.LSCH.TBUDGET : Nat := 0x108
/-- `LSCH.TSTAT`. -/
abbrev Reg.LSCH.TSTAT : Nat := 0x10C
/-- `LSCH.OVR_CNT`. -/
abbrev Reg.LSCH.OVR_CNT : Nat := 0x900

/-- The register map of `LSCH` (Table 7-6). -/
def regsLSCH : List RegRow :=
  [⟨Reg.LSCH.CFG, 1, 4, .rs, false, 0x00804001, 0xFFFFFF01⟩,
   ⟨Reg.LSCH.OVR_LIMIT, 1, 4, .rs, false, 0x00000003, 0x0000000F⟩,
   ⟨Reg.LSCH.STANDBY, 1, 4, .rs, false, 0x00030000, 0x0003FFFF⟩,
   ⟨Reg.LSCH.STITCH, 1, 4, .rs, false, 0x00000000, 0x00011F1F⟩,
   ⟨Reg.LSCH.STITCH_IMG_LO, 1, 4, .rs, false, 0x00000000, 0xFFFFFFFF⟩,
   ⟨Reg.LSCH.STITCH_IMG_HI, 1, 4, .rs, false, 0x00000000, 0xFFFFFFFF⟩,
   ⟨Reg.LSCH.STAT, 1, 4, .ro, false, 0x00000000, 0x7F1F1F03⟩,
   ⟨Reg.LSCH.FO_CNT, 1, 4, .ro, false, 0x00000000, 0xFFFFFFFF⟩,
   ⟨Reg.LSCH.RESERVE, 18, 4, .rs, false, 0x00000000, 0xFFFFFFFF⟩,
   ⟨Reg.LSCH.TCFG, 128, 16, .rs, false, 0x00000000, 0x0FFFFF3F⟩,
   ⟨Reg.LSCH.TENTRY, 128, 16, .rs, false, 0x00000000, 0x001F3FFF⟩,
   ⟨Reg.LSCH.TBUDGET, 128, 16, .rs, false, 0x00000000, 0x00FFFFFF⟩,
   ⟨Reg.LSCH.TSTAT, 128, 16, .ro, false, 0x00000000, 0x1FFFFFFF⟩,
   ⟨Reg.LSCH.OVR_CNT, 128, 4, .ro, false, 0x00000000, 0xFFFFFFFF⟩]

/-! Offsets of `CE` (Table 8-7, R248). -/
/-- `CE.CFG`. -/
abbrev Reg.CE.CFG : Nat := 0x040
/-- `CE.STAT`. -/
abbrev Reg.CE.STAT : Nat := 0x080
/-- `CE.BUDGET`. -/
abbrev Reg.CE.BUDGET : Nat := 0x084
/-- `CE.QUEUE_MAX`. -/
abbrev Reg.CE.QUEUE_MAX : Nat := 0x088
/-- `CE.CE_CNT`. -/
abbrev Reg.CE.CE_CNT : Nat := 0x08C
/-- `CE.UE_ADDR`. -/
abbrev Reg.CE.UE_ADDR : Nat := 0x090

/-- The register map of `CE` (Table 8-7). -/
def regsCE : List RegRow :=
  [⟨Reg.CE.CFG, 1, 4, .rs, false, 0x00000001, 0x00000001⟩,
   ⟨Reg.CE.STAT, 1, 4, .ro, false, 0x00000000, 0xFFFFFFFF⟩,
   ⟨Reg.CE.BUDGET, 1, 4, .ro, false, 0x00000000, 0xFFFFFFFF⟩,
   ⟨Reg.CE.QUEUE_MAX, 1, 4, .ro, false, 0x00000000, 0xFFFFFFFF⟩,
   ⟨Reg.CE.CE_CNT, 1, 4, .ro, false, 0x00000000, 0xFFFFFFFF⟩,
   ⟨Reg.CE.UE_ADDR, 1, 4, .ro, false, 0x00000000, 0xFFFFFFFF⟩]

/-! Offsets of `CSLOT` (Table 8-8, R249). -/
/-- `CSLOT.CFG`. -/
abbrev Reg.CSLOT.CFG : Nat := 0x040
/-- `CSLOT.DIMS`. -/
abbrev Reg.CSLOT.DIMS : Nat := 0x044
/-- `CSLOT.TRIG`. -/
abbrev Reg.CSLOT.TRIG : Nat := 0x048
/-- `CSLOT.TMIN`. -/
abbrev Reg.CSLOT.TMIN : Nat := 0x04C
/-- `CSLOT.ANGLE`. -/
abbrev Reg.CSLOT.ANGLE : Nat := 0x050
/-- `CSLOT.ELEC`. -/
abbrev Reg.CSLOT.ELEC : Nat := 0x054
/-- `CSLOT.THETA_OFS`. -/
abbrev Reg.CSLOT.THETA_OFS : Nat := 0x058
/-- `CSLOT.ANG_ADV`. -/
abbrev Reg.CSLOT.ANG_ADV : Nat := 0x05C
/-- `CSLOT.PLAUS`. -/
abbrev Reg.CSLOT.PLAUS : Nat := 0x060
/-- `CSLOT.MISC`. -/
abbrev Reg.CSLOT.MISC : Nat := 0x064
/-- `CSLOT.SHIFT_X`. -/
abbrev Reg.CSLOT.SHIFT_X : Nat := 0x068
/-- `CSLOT.SHIFT_U`. -/
abbrev Reg.CSLOT.SHIFT_U : Nat := 0x06C
/-- `CSLOT.SHIFT_Y`. -/
abbrev Reg.CSLOT.SHIFT_Y : Nat := 0x070
/-- `CSLOT.IN_SRC`. -/
abbrev Reg.CSLOT.IN_SRC : Nat := 0x080
/-- `CSLOT.IN_VAL`. -/
abbrev Reg.CSLOT.IN_VAL : Nat := 0x090
/-- `CSLOT.IN_SLEW`. -/
abbrev Reg.CSLOT.IN_SLEW : Nat := 0x0A0
/-- `CSLOT.Y_SRC`. -/
abbrev Reg.CSLOT.Y_SRC : Nat := 0x0B0
/-- `CSLOT.PLAUS_LIM`. -/
abbrev Reg.CSLOT.PLAUS_LIM : Nat := 0x0C0
/-- `CSLOT.U_MAP`. -/
abbrev Reg.CSLOT.U_MAP : Nat := 0x0D0
/-- `CSLOT.U_LIM`. -/
abbrev Reg.CSLOT.U_LIM : Nat := 0x0E0
/-- `CSLOT.REP_CFG`. -/
abbrev Reg.CSLOT.REP_CFG : Nat := 0x0F0
/-- `CSLOT.REP_CPR`. -/
abbrev Reg.CSLOT.REP_CPR : Nat := 0x0F4
/-- `CSLOT.REP_ORIGIN_LO`. -/
abbrev Reg.CSLOT.REP_ORIGIN_LO : Nat := 0x0F8
/-- `CSLOT.REP_ORIGIN_HI`. -/
abbrev Reg.CSLOT.REP_ORIGIN_HI : Nat := 0x0FC
/-- `CSLOT.REP_VMIN`. -/
abbrev Reg.CSLOT.REP_VMIN : Nat := 0x100
/-- `CSLOT.REP_CH`. -/
abbrev Reg.CSLOT.REP_CH : Nat := 0x104
/-- `CSLOT.REP_GAIN`. -/
abbrev Reg.CSLOT.REP_GAIN : Nat := 0x114
/-- `CSLOT.REP_FORGET`. -/
abbrev Reg.CSLOT.REP_FORGET : Nat := 0x124
/-- `CSLOT.FB_CFG`. -/
abbrev Reg.CSLOT.FB_CFG : Nat := 0x140
/-- `CSLOT.FB_KP`. -/
abbrev Reg.CSLOT.FB_KP : Nat := 0x144
/-- `CSLOT.FB_KV`. -/
abbrev Reg.CSLOT.FB_KV : Nat := 0x148
/-- `CSLOT.FB_KI`. -/
abbrev Reg.CSLOT.FB_KI : Nat := 0x14C
/-- `CSLOT.FB_VSCALE`. -/
abbrev Reg.CSLOT.FB_VSCALE : Nat := 0x150
/-- `CSLOT.RT_MAX`. -/
abbrev Reg.CSLOT.RT_MAX : Nat := 0x154
/-- `CSLOT.A`. -/
abbrev Reg.CSLOT.A : Nat := 0x200
/-- `CSLOT.B`. -/
abbrev Reg.CSLOT.B : Nat := 0x300
/-- `CSLOT.L`. -/
abbrev Reg.CSLOT.L : Nat := 0x380
/-- `CSLOT.G`. -/
abbrev Reg.CSLOT.G : Nat := 0x400
/-- `CSLOT.F`. -/
abbrev Reg.CSLOT.F : Nat := 0x480
/-- `CSLOT.E`. -/
abbrev Reg.CSLOT.E : Nat := 0x500
/-- `CSLOT.H`. -/
abbrev Reg.CSLOT.H : Nat := 0x540
/-- `CSLOT.CM`. -/
abbrev Reg.CSLOT.CM : Nat := 0x580
/-- `CSLOT.X_INIT`. -/
abbrev Reg.CSLOT.X_INIT : Nat := 0x600
/-- `CSLOT.STAT`. -/
abbrev Reg.CSLOT.STAT : Nat := 0x800
/-- `CSLOT.COST`. -/
abbrev Reg.CSLOT.COST : Nat := 0x804
/-- `CSLOT.SAMPLES`. -/
abbrev Reg.CSLOT.SAMPLES : Nat := 0x808
/-- `CSLOT.SKIP_CNT`. -/
abbrev Reg.CSLOT.SKIP_CNT : Nat := 0x80C
/-- `CSLOT.XHAT`. -/
abbrev Reg.CSLOT.XHAT : Nat := 0x810
/-- `CSLOT.U_OUT`. -/
abbrev Reg.CSLOT.U_OUT : Nat := 0x830
/-- `CSLOT.Y_IN`. -/
abbrev Reg.CSLOT.Y_IN : Nat := 0x840
/-- `CSLOT.RESID`. -/
abbrev Reg.CSLOT.RESID : Nat := 0x850
/-- `CSLOT.IN_LAG`. -/
abbrev Reg.CSLOT.IN_LAG : Nat := 0x860
/-- `CSLOT.ANGLE_E`. -/
abbrev Reg.CSLOT.ANGLE_E : Nat := 0x870
/-- `CSLOT.ANGLE_M`. -/
abbrev Reg.CSLOT.ANGLE_M : Nat := 0x874
/-- `CSLOT.REP_IDX`. -/
abbrev Reg.CSLOT.REP_IDX : Nat := 0x878
/-- `CSLOT.REP_DATA`. -/
abbrev Reg.CSLOT.REP_DATA : Nat := 0x87C
/-- `CSLOT.FB_OUT`. -/
abbrev Reg.CSLOT.FB_OUT : Nat := 0x880
/-- `CSLOT.RT_TIME`. -/
abbrev Reg.CSLOT.RT_TIME : Nat := 0x884
/-- `CSLOT.PLAUS_CNT`. -/
abbrev Reg.CSLOT.PLAUS_CNT : Nat := 0x888

/-- The register map of `CSLOT` (Table 8-8). -/
def regsCSLOT : List RegRow :=
  [⟨Reg.CSLOT.CFG, 1, 4, .rs, false, 0x00000000, 0x00000007⟩,
   ⟨Reg.CSLOT.DIMS, 1, 4, .rs, false, 0x00001000, 0x0000777F⟩,
   ⟨Reg.CSLOT.TRIG, 1, 4, .rs, false, 0x00000000, 0x0000F7FF⟩,
   ⟨Reg.CSLOT.TMIN, 1, 4, .rs, false, 0x00000FA0, 0x00FFFFFF⟩,
   ⟨Reg.CSLOT.ANGLE, 1, 4, .rs, false, 0x00000000, 0xFFFF00FF⟩,
   ⟨Reg.CSLOT.ELEC, 1, 4, .rs, false, 0x01000001, 0x7FFFFFFF⟩,
   ⟨Reg.CSLOT.THETA_OFS, 1, 4, .rs, false, 0x00000000, 0xFFFFFFFF⟩,
   ⟨Reg.CSLOT.ANG_ADV, 1, 4, .rs, false, 0x00000000, 0x0000FFFF⟩,
   ⟨Reg.CSLOT.PLAUS, 1, 4, .rs, false, 0x00000008, 0x000001FF⟩,
   ⟨Reg.CSLOT.MISC, 1, 4, .rs, false, 0x00000000, 0x00001FFF⟩,
   ⟨Reg.CSLOT.SHIFT_X, 1, 4, .rs, false, 0x00000000, 0xFFFFFFFF⟩,
   ⟨Reg.CSLOT.SHIFT_U, 1, 4, .rs, false, 0x00000000, 0x0000FFFF⟩,
   ⟨Reg.CSLOT.SHIFT_Y, 1, 4, .rs, false, 0x00000000, 0x0000FFFF⟩,
   ⟨Reg.CSLOT.IN_SRC, 4, 4, .rs, false, 0x00000000, 0xFFFF0003⟩,
   ⟨Reg.CSLOT.IN_VAL, 4, 4, .rs, false, 0x00000000, 0xFFFFFFFF⟩,
   ⟨Reg.CSLOT.IN_SLEW, 4, 4, .rs, false, 0x00000000, 0xFFFFFFFF⟩,
   ⟨Reg.CSLOT.Y_SRC, 4, 4, .rs, false, 0x00000000, 0xFFFF01FF⟩,
   ⟨Reg.CSLOT.PLAUS_LIM, 4, 4, .rs, false, 0x00000000, 0xFFFFFFFF⟩,
   ⟨Reg.CSLOT.U_MAP, 4, 4, .rs, false, 0x00000000, 0x0000037F⟩,
   ⟨Reg.CSLOT.U_LIM, 4, 4, .rs, false, 0x007FFFFF, 0xFFFFFFFF⟩] ++
  [⟨Reg.CSLOT.REP_CFG, 1, 4, .rs, false, 0x00000000, 0x00FF7F7F⟩,
   ⟨Reg.CSLOT.REP_CPR, 1, 4, .rs, false, 0x00000001, 0xFFFFFFFF⟩,
   ⟨Reg.CSLOT.REP_ORIGIN_LO, 1, 4, .rs, false, 0x00000000, 0xFFFFFFFF⟩,
   ⟨Reg.CSLOT.REP_ORIGIN_HI, 1, 4, .rs, false, 0x00000000, 0xFFFFFFFF⟩,
   ⟨Reg.CSLOT.REP_VMIN, 1, 4, .rs, false, 0x00000000, 0xFFFFFFFF⟩,
   ⟨Reg.CSLOT.REP_CH, 4, 4, .rs, false, 0x00000000, 0x00000333⟩,
   ⟨Reg.CSLOT.REP_GAIN, 4, 4, .rs, false, 0x00000000, 0xFFFFFFFF⟩,
   ⟨Reg.CSLOT.REP_FORGET, 4, 4, .rs, false, 0x007FFFFF, 0xFFFFFFFF⟩,
   ⟨Reg.CSLOT.FB_CFG, 1, 4, .rs, false, 0x00000000, 0x00007F07⟩,
   ⟨Reg.CSLOT.FB_KP, 1, 4, .rs, false, 0x00000000, 0xFFFFFFFF⟩,
   ⟨Reg.CSLOT.FB_KV, 1, 4, .rs, false, 0x00000000, 0xFFFFFFFF⟩,
   ⟨Reg.CSLOT.FB_KI, 1, 4, .rs, false, 0x00000000, 0xFFFFFFFF⟩,
   ⟨Reg.CSLOT.FB_VSCALE, 1, 4, .rs, false, 0x00000001, 0xFFFFFFFF⟩,
   ⟨Reg.CSLOT.RT_MAX, 1, 4, .rs, false, 0x000001F4, 0xFFFFFFFF⟩,
   ⟨Reg.CSLOT.A, 64, 4, .rs, false, 0x00000000, 0xFFFFFFFF⟩,
   ⟨Reg.CSLOT.B, 32, 4, .rs, false, 0x00000000, 0xFFFFFFFF⟩,
   ⟨Reg.CSLOT.L, 32, 4, .rs, false, 0x00000000, 0xFFFFFFFF⟩,
   ⟨Reg.CSLOT.G, 32, 4, .rs, false, 0x00000000, 0xFFFFFFFF⟩,
   ⟨Reg.CSLOT.F, 32, 4, .rs, false, 0x00000000, 0xFFFFFFFF⟩,
   ⟨Reg.CSLOT.E, 16, 4, .rs, false, 0x00000000, 0xFFFFFFFF⟩] ++
  [⟨Reg.CSLOT.H, 16, 4, .rs, false, 0x00000000, 0xFFFFFFFF⟩,
   ⟨Reg.CSLOT.CM, 32, 4, .rs, false, 0x00000000, 0xFFFFFFFF⟩,
   ⟨Reg.CSLOT.X_INIT, 8, 4, .rs, false, 0x00000000, 0xFFFFFFFF⟩,
   ⟨Reg.CSLOT.STAT, 1, 4, .ro, false, 0x00000000, 0x0001FFFF⟩,
   ⟨Reg.CSLOT.COST, 1, 4, .ro, false, 0x00000000, 0xFFFFFFFF⟩,
   ⟨Reg.CSLOT.SAMPLES, 1, 4, .ro, false, 0x00000000, 0xFFFFFFFF⟩,
   ⟨Reg.CSLOT.SKIP_CNT, 1, 4, .ro, false, 0x00000000, 0xFFFFFFFF⟩,
   ⟨Reg.CSLOT.XHAT, 8, 4, .ro, false, 0x00000000, 0xFFFFFFFF⟩,
   ⟨Reg.CSLOT.U_OUT, 4, 4, .ro, false, 0x00000000, 0xFFFFFFFF⟩,
   ⟨Reg.CSLOT.Y_IN, 4, 4, .ro, false, 0x00000000, 0xFFFFFFFF⟩,
   ⟨Reg.CSLOT.RESID, 4, 4, .ro, false, 0x00000000, 0xFFFFFFFF⟩,
   ⟨Reg.CSLOT.IN_LAG, 4, 4, .ro, false, 0x00000000, 0xFFFFFFFF⟩,
   ⟨Reg.CSLOT.ANGLE_E, 1, 4, .ro, false, 0x00000000, 0xFFFFFFFF⟩,
   ⟨Reg.CSLOT.ANGLE_M, 1, 4, .ro, false, 0x00000000, 0xFFFFFFFF⟩,
   ⟨Reg.CSLOT.REP_IDX, 1, 4, .rw, false, 0x00000000, 0x0000BFFF⟩,
   ⟨Reg.CSLOT.REP_DATA, 1, 4, .rw, false, 0x00000000, 0xFFFFFFFF⟩,
   ⟨Reg.CSLOT.FB_OUT, 1, 4, .ro, false, 0x00000000, 0xFFFFFFFF⟩,
   ⟨Reg.CSLOT.RT_TIME, 1, 4, .ro, false, 0x00000000, 0xFFFFFFFF⟩,
   ⟨Reg.CSLOT.PLAUS_CNT, 1, 4, .ro, false, 0x00000000, 0xFFFFFFFF⟩]

/-! Offsets of `PWM` (Table 9-6, R274). -/
/-- `PWM.CFG`. -/
abbrev Reg.PWM.CFG : Nat := 0x040
/-- `PWM.PERIOD`. -/
abbrev Reg.PWM.PERIOD : Nat := 0x044
/-- `PWM.DT`. -/
abbrev Reg.PWM.DT : Nat := 0x048
/-- `PWM.MINP`. -/
abbrev Reg.PWM.MINP : Nat := 0x04C
/-- `PWM.PHASE_OFS`. -/
abbrev Reg.PWM.PHASE_OFS : Nat := 0x050
/-- `PWM.RB_T`. -/
abbrev Reg.PWM.RB_T : Nat := 0x054
/-- `PWM.PAIR_CFG`. -/
abbrev Reg.PWM.PAIR_CFG : Nat := 0x060
/-- `PWM.CMP`. -/
abbrev Reg.PWM.CMP : Nat := 0x070
/-- `PWM.TRG_CFG`. -/
abbrev Reg.PWM.TRG_CFG : Nat := 0x080
/-- `PWM.TRG_POS`. -/
abbrev Reg.PWM.TRG_POS : Nat := 0x090
/-- `PWM.FORCE`. -/
abbrev Reg.PWM.FORCE : Nat := 0x0A0
/-- `PWM.STAT`. -/
abbrev Reg.PWM.STAT : Nat := 0x100
/-- `PWM.COUNT`. -/
abbrev Reg.PWM.COUNT : Nat := 0x104
/-- `PWM.PERIOD_ACT`. -/
abbrev Reg.PWM.PERIOD_ACT : Nat := 0x108
/-- `PWM.PERIOD_CNT`. -/
abbrev Reg.PWM.PERIOD_CNT : Nat := 0x10C
/-- `PWM.CMP_ACT`. -/
abbrev Reg.PWM.CMP_ACT : Nat := 0x110
/-- `PWM.CARRY_ACC`. -/
abbrev Reg.PWM.CARRY_ACC : Nat := 0x120
/-- `PWM.ZERO_TS_LO`. -/
abbrev Reg.PWM.ZERO_TS_LO : Nat := 0x130
/-- `PWM.ZERO_TS_HI`. -/
abbrev Reg.PWM.ZERO_TS_HI : Nat := 0x134
/-- `PWM.SHORT_CNT`. -/
abbrev Reg.PWM.SHORT_CNT : Nat := 0x138
/-- `PWM.RB_CNT`. -/
abbrev Reg.PWM.RB_CNT : Nat := 0x13C
/-- `PWM.SYNC_DEV`. -/
abbrev Reg.PWM.SYNC_DEV : Nat := 0x140

/-- The register map of `PWM` (Table 9-6). -/
def regsPWM : List RegRow :=
  [⟨Reg.PWM.CFG, 1, 4, .rs, false, 0x00000000, 0x001FFF7F⟩,
   ⟨Reg.PWM.PERIOD, 1, 4, .rs, false, 0x0003D090, 0x00FFFFFF⟩,
   ⟨Reg.PWM.DT, 1, 4, .rs, false, 0x03200320, 0xFFFFFFFF⟩,
   ⟨Reg.PWM.MINP, 1, 4, .rs, false, 0x00000190, 0x0000FFFF⟩,
   ⟨Reg.PWM.PHASE_OFS, 1, 4, .rs, false, 0x00000000, 0x00FFFFFF⟩,
   ⟨Reg.PWM.RB_T, 1, 4, .rs, false, 0x00000020, 0x000000FF⟩,
   ⟨Reg.PWM.PAIR_CFG, 3, 4, .rs, false, 0x00000000, 0xFFFF00FF⟩,
   ⟨Reg.PWM.CMP, 3, 4, .rs, false, 0x00000000, 0x00FFFFFF⟩,
   ⟨Reg.PWM.TRG_CFG, 4, 4, .rs, false, 0x00000000, 0x00000FF7⟩,
   ⟨Reg.PWM.TRG_POS, 4, 4, .rs, false, 0x00000000, 0x00FFFFFF⟩,
   ⟨Reg.PWM.FORCE, 1, 4, .rw, false, 0x00000000, 0x0000003F⟩,
   ⟨Reg.PWM.STAT, 1, 4, .ro, false, 0x00000000, 0x3F3FFDF3⟩,
   ⟨Reg.PWM.COUNT, 1, 4, .ro, false, 0x00000000, 0xFFFFFFFF⟩,
   ⟨Reg.PWM.PERIOD_ACT, 1, 4, .ro, false, 0x00000000, 0xFFFFFFFF⟩,
   ⟨Reg.PWM.PERIOD_CNT, 1, 4, .ro, false, 0x00000000, 0xFFFFFFFF⟩,
   ⟨Reg.PWM.CMP_ACT, 3, 4, .ro, false, 0x00000000, 0xFFFFFFFF⟩,
   ⟨Reg.PWM.CARRY_ACC, 3, 4, .ro, false, 0x00000000, 0xFFFFFFFF⟩,
   ⟨Reg.PWM.ZERO_TS_LO, 1, 4, .ro, false, 0x00000000, 0xFFFFFFFF⟩,
   ⟨Reg.PWM.ZERO_TS_HI, 1, 4, .ro, false, 0x00000000, 0xFFFFFFFF⟩,
   ⟨Reg.PWM.SHORT_CNT, 1, 4, .ro, false, 0x00000000, 0xFFFFFFFF⟩] ++
  [⟨Reg.PWM.RB_CNT, 1, 4, .ro, false, 0x00000000, 0xFFFFFFFF⟩,
   ⟨Reg.PWM.SYNC_DEV, 1, 4, .ro, false, 0x00000000, 0xFFFFFFFF⟩]

/-! Offsets of `FIN` (Table 9-8, R275). -/
/-- `FIN.CFG`. -/
abbrev Reg.FIN.CFG : Nat := 0x040
/-- `FIN.MAP`. -/
abbrev Reg.FIN.MAP : Nat := 0x044
/-- `FIN.CLR_MASK`. -/
abbrev Reg.FIN.CLR_MASK : Nat := 0x090
/-- `FIN.LATCH`. -/
abbrev Reg.FIN.LATCH : Nat := 0x100
/-- `FIN.LEVEL`. -/
abbrev Reg.FIN.LEVEL : Nat := 0x104
/-- `FIN.FIRST`. -/
abbrev Reg.FIN.FIRST : Nat := 0x108
/-- `FIN.TRIP_TS_LO`. -/
abbrev Reg.FIN.TRIP_TS_LO : Nat := 0x10C
/-- `FIN.TRIP_TS_HI`. -/
abbrev Reg.FIN.TRIP_TS_HI : Nat := 0x110

/-- The register map of `FIN` (Table 9-8). -/
def regsFIN : List RegRow :=
  [⟨Reg.FIN.CFG, 1, 4, .rs, false, 0x00000000, 0xFFFFFFFF⟩,
   ⟨Reg.FIN.MAP, 16, 4, .rs, false, 0x00000000, 0xFFFFFFFF⟩,
   ⟨Reg.FIN.CLR_MASK, 1, 4, .rw, false, 0x00000000, 0x0000FFFF⟩,
   ⟨Reg.FIN.LATCH, 1, 4, .ro, false, 0x00000000, 0xFFFFFFFF⟩,
   ⟨Reg.FIN.LEVEL, 1, 4, .ro, false, 0x00000000, 0xFFFFFFFF⟩,
   ⟨Reg.FIN.FIRST, 1, 4, .ro, false, 0x00000000, 0xFFFFFFFF⟩,
   ⟨Reg.FIN.TRIP_TS_LO, 1, 4, .ro, false, 0x00000000, 0xFFFFFFFF⟩,
   ⟨Reg.FIN.TRIP_TS_HI, 1, 4, .ro, false, 0x00000000, 0xFFFFFFFF⟩]

/-! Offsets of `FCG` (Table 10-4, R295). -/
/-- `FCG.CFG`. -/
abbrev Reg.FCG.CFG : Nat := 0x040
/-- `FCG.CAL_CFG`. -/
abbrev Reg.FCG.CAL_CFG : Nat := 0x044
/-- `FCG.CAL_PERIOD`. -/
abbrev Reg.FCG.CAL_PERIOD : Nat := 0x048
/-- `FCG.CAL_TMO`. -/
abbrev Reg.FCG.CAL_TMO : Nat := 0x04C
/-- `FCG.BOB_AGE`. -/
abbrev Reg.FCG.BOB_AGE : Nat := 0x050
/-- `FCG.CAL_SEL`. -/
abbrev Reg.FCG.CAL_SEL : Nat := 0x054
/-- `FCG.TMR_CFG`. -/
abbrev Reg.FCG.TMR_CFG : Nat := 0x060
/-- `FCG.TMR_PERIOD`. -/
abbrev Reg.FCG.TMR_PERIOD : Nat := 0x070
/-- `FCG.STAT`. -/
abbrev Reg.FCG.STAT : Nat := 0x100
/-- `FCG.CAL_Q`. -/
abbrev Reg.FCG.CAL_Q : Nat := 0x104
/-- `FCG.CAL_RESULT`. -/
abbrev Reg.FCG.CAL_RESULT : Nat := 0x108
/-- `FCG.CAL_CNT`. -/
abbrev Reg.FCG.CAL_CNT : Nat := 0x10C
/-- `FCG.CAL_OFS`. -/
abbrev Reg.FCG.CAL_OFS : Nat := 0x110
/-- `FCG.CAL_GAIN`. -/
abbrev Reg.FCG.CAL_GAIN : Nat := 0x140
/-- `FCG.CAL_AGE`. -/
abbrev Reg.FCG.CAL_AGE : Nat := 0x170
/-- `FCG.CAL_STAT`. -/
abbrev Reg.FCG.CAL_STAT : Nat := 0x1A0

/-- The register map of `FCG` (Table 10-4). -/
def regsFCG : List RegRow :=
  [⟨Reg.FCG.CFG, 1, 4, .rs, false, 0x00000000, 0x000000FF⟩,
   ⟨Reg.FCG.CAL_CFG, 1, 4, .rs, false, 0x00040100, 0x00FF7FF1⟩,
   ⟨Reg.FCG.CAL_PERIOD, 1, 4, .rs, false, 0x00000E10, 0xFFFFFFFF⟩,
   ⟨Reg.FCG.CAL_TMO, 1, 4, .rs, false, 0x000003E8, 0xFFFFFFFF⟩,
   ⟨Reg.FCG.BOB_AGE, 1, 4, .rs, false, 0x000003E8, 0xFFFFFFFF⟩,
   ⟨Reg.FCG.CAL_SEL, 1, 4, .rw, false, 0x00000000, 0x0000000F⟩,
   ⟨Reg.FCG.TMR_CFG, 4, 4, .rs, false, 0x00000000, 0x00000003⟩,
   ⟨Reg.FCG.TMR_PERIOD, 4, 4, .rs, false, 0x00000010, 0x00FFFFFF⟩,
   ⟨Reg.FCG.STAT, 1, 4, .ro, false, 0x00000F0F, 0x00FF0F7F⟩,
   ⟨Reg.FCG.CAL_Q, 1, 4, .ro, false, 0xFFFFFFFF, 0xFFFFFFFF⟩,
   ⟨Reg.FCG.CAL_RESULT, 1, 4, .ro, false, 0x00000000, 0xFFFF00FF⟩,
   ⟨Reg.FCG.CAL_CNT, 1, 4, .ro, false, 0x00000000, 0xFFFFFFFF⟩,
   ⟨Reg.FCG.CAL_OFS, 9, 4, .ro, false, 0x00000000, 0xFFFFFFFF⟩,
   ⟨Reg.FCG.CAL_GAIN, 9, 4, .ro, false, 0x00400000, 0xFFFFFFFF⟩,
   ⟨Reg.FCG.CAL_AGE, 9, 4, .ro, false, 0xFFFFFFFF, 0xFFFFFFFF⟩,
   ⟨Reg.FCG.CAL_STAT, 9, 4, .ro, false, 0x00000000, 0xFFFFFFFF⟩]

/-! Offsets of `FCH` (Table 10-6, R296). -/
/-- `FCH.CFG`. -/
abbrev Reg.FCH.CFG : Nat := 0x040
/-- `FCH.TRIG`. -/
abbrev Reg.FCH.TRIG : Nat := 0x044
/-- `FCH.DELAY`. -/
abbrev Reg.FCH.DELAY : Nat := 0x048
/-- `FCH.LIM_HI`. -/
abbrev Reg.FCH.LIM_HI : Nat := 0x04C
/-- `FCH.LIM_LO`. -/
abbrev Reg.FCH.LIM_LO : Nat := 0x050
/-- `FCH.LIM_N`. -/
abbrev Reg.FCH.LIM_N : Nat := 0x054
/-- `FCH.RESULT`. -/
abbrev Reg.FCH.RESULT : Nat := 0x080
/-- `FCH.RAW`. -/
abbrev Reg.FCH.RAW : Nat := 0x084
/-- `FCH.TS_LO`. -/
abbrev Reg.FCH.TS_LO : Nat := 0x088
/-- `FCH.TS_HI`. -/
abbrev Reg.FCH.TS_HI : Nat := 0x08C
/-- `FCH.STAT`. -/
abbrev Reg.FCH.STAT : Nat := 0x090
/-- `FCH.COUNT`. -/
abbrev Reg.FCH.COUNT : Nat := 0x094
/-- `FCH.TRIG_LOST_CNT`. -/
abbrev Reg.FCH.TRIG_LOST_CNT : Nat := 0x098
/-- `FCH.WAIT_MAX`. -/
abbrev Reg.FCH.WAIT_MAX : Nat := 0x09C

/-- The register map of `FCH` (Table 10-6). -/
def regsFCH : List RegRow :=
  [⟨Reg.FCH.CFG, 1, 4, .rs, false, 0x00000000, 0x000000FF⟩,
   ⟨Reg.FCH.TRIG, 1, 4, .rs, false, 0x00000000, 0xFF737F07⟩,
   ⟨Reg.FCH.DELAY, 1, 4, .rs, false, 0x00000000, 0x0000FFFF⟩,
   ⟨Reg.FCH.LIM_HI, 1, 4, .rs, false, 0x007FFFFF, 0xFFFFFFFF⟩,
   ⟨Reg.FCH.LIM_LO, 1, 4, .rs, false, 0xFF800000, 0xFFFFFFFF⟩,
   ⟨Reg.FCH.LIM_N, 1, 4, .rs, false, 0x00000001, 0x000000FF⟩,
   ⟨Reg.FCH.RESULT, 1, 4, .ro, false, 0x00000000, 0xFFFFFFFF⟩,
   ⟨Reg.FCH.RAW, 1, 4, .ro, false, 0x00000000, 0xFFFFFFFF⟩,
   ⟨Reg.FCH.TS_LO, 1, 4, .ro, false, 0x00000000, 0xFFFFFFFF⟩,
   ⟨Reg.FCH.TS_HI, 1, 4, .ro, false, 0x00000000, 0xFFFFFFFF⟩,
   ⟨Reg.FCH.STAT, 1, 4, .ro, false, 0x00000000, 0x0000003F⟩,
   ⟨Reg.FCH.COUNT, 1, 4, .ro, false, 0x00000000, 0xFFFFFFFF⟩,
   ⟨Reg.FCH.TRIG_LOST_CNT, 1, 4, .ro, false, 0x00000000, 0xFFFFFFFF⟩,
   ⟨Reg.FCH.WAIT_MAX, 1, 4, .ro, false, 0x00000000, 0xFFFFFFFF⟩]

/-! Offsets of `PCV` (Table 10-8, R304). -/
/-- `PCV.CFG`. -/
abbrev Reg.PCV.CFG : Nat := 0x040
/-- `PCV.SCAN`. -/
abbrev Reg.PCV.SCAN : Nat := 0x044
/-- `PCV.SETTLE`. -/
abbrev Reg.PCV.SETTLE : Nat := 0x048
/-- `PCV.OW_LIM`. -/
abbrev Reg.PCV.OW_LIM : Nat := 0x04C
/-- `PCV.OW_DIV`. -/
abbrev Reg.PCV.OW_DIV : Nat := 0x050
/-- `PCV.CH_CFG`. -/
abbrev Reg.PCV.CH_CFG : Nat := 0x080
/-- `PCV.CH_OSR`. -/
abbrev Reg.PCV.CH_OSR : Nat := 0x0C0
/-- `PCV.RESULT`. -/
abbrev Reg.PCV.RESULT : Nat := 0x100
/-- `PCV.OPEN`. -/
abbrev Reg.PCV.OPEN : Nat := 0x140
/-- `PCV.OVER`. -/
abbrev Reg.PCV.OVER : Nat := 0x144
/-- `PCV.SCAN_T`. -/
abbrev Reg.PCV.SCAN_T : Nat := 0x148
/-- `PCV.SCAN_CNT`. -/
abbrev Reg.PCV.SCAN_CNT : Nat := 0x14C
/-- `PCV.OFS_CAL`. -/
abbrev Reg.PCV.OFS_CAL : Nat := 0x180
/-- `PCV.GAIN_CAL`. -/
abbrev Reg.PCV.GAIN_CAL : Nat := 0x1A0

/-- The register map of `PCV` (Table 10-8). -/
def regsPCV : List RegRow :=
  [⟨Reg.PCV.CFG, 1, 4, .rs, false, 0x00000000, 0x00001F1F⟩,
   ⟨Reg.PCV.SCAN, 1, 4, .rs, false, 0x00000000, 0x0000FFFF⟩,
   ⟨Reg.PCV.SETTLE, 1, 4, .rs, false, 0x00000014, 0xFFFFFFFF⟩,
   ⟨Reg.PCV.OW_LIM, 1, 4, .rs, false, 0x00400000, 0xFFFFFFFF⟩,
   ⟨Reg.PCV.OW_DIV, 1, 4, .rs, false, 0x0000000A, 0x000000FF⟩,
   ⟨Reg.PCV.CH_CFG, 16, 4, .rs, false, 0x00000200, 0x00007FFF⟩,
   ⟨Reg.PCV.CH_OSR, 16, 4, .rs, false, 0x00001900, 0x000FFFFF⟩,
   ⟨Reg.PCV.RESULT, 16, 4, .ro, false, 0x00000000, 0xFFFFFFFF⟩,
   ⟨Reg.PCV.OPEN, 1, 4, .ro, false, 0x00000000, 0xFFFFFFFF⟩,
   ⟨Reg.PCV.OVER, 1, 4, .ro, false, 0x00000000, 0xFFFFFFFF⟩,
   ⟨Reg.PCV.SCAN_T, 1, 4, .ro, false, 0x00000000, 0xFFFFFFFF⟩,
   ⟨Reg.PCV.SCAN_CNT, 1, 4, .ro, false, 0x00000000, 0xFFFFFFFF⟩,
   ⟨Reg.PCV.OFS_CAL, 8, 4, .ro, false, 0x00000000, 0xFFFFFFFF⟩,
   ⟨Reg.PCV.GAIN_CAL, 8, 4, .ro, false, 0x00400000, 0xFFFFFFFF⟩]

/-! Offsets of `LE` (Table 11-9, R327). -/
/-- `LE.CFG`. -/
abbrev Reg.LE.CFG : Nat := 0x040
/-- `LE.PRG_SLOT`. -/
abbrev Reg.LE.PRG_SLOT : Nat := 0x044
/-- `LE.LOAD_SRC_LO`. -/
abbrev Reg.LE.LOAD_SRC_LO : Nat := 0x048
/-- `LE.LOAD_SRC_HI`. -/
abbrev Reg.LE.LOAD_SRC_HI : Nat := 0x04C
/-- `LE.BENCH_CTRL`. -/
abbrev Reg.LE.BENCH_CTRL : Nat := 0x060
/-- `LE.BENCH_PERIOD`. -/
abbrev Reg.LE.BENCH_PERIOD : Nat := 0x064
/-- `LE.BENCH_PHASE`. -/
abbrev Reg.LE.BENCH_PHASE : Nat := 0x068
/-- `LE.BENCH_BUDGET`. -/
abbrev Reg.LE.BENCH_BUDGET : Nat := 0x06C
/-- `LE.STAT`. -/
abbrev Reg.LE.STAT : Nat := 0x100
/-- `LE.WDOG_INFO`. -/
abbrev Reg.LE.WDOG_INFO : Nat := 0x104
/-- `LE.LOAD_ERR`. -/
abbrev Reg.LE.LOAD_ERR : Nat := 0x108
/-- `LE.INST_KEPT`. -/
abbrev Reg.LE.INST_KEPT : Nat := 0x10C
/-- `LE.INST_NEW`. -/
abbrev Reg.LE.INST_NEW : Nat := 0x110
/-- `LE.INST_REPLACED`. -/
abbrev Reg.LE.INST_REPLACED : Nat := 0x114
/-- `LE.INST_REMOVED`. -/
abbrev Reg.LE.INST_REMOVED : Nat := 0x118
/-- `LE.POOL_PRG`. -/
abbrev Reg.LE.POOL_PRG : Nat := 0x11C
/-- `LE.POOL_INST`. -/
abbrev Reg.LE.POOL_INST : Nat := 0x120
/-- `LE.INST_TOTAL`. -/
abbrev Reg.LE.INST_TOTAL : Nat := 0x124
/-- `LE.B_CNT`. -/
abbrev Reg.LE.B_CNT : Nat := 0x140
/-- `LE.B_LAST`. -/
abbrev Reg.LE.B_LAST : Nat := 0x144
/-- `LE.B_MAX`. -/
abbrev Reg.LE.B_MAX : Nat := 0x148
/-- `LE.B_BOUND`. -/
abbrev Reg.LE.B_BOUND : Nat := 0x14C
/-- `LE.COST`. -/
abbrev Reg.LE.COST : Nat := 0x180

/-- The register map of `LE` (Table 11-9). -/
def regsLE : List RegRow :=
  [⟨Reg.LE.CFG, 1, 4, .rs, false, 0x00000000, 0x0000001F⟩,
   ⟨Reg.LE.PRG_SLOT, 1, 4, .rs, false, 0x00000000, 0x00000001⟩,
   ⟨Reg.LE.LOAD_SRC_LO, 1, 4, .rw, false, 0x00000000, 0xFFFFFFFF⟩,
   ⟨Reg.LE.LOAD_SRC_HI, 1, 4, .rw, false, 0x00000000, 0xFFFFFFFF⟩,
   ⟨Reg.LE.BENCH_CTRL, 4, 16, .rs, false, 0x00000000, 0x00000001⟩,
   ⟨Reg.LE.BENCH_PERIOD, 4, 16, .rs, false, 0x000003E8, 0xFFFFFFFF⟩,
   ⟨Reg.LE.BENCH_PHASE, 4, 16, .rs, false, 0x00000000, 0xFFFFFFFF⟩,
   ⟨Reg.LE.BENCH_BUDGET, 4, 16, .rs, false, 0x0000005A, 0x0000007F⟩,
   ⟨Reg.LE.STAT, 1, 4, .ro, false, 0x00000000, 0x000007FF⟩,
   ⟨Reg.LE.WDOG_INFO, 1, 4, .ro, false, 0x00000000, 0xFFFF0033⟩,
   ⟨Reg.LE.LOAD_ERR, 1, 4, .ro, false, 0x00000000, 0x0FFFFFFF⟩,
   ⟨Reg.LE.INST_KEPT, 1, 4, .ro, false, 0x00000000, 0xFFFFFFFF⟩,
   ⟨Reg.LE.INST_NEW, 1, 4, .ro, false, 0x00000000, 0xFFFFFFFF⟩,
   ⟨Reg.LE.INST_REPLACED, 1, 4, .ro, false, 0x00000000, 0xFFFFFFFF⟩,
   ⟨Reg.LE.INST_REMOVED, 1, 4, .ro, false, 0x00000000, 0xFFFFFFFF⟩,
   ⟨Reg.LE.POOL_PRG, 1, 4, .ro, false, 0x00100000, 0xFFFFFFFF⟩,
   ⟨Reg.LE.POOL_INST, 1, 4, .ro, false, 0x00400000, 0xFFFFFFFF⟩,
   ⟨Reg.LE.INST_TOTAL, 1, 4, .ro, false, 0x00000000, 0xFFFFFFFF⟩,
   ⟨Reg.LE.B_CNT, 4, 16, .ro, false, 0x00000000, 0xFFFFFFFF⟩,
   ⟨Reg.LE.B_LAST, 4, 16, .ro, false, 0x00000000, 0xFFFFFFFF⟩] ++
  [⟨Reg.LE.B_MAX, 4, 16, .ro, false, 0x00000000, 0xFFFFFFFF⟩,
   ⟨Reg.LE.B_BOUND, 4, 16, .ro, false, 0x00000000, 0xFFFFFFFF⟩,
   ⟨Reg.LE.COST, 8, 4, .ro, false, 0x00000000, 0xFFFFFFFF⟩]

/-! Offsets of `RSEQ` (Table 12-7, R349). -/
/-- `RSEQ.CFG`. -/
abbrev Reg.RSEQ.CFG : Nat := 0x040
/-- `RSEQ.BANK_SEL`. -/
abbrev Reg.RSEQ.BANK_SEL : Nat := 0x044
/-- `RSEQ.LOAD_SRC_LO`. -/
abbrev Reg.RSEQ.LOAD_SRC_LO : Nat := 0x048
/-- `RSEQ.LOAD_SRC_HI`. -/
abbrev Reg.RSEQ.LOAD_SRC_HI : Nat := 0x04C
/-- `RSEQ.STAT`. -/
abbrev Reg.RSEQ.STAT : Nat := 0x100
/-- `RSEQ.STEP_NOW`. -/
abbrev Reg.RSEQ.STEP_NOW : Nat := 0x104
/-- `RSEQ.STEP_ELAPSED`. -/
abbrev Reg.RSEQ.STEP_ELAPSED : Nat := 0x108
/-- `RSEQ.HOLD_FROM`. -/
abbrev Reg.RSEQ.HOLD_FROM : Nat := 0x10C
/-- `RSEQ.BANK_STAT`. -/
abbrev Reg.RSEQ.BANK_STAT : Nat := 0x110
/-- `RSEQ.BANK_ID`. -/
abbrev Reg.RSEQ.BANK_ID : Nat := 0x118
/-- `RSEQ.BANK_CRC`. -/
abbrev Reg.RSEQ.BANK_CRC : Nat := 0x120
/-- `RSEQ.LOAD_ERR`. -/
abbrev Reg.RSEQ.LOAD_ERR : Nat := 0x128
/-- `RSEQ.STEP_CNT`. -/
abbrev Reg.RSEQ.STEP_CNT : Nat := 0x12C
/-- `RSEQ.JOB_CNT`. -/
abbrev Reg.RSEQ.JOB_CNT : Nat := 0x130
/-- `RSEQ.TLOG_COUNT`. -/
abbrev Reg.RSEQ.TLOG_COUNT : Nat := 0x140
/-- `RSEQ.TLOG_OVF`. -/
abbrev Reg.RSEQ.TLOG_OVF : Nat := 0x144
/-- `RSEQ.TLOG_ENT`. -/
abbrev Reg.RSEQ.TLOG_ENT : Nat := 0x148
/-- `RSEQ.TLOG_TS_LO`. -/
abbrev Reg.RSEQ.TLOG_TS_LO : Nat := 0x14C
/-- `RSEQ.TLOG_TS_HI`. -/
abbrev Reg.RSEQ.TLOG_TS_HI : Nat := 0x150

/-- The register map of `RSEQ` (Table 12-7). -/
def regsRSEQ : List RegRow :=
  [⟨Reg.RSEQ.CFG, 1, 4, .rs, false, 0x0000000A, 0x00001F0F⟩,
   ⟨Reg.RSEQ.BANK_SEL, 1, 4, .rs, false, 0x00000000, 0x00000101⟩,
   ⟨Reg.RSEQ.LOAD_SRC_LO, 1, 4, .rw, false, 0x00000000, 0xFFFFFFFF⟩,
   ⟨Reg.RSEQ.LOAD_SRC_HI, 1, 4, .rw, false, 0x00000000, 0xFFFFFFFF⟩,
   ⟨Reg.RSEQ.STAT, 1, 4, .ro, false, 0x00000000, 0x00007F1F⟩,
   ⟨Reg.RSEQ.STEP_NOW, 1, 4, .ro, false, 0x00000000, 0x0000EFFF⟩,
   ⟨Reg.RSEQ.STEP_ELAPSED, 1, 4, .ro, false, 0x00000000, 0xFFFFFFFF⟩,
   ⟨Reg.RSEQ.HOLD_FROM, 1, 4, .ro, false, 0x00000000, 0xFFFFFFFF⟩,
   ⟨Reg.RSEQ.BANK_STAT, 2, 4, .ro, false, 0x00000000, 0xFFFFFFFF⟩,
   ⟨Reg.RSEQ.BANK_ID, 2, 4, .ro, false, 0x00000000, 0xFFFFFFFF⟩,
   ⟨Reg.RSEQ.BANK_CRC, 2, 4, .ro, false, 0x00000000, 0xFFFFFFFF⟩,
   ⟨Reg.RSEQ.LOAD_ERR, 1, 4, .ro, false, 0x00000000, 0x0FFFFFFF⟩,
   ⟨Reg.RSEQ.STEP_CNT, 1, 4, .ro, false, 0x00000000, 0xFFFFFFFF⟩,
   ⟨Reg.RSEQ.JOB_CNT, 1, 4, .ro, false, 0x00000000, 0xFFFFFFFF⟩,
   ⟨Reg.RSEQ.TLOG_COUNT, 1, 4, .ro, false, 0x00000000, 0xFFFFFFFF⟩,
   ⟨Reg.RSEQ.TLOG_OVF, 1, 4, .ro, false, 0x00000000, 0xFFFFFFFF⟩,
   ⟨Reg.RSEQ.TLOG_ENT, 1, 4, .ro, false, 0x00000000, 0xFFFFFFFF⟩,
   ⟨Reg.RSEQ.TLOG_TS_LO, 1, 4, .ro, false, 0x00000000, 0xFFFFFFFF⟩,
   ⟨Reg.RSEQ.TLOG_TS_HI, 1, 4, .ro, false, 0x00000000, 0xFFFFFFFF⟩]

/-! Offsets of `FRC` (Table 11-11, R332). -/
/-- `FRC.ENTRY_ID`. -/
abbrev Reg.FRC.ENTRY_ID : Nat := 0x040
/-- `FRC.ENTRY_CTRL`. -/
abbrev Reg.FRC.ENTRY_CTRL : Nat := 0x044
/-- `FRC.ENTRY_VAL_LO`. -/
abbrev Reg.FRC.ENTRY_VAL_LO : Nat := 0x048
/-- `FRC.ENTRY_VAL_HI`. -/
abbrev Reg.FRC.ENTRY_VAL_HI : Nat := 0x04C
/-- `FRC.STAT`. -/
abbrev Reg.FRC.STAT : Nat := 0x100
/-- `FRC.LAST_ENTRY`. -/
abbrev Reg.FRC.LAST_ENTRY : Nat := 0x104
/-- `FRC.SET_CNT`. -/
abbrev Reg.FRC.SET_CNT : Nat := 0x108
/-- `FRC.ENT_ID`. -/
abbrev Reg.FRC.ENT_ID : Nat := 0x400
/-- `FRC.ENT_LO`. -/
abbrev Reg.FRC.ENT_LO : Nat := 0x800
/-- `FRC.ENT_HI`. -/
abbrev Reg.FRC.ENT_HI : Nat := 0xC00

/-- The register map of `FRC` (Table 11-11). -/
def regsFRC : List RegRow :=
  [⟨Reg.FRC.ENTRY_ID, 1, 4, .rs, false, 0x00000000, 0x0000FFFF⟩,
   ⟨Reg.FRC.ENTRY_CTRL, 1, 4, .rs, false, 0x00000000, 0x00000003⟩,
   ⟨Reg.FRC.ENTRY_VAL_LO, 1, 4, .rs, false, 0x00000000, 0xFFFFFFFF⟩,
   ⟨Reg.FRC.ENTRY_VAL_HI, 1, 4, .rs, false, 0x00000000, 0xFFFFFFFF⟩,
   ⟨Reg.FRC.STAT, 1, 4, .ro, false, 0x00000000, 0xFFFFFFFF⟩,
   ⟨Reg.FRC.LAST_ENTRY, 1, 4, .ro, false, 0x00000000, 0xFFFFFFFF⟩,
   ⟨Reg.FRC.SET_CNT, 1, 4, .ro, false, 0x00000000, 0xFFFFFFFF⟩,
   ⟨Reg.FRC.ENT_ID, 256, 4, .ro, false, 0x00000000, 0xFFFFFFFF⟩,
   ⟨Reg.FRC.ENT_LO, 256, 4, .ro, false, 0x00000000, 0xFFFFFFFF⟩,
   ⟨Reg.FRC.ENT_HI, 256, 4, .ro, false, 0x00000000, 0xFFFFFFFF⟩]

/-! Offsets of `SIG` (Table 13-1, R354). -/
/-- `SIG.ENT_ID`. -/
abbrev Reg.SIG.ENT_ID : Nat := 0x040
/-- `SIG.ENT_W`. -/
abbrev Reg.SIG.ENT_W : Nat := 0x044
/-- `SIG.LOAD_SRC_LO`. -/
abbrev Reg.SIG.LOAD_SRC_LO : Nat := 0x060
/-- `SIG.LOAD_SRC_HI`. -/
abbrev Reg.SIG.LOAD_SRC_HI : Nat := 0x064
/-- `SIG.LOAD_FIRST`. -/
abbrev Reg.SIG.LOAD_FIRST : Nat := 0x068
/-- `SIG.LOAD_N`. -/
abbrev Reg.SIG.LOAD_N : Nat := 0x06C
/-- `SIG.LOAD_CRC`. -/
abbrev Reg.SIG.LOAD_CRC : Nat := 0x070
/-- `SIG.EN_CNT`. -/
abbrev Reg.SIG.EN_CNT : Nat := 0x100
/-- `SIG.HIST_CNT`. -/
abbrev Reg.SIG.HIST_CNT : Nat := 0x104
/-- `SIG.LOAD_ERR`. -/
abbrev Reg.SIG.LOAD_ERR : Nat := 0x108
/-- `SIG.CHG_CNT`. -/
abbrev Reg.SIG.CHG_CNT : Nat := 0x10C

/-- The register map of `SIG` (Table 13-1). -/
def regsSIG : List RegRow :=
  [⟨Reg.SIG.ENT_ID, 1, 4, .rw, false, 0x00000000, 0x0000FFFF⟩,
   ⟨Reg.SIG.ENT_W, 4, 4, .rs, false, 0x00000000, 0xFFFFFFFF⟩,
   ⟨Reg.SIG.LOAD_SRC_LO, 1, 4, .rw, false, 0x00000000, 0xFFFFFFFF⟩,
   ⟨Reg.SIG.LOAD_SRC_HI, 1, 4, .rw, false, 0x00000000, 0xFFFFFFFF⟩,
   ⟨Reg.SIG.LOAD_FIRST, 1, 4, .rw, false, 0x00000001, 0x0000FFFF⟩,
   ⟨Reg.SIG.LOAD_N, 1, 4, .rw, false, 0x00000001, 0x0001FFFF⟩,
   ⟨Reg.SIG.LOAD_CRC, 1, 4, .rw, false, 0x00000000, 0xFFFFFFFF⟩,
   ⟨Reg.SIG.EN_CNT, 1, 4, .ro, false, 0x00000000, 0xFFFFFFFF⟩,
   ⟨Reg.SIG.HIST_CNT, 1, 4, .ro, false, 0x00000000, 0xFFFFFFFF⟩,
   ⟨Reg.SIG.LOAD_ERR, 1, 4, .ro, false, 0x00000000, 0xFFFFFFFF⟩,
   ⟨Reg.SIG.CHG_CNT, 1, 4, .ro, false, 0x00000000, 0xFFFFFFFF⟩]

/-! Offsets of `ACQ` (Table 13-8, R373). -/
/-- `ACQ.CFG`. -/
abbrev Reg.ACQ.CFG : Nat := 0x040
/-- `ACQ.PERIOD`. -/
abbrev Reg.ACQ.PERIOD : Nat := 0x044
/-- `ACQ.MIN_T`. -/
abbrev Reg.ACQ.MIN_T : Nat := 0x048
/-- `ACQ.PRE`. -/
abbrev Reg.ACQ.PRE : Nat := 0x04C
/-- `ACQ.POST`. -/
abbrev Reg.ACQ.POST : Nat := 0x050
/-- `ACQ.TRIG`. -/
abbrev Reg.ACQ.TRIG : Nat := 0x054
/-- `ACQ.TRIG_LVL`. -/
abbrev Reg.ACQ.TRIG_LVL : Nat := 0x058
/-- `ACQ.TRIG_LVL2`. -/
abbrev Reg.ACQ.TRIG_LVL2 : Nat := 0x05C
/-- `ACQ.TRIG_MASK`. -/
abbrev Reg.ACQ.TRIG_MASK : Nat := 0x060
/-- `ACQ.TRIG_PAT`. -/
abbrev Reg.ACQ.TRIG_PAT : Nat := 0x064
/-- `ACQ.SRC`. -/
abbrev Reg.ACQ.SRC : Nat := 0x080
/-- `ACQ.LINE`. -/
abbrev Reg.ACQ.LINE : Nat := 0x0C0
/-- `ACQ.STAT`. -/
abbrev Reg.ACQ.STAT : Nat := 0x200
/-- `ACQ.REC_SEQ`. -/
abbrev Reg.ACQ.REC_SEQ : Nat := 0x204
/-- `ACQ.LAST_REC_LO`. -/
abbrev Reg.ACQ.LAST_REC_LO : Nat := 0x208
/-- `ACQ.LAST_REC_HI`. -/
abbrev Reg.ACQ.LAST_REC_HI : Nat := 0x20C
/-- `ACQ.ALLOC_LEN`. -/
abbrev Reg.ACQ.ALLOC_LEN : Nat := 0x210
/-- `ACQ.REC_SLOTS`. -/
abbrev Reg.ACQ.REC_SLOTS : Nat := 0x214
/-- `ACQ.BW_CLAIM`. -/
abbrev Reg.ACQ.BW_CLAIM : Nat := 0x218
/-- `ACQ.TRIG_IGNORED`. -/
abbrev Reg.ACQ.TRIG_IGNORED : Nat := 0x21C
/-- `ACQ.EVT_SKIP`. -/
abbrev Reg.ACQ.EVT_SKIP : Nat := 0x220
/-- `ACQ.GAP_CNT`. -/
abbrev Reg.ACQ.GAP_CNT : Nat := 0x224
/-- `ACQ.TRIG_TIME_LO`. -/
abbrev Reg.ACQ.TRIG_TIME_LO : Nat := 0x228
/-- `ACQ.TRIG_TIME_HI`. -/
abbrev Reg.ACQ.TRIG_TIME_HI : Nat := 0x22C

/-- The register map of `ACQ` (Table 13-8). -/
def regsACQ : List RegRow :=
  [⟨Reg.ACQ.CFG, 1, 4, .rs, false, 0x00000000, 0x00000F1F⟩,
   ⟨Reg.ACQ.PERIOD, 1, 4, .rs, false, 0x00000014, 0xFFFFFFFF⟩,
   ⟨Reg.ACQ.MIN_T, 1, 4, .rs, false, 0x00000014, 0xFFFFFFFF⟩,
   ⟨Reg.ACQ.PRE, 1, 4, .rs, false, 0x00000000, 0x1FFFFFFF⟩,
   ⟨Reg.ACQ.POST, 1, 4, .rs, false, 0x00000001, 0x1FFFFFFF⟩,
   ⟨Reg.ACQ.TRIG, 1, 4, .rs, false, 0x00000000, 0x0F7F7F37⟩,
   ⟨Reg.ACQ.TRIG_LVL, 1, 4, .rs, false, 0x00000000, 0xFFFFFFFF⟩,
   ⟨Reg.ACQ.TRIG_LVL2, 1, 4, .rs, false, 0x00000000, 0xFFFFFFFF⟩,
   ⟨Reg.ACQ.TRIG_MASK, 1, 4, .rs, false, 0x00000000, 0xFFFFFFFF⟩,
   ⟨Reg.ACQ.TRIG_PAT, 1, 4, .rs, false, 0x00000000, 0xFFFFFFFF⟩,
   ⟨Reg.ACQ.SRC, 16, 4, .rs, false, 0x00000000, 0xFFFF01FF⟩,
   ⟨Reg.ACQ.LINE, 32, 4, .rs, false, 0x00000000, 0x00000FFF⟩,
   ⟨Reg.ACQ.STAT, 1, 4, .ro, false, 0x00000000, 0x00000003⟩,
   ⟨Reg.ACQ.REC_SEQ, 1, 4, .ro, false, 0x00000000, 0xFFFFFFFF⟩,
   ⟨Reg.ACQ.LAST_REC_LO, 1, 4, .ro, false, 0x00000000, 0xFFFFFFFF⟩,
   ⟨Reg.ACQ.LAST_REC_HI, 1, 4, .ro, false, 0x00000000, 0xFFFFFFFF⟩,
   ⟨Reg.ACQ.ALLOC_LEN, 1, 4, .ro, false, 0x00000000, 0xFFFFFFFF⟩,
   ⟨Reg.ACQ.REC_SLOTS, 1, 4, .ro, false, 0x00000000, 0xFFFFFFFF⟩,
   ⟨Reg.ACQ.BW_CLAIM, 1, 4, .ro, false, 0x00000000, 0xFFFFFFFF⟩,
   ⟨Reg.ACQ.TRIG_IGNORED, 1, 4, .ro, false, 0x00000000, 0xFFFFFFFF⟩] ++
  [⟨Reg.ACQ.EVT_SKIP, 1, 4, .ro, false, 0x00000000, 0xFFFFFFFF⟩,
   ⟨Reg.ACQ.GAP_CNT, 1, 4, .ro, false, 0x00000000, 0xFFFFFFFF⟩,
   ⟨Reg.ACQ.TRIG_TIME_LO, 1, 4, .ro, false, 0x00000000, 0xFFFFFFFF⟩,
   ⟨Reg.ACQ.TRIG_TIME_HI, 1, 4, .ro, false, 0x00000000, 0xFFFFFFFF⟩]

/-! Offsets of `REC` (Table 13-10, R373). -/
/-- `REC.CFG`. -/
abbrev Reg.REC.CFG : Nat := 0x040
/-- `REC.HIST_BW`. -/
abbrev Reg.REC.HIST_BW : Nat := 0x044
/-- `REC.HIST_AREA`. -/
abbrev Reg.REC.HIST_AREA : Nat := 0x048
/-- `REC.REGION`. -/
abbrev Reg.REC.REGION : Nat := 0x050
/-- `REC.EXP_CTL`. -/
abbrev Reg.REC.EXP_CTL : Nat := 0x0A0
/-- `REC.EXP_SEQ`. -/
abbrev Reg.REC.EXP_SEQ : Nat := 0x0A4
/-- `REC.EXP_FROM_LO`. -/
abbrev Reg.REC.EXP_FROM_LO : Nat := 0x0A8
/-- `REC.EXP_FROM_HI`. -/
abbrev Reg.REC.EXP_FROM_HI : Nat := 0x0AC
/-- `REC.EXP_TO_LO`. -/
abbrev Reg.REC.EXP_TO_LO : Nat := 0x0B0
/-- `REC.EXP_TO_HI`. -/
abbrev Reg.REC.EXP_TO_HI : Nat := 0x0B4
/-- `REC.EXP_DST_LO`. -/
abbrev Reg.REC.EXP_DST_LO : Nat := 0x0B8
/-- `REC.EXP_DST_HI`. -/
abbrev Reg.REC.EXP_DST_HI : Nat := 0x0BC
/-- `REC.EXP_MAX`. -/
abbrev Reg.REC.EXP_MAX : Nat := 0x0C0
/-- `REC.STAT`. -/
abbrev Reg.REC.STAT : Nat := 0x100
/-- `REC.PART_SIZE`. -/
abbrev Reg.REC.PART_SIZE : Nat := 0x104
/-- `REC.BW_LIMIT`. -/
abbrev Reg.REC.BW_LIMIT : Nat := 0x108
/-- `REC.BW_USED`. -/
abbrev Reg.REC.BW_USED : Nat := 0x10C
/-- `REC.HIST_RATE`. -/
abbrev Reg.REC.HIST_RATE : Nat := 0x110
/-- `REC.HIST_PEAK`. -/
abbrev Reg.REC.HIST_PEAK : Nat := 0x114
/-- `REC.HIST_LOST`. -/
abbrev Reg.REC.HIST_LOST : Nat := 0x118
/-- `REC.WRAP_CNT_LO`. -/
abbrev Reg.REC.WRAP_CNT_LO : Nat := 0x11C
/-- `REC.WRAP_CNT_HI`. -/
abbrev Reg.REC.WRAP_CNT_HI : Nat := 0x120
/-- `REC.HIST_OLDEST_LO`. -/
abbrev Reg.REC.HIST_OLDEST_LO : Nat := 0x124
/-- `REC.HIST_OLDEST_HI`. -/
abbrev Reg.REC.HIST_OLDEST_HI : Nat := 0x128
/-- `REC.EXP_LEN_LO`. -/
abbrev Reg.REC.EXP_LEN_LO : Nat := 0x12C
/-- `REC.EXP_LEN_HI`. -/
abbrev Reg.REC.EXP_LEN_HI : Nat := 0x130
/-- `REC.EXP_UE`. -/
abbrev Reg.REC.EXP_UE : Nat := 0x134

/-- The register map of `REC` (Table 13-10). -/
def regsREC : List RegRow :=
  [⟨Reg.REC.CFG, 1, 4, .rs, false, 0x00000000, 0x00000001⟩,
   ⟨Reg.REC.HIST_BW, 1, 4, .rs, false, 0x00000400, 0xFFFFFFFF⟩,
   ⟨Reg.REC.HIST_AREA, 1, 4, .rs, false, 0x20000000, 0xFFFFFFFF⟩,
   ⟨Reg.REC.REGION, 16, 4, .rs, false, 0x00000000, 0xFFFFFFFF⟩,
   ⟨Reg.REC.EXP_CTL, 1, 4, .rw, false, 0x00000000, 0x000000F3⟩,
   ⟨Reg.REC.EXP_SEQ, 1, 4, .rw, false, 0x00000000, 0xFFFFFFFF⟩,
   ⟨Reg.REC.EXP_FROM_LO, 1, 4, .rw, false, 0x00000000, 0xFFFFFFFF⟩,
   ⟨Reg.REC.EXP_FROM_HI, 1, 4, .rw, false, 0x00000000, 0xFFFFFFFF⟩,
   ⟨Reg.REC.EXP_TO_LO, 1, 4, .rw, false, 0x00000000, 0xFFFFFFFF⟩,
   ⟨Reg.REC.EXP_TO_HI, 1, 4, .rw, false, 0x00000000, 0xFFFFFFFF⟩,
   ⟨Reg.REC.EXP_DST_LO, 1, 4, .rw, false, 0x00000000, 0xFFFFFFFF⟩,
   ⟨Reg.REC.EXP_DST_HI, 1, 4, .rw, false, 0x00000000, 0xFFFFFFFF⟩,
   ⟨Reg.REC.EXP_MAX, 1, 4, .rw, false, 0x00000000, 0xFFFFFFFF⟩,
   ⟨Reg.REC.STAT, 1, 4, .ro, false, 0x00000000, 0xFFFFFFFF⟩,
   ⟨Reg.REC.PART_SIZE, 1, 4, .ro, false, 0x00000000, 0xFFFFFFFF⟩,
   ⟨Reg.REC.BW_LIMIT, 1, 4, .ro, false, 0x00000000, 0xFFFFFFFF⟩,
   ⟨Reg.REC.BW_USED, 1, 4, .ro, false, 0x00000000, 0xFFFFFFFF⟩,
   ⟨Reg.REC.HIST_RATE, 1, 4, .ro, false, 0x00000000, 0xFFFFFFFF⟩,
   ⟨Reg.REC.HIST_PEAK, 1, 4, .ro, false, 0x00000000, 0xFFFFFFFF⟩,
   ⟨Reg.REC.HIST_LOST, 1, 4, .ro, false, 0x00000000, 0xFFFFFFFF⟩] ++
  [⟨Reg.REC.WRAP_CNT_LO, 1, 4, .ro, false, 0x00000000, 0xFFFFFFFF⟩,
   ⟨Reg.REC.WRAP_CNT_HI, 1, 4, .ro, false, 0x00000000, 0xFFFFFFFF⟩,
   ⟨Reg.REC.HIST_OLDEST_LO, 1, 4, .ro, false, 0x00000000, 0xFFFFFFFF⟩,
   ⟨Reg.REC.HIST_OLDEST_HI, 1, 4, .ro, false, 0x00000000, 0xFFFFFFFF⟩,
   ⟨Reg.REC.EXP_LEN_LO, 1, 4, .ro, false, 0x00000000, 0xFFFFFFFF⟩,
   ⟨Reg.REC.EXP_LEN_HI, 1, 4, .ro, false, 0x00000000, 0xFFFFFFFF⟩,
   ⟨Reg.REC.EXP_UE, 1, 4, .ro, false, 0x00000000, 0xFFFFFFFF⟩]

/-! Offsets of `ETH` (Table 16-15, R451). -/
/-- `ETH.CFG`. -/
abbrev Reg.ETH.CFG : Nat := 0x040
/-- `ETH.MAC_LO`. -/
abbrev Reg.ETH.MAC_LO : Nat := 0x044
/-- `ETH.MAC_HI`. -/
abbrev Reg.ETH.MAC_HI : Nat := 0x048
/-- `ETH.SW_CFG`. -/
abbrev Reg.ETH.SW_CFG : Nat := 0x04C
/-- `ETH.QMAP`. -/
abbrev Reg.ETH.QMAP : Nat := 0x050
/-- `ETH.TXR_LO`. -/
abbrev Reg.ETH.TXR_LO : Nat := 0x060
/-- `ETH.TXR_HI`. -/
abbrev Reg.ETH.TXR_HI : Nat := 0x064
/-- `ETH.TXR_SIZE`. -/
abbrev Reg.ETH.TXR_SIZE : Nat := 0x068
/-- `ETH.TXR_TAIL`. -/
abbrev Reg.ETH.TXR_TAIL : Nat := 0x06C
/-- `ETH.TXR_HEAD`. -/
abbrev Reg.ETH.TXR_HEAD : Nat := 0x070
/-- `ETH.RXR_LO`. -/
abbrev Reg.ETH.RXR_LO : Nat := 0x074
/-- `ETH.RXR_HI`. -/
abbrev Reg.ETH.RXR_HI : Nat := 0x078
/-- `ETH.RXR_SIZE`. -/
abbrev Reg.ETH.RXR_SIZE : Nat := 0x07C
/-- `ETH.RXR_TAIL`. -/
abbrev Reg.ETH.RXR_TAIL : Nat := 0x080
/-- `ETH.RXR_HEAD`. -/
abbrev Reg.ETH.RXR_HEAD : Nat := 0x084
/-- `ETH.STAT`. -/
abbrev Reg.ETH.STAT : Nat := 0x100
/-- `ETH.RX_FRAMES`. -/
abbrev Reg.ETH.RX_FRAMES : Nat := 0x104
/-- `ETH.RX_DROP`. -/
abbrev Reg.ETH.RX_DROP : Nat := 0x108
/-- `ETH.RX_FCS`. -/
abbrev Reg.ETH.RX_FCS : Nat := 0x10C
/-- `ETH.TX_FRAMES`. -/
abbrev Reg.ETH.TX_FRAMES : Nat := 0x110
/-- `ETH.MDIO`. -/
abbrev Reg.ETH.MDIO : Nat := 0x120

/-- The register map of `ETH` (Table 16-15). -/
def regsETH : List RegRow :=
  [⟨Reg.ETH.CFG, 1, 4, .rs, false, 0x00000004, 0x0000001F⟩,
   ⟨Reg.ETH.MAC_LO, 1, 4, .rs, false, 0x00000000, 0xFFFFFFFF⟩,
   ⟨Reg.ETH.MAC_HI, 1, 4, .rs, false, 0x00000000, 0x0000FFFF⟩,
   ⟨Reg.ETH.SW_CFG, 1, 4, .rs, false, 0x012C0002, 0xFFFF0003⟩,
   ⟨Reg.ETH.QMAP, 1, 4, .rs, false, 0x0000FA50, 0x0000FFFF⟩,
   ⟨Reg.ETH.TXR_LO, 1, 4, .rw, false, 0x00000000, 0xFFFFFFFF⟩,
   ⟨Reg.ETH.TXR_HI, 1, 4, .rw, false, 0x00000000, 0xFFFFFFFF⟩,
   ⟨Reg.ETH.TXR_SIZE, 1, 4, .rw, false, 0x00000000, 0x00001FFF⟩,
   ⟨Reg.ETH.TXR_TAIL, 1, 4, .rw, false, 0x00000000, 0x00000FFF⟩,
   ⟨Reg.ETH.TXR_HEAD, 1, 4, .ro, false, 0x00000000, 0xFFFFFFFF⟩,
   ⟨Reg.ETH.RXR_LO, 1, 4, .rw, false, 0x00000000, 0xFFFFFFFF⟩,
   ⟨Reg.ETH.RXR_HI, 1, 4, .rw, false, 0x00000000, 0xFFFFFFFF⟩,
   ⟨Reg.ETH.RXR_SIZE, 1, 4, .rw, false, 0x00000000, 0x00001FFF⟩,
   ⟨Reg.ETH.RXR_TAIL, 1, 4, .rw, false, 0x00000000, 0x00000FFF⟩,
   ⟨Reg.ETH.RXR_HEAD, 1, 4, .ro, false, 0x00000000, 0xFFFFFFFF⟩,
   ⟨Reg.ETH.STAT, 1, 4, .ro, false, 0x00000000, 0xFFFFFFFF⟩,
   ⟨Reg.ETH.RX_FRAMES, 1, 4, .ro, false, 0x00000000, 0xFFFFFFFF⟩,
   ⟨Reg.ETH.RX_DROP, 1, 4, .ro, false, 0x00000000, 0xFFFFFFFF⟩,
   ⟨Reg.ETH.RX_FCS, 1, 4, .ro, false, 0x00000000, 0xFFFFFFFF⟩,
   ⟨Reg.ETH.TX_FRAMES, 1, 4, .ro, false, 0x00000000, 0xFFFFFFFF⟩] ++
  [⟨Reg.ETH.MDIO, 1, 4, .rw, false, 0x00000000, 0xFFFF1FFF⟩]

/-! Offsets of `PTP` (Table 14-6, R401). -/
/-- `PTP.CFG`. -/
abbrev Reg.PTP.CFG : Nat := 0x040
/-- `PTP.PORT_CFG`. -/
abbrev Reg.PTP.PORT_CFG : Nat := 0x044
/-- `PTP.RX_CORR`. -/
abbrev Reg.PTP.RX_CORR : Nat := 0x050
/-- `PTP.TX_CORR`. -/
abbrev Reg.PTP.TX_CORR : Nat := 0x060
/-- `PTP.LINK_DELAY`. -/
abbrev Reg.PTP.LINK_DELAY : Nat := 0x070
/-- `PTP.STAT`. -/
abbrev Reg.PTP.STAT : Nat := 0x100
/-- `PTP.TXQ_KEY`. -/
abbrev Reg.PTP.TXQ_KEY : Nat := 0x110
/-- `PTP.TXQ_TS_LO`. -/
abbrev Reg.PTP.TXQ_TS_LO : Nat := 0x114
/-- `PTP.TXQ_TS_HI`. -/
abbrev Reg.PTP.TXQ_TS_HI : Nat := 0x118
/-- `PTP.TXQ_LOST`. -/
abbrev Reg.PTP.TXQ_LOST : Nat := 0x11C

/-- The register map of `PTP` (Table 14-6). -/
def regsPTP : List RegRow :=
  [⟨Reg.PTP.CFG, 1, 4, .rs, false, 0x00000000, 0x00000003⟩,
   ⟨Reg.PTP.PORT_CFG, 3, 4, .rs, false, 0x00000000, 0x0000000F⟩,
   ⟨Reg.PTP.RX_CORR, 3, 4, .rs, false, 0x00000000, 0xFFFFFFFF⟩,
   ⟨Reg.PTP.TX_CORR, 3, 4, .rs, false, 0x00000000, 0xFFFFFFFF⟩,
   ⟨Reg.PTP.LINK_DELAY, 2, 4, .rs, false, 0x00000000, 0xFFFFFFFF⟩,
   ⟨Reg.PTP.STAT, 1, 4, .ro, false, 0x00000000, 0xFFFFFFFF⟩,
   ⟨Reg.PTP.TXQ_KEY, 3, 16, .ro, false, 0x00000000, 0xFFFFFFFF⟩,
   ⟨Reg.PTP.TXQ_TS_LO, 3, 16, .ro, false, 0x00000000, 0xFFFFFFFF⟩,
   ⟨Reg.PTP.TXQ_TS_HI, 3, 16, .ro, false, 0x00000000, 0xFFFFFFFF⟩,
   ⟨Reg.PTP.TXQ_LOST, 3, 16, .ro, false, 0x00000000, 0xFFFFFFFF⟩]

/-! Offsets of `CAN` (Table 17-3, R471). -/
/-- `CAN.CFG`. -/
abbrev Reg.CAN.CFG : Nat := 0x040
/-- `CAN.NBT`. -/
abbrev Reg.CAN.NBT : Nat := 0x044
/-- `CAN.DBT`. -/
abbrev Reg.CAN.DBT : Nat := 0x048
/-- `CAN.TDC`. -/
abbrev Reg.CAN.TDC : Nat := 0x04C
/-- `CAN.RETRY`. -/
abbrev Reg.CAN.RETRY : Nat := 0x050
/-- `CAN.TIMEREF`. -/
abbrev Reg.CAN.TIMEREF : Nat := 0x054
/-- `CAN.REF_PERIOD`. -/
abbrev Reg.CAN.REF_PERIOD : Nat := 0x058
/-- `CAN.TX_REQ`. -/
abbrev Reg.CAN.TX_REQ : Nat := 0x060
/-- `CAN.TX_CANCEL`. -/
abbrev Reg.CAN.TX_CANCEL : Nat := 0x070
/-- `CAN.TX_PEND`. -/
abbrev Reg.CAN.TX_PEND : Nat := 0x080
/-- `CAN.TX_DONE`. -/
abbrev Reg.CAN.TX_DONE : Nat := 0x090
/-- `CAN.TX_ABANDON`. -/
abbrev Reg.CAN.TX_ABANDON : Nat := 0x0A0
/-- `CAN.RX_FULL`. -/
abbrev Reg.CAN.RX_FULL : Nat := 0x0B0
/-- `CAN.RX_STALE`. -/
abbrev Reg.CAN.RX_STALE : Nat := 0x0C0
/-- `CAN.ECR`. -/
abbrev Reg.CAN.ECR : Nat := 0x0D0
/-- `CAN.STAT`. -/
abbrev Reg.CAN.STAT : Nat := 0x0D4
/-- `CAN.TDC_MEAS`. -/
abbrev Reg.CAN.TDC_MEAS : Nat := 0x0D8
/-- `CAN.RX_LOST`. -/
abbrev Reg.CAN.RX_LOST : Nat := 0x0DC
/-- `CAN.REF_MISS`. -/
abbrev Reg.CAN.REF_MISS : Nat := 0x0E0
/-- `CAN.ERR_CNT`. -/
abbrev Reg.CAN.ERR_CNT : Nat := 0x0E4
/-- `CAN.OBJ_IDX`. -/
abbrev Reg.CAN.OBJ_IDX : Nat := 0x0F0
/-- `CAN.OBJ_HDR`. -/
abbrev Reg.CAN.OBJ_HDR : Nat := 0x0F4
/-- `CAN.OBJ_TS_LO`. -/
abbrev Reg.CAN.OBJ_TS_LO : Nat := 0x0F8
/-- `CAN.OBJ_TS_HI`. -/
abbrev Reg.CAN.OBJ_TS_HI : Nat := 0x0FC
/-- `CAN.OBJ_DATA`. -/
abbrev Reg.CAN.OBJ_DATA : Nat := 0x100
/-- `CAN.OBJ_INFO`. -/
abbrev Reg.CAN.OBJ_INFO : Nat := 0x140
/-- `CAN.MAP`. -/
abbrev Reg.CAN.MAP : Nat := 0x200
/-- `CAN.OBJ_CFG`. -/
abbrev Reg.CAN.OBJ_CFG : Nat := 0x400
/-- `CAN.FILT_ID`. -/
abbrev Reg.CAN.FILT_ID : Nat := 0x600
/-- `CAN.FILT_MASK`. -/
abbrev Reg.CAN.FILT_MASK : Nat := 0x800

/-- The register map of `CAN` (Table 17-3). -/
def regsCAN : List RegRow :=
  [⟨Reg.CAN.CFG, 1, 4, .rs, false, 0x00000000, 0x00001F07⟩,
   ⟨Reg.CAN.NBT, 1, 4, .rs, false, 0x1F1F7E00, 0x7F7FFF1F⟩,
   ⟨Reg.CAN.DBT, 1, 4, .rs, false, 0x01010600, 0x0F0F1F1F⟩,
   ⟨Reg.CAN.TDC, 1, 4, .rs, false, 0x00000800, 0x00007F01⟩,
   ⟨Reg.CAN.RETRY, 1, 4, .rs, false, 0x00001010, 0x00001F1F⟩,
   ⟨Reg.CAN.TIMEREF, 1, 4, .rs, false, 0x00000000, 0x00007F01⟩,
   ⟨Reg.CAN.REF_PERIOD, 1, 4, .rs, false, 0x000003E8, 0xFFFFFFFF⟩,
   ⟨Reg.CAN.TX_REQ, 4, 4, .wo, false, 0x00000000, 0xFFFFFFFF⟩,
   ⟨Reg.CAN.TX_CANCEL, 4, 4, .wo, false, 0x00000000, 0xFFFFFFFF⟩,
   ⟨Reg.CAN.TX_PEND, 4, 4, .ro, false, 0x00000000, 0xFFFFFFFF⟩,
   ⟨Reg.CAN.TX_DONE, 4, 4, .w1c, false, 0x00000000, 0xFFFFFFFF⟩,
   ⟨Reg.CAN.TX_ABANDON, 4, 4, .w1c, false, 0x00000000, 0xFFFFFFFF⟩,
   ⟨Reg.CAN.RX_FULL, 4, 4, .w1c, false, 0x00000000, 0xFFFFFFFF⟩,
   ⟨Reg.CAN.RX_STALE, 4, 4, .ro, false, 0x00000000, 0xFFFFFFFF⟩,
   ⟨Reg.CAN.ECR, 1, 4, .ro, false, 0x00000000, 0x00737FFF⟩,
   ⟨Reg.CAN.STAT, 1, 4, .ro, false, 0x00000000, 0x00000007⟩,
   ⟨Reg.CAN.TDC_MEAS, 1, 4, .ro, false, 0x00000000, 0xFFFFFFFF⟩,
   ⟨Reg.CAN.RX_LOST, 1, 4, .ro, false, 0x00000000, 0xFFFFFFFF⟩,
   ⟨Reg.CAN.REF_MISS, 1, 4, .ro, false, 0x00000000, 0xFFFFFFFF⟩,
   ⟨Reg.CAN.ERR_CNT, 1, 4, .ro, false, 0x00000000, 0xFFFFFFFF⟩] ++
  [⟨Reg.CAN.OBJ_IDX, 1, 4, .rw, false, 0x00000000, 0x0000007F⟩,
   ⟨Reg.CAN.OBJ_HDR, 1, 4, .ro, false, 0x00000000, 0xFFFFFFFF⟩,
   ⟨Reg.CAN.OBJ_TS_LO, 1, 4, .ro, false, 0x00000000, 0xFFFFFFFF⟩,
   ⟨Reg.CAN.OBJ_TS_HI, 1, 4, .ro, false, 0x00000000, 0xFFFFFFFF⟩,
   ⟨Reg.CAN.OBJ_DATA, 16, 4, .rw, false, 0x00000000, 0xFFFFFFFF⟩,
   ⟨Reg.CAN.OBJ_INFO, 1, 4, .ro, false, 0x00000000, 0x000000F6⟩,
   ⟨Reg.CAN.MAP, 64, 4, .rs, false, 0x00000000, 0xFFFFFFFF⟩,
   ⟨Reg.CAN.OBJ_CFG, 128, 4, .rs, false, 0x00000000, 0xF7FFF7FF⟩,
   ⟨Reg.CAN.FILT_ID, 128, 4, .rs, false, 0x00000000, 0x3FFFFFFF⟩,
   ⟨Reg.CAN.FILT_MASK, 128, 4, .rs, false, 0x00000000, 0x3FFFFFFF⟩]

/-! Offsets of `PCIE` (Table 16-11, R451). -/
/-- `PCIE.DMA_CFG`. -/
abbrev Reg.PCIE.DMA_CFG : Nat := 0x040
/-- `PCIE.STAT`. -/
abbrev Reg.PCIE.STAT : Nat := 0x080
/-- `PCIE.AER_CNT`. -/
abbrev Reg.PCIE.AER_CNT : Nat := 0x084
/-- `PCIE.CH_CTRL`. -/
abbrev Reg.PCIE.CH_CTRL : Nat := 0x100
/-- `PCIE.CH_RING_LO`. -/
abbrev Reg.PCIE.CH_RING_LO : Nat := 0x104
/-- `PCIE.CH_RING_HI`. -/
abbrev Reg.PCIE.CH_RING_HI : Nat := 0x108
/-- `PCIE.CH_SIZE`. -/
abbrev Reg.PCIE.CH_SIZE : Nat := 0x10C
/-- `PCIE.CH_TAIL`. -/
abbrev Reg.PCIE.CH_TAIL : Nat := 0x110
/-- `PCIE.CH_HEAD`. -/
abbrev Reg.PCIE.CH_HEAD : Nat := 0x114
/-- `PCIE.CH_STAT`. -/
abbrev Reg.PCIE.CH_STAT : Nat := 0x118

/-- The register map of `PCIE` (Table 16-11). -/
def regsPCIE : List RegRow :=
  [⟨Reg.PCIE.DMA_CFG, 1, 4, .rs, false, 0x00000000, 0x00000001⟩,
   ⟨Reg.PCIE.STAT, 1, 4, .ro, false, 0x00000000, 0xFFFFFFFF⟩,
   ⟨Reg.PCIE.AER_CNT, 1, 4, .ro, false, 0x00000000, 0xFFFFFFFF⟩,
   ⟨Reg.PCIE.CH_CTRL, 16, 32, .rw, false, 0x00000000, 0x00000003⟩,
   ⟨Reg.PCIE.CH_RING_LO, 16, 32, .rw, false, 0x00000000, 0xFFFFFFFF⟩,
   ⟨Reg.PCIE.CH_RING_HI, 16, 32, .rw, false, 0x00000000, 0xFFFFFFFF⟩,
   ⟨Reg.PCIE.CH_SIZE, 16, 32, .rw, false, 0x00000002, 0x00001FFF⟩,
   ⟨Reg.PCIE.CH_TAIL, 16, 32, .rw, false, 0x00000000, 0x00000FFF⟩,
   ⟨Reg.PCIE.CH_HEAD, 16, 32, .ro, false, 0x00000000, 0xFFFFFFFF⟩,
   ⟨Reg.PCIE.CH_STAT, 16, 32, .ro, false, 0x00000000, 0xFFFFFFFF⟩]

/-! Offsets of `HSP` (Table 16-12, R451). -/
/-- `HSP.CFG`. -/
abbrev Reg.HSP.CFG : Nat := 0x040
/-- `HSP.SILENT_T`. -/
abbrev Reg.HSP.SILENT_T : Nat := 0x044
/-- `HSP.STAT`. -/
abbrev Reg.HSP.STAT : Nat := 0x080
/-- `HSP.FRAME_CNT`. -/
abbrev Reg.HSP.FRAME_CNT : Nat := 0x084
/-- `HSP.BAD_CNT`. -/
abbrev Reg.HSP.BAD_CNT : Nat := 0x088
/-- `HSP.SEQ_CNT`. -/
abbrev Reg.HSP.SEQ_CNT : Nat := 0x08C

/-- The register map of `HSP` (Table 16-12). -/
def regsHSP : List RegRow :=
  [⟨Reg.HSP.CFG, 1, 4, .rs, false, 0x00000010, 0x0000003F⟩,
   ⟨Reg.HSP.SILENT_T, 1, 4, .rs, false, 0x00000064, 0xFFFFFFFF⟩,
   ⟨Reg.HSP.STAT, 1, 4, .ro, false, 0x00000000, 0xFFFFFFFF⟩,
   ⟨Reg.HSP.FRAME_CNT, 1, 4, .ro, false, 0x00000000, 0xFFFFFFFF⟩,
   ⟨Reg.HSP.BAD_CNT, 1, 4, .ro, false, 0x00000000, 0xFFFFFFFF⟩,
   ⟨Reg.HSP.SEQ_CNT, 1, 4, .ro, false, 0x00000000, 0xFFFFFFFF⟩]

/-! Offsets of `MSP` (Table 16-13, R451). -/
/-- `MSP.CFG`. -/
abbrev Reg.MSP.CFG : Nat := 0x040
/-- `MSP.CLKDIV`. -/
abbrev Reg.MSP.CLKDIV : Nat := 0x044
/-- `MSP.RD_CMD`. -/
abbrev Reg.MSP.RD_CMD : Nat := 0x048
/-- `MSP.IND_CMD`. -/
abbrev Reg.MSP.IND_CMD : Nat := 0x060
/-- `MSP.IND_ADDR`. -/
abbrev Reg.MSP.IND_ADDR : Nat := 0x064
/-- `MSP.IND_POLL`. -/
abbrev Reg.MSP.IND_POLL : Nat := 0x068
/-- `MSP.IND_DATA`. -/
abbrev Reg.MSP.IND_DATA : Nat := 0x100
/-- `MSP.STAT`. -/
abbrev Reg.MSP.STAT : Nat := 0x200
/-- `MSP.HIT_CNT`. -/
abbrev Reg.MSP.HIT_CNT : Nat := 0x204
/-- `MSP.MISS_CNT`. -/
abbrev Reg.MSP.MISS_CNT : Nat := 0x208
/-- `MSP.BLOCK_CNT`. -/
abbrev Reg.MSP.BLOCK_CNT : Nat := 0x20C

/-- The register map of `MSP` (Table 16-13). -/
def regsMSP : List RegRow :=
  [⟨Reg.MSP.CFG, 1, 4, .rs, false, 0x00000000, 0x0000001F⟩,
   ⟨Reg.MSP.CLKDIV, 1, 4, .rs, false, 0x00000007, 0x000000FF⟩,
   ⟨Reg.MSP.RD_CMD, 1, 4, .rs, false, 0x0008000B, 0xFF3FFFFF⟩,
   ⟨Reg.MSP.IND_CMD, 1, 4, .rw, false, 0x00000000, 0xFFFFFFFF⟩,
   ⟨Reg.MSP.IND_ADDR, 1, 4, .rw, false, 0x00000000, 0xFFFFFFFF⟩,
   ⟨Reg.MSP.IND_POLL, 1, 4, .rw, false, 0x00000105, 0xFFFF07FF⟩,
   ⟨Reg.MSP.IND_DATA, 64, 4, .rw, false, 0x00000000, 0xFFFFFFFF⟩,
   ⟨Reg.MSP.STAT, 1, 4, .ro, false, 0x00000000, 0xFFFFFFFF⟩,
   ⟨Reg.MSP.HIT_CNT, 1, 4, .ro, false, 0x00000000, 0xFFFFFFFF⟩,
   ⟨Reg.MSP.MISS_CNT, 1, 4, .ro, false, 0x00000000, 0xFFFFFFFF⟩,
   ⟨Reg.MSP.BLOCK_CNT, 1, 4, .ro, false, 0x00000000, 0xFFFFFFFF⟩]

/-! Offsets of `PSP` (Table 16-14, R451). -/
/-- `PSP.CFG`. -/
abbrev Reg.PSP.CFG : Nat := 0x040
/-- `PSP.CLKDIV`. -/
abbrev Reg.PSP.CLKDIV : Nat := 0x044
/-- `PSP.TRIG_SRC`. -/
abbrev Reg.PSP.TRIG_SRC : Nat := 0x048
/-- `PSP.ERR_LIMIT`. -/
abbrev Reg.PSP.ERR_LIMIT : Nat := 0x04C
/-- `PSP.TX`. -/
abbrev Reg.PSP.TX : Nat := 0x080
/-- `PSP.SAFE_TX`. -/
abbrev Reg.PSP.SAFE_TX : Nat := 0x180
/-- `PSP.RX`. -/
abbrev Reg.PSP.RX : Nat := 0x280
/-- `PSP.FRAME_CNT`. -/
abbrev Reg.PSP.FRAME_CNT : Nat := 0x380
/-- `PSP.ERR_CNT`. -/
abbrev Reg.PSP.ERR_CNT : Nat := 0x384
/-- `PSP.SKIP_CNT`. -/
abbrev Reg.PSP.SKIP_CNT : Nat := 0x388

/-- The register map of `PSP` (Table 16-14). -/
def regsPSP : List RegRow :=
  [⟨Reg.PSP.CFG, 1, 4, .rs, false, 0x00000140, 0x1F0F7FFF⟩,
   ⟨Reg.PSP.CLKDIV, 1, 4, .rs, false, 0x00000009, 0x000000FF⟩,
   ⟨Reg.PSP.TRIG_SRC, 1, 4, .rs, false, 0x00000000, 0x00007FFF⟩,
   ⟨Reg.PSP.ERR_LIMIT, 1, 4, .rs, false, 0x00000003, 0x000000FF⟩,
   ⟨Reg.PSP.TX, 64, 4, .rs, false, 0x00000000, 0xFFFFFFFF⟩,
   ⟨Reg.PSP.SAFE_TX, 64, 4, .rs, false, 0x00000000, 0xFFFFFFFF⟩,
   ⟨Reg.PSP.RX, 64, 4, .ro, false, 0x00000000, 0xFFFFFFFF⟩,
   ⟨Reg.PSP.FRAME_CNT, 1, 4, .ro, false, 0x00000000, 0xFFFFFFFF⟩,
   ⟨Reg.PSP.ERR_CNT, 1, 4, .ro, false, 0x00000000, 0xFFFFFFFF⟩,
   ⟨Reg.PSP.SKIP_CNT, 1, 4, .ro, false, 0x00000000, 0xFFFFFFFF⟩]

/-! Offsets of `APC` (Table 16-16, R451). -/
/-- `APC.AP0_BOOT_LO`. -/
abbrev Reg.APC.AP0_BOOT_LO : Nat := 0x040
/-- `APC.AP0_BOOT_HI`. -/
abbrev Reg.APC.AP0_BOOT_HI : Nat := 0x044
/-- `APC.AP1_BOOT_LO`. -/
abbrev Reg.APC.AP1_BOOT_LO : Nat := 0x048
/-- `APC.AP1_BOOT_HI`. -/
abbrev Reg.APC.AP1_BOOT_HI : Nat := 0x04C
/-- `APC.READY`. -/
abbrev Reg.APC.READY : Nat := 0x080
/-- `APC.RESTART_CNT`. -/
abbrev Reg.APC.RESTART_CNT : Nat := 0x084
/-- `APC.MB_REQ`. -/
abbrev Reg.APC.MB_REQ : Nat := 0x100
/-- `APC.MB_RING`. -/
abbrev Reg.APC.MB_RING : Nat := 0x140
/-- `APC.MB_STAT`. -/
abbrev Reg.APC.MB_STAT : Nat := 0x144
/-- `APC.MB_ACK`. -/
abbrev Reg.APC.MB_ACK : Nat := 0x148
/-- `APC.MB_RSP`. -/
abbrev Reg.APC.MB_RSP : Nat := 0x180
/-- `APC.MB_RSP_RING`. -/
abbrev Reg.APC.MB_RSP_RING : Nat := 0x1C0

/-- The register map of `APC` (Table 16-16). -/
def regsAPC : List RegRow :=
  [⟨Reg.APC.AP0_BOOT_LO, 1, 4, .rs, false, 0x00000000, 0xFFFFFFFF⟩,
   ⟨Reg.APC.AP0_BOOT_HI, 1, 4, .rs, false, 0x00000000, 0xFFFFFFFF⟩,
   ⟨Reg.APC.AP1_BOOT_LO, 1, 4, .rs, false, 0x00000000, 0xFFFFFFFF⟩,
   ⟨Reg.APC.AP1_BOOT_HI, 1, 4, .rs, false, 0x00000000, 0xFFFFFFFF⟩,
   ⟨Reg.APC.READY, 1, 4, .rw, false, 0x00000000, 0x00000003⟩,
   ⟨Reg.APC.RESTART_CNT, 1, 4, .ro, false, 0x00000000, 0xFFFFFFFF⟩,
   ⟨Reg.APC.MB_REQ, 16, 4, .rw, false, 0x00000000, 0xFFFFFFFF⟩,
   ⟨Reg.APC.MB_RING, 1, 4, .wo, false, 0x00000000, 0xFFFFFFFF⟩,
   ⟨Reg.APC.MB_STAT, 1, 4, .ro, false, 0x00000000, 0xFFFFFFFF⟩,
   ⟨Reg.APC.MB_ACK, 1, 4, .w1c, false, 0x00000000, 0x00000003⟩,
   ⟨Reg.APC.MB_RSP, 16, 4, .rw, false, 0x00000000, 0xFFFFFFFF⟩,
   ⟨Reg.APC.MB_RSP_RING, 1, 4, .wo, false, 0x00000000, 0xFFFFFFFF⟩]

/-! Offsets of `DIO` (Table 18-4, R490). -/
/-- `DIO.CFG`. -/
abbrev Reg.DIO.CFG : Nat := 0x040
/-- `DIO.SAFE_T`. -/
abbrev Reg.DIO.SAFE_T : Nat := 0x044
/-- `DIO.PAR`. -/
abbrev Reg.DIO.PAR : Nat := 0x048
/-- `DIO.SAFE_VAL`. -/
abbrev Reg.DIO.SAFE_VAL : Nat := 0x04C
/-- `DIO.OUT_VAL`. -/
abbrev Reg.DIO.OUT_VAL : Nat := 0x050
/-- `DIO.WB_THR`. -/
abbrev Reg.DIO.WB_THR : Nat := 0x054
/-- `DIO.WB_T`. -/
abbrev Reg.DIO.WB_T : Nat := 0x058
/-- `DIO.IN_CFG`. -/
abbrev Reg.DIO.IN_CFG : Nat := 0x080
/-- `DIO.IN_FILT`. -/
abbrev Reg.DIO.IN_FILT : Nat := 0x100
/-- `DIO.OUT_SRC`. -/
abbrev Reg.DIO.OUT_SRC : Nat := 0x180
/-- `DIO.STAT`. -/
abbrev Reg.DIO.STAT : Nat := 0x200
/-- `DIO.IN_STATE`. -/
abbrev Reg.DIO.IN_STATE : Nat := 0x204
/-- `DIO.IN_WB`. -/
abbrev Reg.DIO.IN_WB : Nat := 0x208
/-- `DIO.OUT_CMD`. -/
abbrev Reg.DIO.OUT_CMD : Nat := 0x20C
/-- `DIO.OUT_STATE`. -/
abbrev Reg.DIO.OUT_STATE : Nat := 0x210
/-- `DIO.DIAG_OC_OT`. -/
abbrev Reg.DIO.DIAG_OC_OT : Nat := 0x214
/-- `DIO.DIAG_OL_SH`. -/
abbrev Reg.DIO.DIAG_OL_SH : Nat := 0x218
/-- `DIO.DIAG_RB`. -/
abbrev Reg.DIO.DIAG_RB : Nat := 0x21C
/-- `DIO.LPLUS`. -/
abbrev Reg.DIO.LPLUS : Nat := 0x220
/-- `DIO.FRAME_ERR`. -/
abbrev Reg.DIO.FRAME_ERR : Nat := 0x224
/-- `DIO.SILENT_CNT`. -/
abbrev Reg.DIO.SILENT_CNT : Nat := 0x228
/-- `DIO.IN_VOLT`. -/
abbrev Reg.DIO.IN_VOLT : Nat := 0x240
/-- `DIO.OUT_CUR`. -/
abbrev Reg.DIO.OUT_CUR : Nat := 0x260

/-- The register map of `DIO` (Table 18-4). -/
def regsDIO : List RegRow :=
  [⟨Reg.DIO.CFG, 1, 4, .rs, false, 0x00000500, 0x011F1F01⟩,
   ⟨Reg.DIO.SAFE_T, 1, 4, .rs, false, 0x00000064, 0xFFFFFFFF⟩,
   ⟨Reg.DIO.PAR, 1, 4, .rs, false, 0x00000000, 0x000000FF⟩,
   ⟨Reg.DIO.SAFE_VAL, 1, 4, .rs, false, 0x00000000, 0x0000FFFF⟩,
   ⟨Reg.DIO.OUT_VAL, 1, 4, .rw, false, 0x00000000, 0x0000FFFF⟩,
   ⟨Reg.DIO.WB_THR, 1, 4, .rs, false, 0x00000006, 0x0000007F⟩,
   ⟨Reg.DIO.WB_T, 1, 4, .rs, false, 0x00000064, 0xFFFFFFFF⟩,
   ⟨Reg.DIO.IN_CFG, 32, 4, .rs, false, 0x00000001, 0x007F7F0F⟩,
   ⟨Reg.DIO.IN_FILT, 32, 4, .rs, false, 0x00000000, 0x0000FFFF⟩,
   ⟨Reg.DIO.OUT_SRC, 16, 4, .rs, false, 0x00000000, 0xFFFF0003⟩,
   ⟨Reg.DIO.STAT, 1, 4, .ro, false, 0x00000000, 0x0000173F⟩,
   ⟨Reg.DIO.IN_STATE, 1, 4, .ro, false, 0x00000000, 0xFFFFFFFF⟩,
   ⟨Reg.DIO.IN_WB, 1, 4, .ro, false, 0x00000000, 0xFFFFFFFF⟩,
   ⟨Reg.DIO.OUT_CMD, 1, 4, .ro, false, 0x00000000, 0xFFFFFFFF⟩,
   ⟨Reg.DIO.OUT_STATE, 1, 4, .ro, false, 0x00000000, 0xFFFFFFFF⟩,
   ⟨Reg.DIO.DIAG_OC_OT, 1, 4, .ro, false, 0x00000000, 0xFFFFFFFF⟩,
   ⟨Reg.DIO.DIAG_OL_SH, 1, 4, .ro, false, 0x00000000, 0xFFFFFFFF⟩,
   ⟨Reg.DIO.DIAG_RB, 1, 4, .ro, false, 0x00000000, 0xFFFFFFFF⟩,
   ⟨Reg.DIO.LPLUS, 1, 4, .ro, false, 0x00000000, 0xFFFFFFFF⟩,
   ⟨Reg.DIO.FRAME_ERR, 1, 4, .ro, false, 0x00000000, 0xFFFFFFFF⟩] ++
  [⟨Reg.DIO.SILENT_CNT, 1, 4, .ro, false, 0x00000000, 0xFFFFFFFF⟩,
   ⟨Reg.DIO.IN_VOLT, 8, 4, .ro, false, 0x00000000, 0xFFFFFFFF⟩,
   ⟨Reg.DIO.OUT_CUR, 8, 4, .ro, false, 0x00000000, 0xFFFFFFFF⟩]

/-! Offsets of `GPIO` (Table 21-15, R542). -/
/-- `GPIO.MUX`. -/
abbrev Reg.GPIO.MUX : Nat := 0x100
/-- `GPIO.DIR`. -/
abbrev Reg.GPIO.DIR : Nat := 0x300
/-- `GPIO.OUT`. -/
abbrev Reg.GPIO.OUT : Nat := 0x380
/-- `GPIO.OUT_SET`. -/
abbrev Reg.GPIO.OUT_SET : Nat := 0x400
/-- `GPIO.OUT_CLR`. -/
abbrev Reg.GPIO.OUT_CLR : Nat := 0x480
/-- `GPIO.IN`. -/
abbrev Reg.GPIO.IN : Nat := 0x500
/-- `GPIO.RISE_EN`. -/
abbrev Reg.GPIO.RISE_EN : Nat := 0x580
/-- `GPIO.FALL_EN`. -/
abbrev Reg.GPIO.FALL_EN : Nat := 0x600
/-- `GPIO.EDGE_ST`. -/
abbrev Reg.GPIO.EDGE_ST : Nat := 0x680

/-- The register map of `GPIO` (Table 21-15). -/
def regsGPIO : List RegRow :=
  [⟨Reg.GPIO.MUX, 77, 4, .rs, false, 0x44444444, 0xFFFFFFFF⟩,
   ⟨Reg.GPIO.DIR, 20, 4, .rw, false, 0x00000000, 0xFFFFFFFF⟩,
   ⟨Reg.GPIO.OUT, 20, 4, .rw, false, 0x00000000, 0xFFFFFFFF⟩,
   ⟨Reg.GPIO.OUT_SET, 20, 4, .wo, false, 0x00000000, 0xFFFFFFFF⟩,
   ⟨Reg.GPIO.OUT_CLR, 20, 4, .wo, false, 0x00000000, 0xFFFFFFFF⟩,
   ⟨Reg.GPIO.IN, 20, 4, .ro, false, 0x00000000, 0xFFFFFFFF⟩,
   ⟨Reg.GPIO.RISE_EN, 20, 4, .rw, false, 0x00000000, 0xFFFFFFFF⟩,
   ⟨Reg.GPIO.FALL_EN, 20, 4, .rw, false, 0x00000000, 0xFFFFFFFF⟩,
   ⟨Reg.GPIO.EDGE_ST, 20, 4, .w1c, false, 0x00000000, 0xFFFFFFFF⟩]

/-! Offsets of `DBG` (Table 19-7, R506). -/
/-- `DBG.REQ`. -/
abbrev Reg.DBG.REQ : Nat := 0x040
/-- `DBG.STAT`. -/
abbrev Reg.DBG.STAT : Nat := 0x080
/-- `DBG.CHALLENGE`. -/
abbrev Reg.DBG.CHALLENGE : Nat := 0x0A0
/-- `DBG.RESP`. -/
abbrev Reg.DBG.RESP : Nat := 0x100

/-- The register map of `DBG` (Table 19-7). -/
def regsDBG : List RegRow :=
  [⟨Reg.DBG.REQ, 1, 4, .rw, false, 0x00000000, 0x0000003F⟩,
   ⟨Reg.DBG.STAT, 1, 4, .ro, false, 0x00000000, 0xFFFFFFFF⟩,
   ⟨Reg.DBG.CHALLENGE, 8, 4, .ro, false, 0x00000000, 0xFFFFFFFF⟩,
   ⟨Reg.DBG.RESP, 48, 4, .wo, false, 0x00000000, 0xFFFFFFFF⟩]

/-- The block registers of a page type (from offset 0x040 on, R38). -/
def regRows : PgTy → List RegRow
  | .sys => regsSYS
  | .pwr => regsPWR
  | .clk => regsCLK
  | .sec => regsSEC
  | .tamp => regsTAMP
  | .flt => regsFLT
  | .time => regsTIME
  | .dlk => regsDLK
  | .fab => regsFAB
  | .mem => regsMEM
  | .enc => regsENC
  | .ssn => regsSSN
  | .axis => regsAXIS
  | .prk => regsPRK
  | .pcmp => regsPCMP
  | .step => regsSTEP
  | .ustp => regsUSTP
  | .lc => regsLC
  | .lsch => regsLSCH
  | .ce => regsCE
  | .cslot => regsCSLOT
  | .pwm => regsPWM
  | .fin => regsFIN
  | .fcg => regsFCG
  | .fch => regsFCH
  | .pcv => regsPCV
  | .le => regsLE
  | .rseq => regsRSEQ
  | .frc => regsFRC
  | .sig => regsSIG
  | .acq => regsACQ
  | .recStore => regsREC
  | .eth => regsETH
  | .ptp => regsPTP
  | .can => regsCAN
  | .pcie => regsPCIE
  | .hsp => regsHSP
  | .msp => regsMSP
  | .psp => regsPSP
  | .apc => regsAPC
  | .dio => regsDIO
  | .gpio => regsGPIO
  | .dbg => regsDBG

/-- Whether a row holds the word at a byte offset. -/
def RegRow.has (r : RegRow) (off : Nat) : Bool :=
  r.off ≤ off && (off - r.off) % r.stride == 0 && (off - r.off) / r.stride < r.count

/-- The row of a page type that holds an offset; none: an unimplemented offset (R4). -/
def regRow (t : PgTy) (off : Nat) : Option RegRow := (regRows t).find? (fun r => r.has off)

/-- The register at an offset of one page: the switch is configured on `ETH[0]` only (Table 16-15). -/
def regRowAt (t : PgTy) (n off : Nat) : Option RegRow :=
  if t = .eth ∧ n ≠ 0 ∧ off = Reg.ETH.SW_CFG then none else regRow t off

/-- The offsets of one row, ascending. -/
def RegRow.offs (r : RegRow) : List Nat := (List.range r.count).map (fun i => r.off + r.stride * i)

end Sys2Proof.Machine
end

