-- ==== Sys2Proof/Machine/State.lean ====
section
/-! DEFINITION. The state of the device: every register page, the signal table and process image, the memories, and
the queues and internal registers of each block; the reasons a step can stop; and the state right after reset. -/
namespace Sys2Proof.Machine

/-- Why a step stops with a fault. No meaning of this model raises one: the block answers every command (bus errors,
refused commands and block faults are states of the device, R27, R56, R404). -/
inductive Fault where
  /-- Never raised; safe. -/
  | none
  deriving DecidableEq, Repr

/-- Why a step is refused. -/
inductive Refusal where
  /-- Raised by an arm of `exec` whose command has no meaning yet; safe. -/
  | notModelled (mnemonic : String)
  deriving DecidableEq, Repr

/-- The PGKEY unlock sequence of a page (R44). -/
inductive KeySt where
  /-- No word of the pair has been written. -/
  | idle
  /-- The first word of the pair has been written. -/
  | first
  /-- The window is open for one write. -/
  | window
  deriving DecidableEq, Repr

/-- The progress of a commit (R48, R49). -/
inductive CommitSt where
  /-- No commit is pending. -/
  | none
  /-- The staged set is being validated. -/
  | validating
  /-- The commit is accepted and waits for its boundary. -/
  | accepted
  deriving DecidableEq, Repr

/-- An accepted command that waits (R55), and the master that wrote it. -/
structure PendCmd where
  code : Nat
  by_ : Master
  deriving DecidableEq, Repr

/-- One register page: its registers and its selvedge (Table 2-2). -/
structure Page where
  /-- Block registers in force, by byte offset, where they differ from reset. -/
  regs : SMap Word
  /-- Staged values written since the staging store last equalled the active values (R46). -/
  staged : SMap Word
  /-- PGSTAT.STATE. -/
  st : PgState
  /-- PGCTL.EN, FREEZE, DBGSAFE. -/
  en : Bool
  freeze : Bool
  dbgSafe : Bool
  /-- PGSTAT.LOCKED. -/
  locked : Bool
  /-- The PGKEY sequence (R44). -/
  key : KeySt
  /-- PGCMD: the last accepted word. -/
  lastCmd : Word
  /-- PGSTAT.CMD_PENDING and the command that waits. -/
  cmd : Option PendCmd
  /-- PGSTAT.COMMIT_PENDING and its phase. -/
  commit : CommitSt
  /-- PGSTAT.STAGED_DIRTY. -/
  dirty : Bool
  /-- PGSTAT.BUSY. -/
  busy : Bool
  /-- PGPROG. -/
  prog : Word
  /-- PGERR. -/
  err : Word
  /-- INT_RAW and INT_EN. -/
  intRaw : Word
  intEn : Word
  /-- PGPOS_HI and PGPOS_LO. -/
  pos : BitVec 64
  /-- The page is in HOLD and only FREEZE=1 caused it (Table 2-6). -/
  frozen : Bool
  /-- Snapshots of high words by their offset (R60). -/
  snap : SMap Word
  /-- Low words of wide RW values written and not yet applied, by offset (R61). -/
  wlow : SMap Word
  deriving DecidableEq, Repr

/-- One signal-table entry: the four words of Table 1-6. -/
structure SigEntry where
  w0 : Word
  w1 : Word
  w2 : Word
  w3 : Word
  deriving DecidableEq, Repr

/-- An entry as reset leaves it: not enabled. -/
def SigEntry.reset : SigEntry := ⟨0, 0, 0, 0⟩

/-- One process-image slot (Table 1-8), with the words its VALUE_LO read snapshots (R18). -/
structure Slot where
  value : BitVec 64
  raw : BitVec 64
  /-- Device time of the last publication, 32.3 ns format. -/
  ts : BitVec 35
  forced : Bool
  safe : Bool
  never : Bool
  conflict : Bool
  pubCnt : Word
  /-- VALUE_LO an application core has written of a 48.16 signal whose VALUE_HI it has not written yet (R19). -/
  lowPart : Option Word
  /-- Snapshot of VALUE_HI, TSTAMP_LO, TSTAMP_HI and STATUS; 0 before the first VALUE_LO read (R18, R60). -/
  snapHi : Word
  snapTs : BitVec 35
  snapStatus : Word
  /-- Time elapsed at the publication, force or substitution that last changed VALUE, in steps of 125 ps (R131). -/
  chg : Nat
  deriving DecidableEq, Repr

/-- A slot at reset: nothing published (Table 1-8). -/
def Slot.reset : Slot := ⟨0, 0, 0, false, false, true, false, 0, none, 0, 0, 0, 0⟩

/-- What the history queue holds (Table 13-3): the entry's words and its KIND. -/
structure HistEnt where
  kind : Nat
  id : Nat
  forced : Bool
  safe : Bool
  ts : BitVec 35
  value : BitVec 64
  deriving DecidableEq, Repr

/-- One entry of the force table (R328, R331). -/
structure ForceEnt where
  id : Nat
  value : BitVec 64
  ty : Nat
  orphan : Bool
  deriving DecidableEq, Repr

/-- One entry of the fabric error log (R32). -/
structure FabEnt where
  addr : Nat
  master : Nat
  kind : Nat
  write : Bool
  ts : BitVec 35
  deriving DecidableEq, Repr

/-- One entry of the fault log (Table 15-4), and the input it was raised by (a fault pin for FIN_TRIP, else 0). -/
structure FltEnt where
  seq : Nat
  src : Nat
  react : Nat
  ack : Bool
  active : Bool
  abandon : Bool
  pgType : Nat
  inst : Nat
  sub : Nat
  detail : Nat
  groups : Word
  ts : BitVec 35
  wrap : Nat
  rpt : Nat
  deriving DecidableEq, Repr

/-- One instance that holds a LEVEL source active (R404), and the groups its raise affected. -/
structure Hold where
  src : Nat
  pgType : Nat
  inst : Nat
  sub : Nat
  groups : Word
  deriving DecidableEq, Repr

/-- How a bus access ended (R27). -/
inductive BusEnd where
  /-- The access completed. -/
  | ok
  /-- Address undecoded. -/
  | undecoded
  /-- Access denied by Table 1-10 or Table 1-11. -/
  | denied
  /-- The read met an uncorrectable word of in-package DRAM (R34). -/
  | uncorrectable
  deriving DecidableEq, Repr

/-- The answer of the last read or access a master made. -/
structure Resp where
  lo : Word
  hi : Word
  fin : BusEnd
  deriving DecidableEq, Repr
/-- The state of a tracking observer (R78) at the elapsed time `t`: position in 2⁻⁴⁸ counts, speed in 2⁻⁴⁸ counts/s, acceleration
in 2⁻⁴⁸ counts/s², finer than any register shows them. -/
structure Obs where
  p : Int
  v : Int
  a : Int
  t : Nat
  deriving DecidableEq, Repr

/-- What an incremental channel holds besides its registers. -/
structure EncSt where
  o : Obs
  /-- Position of the last boundary crossed, in 2⁻¹⁶ counts (R72), and COUNT without wrapping. -/
  bnd : Int
  cnt : Int
  /-- Accepted counted edges in one direction since START, standstill or reversal (R84, R85). -/
  edges : Nat
  /-- A counted edge has been accepted since reset; the next edge follows standstill or START (R84). -/
  had : Bool
  fresh : Bool
  /-- Elapsed time of the last accepted edge, or of START (R81, R83). -/
  tEdge : Nat
  /-- The sum of all shifts applied (R74, R75, R137), in 2⁻¹⁶ counts. -/
  shift : Int
  /-- The revolution counter (R76) and its value and direction at the last accepted index. -/
  rev : Int
  idx : Option (Int × Bool)
  /-- Accepted indices since reset, and the acceleration at the last base tick (R101). -/
  idxN : Nat
  tickA : Int
  /-- LEARN_LINES (R77): revolutions done, the first one's count, the sum. -/
  learnN : Nat
  learnFirst : Int
  learnSum : Int
  /-- The last valid Hall state (R69), 0 before one. -/
  hall : Nat
  /-- The PD8 cycle of the last index reset (R75), and `shift` at the last base tick (R101, R110). -/
  rstCyc : Option Nat
  tickS : Int
  deriving DecidableEq, Repr

/-- An incremental channel at reset. -/
def EncSt.reset : EncSt := ⟨⟨0, 0, 0, 0⟩, 0, 0, 0, false, true, 0, 0, 0, none, 0, 0, 0, 0, 0, 0, none, 0⟩

/-- What a serial sensor channel holds besides its registers. -/
structure SsnSt where
  o : Obs
  /-- The count of the last good frame as the sensor sent it, and the unwrapped one. -/
  raw : Int
  pos : Int
  /-- Consecutive bad frames (R95). -/
  bad : Nat
  /-- Start of the frame in progress (extended time). -/
  start : Nat
  /-- Bits of CDM_TX already sent, 32 when exhausted (R97). -/
  cdm : Nat
  /-- CDS bits since the last read of CDS_RX. -/
  cds : Nat
  /-- The level of SSNmMA in the timeout of the frame in progress, which idles high (R92). -/
  ma : Bool
  /-- Elapsed time from which the next frame may start (R92). -/
  free : Nat
  /-- Base ticks since the last tick trigger, the tick whose trigger has not been taken, and the PWM event taken last (R93). -/
  div : Nat
  trg : Option Nat
  took : Option Nat
  /-- Position, speed and acceleration at the last base tick (R101). -/
  tickP : Int
  tickV : Int
  tickA : Int
  deriving DecidableEq, Repr

/-- A serial sensor channel at reset. -/
def SsnSt.reset : SsnSt := ⟨⟨0, 0, 0, 0⟩, 0, 0, 0, 0, 32, 0, true, 0, 0, none, none, 0, 0, 0⟩

/-- One compare-queue entry (R147): its next compare value in units of 2⁻³² counts or ns. -/
structure PcmpEnt where
  pos : Int
  inc : Int
  dir : Nat
  action : Nat
  width : Nat
  rep : Nat
  fireInt : Bool
  tag : Nat
  /-- The direction of its last check: backward (R149). -/
  back : Bool
  deriving DecidableEq, Repr

/-- One latch-queue entry (R153, R154). -/
structure LatchEnt where
  pos : BitVec 64
  ts : BitVec 35
  rising : Bool
  mark : Bool
  deriving DecidableEq, Repr

/-- What a compare unit holds besides its registers. -/
structure PcmpSt where
  q : List PcmpEnt
  lq : List LatchEnt
  /-- When the pulse in progress ends (extended time). -/
  pulse : Option Nat
  /-- The pulse that follows the one in progress, after a gap: its pin edge and its end (R151). -/
  next : Option (Nat × Nat)
  /-- The open registration window: its first and last position and whether its mark has come (R155). -/
  win : Option (Int × Int × Bool)
  /-- The number of the next window, and the sum of the shifts its series carries (R152). -/
  winNext : Nat
  winShift : Int
  deriving DecidableEq, Repr

/-- A compare unit at reset. -/
def PcmpSt.reset : PcmpSt := ⟨[], [], none, none, none, 0, 0⟩

/-- What a step channel holds besides its registers: SETP of the last two ticks and the tick's time (R160), whether LAG_LIM has been
reported, the leading edge of the last step (R161) and since when SETV has been 0 (R162), in time elapsed, and the direction that STEPnD
shows: backward (R160). -/
structure StepSt where
  from_ : Int
  to_ : Int
  t : Nat
  ovr : Bool
  edge : Option Nat
  zero : Option Nat
  back : Bool
  deriving DecidableEq, Repr

/-- A step channel at reset. -/
def StepSt.reset : StepSt := ⟨0, 0, 0, false, none, none, false⟩

/-- A run of constant jerk of a profile (R105): the jerk in counts/s³ and the duration in 2⁻⁴⁰ of a base tick (log entry 44). -/
structure Seg where
  j : Int
  n : Nat
  deriving DecidableEq, Repr

/-- The limits of acceleration, deceleration and jerk of R105. -/
structure ProfLim where
  amax : Nat
  dmax : Nat
  jmax : Nat
  deriving DecidableEq, Repr

/-- The exact state of a profile (R105): 6 U³ times the position, 2 U² times the velocity and U times the acceleration, U being the units of a
second (log entry 44). -/
structure ProfAt where
  p : Int
  v : Int
  a : Int
  deriving DecidableEq, Repr

/-- A planned way (R105, R106, R123): the set-point state it started from, its goal (exact) and the velocity with which the goal moves
(2⁻¹⁶ counts/s), the limits, its runs, and the ticks since. -/
structure MovePlan where
  x : ProfAt
  goal : Int
  vg : Int
  vmax : Nat
  lim : ProfLim
  runs : List Seg
  k : Nat
  deriving DecidableEq, Repr

/-- What an axis holds besides its registers. Positions are in 2⁻¹⁶ counts; master positions have the shifts of their frame
removed (R110). -/
structure AxisSt where
  /-- STOPPING runs at QDEC without a jerk limit; at rest the axis goes to IDLE (R126). -/
  quick : Bool
  toIdle : Bool
  /-- The set-point equals ACT: after TORQUE_OFF or SAFE_ALL (R129). -/
  coast : Bool
  /-- The strongest reaction received and not yet acted on (R408); 0 none. -/
  req : Nat
  /-- The set-point state, exact: the set-point registers show it rounded (R105). -/
  ex : ProfAt
  /-- Master and slave position at engagement (R111), or the master position of x = 0 of a cam (R118). -/
  mBase : Int
  pBase : Int
  /-- Gearing ramps as ENGAGE=VEL does (R113). -/
  velRamp : Bool
  /-- x of the last tick; a TIME table counts it in steps of 125 ps. -/
  x : Int
  /-- The table that runs, and the one pending as a switch (R119). -/
  tbl : Nat
  pend : Option Nat
  /-- CAM_OUT waits for the next wrap. -/
  camOut : Bool
  /-- The master position of the last tick (R118). -/
  mPrev : Int
  /-- The feedback shift already carried (R110). -/
  fbShift : Int
  /-- FERR beyond its limit has been reported (R130). -/
  ferrOver : Bool
  /-- Homing (R135 to R137): search direction negative, reversed, travel since HOME and in phases 1 and 2, back-off done, indices seen,
  reference found, offset to apply at the next tick. -/
  hNeg : Bool
  hRev : Bool
  hDist : Nat
  hSrch : Nat
  hBack : Bool
  hIdx : Nat
  hRef : Option Int
  hApply : Bool
  /-- Time elapsed when HOME acted. -/
  hAt : Nat
  /-- The planned way that runs (R105, R109, R112, R123), and whether CONTINUE has asked for the rest of a move once the axis stands (R128). -/
  prof : Option MovePlan
  resume : Bool
  deriving DecidableEq, Repr

/-- An axis at reset. -/
def AxisSt.reset : AxisSt :=
  { quick := false, toIdle := false, coast := false, req := 0, ex := ⟨0, 0, 0⟩, mBase := 0, pBase := 0, velRamp := false, x := 0
    tbl := 0, pend := none, camOut := false, mPrev := 0, fbShift := 0
    ferrOver := false, hNeg := false, hRev := false, hDist := 0, hSrch := 0, hBack := false, hIdx := 0, hRef := none, hApply := false, hAt := 0
    prof := none, resume := false }


/-- A result on its way to a loop-core register (R185): the cycle from which it is visible, the cycle of its issue, the
register's key, the value, whether a multiplier produced it (R186), and whether it is the setting of a sticky flag. -/
structure LcPend where
  due : Nat
  iss : Nat
  key : Nat
  val : Nat
  mul : Bool
  sticky : Bool
  deriving DecidableEq, Repr

/-- One block repeat in progress (R190): its first bundle, the last word of its body, the iterations that remain and ROT. -/
structure LcRep where
  first : Nat
  last : Nat
  cnt : Nat
  rot : Bool
  deriving DecidableEq, Repr

/-- A flow change that waits for its delay slot (R188). -/
inductive LcFlow where
  /-- A branch or a return to a program word. -/
  | jump (tgt : Nat)
  /-- A call, which writes LINK with the address after the delay slot. -/
  | call (tgt iss : Nat)
  /-- BREAK of the innermost repeat. -/
  | brk
  /-- A conditional BR, CALL, RET or BREAK that was not taken: its delay slot still executes (R188). -/
  | stay
  deriving DecidableEq, Repr

/-- What level 0 runs: nothing, the run from word 0 of R218, or a sample of a task. -/
inductive LcAct where
  | idle
  | init
  | sample (task : Nat)
  deriving DecidableEq, Repr

/-- A released sample (R200): its task, its tick number, and the values of the tick ports at that tick (R204). -/
structure LcRel where
  task : Nat
  tick : Nat
  ports : SMap Nat
  deriving DecidableEq, Repr

/-- One loop core (Table 6-1): registers by key, results on their way, the level, the program counter and the cycle
count; the repeat stack and the waiting flow change of each level; AOV traps on their way; and the running sample. -/
structure LcSt where
  regs : SMap Nat
  pend : List LcPend
  level : Nat
  pc : Nat
  cyc : Nat
  reps : SMap (List LcRep)
  flow : SMap (Option LcFlow)
  traps : List Nat
  act : LcAct
  /-- Released samples that wait, in the order they run (R201). -/
  waiting : List LcRel
  /-- The release tick number of the running sample, its tick ports, its FLAGS word and its charged cycles (R204, R206). -/
  tick : Nat
  ports : SMap Nat
  flags : Nat
  charged : Nat
  /-- Cycles charged in the present tick (LOAD_MAX). -/
  load : Nat
  /-- The bound signals as frozen at the sample's start (R205) and the buffered OUT writes, by port (R203). -/
  sigin : SMap Nat
  out : SMap Nat
  /-- STAT.HALT and HALT_EPC. -/
  halt : Nat
  haltPc : Nat
  /-- The core has come out of FAULT and has not been loaded since: it serves no task (R220). -/
  bare : Bool
  deriving DecidableEq, Repr

/-- A loop core at reset. -/
def LcSt.reset : LcSt :=
  { regs := [], pend := [], level := 0, pc := 0, cyc := 0, reps := [], flow := [], traps := [], act := .idle, waiting := []
    tick := 0, ports := [], flags := 0, charged := 0, load := 0, sigin := [], out := [], halt := 0, haltPc := 0, bare := false }

/-- The operation in progress on `LSCH` (STAT.OP: 1 stitch-over, 2 fail-over, 3 restart): source, target, phase, whether
program and Y come from an image, its address, and the ticks waited since its copy ended (a fail-over: since its start). -/
structure LschOp where
  op : Nat
  src : Nat
  dst : Nat
  phase : Nat
  img : Bool
  addr : Nat
  wait : Nat
  /-- A restart met an image that failed its check (R218); the X pairs a fail-over replaced (R215). -/
  bad : Bool
  lost : Nat
  deriving DecidableEq, Repr

/-- What the update phase of a sample works from (R223, R225): the measured outputs, the inputs after their limiters, the
limited controls, which were limited, the master angle in 2⁻³² turns with the sign of its speed, and the sample's time. -/
structure CsWork where
  y : List Int
  r : List Int
  u : List Int
  lim : Nat
  theta : Nat
  sgn : Int
  repOn : Bool
  ts : BitVec 35
  /-- The active set was changed by a commit at this sample event: recompute or reload the state first (R241). -/
  fresh : Bool
  keep : Bool
  deriving DecidableEq, Repr

/-- What a control slot holds besides its registers. -/
structure CslotSt where
  /-- P of each control, in units of 2⁻⁴⁶ before the row's shift, and ŷ of each measured output, Q1.23 (R225). -/
  p : List Int
  yhat : List Int
  /-- The correction of the next sample, by control (R239). -/
  corr : List Int
  /-- LOOP inputs as released by TEND, and which of them have been written since the previous sample event (R234, R242). -/
  loopIn : SMap Int
  /-- The loop core that wrote each LOOP input last (R42). -/
  writer : SMap Nat
  written : Nat
  /-- The inputs after their limiters at the last sample (R235). -/
  rLim : List Int
  /-- Elapsed time of the last accepted sample event; conversion counts of the fast channels at it (R228), by channel. -/
  last : Option Nat
  seen : SMap Nat
  /-- Base ticks counted towards the next sample event of TICK, the tick whose event stands, and the time of the trigger taken last
  (R227). -/
  ticks : Nat
  trg : Option Nat
  took : Option Nat
  /-- Sample events without a LOOP write, and the count at which CSLOT_WDOG was raised since the last write, 0 none (R242). -/
  dog : Nat
  dogSaid : Nat
  /-- The fallback: elapsed time of its start and its integrator in 2⁻⁴⁶ (R243). -/
  rtFrom : Nat
  fbI : Int
  /-- RT_EXPIRED was raised in this fallback. -/
  expired : Bool
  /-- The update phase that waits. -/
  work : Option CsWork
  /-- The repetitive tables: bin b of channel c at 4,096 c + b, Q1.23 (R236). -/
  tab : SMap Int
  /-- The implausible samples counted have been reported (R235). -/
  told : Bool
  deriving DecidableEq, Repr

/-- A control slot at reset. -/
def CslotSt.reset : CslotSt :=
  { p := [0, 0, 0, 0], yhat := [0, 0, 0, 0], corr := [0, 0, 0, 0], loopIn := [], writer := [], written := 0, rLim := [0, 0, 0, 0]
    last := none, seen := [], ticks := 0, trg := none, took := none, dog := 0, dogSaid := 0, rtFrom := 0, fbI := 0, expired := false, work := none
    tab := [], told := false }

/-- One pair of a PWM module. -/
structure PwmPair where
  /-- The fraction in the compare shadow (R230), whether one has arrived since the source was lost (R270), and one on its way: the elapsed
  time at which it reaches the shadow and the fraction (R231, R255). -/
  frac : Nat
  fresh : Bool
  inc : Option (Nat × Nat)
  /-- The compare or fraction of the last load, as its source gave it (R259). -/
  raw : Nat
  /-- The on-time delivered in this period: the one that placed the leading edge and the one that places the trailing edge. -/
  d1 : Nat
  d2 : Nat
  /-- The CARRY accumulators (R258). -/
  qh : Nat
  ql : Nat
  /-- The force in effect (R262). -/
  force : Nat
  /-- Level and time of the reference's last change before the present period. -/
  lvl : Bool
  at_ : Nat
  /-- The times from which H and L may be active since the cause that drives them last changed (R262, R263). -/
  hOn : Nat
  lOn : Nat
  deriving DecidableEq, Repr

/-- A pair at reset. -/
def PwmPair.reset : PwmPair := ⟨0, false, none, 0, 0, 0, 0, 0, 0, false, 0, 0, 0⟩

/-- What a PWM module holds besides its registers. -/
structure PwmSt where
  /-- The counter runs; time of the last zero event and of the period event of this period. Before the first zero event: of a module
  that follows the ticks, its time; of one that follows a master, the time of START (R261). -/
  run : Bool
  zero : Nat
  mid : Option Nat
  anchor : Nat
  /-- The period in use, in steps, and the one the present period began with, which places its first half (R252, R255). -/
  per : Nat
  half : Nat
  pairs : List PwmPair
  /-- Events counted since START by each trigger output, and how often each has fired (R260). -/
  evts : List Nat
  fired : List Nat
  deriving DecidableEq, Repr

/-- A module at reset. -/
def PwmSt.reset : PwmSt :=
  { run := false, zero := 0, mid := none, anchor := 0, per := 0, half := 0, pairs := [.reset, .reset, .reset], evts := [0, 0, 0, 0]
    fired := [0, 0, 0, 0] }

/-- What a fast channel holds besides its registers: results since reset (R228), the effective trigger that waits or
converts (R279), the time its conversion starts, whether an INTERVAL is open (R280), and consecutive results outside the
limits (R283). Its times are elapsed times: a step of device time does not move what the island counts (R278, R379). -/
structure FchSt where
  seq : Nat
  trig : Option Nat
  start : Nat
  isOpen : Bool
  outN : Nat
  /-- The time of the last conversion end (R227). -/
  endAt : Option Nat
  /-- The effective triggers due (R278), the base ticks counted towards the next one, and the last one taken. -/
  due : List Nat
  ticks : Nat
  took : Option Nat
  /-- The converter that makes the conversion (R285); when the grid of INTERVAL starts and its present interval began (R280). -/
  by_ : Nat
  grid : Nat
  prev : Nat
  /-- The positions of the ENC channels, in 2⁻¹⁶ counts, latched at the trigger of the conversion in progress and of the one that
  ended last (R229). -/
  latch : SMap Int
  endLatch : SMap Int
  deriving DecidableEq, Repr

/-- A fast channel at reset. -/
def FchSt.reset : FchSt := ⟨0, none, 0, false, 0, none, [], 0, none, 0, 0, 0, [], []⟩

/-- What a converter group holds besides its registers (R284 to R290). -/
structure FcgSt where
  /-- Queued calibrations, next first; the converter under calibration; whether it is taken over. -/
  queue : List Nat
  cur : Option Nat
  take : Bool
  /-- Elapsed time at which the present phase began, pairs compared and the sum of their differences in 2⁻⁸ LSB of q. -/
  since : Nat
  pairs : Nat
  diff : Int
  /-- The working copy: offset and gain. -/
  copy : Int × Nat
  /-- The comparison of the present phase has passed. -/
  passed : Bool
  /-- The working converter the bobbin carries, one to park at its next conversion, and a handback that is due:
  with the new coefficients or the old ones. -/
  carry : Option Nat
  toPark : Option Nat
  back : Option Bool
  /-- Elapsed times of the last calibrations, by converter, and the next one of AUTO (R290). -/
  age : SMap Nat
  auto : Nat
  /-- The start-up calibration is in hand, or waits for the calibration in hand (R291). -/
  startup : Bool
  /-- The elapsed time at which each converter is awake and free of the conversions that have ended (R277, R279). -/
  free : SMap Nat
  /-- The elapsed time at which the first period of each group timer that runs began, by timer (Table 10-4); the elapsed time AUTO last
  queued (R290). -/
  timers : SMap Nat
  autoAt : Nat
  deriving DecidableEq, Repr

/-- A converter group at reset. -/
def FcgSt.reset : FcgSt :=
  { queue := [], cur := none, take := false, since := 0, pairs := 0, diff := 0, copy := (0, 0), passed := false, carry := none
    toPark := none, back := none, age := [], auto := 0, startup := false, free := [], timers := [], autoAt := 0 }

/-- What a precision converter holds besides its registers (R299 to R302): elapsed time the scan began, scans since START, the CAL
conversions still to make (gain, reference or zero), offsets measured and coefficients that apply from the next scan, the
open-wire tests passed in a row, by channel, and the channel being converted with the elapsed time of its next word. -/
structure PcvSt where
  from_ : Nat
  scans : Nat
  cal : List (Nat × Bool)
  first : Bool
  zero : SMap Int
  next : List (Nat × Int × Int)
  good : SMap Nat
  conv : Option (Nat × Nat)
  deriving DecidableEq, Repr

/-- A precision converter at reset. -/
def PcvSt.reset : PcvSt := { from_ := 0, scans := 0, cal := [], first := false, zero := [], next := [], good := [], conv := none }

/-- What a library block remembers from cycle to cycle (R321, Table 11-2): whether it has been evaluated, the inputs of the last
cycle whose edges count (M of an edge detector, CU, CD), its output, a timer's running state and start instant in µs of
bench time, a counter's value, and the data of a block whose computation Table 11-2 only names. -/
structure LeFb where
  used : Bool
  m : Bool
  m2 : Bool
  q : Bool
  run : Bool
  start : Nat
  cv : Int
  data : List Byte
  deriving DecidableEq, Repr

/-- A block that has not been evaluated. -/
def LeFb.new : LeFb := ⟨false, false, false, false, false, 0, 0, []⟩

/-- One block instance of a logic program (Table 11-4) with its data, and the memory of the library blocks in it, each under
the parts of user blocks that lead to it; `kept` marks an instance of a standby slot that is matched and takes its data from
the running slot at the switch (R321). -/
structure LeInst where
  id : Nat
  typ : Nat
  bench : Nat
  hash : Nat
  data : List Byte
  fb : List (List Nat × LeFb)
  kept : Bool
  deriving DecidableEq, Repr

/-- One entry of a program's signal list (R311). -/
structure LeSig where
  id : Nat
  bench : Nat
  typ : Nat
  out : Bool
  deriving DecidableEq, Repr

/-- One program slot of a logic engine (R305): the image it was loaded from and the CRC of that image, its code bytes, its
instances and signal list, for each bench its code entry and its code, and the user blocks the image defines (R309). -/
structure LeSlot where
  src : Nat
  crc : Word
  code : Nat
  insts : List LeInst
  list : List LeSig
  entry : List Nat
  prog : List LeCode
  env : List (Nat × LeCode)
  deriving DecidableEq, Repr

/-- One bench (R313, R314). -/
structure LeBench where
  /-- The release whose cycle has not ended, and the last release, in elapsed time. -/
  rel : Option Nat
  last : Option Nat
  /-- The cycle is in progress. -/
  run : Bool
  /-- The snapshot of the signals on the read list. -/
  snap : List (Nat × BitVec 64)
  deriving DecidableEq, Repr

/-- What a logic engine holds besides its registers. -/
structure LeSt where
  slot0 : Option LeSlot
  slot1 : Option LeSlot
  /-- T₀ of R313, in elapsed time: a whole microsecond of bench time. -/
  t0 : Nat
  benches : List LeBench
  /-- The image address of the load in progress. -/
  src : Option Nat
  deriving DecidableEq, Repr

/-- A bench at rest. -/
def LeBench.reset : LeBench := ⟨none, none, false, []⟩

/-- A logic engine at reset. -/
def LeSt.reset : LeSt :=
  { slot0 := none, slot1 := none, t0 := 0, benches := [.reset, .reset, .reset, .reset], src := none }

/-- One step of a recipe (Table 12-2). -/
structure RStep where
  dur : Nat
  kind : Nat
  fin : Bool
  rest : Bool
  first : Nat
  num : Nat
  cond : Nat
  op : Nat
  nxt : Nat
  val : Word
  arg : Nat
  deriving DecidableEq, Repr

/-- One action of a recipe (Table 12-2). -/
structure RAct where
  sig : Nat
  kind : Nat
  t : Nat
  val : BitVec 64
  deriving DecidableEq, Repr

/-- One bank of a recipe stepper: the recipe loaded into it (Table 12-1). -/
structure RBank where
  steps : List RStep
  acts : List RAct
  entry : Nat
  hold : Nat
  abort : Nat
  id : Word
  crc : Word
  deriving DecidableEq, Repr

/-- A running ramp (R340): from `s` to `g` over `n` clocks, `j` of them done; or a running pulse (R339): its end value `g`
and the `n` clocks left. -/
structure RRun where
  sig : Nat
  pulse : Bool
  s : Int
  g : Int
  n : Nat
  j : Nat
  deriving DecidableEq, Repr

/-- The end of a step, decided at an edge (R334): the successor and the cause, or a hold or abort branch. -/
inductive REnd where
  | next (dest cause : Nat)
  | hold (cause : Nat)
  | abort (cause : Nat)
  deriving DecidableEq, Repr

/-- One entry of the transition log (R345). -/
structure TEnt where
  word : Word
  ts : BitVec 35
  deriving DecidableEq, Repr

/-- What a recipe stepper holds besides its registers. -/
structure RseqSt where
  bank0 : Option RBank
  bank1 : Option RBank
  /-- Present step, its path and bank, and the clocks since its entry. -/
  cur : Nat
  path : Nat
  bank : Nat
  el : Nat
  /-- Loop counters by step (R336). -/
  loops : SMap Nat
  runs : List RRun
  /-- Pending hold and abort requests with their causes (R341). -/
  holdReq : Option Nat
  abortReq : Option Nat
  /-- HOLD_FROM: the interrupted step and its elapsed clocks; whether CONTINUE enters the ENTRY of the active bank (R343). -/
  held : Option (Nat × Nat)
  atEntry : Bool
  /-- The end values of the pulses of the present step and of the interrupted one, by signal (R339, R342). -/
  ends : SMap Int
  heldEnds : SMap Int
  /-- Device time and elapsed time of the last edge; what that edge decided and has not yet come about. -/
  edge : BitVec 35
  last : Option Nat
  ending : Option REnd
  timeout : Bool
  /-- The transition log, oldest first. -/
  log : List TEnt
  /-- The image address and the bank of the load in progress. -/
  src : Option (Nat × Nat)
  deriving DecidableEq, Repr

/-- A recipe stepper at reset. -/
def RseqSt.reset : RseqSt :=
  { bank0 := none, bank1 := none, cur := 0, path := 0, bank := 0, el := 0, loops := [], runs := [], holdReq := none,
    abortReq := none, held := none, atEntry := false, ends := [], heldEnds := [], edge := 0, last := none, ending := none, timeout := false
    log := [], src := none }

/-- One marker of a record (Table 13-6): its KIND, source and OPEN bit, the number of the first frame after the event since the
record's first, and its last two words. -/
structure AcqMark where
  kind : Nat
  src : Nat
  isOpen : Bool
  frame : Nat
  w2 : Word
  w3 : Word
  deriving DecidableEq, Repr

/-- One stored frame: its words and the record time of its first sample. -/
structure AcqFrame where
  at_ : Nat
  ws : List Word
  deriving DecidableEq, Repr

/-- What an acquisition unit holds besides its registers. -/
structure AcqSt where
  /-- The first instant of the sample grid, in elapsed time, and the last sample taken. -/
  grid : Nat
  last : Option Nat
  /-- The samples of the present frame, newest first, and the record time of the first of them. -/
  grp : List (List (BitVec 64))
  grpAt : Nat
  /-- The frames of the record: those before the trigger, oldest first, and those after it. -/
  pre : List AcqFrame
  post : List AcqFrame
  /-- Frames dropped from the pre-trigger ring; the ring index of the next frame. -/
  dropped : Nat
  ring : Nat
  /-- A trigger has been accepted; the record time of its sample, once taken. -/
  trig : Bool
  trigAt : Option Nat
  /-- The trigger source's previous value; which slopes a crossing has disarmed (R364). -/
  prev : Option Int
  offUp : Bool
  offDown : Bool
  /-- The trigger bus line has risen since the last look; LOG_SEQ at the last look. -/
  busDue : Bool
  seen : Nat
  /-- Markers, oldest first, and markers lost; the elapsed and the device time of the last publication of each link source. -/
  marks : List AcqMark
  lost : Nat
  pubs : SMap (Nat × Nat)
  /-- A source has been sampled while forced, or at its safe value. -/
  forced : Bool
  safe : Bool
  /-- The trigger output is driven. -/
  drive : Bool
  /-- PUBCNT of SRC[0] at the last look (EVENT pacing); elapsed time of the sample that completed the post-trigger frames (R367). -/
  evSeen : Word
  full : Option Nat
  /-- A record begins at the next sample instant: after START, or after REARM has ended (R367, R373). -/
  toBegin : Bool
  deriving DecidableEq, Repr

/-- An acquisition unit at reset. -/
def AcqSt.reset : AcqSt :=
  { grid := 0, last := none, grp := [], grpAt := 0, pre := [], post := [], dropped := 0, ring := 0, trig := false,
    trigAt := none, prev := none, offUp := false, offDown := false, busDue := false, seen := 0, marks := [], lost := 0,
    pubs := [], forced := false, safe := false, drive := false, evSeen := 0, full := none, toBegin := false }

/-- An entry of the history that recording has written over while an export ran (R371): the wrap count under which it stood, its address and its
words. -/
structure HistOld where
  wrap : Nat
  at_ : Nat
  ws : List Word
  deriving DecidableEq, Repr

/-- An export in progress (R371): its kind, unit and sequence number as read at the command, and whether recording has written
over its source since; of a record whether the slot holds it, the PRE and POST of its layout and the words written over, by address;
of the history the entries written over, oldest first. -/
structure RecExp where
  kind : Nat
  unit : Nat
  seq : Word
  src : Nat
  upTo : Nat
  dst : Nat
  limit : Nat
  hit : Bool
  found : Bool
  pre : Nat
  post : Nat
  old : List (Nat × Word)
  oldEnts : List HistOld
  deriving DecidableEq, Repr

/-- The table a LOAD of SIG reads: its address, first ID, length and CRC (R353). -/
structure SigLoad where
  src : Nat
  first : Nat
  n : Nat
  crc : Word
  deriving DecidableEq, Repr

/-- The DRAM partition and the record-store share (R29, Table 20-4), sizes in MiB. -/
structure DramPart where
  recMib : Nat
  apMib : Nat
  loopMib : Nat
  share : Bool
  deriving DecidableEq, Repr

/-- A step of device time that waits (R378): its steps and, once it has been announced, the extended time at which it
applies; `late` marks an announcement received after its time (R389). -/
structure TimeStep where
  steps : Int
  at_ : Option Nat
  late : Bool
  deriving DecidableEq, Repr

/-- One port's transmit timestamp (R383). -/
structure TxqEnt where
  seq : Nat
  msg : Nat
  nonPtp : Bool
  ts : BitVec 35
  deriving DecidableEq, Repr

/-- What a Draora Link port holds besides its registers. -/
structure DlkSt where
  /-- The number of the next frame; the departures of the last frames by number; the last good frame and its arrival, in elapsed time. -/
  fseq : Nat
  sent : List (Nat × Nat)
  rx : Option (Nat × Nat)
  /-- The last 64 round trips, newest first (R392). -/
  rts : List Int
  /-- Records and trigger events that wait for this port, oldest first; each event with the frames it still goes into. -/
  recs : List LinkRec
  evs : List (TrgEv × Nat)
  /-- The last frame sent. -/
  tx : Option LinkFrame
  deriving DecidableEq, Repr

/-- A link port at reset. -/
def DlkSt.reset : DlkSt := ⟨0, [], none, [], [], [], none⟩

/-- What the DMA of the endpoint, the host serial port's replies and the Ethernet ports send out of the device. -/
structure HostWr where
  addr : Nat
  bytes : List Nat
  deriving DecidableEq, Repr

/-- The reply of the host serial port: RSTAT, the data words and the CRC (Table 16-4). -/
structure HspReply where
  rstat : Word
  data : List Word
  crc : Nat
  deriving DecidableEq, Repr

/-- What the host serial port holds besides its registers: the flags the next reply shows of the previous frame ([4:0] of
RSTAT), ALIVE of the last good frame, its elapsed time, and the last reply. -/
structure HspSt where
  prev : Nat
  alive : Option Nat
  at_ : Nat
  reply : Option HspReply
  deriving DecidableEq, Repr

/-- The host serial port at reset. -/
def HspSt.reset : HspSt := ⟨0, none, 0, none⟩

/-- What a memory serial port holds besides its registers: its cache as line number and bytes, newest first, at most four lines of a
set; the last line fetched by a miss; when its indirect operation began (R440, R441). -/
structure MspSt where
  lines : List (Nat × List Nat)
  last : Option Nat
  since : Nat
  deriving DecidableEq, Repr

/-- A memory serial port at reset. -/
def MspSt.reset : MspSt := ⟨[], none, 0⟩

/-- What a peripheral serial port holds besides its registers: base ticks since START, the
elapsed time at which the frame in progress ends, bad frames in a row, a safe frame that is due and one that is being sent, and the words
of the last frame. `trig`: a frame is in progress. -/
structure PspSt where
  ticks : Nat
  trig : Bool
  until_ : Nat
  bad : Nat
  safe : Bool
  sending : Bool
  tx : List Word
  deriving DecidableEq, Repr

/-- A peripheral serial port at reset. -/
def PspSt.reset : PspSt := ⟨0, false, 0, 0, false, false, []⟩

/-- One learned address of the switch (R446): the address, its port and the elapsed time it was last seen. -/
structure EthAddr where
  mac : Nat
  port : Nat
  seen : Nat
  deriving DecidableEq, Repr

/-- A frame that left an Ethernet port: its port, egress queue, bytes and device time. -/
structure EthOut where
  port : Nat
  queue : Nat
  bytes : List Nat
  ts : BitVec 35
  deriving DecidableEq, Repr

/-- What a message object of CAN holds besides its staged words (R457 to R462): data bytes, received header, timestamp and
OBJ_INFO; the attempts its request has lost in arbitration and to errors, when it was made, whether it is cancelled while on
the bus, and whether a new one follows it. -/
structure CanObj where
  data : List Nat
  hdr : Word
  ts : BitVec 35
  info : Word
  arb : Nat
  errs : Nat
  reqAt : Nat
  cancel : Bool
  again : Bool
  deriving DecidableEq, Repr

/-- A message object at reset. -/
def CanObj.reset : CanObj := ⟨[], 0, 0, 0, 0, 0, 0, false, false⟩

/-- What a CAN controller holds besides its registers: its objects, the number within the queue of each head's next object, the
elapsed time of each queue's last frame, the receive error counter, and the last frame sent. -/
structure CanSt where
  objs : SMap CanObj
  ring : SMap Nat
  seen : SMap Nat
  rxErr : Nat
  txErr : Nat
  sent : Option CanFrame
  recAt : Nat
  occ : Nat
  deriving DecidableEq, Repr

/-- A CAN controller at reset. -/
def CanSt.reset : CanSt := ⟨[], [], [], 0, 0, none, 0, 0⟩

/-- One field die (R474, R475, R484): refreshes in a row without a good input frame, the elapsed time of the last good output
frame, SAFE_HELD, and the commanded and the safe outputs it holds. -/
structure DioDie where
  miss : Nat
  frame : Int
  held : Bool
  cmd : BitVec 8
  safe : BitVec 8
  safeT : Nat
  deriving DecidableEq, Repr

/-- A field die without power. -/
def DioDie.reset : DioDie := ⟨0, 0, false, 0, 0, 100⟩

/-- What the field interface holds besides its registers (R473 to R485): the drive latch of PD0, the transformer drive, the elapsed
time of the last EN=1, the dies, accepted input levels, outputs a diagnostic has switched off, CLEAR_DIAG and a release
that act at the next refresh, refreshes in a row with a readback that differs, and OUT_STATE's reference. -/
structure DioSt where
  drive : Bool
  power : Bool
  enAt : Nat
  die0 : DioDie
  die1 : DioDie
  acc : BitVec 32
  off : BitVec 16
  clear : Bool
  release : Bool
  rb : SMap Nat
  deriving DecidableEq, Repr

/-- The field interface at reset. -/
def DioSt.reset : DioSt := ⟨false, false, 0, .reset, .reset, 0, 0, false, false, []⟩

/-- The one-time-programmable memory (R491 to R497, R506): life-cycle state, CFG.SECBOOT, root hashes and their revocations, the
debug key hash, and MIN_VER by image kind. -/
structure OtpSt where
  lc : Nat
  secBoot : Bool
  roots : SMap (List Nat)
  revoked : BitVec 4
  dbgKey : List Nat
  minVer : SMap Nat
  deriving DecidableEq, Repr

/-- One key-store slot (R502): USE, LOCK and the value as the key store holds it. -/
structure KeySlot where
  use : Nat
  lock : Bool
  value : List Nat
  deriving DecidableEq, Repr

/-- One entry of the tamper log (R505). -/
structure TampEnt where
  sensor : Nat
  level : Nat
  at_ : Nat
  deriving DecidableEq, Repr

/-- The state of the device. -/
structure State where
  /-- Extended time (R374), in steps of 125 ps, at the latest event; and the sum of the steps applied to it (R379),
  which bench time, recipe clocks and sample instants ignore (R376). -/
  now : Nat
  stepSum : Int
  /-- The last step of device time (R379): the elapsed time at which it applied, and its steps. -/
  lastStep : Nat × Int
  /-- Power domains that are on (R30), bit d for PDd. -/
  dom : BitVec 14
  /-- The register pages, by page key. -/
  pages : SMap Page
  /-- The signal table and the process image, by signal ID (R14). -/
  sigs : SMap SigEntry
  slots : SMap Slot
  /-- The process image as it stood at the starts of the last two base ticks, the later one first (R101). -/
  img1 : SMap Slot
  img2 : SMap Slot
  /-- Publications of a signal since its REC_DIV was set (R352), modulo REC_DIV. -/
  recCnt : SMap Nat
  /-- Bytes of the addressed memories: loop-core memories, shared SRAM, pricking stores, DRAM (Table 1-10). -/
  mem : List Host.Cell
  /-- The force table in PD7 and its retention store in PD0 (R331), by entry number. -/
  frc : SMap ForceEnt
  frcKeep : SMap ForceEnt
  /-- The fault log, oldest first (R412), and the LEVEL sources held (R404). -/
  flog : List FltEnt
  holds : List Hold
  /-- When the recovery of a group times out (R417), by group. -/
  recDue : SMap Nat
  /-- The fabric error log, oldest first (R32). -/
  fabLog : List FabEnt
  /-- Distributor line of a page, by page key (R64). -/
  irqMap : SMap Nat
  /-- The lines the distributor has seen asserted (R64, R66). -/
  irqOn : BitVec 256
  /-- MSI-X table words, pending bits and function mask (R429), and the vectors of the messages sent, newest first. -/
  msixTbl : SMap Word
  msixPend : BitVec 64
  msixMask : Bool
  msixSent : List Nat
  /-- Feedback channels, by instance. -/
  encs : SMap EncSt
  ssns : SMap SsnSt
  /-- Compare units and step channels, by instance. -/
  pcmps : SMap PcmpSt
  steps : SMap StepSt
  /-- Axes, by instance. -/
  axes : SMap AxisSt
  /-- The elapsed time of a DRAM controller's last background pass, by controller (R35). -/
  scrubAt : SMap Nat
  /-- The table a CHECK scans, by PRK page. -/
  prkSel : SMap Nat
  /-- The four user microstep tables (R167): word w of table k at 512 k + w. -/
  ustp : SMap Word
  /-- Loop cores, by instance; the base ticks counted, whether the next one is tick 0 of the scheduler; what FLAGS shows of a
  task's next sample (bit 0 FIRST, 1 MOVED, 2 RESTORED, 3 OVR_PREV); and the LSCH operation in progress. -/
  lcs : SMap LcSt
  lschTick : Nat
  lschZero : Bool
  /-- The tick at which tick numbers of the scheduler start (R200). -/
  lschT0 : Nat
  taskFlags : SMap Nat
  lschOp : Option LschOp
  /-- Failed cores whose fail-over waits for the operation in progress. -/
  lschFoQ : List Nat
  /-- Control slots, by instance; the update phases that wait on each control engine, in order (R223). -/
  cslots : SMap CslotSt
  ceQ : SMap (List Nat)
  /-- PWM modules, by instance; the levels of the fault pins; whether the PWM island clock is lost (R266). -/
  pwms : SMap PwmSt
  finRaw : BitVec 16
  pwmClkLost : Bool
  /-- What each commit mirrors into PD0 of a pair's polarities and safe levels, bits 4 to 7, by 4 n + p (R266). -/
  pwmPads : SMap Word
  /-- Fast channels, converter groups and precision converters, by instance. -/
  fchs : SMap FchSt
  fcgs : SMap FcgSt
  pcvs : SMap PcvSt
  /-- Logic engines and recipe steppers, by instance. -/
  les : SMap LeSt
  rseqs : SMap RseqSt
  /-- Acquisition units, by instance. -/
  acqs : SMap AcqSt
  /-- SIG: the ID whose entry is being copied into the window, and the LOAD in progress. -/
  sigCopy : Option Nat
  sigLoad : Option SigLoad
  /-- The history ring: the index of its next entry, its entries, the wrap count of its oldest entry; the present second and
  its appends; the export in progress; the DRAM partition. -/
  histPos : Nat
  histCnt : Nat
  histWrap : Nat
  histSec : Nat × Nat
  recExp : Option RecExp
  part : DramPart
  /-- TIME: the last base tick edge, the step that waits, the last announcement applied, the elapsed time of the last
  adjustment, when a JOIN times out and its good frames in a row (R376 to R391). -/
  tickAt : Int
  timeStep : Option TimeStep
  stepDone : Option (Int × Nat)
  adjAt : Option Nat
  joinDue : Option Nat
  joinCnt : Nat
  /-- The slave has been aligned by a JOIN and may resume PHASE 2 (R391). -/
  joinOk : Bool
  /-- The trigger bus (R394): pin levels, local levels, the levels consumers see; events not yet due and those applied. -/
  trgPin : BitVec 8
  trgLocal : BitVec 8
  trgSeen : BitVec 8
  /-- The extended time at which each line last changed for its consumers (R153). -/
  trgAt : SMap Nat
  trgQ : List TrgEv
  trgDone : List TrgEv
  /-- The elapsed time at which each node last stood in a NODES word (R396), by node; link ports, by instance. -/
  nodeGap : SMap Nat
  dlks : SMap DlkSt
  /-- The transmit timestamp queues of PTP (R383), by port. -/
  txq : SMap (List TxqEnt)
  /-- What DMA wrote into host memory, newest first; the host serial port; memory and peripheral serial ports, by instance. -/
  hostOut : List HostWr
  hsp : HspSt
  msps : SMap MspSt
  psps : SMap PspSt
  /-- The switch's address table; the frames that left the Ethernet ports, newest first. -/
  ethTbl : List EthAddr
  ethOut : List EthOut
  /-- The application core that restarts and the elapsed time at which it times out (R448); cores halted by a debug halt, and
  the engines whose halt is a debug halt (R42). -/
  apRestart : Option (Nat × Nat)
  apHalt : BitVec 2
  dbgHalt : List Engine
  /-- CAN controllers, by instance; the field interface. -/
  cans : SMap CanSt
  dio : DioSt
  /-- OTP, the key store and its loss, the security versions that run by kind, when the last UNLOCK failed, the tamper log,
  `VBAT_TIME` at elapsed time 0, and the boundary-scan instruction selected (R491 to R505). -/
  otp : OtpSt
  keys : SMap KeySlot
  runVer : SMap Nat
  failAt : Int
  tampLog : List TampEnt
  vbatBase : Nat
  jtag : JtagInstr
  /-- PWR: domains that still go off and on, the one in progress first (R510); training results kept for PD12. -/
  swOff : List Nat
  swOn : List Nat
  trained : Bool
  /-- The levels at the pads of GPIO, and what they are driven by from outside. -/
  padIn : BitVec 616
  /-- Continuous history (R357): the queue, oldest first, and entries lost since the last LOST mark. -/
  histQ : List HistEnt
  histLost : Option (Nat × BitVec 35 × Word)
  /-- The answer of the last access a master made. -/
  resp : Resp
  /-- How many free values have been taken: the argument of the next one (the model's own field). -/
  seed : Nat
  /-- The commands that wait, first in first out. -/
  pending : List Instr
  deriving DecidableEq, Repr

/-- The type codes of the pages whose PGCTL.EN resets to 1 whatever the boot configuration says (Table 2-4):
SYS, PWR, CLK, SEC, TAMP, FLT, TIME, FAB, MEM, APC and DBG. -/
def enCodes : List Nat := [0x01, 0x02, 0x03, 0x04, 0x05, 0x06, 0x07, 0x09, 0x0A, 0x38, 0x3E]

/-- The type codes of the pages that are in IDLE after reset: a loop core whose domain is on (R220), and the scheduler (R218). -/
def idleCodes : List Nat := [0x18, 0x19]

/-- A page as reset leaves it (Table 2-2, Table 2-4): the pages of `enCodes` in RUN, those of `idleCodes` in IDLE, the others in
OFF, every register at its reset value, DBGSAFE 1, nothing staged or pending. -/
def Page.reset (k : Nat) : Page :=
  let on := enCodes.contains (k / 256)
  { regs := [], staged := [], st := if on then .run else if idleCodes.contains (k / 256) then .idle else .off
    en := on || k / 256 == 0x19, freeze := false, dbgSafe := true
    locked := false, key := .idle, lastCmd := 0, cmd := none, commit := .none, dirty := false, busy := false
    prog := 0, err := 0, intRaw := 0, intEn := 0, pos := 0, frozen := false, snap := [], wlow := [] }

/-- The device right after a power-on reset, before its start-up sequence (t = 0 of Table 20-3): only PD0 has power,
every page is at its reset values, the memories list nothing, and no command waits. -/
def State.reset : State :=
  { now := 0, stepSum := 0, lastStep := (0, 0), dom := 1, pages := [], sigs := [], slots := [], img1 := [], img2 := [], recCnt := [], mem := []
    frc := [], frcKeep := [], flog := [], holds := [], recDue := [], fabLog := [], irqMap := [], irqOn := 0
    msixTbl := [], msixPend := 0, msixMask := false, msixSent := [], encs := [], ssns := [], pcmps := [], steps := [], axes := [], scrubAt := [], prkSel := [], ustp := [], lcs := [], lschTick := 0, lschZero := false, lschT0 := 0, taskFlags := [], lschOp := none, lschFoQ := [], cslots := [], ceQ := [], pwms := [], finRaw := 0, pwmClkLost := false, pwmPads := [], fchs := [], fcgs := [], pcvs := [], les := [], rseqs := []
    acqs := [], sigCopy := none, sigLoad := none, histPos := 0, histCnt := 0, histWrap := 0, histSec := (0, 0)
    recExp := none, part := ⟨12288, 3584, 512, false⟩, tickAt := 0, timeStep := none, stepDone := none, adjAt := none
    joinDue := none, joinCnt := 0, joinOk := false, trgPin := 0, trgLocal := 0, trgSeen := 0, trgAt := [], trgQ := [], trgDone := [], nodeGap := []
    dlks := [], txq := [], histQ := [], histLost := none
    hostOut := [], hsp := .reset, msps := [], psps := [], ethTbl := [], ethOut := [], apRestart := none, apHalt := 0
    dbgHalt := [], cans := [], dio := .reset, otp := ⟨2, false, [], 0, [], []⟩, keys := [], runVer := [], failAt := 0
    tampLog := [], vbatBase := 0, jtag := .bypass, swOff := [], swOn := [], trained := false, padIn := 0
    resp := ⟨0, 0, .ok⟩, seed := 0
    pending := [] }

end Sys2Proof.Machine
end

