-- ==== Sys2Proof/Machine/Ops.lean ====
section
/-! DEFINITION. The named operations every block shares: a page, a register, a rejection, an interrupt, progress,
states, memory bytes and free values. -/
namespace Sys2Proof.Machine

/-! ## Pages and registers -/

/-- A page of the state. -/
def State.page (s : State) (k : Nat) : Page := SMap.get Page.reset s.pages k

/-- The state with one page replaced. -/
def State.setPage (s : State) (k : Nat) (p : Page) : State :=
  { s with pages := SMap.set Page.reset s.pages k p }

/-- The state with one page changed. -/
def State.modPage (s : State) (k : Nat) (f : Page → Page) : State := s.setPage k (f (s.page k))

/-- The default reaction code of each fault source (Table 15-2), for REACT. -/
def reactDefault : List Nat :=
  [0, 5, 5, 5, 4, 4, 4, 4, 4, 4, 2, 4, 2, 4, 4, 2, 2, 4, 3, 2, 1, 2, 5, 2, 2, 2, 3, 2, 2, 2, 2, 2, 2, 2, 1, 5, 2]

/-- The sources of Table 15-2 whose SRC_MASK resets to all ones (R405): the device-wide ones. -/
def deviceWide : List Nat := [0x18, 0x19, 0x1B, 0x1C, 0x1D, 0x1E, 0x1F, 0x20, 0x21, 0x22, 0x23]

/-- The reset value of a register whose map gives a rule instead of a number: SRC_MASK (R405), REACT (Table 15-2),
IRQ_ROUTE_T (R65), REGION (Table 13-2), RST_CAUSE (R515), DOM_EN (R516), the converter masks are in the map itself.
Boot-dependent registers read 0 until POWER_ON_RESET writes them. -/
def regResetRule (t : PgTy) (off : Nat) : Option Word :=
  match t with
  | .flt =>
    if 0x380 ≤ off && off < 0x480 then some (if deviceWide.contains ((off - 0x380) / 4) then 0xFFFFFFFF else 0)
    else if 0x600 ≤ off && off < 0xA00 then
      some (ofN (0x11111111 * (reactDefault.getD ((off - 0x600) / 16) 0)))
    else none
  | .sys => if off == 0x830 then some 0x05000000 else if off == Reg.SYS.RST_CAUSE then some 1 else none
  | .pwr => if off == Reg.PWR.DOM_EN then some 1 else none
  | .ustp => if 0x100 ≤ off && off < 0x900 then some (builtinWord ((off - 0x100) / 4)) else none
  | .recStore =>
    if Reg.REC.REGION ≤ off && off < Reg.REC.REGION + 64 then
      some (ofN (256 * 65536 + 8192 + 256 * ((off - Reg.REC.REGION) / 4)))
    else none
  | _ => none

/-- The reset value of a register of a page type. -/
def regReset (t : PgTy) (off : Nat) : Word :=
  match regResetRule t off with
  | some w => w
  | none => match regRow t off with
    | some r => r.reset
    | none => 0

/-- The bits a word of a page stores (R3): pads 608 to 615 are the last of the GPIO bitmaps (R542), and the words of the SIG window
differ (Table 1-6). -/
def regMask (t : PgTy) (off : Nat) : Word :=
  match regRow t off with
  | none => 0
  | some r =>
    if t = .gpio ∧ 0x300 ≤ off ∧ (off - 0x300) % 0x80 = 0x4C then 0xFF
    else if t = .sig ∧ off = 0x048 then 0x3F3
    else if t = .sig ∧ off = 0x050 then 0xFFFF
    else r.mask

/-- The value in force of a block register (for RS registers the active one, R46). -/
def rg (s : State) (t : PgTy) (n off : Nat) : Word := SMap.get (regReset t) (s.page (pk t n)).regs off

/-- A page with one register in force replaced. -/
def Page.wr (t : PgTy) (off : Nat) (v : Word) (p : Page) : Page :=
  { p with regs := SMap.set (regReset t) p.regs off v }

/-- The state with one register in force replaced. -/
def wr (s : State) (t : PgTy) (n off : Nat) (v : Word) : State := s.modPage (pk t n) (Page.wr t off v)

/-- The staged value of an RS register: the written one, else the active one (R46). -/
def staged (s : State) (t : PgTy) (n off : Nat) : Word :=
  let p := s.page (pk t n)
  match p.staged.find? (fun e => e.1 == off) with
  | some e => e.2
  | none => SMap.get (regReset t) p.regs off

/-- A field of a register in force. -/
def rf (s : State) (t : PgTy) (n off lo len : Nat) : Nat := fld (rg s t n off) lo len

/-- A bit of a register in force. -/
def rb (s : State) (t : PgTy) (n off i : Nat) : Bool := bit (rg s t n off) i

/-- A field of a register in force replaced. -/
def wf (s : State) (t : PgTy) (n off lo len v : Nat) : State := wr s t n off (setFld (rg s t n off) lo len v)

/-- A bit of a register in force replaced. -/
def wb (s : State) (t : PgTy) (n off i : Nat) (b : Bool) : State := wr s t n off (setBit (rg s t n off) i b)

/-- A signed 64-bit value of two registers in force, low word at `off` (R7). -/
def rg64 (s : State) (t : PgTy) (n off : Nat) : Int := join (rg s t n off) (rg s t n (off + 4))

/-- An unsigned 64-bit value of two registers in force. -/
def rgU64 (s : State) (t : PgTy) (n off : Nat) : Nat := joinN (rg s t n off) (rg s t n (off + 4))

/-- A 64-bit value written to two registers in force, wrapping. -/
def wr64 (s : State) (t : PgTy) (n off : Nat) (v : Int) : State :=
  wr (wr s t n off (lo32 v)) t n (off + 4) (hi32 v)

/-- A saturating counter register, one up. -/
def incSat (s : State) (t : PgTy) (n off : Nat) : State := wr s t n off (satInc (rg s t n off))

/-- A wrapping counter register, one up. -/
def incWrap (s : State) (t : PgTy) (n off : Nat) : State := wr s t n off (rg s t n off + 1)

/-- The 35-bit device time of an extended time (R374). -/
def devTime (t : Nat) : BitVec 35 := BitVec.ofNat 35 t

/-- TSTAMP_LO and TSTAMP_HI of a device time (Table 1-8). -/
def tsLo (t : BitVec 35) : Word := BitVec.ofNat 32 t.toNat
def tsHi (t : BitVec 35) : Word := BitVec.ofNat 32 (t.toNat / 4294967296)

/-- A timestamp written to two registers in force. -/
def wrTs (s : State) (t : PgTy) (n off : Nat) (ts : BitVec 35) : State :=
  wr (wr s t n off (tsLo ts)) t n (off + 4) (tsHi ts)

/-- The state at an event of extended time `t`: apart from steps, device time never goes backwards (R374). -/
def State.at (s : State) (t : Nat) : State := { s with now := max s.now t }

/-- Whether a page's domain has power (R37). -/
def powered (s : State) (t : PgTy) (n : Nat) : Bool := s.dom.getLsbD (t.domain n)

/-- Whether a page answers: in the directory and its domain on (R26, R37). -/
def answers (s : State) (pg : PageId) : Bool := pg.present && powered s pg.ty pg.inst

/-- The state of a page, OFF while its domain is off (R37, R39). -/
def stOf (s : State) (t : PgTy) (n : Nat) : PgState := if powered s t n then (s.page (pk t n)).st else .off

/-- A page's state changed. -/
def setSt (s : State) (t : PgTy) (n : Nat) (x : PgState) : State :=
  s.modPage (pk t n) (fun p => { p with st := x })

/-- The instances of a page type. -/
def insts (t : PgTy) : List Nat := List.range t.count

/-- Words latched into the snapshots of a page (R60). -/
def Page.latch (l : List (Nat × Word)) (p : Page) : Page :=
  { p with snap := l.foldl (fun m e => SMap.set (fun _ => 0) m e.1 e.2) p.snap }

/-! ## Interrupts (R62 to R66) -/

/-- INT_STAT of a page. -/
def Page.intStat (p : Page) : Word := p.intRaw &&& p.intEn

/-- The distributor line of a page: by default its type code (R64). -/
def irqLine (s : State) (k : Nat) : Nat := SMap.get (fun k => k / 256) s.irqMap k

/-- The lines asserted: those with a page mapped to them whose INT_STAT is not 0 (R64). -/
def levels (s : State) : BitVec 256 :=
  s.pages.foldl (fun w e => if e.2.intStat = 0 then w else w ||| (1#256 <<< (irqLine s e.1))) 0

/-- Whether a line is asserted (R64). -/
def lineOn (s : State) (l : Nat) : Bool := (levels s).getLsbD l

/-- A word of the MSI-X table; every vector is masked after reset. -/
def msixWord (s : State) (i : Nat) : Word := SMap.get (fun i => if i % 4 = 3 then 1 else 0) s.msixTbl i

/-- Whether a vector is masked, by its own bit or by the function mask (R429). -/
def msixMasked (s : State) (v : Nat) : Bool := s.msixMask || bit (msixWord s (4 * v + 3)) 0

/-- Send the message of a line, or set the pending bit of its masked vector (R65, R66, R429). -/
def sendMsi (s : State) (l : Nat) : State :=
  let r := rg s .sys 0 (Reg.SYS.IRQ_ROUTE_V + 8 * l)
  if bit r 8 then
    let v := fld r 0 6
    if msixMasked s v then { s with msixPend := s.msixPend ||| (1#64 <<< v) }
    else { s with msixSent := v :: s.msixSent }
  else s

/-- The distributor looks at the pages once an event has acted: the lines it sees asserted are the asserted ones, and
each routed line that rose sends its message (R64, R66). -/
def settle (s : State) : State :=
  let w := levels s
  let rise := w &&& ~~~s.irqOn
  (List.range 256).foldl (fun s l => if rise.getLsbD l then sendMsi s l else s) { s with irqOn := w }

/-- What a command answers. -/
abbrev Res : Type := Host.Outcome State Fault Refusal

/-- The answer of a meaning that completes. -/
def done (s : State) : Res := .next (settle s)

/-- Set bits of INT_RAW (R62). -/
def setInts (s : State) (t : PgTy) (n : Nat) (w : Word) : State :=
  s.modPage (pk t n) (fun p => { p with intRaw := p.intRaw ||| w })

/-- Set one bit of INT_RAW. -/
def setInt (s : State) (t : PgTy) (n i : Nat) : State := setInts s t n (1#32 <<< i)

/-! ## Rejections, progress and completion -/

/-- The state after a free value has been taken. -/
def State.next (s : State) : State := { s with seed := s.seed + 1 }

/-- PGERR of a code, an offset and a source (R56). -/
def errWord (c : ErrCode) (off src : Nat) : Word := ofN (c.num + off * 65536 + src * 268435456)

/-- A rejection: PGERR is overwritten and INT_RAW.ERR sets (R56). -/
def reject (s : State) (t : PgTy) (n : Nat) (c : ErrCode) (off src : Nat) : State :=
  setInt (s.modPage (pk t n) (fun p => { p with err := errWord c off src })) t n 31

/-- A rejected command (SOURCE 2, OFFSET 0x010). -/
def rejCmd (s : State) (t : PgTy) (n : Nat) (c : ErrCode) : State := reject s t n c 0x010 2

/-- A rejected register write (SOURCE 3). -/
def rejWr (s : State) (t : PgTy) (n : Nat) (c : ErrCode) (off : Nat) : State := reject s t n c off 3

/-- PGPROG of a unit, a phase and a value (R57). -/
def progWord (unit phase value : Nat) : Word := ofN (unit * 268435456 + phase * 16777216 + value % 16777216)

/-- Progress shown (R57). -/
def setProg (s : State) (t : PgTy) (n unit phase value : Nat) : State :=
  s.modPage (pk t n) (fun p => { p with prog := progWord unit phase value })

/-- A long operation starts in a phase: BUSY=1 (R58). -/
def opStart (s : State) (t : PgTy) (n unit phase value : Nat) : State :=
  s.modPage (pk t n) (fun p => { p with prog := progWord unit phase value, busy := true })

/-- A long operation is done: PHASE 15, with VALUE 10,000 under UNIT 1 (R58), whatever UNIT its phases had. -/
def opDone (s : State) (t : PgTy) (n : Nat) : State :=
  setInt (s.modPage (pk t n) (fun p => { p with prog := progWord 1 15 10000, busy := false })) t n 28

/-- The VALUE of PGPROG in PHASE 14, which the spec does not state: a free one of those its UNIT allows (R57). -/
def failValue (s : State) (unit : Nat) : Nat :=
  let v := (Config.free32 s.seed).toNat
  if unit = 1 then v % 10001 else if unit = 2 then 0 else v

/-- A long operation failed or was aborted: PHASE 14 under the UNIT it had, PGERR with SOURCE 4 (R58); OFFSET is 0x01C for a CRC
mismatch (R56), else `off`. -/
def opFail (s : State) (t : PgTy) (n : Nat) (c : ErrCode) (off : Nat) : State :=
  let u := fld (s.page (pk t n)).prog 28 4
  let s1 := s.next.modPage (pk t n) (fun p => { p with prog := progWord u 14 (failValue s u), busy := false })
  setInt (reject s1 t n c (if c = .crcMismatch then 0x01C else off) 4) t n 28

/-- The phase of the long operation in progress. -/
def opPhase (s : State) (t : PgTy) (n : Nat) : Nat := fld (s.page (pk t n)).prog 24 4

/-- A command has acted (R55): CMD_PENDING and PGERR clear and INT_RAW.CMD_DONE sets. -/
def cmdDone (s : State) (t : PgTy) (n : Nat) : State :=
  setInt (s.modPage (pk t n) (fun p => { p with cmd := none, err := 0 })) t n 29

/-! ## Memories -/

/-- What a byte of memory that nothing has written reads as. -/
def memDefault (_ : Nat) : Byte := 0

/-- A byte of memory (the boot ROM's bytes are the part's own, Table 1-10). -/
def mem8 (s : State) (a : Nat) : Byte :=
  if a < 0x40000 then Config.bootRom a else SMap.get memDefault s.mem a

/-- A byte of memory written. -/
def putMem8 (s : State) (a : Nat) (b : Byte) : State := { s with mem := SMap.set memDefault s.mem a b }

/-- The form memory is kept in: addresses strictly rising, no byte equal to what an unlisted one reads as. -/
def Memory.wf (m : List Host.Cell) : Bool := SMap.wf memDefault m

/-- A 32-bit word of memory, little-endian (R7). -/
def mem32 (s : State) (a : Nat) : Word := mem8 s (a + 3) ++ mem8 s (a + 2) ++ mem8 s (a + 1) ++ mem8 s a

/-- A 32-bit word of memory written, little-endian. -/
def putMem32 (s : State) (a : Nat) (w : Word) : State :=
  putMem8 (putMem8 (putMem8 (putMem8 s a (w.extractLsb' 0 8)) (a + 1) (w.extractLsb' 8 8))
    (a + 2) (w.extractLsb' 16 8)) (a + 3) (w.extractLsb' 24 8)

/-- `n` bytes of memory from an address. -/
def memBytes (s : State) (a n : Nat) : List Nat := (List.range n).map (fun i => (mem8 s (a + i)).toNat)

/-- Bytes written from an address on. -/
def putBytes (s : State) (a : Nat) : List Nat → State
  | [] => s
  | b :: bs => putBytes (putMem8 s a (BitVec.ofNat 8 b)) (a + 1) bs

/-- The partition of in-package DRAM (R29, R517): where the application cores' part and the loop images begin. -/
def apBase (s : State) : Nat := 0x800000000 + 1048576 * s.part.recMib
def loopBase (s : State) : Nat := apBase s + 1048576 * s.part.apMib

/-- Whether `n` bytes from an address lie in the application-core partition. -/
def inAp (s : State) (a n : Nat) : Bool := apBase s ≤ a && a + n ≤ loopBase s

/-- Whether `n` bytes from an address lie in in-package DRAM. -/
def inDram (a n : Nat) : Bool := 0x800000000 ≤ a && a + n ≤ 0xC00000000

/-- Whether `n` bytes from an address lie in shared SRAM. -/
def inSram (a n : Nat) : Bool := 0x10000000 ≤ a && a + n ≤ 0x11000000

/-! ## Free values -/

/-- An exact quotient of integers as an integer: the spec states no rounding where this is used, so it may be the
floor or the ceiling, by a free function of the two. -/
def fq (a : Int) (b : Nat) : Int :=
  if b = 0 then 0
  else if a % b = 0 then a / b else if Config.roundUp a b then a / b + 1 else a / b

/-! ## Commands: what a page type says of one -/

/-- What a page type says of a command it defines: whether it is marked safe (R43), whether it acts at once, and why it is
refused in the present state. -/
structure CmdRule where
  safe : Bool
  imm : Bool
  err : Option ErrCode
  deriving DecidableEq, Repr

/-- Refusals in their order: the code of the first test that holds. -/
def firstOf : List (Bool × ErrCode) → Option ErrCode
  | [] => none
  | (b, c) :: l => if b then some c else firstOf l

/-- The failing test of the lowest register offset (R56); of two at one offset the first listed. -/
def firstFail : List (Bool × Nat × ErrCode) → Option (Nat × ErrCode)
  | [] => none
  | (b, o, c) :: l =>
    match firstFail l with
    | none => if b then some (o, c) else none
    | some (o', c') => if b && o ≤ o' then some (o, c) else some (o', c')

/-- Whether a page is in one of some states. -/
def inSt (s : State) (t : PgTy) (n : Nat) (l : List PgState) : Bool := l.contains (stOf s t n)

/-- Whether HOLD is allowed: in RUN, and in the HOLD that PGCTL.FREEZE caused. -/
def holdable (s : State) (t : PgTy) (n : Nat) : Bool :=
  stOf s t n == .run || (stOf s t n == .hold && (s.page (pk t n)).frozen)

/-- Whether an RS register's staged value differs from its active one. -/
def changed (s : State) (t : PgTy) (n off : Nat) : Bool := staged s t n off != rg s t n off

/-- A field of a staged value. -/
def stf (s : State) (t : PgTy) (n off lo len : Nat) : Nat := fld (staged s t n off) lo len

/-- Elapsed time at an extended time: the steps applied to device time do not count (R376, R379). -/
def State.lap (s : State) (t : Nat) : Nat := ((t : Int) - s.stepSum).toNat

/-- The extended time, as device time counts it now, of an elapsed time. -/
def State.ext (s : State) (e : Nat) : Nat := ((e : Int) + s.stepSum).toNat

/-- Steps of 125 ps in a second. -/
def perS : Nat := 8000000000

end Sys2Proof.Machine
end

