-- ==== Sys2Proof/Machine/Profile.lean ====
section
/-! DEFINITION. The arithmetic of profiles (R105 to R107, R112, R123): time-optimal profiles as runs of constant jerk within the limits of
R105, evaluated exactly between the set-point states of the registers. Units are those of the registers: positions in 2⁻¹⁶ counts,
velocities in 2⁻¹⁶ counts/s, accelerations in counts/s², jerk in counts/s³. -/
namespace Sys2Proof.Machine

/-! ## Time and exact states -/

/-- The unit in which a profile's instants are resolved (log entry 44): 2⁻⁴⁰ of a base tick; and the units of a second. -/
def profTickU : Nat := 1099511627776
def profU : Nat := 128000 * profTickU

/-- The exact state (`ProfAt`, U = `profU`) of a position, a velocity and an acceleration. -/
def profP (p : Int) : Int := p * (6 * profU * profU * profU)
def profV (v : Int) : Int := v * (2 * profU * profU)
def ProfAt.of (p v a : Int) : ProfAt := ⟨profP p, profV v, a * profU⟩

/-- The registers of an exact state; the spec states no rounding of what they show. -/
def ProfAt.regs (x : ProfAt) : Int × Int × Int :=
  (fq x.p (6 * profU * profU * profU), fq x.v (2 * profU * profU), fq x.a profU)

/-- The exact state after a run of constant jerk. -/
def ProfAt.after (x : ProfAt) (g : Seg) : ProfAt :=
  let n : Int := g.n
  { p := x.p + 3 * n * x.v + 65536 * (3 * x.a * n * n + g.j * n * n * n)
    v := x.v + 65536 * (2 * x.a * n + g.j * n * n)
    a := x.a + g.j * n }

/-- The exact state after some runs. -/
def ProfAt.run (x : ProfAt) (l : List Seg) : ProfAt := l.foldl ProfAt.after x

/-- The duration of some runs, and the part of them that lies before an instant. -/
def segTime (l : List Seg) : Nat := l.foldl (fun t g => t + g.n) 0
def segTake (t : Nat) : List Seg → List Seg
  | [] => []
  | g :: l => if g.n ≤ t then g :: segTake (t - g.n) l else [{ g with n := t }]

/-! ## Integer square root -/

/-- One step of Newton's method for the square root of `n`. -/
def sqrtStep (n x : Nat) : Nat := (x + n / max x 1) / 2

/-- The square root of a natural below 2²⁵⁶, rounded down: from a power of two at most twice too large, ten steps of Newton's method. -/
def isqrt (n : Nat) : Nat :=
  let x := (List.range 10).foldl (fun x _ => sqrtStep n x) (2 ^ (n.log2 / 2 + 1))
  if n < x * x then x - 1 else x

/-! ## To a velocity (R105) -/

/-- The sign of a number. -/
def sgn (x : Int) : Int := if 0 < x then 1 else if x < 0 then -1 else 0

/-- The run that brings the acceleration to 0. -/
def relax (l : ProfLim) (x : ProfAt) : Seg := ⟨-sgn x.a * l.jmax, x.a.natAbs / l.jmax⟩

/-- The runs of the shortest way to a velocity (exact) with acceleration 0, where the velocity does not pass 0: the acceleration rises
to its peak, stays at the limit where it reaches it, and falls; the limit is AMAX where the speed rises and DMAX where it falls. -/
def velRuns (l : ProfLim) (x : ProfAt) (vt : Int) : List Seg :=
  let r := relax l x
  let y := x.after r
  let d := sgn (vt - y.v)
  if d = 0 then [r]
  else
    let lim : Nat := (if y.v.natAbs < vt.natAbs then l.amax else l.dmax) * profU
    let a0 := d * x.a
    let j : Int := l.jmax
    let peak := max a0 (isqrt ((j * (d * (vt - x.v)) / 131072 + x.a * x.a / 2).toNat) : Nat)
    let (g1, top) : Seg × Int :=
      if (lim : Int) ≤ a0 then (⟨-d * j, ((a0 - lim) / j).toNat⟩, lim)
      else let p := min peak lim; (⟨d * j, ((p - a0) / j).toNat⟩, p)
    let g3 : Seg := ⟨-d * j, (top / j).toNat⟩
    let z := (x.after g1).after g3
    [g1, ⟨0, (d * (vt - z.v) / max (131072 * top) 1).toNat⟩, g3]

/-- The runs to a velocity: a reversal comes to rest first (R107). -/
def velPath (l : ProfLim) (x : ProfAt) (vt : Int) : List Seg :=
  let y := x.after (relax l x)
  if (y.v < 0 ∧ 0 < vt) ∨ (0 < y.v ∧ vt < 0) then
    let g := velRuns l x 0
    g ++ velRuns l { (x.run g) with v := 0, a := 0 } vt
  else velRuns l x vt

/-- One tick towards a velocity (2⁻¹⁶ counts/s), held exactly once it is reached. -/
def velStep (l : ProfLim) (x : ProfAt) (vt : Int) : ProfAt :=
  let g := velPath l x (profV vt)
  let t := segTime g
  if t ≤ profTickU then ⟨(x.run g).p + 3 * (profTickU - t : Nat) * profV vt, profV vt, 0⟩ else x.run (segTake profTickU g)

/-! ## To a position (R105, R107, R112, R123): positions and velocities are exact -/

/-- How far some runs lead against a goal that moves at a velocity. -/
def relTravel (x : ProfAt) (vr : Int) (g : List Seg) : Int := (x.run g).p - 3 * segTime g * vr

/-- The runs to a velocity in between and from it to the goal's. -/
def viaPath (l : ProfLim) (x : ProfAt) (vr vp : Int) : List Seg × List Seg :=
  let g := velPath l x vp
  (g, velPath l { (x.run g) with v := vp, a := 0 } vr)

/-- The travel of the way through a velocity in between. -/
def viaTravel (l : ProfLim) (x : ProfAt) (vr vp : Int) : Int :=
  let (g, h) := viaPath l x vr vp
  relTravel x vr (g ++ h)

/-- The furthest velocity of `lo` to `lo` + `d` × `w` whose way does not lead beyond the goal, by halving. -/
def searchVia (l : ProfLim) (x : ProfAt) (vr goal d : Int) : Nat → Int → Nat → Int
  | 0, lo, _ => lo
  | k + 1, lo, w =>
    let m := lo + d * ((w + 1) / 2 : Nat)
    if w = 0 then lo
    else if d * viaTravel l x vr m ≤ d * goal then searchVia l x vr goal d k m (w - (w + 1) / 2)
    else searchVia l x vr goal d k lo ((w + 1) / 2 - 1)

/-- The way that follows some runs for a time and then turns straight to the goal's velocity. -/
def turnPath (l : ProfLim) (x : ProfAt) (vr : Int) (p : List Seg) (t : Nat) : List Seg :=
  let g := segTake t p
  g ++ velPath l (x.run g) vr

/-- The longest time of `lo` to `lo` + `w` after which that way does not lead beyond the goal, by halving. -/
def searchTurn (l : ProfLim) (x : ProfAt) (vr goal d : Int) (p : List Seg) : Nat → Nat → Nat → Nat
  | 0, lo, _ => lo
  | k + 1, lo, w =>
    let m := lo + (w + 1) / 2
    if w = 0 then lo
    else if d * relTravel x vr (turnPath l x vr p m) ≤ d * goal then searchTurn l x vr goal d p k m (w - (w + 1) / 2)
    else searchTurn l x vr goal d p k lo ((w + 1) / 2 - 1)

/-- The way through a velocity in between, held for what is left to the goal. -/
def holdPath (l : ProfLim) (x : ProfAt) (vr vp goal d : Int) : List Seg :=
  let (g, h) := viaPath l x vr vp
  let left := d * (goal - relTravel x vr (g ++ h))
  if vp = vr then g ++ h else g ++ [⟨0, (left / (3 * (d * (vp - vr)))).toNat⟩] ++ h

/-- The runs of the shortest way to a goal (where it stands now, moving at `vr`) with the goal's velocity at its end. Straight to the goal's
velocity where that leads there; towards VMAX for ever where the goal runs away; through the fastest velocity in between whose way does
not lead beyond, held for what is left; and where the acceleration points back and even its end leads beyond (or a speed above VMAX is on its way
down), as far along that as does not, then straight to the goal's velocity: there the acceleration does not pass 0 in between. -/
def goalPath (l : ProfLim) (vmax : Nat) (x : ProfAt) (goal vr : Int) : List Seg :=
  let direct := velPath l x vr
  let d := sgn (goal - relTravel x vr direct)
  let top := d * profV vmax
  if d = 0 then direct
  else if d * (top - vr) ≤ 0 then velPath l x top ++ [⟨0, 2 ^ 64 * profU⟩]
  else
    let calm := (x.after (relax l x)).v
    let past := decide (d * (top - calm) < 0)
    let base := if past then velPath l x top else [relax l x]
    if 0 < d * (calm - vr) ∧ d * goal < d * viaTravel l x vr (if past then top else calm) then
      turnPath l x vr base (searchTurn l x vr goal d base 128 0 (segTime base))
    else if past then holdPath l x vr top goal d
    else
      let lo := if 0 < d * (calm - vr) then calm else vr
      holdPath l x vr (searchVia l x vr goal d 64 lo (d * (top - lo)).toNat) goal d

/-- A way planned from a set-point state to a goal (exact, where it stands now) that moves at a velocity (2⁻¹⁶ counts/s), at rest at the end
of a move (R105, R106). -/
def planWay (x : ProfAt) (goal vg : Int) (vmax : Nat) (l : ProfLim) : MovePlan :=
  ⟨x, goal, vg, vmax, l, goalPath l vmax x goal (profV vg), 0⟩

/-- Where the goal of a plan stands after its ticks. -/
def MovePlan.goalAt (m : MovePlan) : Int := m.goal + 3 * (m.k * profTickU : Nat) * profV m.vg

/-- Whether the runs of a plan have ended. -/
def MovePlan.ended (m : MovePlan) : Bool := decide (segTime m.runs ≤ m.k * profTickU)

/-- The set-point state of a plan after its ticks: the goal's once its runs have ended. -/
def MovePlan.at (m : MovePlan) : ProfAt :=
  if m.ended then ⟨m.goalAt, profV m.vg, 0⟩ else m.x.run (segTake (m.k * profTickU) m.runs)

/-- A plan one tick further. -/
def MovePlan.next (m : MovePlan) : MovePlan := { m with k := m.k + 1 }

/-- The position at which a set-point state would come to rest at once (R107), exact. -/
def stopAt (l : ProfLim) (x : ProfAt) : Int := (x.run (velPath l x 0)).p

/-- Whether a plan still leads to a goal that stands at `r` at the next tick and moves at `vr`: as foreseen within `tol` units of the
registers, in which a steady goal is known no better. -/
def MovePlan.leads (m : MovePlan) (tol : Nat) (r vr : Int) : Bool :=
  decide ((m.next.goalAt - profP r).natAbs ≤ (profP tol).natAbs) && decide ((m.vg - vr).natAbs ≤ tol)

/-- One tick towards a moving goal: `r` is where it stands at the tick's end, `vr` its velocity. The plan is followed while the goal moves
as foreseen, and a goal reached is held (R123). The answer: the plan, whether the goal is reached, and the set-point state. -/
def trackStep (o : Option MovePlan) (l : ProfLim) (vmax tol : Nat) (x : ProfAt) (r vr : Int) : MovePlan × Bool × ProfAt :=
  let fresh := planWay x (profP r - 3 * profTickU * profV vr) vr vmax l
  let m := (match o with
    | some m => if m.lim = l ∧ m.vmax = vmax ∧ m.leads tol r vr = true then m else fresh
    | none => fresh).next
  if m.ended then
    let y := ProfAt.of r vr 0
    ({ m with x := y, goal := y.p, vg := vr, runs := [], k := 0 }, true, y)
  else (m, false, m.at)

/-- One tick of a quick stop: the speed falls at `q` without a jerk limit (R126). -/
def quickStep (q : Nat) (x : ProfAt) : ProfAt :=
  let d := sgn x.v
  let y := { x with a := -d * (q * profU) }
  let n := x.v.natAbs / (131072 * q * profU)
  if n ≤ profTickU then { (y.after ⟨0, n⟩) with v := 0, a := 0 } else y.after ⟨0, profTickU⟩

end Sys2Proof.Machine
end

