-- ==== Sys2Proof/Machine/Frame.lean ====
section
/-! DEFINITION. The frame transformation of the control slots (R229): sine and cosine of an angle, d and q of phase values, phase
values of d and q, and the limit of a vector. The formulas are the spec's; the roundings of their results, which it does not state,
are free (log entry 72). -/
namespace Sys2Proof.Machine

/-- The unit of sines, of a quarter turn and of √3: 2⁻⁶⁴. -/
def trigU : Nat := 18446744073709551616
def quarterTurn : Int := 28976077832308491369
def root3 : Int := 31950697969885030203

/-- A power series in an angle: the term so far, its sum, and the number of the next term; each step divides by two more factors. -/
def trigStep (x2 : Int) (r : Int × Int) (k : Nat) : Int × Int :=
  let t := -(r.1 * x2) / ((trigU : Int) * ((k + 1) * (k + 2) : Nat))
  (t, r.2 + t)

/-- Sine and cosine of an angle within a quarter turn, in units of 2⁻⁶⁴: the first fourteen terms of their series. -/
def trigQuarter (f : Nat) : Int × Int :=
  let x := quarterTurn * f / 1073741824
  let x2 := x * x / trigU
  let ks := (List.range 14).map (fun i => 2 * i)
  ((ks.foldl (fun r k => trigStep x2 r (k + 1)) (x, x)).2, (ks.foldl (fun r k => trigStep x2 r k) ((trigU : Int), (trigU : Int))).2)

/-- Sine and cosine of an angle in 2⁻³² turns. -/
def trigOf (th : Nat) : Int × Int :=
  let (s, c) := trigQuarter (th % 1073741824)
  match th / 1073741824 % 4 with
  | 0 => (s, c)
  | 1 => (c, -s)
  | 2 => (-s, -c)
  | _ => (-c, s)

/-- d and q of the phase values a, b and c at an angle (R229). -/
def dqForward (a b c : Int) (th : Nat) : Int × Int :=
  let (s, k) := trigOf th
  let al := (2 * a - b - c) * trigU
  let be := (b - c) * root3
  (fq (al * k + be * s) (3 * trigU * trigU), fq (be * k - al * s) (3 * trigU * trigU))

/-- The phase values of the voltages d and q rotated back with an angle (R229). -/
def dqBack (d q : Int) (th : Nat) : Int × Int × Int :=
  let (s, k) := trigOf th
  let al := d * k - q * s
  let be := d * s + q * k
  (fq al trigU, fq (root3 * be - trigU * al) (2 * trigU * trigU), fq (-(root3 * be) - trigU * al) (2 * trigU * trigU))

/-- The magnitude of a vector, in units of 2⁻³². -/
def magnitude (d q : Int) : Nat := isqrt ((d * d + q * q).toNat * trigU)

/-- A vector limited to a magnitude with its direction kept (R229). -/
def vectorLimit (d q l : Int) : Int × Int :=
  let m := magnitude d q
  (fq (d * l * 4294967296) m, fq (q * l * 4294967296) m)

end Sys2Proof.Machine
end

