-- ==== Sys2Proof/Machine/Operands.lean ====
section
/-! DEFINITION. The operand forms of the loop cores: registers by code (R169, R170, R189), control registers (Table 6-2),
results on their way (R185 to R187), and address generation (R178 to R180). -/
namespace Sys2Proof.Machine

/-! ## Cores -/

/-- A loop core of the state. -/
def lcOf (s : State) (n : Nat) : LcSt := SMap.get (fun _ => LcSt.reset) s.lcs n

/-- The same, replaced. -/
def setLc (s : State) (n : Nat) (x : LcSt) : State := { s with lcs := SMap.set (fun _ => LcSt.reset) s.lcs n x }

/-! ## Register keys -/

/-- The key of SR bit `i` at a level, each bit by itself (Table 6-3). -/
def lcFlagKey (lvl i : Nat) : Nat := 128 * lvl + 96 + i

/-- The key of a control register at a level (Table 6-2); PLVL stands under code 16. -/
def lcCtlKey (lvl c : Nat) : Nat := 128 * lvl + 64 + c

/-- PLVL of a level. -/
def lcPlvlKey (lvl : Nat) : Nat := lcCtlKey lvl 16

/-- Whether a register code names a shared register (Table 6-1). -/
def lcShared (c : Nat) : Bool :=
  (16 ≤ c && c < 32) || (40 ≤ c && c < 44) || (48 ≤ c && c < 52) || (56 ≤ c && c < 60)

/-- The reset value of a register by key: IE1 and IE2 are 1, everything else is 0 (Table 6-1, Table 6-3). -/
def lcRegReset (k : Nat) : Nat := if k % 128 = 106 ∨ k % 128 = 107 then 1 else 0

/-- A register by key. -/
def LcSt.reg (x : LcSt) (k : Nat) : Nat := SMap.get lcRegReset x.regs k

/-- A register by key, replaced. -/
def LcSt.put (x : LcSt) (k v : Nat) : LcSt := { x with regs := SMap.set lcRegReset x.regs k v }

/-- RRB of the present level. -/
def LcSt.rrb (x : LcSt) : Nat := x.reg (lcCtlKey x.level 2) % 16

/-- The key of a register code at the present level: D16 to D31 by the rotating base (R189). -/
def LcSt.key (x : LcSt) (c : Nat) : Nat :=
  if 16 ≤ c ∧ c < 32 then 384 + 16 + (c - 16 + x.rrb) % 16
  else if lcShared c then 384 + c else 128 * x.level + c

/-- What a code reads: 24 bits for D, 56 for A, 14 for P, 16 for M and L. -/
def LcSt.code (x : LcSt) (c : Nat) : Nat := x.reg (x.key c)

/-- A data register as a number of 24 bits, and signed. -/
def LcSt.d (x : LcSt) (c : Nat) : Nat := x.code c % 16777216
def LcSt.ds (x : LcSt) (c : Nat) : Int := sext 24 (x.code c)

/-- An accumulator, signed. -/
def LcSt.a (x : LcSt) (i : Nat) : Int := sext 56 (x.code (32 + i % 4))

/-- An accumulator as a multiply reads it: forwarded from the latest multiplier result on its way (R186). -/
def LcSt.aFwd (x : LcSt) (i : Nat) : Int :=
  let k := x.key (32 + i % 4)
  match (x.pend.filter (fun e => e.mul && e.key == k)).foldl (fun (m : Option LcPend) e => match m with
    | none => some e
    | some b => if b.iss ≤ e.iss then some e else some b) none with
  | some e => sext 56 e.val
  | none => x.a i

/-- A code's value as MOV copies it and a store writes it, in 24 bits: M is signed (Table 6-1). -/
def LcSt.value24 (x : LcSt) (c : Nat) : Nat :=
  if c < 32 then x.d c
  else if 44 ≤ c ∧ c < 52 then (sext 16 (x.code c) % 16777216).toNat
  else x.code c

/-- The width of a register code (Table 6-1). -/
def lcWidth (c : Nat) : Nat :=
  if c < 32 then 24 else if c < 36 then 56 else if c < 44 then 14 else 16

/-- Whether a six-bit register code is one of R170. -/
def lcCodeOk (c : Nat) : Bool := c < 60

/-! ## Results on their way (R185, R187) -/

/-- A result lands: the earlier-issued writes of the same register that are still on their way are discarded (R187). -/
def LcSt.land1 (x : LcSt) (e : LcPend) : LcSt :=
  let x1 := { x with pend := x.pend.filter (fun p => p.sticky || !(p.key == e.key && p.iss ≤ e.iss)) }
  x1.put e.key e.val

/-- Put a result among those on their way, by the cycle at which it lands and then by its issue; the setting of a sticky
flag lands after a clear of the same cycle (R177). -/
def pendInsert (e : LcPend) : List LcPend → List LcPend
  | [] => [e]
  | p :: l =>
    if e.due < p.due ∨ (e.due = p.due ∧ ((p.sticky && !e.sticky) = true ∨ (p.sticky = e.sticky ∧ e.iss < p.iss)))
    then e :: p :: l else p :: pendInsert e l

/-- Whether a result is still on its way. -/
def LcSt.has (x : LcSt) (e : LcPend) : Bool := x.pend.contains e

/-- Every result due by cycle `c` lands, in order. -/
def LcSt.land (x : LcSt) (c : Nat) : LcSt :=
  let due := x.pend.filter (fun e => e.due ≤ c)
  let x1 := due.foldl (fun y e => if y.has e then y.land1 e else y) x
  { x1 with pend := x1.pend.filter (fun e => c < e.due) }

/-- One write of an instruction: the key, the value, the cycles until it is visible (Table 6-6), whether it is a multiplier
result and whether it sets a sticky flag. -/
structure LcWr where
  key : Nat
  val : Nat
  lat : Nat
  mul : Bool
  sticky : Bool
  deriving DecidableEq, Repr

/-- A plain write. -/
def lcW (key val lat : Nat) : LcWr := ⟨key, val, lat, false, false⟩

/-- What a bundle does apart from its flow: whether it is illegal, its register writes, its memory words (system address and
value), and the latency after which an AOV trap is taken. -/
structure LcEff where
  bad : Bool
  wr : List LcWr
  st : List (Nat × Word)
  trap : Option Nat
  deriving DecidableEq, Repr

/-- No effect, and an illegal bundle. -/
def LcEff.none : LcEff := ⟨false, [], [], Option.none⟩
def LcEff.illegal : LcEff := ⟨true, [], [], Option.none⟩

/-- Register writes alone. -/
def LcEff.ofWr (l : List LcWr) : LcEff := ⟨false, l, [], Option.none⟩

/-- Whether two slots write one register (R187). -/
def lcClash (a b : LcEff) : Bool := a.wr.any (fun w => b.wr.any (fun v => w.key == v.key && !w.sticky && !v.sticky))

/-- Two slots of one bundle together (R187: a register written by both makes the bundle illegal). -/
def LcEff.par (a b : LcEff) : LcEff :=
  ⟨a.bad || b.bad || lcClash a b, a.wr ++ b.wr, a.st ++ b.st, if a.trap.isSome then a.trap else b.trap⟩

/-- The writes of a register code, as a load, MOV or an immediate leaves it: the low bits of its width; into P, M and L
one cycle later (Table 6-6). -/
def LcSt.wrCode (x : LcSt) (c v lat : Nat) : LcWr := lcW (x.key c) (v % 2 ^ lcWidth c) lat

/-- The cycles until a MOV, MOVI or LDI into a code is visible (Table 6-6). -/
def lcMovLat (c : Nat) : Nat := if c < 36 then 1 else 2

/-! ## Control registers (Table 6-2) -/

/-- SR of the present level as it reads (Table 6-3). -/
def LcSt.sr (x : LcSt) : Nat :=
  (List.range 12).foldl (fun w i => w + (x.reg (lcFlagKey x.level i) % 2) * 2 ^ i) 0 + 256 * x.level
    + 4096 * (x.reg (lcPlvlKey x.level) % 4)

/-- A control register as it reads, and none for a reserved code. -/
def LcSt.ctl (x : LcSt) (c : Nat) : Option Nat :=
  if c = 0 then some x.sr
  else if c < 9 then some (x.reg (lcCtlKey x.level c))
  else if c = 9 then some (x.cyc % 4294967296)
  else none

/-- The writes of a control register, and none where the write is illegal: a reserved code, CYC, or a reserved RND. -/
def LcSt.wrCtl (x : LcSt) (c v : Nat) : Option (List LcWr) :=
  match c with
  | 0 => some ([0, 1, 2, 3, 4, 5, 6, 10, 11].map (fun i => lcW (lcFlagKey x.level i) (v / 2 ^ i % 2) 1))
  | 1 => if v % 4 = 3 then none else some [lcW (lcCtlKey x.level 1) (v % 8) 1]
  | 2 => some [lcW (lcCtlKey x.level 2) (v % 16) 1]
  | 3 => some [lcW (lcCtlKey x.level 3) (v % 16777216) 1]
  | 4 => some [lcW (lcCtlKey x.level 4) (v % 16384) 1]
  | 5 => some [lcW (lcCtlKey x.level 5) (v % 16384) 1]
  | 6 => some [lcW (lcCtlKey x.level 6) (v % 65536) 1]
  | 7 => some [lcW (lcCtlKey x.level 7) (v % 4294967296) 1]
  | 8 => some [lcW (lcCtlKey x.level 8) (v % 4294967296) 1]
  | _ => none

/-! ## Address generation (R178 to R180) -/

/-- The exponent of the smallest power of two not below a number. -/
def log2up (n : Nat) : Nat := ((List.range 15).find? (fun k => decide (n ≤ 2 ^ k))).getD 15

/-- The order of the low `k` bits of a number reversed. -/
def revBits : Nat → Nat → Nat
  | 0, _ => 0
  | k + 1, v => (v % 2) * 2 ^ k + revBits k (v / 2)

/-- LEN and KIND of an L register. -/
def lLen (l : Nat) : Nat := l % 16384
def lKind (l : Nat) : Nat := l / 16384 % 4

/-- P plus a step or an offset under an L register (R179). -/
def lcSum (l p : Nat) (step : Int) : Nat :=
  let n := lLen l
  if lKind l = 0 ∨ n = 0 then (((p : Int) + step) % 16384).toNat
  else
    let m := 2 ^ log2up n
    let base := p / m * m
    let off : Int := (p : Int) - base + step
    if lKind l = 1 then (base + (off % (n : Int)).toNat) % 16384
    else (base + (off % (m : Int)).toNat) % 16384

/-- The address an access uses under an L register: in mirror mode with its offset in the window reversed (R179). The window is
the one that P lies in. -/
def lcMirror (l p a : Nat) : Nat :=
  if lKind l = 2 ∧ lLen l ≠ 0 then
    let k := log2up (lLen l)
    let base := p / 2 ^ k * 2 ^ k
    base + revBits k (a - base)
  else a

/-- The word address an access uses and P after it, and none where the bundle is illegal (Table 6-5). -/
def LcSt.access (x : LcSt) (p am : Nat) (ofs : Int) (pair : Bool) : Option (Nat × Option Nat) :=
  let pv := x.code (36 + p)
  let l := x.code (52 + p)
  let step : Int := if pair then 2 else 1
  let a0 (a : Nat) : Nat := let b := lcMirror l pv a; if pair then b / 2 * 2 else b
  if am = 6 then some (let b := (ofs % 2048).toNat; if pair then b / 2 * 2 else b, none)
  else if lKind l = 3 then none
  else match am with
    | 0 => some (a0 pv, none)
    | 1 => some (a0 pv, some (lcSum l pv step))
    | 2 => some (a0 pv, some (lcSum l pv (-step)))
    | 3 => some (a0 pv, some (lcSum l pv (sext 16 (x.code (44 + p)))))
    | 4 => some (a0 pv, some (lcSum l pv ofs))
    | 5 => some (a0 (lcSum l pv ofs), none)
    | _ => none

/-- The system address of a word of a core's memory (R25): 0 program, 1 X, 2 Y. -/
def lcAddr (n mem w : Nat) : Nat := 0x0C000000 + n * 0x100000 + mem * 0x10000 + 4 * (w % 16384)

/-- A word of a core's memory. -/
def lcMem (s : State) (n mem w : Nat) : Word := mem32 s (lcAddr n mem w)

/-- A data register's value as a store writes it: sign-extended to 32 bits (R181). -/
def lcStored (v : Nat) : Word := ofI (sext 24 v)

end Sys2Proof.Machine
end

