-- ==== Sys2Proof/Machine/Flags.lean ====
section
/-! DEFINITION. The flags and the arithmetic of the loop cores: saturation and rounding of accumulators (R171 to R175), the
data operations (R176) and the conditions (Table 6-11). -/
namespace Sys2Proof.Machine

/-- A flag written: N 0, Z 1, V 2, C 3, AEU 4. -/
def LcSt.flag (x : LcSt) (i : Nat) (b : Bool) (lat : Nat) : LcWr := lcW (lcFlagKey x.level i) (b2n b) lat

/-- A sticky flag set, AOV 5 or SOV 6: only ever set by a result (R198). -/
def LcSt.stick (x : LcSt) (i : Nat) (b : Bool) (lat : Nat) : List LcWr :=
  if b then [⟨lcFlagKey x.level i, 1, lat, false, true⟩] else []

/-- The flags N, Z, V, C of a result. -/
def LcSt.nzvc (x : LcSt) (n z v c : Bool) (lat : Nat) : List LcWr :=
  [x.flag 0 n lat, x.flag 1 z lat, x.flag 2 v lat, x.flag 3 c lat]

/-! ## Accumulators -/

/-- The limits of a 56-bit accumulator. -/
def accMax : Int := 36028797018963967
def accMin : Int := -36028797018963968

/-- Whether an exact result needs saturation (R173), and the saturated result. -/
def accOver (v : Int) : Bool := v < accMin || accMax < v
def accSat (v : Int) : Int := clampI accMin accMax v

/-- AEU: the guard bits are not all equal to bit 47 (R172). -/
def accAeu (v : Int) : Bool := v < -140737488355328 || 140737488355327 < v

/-- The stored form of an accumulator value. -/
def accNat (v : Int) : Nat := (v % 72057594037927936).toNat

/-- The product of two Q1.23 values in the accumulator's scale (R171). -/
def q23Mul (a b : Int) : Int := 2 * a * b

/-- An accumulator written with an exact result: saturated, with its flags and the AOV trap (R172 to R174). `aov`: the
instruction names AOV among its flags. -/
def LcSt.accW (x : LcSt) (i : Nat) (exact : Int) (lat : Nat) (mul : Bool) : LcEff :=
  let v := accSat exact
  let ovr := accOver exact
  ⟨false, [⟨x.key (32 + i % 4), accNat v, lat, mul, false⟩] ++ x.nzvc (v < 0) (v == 0) false false lat ++
    [x.flag 4 (accAeu v) lat] ++ x.stick 5 ovr lat, [],
    if ovr && x.reg (lcCtlKey x.level 1) / 4 % 2 == 1 then some lat else none⟩

/-- MR.RND of the present level. -/
def LcSt.rnd (x : LcSt) : Nat := x.reg (lcCtlKey x.level 1) % 4

/-- An accumulator rounded at bit 24: truncation, nearest with ties up, nearest with ties to even (Table 6-3), as a multiple
of 2²⁴ counted in units of 2²⁴. -/
def roundAcc (rnd : Nat) (v : Int) : Int :=
  let f := v / 16777216
  let r := v % 16777216
  if rnd = 0 then f
  else if rnd = 1 then (if 8388608 ≤ r then f + 1 else f)
  else if 8388608 < r then f + 1
  else if r = 8388608 ∧ f % 2 = 1 then f + 1
  else f

/-- The 24-bit limits, and a number saturated to them (R176). -/
def d24Over (v : Int) : Bool := v < -8388608 || 8388607 < v
def d24Sat (v : Int) : Int := clampI (-8388608) 8388607 v

/-- A number in 24 bits, wrapping. -/
def d24 (v : Int) : Nat := (v % 16777216).toNat

/-- An accumulator converted to 24 bits, and whether it saturated (R175). -/
def accConv (rnd : Nat) (v : Int) : Int × Bool :=
  let r := roundAcc rnd v
  (d24Sat r, d24Over r)

/-! ## Data operations -/

/-- A data register written with its flags. -/
def LcSt.dataW (x : LcSt) (dd : Nat) (v : Int) (vf c sov : Bool) : LcEff :=
  let r := sext 24 (d24 v)
  LcEff.ofWr ([lcW (x.key dd) (d24 v) 1] ++ x.nzvc (r < 0) (r == 0) vf c 1 ++ x.stick 6 sov 1)

/-- The carry of a 24-bit addition and the no-borrow of a subtraction. -/
def carryAdd (a b : Int) : Bool := 16777216 ≤ d24 a + d24 b
def noBorrow (a b : Int) : Bool := d24 b ≤ d24 a

/-- A wrapping result (R176). -/
def LcSt.wrapW (x : LcSt) (dd : Nat) (v : Int) (c : Bool) : LcEff := x.dataW dd v (d24Over v) c false

/-- A saturating result (R176). -/
def LcSt.satW (x : LcSt) (dd : Nat) (v : Int) (c : Bool) : LcEff := x.dataW dd (d24Sat v) false c (d24Over v)

/-- The flags of CMP: those of the wrapping difference. -/
def LcSt.cmpW (x : LcSt) (a b : Int) : LcEff :=
  let r := sext 24 (d24 (a - b))
  LcEff.ofWr (x.nzvc (r < 0) (r == 0) (d24Over (a - b)) (noBorrow a b) 1)

/-- |v| with |0x80_0000| taken as 0x7F_FFFF. -/
def absClip (v : Int) : Int := min (Int.natAbs v : Int) 8388607

/-- The last bit shifted out of a left or a right shift by `k`; a shift by 0 shifts none out, and the value the spec does not
state there is `free`. -/
def shlOut (v k : Nat) (free : Bool) : Bool := if k = 0 then free else (v / 2 ^ (24 - k)) % 2 == 1
def shrOut (v k : Nat) (free : Bool) : Bool := if k = 0 then free else (v / 2 ^ (k - 1)) % 2 == 1

/-! ## Conditions (Table 6-11) -/

/-- A flag of the present level. -/
def LcSt.fl (x : LcSt) (i : Nat) : Bool := x.reg (lcFlagKey x.level i) % 2 == 1

/-- Whether a condition holds; code 15 is reserved. -/
def LcSt.cond (x : LcSt) (c : Nat) : Bool :=
  let n := x.fl 0
  let z := x.fl 1
  let v := x.fl 2
  match c with
  | 0 => true
  | 1 => z
  | 2 => !z
  | 3 => n != v
  | 4 => n == v
  | 5 => !z && n == v
  | 6 => z || n != v
  | 7 => x.fl 3
  | 8 => !(x.fl 3)
  | 9 => v
  | 10 => !v
  | 11 => x.fl 4
  | 12 => !(x.fl 4)
  | 13 => x.fl 5
  | 14 => x.fl 6
  | _ => false

end Sys2Proof.Machine
end

