-- ==== Sys2Proof/Machine/Signals.lean ====
section
/-! DEFINITION. The signal table and the process image (R14 to R24): entries, slots, publication, safe values, forces,
and the recording of publications (R352, R357, R359). -/
namespace Sys2Proof.Machine

/-! ## Signal-table entries (Table 1-6) -/

def SigEntry.pageType (e : SigEntry) : Nat := fld e.w0 24 8
def SigEntry.inst (e : SigEntry) : Nat := fld e.w0 16 8
def SigEntry.word (e : SigEntry) : Nat := fld e.w0 6 10
def SigEntry.lsb (e : SigEntry) : Nat := fld e.w0 0 6
def SigEntry.typ (e : SigEntry) : Nat := fld e.w1 0 2
def SigEntry.upd (e : SigEntry) : Nat := fld e.w1 4 4
def SigEntry.holds (e : SigEntry) : Bool := bit e.w1 8 || e.typ == 2
def SigEntry.en (e : SigEntry) : Bool := bit e.w1 9
def SigEntry.recDiv (e : SigEntry) : Nat := fld e.w3 0 16

/-- Whether an entry's source is a page. -/
def SigEntry.from (e : SigEntry) (t : PgTy) (n : Nat) : Bool := e.pageType == t.code && e.inst == n

/-- The entry of an ID (R14); ID 0 is the null signal and never enabled (R15). -/
def sigEnt (s : State) (id : Nat) : SigEntry :=
  if id = 0 then SigEntry.reset else SMap.get (fun _ => SigEntry.reset) s.sigs id

/-- The slot of an ID. -/
def slotOf (s : State) (id : Nat) : Slot := SMap.get (fun _ => Slot.reset) s.slots id

/-- A slot replaced. -/
def setSlot (s : State) (id : Nat) (x : Slot) : State :=
  { s with slots := SMap.set (fun _ => Slot.reset) s.slots id x }

/-- Whether the signal table publishes: SIG is in RUN (R354). -/
def sigRun (s : State) : Bool := stOf s .sig 0 == .run

/-- The 64-bit value of a low word with its sign extension (Table 1-8). -/
def sx64 (w : Word) : BitVec 64 := w.signExtend 64

/-- A value of a signal TYPE in the slot layout: Q1.23 from the field's 24 bits, a 32-bit integer from the field on,
a 48.16 position from two words, one bit (Table 1-6, Table 1-8). -/
def typed (typ lsb : Nat) (lo hi : Word) : BitVec 64 :=
  match typ with
  | 0 => sx64 (ofI (sext 24 (lo.toNat >>> lsb)))
  | 1 => sx64 (lo >>> lsb)
  | 2 => hi ++ lo
  | _ => if bit lo lsb then 1 else 0

/-- The value an entry's source register holds now. -/
def sigSource (s : State) (e : SigEntry) : BitVec 64 :=
  match PgTy.ofCode e.pageType with
  | some t => typed e.typ e.lsb (rg s t e.inst (4 * e.word)) (rg s t e.inst (4 * e.word + 4))
  | none => 0

/-- The safe value of an entry in the slot layout (Table 1-6). -/
def safeValue (e : SigEntry) : BitVec 64 := typed e.typ 0 e.w2 0

/-- A slot as it reads: 0 with STATUS 0 while its entry is not enabled or SIG is in OFF, unless a force stands (Table 1-6,
R354); a forced slot of a disabled entry has RAW 0. -/
def slotView (s : State) (id : Nat) : Slot :=
  let x := slotOf s id
  if (sigEnt s id).en && sigRun s then x
  else if x.forced then { x with raw := 0, safe := false, never := false, conflict := false }
  else { x with value := 0, raw := 0, ts := 0, pubCnt := 0, safe := false, never := false, conflict := false }

/-- STATUS of a slot (Table 1-8). -/
def Slot.status (x : Slot) : Word :=
  ofN (b2n x.forced + 2 * b2n x.safe + 4 * b2n x.never + 8 * b2n x.conflict)

/-- The value a consumer reads; the null signal reads 0 (R15). -/
def sigVal (s : State) (id : Nat) : BitVec 64 := if id = 0 then 0 else (slotView s id).value

/-- The low word a consumer reads. -/
def sigLo (s : State) (id : Nat) : Word := (sigVal s id).setWidth 32

/-- A one-bit signal's value. -/
def sigBit (s : State) (id : Nat) : Bool := (sigVal s id).getLsbD 0

/-- Whether a signal stands at its safe value, or its source page is in FAULT or OFF (R21, R122). -/
def sigSafe (s : State) (id : Nat) : Bool := (slotView s id).safe

/-! ## Recording (R352, R357, R359) -/

/-- The most entries the history queue holds (R357). -/
def histQMax : Nat := 65536

/-- Whether the continuous history runs (R357). -/
def histOn (s : State) : Bool := stOf s .recStore 0 == .run && rb s .recStore 0 Reg.REC.CFG 0

/-- A mark put in the queue: marks are never lost (R358). -/
def histMark (s : State) (kind : Nat) (ts : BitVec 35) (v : BitVec 64) : State :=
  if histOn s then { s with histQ := s.histQ ++ [⟨kind, 0, false, false, ts, v⟩] } else s

/-- A chosen publication enters the queue, or is counted as lost when the queue is full (R357, R359). -/
def histPush (s : State) (e : HistEnt) : State :=
  if !histOn s then s
  else if histQMax ≤ s.histQ.length then
    let s1 := setInt (incSat s .recStore 0 Reg.REC.HIST_LOST) .recStore 0 1
    let l := match s.histLost with
      | none => (1, e.ts, tsLo e.ts)
      | some (n, t0, _) => (n + 1, t0, tsLo e.ts)
    { s1 with histLost := some l }
  else
    let s1 := { s with histQ := s.histQ ++ [e] }
    let n := s1.histQ.length
    if (rg s1 .recStore 0 Reg.REC.HIST_PEAK).toNat < n then wr s1 .recStore 0 Reg.REC.HIST_PEAK (ofN n) else s1

/-- A publication counted for its signal's recording: the 1st, (1 + n)-th, ... are recorded (R352). -/
def record (s : State) (id : Nat) (ts : BitVec 35) : State :=
  let n := (sigEnt s id).recDiv
  if n = 0 then s
  else
    let c := SMap.get (fun _ => 0) s.recCnt id
    let s1 := { s with recCnt := SMap.set (fun _ => 0) s.recCnt id ((c + 1) % n) }
    if c = 0 then
      let x := slotOf s id
      histPush s1 ⟨0, id, x.forced, x.safe, ts, x.value⟩
    else s1

/-! ## Records for the Draora Link (R395) -/

/-- What a link port holds besides its registers. -/
def dlkOf (s : State) (p : Nat) : DlkSt := SMap.get (fun _ => DlkSt.reset) s.dlks p

/-- The same, replaced. -/
def setDlk (s : State) (p : Nat) (x : DlkSt) : State := { s with dlks := SMap.set (fun _ => DlkSt.reset) s.dlks p x }

/-- BACKLOG of a port follows its queue. -/
def dlkShow (s : State) (p : Nat) : State := wr s .dlk p Reg.DLK.BACKLOG (ofN (dlkOf s p).recs.length)

/-- A record waits at a port: own records replace a pending one of the same export, forwarded ones queue up. -/
def queueRec (s : State) (p : Nat) (own : Bool) (r : LinkRec) : State :=
  let x := dlkOf s p
  if !inSt s .dlk p [.run, .update] then s
  else if own && x.recs.any (fun q => q.node == r.node && q.exp == r.exp) then
    setDlk s p { x with recs := x.recs.map (fun q => if q.node == r.node && q.exp == r.exp then r else q) }
  else dlkShow (setDlk s p { x with recs := x.recs ++ [r] }) p

/-- The enabled exports of a signal: only written EXPORT words can be enabled. -/
def exportsOf (s : State) (id : Nat) : List Nat :=
  ((s.page (pk .time 0)).regs.filter (fun e => Reg.TIME.EXPORT ≤ e.1 && bit e.2 16 && fld e.2 0 16 == id)).map
    (fun e => (e.1 - Reg.TIME.EXPORT) / 4)

/-- One export of a publication: a record at each port in RUN; one that replaces a pending record counts in COALESCE. -/
def exportOne (s : State) (id : Nat) (ts : BitVec 35) (x : Nat) : State :=
  let node := rf s .time 0 Reg.TIME.DOMAIN 8 5
  let v := (slotOf s id).value
  let r : LinkRec := ⟨node, x, (sigEnt s id).typ, v.setWidth 32, (v >>> 32).setWidth 32, tsLo ts⟩
  let again := (insts .dlk).any (fun p => (dlkOf s p).recs.any (fun q => q.node == node && q.exp == x))
  let s1 := (insts .dlk).foldl (fun s p => queueRec s p true r) s
  if again then incWrap s1 .time 0 Reg.TIME.COALESCE else s1

/-- Each publication of an enabled export makes one record pending (R395). -/
def exportPub (s : State) (id : Nat) (ts : BitVec 35) : State := (exportsOf s id).foldl (fun s x => exportOne s id ts x) s

/-! ## Publication (R17 to R21) -/

/-- A slot that takes another VALUE notes when: a publication of device time `ts` counts from then (R131). -/
def Slot.stamp (x : Slot) (s : State) (ts : BitVec 35) (v : BitVec 64) : Nat :=
  let age := (devTime s.now - ts).toNat
  if x.value = v then x.chg else s.lap s.now - (if age < 17179869184 then age else 0)

/-- A publication lands: RAW follows the source, VALUE too unless a force stands, SAFE and NEVER clear (R17, R20, R21). -/
def pubSlot (s : State) (id : Nat) (v : BitVec 64) (ts : BitVec 35) : State :=
  let x := slotOf s id
  let w := if x.forced then x.value else v
  let x' := { x with raw := v, value := w, ts := ts, safe := false, never := false, pubCnt := x.pubCnt + 1, chg := x.stamp s ts w }
  exportPub (record (setSlot s id x') id ts) id ts

/-- A publication of an enabled signal; nothing is published while SIG is in OFF (R354). -/
def publish (s : State) (id : Nat) (v : BitVec 64) (ts : BitVec 35) : State :=
  if id ≠ 0 ∧ (sigEnt s id).en = true ∧ sigRun s = true then pubSlot s id v ts else s

/-- Every enabled signal of a page that names an update event and whose entry passes a test is published from its source
register (R17). -/
def pubIf (s : State) (t : PgTy) (n : Nat) (ev : UpdEv) (ts : BitVec 35) (test : SigEntry → Bool) : State :=
  s.sigs.foldl (fun s x =>
    if x.2.en && x.2.from t n && x.2.upd == ev.num && test x.2 then publish s x.1 (sigSource s x.2) ts else s) s

/-- Every enabled signal of a page that names an update event is published with a given time (R17). -/
def pubAllAt (s : State) (t : PgTy) (n : Nat) (ev : UpdEv) (ts : BitVec 35) : State := pubIf s t n ev ts (fun _ => true)

/-- Every enabled signal of a page that names an update event is published now (R17). -/
def pubAll (s : State) (t : PgTy) (n : Nat) (ev : UpdEv) : State := pubAllAt s t n ev (devTime s.now)

/-- One slot takes its safe value, or holds its last one, with STATUS.SAFE=1; a force takes precedence; the change counts
as a publication for the history (R21, R352). -/
def safeSlot (s : State) (id : Nat) : State :=
  let e := sigEnt s id
  let x := slotOf s id
  let v := if x.forced || e.holds then x.value else safeValue e
  record (setSlot s id { x with value := v, safe := true, chg := x.stamp s (devTime s.now) v }) id (devTime s.now)

/-- Every enabled signal of a page goes safe (R21). -/
def safeAll (s : State) (t : PgTy) (n : Nat) : State :=
  s.sigs.foldl (fun s x => if x.2.en && x.2.from t n then safeSlot s x.1 else s) s

/-- Every enabled signal of a page whose entry passes a test goes safe. -/
def safeIf (s : State) (t : PgTy) (n : Nat) (test : SigEntry → Bool) : State :=
  s.sigs.foldl (fun s x => if x.2.en && x.2.from t n && test x.2 then safeSlot s x.1 else s) s

/-! ## Forces on slots (R20, R329) -/

/-- A slot takes a forced value (R20); the change counts as a publication (R352). -/
def forceSlot (s : State) (id : Nat) (v : BitVec 64) : State :=
  let x := slotOf s id
  record (setSlot s id { x with value := v, forced := true, chg := x.stamp s (devTime s.now) v }) id (devTime s.now)

/-- A slot released: back to RAW, or to its safe value while its source is stopped (R329). -/
def unforceSlot (s : State) (id : Nat) : State :=
  let e := sigEnt s id
  let x := slotOf s id
  let v := if x.safe && !e.holds then safeValue e else x.raw
  record (setSlot s id { x with value := v, forced := false, chg := x.stamp s (devTime s.now) v }) id (devTime s.now)

end Sys2Proof.Machine
end

