-- ==== Sys2Proof/Machine/Groups.lean ====
section
/-! DEFINITION. Axis groups (R403 to R410): which groups a page belongs to, what a source's raise affects, the levels. -/
namespace Sys2Proof.Machine

/-- The word with one group's bit. -/
def grpBit (g : Nat) : Word := 1#32 <<< g

/-- The groups of an axis. -/
def axisGroups (s : State) (n : Nat) : Word := rg s .flt 0 (Reg.FLT.AXIS_GRP + 4 * n)

/-- The groups of a page (Table 15-1; CAN, PSP and DIO as their chapters state). -/
def groupsOf (s : State) (t : PgTy) (n : Nat) : Word :=
  match t with
  | .axis => axisGroups s n
  | .pcmp => rg s .flt 0 (Reg.FLT.PCMP_GRP + 4 * n)
  | .step => axisGroups s (rf s .step n Reg.STEP.CFG 2 7)
  | .cslot => grpBit (rf s .cslot n Reg.CSLOT.MISC 8 5)
  | .pwm => grpBit (rf s .pwm n Reg.PWM.CFG 16 5)
  | .le => grpBit (rf s .le n Reg.LE.CFG 0 5)
  | .rseq => grpBit (rf s .rseq n Reg.RSEQ.CFG 8 5)
  | .can => grpBit (rf s .can n Reg.CAN.CFG 8 5)
  | .psp => grpBit (rf s .psp n Reg.PSP.CFG 24 5)
  | .dio => grpBit (rf s .dio n Reg.DIO.CFG 16 5)
  | _ => 0

/-- The page types that have groups. -/
def groupTypes : List PgTy := [.axis, .pcmp, .step, .cslot, .pwm, .le, .rseq, .can, .psp, .dio]

/-- The group of a loop task. -/
def taskGroups (s : State) (t : Nat) : Word := grpBit (rf s .lsch 0 (Reg.LSCH.TENTRY + 16 * t) 16 5)

/-- The level of a group (R407). -/
def grpLevel (s : State) (g : Nat) : Nat := rf s .flt 0 (Reg.FLT.GRP_LEVEL + 4 * (g / 8)) (4 * (g % 8)) 3

/-- A group's level set. -/
def setGrpLevel (s : State) (g lv : Nat) : State :=
  wf s .flt 0 (Reg.FLT.GRP_LEVEL + 4 * (g / 8)) (4 * (g % 8)) 3 lv

/-- The groups in recovery (R416). -/
def recovering (s : State) : Word := rg s .flt 0 Reg.FLT.GRP_RECOVERING

/-- The groups of a word. -/
def grpList (w : Word) : List Nat := (List.range 32).filter (fun g => w.getLsbD g)

/-- The strongest level of the groups of a word that meet a test. -/
def maxLevel (s : State) (w : Word) : Nat := (grpList w).foldl (fun m g => max m (grpLevel s g)) 0

/-- Whether START, CONTINUE and RESUME are refused for a page: a group of it stands at HOLD or above and is not recovering
(R410). -/
def blocked (s : State) (t : PgTy) (n : Nat) : Bool :=
  (grpList (groupsOf s t n &&& ~~~recovering s)).any (fun g => decide (3 ≤ grpLevel s g))

/-- The reaction of a source for a group (R406). -/
def reaction (s : State) (src g : Nat) : Nat := rf s .flt 0 (Reg.FLT.REACT + 16 * src + 4 * (g / 8)) (4 * (g % 8)) 3

/-- Whether an axis has a feedback channel as its feedback or its master (Table 15-2, 0x0B to 0x0D). -/
def axisUses (s : State) (kind idx n : Nat) : Bool :=
  let c := rg s .axis n Reg.AXIS.CFG
  let m := rg s .axis n Reg.AXIS.MASTER
  (fld c 0 2 == kind && fld c 2 6 == idx) || (fld m 0 3 == kind && fld m 8 7 == idx)

/-- The groups of the axes that meet a test. -/
def axesWhere (s : State) (f : Nat → Bool) : Word :=
  (insts .axis).foldl (fun w n => if f n then w ||| axisGroups s n else w) 0

/-- Whether a slot takes a fast channel as a measured output or as its sample event (Table 15-2, 0x16). -/
def slotUses (s : State) (ch k : Nat) : Bool :=
  let tr := rg s .cslot k Reg.CSLOT.TRIG
  (fld tr 0 2 == 0 && fld tr 2 7 == ch) ||
    (List.range 4).any (fun m => let y := rg s .cslot k (Reg.CSLOT.Y_SRC + 4 * m); fld y 0 2 == 1 && fld y 2 7 == ch)

/-- The groups of the slots that use some of a list of fast channels. -/
def slotsWith (s : State) (chs : List Nat) : Word :=
  (insts .cslot).foldl (fun w k => if chs.any (fun c => slotUses s c k) then w ||| groupsOf s .cslot k else w) 0

/-- The groups of the modules of a mask of PWM modules. -/
def moduleGroups (s : State) (mask : Word) : Word :=
  (insts .pwm).foldl (fun w n => if mask.getLsbD n then w ||| groupsOf s .pwm n else w) 0

/-- The groups of the tasks assigned to a loop core. -/
def coreGroups (s : State) (c : Nat) : Word :=
  (List.range 128).foldl (fun w t =>
    let e := rg s .lsch 0 (Reg.LSCH.TCFG + 16 * t)
    if bit e 0 && fld e 1 5 == c then w ||| taskGroups s t else w) 0

/-- The channels of a fast converter: converter `v` of a group serves eight groups of four channels, counted within the group. -/
def converterChannels (g v : Nat) : List Nat := (List.range 4).map (fun i => 32 * g + 4 * v + i)

/-- The groups of a memory's owner (R405): a loop core's, an engine's or a bank's; all 32 for any other memory. -/
def memoryGroups (s : State) (t : PgTy) (n : Nat) : Word :=
  match t with
  | .lc => coreGroups s n
  | .ce => (List.range 8).foldl (fun w j => w ||| groupsOf s .cslot (8 * n + j)) 0
  | .le => groupsOf s .le n
  | .rseq => groupsOf s .rseq n
  | .cslot => groupsOf s .cslot n
  | _ => 0xFFFFFFFF

/-- The derived groups of a raise (Table 15-2): none for the device-wide sources. SW_FAULT's are RAISE_MASK, PWM_CLK's are the
modules that were counting, named by the caller. -/
def derivedGroups (s : State) (src : Nat) (t : PgTy) (n sub : Nat) : Word :=
  match src with
  | 0x01 => moduleGroups s (rg s .fin 0 (Reg.FIN.MAP + 4 * sub))
  | 0x03 => groupsOf s t n
  | 0x04 => groupsOf s t n
  | 0x05 => groupsOf s t n
  | 0x06 => groupsOf s t n
  | 0x07 => taskGroups s sub
  | 0x08 => coreGroups s n
  | 0x09 => coreGroups s sub
  | 0x0A => memoryGroups s t n
  | 0x0B => axesWhere s (axisUses s 1 n)
  | 0x0C => axesWhere s (axisUses s 1 n)
  | 0x0D => axesWhere s (axisUses s 2 n)
  | 0x0E => groupsOf s t n
  | 0x0F => groupsOf s t n
  | 0x10 => groupsOf s t n
  | 0x11 => groupsOf s t n
  | 0x12 => groupsOf s t n
  | 0x13 => groupsOf s t n
  | 0x14 => groupsOf s t n
  | 0x15 => groupsOf s t n
  | 0x16 => slotsWith s [n]
  | 0x17 => slotsWith s (converterChannels n sub)
  | 0x1A => groupsOf s t n
  | 0x24 => rg s .flt 0 Reg.FLT.RAISE_MASK
  | _ => 0

/-- The page types that raise a source (Table 15-2): none for the reserved codes, which are never raised. -/
def raisers (src : Nat) : List PgTy :=
  match src with
  | 0x01 => [.fin]
  | 0x02 => [.pwm]
  | 0x03 => [.pwm]
  | 0x04 => [.cslot]
  | 0x05 => [.cslot]
  | 0x06 => [.cslot]
  | 0x07 => [.lsch]
  | 0x08 => [.lc]
  | 0x09 => [.lsch]
  | 0x0A => [.mem, .fab, .lc, .ce, .le, .rseq]
  | 0x0B => [.enc]
  | 0x0C => [.enc]
  | 0x0D => [.ssn]
  | 0x14 => [.pcmp]
  | 0x15 => [.step]
  | 0x16 => [.fch]
  | 0x17 => [.fcg]
  | 0x18 => [.pcv]
  | 0x19 => [.pcv]
  | 0x1A => [.le]
  | 0x1E => [.dlk]
  | 0x20 => [.can]
  | 0x21 => [.dio]
  | 0x22 => [.tamp]
  | 0x23 => [.pwr]
  | 0x24 => [.flt]
  | n => if 0x0E ≤ n ∧ n ≤ 0x13 then [.axis] else if 0x1B ≤ n ∧ n ≤ 0x1F then [.time] else []

/-- The LEVEL sources of Table 15-2. -/
def levelSources : List Nat := [0x01, 0x02, 0x0D, 0x18, 0x1B, 0x1E, 0x21, 0x23]

end Sys2Proof.Machine
end

