-- ==== Sys2Proof/Machine/Engines.lean ====
section
/-! DEFINITION. What a commit does to a page, the program slots of the logic engines (R305, R319 to R323), the banks of the
recipe steppers (R343), the ORPHAN bits of the force table (R331), and how these engines stop. -/
namespace Sys2Proof.Machine

/-! ## Commits (R49) -/

/-- Staged values of some registers of a page become active. -/
def Page.takeSome (t : PgTy) (test : Nat → Bool) (p : Page) : Page :=
  { p with regs := (p.staged.filter (fun e => test e.1)).foldl (fun m e => SMap.set (regReset t) m e.1 e.2) p.regs,
           staged := p.staged.filter (fun e => !test e.1) }

/-- Every staged value of a page becomes active and the commit is over (R49). -/
def Page.take (t : PgTy) (p : Page) : Page :=
  { p.takeSome t (fun _ => true) with
    dirty := false, commit := .none, err := 0, intRaw := p.intRaw ||| 0x40000000 }

/-- The same, on the state. -/
def takeStaged (s : State) (t : PgTy) (n : Nat) : State := s.modPage (pk t n) (Page.take t)

/-- Whether an accepted commit of a page may take effect at its boundary: FREEZE holds it back (R51). -/
def commitReady (s : State) (t : PgTy) (n : Nat) : Bool :=
  let p := s.page (pk t n)
  p.commit == .accepted && !p.freeze

/-! ## Publication by an engine (R19, R316, R338) -/

/-- A publication attempt by a block that is not the named source is discarded and sets STATUS.CONFLICT (R19). -/
def sigConflict (s : State) (id : Nat) : State :=
  if (sigEnt s id).en then setSlot s id { slotOf s id with conflict := true } else s

/-- A publication by a block: of its own signal it lands in the signal's TYPE, of another it is a conflict. -/
def pubBy (s : State) (own : SigEntry → Bool) (id : Nat) (v : BitVec 64) (ts : BitVec 35) : State :=
  let e := sigEnt s id
  if own e then publish s id (typed e.typ 0 (v.setWidth 32) ((v >>> 32).setWidth 32)) ts else sigConflict s id

/-! ## Logic engines -/

/-- What a logic engine holds besides its registers. -/
def leOf (s : State) (e : Nat) : LeSt := SMap.get (fun _ => LeSt.reset) s.les e

/-- The same, replaced. -/
def setLe (s : State) (e : Nat) (x : LeSt) : State := { s with les := SMap.set (fun _ => LeSt.reset) s.les e x }

/-- A slot of an engine, and the engine with a slot replaced. -/
def LeSt.slot (x : LeSt) (k : Nat) : Option LeSlot := if k = 0 then x.slot0 else x.slot1
def LeSt.setSlot (x : LeSt) (k : Nat) (y : Option LeSlot) : LeSt :=
  if k = 0 then { x with slot0 := y } else { x with slot1 := y }

/-- A bench of an engine, and the engine with a bench replaced. -/
def LeSt.bench (x : LeSt) (b : Nat) : LeBench := x.benches.getD b .reset
def LeSt.setBench (x : LeSt) (b : Nat) (y : LeBench) : LeSt := { x with benches := x.benches.set b y }

/-- The slot named by the active PRG_SLOT, and the slot each bench runs (SLOT_ACT). -/
def leRunning (s : State) (e : Nat) : Nat := rf s .le e Reg.LE.PRG_SLOT 0 1
def leSlotAct (s : State) (e b : Nat) : Nat := rf s .le e Reg.LE.STAT (4 + b) 1

/-- Whether a bench is enabled. -/
def leBenchEn (s : State) (e b : Nat) : Bool := rb s .le e (Reg.LE.BENCH_CTRL + 16 * b) 0

/-- The benches of an engine. -/
def benchNos : List Nat := [0, 1, 2, 3]

/-- Whether an accepted commit of an engine exchanges its program (R319). -/
def leExchanging (s : State) (e : Nat) : Bool :=
  (s.page (pk .le e)).commit == .accepted && changed s .le e Reg.LE.PRG_SLOT

/-- Whether a commit of PRG_SLOT is pending, validating or accepted (R312, Table 2-5). -/
def leProgCommit (s : State) (e : Nat) : Bool := (s.page (pk .le e)).commit != .none && changed s .le e Reg.LE.PRG_SLOT

/-- STAT.RUNNING and EXCH follow the benches and the commit. -/
def leShow (s : State) (e : Nat) : State :=
  let x := leOf s e
  let w := benchNos.foldl (fun w b => if (x.bench b).run then w + 2 ^ b else w) 0
  wb (wf s .le e Reg.LE.STAT 0 4 w) .le e Reg.LE.STAT 9 (leExchanging s e)

/-- Data bytes and number of the instances of a slot that are resident on their own account (R305). -/
def LeSlot.bytes (y : LeSlot) : Nat := y.insts.foldl (fun n i => if i.kept then n else n + i.data.length) 0
def LeSlot.count (y : LeSlot) : Nat := y.insts.foldl (fun n i => if i.kept then n else n + 1) 0

/-- The slots of all engines. -/
def leSlots (s : State) : List LeSlot :=
  (insts .le).flatMap (fun e => (leOf s e).slot0.toList ++ (leOf s e).slot1.toList)

/-- Program bytes, instance bytes and instances resident (R305). -/
def lePrgUsed (s : State) : Nat := (leSlots s).foldl (fun n y => n + y.code) 0
def leInstUsed (s : State) : Nat := (leSlots s).foldl (fun n y => n + y.bytes) 0
def leInstCount (s : State) : Nat := (leSlots s).foldl (fun n y => n + y.count) 0

/-- POOL_PRG, POOL_INST and INST_TOTAL show the same values on all six pages (R327). -/
def lePools (s : State) : State :=
  (insts .le).foldl (fun s e =>
    wr (wr (wr s .le e Reg.LE.POOL_PRG (ofN (0x100000 - lePrgUsed s))) .le e Reg.LE.POOL_INST (ofN (0x400000 - leInstUsed s)))
      .le e Reg.LE.INST_TOTAL (ofN (leInstCount s))) s

/-- Whether a write entry of the running slot of an engine names a signal (R331). -/
def leWrites (s : State) (e id : Nat) : Bool :=
  match (leOf s e).slot (leRunning s e) with
  | some y => y.list.any (fun g => g.out && g.id == id)
  | none => false

/-! ## Recipe steppers -/

/-- What a recipe stepper holds besides its registers. -/
def rseqOf (s : State) (r : Nat) : RseqSt := SMap.get (fun _ => RseqSt.reset) s.rseqs r

/-- The same, replaced. -/
def setRseq (s : State) (r : Nat) (x : RseqSt) : State :=
  { s with rseqs := SMap.set (fun _ => RseqSt.reset) s.rseqs r x }

/-- A bank of a stepper, and the stepper with a bank replaced. -/
def RseqSt.bankAt (x : RseqSt) (k : Nat) : Option RBank := if k = 0 then x.bank0 else x.bank1
def RseqSt.setBank (x : RseqSt) (k : Nat) (y : Option RBank) : RseqSt :=
  if k = 0 then { x with bank0 := y } else { x with bank1 := y }

/-- The bank that plays. -/
def rseqActive (s : State) (r : Nat) : Nat := rf s .rseq r Reg.RSEQ.BANK_SEL 0 1

/-- The recipe in the active bank. -/
def rseqRecipe (s : State) (r : Nat) : Option RBank := (rseqOf s r).bankAt (rseqActive s r)

/-- The actions of a step. -/
def RBank.actsOf (y : RBank) (i : Nat) : List RAct :=
  match y.steps[i]? with
  | some st => (y.acts.drop st.first).take st.num
  | none => []

/-- Whether a recipe has a step that writes a signal. -/
def RBank.writes (y : RBank) (id : Nat) : Bool :=
  (List.range y.steps.length).any (fun i => (y.actsOf i).any (fun a => a.sig == id))

/-- Whether a step of the recipe in the active bank of a stepper writes a signal (R331). -/
def rseqWrites (s : State) (r id : Nat) : Bool :=
  match rseqRecipe s r with
  | some y => y.writes id
  | none => false

/-- STEP_NOW of a stepper. -/
def RseqSt.now (x : RseqSt) : Word := ofN (x.cur + 8192 * x.path + 32768 * x.bank)

/-- Whether an accepted commit of a stepper switches its bank (R343). -/
def rseqSwitching (s : State) (r : Nat) : Bool :=
  (s.page (pk .rseq r)).commit == .accepted && rseqActive s r != stf s .rseq r Reg.RSEQ.BANK_SEL 0 1

/-- Whether a commit that switches the bank is pending, validating or accepted (R337, Table 2-5). -/
def rseqSwitchCommit (s : State) (r : Nat) : Bool :=
  (s.page (pk .rseq r)).commit != .none && rseqActive s r != stf s .rseq r Reg.RSEQ.BANK_SEL 0 1

/-- BANK_STAT, BANK_ID and BANK_CRC of a bank. -/
def rseqShowBank (s : State) (r k : Nat) : State :=
  match (rseqOf s r).bankAt k with
  | some y =>
    wr (wr (wr s .rseq r (Reg.RSEQ.BANK_STAT + 4 * k) (ofN (1 + 65536 * y.steps.length))) .rseq r (Reg.RSEQ.BANK_ID + 4 * k) y.id)
      .rseq r (Reg.RSEQ.BANK_CRC + 4 * k) y.crc
  | none => wb s .rseq r (Reg.RSEQ.BANK_STAT + 4 * k) 0 false

/-- The registers that show a stepper's state. -/
def rseqShow (s : State) (r : Nat) : State :=
  let x := rseqOf s r
  let stat := ofN (rseqActive s r + 2 * x.path + 8 * b2n (stOf s .rseq r == .hold) + 16 * b2n (rseqSwitching s r)
    + 256 * min 64 x.runs.length)
  let from_ := match x.held with
    | some (i, e) => ofN (i + 0x8000 + 65536 * min e 65535)
    | none => 0
  [(Reg.RSEQ.STAT, stat), (Reg.RSEQ.STEP_NOW, x.now), (Reg.RSEQ.STEP_ELAPSED, ofN (x.el % 16777216)),
    (Reg.RSEQ.HOLD_FROM, from_), (Reg.RSEQ.TLOG_COUNT, ofN x.log.length)].foldl (fun s e => wr s .rseq r e.1 e.2) s

/-! ## The force table: ORPHAN (R331) -/

/-- The number of entries of the force table. -/
def frcEntries : List Nat := List.range 256

/-- An entry that holds no force. -/
def ForceEnt.none : ForceEnt := ⟨0, 0, 0, false⟩

/-- An entry of the force table. -/
def frcEnt (s : State) (i : Nat) : ForceEnt := SMap.get (fun _ => ForceEnt.none) s.frc i

/-- An entry replaced, mirrored at once into the retention store (R331). -/
def setFrc (s : State) (i : Nat) (x : ForceEnt) : State :=
  { s with frc := SMap.set (fun _ => ForceEnt.none) s.frc i x, frcKeep := SMap.set (fun _ => ForceEnt.none) s.frcKeep i x }

/-- Whether a force on a signal is orphaned (R331). -/
def frcOrphan (s : State) (id : Nat) : Bool :=
  let e := sigEnt s id
  !e.en || (e.pageType == 0x24 && !leWrites s e.inst id) || (e.pageType == 0x26 && e.word == 0 && !rseqWrites s e.inst id)

/-- STAT of FRC. -/
def frcShow (s : State) : State :=
  let n := s.frc.length
  let o := (s.frc.filter (fun e => e.2.orphan)).length
  wr s .frc 0 Reg.FRC.STAT (ofN (n + 65536 * o))

/-- Every entry's ORPHAN is evaluated; one that newly becomes 1 sets INT_RAW.ORPHAN (R331). -/
def frcEval (s : State) : State :=
  let newly := s.frc.any (fun e => frcOrphan s e.2.id && !e.2.orphan)
  let f := fun (e : Nat × ForceEnt) => (e.1, { e.2 with orphan := frcOrphan s e.2.id })
  let s1 := frcShow { s with frc := s.frc.map f, frcKeep := s.frcKeep.map f }
  if newly then setInt s1 .frc 0 2 else s1

/-! ## Program exchange (R319 to R323) -/

/-- The instances of a bench of a new slot take over the data of the old slot's matched instances (R321), which count once while both slots
hold them (R305). -/
def carryOver (b : Nat) (old : Option LeSlot) (y : LeSlot) : LeSlot :=
  let from_ (i : LeInst) : LeInst := match old.bind (fun o => o.insts.find? (fun j => j.id == i.id && j.bench == b)) with
    | some j => { i with data := j.data, fb := j.fb }
    | none => i
  { y with insts := y.insts.map (fun i => if i.bench == b && i.kept then from_ i else i) }

/-- A bench switches to the other slot (R319). -/
def leSwitch (s : State) (e b : Nat) : State :=
  let old := leSlotAct s e b
  let x := leOf s e
  let y := (x.slot (1 - old)).map (carryOver b (x.slot old))
  setInt (wf (setLe s e (x.setSlot (1 - old) y)) .le e Reg.LE.STAT (4 + b) 1 (1 - old)) .le e 3

/-- Whether a register belongs to a bench. -/
def benchReg (b off : Nat) : Bool := Reg.LE.BENCH_CTRL + 16 * b ≤ off && off < Reg.LE.BENCH_CTRL + 16 * b + 16

/-- The staged values of a bench and, where the commit exchanges the program, its slot take effect (R319, R323). -/
def leBenchPass (s : State) (e b : Nat) : State :=
  let s1 := s.modPage (pk .le e) (Page.takeSome .le (benchReg b))
  if leSlotAct s1 e b != stf s1 .le e Reg.LE.PRG_SLOT 0 1 then leSwitch s1 e b else s1

/-- Whether a bench still waits for its boundary. -/
def leWaits (s : State) (e b : Nat) : Bool := stOf s .le e == .run && leBenchEn s e b

/-- Whether a commit concerns a bench that has not passed its boundary. -/
def leConcerned (s : State) (e b : Nat) : Bool :=
  [0, 4, 8, 12].any (fun i => changed s .le e (Reg.LE.BENCH_CTRL + 16 * b + i)) ||
    leSlotAct s e b != stf s .le e Reg.LE.PRG_SLOT 0 1

/-- The last bench has passed: the commit is over and, after an exchange, the old slot is freed (R319). -/
def leCommitEnd (s : State) (e : Nat) : State :=
  if changed s .le e Reg.LE.PRG_SLOT then
    let old := leRunning s e
    let s1 := takeStaged s .le e
    let own (y : LeSlot) : LeSlot := { y with insts := y.insts.map (fun i => { i with kept := false }) }
    let x := leOf s1 e
    let s2 := setLe s1 e ((x.setSlot (1 - old) ((x.slot (1 - old)).map own)).setSlot old none)
    frcEval (lePools (setInt (wb s2 .le e Reg.LE.STAT 8 false) .le e 4))
  else takeStaged s .le e

/-- An accepted commit goes as far as it can: every bench that need not wait passes at once (R319, R323). -/
def leCommitStep (s : State) (e : Nat) : State :=
  if commitReady s .le e then
    let s1 := benchNos.foldl (fun s b => if !leWaits s e b && leConcerned s e b then leBenchPass s e b else s) s
    let busy := benchNos.any (fun b => leWaits s1 e b)
    let s2 := if busy then s1 else s1.modPage (pk .le e) (Page.takeSome .le (fun o => o == Reg.LE.CFG))
    let open_ := changed s2 .le e Reg.LE.CFG || benchNos.any (fun b => leConcerned s2 e b)
    leShow (if open_ then s2 else leCommitEnd s2 e) e
  else leShow s e

/-- A bench that starts its cycle passes the boundary of an accepted commit: its own words, CFG and its slot (R319, R323). -/
def leCycleBoundary (s : State) (e b : Nat) : State :=
  if commitReady s .le e then
    leCommitStep ((leBenchPass s e b).modPage (pk .le e) (Page.takeSome .le (fun o => o == Reg.LE.CFG))) e
  else s

/-- Every cycle and release of an engine dropped, with its held writes. -/
def LeSt.stopped (x : LeSt) : LeSt :=
  { x with benches := x.benches.map (fun y => { y with rel := none, run := false, snap := [] }) }

/-- An engine leaves RUN or HOLD for a state without cycles; a commit that waited takes effect. -/
def leHalt (s : State) (e : Nat) (st : PgState) : State :=
  leCommitStep (setSt (setLe s e (leOf s e).stopped) .le e st) e

/-- An engine stopped at once, its signals at their safe values (Table 11-7). -/
def leStop (s : State) (e : Nat) (st : PgState) : State := safeAll (leHalt s e st) .le e

/-- SAFE by a reaction or a debug halt. -/
def leSafe (s : State) (e : Nat) : State := if inSt s .le e [.idle, .run, .hold] then leStop s e .safe else s

/-! ## Bank switches and stops of the steppers (R341, R343) -/

/-- A commit of a stepper takes effect; with a bank switch the loop counters return to 0 and ORPHAN is re-evaluated; in
HOLD the switch discards HOLD_FROM and CONTINUE enters the new ENTRY (R343). -/
def rseqTake (s : State) (r : Nat) : State :=
  if changed s .rseq r Reg.RSEQ.BANK_SEL && rseqActive s r != stf s .rseq r Reg.RSEQ.BANK_SEL 0 1 then
    let x := rseqOf s r
    let x1 := if stOf s .rseq r == .hold then { x with loops := [], held := none, atEntry := true } else { x with loops := [] }
    rseqShow (frcEval (setInt (takeStaged (setRseq s r x1) .rseq r) .rseq r 2)) r
  else rseqShow (takeStaged s .rseq r) r

/-- Outside RUN an accepted commit takes effect at once (R343, R49). -/
def rseqCommitStep (s : State) (r : Nat) : State :=
  if commitReady s .rseq r && stOf s .rseq r != .run then rseqTake s r else rseqShow s r

/-- A stepper without ramps, pulses or requests. -/
def RseqSt.stopped (x : RseqSt) : RseqSt :=
  { x with runs := [], holdReq := none, abortReq := none, held := none, atEntry := false, ending := none, timeout := false }

/-- A stepper enters a state without steps. -/
def rseqHalt (s : State) (r : Nat) (st : PgState) : State :=
  rseqCommitStep (setSt (setRseq s r (rseqOf s r).stopped) .rseq r st) r

/-- A stepper stopped at once, its signals at their safe values (Table 12-5). -/
def rseqStop (s : State) (r : Nat) (st : PgState) : State := safeAll (rseqHalt s r st) .rseq r

/-- SAFE by a reaction or a debug halt. -/
def rseqSafe (s : State) (r : Nat) : State := if inSt s .rseq r [.idle, .run, .hold] then rseqStop s r .safe else s

/-- A hold or abort request (R341): the first one stands until an edge has served it. -/
def rseqRequest (s : State) (r : Nat) (abort : Bool) (cause : Nat) : State :=
  let x := rseqOf s r
  if !inSt s .rseq r [.run, .hold] then s
  else if abort then setRseq s r { x with abortReq := x.abortReq.or (some cause) }
  else setRseq s r { x with holdReq := x.holdReq.or (some cause) }

/-- A level reaches a stepper (R341): HOLD makes a hold request, QUICKSTOP and TORQUE_OFF an abort request. -/
def rseqReact (s : State) (r lv : Nat) : State :=
  if lv = 6 then rseqSafe s r else if 4 ≤ lv then rseqRequest s r true 4 else rseqRequest s r false 3

end Sys2Proof.Machine
end

