-- ==== Sys2Proof/Machine/PwmOut.lean ====
section
/-! DEFINITION. What a PWM module drives (R252, R256, R259, R262 to R266, Table 9-4): references, minimum pulses, dead times, forces
and safe levels. -/
namespace Sys2Proof.Machine

/-- What a PWM module holds besides its registers. -/
def pwmOf (s : State) (n : Nat) : PwmSt := SMap.get (fun _ => PwmSt.reset) s.pwms n

/-- The same, replaced. -/
def setPwm (s : State) (n : Nat) (x : PwmSt) : State := { s with pwms := SMap.set (fun _ => PwmSt.reset) s.pwms n x }

/-- A pair of a module, and a module with one pair replaced. -/
def PwmSt.pair (x : PwmSt) (p : Nat) : PwmPair := x.pairs.getD p .reset
def PwmSt.setPair (x : PwmSt) (p : Nat) (y : PwmPair) : PwmSt := { x with pairs := x.pairs.set p y }

/-- Whether a module counts up and down. -/
def pwmUpDown (s : State) (n : Nat) : Bool := rb s .pwm n Reg.PWM.CFG 0

/-- The dead times and the minimum pulse, in steps. -/
def pwmDtH (s : State) (n : Nat) : Nat := rf s .pwm n Reg.PWM.DT 0 16
def pwmDtL (s : State) (n : Nat) : Nat := rf s .pwm n Reg.PWM.DT 16 16
def pwmMinp (s : State) (n : Nat) : Nat := rf s .pwm n Reg.PWM.MINP 0 16

/-! ## The reference (R252, R256, R259) -/

/-- The edges of a pair's reference in the present period, as (time, level), in order (R252): the first half of an up-down period runs on the
T it began with, the second on the T in use (R255); D = T has no edge at the end of the period. -/
def refEdges (s : State) (n p : Nat) : List (Nat × Bool) :=
  let x := pwmOf s n
  let y := x.pair p
  let t := x.per
  if pwmUpDown s n then
    let mid := x.mid.getD (x.zero + x.half / 2)
    let rise := if y.d1 = 0 then mid else x.zero + (x.half / 2 - (y.d1 + 1) / 2)
    if y.d1 = 0 && y.d2 = 0 then [(x.zero, false)]
    else (x.zero, decide (x.half ≤ y.d1)) :: (rise, true) :: (if t ≤ y.d2 then [] else [(mid + y.d2 / 2, false)])
  else if y.d1 = 0 then [(x.zero, false)]
  else if t ≤ y.d1 then [(x.zero, true)]
  else [(x.zero, true), (x.zero + y.d1, false)]

/-- An edge moves the reference, as (level, time of its last change), if its time has come: an output pulse that has begun, after
the dead time of its side, lasts at least MINP (R259). -/
def refEdge (s : State) (n t : Nat) (r : Bool × Nat) (e : Nat × Bool) : Bool × Nat :=
  let began := r.2 + (if r.1 then pwmDtH s n else pwmDtL s n)
  let due := if began ≤ e.1 then max e.1 (began + pwmMinp s n) else e.1
  if e.2 != r.1 && decide (due ≤ t) then (e.2, due) else r

/-- The level of a pair's reference at a time and the time of its last change. -/
def refAt (s : State) (n p t : Nat) : Bool × Nat :=
  let y := (pwmOf s n).pair p
  (refEdges s n p).foldl (refEdge s n t) (y.lvl, y.at_)

/-! ## The outputs (Table 9-4) -/

/-- Whether a fault pin mapped to a module is latched (Table 9-4, rank 1). -/
def finHolds (s : State) (n : Nat) : Bool :=
  (List.range 16).any (fun p => rb s .fin 0 Reg.FIN.LATCH p && rb s .fin 0 (Reg.FIN.MAP + 4 * p) n)

/-- Whether the pad hold cells drive a module's pads (R266). -/
def pwmHeld (s : State) (n : Nat) : Bool := s.pwmClkLost || !powered s .pwm n

/-- POL_H, POL_L, SAFE_H and SAFE_L of a pair, as bits 4 to 7: those the hold cells have where they drive the pads (R266). -/
def pairPads (s : State) (n p : Nat) : Word :=
  if pwmHeld s n then SMap.get (fun _ => 0) s.pwmPads (4 * n + p) else rg s .pwm n (Reg.PWM.PAIR_CFG + 4 * p)

/-- The safe levels of a pair at a time: an active one waits for its partner (R263, R264). -/
def pairSafe (s : State) (n p t : Nat) : Bool × Bool :=
  let y := (pwmOf s n).pair p
  let c := pairPads s n p
  (bit c 6 && decide (y.hOn ≤ t), bit c 7 && decide (y.lOn ≤ t))

/-- A pair's output levels (active or not) at a time, by the highest-ranking cause of Table 9-4 below the asynchronous ones. -/
def pwmDriven (s : State) (n p t : Nat) : Bool × Bool :=
  let x := pwmOf s n
  let y := x.pair p
  let c := rg s .pwm n (Reg.PWM.PAIR_CFG + 4 * p)
  if !x.run || !inSt s .pwm n [.run, .hold] then pairSafe s n p t
  else if y.force ≠ 0 then (y.force == 1 && decide (y.hOn ≤ t), y.force == 2 && decide (y.lOn ≤ t))
  else if rb s .pwm n Reg.PWM.STAT (13 + p) then pairSafe s n p t
  else
    let (l, since) := refAt s n p t
    let h := l && decide (since + pwmDtH s n ≤ t) && decide (y.hOn ≤ t)
    let lo := !l && decide (since + pwmDtL s n ≤ t) && decide (y.lOn ≤ t)
    match fld c 0 2 with
    | 0 => (h, lo)
    | 1 => (h, false)
    | _ => (false, false)

/-- A pair's output levels (active or not) at a time, by the highest-ranking cause of Table 9-4. -/
def pwmOut (s : State) (n p t : Nat) : Bool × Bool :=
  if finHolds s n || pwmHeld s n then pairSafe s n p t else pwmDriven s n p t

/-- The levels of a pair's two pins at a time (R256). -/
def pwmPins (s : State) (n p t : Nat) : Bool × Bool :=
  let (h, l) := pwmOut s n p t
  let c := pairPads s n p
  (h != bit c 4, l != bit c 5)

/-- The times from which each output of a pair may be active once the cause that drives it changes: at once if it is active already,
else when its partner has been inactive for the dead time of its own side, `dh` or `dl` (R262, R263). The reference last drove the partner in
COMPL, and H alone in HIGH_ONLY (R256). -/
def pairReady (s : State) (n p t dh dl : Nat) : Nat × Nat :=
  let y := (pwmOf s n).pair p
  let mode := rf s .pwm n (Reg.PWM.PAIR_CFG + 4 * p) 0 2
  let (h, lo) := if pwmHeld s n then pairSafe s n p t else pwmDriven s n p t
  let refs := !pwmHeld s n && (pwmOf s n).run && inSt s .pwm n [.run, .hold] && y.force == 0 && !rb s .pwm n Reg.PWM.STAT (13 + p)
  let (l, since) := refAt s n p t
  (if h then t else if lo then t + dh else if refs && mode == 0 && l then max t (since + dh) else max t y.hOn,
   if lo then t else if h then t + dl else if refs && decide (mode ≤ 1) && !l then max t (since + dl) else max t y.lOn)

/-- The clocked cause that drives a pair's outputs changes at a time. -/
def pairTurn (s : State) (n p t : Nat) : PwmPair :=
  let r := pairReady s n p t (pwmDtH s n) (pwmDtL s n)
  { (pwmOf s n).pair p with hOn := r.1, lOn := r.2 }

/-- The asynchronous path takes a pair's outputs: both go inactive, and an active safe level follows no sooner than the dead time of its side
and up to a quarter of it and 50 ns later (R264, R266). DEDUCED (log entry 182): the delay counts from there, whichever output was active. -/
def pairForced (s : State) (n p t : Nat) : PwmPair :=
  let slack (d : Nat) : Nat := (Config.free32 s.seed).toNat % (d / 4 + 401)
  let after (d : Nat) : Nat := t + d + slack d
  { (pwmOf s n).pair p with hOn := after (pwmDtH s n), lOn := after (pwmDtL s n) }

/-- The cause that drives a module's outputs changes at a time; `async`: through the asynchronous path. -/
def pwmTurn (s : State) (n t : Nat) (async : Bool) : State :=
  let turn (p : Nat) : PwmPair := if async then pairForced s n p t else pairTurn s n p t
  let s1 := setPwm s n { pwmOf s n with pairs := (List.range 3).map turn }
  if async then s1.next else s1

/-- The fraction on its way stands in the shadow once its PD8 cycle is over (R12, R255). -/
def PwmPair.absorb (y : PwmPair) (l : Nat) : PwmPair :=
  match y.inc with
  | some (a, f) => if a / 10 < l / 10 then { y with frac := f, fresh := true, inc := none } else y
  | none => y

/-- The slot that maps a pair stops: its fractions count no more (R270). -/
def PwmPair.gone (y : PwmPair) : PwmPair := { y with fresh := false, inc := none }

end Sys2Proof.Machine
end

