-- ==== Sys2Proof/Machine/React.lean ====
section
/-! DEFINITION. What a reaction of the fault manager does to a member page (R408, R129, R156, R164, Table 8-5, R270,
Table 11-7, R341 and the chapters of CAN, PSP and DIO), and the safe entry each page shares with a debug halt (R42). -/
namespace Sys2Proof.Machine

/-! ## Compare units (R156) -/

/-- What a compare unit holds besides its registers. -/
def pcmpOf (s : State) (n : Nat) : PcmpSt := SMap.get (fun _ => PcmpSt.reset) s.pcmps n

/-- The same, replaced. -/
def setPcmp (s : State) (n : Nat) (e : PcmpSt) : State :=
  { s with pcmps := SMap.set (fun _ => PcmpSt.reset) s.pcmps n e }

/-- A compare value as HEAD_POS shows it: 48.16 counts, or the TSTAMP layout for the TIME source. -/
def pcmpShown (time : Bool) (pos : Int) : Int :=
  if time then pos / 536870912 % 34359738368 else pos / 65536

/-- The registers that show the queues follow them; QEMPTY shows an empty queue once EN=1 (Table 5-3). -/
def pcmpSync (s : State) (n : Nat) : State :=
  let x := pcmpOf s n
  let time := rf s .pcmp n Reg.PCMP.CFG 0 2 == 2
  let s1 := wr (wf (wf s .pcmp n Reg.PCMP.STAT 1 1 (b2n (x.q.isEmpty && stOf s .pcmp n != .off))) .pcmp n Reg.PCMP.STAT 2 1 (b2n (decide (32 ≤ x.q.length))))
    .pcmp n Reg.PCMP.QCOUNT (ofN x.q.length)
  let s2 := match x.q with
    | [] => wr (wr64 s1 .pcmp n Reg.PCMP.HEAD_POS_LO 0) .pcmp n Reg.PCMP.HEAD_REPEAT 0
    | e :: _ => wr (wr64 s1 .pcmp n Reg.PCMP.HEAD_POS_LO (pcmpShown time e.pos)) .pcmp n Reg.PCMP.HEAD_REPEAT
        (ofN (e.rep + 16777216 * e.tag))
  let s3 := wr s2 .pcmp n Reg.PCMP.LQ_COUNT (ofN x.lq.length)
  match x.lq with
  | [] => s3
  | l :: _ =>
    wr (wr (wr64 s3 .pcmp n Reg.PCMP.LATCH_POS_LO l.pos.toInt) .pcmp n Reg.PCMP.LATCH_TS_LO (tsLo l.ts)) .pcmp n
      Reg.PCMP.LATCH_TS_HI (ofN ((tsHi l.ts).toNat + 8 * b2n l.rising + 16 * b2n l.mark))

/-- The output level before OUT_INV. -/
def pcmpOut (s : State) (n : Nat) (b : Bool) : State := wb s .pcmp n Reg.PCMP.STAT 0 b

/-- A compare unit enters SAFE: the output takes SAFE_LVL, the queue is emptied (R156). -/
def pcmpSafe (s : State) (n : Nat) : State :=
  if inSt s .pcmp n [.run, .hold, .fault, .idle] then
    let x := pcmpOf s n
    let s1 := setPcmp (setSt s .pcmp n .safe) n { x with q := [], pulse := none, next := none, win := none }
    let s2 := pcmpOut s1 n (rb s .pcmp n Reg.PCMP.CFG 11 != rb s .pcmp n Reg.PCMP.CFG 10)
    let s3 := if rf s .pcmp n Reg.PCMP.CFG 24 5 < x.q.length then setInt s2 .pcmp n 10 else s2
    safeAll (pcmpSync (wb (wb s3 .pcmp n Reg.PCMP.STAT 7 true) .pcmp n Reg.PCMP.STAT 6 false) n) .pcmp n
  else s

/-! ## Step channels (R164) -/

/-- What a step channel holds besides its registers. -/
def stepOf (s : State) (n : Nat) : StepSt := SMap.get (fun _ => StepSt.reset) s.steps n

/-- The same, replaced. -/
def setStep (s : State) (n : Nat) (e : StepSt) : State := { s with steps := SMap.set (fun _ => StepSt.reset) s.steps n e }

/-- The whole counts that the interpolated set-point has reached by the nearest step of an extended time (R160): the line from SETP of tick k to
SETP of tick k + 1, drawn between tick k + 1 and tick k + 2. A count is crossed backwards where the line leaves it. -/
def stepPlaced (s : State) (n t : Nat) : Int :=
  let x := stepOf s n
  let dt : Int := min (2 * (t - x.t) + 1) 125000
  let p := x.from_ * 125000 + (x.to_ - x.from_) * dt
  if x.to_ < x.from_ ∧ dt < 125000 then -((-p) / (125000 * 65536)) - 1 else p / (125000 * 65536)

/-- The direction that STEPnD shows at an extended time, backward: that of the last step until it has ended and one in the other direction
is owed (R161). -/
def stepBack (s : State) (n t : Nat) : Bool :=
  let x := stepOf s n
  let c := rg64 s .step n Reg.STEP.STEPS_LO
  let d := stepPlaced s n t
  let ended := match x.edge with
    | some e => decide (e + 10 * rf s .step n Reg.STEP.PULSE_T 0 16 ≤ s.lap t)
    | none => true
  if stOf s .step n == .run && rf s .step n Reg.STEP.CFG 0 2 == 0 && d != c && ended then decide (d < c) else x.back

/-- A step channel stops: owed steps are discarded, no further step follows, STEPnD holds its level, the phases and the hold amplitude are
0 (R162, R164). -/
def stepHalt (s : State) (n : Nat) (st : PgState) : State :=
  let s1 := wf (wr (wr (wr (setSt s .step n st) .step n Reg.STEP.LAG 0) .step n Reg.STEP.PHASE_A 0) .step n
    Reg.STEP.PHASE_B 0) .step n Reg.STEP.STAT 1 2 0
  setStep s1 n { stepOf s n with ovr := false, back := stepBack s n s.now }

/-- A step channel enters SAFE. -/
def stepSafe (s : State) (n : Nat) : State :=
  if inSt s .step n [.run, .idle, .fault] then safeAll (stepHalt s n .safe) .step n else s

/-! ## Axes (R129) -/

/-- What an axis holds besides its registers. -/
def axisOf (s : State) (n : Nat) : AxisSt := SMap.get (fun _ => AxisSt.reset) s.axes n

/-- The same, replaced. -/
def setAxis (s : State) (n : Nat) (x : AxisSt) : State := { s with axes := SMap.set (fun _ => AxisSt.reset) s.axes n x }

/-- STAT.MOTION of an axis. -/
def motion (s : State) (n : Nat) : Nat := rf s .axis n Reg.AXIS.STAT 0 4

/-! ## Control slots (Table 8-5) -/

/-- What a control slot holds besides its registers. -/
def cslotOf (s : State) (k : Nat) : CslotSt := SMap.get (fun _ => CslotSt.reset) s.cslots k

/-- The same, replaced. -/
def setCslot (s : State) (k : Nat) (x : CslotSt) : State :=
  { s with cslots := SMap.set (fun _ => CslotSt.reset) s.cslots k x }

/-- The states in which a slot samples. -/
def cslotLive (s : State) (k : Nat) : Bool := inSt s .cslot k [.run, .update]

/-- CE.STAT shows the slots of an engine that sample and those in fallback (Table 8-7). -/
def ceSync (s : State) (e : Nat) : State :=
  let m (f : Nat → Bool) : Nat := (List.range 8).foldl (fun w i => if f (8 * e + i) then w + 2 ^ i else w) 0
  wf (wf s .ce e Reg.CE.STAT 0 8 (m (cslotLive s))) .ce e Reg.CE.STAT 8 8
    (m (fun k => stOf s .cslot k == .update))

/-- The pairs (module, pair) that the controls of a set of values reach, by control (R229, R230): in the DQ frame control 0 reaches
the three pairs of its module and the map of control 1 is ignored. `f` reads a register, staged or active. -/
def csPairs (f : Nat → Word) : List (Nat × Nat × Nat) :=
  (List.range 4).flatMap (fun u =>
    let w := f (Reg.CSLOT.U_MAP + 4 * u)
    let dq := bit (f Reg.CSLOT.CFG) 1
    if fld (f Reg.CSLOT.DIMS) 12 3 ≤ u ∨ fld w 0 2 ≠ 1 ∨ (dq = true ∧ u = 1) then []
    else if dq && u == 0 then (List.range 3).map (fun p => (u, fld w 2 5, p))
    else [(u, fld w 2 5, fld w 8 2)])

/-- The pairs that a slot maps see it stop (R270). -/
def slotGone (s : State) (k : Nat) : State :=
  (csPairs (rg s .cslot k)).foldl (fun s e => setPwm s e.2.1 ((pwmOf s e.2.1).setPair e.2.2 ((pwmOf s e.2.1).pair e.2.2).gone)) s

/-- A slot stops sampling: its update phase is dropped, its fallback and its learning end. -/
def cslotHalt (s : State) (k : Nat) (st : PgState) : State :=
  let x := cslotOf s k
  let s1 := setCslot (setSt (slotGone s k) .cslot k st) k { x with work := none, written := 0, dog := 0, dogSaid := 0, last := none, trg := none }
  let q := (SMap.get (fun _ => []) s1.ceQ (k / 8)).filter (fun j => j != k)
  let s2 := { s1 with ceQ := SMap.set (fun _ => []) s1.ceQ (k / 8) q }
  ceSync (wf (wb s2 .cslot k Reg.CSLOT.STAT 12 false) .cslot k Reg.CSLOT.STAT 0 4 0) (k / 8)

/-- Whether a page is the repetitive master that a slot's REP_CFG names (R236). -/
def repNames (s : State) (k : Nat) (t : PgTy) (n : Nat) : Bool :=
  let r := rg s .cslot k Reg.CSLOT.REP_CFG
  let i := fld r 8 7
  match fld r 5 2 with
  | 1 => t = .enc && i % 64 == n
  | 2 => t = .axis && i == n
  | 3 => t = .ssn && i % 16 == n
  | _ => false

/-- The repetitive master of a slot leaves RUN (R239): the slot shows it, stops learning and applies no correction from the next sample. -/
def repLost1 (s : State) (k : Nat) : State :=
  let x := cslotOf s k
  let s1 := setCslot s k { x with corr := [0, 0, 0, 0], work := x.work.map (fun w => { w with repOn := false }) }
  setInt (wf s1 .cslot k Reg.CSLOT.STAT 0 4 0) .cslot k 9

/-- The slots that a page leads see it leave RUN (R239). -/
def repLost (s : State) (t : PgTy) (n : Nat) : State :=
  (insts .cslot).foldl (fun s k => if stOf s .cslot k != .off && repNames s k t n then repLost1 s k else s) s

/-- A feedback channel or an axis takes a state; the slots it leads see it leave RUN (R239). -/
def leadSt (s : State) (t : PgTy) (n : Nat) (st : PgState) : State :=
  if stOf s t n = .run && st != .run then repLost (setSt s t n st) t n else setSt s t n st

/-- A level reaches an axis, which changes its set-point at the next base tick (R408); TORQUE_OFF and SAFE_ALL enter SAFE at once (R129). -/
def axisReact (s : State) (n lv : Nat) : State :=
  let x := axisOf s n
  if stOf s .axis n == .off then s
  else
    let s1 := if 5 ≤ lv && inSt s .axis n [.run, .hold] then leadSt s .axis n .safe else s
    setAxis s1 n { x with req := max x.req lv }

/-- Whether an entry's source is U_OUT of a slot. -/
def SigEntry.uOut (e : SigEntry) : Bool := 0x20C ≤ e.word && e.word < 0x210

/-- A slot enters SAFE or FAULT: no duties, controls published as 0, learning stopped, tables kept (Table 8-5). -/
def cslotStop (s : State) (k : Nat) (st : PgState) : State :=
  let s3 := (List.range 4).foldl (fun s j => wr s .cslot k (Reg.CSLOT.U_OUT + 4 * j) 0) (cslotHalt s k st)
  let s4 := s3.sigs.foldl (fun s x => if x.2.en && x.2.from .cslot k && x.2.uOut then publish s x.1 0 (devTime s.now) else s) s3
  safeIf s4 .cslot k (fun e => !e.uOut)

/-- A slot enters SAFE. -/
def cslotSafe (s : State) (k : Nat) : State :=
  if inSt s .cslot k [.run, .idle, .update] then cslotStop s k .safe else s

/-! ## PWM modules (R270) -/

/-- A module enters SAFE or FAULT with a cause: bit 4 FIN, 5 REACTION, 6 DEBUG, 7 CLOCK, 8 READBACK of STAT; the CARRY
accumulators are cleared (R258) and its counter runs on (Table 9-5). -/
def pwmStop (s : State) (n cause : Nat) (st : PgState) : State :=
  let s0 := pwmTurn s n s.now (cause = 4)
  let x := pwmOf s0 n
  let s1 := setPwm (setSt s0 .pwm n st) n { x with pairs := x.pairs.map (fun y => { y with qh := 0, ql := 0 }) }
  let s2 := (List.range 3).foldl (fun s p => wr s .pwm n (Reg.PWM.CARRY_ACC + 4 * p) 0) s1
  setInt (wb s2 .pwm n Reg.PWM.STAT cause true) .pwm n 4

/-- A module that drives its outputs enters SAFE. -/
def pwmSafe (s : State) (n cause : Nat) : State := if inSt s .pwm n [.run, .hold] then pwmStop s n cause .safe else s

/-- What a fast channel holds besides its registers. -/
def fchOf (s : State) (c : Nat) : FchSt := SMap.get (fun _ => FchSt.reset) s.fchs c

/-- The same, replaced. -/
def setFch (s : State) (c : Nat) (x : FchSt) : State := { s with fchs := SMap.set (fun _ => FchSt.reset) s.fchs c x }

/-- A trigger event reaches the fast channels in RUN whose TRIG names it: their effective triggers are due DELAY later (R278). -/
def fchEvent (s : State) (t : Nat) (named : Word → Bool) : State :=
  (insts .fch).foldl (fun s c =>
    if stOf s .fch c == .run && named (rg s .fch c Reg.FCH.TRIG) then
      let x := fchOf s c
      setFch s c { x with due := x.due ++ [s.lap t + 10 * rf s .fch c Reg.FCH.DELAY 0 16] }
    else s) s

/-! ## Peripheral serial ports (R444) -/

/-- What a peripheral serial port holds besides its registers. -/
def pspOf (s : State) (n : Nat) : PspSt := SMap.get (fun _ => PspSt.reset) s.psps n

/-- The same, replaced. -/
def setPsp (s : State) (n : Nat) (x : PspSt) : State := { s with psps := SMap.set (fun _ => PspSt.reset) s.psps n x }

/-- A port in RUN that is told to go safe sends its safe words at its next trigger (R444). -/
def pspSafe (s : State) (n : Nat) : State :=
  if stOf s .psp n == .run then setPsp s n { pspOf s n with safe := true } else s

/-- A CAN controller in RUN that is told to go safe sends nothing more and goes on receiving (R469). -/
def canSafe (s : State) (k : Nat) : State := if stOf s .can k == .run then setSt s .can k .safe else s

/-- The field interface enters SAFE with a cause: 1 reaction, 2 debug, 3 silence; outputs stand at SAFE_VAL, inputs publish
(R487). -/
def dioSafe (s : State) (cause : Nat) : State :=
  if inSt s .dio 0 [.run, .idle] then wf (setSt s .dio 0 .safe) .dio 0 Reg.DIO.STAT 8 3 cause else s

/-- A page acts on a level of HOLD or above (R408). -/
def reactPage (s : State) (t : PgTy) (n lv : Nat) : State :=
  match t with
  | .axis => axisReact s n lv
  | .pcmp => if lv = 6 then pcmpSafe s n else s
  | .step => if 5 ≤ lv then stepSafe s n else s
  | .cslot => if 5 ≤ lv then cslotSafe s n else s
  | .pwm => if 5 ≤ lv then pwmSafe s n 5 else s
  | .le => if lv = 6 then leSafe s n else s
  | .rseq => rseqReact s n lv
  | .psp => if lv = 6 then pspSafe s n else s
  | .can => if lv = 6 then canSafe s n else s
  | .dio => if lv = 6 then dioSafe s 1 else s
  | _ => s

end Sys2Proof.Machine
end

