-- ==== Sys2Proof/Machine/Flt.lean ====
section
/-! DEFINITION. The fault manager (R404 to R420): raising a source, the levels, the log, ends of conditions, recovery. -/
namespace Sys2Proof.Machine

/-! ## The log (R412 to R415) -/

/-- LOG_COUNT follows the log. -/
def syncLog (s : State) : State := wr s .flt 0 Reg.FLT.LOG_COUNT (ofN s.flog.length)

/-- Whether an entry is of an instance of a source. -/
def FltEnt.of (e : FltEnt) (src : Nat) (t : PgTy) (n sub : Nat) : Bool :=
  e.src == src && e.pgType == t.code && e.inst == n && (src != 1 || e.sub == sub)

/-- The last entry that meets a test, changed. -/
def modLast (f : FltEnt → Bool) (g : FltEnt → FltEnt) (l : List FltEnt) : List FltEnt :=
  let r := l.reverse
  match r.findIdx? f with
  | none => l
  | some i => (r.mapIdx (fun j e => if j = i then g e else e)).reverse

/-- The place of the entry a new one displaces: the oldest of those with the lowest REACT (R414). -/
def displacedIdx (l : List FltEnt) : Nat :=
  let m := l.foldl (fun m e => min m e.react) 7
  (l.findIdx? (fun e => e.react == m)).getD 0

/-- A new entry written (R412, R414). -/
def putEntry (s : State) (e : FltEnt) : State :=
  let s1 := if s.flog.length < 256 then { s with flog := s.flog ++ [e] }
    else setInt (incSat { s with flog := (s.flog.eraseIdx (displacedIdx s.flog)) ++ [e] } .flt 0 Reg.FLT.DISPLACED) .flt 0 6
  let s2 := wr s1 .flt 0 Reg.FLT.LOG_SEQ (ofN ((e.seq + 1) % 65536))
  setInt (syncLog s2) .flt 0 0

/-- The entry or the repeat of a raise (R412, R413). -/
def logRaise (s : State) (e : FltEnt) (t : PgTy) (n : Nat) : State :=
  match s.flog.reverse.find? (fun x => x.of e.src t n e.sub) with
  | some x =>
    if x.ack then putEntry s e
    else
      let again (x : FltEnt) : FltEnt := { x with rpt := min (x.rpt + 1) 65535, active := x.active || e.active }
      { s with flog := modLast (fun x => x.of e.src t n e.sub) again s.flog }
  | none => putEntry s e

/-! ## Levels (R407, R408, R418) -/

/-- SRC_ACTIVE follows the holds (R404). -/
def syncActive (s : State) : State :=
  let w := s.holds.foldl (fun w h => w ||| (1#64 <<< h.src)) (0 : BitVec 64)
  wr (wr s .flt 0 Reg.FLT.SRC_ACTIVE_LO (w.setWidth 32)) .flt 0 Reg.FLT.SRC_ACTIVE_HI ((w >>> 32).setWidth 32)

/-- The level sent to every member page of some groups that stand at HOLD or above; a page in several groups acts on the
strongest of their levels (R408). -/
def sendLevels (s : State) (w : Word) : State :=
  let hot := (grpList w).foldl (fun m g => if 3 ≤ grpLevel s g then m ||| grpBit g else m) (0 : Word)
  if hot = 0 then s
  else
    let s1 := setInt s .flt 0 2
    groupTypes.foldl (fun s t => (insts t).foldl (fun s n =>
      let gs := groupsOf s1 t n
      if gs &&& hot = 0 then s else reactPage s t n (maxLevel s1 gs)) s) s1

/-- The groups whose level a raise brings to HOLD or above. -/
def risen (s s' : State) (w : Word) : Word :=
  (grpList w).foldl (fun m g => if grpLevel s g < grpLevel s' g && 3 ≤ grpLevel s' g then m ||| grpBit g else m) (0 : Word)

/-- Each group of a word takes the greater of its level and a given one (R407). -/
def raiseLevels (s : State) (w : Word) (lv : Nat → Nat) : State :=
  (grpList w).foldl (fun s g => if grpLevel s g < lv g then setGrpLevel s g (lv g) else s) s

/-- A raise with its derived groups (R404 to R413, R418). -/
def raiseG (s : State) (src : Nat) (t : PgTy) (n sub detail : Nat) (derived : Word) : State :=
  let level := levelSources.contains src
  if !powered s .flt 0 then s
  else if level && s.holds.any (fun h => h.src == src && h.pgType == t.code && h.inst == n && h.sub == sub) then s
  else
    let g := derived ||| rg s .flt 0 (Reg.FLT.SRC_MASK + 4 * src)
    let s1 := if level then syncActive { s with holds := s.holds ++ [⟨src, t.code, n, sub, g⟩] } else s
    let top := (grpList g).foldl (fun m x => max m (reaction s src x)) 0
    let r := recovering s
    let abandon := decide (3 ≤ top) && decide (r ≠ 0)
    let gs := if abandon then r ||| g else g
    let lvA := max (maxLevel s r) top
    let s2 := if abandon then raiseLevels s1 gs (fun _ => lvA) else raiseLevels s1 g (reaction s src)
    let s3 := if abandon then setInt (wr { s2 with recDue := [] } .flt 0 Reg.FLT.GRP_RECOVERING 0) .flt 0 4 else s2
    let e : FltEnt := { seq := rf s .flt 0 Reg.FLT.LOG_SEQ 0 16, src := src, react := top, ack := false, active := level
                        abandon := abandon, pgType := t.code, inst := n, sub := sub, detail := detail % 65536
                        groups := gs, ts := devTime s.now, wrap := s.now / 34359738368 % 8192, rpt := 0 }
    let s4 := if 1 ≤ top then logRaise s3 e t n else s3
    let s5 := if 2 ≤ top then setInt s4 .flt 0 1 else s4
    sendLevels s5 (if abandon then gs else risen s s5 g)

/-- A raise of a source by an instance, with the derived groups of Table 15-2. -/
def raise (s : State) (src : Nat) (t : PgTy) (n sub detail : Nat) : State :=
  raiseG s src t n sub detail (derivedGroups s src t n sub)

/-- An entry put in its place among entries of one cycle: ascending source code, then instance. -/
def insertEntry (e : FltEnt) : List FltEnt → List FltEnt
  | [] => [e]
  | x :: l => if e.src < x.src || (e.src == x.src && decide (e.inst < x.inst)) then e :: x :: l else x :: insertEntry e l

/-- The raises of one island cycle are logged in ascending source code, and then instance (R411): the entries written since a state
stand in that order, numbered in it. -/
def raisedTogether (s0 s : State) : State :=
  let q0 := rf s0 .flt 0 Reg.FLT.LOG_SEQ 0 16
  let m := min ((rf s .flt 0 Reg.FLT.LOG_SEQ 0 16 + 65536 - q0) % 65536) s.flog.length
  let q1 := rf s .flt 0 Reg.FLT.LOG_SEQ 0 16 + 65536 - m
  let new := (s.flog.drop (s.flog.length - m)).foldl (fun l e => insertEntry e l) []
  if m ≤ 1 then s
  else { s with flog := s.flog.take (s.flog.length - m) ++ new.mapIdx (fun i e => { e with seq := (q1 + i) % 65536 }) }

/-- An instance's LEVEL condition ends (R404). -/
def endRaise (s : State) (src : Nat) (t : PgTy) (n sub : Nat) : State :=
  let mine := fun (h : Hold) => h.src == src && h.pgType == t.code && h.inst == n && h.sub == sub
  if s.holds.any mine then
    let ovr (x : FltEnt) : FltEnt := { x with active := false }
    let s1 := { s with holds := s.holds.filter (fun h => !mine h), flog := modLast (fun x => x.of src t n sub) ovr s.flog }
    setInt (syncActive s1) .flt 0 7
  else s

/-! ## Recovery and the commands (R416 to R419) -/

/-- The groups of RECOVER_MASK whose level is above NONE. -/
def recoverable (s : State) : Word :=
  (grpList (rg s .flt 0 Reg.FLT.RECOVER_MASK)).foldl (fun w g => if grpLevel s g = 0 then w else w ||| grpBit g) (0 : Word)

/-- What the FLT page says of its commands (R416, R417, R419). -/
def fltRule (s : State) (code : Nat) : Option CmdRule :=
  match code with
  | 0x10 =>
    let w := recoverable s
    some ⟨true, true, firstOf [(w == 0 || s.holds.any (fun h => decide (h.groups &&& w ≠ 0)), .wrongState)]⟩
  | 0x11 => some ⟨false, true, firstOf [(recovering s &&& rg s .flt 0 Reg.FLT.RECOVER_MASK == 0, .wrongState)]⟩
  | 0x12 => some ⟨true, true, none⟩
  | 0x13 => some ⟨false, true, none⟩
  | 0x14 => some ⟨false, true, firstOf [(rg s .flt 0 Reg.FLT.RAISE_MASK == 0, .range)]⟩
  | 0x05 => some ⟨false, true, none⟩
  | _ => none

/-- RECOVER takes groups into recovery, with the RECOVER_T active now, counted in elapsed time (R416, R417). -/
def recoverAct (s : State) : State :=
  let w := recoverable s
  let due := s.lap s.now + 8000000 * rf s .flt 0 Reg.FLT.CFG 0 16
  let s1 := wr s .flt 0 Reg.FLT.GRP_RECOVERING (recovering s ||| w)
  { s1 with recDue := (grpList w).foldl (fun m g => SMap.set (fun _ => 0) m g due) s1.recDue }

/-- RECOVERED ends recovery: the levels return to NONE (R417). -/
def recoveredAct (s : State) : State :=
  let w := recovering s &&& rg s .flt 0 Reg.FLT.RECOVER_MASK
  let s1 := (grpList w).foldl (fun s g => setGrpLevel s g 0) s
  let s2 := { s1 with recDue := (grpList w).foldl (fun m g => SMap.erase m g) s1.recDue }
  setInt (wr s2 .flt 0 Reg.FLT.GRP_RECOVERING (recovering s &&& ~~~w)) .flt 0 3

/-- The effect of an FLT command (Table 15-5). -/
def fltAct (s : State) (code : Nat) : State :=
  match code with
  | 0x10 => recoverAct s
  | 0x11 => recoveredAct s
  | 0x12 => { s with flog := s.flog.map (fun e => { e with ack := true }) }
  | 0x13 => syncLog { s with flog := s.flog.filter (fun e => !e.ack || e.active) }
  | 0x14 => raise s 0x24 .flt 0 0 (rf s .flt 0 Reg.FLT.RAISE_DETAIL 0 16)
  | _ => s

/-- A group still recovering RECOVER_T ms after its RECOVER leaves recovery with its level kept (R417). -/
def recoverTimeout (s : State) (g : Nat) : State :=
  if (recovering s).getLsbD g && SMap.get (fun _ => 0) s.recDue g ≤ s.lap s.now then
    setInt (wr { s with recDue := SMap.erase s.recDue g } .flt 0 Reg.FLT.GRP_RECOVERING
      (recovering s &&& ~~~(grpBit g))) .flt 0 5
  else s

/-- The words of a log entry (Table 15-4). -/
def FltEnt.word (e : FltEnt) (i : Nat) : Word :=
  match i with
  | 0 => ofN (e.seq + e.src * 65536 + e.react * 16777216 + b2n e.ack * 134217728 + b2n e.active * 268435456
      + b2n e.abandon * 536870912)
  | 1 => ofN (e.pgType * 16777216 + e.inst * 65536 + e.detail)
  | 2 => e.groups
  | 3 => tsLo e.ts
  | _ => ofN (fld (tsHi e.ts) 0 3 + e.wrap * 8 + e.rpt * 65536)

/-- A write of LOG_IDX selects an entry by age, or is ignored with RANGE (R415). -/
def fltLogIdx (s : State) (v : Word) : State :=
  if fld v 0 8 < s.flog.length then wr s .flt 0 Reg.FLT.LOG_IDX (ofN (fld v 0 8)) else rejWr s .flt 0 .range Reg.FLT.LOG_IDX

/-- The words of the entry that LOG_IDX selects; none while the log is empty. -/
def fltLogWord (s : State) (i : Nat) : Word :=
  match s.flog[rf s .flt 0 Reg.FLT.LOG_IDX 0 8]? with
  | some e => e.word i
  | none => 0

/-- The RANGE and LIFECYCLE tests of a staged FLT set (R406, R419); `secured`: the part is in state SECURED. -/
def fltValidate (s : State) (secured : Bool) : List (Bool × Nat × ErrCode) :=
  (staged s .flt 0 Reg.FLT.CFG == 0, Reg.FLT.CFG, .range) ::
  (List.range 256).map (fun i =>
    let o := Reg.FLT.REACT + 4 * i
    ((List.range 8).any (fun k => fld (staged s .flt 0 o) (4 * k) 3 == 7), o, .range)) ++
  (if secured then
    ([1, 2].flatMap (fun src => (List.range 4).map (fun w =>
      let o := Reg.FLT.REACT + 16 * src + 4 * w
      ((List.range 8).any (fun k => decide (fld (staged s .flt 0 o) (4 * k) 3 < 5)), o, .lifecycle))))
   else [])

end Sys2Proof.Machine
end

