-- ==== Sys2Proof/Machine/LoopSched.lean ====
section
/-! DEFINITION. The loop scheduler, first part (R200 to R218): tasks and cores, overruns, standby cores, images, and the end of
a stitch-over or a fail-over. -/
namespace Sys2Proof.Machine

/-! ## Tasks and cores -/

/-- A word of a task's descriptor: 0 TCFG, 1 TENTRY, 2 TBUDGET, 3 TSTAT (Table 7-6). -/
def taskReg (t i : Nat) : Nat := Reg.LSCH.TCFG + 16 * t + 4 * i

/-- Enable, core, period in ticks, phase and deadline in ticks of a task (R200, R206). -/
def taskEn (s : State) (t : Nat) : Bool := rb s .lsch 0 (taskReg t 0) 0
def taskCore (s : State) (t : Nat) : Nat := rf s .lsch 0 (taskReg t 0) 1 5
def taskPeriod (s : State) (t : Nat) : Nat := 2 ^ rf s .lsch 0 (taskReg t 0) 8 4
def taskPhase (s : State) (t : Nat) : Nat := rf s .lsch 0 (taskReg t 0) 12 8
def taskDeadline (s : State) (t : Nat) : Nat :=
  let d := rf s .lsch 0 (taskReg t 0) 20 8
  if d = 0 then taskPeriod s t else d

/-- The tasks. -/
def tasks : List Nat := List.range 128

/-- The enabled tasks of a core, in ascending index. -/
def coreTasks (s : State) (c : Nat) : List Nat := tasks.filter (fun t => taskEn s t && taskCore s t == c)

/-- Whether a core's STANDBY bit is set (R210). -/
def standby (s : State) (c : Nat) : Bool := rb s .lsch 0 Reg.LSCH.STANDBY c

/-- A register changed by the hardware in both its active and its staged value. -/
def both (s : State) (t : PgTy) (n off : Nat) (f : Word → Word) : State :=
  let st := (s.page (pk t n)).staged.map (fun e => if e.1 = off then (e.1, f e.2) else e)
  (wr s t n off (f (rg s t n off))).modPage (pk t n) (fun p => { p with staged := st })

/-- The STANDBY bits of two cores exchanged, in the active and in the staged value, each by itself (R210). -/
def swapStandby (s : State) (a b : Nat) : State :=
  both s .lsch 0 Reg.LSCH.STANDBY (fun w => setBit (setBit w a (bit w b)) b (bit w a))

/-- A core's STANDBY bit, active and staged (R210). -/
def setStandby (s : State) (c : Nat) (b : Bool) : State := both s .lsch 0 Reg.LSCH.STANDBY (fun w => setBit w c b)

/-- Whether a core takes part in the operation in progress. -/
def inOp (s : State) (c : Nat) : Bool :=
  match s.lschOp with
  | some o => o.op != 3 && (o.src == c || o.dst == c)
  | none => false

/-- Whether a core runs its self-test. -/
def selfTesting (s : State) (c : Nat) : Bool := (s.page (pk .lc c)).busy

/-- Whether a core is a free standby (R210). -/
def freeStandby (s : State) (c : Nat) : Bool :=
  decide (c < 18) && standby s c && !inOp s c && !selfTesting s c && stOf s .lc c == .idle && (lcOf s c).halt == 0

/-- The state an LC page shows (R220): IDLE and RUN follow the tasks it serves while LSCH is in RUN; a core that has come out of
FAULT and has not been loaded since serves none. -/
def lcSync (s : State) (c : Nat) : State :=
  if inSt s .lc c [.idle, .run] then
    let serving := !(coreTasks s c).isEmpty && stOf s .lsch 0 == .run && !(lcOf s c).bare
    setSt s .lc c (if serving then .run else .idle)
  else s

/-- Every LC page follows. -/
def lcSyncAll (s : State) : State := (insts .lc).foldl lcSync s

/-- FLAGS bits of a task's next sample (Table 7-1): 0 FIRST, 1 MOVED, 2 RESTORED, 3 OVR_PREV. -/
def taskFlag (s : State) (t i : Nat) (b : Bool) : State :=
  let w := setBit (ofN (SMap.get (fun _ => 0) s.taskFlags t)) i b
  { s with taskFlags := SMap.set (fun _ => 0) s.taskFlags t w.toNat }

/-- STAT and HALT_EPC of a core (Table 7-9) follow what it does. -/
def lcShow (s : State) (c : Nat) : State :=
  let x := lcOf s c
  let role := match s.lschOp with
    | some o => if o.op = 3 then (if standby s c then 0 else 1)
      else if o.src = c then 2 else if o.dst = c then 3 else if standby s c then 0 else 1
    | none => if standby s c then 0 else 1
  let task := match x.act with
    | .sample t => t
    | _ => rf s .lc c Reg.LC.STAT 9 7
  let run := match x.act with
    | .sample _ => 1
    | _ => 0
  let w := role + 4 * x.halt + 32 * x.level + 128 * rf s .lc c Reg.LC.STAT 7 1 + 256 * run + 512 * task
  wr (wr s .lc c Reg.LC.STAT (ofN w)) .lc c Reg.LC.HALT_EPC (ofN x.haltPc)

/-! ## Overruns (R206, R207) -/

/-- A sample is lost: OVR_CNT counts it; a cut one counts in CONSEC too and may raise LC_OVERRUN. -/
def lschLost (s : State) (t : Nat) (cut : Bool) : State :=
  let s1 := incSat s .lsch 0 (Reg.LSCH.OVR_CNT + 4 * t)
  if cut then
    let c0 := rf s1 .lsch 0 (taskReg t 3) 24 4
    let c1 := min (c0 + 1) 15
    let s2 := wf (setInt (wf s1 .lsch 0 (taskReg t 3) 24 4 c1) .lsch 0 0) .lsch 0 Reg.LSCH.STAT 24 7 t
    let s3 := taskFlag s2 t 3 true
    if c0 < c1 && c1 == rf s .lsch 0 Reg.LSCH.OVR_LIMIT 0 4 then setInt (raise s3 0x07 .lsch 0 t t) .lsch 0 1 else s3
  else s1

/-- Level 0 of a core comes to an end: nothing of it is left, and its buffered outputs are discarded. -/
def LcSt.clear0 (x : LcSt) : LcSt :=
  { x with act := .idle, out := [], charged := 0, reps := SMap.erase x.reps 0, flow := SMap.erase x.flow 0 }

/-- No sample of a core runs any more: level 0 comes to an end, and its task shows no running sample (Table 7-7). -/
def lcStop (s : State) (c : Nat) : State :=
  let x := lcOf s c
  let s1 := match x.act with
    | .sample t => wf s .lsch 0 (taskReg t 3) 28 1 0
    | _ => s
  setLc s1 c x.clear0

/-- Whether the running sample of a core is due to be cut (R206). -/
def lcDue (s : State) (c : Nat) : Bool :=
  let x := lcOf s c
  match x.act with
  | .sample t => (rg s .lsch 0 (taskReg t 2)).toNat ≤ x.charged || x.tick + taskDeadline s t ≤ s.lschTick
  | _ => false

/-- The sample in progress is cut: its outputs are discarded and the overrun counts (R206). -/
def lcCut (s : State) (c : Nat) : State :=
  match (lcOf s c).act with
  | .sample t => lschLost (lcStop s c) t true
  | _ => s

/-! ## Images (R214) -/

/-- Whether an address is 4 KiB aligned in the loop-image partition (R209, Table 1-10). -/
def imgAddr (lo hi : Word) : Nat := joinN lo hi

/-- A header word of an image. -/
def imgWord (s : State) (a i : Nat) : Nat := (mem32 s (a + 4 * i)).toNat

/-- Whether an image's header and CRC pass (Table 7-5). -/
def imgLen (s : State) (a : Nat) : Nat := 0x20 + 4 * (imgWord s a 1 + imgWord s a 2 + imgWord s a 3)
def imgOk (s : State) (a : Nat) : Bool :=
  let p := imgWord s a 1
  let x := imgWord s a 2
  let y := imgWord s a 3
  imgWord s a 0 == 0x4C430001 && 1 ≤ p && p ≤ 16384 && x ≤ 16384 && y ≤ 16384 &&
    mem32 s (a + 0x14) == 0 && mem32 s (a + 0x18) == 0 && mem32 s (a + 0x1C) == 0 &&
    crc32c (memBytes s (a + 0x20) (4 * (p + x + y))) == mem32 s (a + 0x10)

/-- Bytes of memory in a range taken away: they read as memory that nothing has written. -/
def clearRange (s : State) (a n : Nat) : State := { s with mem := s.mem.filter (fun e => !(a ≤ e.1 && e.1 < a + n)) }

/-- A range of memory copied to another; the ranges do not overlap. -/
def copyRange (s : State) (src dst n : Nat) : State :=
  let l := s.mem.filter (fun e => src ≤ e.1 && e.1 < src + n)
  l.foldl (fun s e => putMem8 s (dst + (e.1 - src)) e.2) (clearRange s dst n)

/-- A memory of a core loaded with words of an image; the words beyond them are 0 (R214). -/
def loadMem (s : State) (c mem a words : Nat) : State :=
  copyRange (clearRange s (lcAddr c mem 0) 65536) a (lcAddr c mem 0) (4 * words)

/-- Program and Y of a core loaded from an image, and X when `x`. -/
def loadImage (s : State) (c a : Nat) (x : Bool) : State :=
  let p := imgWord s a 1
  let nx := imgWord s a 2
  let s1 := loadMem s c 0 (a + 0x20) p
  let s2 := if x then loadMem s1 c 1 (a + 0x20 + 4 * p) nx else s1
  loadMem s2 c 2 (a + 0x20 + 4 * (p + nx)) (imgWord s a 3)

/-! ## Operations of LSCH (R211 to R218) -/

/-- STAT.OP, OP_SRC and OP_DST follow the operation in progress. -/
def opSync (s : State) : State :=
  let (op, a, b) := match s.lschOp with
    | some o => (o.op, o.src, o.dst)
    | none => (0, 0, 0)
  wf (wf (wf s .lsch 0 Reg.LSCH.STAT 0 2 op) .lsch 0 Reg.LSCH.STAT 8 5 a) .lsch 0 Reg.LSCH.STAT 16 5 b

/-- A page in UPDATE returns to what its tasks say. -/
def lcLeave (s : State) (c : Nat) : State :=
  if stOf s .lc c == .update then lcSync (setSt s .lc c .idle) c else s

/-- The operation in progress is over. -/
def opEnd (s : State) : State :=
  match s.lschOp with
  | some o => opSync { lcLeave (lcLeave s o.src) o.dst with lschOp := none }
  | none => s

/-- A stitch-over fails and the source keeps its tasks (R213). -/
def stitchFail (s : State) (c : ErrCode) : State :=
  let o := if c = .crcMismatch then 0x01C else 0x010
  opFail (opEnd s) .lsch 0 c o

/-- A fail-over fails: LC_FAILOVER for the groups of the core's tasks (R216). -/
def foFail (s : State) (c : Nat) : State :=
  setInt (raise s 0x09 .lsch 0 c c) .lsch 0 4

/-- A self-test ends for a fail-over that takes its core (R216). -/
def foTakeTest (s : State) (c : Nat) : State :=
  setSt (opFail s .lc c .wrongState 0x010) .lc c .idle

/-- The core a fail-over of a core goes to (R215, R216). -/
def foTarget (s : State) : Option Nat :=
  match s.lschOp with
  | some o => match (List.range 18).find? (freeStandby s) with
    | some d => some d
    | none => if o.op = 1 then some o.dst else (List.range 18).find? (fun d => standby s d && selfTesting s d)
  | none => match (List.range 18).find? (freeStandby s) with
    | some d => some d
    | none => (List.range 18).find? (fun d => standby s d && selfTesting s d)

/-- Whether a core is the source of a stitch-over in phase 2 or 3. -/
def stitchSource (s : State) (c : Nat) : Bool := s.lschOp.any (fun o => o.op == 1 && o.src == c && 2 ≤ o.phase)

/-- A stitch-over in phase 2 or 3 whose source fails becomes the fail-over to the same target (R216): its phases go on, nothing is
mirrored any more, and FO_LIMIT counts from here. -/
def foTakeOver (s : State) (img : Nat) : State :=
  opSync { s with lschOp := s.lschOp.map (fun o => { o with op := 2, img := true, addr := img, wait := 0 }) }

/-- A fail-over of a core starts, or fails at once (R215, R216). A fail-over or restart in progress goes first. -/
def foStart (s : State) (c : Nat) : State :=
  let img := joinN (rg s .lc c Reg.LC.IMG_LO) (rg s .lc c Reg.LC.IMG_HI)
  if !rb s .lsch 0 Reg.LSCH.CFG 0 || img == 0 || !imgOk s img then foFail s c
  else if s.lschOp.any (fun o => o.op != 1) then { s with lschFoQ := s.lschFoQ ++ [c] }
  else if stitchSource s c then foTakeOver s img
  else match foTarget s with
    | none => foFail s c
    | some d =>
      let s1 := if s.lschOp.isSome then stitchFail s .wrongState else s
      let s2 := if selfTesting s1 d then foTakeTest s1 d else s1
      let op : LschOp := { op := 2, src := c, dst := d, phase := 1, img := true, addr := img, wait := 0, bad := false, lost := 0 }
      let s3 := opStart { setSt s2 .lc d .update with lschOp := some op } .lsch 0 3 1 0
      opSync s3

/-- The next waiting fail-over starts. -/
def foNext (s : State) : State :=
  match s.lschFoQ with
  | c :: q => if s.lschOp.isNone then foStart { s with lschFoQ := q } c else s
  | [] => s

/-! ## Halts (R183, R195) -/

/-- A core halts: what level 0 was doing ends and publishes nothing (R183). A stitch target that halts ends its stitch-over
(R213). -/
def lcHaltBy (s : State) (c cause : Nat) : State :=
  let s0 := lcStop s c
  let s1 := setLc s0 c { lcOf s0 c with halt := cause, haltPc := (lcOf s c).pc % 16384, traps := [] }
  let s2 := setInt (setSt s1 .lc c .fault) .lc c 0
  match s2.lschOp with
  | some o => if o.op = 1 && o.dst == c then stitchFail s2 .wrongState else s2
  | none => s2

/-- A core meets an uncorrectable error (R183): UE_ADDR, cause UE, MEM_UE for the groups of its tasks, and the fail-over of a
core in service (R215). -/
def lcUe (s : State) (c : Nat) (e : LcErr) : State :=
  let s1 := wr s .lc c Reg.LC.UE_ADDR (ofN (e.word.val + 16384 * e.mem.val))
  let s2 := raiseG (lcHaltBy s1 c 1) 0x0A .lc c 0 c (coreGroups s c)
  if standby s c then s2 else foStart s2 c

/-- An exception at level 2 halts the core (R195). -/
def lcDouble (s : State) (c : Nat) : State := raise (lcHaltBy s c 2) 0x08 .lc c 0 c

end Sys2Proof.Machine
end

