-- ==== Sys2Proof/Machine/LoopCore.lean ====
section
/-! DEFINITION. The loop cores (R169 to R199): the issue of a bundle, flow and repeats, interrupts and exceptions, and what
each instruction of Table 6-10 does at its issue. -/
namespace Sys2Proof.Machine

/-! ## Flow, repeats and the program counter (R188 to R191) -/

/-- The repeat stack and the waiting flow change of the present level. -/
def LcSt.stack (x : LcSt) : List LcRep := SMap.get (fun _ => []) x.reps x.level
def LcSt.setStack (x : LcSt) (l : List LcRep) : LcSt := { x with reps := SMap.set (fun _ => []) x.reps x.level l }
def LcSt.slot (x : LcSt) : Option LcFlow := SMap.get (fun _ => none) x.flow x.level
def LcSt.setSlot (x : LcSt) (f : Option LcFlow) : LcSt := { x with flow := SMap.set (fun _ => none) x.flow x.level f }

/-- The value RRB takes at the end of an iteration with ROT=1, after every earlier write of it (R189). -/
def LcSt.rotated (x : LcSt) : Nat :=
  let k := lcCtlKey x.level 2
  let v := (x.pend.filter (fun e => e.key == k)).foldl (fun _ e => e.val) (x.reg k)
  (v + 15) % 16

/-- RRB rotated, visible to the next bundle. A second rotation at the same boundary, of a repeat whose body ends on the same bundle, counts
on from the first and stands in its place. -/
def LcSt.rotate (x : LcSt) : LcSt :=
  let k := lcCtlKey x.level 2
  { x with pend := pendInsert ⟨x.cyc, x.cyc, k, x.rotated, false, false⟩ (x.pend.filter (fun e => !(e.key == k && e.iss == x.cyc))) }

/-- The innermost repeat counts one iteration; one that is done stays with count 0 until `loopEnds` removes it. -/
def LcSt.count (x : LcSt) : LcSt :=
  match x.stack with
  | r :: l =>
    let x1 := if r.rot then x.rotate else x
    let x2 := x1.setStack ({ r with cnt := r.cnt - 1 } :: l)
    if r.cnt ≤ 1 then { x2 with pc := r.last + 1 } else { x2 with pc := r.first }
  | [] => x

/-- Repeats whose count has run out are removed; the next one out counts when its body ends on the same bundle (R190). -/
def loopEndsN : Nat → LcSt → LcSt
  | 0, x => x
  | k + 1, x =>
    match x.stack with
    | r :: l =>
      if r.cnt = 0 then
        let x1 := x.setStack l
        match l with
        | q :: _ => if q.last = r.last then loopEndsN k x1.count else loopEndsN k x1
        | [] => x1
      else x
    | [] => x

/-- The same, for the four levels of the stack. -/
def LcSt.loopEnds (x : LcSt) : LcSt := loopEndsN 5 x

/-- The repeats that a taken branch leaves: those outside the outermost one that does not hold the target (R191). -/
def pruneReps (t : Nat) : List LcRep → List LcRep
  | [] => []
  | r :: l =>
    let l' := pruneReps t l
    if l'.length < l.length then l'
    else if t < r.first ∨ r.last < t then l' else r :: l'

/-- The flow goes to a program word (R191). -/
def LcSt.goto (x : LcSt) (t : Nat) : LcSt := { (x.setStack (pruneReps t x.stack)) with pc := t }

/-- What is visible at a core's next issue boundary: the repeats that are over are removed, with their rotation (R189), and
every result due has landed (R185). -/
def lcReady (s : State) (c : Nat) : LcSt :=
  let x := (lcOf s c).loopEnds
  x.land x.cyc

/-- The successor of a bundle of `len` words that no flow instruction moves: the repeat whose body ends there counts. -/
def LcSt.plain (x : LcSt) (len : Nat) : LcSt :=
  match x.stack with
  | r :: _ => if r.last + 1 = x.pc + len then x.count else { x with pc := (x.pc + len) % 16384 }
  | [] => { x with pc := (x.pc + len) % 16384 }

/-- The program counter after a bundle of `len` words, whose delay slot, repeat end or plain successor it may be. -/
def LcSt.advance (x : LcSt) (len : Nat) : LcSt :=
  let p := (x.pc + len) % 16384
  match x.slot with
  | some (.jump t) => (x.setSlot none).goto t
  | some (.call t iss) =>
    let x1 := { x.setSlot none with pend := pendInsert ⟨x.cyc, iss, lcCtlKey x.level 4, p, false, false⟩ x.pend }
    x1.goto t
  | some .brk =>
    match x.stack with
    | r :: l => { ((x.setSlot none).setStack ({ r with cnt := 0 } :: l)) with pc := r.last + 1 }
    | [] => { x.setSlot none with pc := p }
  | some .stay => (x.setSlot none).plain len
  | none => x.plain len

/-- Whether a bundle is the last of the body of a repeat in progress (R191). -/
def LcSt.lastOfBody (x : LcSt) (len : Nat) : Bool := x.stack.any (fun r => r.last + 1 == x.pc + len)

/-! ## Exceptions and interrupts (R192 to R195) -/

/-- A level is entered: EPC, PLVL and ECAUSE of the level, the vector, and the cycles until its first bundle (R193). -/
def LcSt.enter (x : LcSt) (lvl epc cause vec wait : Nat) : LcSt :=
  let x1 := ((x.put (lcCtlKey lvl 5) (epc % 16384)).put (lcPlvlKey lvl) x.level).put (lcCtlKey lvl 6) cause
  { x1 with level := lvl, pc := 2 * vec, cyc := x.cyc + wait }

/-- The cycles of an entry: at most 4 (R192). -/
def entryWait (s : State) : Nat := 1 + (Config.free32 s.seed).toNat % 4

/-- The entry of an exception at level 2, which halts a core that runs there (R195). -/
def lcExcEnter (s : State) (c epc cause vec : Nat) : State :=
  let x := lcOf s c
  if x.level = 2 then lcDouble s c else (setLc s c (x.enter 2 epc cause vec (entryWait s))).next

/-- An AOV trap that is due is taken. -/
def lcTrap1 (s : State) (c : Nat) : State :=
  let x := lcOf s c
  if x.traps.any (fun d => d ≤ x.cyc) then
    let s1 := setLc s c { x with traps := x.traps.filter (fun d => x.cyc < d) }
    let y := lcReady s1 c
    lcExcEnter (setLc s1 c y) c y.pc 2 2
  else s

/-- The AOV traps that are due are taken before the next bundle (R174); one that falls due during the entry of another halts the core. -/
def lcTraps (s : State) (c : Nat) : State := lcTrap1 (lcTrap1 s c) c

/-- An exception is taken (R195), then the traps that fall due before the first bundle of its handler (R174). -/
def lcExcept (s : State) (c epc cause vec : Nat) : State := lcTraps (lcExcEnter s c epc cause vec) c

/-- The core and level at which an interrupt vector is connected: the line, the level, and whether it is (Table 7-9). -/
def irqvLine (s : State) (c v : Nat) : Nat := rf s .lc c (Reg.LC.IRQV + 4 * (v - 8)) 0 8
def irqvLevel (s : State) (c v : Nat) : Nat := if rb s .lc c (Reg.LC.IRQV + 4 * (v - 8)) 8 then 2 else 1
def irqvEn (s : State) (c v : Nat) : Bool := 8 ≤ v && rb s .lc c (Reg.LC.IRQV + 4 * (v - 8)) 15

/-- Whether a line has a core among its targets (R65). -/
def irqRouted (s : State) (c l : Nat) : Bool := (rg s .sys 0 (Reg.SYS.IRQ_ROUTE_T + 8 * l)).getLsbD c

/-- Whether a core can take anything: powered, enabled and not halted; HOLD is a debug halt (R220). -/
def lcUp (s : State) (c : Nat) : Bool := !inSt s .lc c [.off, .hold] && (lcOf s c).halt == 0

/-- The request of an interrupt vector is taken (R192, R193); nothing happens while it is not asserted, not routed
to the core (R65), not enabled, not above the present level, or the boundary is a delay slot. -/
def lcInterruptEnter (s : State) (c v : Nat) : State :=
  let x := lcReady s c
  let lvl := irqvLevel s c v
  let ie := x.reg (lcFlagKey x.level (9 + lvl)) % 2 == 1
  if lcUp s c && irqvEn s c v && s.irqOn.getLsbD (irqvLine s c v) && irqRouted s c (irqvLine s c v) &&
      x.level < lvl && ie && x.slot.isNone then
    lcTraps (setLc s c (x.enter lvl x.pc (0x80 + v) v (entryWait s))).next c
  else s

/-! ## Issue of a bundle -/

/-- Whether a core issues bundles: a handler runs, or level 0 has something to run. -/
def lcRuns (s : State) (c : Nat) : Bool :=
  let x := lcOf s c
  lcUp s c && (x.level != 0 || x.act != .idle)

/-- A word of X or Y stored: while the core is the source of a stitch-over in phase 2 or 3, every X write is made in the
target too (Table 7-2). -/
def lcPut (s : State) (c : Nat) (e : Nat × Word) : State :=
  let s1 := putMem32 s e.1 e.2
  match s.lschOp with
  | some o =>
    if o.op = 1 ∧ 2 ≤ o.phase ∧ o.src = c ∧ lcAddr c 1 0 ≤ e.1 ∧ e.1 < lcAddr c 2 0 then
      putMem32 s1 (lcAddr o.dst 1 0 + (e.1 - lcAddr c 1 0)) e.2
    else s1
  | none => s1

/-- Cycles charged to the sample in progress while level 0 runs, and to the core's tick (R206); the run from word 0 of R218 is no sample. -/
def LcSt.charge (x : LcSt) (n : Nat) : LcSt :=
  if x.level = 0 && x.act != .init then { x with charged := x.charged + n, load := x.load + n } else x

/-- LOAD_MAX follows the cycles charged in the present tick. -/
def lcLoadMax (s : State) (c : Nat) : State :=
  let l := (lcOf s c).load
  if (rg s .lc c Reg.LC.LOAD_MAX).toNat < l then wr s .lc c Reg.LC.LOAD_MAX (ofN l) else s

/-- The writes of a bundle put on their way (R185). -/
def LcSt.send (x : LcSt) (l : List LcWr) : LcSt :=
  l.foldl (fun y w => { y with pend := pendInsert ⟨x.cyc + w.lat, x.cyc, w.key, w.val, w.mul, w.sticky⟩ y.pend }) x

/-- A memory error that a bundle meets is counted (R183). -/
def lcCounted (s : State) (a : LcAt) : State :=
  if a.err.isSome then setInt (incSat s .lc a.core.val Reg.LC.CE_CNT) .lc a.core.val 1 else s

/-- A bundle's writes, memory words and AOV trap take effect; its cycle is over. -/
def lcEffect (s : State) (c : Nat) (x : LcSt) (e : LcEff) : State :=
  let x1 := x.send e.wr
  let x2 := { x1 with traps := (match e.trap with | some k => x.traps ++ [x.cyc + k] | none => x.traps), cyc := x.cyc + 1 }
  e.st.foldl (fun s w => lcPut s c w) (setLc s c (x2.charge 1))

/-- Issue one bundle of `len` words on a core: what has landed is visible, a sample that is due is cut, an illegal bundle takes
its exception with no effect at all, and otherwise `f` acts and `g` moves the flow on. -/
def lcIssue (s : State) (a : LcAt) (len : Nat) (flow : Bool) (f : State → LcSt → LcEff) (g : LcSt → LcSt) : State :=
  let c := a.core.val
  if !lcRuns s c then s
  else
    let x := lcReady s c
    let s0 := setLc s c x
    if x.level = 0 && lcDue s0 c then lcCut s0 c
    else
      let s1 := lcCounted s0 a
      match a.err.filter (fun e => e.ue) with
      | some e => lcUe s0 c e
      | none =>
        let e := f s1 x
        if e.bad || (flow && (x.slot.isSome || x.lastOfBody len)) then lcExcept s1 c x.pc 1 1
        else
          let s2 := lcEffect s1 c x e
          lcTraps (lcLoadMax (setLc s2 c (g (lcOf s2 c))) c) c

/-- The plain successor of a bundle. -/
def seqFlow (len : Nat) (x : LcSt) : LcSt := x.advance len

/-! ## Move slots (R197) -/

/-- What one move slot does: `mem` 1 for X, 2 for Y. -/
def slotEff (s : State) (c mem : Nat) (x : LcSt) (raw : BitVec 16) : LcEff :=
  let w : Word := raw.setWidth 32
  if raw = 0 then LcEff.none
  else
    let st := bit w 14
    let pair := bit w 13
    let p := fld w 10 3
    let d := fld w 3 5
    let xch := bit w 2
    if !bit w 15 || fld w 0 2 != 0 || (pair && d == 31) || (xch && (!st || pair)) then LcEff.illegal
    else match x.access p (fld w 8 2) 0 pair with
      | none => LcEff.illegal
      | some (a, p') =>
        let up := match p' with
          | some v => [lcW (x.key (36 + p)) v 1]
          | none => []
        let ld (i : Nat) : LcWr := x.wrCode (d + i) (lcMem s c mem (a + i)).toNat 2
        let sto (i : Nat) : Nat × Word := (lcAddr c mem (a + i), lcStored (x.d (d + i)))
        let n := if pair then [0, 1] else [0]
        ⟨false, (if !st || xch then n.map ld else []) ++ up, if st then n.map sto else [], none⟩

/-- The two move slots of a bundle together. -/
def slotsEff (s : State) (c : Nat) (x : LcSt) (m : LcSlots) : LcEff := (slotEff s c 1 x m.x).par (slotEff s c 2 x m.y)

/-- An arithmetic bundle: the operation, with move slots where it is a 64-bit bundle (R196). -/
def lcArith (s : State) (a : LcAt) (m : Option LcSlots) (f : LcSt → LcEff) : State :=
  match m with
  | none => lcIssue s a 1 false (fun _ x => f x) (seqFlow 1)
  | some m => lcIssue s a 2 false (fun s x => (f x).par (slotsEff s a.core.val x m)) (seqFlow 2)

/-! ## Instructions (Table 6-10) -/

/-- The exact product of two data registers (R171). -/
def LcSt.prod (x : LcSt) (da db : Nat) : Int := q23Mul (x.ds da) (x.ds db)

/-- MPY, MAC and MSU: results of the multipliers, visible from c + 3 (Table 6-6, R186). -/
def mpyEff (an da db : Nat) (x : LcSt) : LcEff := x.accW an (x.prod da db) 3 true
def macEff (an da db : Nat) (x : LcSt) : LcEff := x.accW an (x.aFwd an + x.prod da db) 3 true
def msuEff (an da db : Nat) (x : LcSt) : LcEff := x.accW an (x.aFwd an - x.prod da db) 3 true

/-- PMAC: two accumulators, each saturating on its own account; N and Z of An, AEU and AOV if either (R173, Table 6-10). -/
def pmacEff (an da db dd : Nat) (x : LcSt) : LcEff :=
  let m := Nat.xor (an % 4) 1
  let v1 := x.aFwd an + x.prod da db
  let v2 := x.aFwd m + x.prod da dd
  let e1 := x.accW an v1 3 true
  let e2 := x.accW m v2 3 true
  ⟨false, e1.wr.filter (fun w => w.key != lcFlagKey x.level 4) ++ [x.flag 4 (accAeu (accSat v1) || accAeu (accSat v2)) 3] ++
    e2.wr.filter (fun w => w.key == x.key (32 + m) || w.sticky), [], if e1.trap.isSome then e1.trap else e2.trap⟩

/-- CLRA, LDA, ADDA, SUBA, NEGA, ABSA, SHLA, SHRA. -/
def clraEff (an : Nat) (x : LcSt) : LcEff := x.accW an 0 1 false
def ldaEff (an da : Nat) (x : LcSt) : LcEff := LcEff.ofWr ([lcW (x.key (32 + an)) (accNat (x.ds da * 16777216)) 1] ++
  x.nzvc (x.ds da < 0) (x.ds da == 0) false false 1 ++ [x.flag 4 false 1])
def addaEff (an am : Nat) (x : LcSt) : LcEff := x.accW an (x.a an + x.a am) 1 false
def subaEff (an am : Nat) (x : LcSt) : LcEff := x.accW an (x.a an - x.a am) 1 false
def negaEff (an : Nat) (x : LcSt) : LcEff := x.accW an (-(x.a an)) 1 false
def absaEff (an : Nat) (x : LcSt) : LcEff := x.accW an ((x.a an).natAbs : Int) 1 false
def shlaEff (an k : Nat) (x : LcSt) : LcEff := x.accW an (x.a an * 2 ^ k) 1 false
def shraEff (an k : Nat) (x : LcSt) : LcEff := x.accW an (x.a an / 2 ^ k) 1 false

/-- SATA limits to −1 to 1 − 2⁻⁴⁷. -/
def sataEff (an : Nat) (x : LcSt) : LcEff :=
  let v := clampI (-140737488355328) 140737488355327 (x.a an)
  LcEff.ofWr ([lcW (x.key (32 + an)) (accNat v) 1] ++ x.nzvc (v < 0) (v == 0) false false 1 ++ [x.flag 4 false 1] ++
    x.stick 6 (accAeu (x.a an)) 1)

/-- RNDA rounds at bit 24 by MR.RND. -/
def rndaEff (an : Nat) (x : LcSt) : LcEff := x.accW an (roundAcc x.rnd (x.a an) * 16777216) 1 false

/-- MOVA converts by R175. -/
def movaEff (dd an : Nat) (x : LcSt) : LcEff :=
  let (v, sat) := accConv x.rnd (x.a an)
  x.dataW dd v false false sat

/-- The data operations (R176, Table 6-10). -/
def addEff (dd da db : Nat) (x : LcSt) : LcEff := x.wrapW dd (x.ds da + x.ds db) (carryAdd (x.ds da) (x.ds db))
def subEff (dd da db : Nat) (x : LcSt) : LcEff := x.wrapW dd (x.ds da - x.ds db) (noBorrow (x.ds da) (x.ds db))
def addsEff (dd da db : Nat) (x : LcSt) : LcEff := x.satW dd (x.ds da + x.ds db) (carryAdd (x.ds da) (x.ds db))
def subsEff (dd da db : Nat) (x : LcSt) : LcEff := x.satW dd (x.ds da - x.ds db) (noBorrow (x.ds da) (x.ds db))
def negEff (dd da : Nat) (x : LcSt) : LcEff := x.wrapW dd (-(x.ds da)) false
def absEff (dd da : Nat) (x : LcSt) : LcEff := x.satW dd ((x.ds da).natAbs : Int) false
def logicEff (op : Nat → Nat → Nat) (dd da db : Nat) (x : LcSt) : LcEff :=
  x.dataW dd (op (x.d da) (x.d db)) false false false
def shlEff (dd da k : Nat) (free : Bool) (x : LcSt) : LcEff := x.wrapW dd (x.ds da * 2 ^ k) (shlOut (x.d da) k free)
def shrEff (dd da k : Nat) (free : Bool) (x : LcSt) : LcEff :=
  x.dataW dd (x.ds da / 2 ^ k) false (shrOut (x.d da) k free) false
def shrlEff (dd da k : Nat) (free : Bool) (x : LcSt) : LcEff :=
  x.dataW dd (x.d da / 2 ^ k : Nat) false (shrOut (x.d da) k free) false
def minEff (dd da db : Nat) (x : LcSt) : LcEff := x.dataW dd (min (x.ds da) (x.ds db)) false false false
def maxEff (dd da db : Nat) (x : LcSt) : LcEff := x.dataW dd (max (x.ds da) (x.ds db)) false false false
def cmpEff (da db : Nat) (x : LcSt) : LcEff := x.cmpW (x.ds da) (x.ds db)
def clipEff (dd da db : Nat) (x : LcSt) : LcEff :=
  let l := absClip (x.ds db)
  let v := clampI (-l) l (x.ds da)
  x.dataW dd v false (v != x.ds da) false

/-- The free value a shift by 0 leaves in C, taken by a step that needs one. -/
def freeC (s : State) : Bool := Config.freeBool s.seed

/-- MOV copies a register; an accumulator or a reserved code is illegal. -/
def movEff (rd rs : Nat) (x : LcSt) : LcEff :=
  let ok (c : Nat) : Bool := lcCodeOk c && !(32 ≤ c && c < 36)
  if ok rd && ok rs then LcEff.ofWr [x.wrCode rd (x.value24 rs) (lcMovLat rd)] else LcEff.illegal

/-- The AEU flag of a move into an accumulator, as every write of one sets it (R172); nothing for another code. -/
def LcSt.aeuOf (x : LcSt) (reg v lat : Nat) : List LcWr :=
  if 32 ≤ reg ∧ reg < 36 then [x.flag 4 (accAeu (sext 56 v)) lat] else []

/-- What MVC reads from a code in 24 bits: of an accumulator the spec states no value. -/
def mvcSource (s : State) (x : LcSt) (c : Nat) : Nat :=
  if 32 ≤ c ∧ c < 36 then (Config.free32 s.seed).toNat % 16777216 else x.value24 c

/-- MVC to a control register (Table 6-2). -/
def mvcToEff (ctl rs : Nat) (s : State) (x : LcSt) : LcEff :=
  if !lcCodeOk rs then LcEff.illegal
  else match x.wrCtl ctl (mvcSource s x rs) with
    | some l => LcEff.ofWr l
    | none => LcEff.illegal

/-- MVC from a control register; into an accumulator the spec states no value. -/
def mvcFromEff (rd ctl : Nat) (s : State) (x : LcSt) : LcEff :=
  if !lcCodeOk rd then LcEff.illegal
  else match x.ctl ctl with
    | some v =>
      let w := if 32 ≤ rd ∧ rd < 36 then (Config.free32 s.seed).toNat else v
      LcEff.ofWr ([x.wrCode rd w 1] ++ x.aeuOf rd w 1)
    | none => LcEff.illegal

/-- CLRF clears the sticky flags. -/
def clrfEff (x : LcSt) : LcEff := LcEff.ofWr [x.flag 5 false 1, x.flag 6 false 1]

/-- ROT rotates the base. -/
def rotEff (x : LcSt) : LcEff := LcEff.ofWr [lcW (lcCtlKey x.level 2) ((x.rrb + 15) % 16) 1]

/-- The registers of a pair access: REG and the next one of its kind; none where there is no next one. -/
def pairNext (c : Nat) : Option Nat :=
  if c = 31 ∨ c = 43 ∨ c = 51 ∨ c = 59 then none else some (c + 1)

/-- The P update of an access. -/
def LcSt.pUp (x : LcSt) (p : Nat) (p' : Option Nat) : List LcWr :=
  match p' with
  | some v => [lcW (x.key (36 + p)) v 1]
  | none => []

/-- LD: an accumulator converts as LDA does (R198). -/
def ldEff (c mem p am : Nat) (ofs : Int) (reg : Nat) (s : State) (x : LcSt) : LcEff :=
  match x.access p am ofs false with
  | some (a, p') =>
    if !lcCodeOk reg then LcEff.illegal
    else
      let w := (lcMem s c mem a).toNat
      let v := if 32 ≤ reg ∧ reg < 36 then accNat (sext 24 w * 16777216) else w
      LcEff.ofWr ([x.wrCode reg v 2] ++ x.aeuOf reg v 2 ++ x.pUp p p')
  | none => LcEff.illegal

/-- ST: a register's value sign-extended, an accumulator converted by R175. -/
def stEff (c mem p am : Nat) (ofs : Int) (reg : Nat) (x : LcSt) : LcEff :=
  match x.access p am ofs false with
  | some (a, p') =>
    if !lcCodeOk reg then LcEff.illegal
    else if 32 ≤ reg ∧ reg < 36 then
      let (v, sat) := accConv x.rnd (x.a (reg - 32))
      ⟨false, x.pUp p p' ++ x.stick 6 sat 1, [(lcAddr c mem a, ofI v)], none⟩
    else ⟨false, x.pUp p p', [(lcAddr c mem a, lcStored (x.value24 reg))], none⟩
  | none => LcEff.illegal

/-- LDP: two registers, or all 56 bits of an accumulator (R198). -/
def ldpEff (c mem p am : Nat) (ofs : Int) (reg : Nat) (s : State) (x : LcSt) : LcEff :=
  match x.access p am ofs true with
  | some (a, p') =>
    let lo := (lcMem s c mem a).toNat
    let hi := (lcMem s c mem (a + 1)).toNat
    if !lcCodeOk reg then LcEff.illegal
    else if 32 ≤ reg ∧ reg < 36 then
      LcEff.ofWr ([x.wrCode reg (lo + 4294967296 * hi) 2] ++ x.aeuOf reg (lo + 4294967296 * hi) 2 ++ x.pUp p p')
    else match pairNext reg with
      | some r2 => LcEff.ofWr ([x.wrCode reg lo 2, x.wrCode r2 hi 2] ++ x.pUp p p')
      | none => LcEff.illegal
  | none => LcEff.illegal

/-- STP: two registers, or all 56 bits of an accumulator. -/
def stpEff (c mem p am : Nat) (ofs : Int) (reg : Nat) (x : LcSt) : LcEff :=
  match x.access p am ofs true with
  | some (a, p') =>
    if !lcCodeOk reg then LcEff.illegal
    else if 32 ≤ reg ∧ reg < 36 then
      let v := x.a (reg - 32)
      ⟨false, x.pUp p p', [(lcAddr c mem a, lo32 v), (lcAddr c mem (a + 1), hi32 v)], none⟩
    else match pairNext reg with
      | some r2 => ⟨false, x.pUp p p', [(lcAddr c mem a, lcStored (x.value24 reg)),
          (lcAddr c mem (a + 1), lcStored (x.value24 r2))], none⟩
      | none => LcEff.illegal
  | none => LcEff.illegal

/-- FTAP (R199). -/
def ftapEff (c : Nat) (clr : Bool) (an px py : Nat) (s : State) (x : LcSt) : LcEff :=
  let lx := x.code (52 + px)
  let ly := x.code (52 + py)
  if lKind lx = 3 ∨ lKind ly = 3 then LcEff.illegal
  else
    let pa := x.code (36 + px)
    let pb := x.code (36 + py)
    let a := lcMirror lx pa pa / 2 * 2
    let b := lcMirror ly pb pb / 2 * 2
    let v (mem w : Nat) : Int := sext 24 (lcMem s c mem w).toNat
    let k := x.reg (lcCtlKey x.level 3)
    let cf := sext 24 k
    let sum := q23Mul cf (v 2 b) + q23Mul (v 1 a) (v 2 (b + 1)) + (if clr then 0 else x.aFwd an)
    let e := x.accW an sum 3 true
    ⟨false, e.wr ++ [lcW (lcCtlKey x.level 3) ((lcMem s c 1 (a + 1)).toNat % 16777216) 1,
        lcW (x.key (36 + px)) (lcSum lx pa 2) 1, lcW (x.key (36 + py)) (lcSum ly pb 2) 1],
      [(lcAddr c 1 a, lcStored k), (lcAddr c 1 (a + 1), lcStored ((lcMem s c 1 a).toNat % 16777216))], e.trap⟩

/-- MOVI: a signed 20-bit immediate. -/
def moviEff (reg : Nat) (imm : Int) (x : LcSt) : LcEff :=
  if !lcCodeOk reg || (32 ≤ reg && reg < 36) then LcEff.illegal
  else LcEff.ofWr [x.wrCode reg (imm % 16777216).toNat (lcMovLat reg)]

/-- LDI: a 32-bit immediate; into an accumulator its bits [55:24], sign-extended. -/
def ldiEff (reg : Nat) (imm : Word) (x : LcSt) : LcEff :=
  if !lcCodeOk reg then LcEff.illegal
  else
    let v := if 32 ≤ reg ∧ reg < 36 then accNat (sw imm * 16777216) else imm.toNat
    LcEff.ofWr ([x.wrCode reg v (lcMovLat reg)] ++ x.aeuOf reg v (lcMovLat reg))

/-- LDC: a control register with a 32-bit immediate. -/
def ldcEff (ctl : Nat) (imm : Word) (x : LcSt) : LcEff :=
  match x.wrCtl ctl imm.toNat with
  | some l => LcEff.ofWr l
  | none => LcEff.illegal

/-! ## Flow instructions -/

/-- A flow instruction with a condition, illegal with the reserved one: the flow change that waits for its delay slot, whose bundle is
a delay slot whether it is taken or not (R188). -/
def lcFlowOp (s : State) (a : LcAt) (cond : Nat) (f : LcSt → LcFlow) : State :=
  let x := lcReady s a.core.val
  lcIssue s a 1 true (fun _ _ => if cond = 15 then LcEff.illegal else LcEff.none)
    (fun y => (y.advance 1).setSlot (some (if x.cond cond then f (y.advance 1) else .stay)))

/-- BR: to TGT after the delay slot (R188). -/
def lcBranch (s : State) (a : LcAt) (cond tgt : Nat) : State := lcFlowOp s a cond (fun _ => .jump tgt)

/-- CALL: LINK takes the address of the bundle after the delay slot. -/
def lcCallTo (s : State) (a : LcAt) (cond tgt : Nat) : State :=
  lcFlowOp s a cond (fun y => .call tgt (y.cyc - 1))

/-- RET: to LINK as read at issue. -/
def lcReturn (s : State) (a : LcAt) (cond : Nat) : State :=
  let x := lcReady s a.core.val
  lcFlowOp s a cond (fun _ => .jump (x.reg (lcCtlKey x.level 4)))

/-- BREAK (R191). -/
def lcBreakOut (s : State) (a : LcAt) (cond : Nat) : State := lcFlowOp s a cond (fun _ => .brk)

/-- RETI returns to level PLVL at EPC, whose first bundle issues 3 cycles later; illegal at level 0 (R194). -/
def lcRetiOp (s : State) (a : LcAt) (cond : Nat) : State :=
  let x := lcReady s a.core.val
  lcIssue s a 1 true (fun _ x => if cond = 15 ∨ x.level = 0 then LcEff.illegal else LcEff.none)
    (fun y => if x.cond cond then
        { y with pc := y.reg (lcCtlKey y.level 5), level := y.reg (lcPlvlKey y.level) % 4, cyc := y.cyc + 2 }
      else y.advance 1)

/-- TRAP n: exception 0x05 with n in ECAUSE[11:8], after the TRAP (Table 6-7). An AOV trap due at that boundary is the older one and taken first, so that the TRAP is raised at
level 2 and halts the core (R195, DEDUCED, log entry 179). -/
def lcTrapOp (s : State) (a : LcAt) (cond n : Nat) : State :=
  let c := a.core.val
  let x := lcReady s c
  let runs := lcRuns s c && !(a.err.any (fun e => e.ue)) && !(x.level == 0 && lcDue (setLc s c x) c)
  let legal := cond != 15 && x.slot.isNone && !x.lastOfBody 1
  let s1 := lcIssue s a 1 true (fun _ _ => if cond = 15 then LcEff.illegal else LcEff.none) (fun y => y.advance 1)
  if runs && legal && x.cond cond && (lcOf s1 c).halt == 0 then
    lcExcept s1 c (lcOf s1 c).pc (5 + 256 * n) 5
  else s1

/-- BREP: CNT times from the next bundle to the word END words on; a count of 0 skips the body; a fifth nested repeat takes
REP_OVF (R190). -/
def lcRepeat (s : State) (a : LcAt) (cnt : LcSt → Nat) (rot : Bool) (last : Nat) : State :=
  let c := a.core.val
  let x := lcReady s c
  let k := cnt x
  let runs := lcRuns s c && !(a.err.any (fun e => e.ue)) && !(x.level == 0 && lcDue (setLc s c x) c)
  let legal := last != 0 && x.slot.isNone && !x.lastOfBody 1
  if runs && legal && k != 0 && 4 ≤ x.stack.length then
    lcExcept (lcLoadMax (setLc (lcCounted s a) c { x.charge 1 with cyc := x.cyc + 1 }) c) c x.pc 4 4
  else
    lcIssue s a 1 true (fun _ _ => if last = 0 then LcEff.illegal else LcEff.none)
      (fun y => if k = 0 then { y with pc := (x.pc + last + 1) % 16384 }
        else { (y.setStack (⟨x.pc + 1, x.pc + last, k, rot⟩ :: y.stack)) with pc := (x.pc + 1) % 16384 })

/-- The repeats of a core whose counts have run out end, and the bundle after the body issues next (R190). -/
def lcLoopOver (s : State) (c : Nat) : State :=
  if lcRuns s c then setLc s c (lcOf s c).loopEnds else s

end Sys2Proof.Machine
end

