-- ==== Sys2Proof/Machine/Pins.lean ====
section
/-! DEFINITION. Pad assignment (R538, R539, Table 21-14). -/
namespace Sys2Proof.Machine

/-- FUNC of a pad. -/
def padFunc (s : State) (p : Nat) : Nat := rf s .gpio 0 (Reg.GPIO.MUX + 4 * (p / 8)) (4 * (p % 8)) 2

/-- Whether some pads all have a function. -/
def padsAre (s : State) (f : Nat) (l : List Nat) : Bool := l.all (fun p => padFunc s p == f)

/-- The pads of a channel's primary function (Table 21-14). -/
def padsOf (t : PgTy) (n : Nat) : List Nat :=
  match t with
  | .enc => [3 * n, 3 * n + 1, 3 * n + 2]
  | .ssn => [192 + 2 * n, 193 + 2 * n]
  | .pcmp => [224 + 2 * n, 225 + 2 * n]
  | .step => [352 + 2 * n, 353 + 2 * n]
  | .can => [480 + 2 * n, 481 + 2 * n]
  | .psp => (List.range 7).map (fun i => 496 + 7 * n + i)
  | _ => []

/-- The page of a pad's function: primary by Table 21-14, alternate DIO; none for general purpose. -/
def padPage (p f : Nat) : Option PageId :=
  match f with
  | 1 =>
    if p < 192 then some ⟨.enc, p / 3⟩
    else if p < 224 then some ⟨.ssn, (p - 192) / 2⟩
    else if p < 352 then some ⟨.pcmp, (p - 224) / 2⟩
    else if p < 480 then some ⟨.step, (p - 352) / 2⟩
    else if p < 496 then some ⟨.can, (p - 480) / 2⟩
    else if p < 552 then some ⟨.psp, (p - 496) / 7⟩
    else none
  | 2 => if 552 ≤ p && p < 600 then some ⟨.dio, 0⟩ else none
  | _ => none

/-- The tests of a staged GPIO set (R539). -/
def gpioValidate (s : State) : List (Bool × Nat × ErrCode) :=
  (List.range 616).flatMap (fun p =>
    let o := Reg.GPIO.MUX + 4 * (p / 8)
    let f := stf s .gpio 0 o (4 * (p % 8)) 2
    let busy := fun (g : Nat) => match padPage p g with
      | some q => !inSt s q.ty q.inst [.off, .idle]
      | none => false
    [(f == 3 || stf s .gpio 0 o (4 * (p % 8) + 2) 2 == 3 || (f == 1 && 552 ≤ p) || (f == 2 && (p < 552 || 600 ≤ p)), o, .range),
     (f != padFunc s p && (busy (padFunc s p) || busy f), o, .wrongState)])

end Sys2Proof.Machine
end

