-- ==== Sys2Proof/Machine/Obs.lean ====
section
/-! DEFINITION. Tracking observers (R78 to R82): propagation, the limited values a channel reports, and its registers. -/
namespace Sys2Proof.Machine

/-- What an ENC channel holds besides its registers. -/
def encOf (s : State) (n : Nat) : EncSt := SMap.get (fun _ => EncSt.reset) s.encs n

/-- The same, replaced. -/
def setEnc (s : State) (n : Nat) (e : EncSt) : State := { s with encs := SMap.set (fun _ => EncSt.reset) s.encs n e }

/-- What an SSN channel holds besides its registers. -/
def ssnOf (s : State) (n : Nat) : SsnSt := SMap.get (fun _ => SsnSt.reset) s.ssns n

/-- The same, replaced. -/
def setSsn (s : State) (n : Nat) (e : SsnSt) : State := { s with ssns := SMap.set (fun _ => SsnSt.reset) s.ssns n e }

/-- A value of 2⁻¹⁶ in the observer's unit of 2⁻⁴⁸, and back: the spec states no rounding of what a register shows; it depends on the
fraction alone, so that a position moved by whole steps of 2⁻¹⁶ shows exactly that move (R75). -/
def fine (x : Int) : Int := x * 4294967296
def coarse (x : Int) : Int := x / 4294967296 + fq (x % 4294967296) 4294967296

/-- A value of the observer in whole counts. -/
def countsOf (x : Int) : Int := fq x 281474976710656

/-- The speed after some steps (R79). -/
def Obs.vAt (o : Obs) (dt : Nat) : Int := o.v + fq (o.a * dt) perS

/-- The position after some steps (R79). -/
def Obs.pAt (o : Obs) (dt : Nat) : Int :=
  o.p + fq (2 * perS * o.v * dt + o.a * dt * dt) (2 * perS * perS)

/-- The observer propagated to an elapsed time. -/
def Obs.at (o : Obs) (t : Nat) : Obs := ⟨o.pAt (t - o.t), o.vAt (t - o.t), o.a, t⟩

/-- e to the power x / 2⁶⁴ for x below 2⁶⁴ × ln 2, in units of 2⁻⁶⁴: the first 24 terms of its series. -/
def expSeries (x : Nat) : Nat :=
  ((List.range 24).foldl (fun (r : Nat × Nat) k => let u := r.2 * x / (18446744073709551616 * (k + 1)); (r.1 + u, u))
    (18446744073709551616, 18446744073709551616)).1

/-- exp(−x / 2⁶⁴) in units of 2⁻³²: the powers of two taken off by ln 2 × 2⁶⁴. -/
def expNeg (x : Nat) : Nat :=
  let ln2 := 12786308645202655659
  79228162514264337593543950336 / expSeries (x % ln2) / 2 ^ (min (x / ln2) 64)

/-- λ = exp(−2π × OBS_BW × τ) in units of 2⁻³² (R78), within one unit: 2π × 2⁶⁴ over the steps of a second. -/
def obsDecay (bw tau : Nat) : Nat :=
  min 4294967296 (expNeg (115904311329233965478 * bw * tau / 8000000000) + b2n (Config.decayUp bw tau))

/-- The correction of R78 at a position `edge` (in the observer's unit), with `tau` the time since the previous one. -/
def Obs.correct (o : Obs) (bw tau t : Nat) (edge : Int) : Obs :=
  let q := o.at t
  let one : Int := 4294967296
  let l : Int := obsDecay bw tau
  let e := edge - q.p
  let gv := (one - l) * (3 * one + l)
  let ga := (one - l) * (one - l)
  let d := max tau 1
  { p := edge
    v := q.v + fq (gv * e * perS) (2 * 4294967296 * 4294967296 * d)
    a := q.a + fq (ga * e * perS * perS) (4294967296 * 4294967296 * d * d)
    t := t }

/-- Whether the observer's speed has reached 0 or crossed it (R82). -/
def Obs.stopped (o : Obs) (dt : Nat) : Bool :=
  (decide (0 < o.v) && decide (o.vAt dt ≤ 0)) || (decide (o.v < 0) && decide (0 ≤ o.vAt dt))

/-- Whether the reported speed is held at 0, and the acceleration with it (R82): the last two edges have one direction, and the observer's
speed has crossed 0 or would have the sign against that direction. -/
def EncSt.held (e : EncSt) (back : Bool) (t : Nat) : Bool :=
  let against (x : Int) : Bool := if back then decide (0 < x) else decide (x < 0)
  2 ≤ e.edges && (e.o.stopped (t - e.o.t) || against e.o.v || (e.o.v == 0 && against e.o.a))

/-- The steps after which the observer's speed reaches 0. -/
def Obs.stopAfter (o : Obs) : Nat := if o.a = 0 then 0 else (o.v.natAbs * perS) / o.a.natAbs

/-- A channel's position at an elapsed time, in the observer's unit, without the limits of R79: held at standstill and where the speed is held at 0
(R82, R83). -/
def EncSt.free (e : EncSt) (t : Nat) : Int :=
  if e.fresh then e.o.p
  else if 2 ≤ e.edges && e.o.stopped (t - e.o.t) then e.o.pAt (min (t - e.o.t) e.o.stopAfter)
  else e.o.pAt (t - e.o.t)

/-- The interpolated position (R79), in the observer's unit: between the last edge's boundary and the next one in the direction of
motion. -/
def EncSt.posF (e : EncSt) (back : Bool) (t : Nat) : Int :=
  if e.fresh then e.o.p
  else if back then clampI (fine (e.bnd - 65535)) (fine e.bnd) (e.free t)
  else clampI (fine e.bnd) (fine (e.bnd + 65535)) (e.free t)

/-- The interpolated position in 2⁻¹⁶ counts. -/
def EncSt.pos (e : EncSt) (back : Bool) (t : Nat) : Int := coarse (e.posF back t)

/-- The reported speed (R81, R82): a speed that crosses 0, either way, is held there. -/
def EncSt.spd (e : EncSt) (back : Bool) (t : Nat) : Int :=
  if e.fresh then 0
  else
    let v := coarse (e.o.vAt (t - e.o.t))
    let v1 := if e.held back t then 0 else v
    let m : Int := if t ≤ e.tEdge then 281474976710655 else (65536 * perS / (t - e.tEdge) : Nat)
    clampI (-m) m v1

/-- The reported acceleration: 0 while the speed is held at 0 (R82). -/
def EncSt.acc (e : EncSt) (back : Bool) (t : Nat) : Int :=
  if e.fresh || e.held back t then 0 else countsOf e.o.a

/-- STAT.DIR of an ENC channel: 1 backward. -/
def encBack (s : State) (n : Nat) : Bool := rb s .enc n Reg.ENC.STAT 2

/-- An ENC channel's interpolated position at an extended time; held outside RUN (R87). -/
def encPos (s : State) (n t : Nat) : Int :=
  if stOf s .enc n == .run then (encOf s n).pos (encBack s n) (s.lap t) else coarse (encOf s n).o.p

/-- The same in the observer's unit. -/
def encPosF (s : State) (n t : Nat) : Int :=
  if stOf s .enc n == .run then (encOf s n).posF (encBack s n) (s.lap t) else (encOf s n).o.p

/-- An ENC channel's speed and acceleration at an extended time. -/
def encSpd (s : State) (n t : Nat) : Int := if stOf s .enc n == .run then (encOf s n).spd (encBack s n) (s.lap t) else 0
def encAcc (s : State) (n t : Nat) : Int := if stOf s .enc n == .run then (encOf s n).acc (encBack s n) (s.lap t) else 0

/-- A number limited to 48 bits signed (Table 0-4). -/
def lim48 (x : Int) : Int := clampI (-140737488355328) 140737488355327 x

/-- POS, SPEED and ACCEL of a channel written (the offsets are the same on ENC and SSN). -/
def showFb (s : State) (t : PgTy) (n : Nat) (p v a : Int) : State :=
  wr64 (wr64 (wr64 s t n Reg.ENC.POS_LO p) t n Reg.ENC.SPEED_LO (lim48 v)) t n Reg.ENC.ACCEL_LO (lim48 a)

/-- An ENC channel's position, speed and acceleration registers as they stand at an extended time; outside RUN they hold what the leaving
of RUN left, speed and acceleration 0 (log entry 126). -/
def encShow (s : State) (n t : Nat) : State :=
  if stOf s .enc n == .run then showFb s .enc n (encPos s n t) (encSpd s n t) (encAcc s n t) else s

/-- An SSN channel's registers as they stand at an extended time: it extrapolates by R79 between frames. -/
def ssnShow (s : State) (n t : Nat) : State :=
  if stOf s .ssn n == .run && rb s .ssn n Reg.SSN.STAT 0 then
    let q := (ssnOf s n).o.at (s.lap t)
    showFb s .ssn n (coarse q.p) (coarse q.v) (countsOf q.a)
  else s

end Sys2Proof.Machine
end

