-- ==== Sys2Proof/Machine/LoopPorts.lean ====
section
/-! DEFINITION. The fast-path ports (R204, R205), samples (R200 to R203), and the commands and events of `LSCH` and `LC`
(R208 to R222). -/
namespace Sys2Proof.Machine

/-! ## Ports (Table 7-1) -/

/-- A number of 48.16 as whole counts modulo 2²⁴, as its fraction, and a whole number saturated to 24 bits. -/
def portWhole (v : Int) : Nat := (v / 65536 % 16777216).toNat
def portFrac (v : Int) : Nat := (v % 65536).toNat * 256
def portSat (v : Int) : Nat := d24 (d24Sat v)

/-- Position, speed and acceleration ports of four from a base port. -/
def quad (base : Nat) (p v a : Int) : List (Nat × Nat) :=
  [(base, portWhole p), (base + 1, portFrac p), (base + 2, portSat (v / 65536)), (base + 3, portSat (a / 256))]

/-- The tick ports as they stand at a base tick (R204): set-points, feedback positions and speeds. -/
def tickPorts (s : State) : SMap Nat :=
  let ax := (insts .axis).flatMap (fun n => quad (4 * n) (rg64 s .axis n Reg.AXIS.SETP_LO) (rg64 s .axis n Reg.AXIS.SETV_LO)
    (rg64 s .axis n Reg.AXIS.SETA_LO))
  let en := (insts .enc).flatMap (fun n =>
    (quad (0x200 + 4 * n) (rg64 s .enc n Reg.ENC.TICK_POS_LO) (rg64 s .enc n Reg.ENC.TICK_SPEED_LO) 0).take 3)
  let ss := (insts .ssn).flatMap (fun n => let q := ssnShow s n s.now
    (quad (0x300 + 4 * n) (rg64 q .ssn n Reg.SSN.POS_LO) (rg64 q .ssn n Reg.SSN.SPEED_LO) 0).take 3)
  (ax ++ en ++ ss).filter (fun e => e.2 != 0)

/-- A signal's value as a port returns it, in 24 bits (R205). -/
def sigPort (s : State) (id : Nat) : Nat :=
  let v := sigVal s id
  match (sigEnt s id).typ with
  | 0 => v.toNat % 16777216
  | 1 => portSat (v.setWidth 32).toInt
  | 2 => portWhole v.toInt
  | _ => v.toNat % 2

/-- What an IN returns, and none for a reserved port (Table 7-1). -/
def portIn (s : State) (c : Nat) (x : LcSt) (p : Nat) : Option Nat :=
  if p < 0x340 then
    if 0x200 ≤ p ∧ p % 4 = 3 then
      if p < 0x300 then some ((rg s .enc ((p - 0x200) / 4) Reg.ENC.STAT).toNat % 8192)
      else some ((rg s .ssn ((p - 0x300) / 4) Reg.SSN.STAT).toNat % 32)
    else some (SMap.get (fun _ => 0) x.ports p)
  else if p < 0x3A0 then some ((rg s .fch (p - 0x340) Reg.FCH.RESULT).toNat % 16777216)
  else if p < 0x400 then none
  else if p < 0x500 then some ((rg s .cslot ((p - 0x400) / 4) (Reg.CSLOT.Y_IN + 4 * (p % 4))).toNat % 16777216)
  else if p < 0x540 then some (SMap.get (fun _ => 0) x.sigin (p - 0x500))
  else if p < 0x580 then
    some (SMap.get (fun k => (rg s .lc c (Reg.LC.OUTW + 4 * (k - 0x540))).toNat % 16777216) x.out p)
  else if p = 0x580 then some x.flags
  else if p = 0x581 then some (SMap.get (fun _ => 0) x.ports p)
  else none

/-- Whether an OUT reaches a port. -/
def portOutOk (p : Nat) : Bool := (0x400 ≤ p && p < 0x500) || (0x540 ≤ p && p < 0x580)

/-- PORT_ERR (R204). -/
def portErr (s : State) (c : Nat) : State := setInt (wb s .lc c Reg.LC.STAT 7 true) .lc c 2

/-- Whether a bundle goes ahead: it issues and is neither cut nor illegal for its place. -/
def lcGoes (s : State) (a : LcAt) : Bool :=
  let c := a.core.val
  let x := lcReady s c
  lcRuns s c && !(a.err.any (fun e => e.ue)) && !(x.level == 0 && lcDue (setLc s c x) c)

/-- IN: a port into a data register (R204); a reserved port returns 0. -/
def lcInOp (s : State) (a : LcAt) (reg port : Nat) : State :=
  let c := a.core.val
  let x := lcReady s c
  let v := portIn s c x port
  let s1 := if lcGoes s a && reg < 32 && v.isNone then portErr s c else s
  lcIssue s1 a 1 false (fun _ x => if reg < 32 then LcEff.ofWr [x.wrCode reg (v.getD 0) 2] else LcEff.illegal) (seqFlow 1)

/-- OUT: a data register into the output buffer (R203, R204). -/
def lcOutOp (s : State) (a : LcAt) (reg port : Nat) : State :=
  let c := a.core.val
  let x := lcReady s c
  let s1 := if lcGoes s a && reg < 32 && !portOutOk port then portErr s c else s
  let put (y : LcSt) : LcSt :=
    if portOutOk port then { y with out := SMap.insert (SMap.erase y.out port) port (x.d reg) } else y
  lcIssue s1 a 1 false (fun _ _ => if reg < 32 then LcEff.none else LcEff.illegal) (fun y => seqFlow 1 (put y))

/-! ## The end of a sample (R203) -/

/-- One buffered OUT write released at TEND: a control slot's LOOP input, or an output word, which is published. -/
def lcRelease (s : State) (c : Nat) (e : Nat × Nat) : State :=
  let p := e.1
  if p < 0x500 then
    let k := (p - 0x400) / 4
    let i := p % 4
    if rf s .cslot k (Reg.CSLOT.IN_SRC + 4 * i) 0 2 = 0 then
      let x := cslotOf s k
      setCslot s k { x with loopIn := SMap.set (fun _ => 0) x.loopIn i (sext 24 e.2), writer := SMap.set (fun _ => 18) x.writer i c
                            written := (setBit (ofN x.written) i true).toNat }
    else s
  else
    let w := p - 0x540
    let s1 := wr s .lc c (Reg.LC.OUTW + 4 * w) (lcStored e.2)
    pubIf s1 .lc c .task (devTime s1.now) (fun x => x.word == (Reg.LC.OUTW / 4) + w)

/-- TEND: the sample ends and its outputs are released at once; the run of R218 ends and publishes nothing (R203). -/
def lcTendOp (s : State) (a : LcAt) (cond : Nat) : State :=
  let c := a.core.val
  let x := lcReady s c
  let legal := cond != 15 && x.slot.isNone && !x.lastOfBody 1
  let s1 := lcIssue s a 1 true (fun _ _ => if cond = 15 then LcEff.illegal else LcEff.none) (fun y => y.advance 1)
  if lcGoes s a && legal && x.cond cond && x.level == 0 then
    let y := lcOf s1 c
    match x.act with
    | .sample t =>
      let s3 := wr (lcStop s1 c) .lsch 0 (taskReg t 3) (ofN (min y.charged 16777215))
      y.out.foldl (fun s e => lcRelease s c e) s3
    | _ => lcStop s1 c
  else s1

/-! ## Release and start (R200 to R202) -/

/-- The released sample that runs first: the lowest task index (R201), the older release of one task. -/
def firstRel : List LcRel → Option LcRel
  | [] => none
  | r :: l => match firstRel l with
    | none => some r
    | some q => some (if q.task < r.task ∨ (q.task = r.task ∧ q.tick < r.tick) then q else r)

/-- A core takes its next released sample: level 0 at its reset values, the inputs frozen, 24 cycles of overhead after `gap`
cycles of waiting (R201, R202, R205). -/
def lcSampleStart (s : State) (c gap : Nat) : State :=
  let x := lcOf s c
  match firstRel x.waiting with
  | some r =>
    if lcUp s c && x.level == 0 && x.act == .idle then
      let x1 := x.land (x.cyc + gap + 24)
      let x2 := (({ x1 with regs := x1.regs.filter (fun e => 128 ≤ e.1) }).put (lcCtlKey 0 7) (rg s .lc c Reg.LC.G0_INIT).toNat).put
        (lcCtlKey 0 8) (rg s .lc c Reg.LC.G1_INIT).toNat
      let bound := (List.range 64).filterMap (fun w =>
        let v := sigPort s (rf s .lc c (Reg.LC.SIGIN + 4 * w) 0 16)
        if v = 0 then none else some (w, v))
      let fl := SMap.get (fun _ => 0) s.taskFlags r.task
      let x3 : LcSt := { x2 with
        cyc := x.cyc + gap + 24, pc := rf s .lsch 0 (taskReg r.task 1) 0 14, act := .sample r.task, waiting := x.waiting.erase r, tick := r.tick
        ports := r.ports, flags := fl + 256 * r.task, charged := 0, sigin := bound, out := []
        reps := SMap.erase x2.reps 0, flow := SMap.erase x2.flow 0 }
      let s1 := { setLc s c x3 with taskFlags := SMap.erase s.taskFlags r.task }
      lcTraps (wf (wf s1 .lsch 0 (taskReg r.task 3) 28 1 1) .lc c Reg.LC.STAT 9 7 r.task) c
    else s
  | none => s

/-- The sample that is due is cut, at an issue boundary at level 0; else a waiting one whose deadline has passed (R206). -/
def lcSampleCut (s : State) (c : Nat) : State :=
  let x := lcOf s c
  if x.level = 0 && lcDue s c then lcCut s c
  else match x.waiting.find? (fun r => r.tick + taskDeadline s r.task ≤ s.lschTick) with
    | some r => lschLost (setLc s c { x with waiting := x.waiting.erase r }) r.task true
    | none => s

/-- One task released at a tick; it is skipped on a core that is halted or reloads (R200, R206, R218). -/
def releaseTask (s : State) (k : Nat) (ports : SMap Nat) (t : Nat) : State :=
  let c := taskCore s t
  let x := lcOf s c
  if !lcUp s c || x.bare || stOf s .lsch 0 == .update then lschLost s t false
  else setLc s c { x with waiting := x.waiting ++ [⟨t, k, ports⟩] }

/-- The releases of a base tick (R200): deadlines count in ticks (R206), tick numbers from START. -/
def lschRelease (s : State) : State :=
  let a := s.lschTick + 1
  let z := if s.lschZero then a else s.lschT0
  let k := a - z
  let s0 := (insts .lc).foldl (fun s c => let x := lcOf s c; if x.load = 0 then s else setLc s c { x with load := 0 }) s
  let s1 := { s0 with lschTick := a, lschT0 := z, lschZero := false }
  if inSt s1 .lsch 0 [.run, .update] then
    let due := tasks.filter (fun t => taskEn s1 t && k % taskPeriod s1 t == taskPhase s1 t)
    if due.isEmpty then s1
    else
      let p := tickPorts s1 ++ (if k % 16777216 = 0 then [] else [(0x581, k % 16777216)])
      due.foldl (fun s t => releaseTask s a p t) s1
  else s1

/-! ## Stitch-over and fail-over (R211 to R216) -/

/-- The source's tasks, registers and lines go to the target (R212). -/
def moveTasks (s : State) (a b : Nat) (addr : Option Nat) (restored : Bool) : State :=
  let l := tasks.filter (fun t => taskCore s t == a)
  let s1 := l.foldl (fun s t =>
    let s' := both s .lsch 0 (taskReg t 0) (fun w => setFld w 1 5 b)
    let s2 := taskFlag s' t 1 true
    if restored then taskFlag s2 t 2 true else s2) s
  let offs := [Reg.LC.IMG_LO, Reg.LC.IMG_HI, Reg.LC.G0_INIT, Reg.LC.G1_INIT, Reg.LC.CE_CNT, Reg.LC.LOAD_MAX] ++
    (List.range 24).map (fun i => Reg.LC.IRQV + 4 * i) ++ (List.range 64).map (fun i => Reg.LC.SIGIN + 4 * i) ++
    (List.range 64).map (fun i => Reg.LC.OUTW + 4 * i)
  let s2 := offs.foldl (fun s o => both s .lc b o (fun _ => rg s .lc a o)) s1
  let s3 := match addr with
    | some v => both (both s2 .lc b Reg.LC.IMG_LO (fun _ => ofN v)) .lc b Reg.LC.IMG_HI (fun _ => ofN (v / 4294967296))
    | none => s2
  let s4 := (List.range 24).foldl (fun s i => both s .lc a (Reg.LC.IRQV + 4 * i) (fun w => setBit w 15 false)) s3
  let s5 := (List.range 256).foldl (fun s l =>
    if irqRouted s a l then both s .sys 0 (Reg.SYS.IRQ_ROUTE_T + 8 * l) (fun w => setBit (setBit w a false) b true) else s) s4
  { s5 with sigs := s5.sigs.map (fun e => if e.2.from .lc a then (e.1, { e.2 with w0 := setFld e.2.w0 16 8 b }) else e) }

/-- A switch: tasks move, the STANDBY bits swap, the cores take their new roles (R210, R212). -/
def lschSwitch (s : State) (o : LschOp) : State :=
  let s1 := moveTasks s o.src o.dst (if o.op = 1 && o.img then some o.addr else none) (decide (0 < o.lost))
  let s2 := swapStandby s1 o.src o.dst
  let x := lcOf s2 o.src
  let y := lcOf s2 o.dst
  let s3 := setLc s2 o.dst { LcSt.reset with cyc := y.cyc }
  let s4 := if o.op = 1 then setLc s3 o.src { LcSt.reset with cyc := x.cyc, halt := x.halt, haltPc := x.haltPc }
    else wr s3 .lc o.dst Reg.LC.XLOST (ofN o.lost)
  let s5 := opDone (opEnd s4) .lsch 0
  let s6 := if o.op = 1 then setInt s5 .lsch 0 2 else setInt (incSat s5 .lsch 0 Reg.LSCH.FO_CNT) .lsch 0 3
  foNext (lcSync (lcSync s6 o.src) o.dst)

/-- Whether a switch tick has come (R212, R215): the copy is over and, in a stitch-over, the source runs no sample. -/
def switchDue (s : State) (o : LschOp) : Bool :=
  o.phase == 3 && (o.op == 2 || (o.op == 1 && (lcOf s o.src).act == .idle && (lcOf s o.src).waiting.isEmpty))

/-- The switch of a kind of operation, when it is due at this edge. -/
def tickSwitch (s : State) (op : Nat) : State :=
  match s.lschOp with
  | some o => if o.op == op && switchDue s o then lschSwitch s o else s
  | none => s

/-- The stitch-over whose switch tick has not come within STITCH_TMO ticks fails (R213). -/
def stitchTimeoutAct (s : State) : State :=
  match s.lschOp with
  | some o => if o.op = 1 ∧ o.phase = 3 ∧ rf s .lsch 0 Reg.LSCH.CFG 16 16 ≤ o.wait then foNext (stitchFail s .wrongState) else s
  | none => s

/-- The fail-over that has not switched within FO_LIMIT ticks fails (R216). -/
def foTimeoutAct (s : State) : State :=
  match s.lschOp with
  | some o => if o.op = 2 ∧ rf s .lsch 0 Reg.LSCH.CFG 8 8 ≤ o.wait then
      foNext (foFail (opFail (opEnd s) .lsch 0 .wrongState 0x010) o.src) else s
  | none => s

/-- A base tick counts for the operation in progress. -/
def opWait (s : State) : State :=
  match s.lschOp with
  | some o => { s with lschOp := some { o with wait := if o.op = 2 ∨ o.phase = 3 then o.wait + 1 else o.wait } }
  | none => s

/-! ## Restart (R218) -/

/-- Whether a core takes part in a RESTART: in service, with power and an image named. -/
def restarts (s : State) (c : Nat) : Bool :=
  !standby s c && !inSt s .lc c [.off] && joinN (rg s .lc c Reg.LC.IMG_LO) (rg s .lc c Reg.LC.IMG_HI) != 0

/-- A core stops for its reload: what runs ends, and what waits is skipped. A debug-halted core shows HOLD throughout (R220). -/
def restartStop (s : State) (c : Nat) : State :=
  if restarts s c then
    let x := lcOf s c
    let s1 := x.waiting.foldl (fun s r => lschLost s r.task false) (lcStop s c)
    let s2 := setLc s1 c { LcSt.reset with cyc := x.cyc, bare := true }
    if stOf s .lc c == .hold then s2 else setSt s2 .lc c .update
  else s

/-- RESTART acts: every core in service is reloaded, phase 1. -/
def restartAct (s : State) : State :=
  let s1 := (insts .lc).foldl restartStop s
  let s2 := if stOf s1 .lsch 0 == .run then setSt s1 .lsch 0 .update else s1
  let op : LschOp := { op := 3, src := 0, dst := 0, phase := 1, img := true, addr := 0, wait := 0, bad := false, lost := 0 }
  lcSyncAll (opSync (opStart { s2 with lschOp := some op } .lsch 0 3 1 0))

/-- The address of a core's image. -/
def lcImg (s : State) (c : Nat) : Nat := joinN (rg s .lc c Reg.LC.IMG_LO) (rg s .lc c Reg.LC.IMG_HI)

/-- A core that reloads: loaded from its image and started at word 0, vector 0; or its image fails and it stays unloaded. `spoilt`: the
images with a word that cannot be corrected, which fails their CRC (log entry 34). -/
def restartLoad (spoilt : Nat → Bool) (s : State) (c : Nat) : State × Bool :=
  let img := lcImg s c
  if !(restarts s c && inSt s .lc c [.update, .hold] && (lcOf s c).bare) then (s, false)
  else if imgOk s img && !spoilt img then
    let s1 := setLc (loadImage s c img true) c { LcSt.reset with cyc := (lcOf s c).cyc, act := .init }
    ((coreTasks s1 c).foldl (fun s t => taskFlag s t 0 true) s1, false)
  else (s, true)

/-- The reload ends: the cores whose images passed run from word 0, until TEND or the next base tick. -/
def restartEnd (s : State) (spoilt : Nat → Bool) : State :=
  match s.lschOp with
  | some o =>
    if o.op = 3 ∧ o.phase = 1 then
      let (s1, bad) := (insts .lc).foldl (fun (r : State × Bool) c => let (s', b) := restartLoad spoilt r.1 c; (s', r.2 || b)) (s, false)
      { s1 with lschOp := some { o with phase := 2, bad := bad } }
    else s
  | none => s

/-- A core's run from word 0 is over. -/
def initOver (s : State) (c : Nat) : State :=
  let x := lcOf s c
  let s1 := if x.act = .init then setLc s c { x.clear0 with level := 0 } else s
  if stOf s1 .lc c == .update && !selfTesting s1 c then setSt s1 .lc c .idle else s1

/-- The first base tick after the reload: the runs from word 0 are over, RESTART ends, and releases resume (R218). -/
def restartOver (s : State) : State :=
  match s.lschOp with
  | some o =>
    if o.op = 3 ∧ o.phase = 2 then
      let s1 := (insts .lc).foldl initOver { s with lschOp := none }
      let s2 := if stOf s1 .lsch 0 == .update then setSt s1 .lsch 0 .run else s1
      let s3 := lcSyncAll (opSync s2)
      foNext (if o.bad then opFail s3 .lsch 0 .crcMismatch 0x01C else opDone s3 .lsch 0)
    else s
  | none => s

/-- At a base tick a self-test in its memory march may have gone on to its vectors (R217): when is a free value. -/
def testStep (s : State) : State :=
  (insts .lc).foldl (fun s c =>
    if selfTesting s c && fld (s.page (pk .lc c)).prog 24 4 == 1 then
      (if Config.freeBool s.seed then setProg s .lc c 1 2 0 else s).next
    else s) s

/-- A base tick of `LSCH`: the runs of a restart end, self-tests go on, a due switch, the limits, then the releases (R200, R212,
R217, R218). -/
def lschTickAct (s : State) : State :=
  lschRelease (foTimeoutAct (stitchTimeoutAct (opWait (tickSwitch (tickSwitch (testStep (restartOver s)) 1) 2))))

/-- The X word pairs of a failed core that read uncorrectable take the image's X initial values (R215). -/
def xRestore (s : State) (c img : Nat) (lost : List Nat) : State :=
  let base := img + 0x20 + 4 * imgWord s img 1
  let nx := imgWord s img 2
  let put (s : State) (w : Nat) : State :=
    putMem32 s (lcAddr c 1 w) (if w < nx then mem32 s (base + 4 * w) else 0)
  lost.foldl (fun s p => put (put s (2 * p)) (2 * p + 1)) s

/-- A copy phase ends (Table 7-2): program and Y stand in the target, then X; `lost`: the X word pairs of a failed core that
read uncorrectable; `spoilt`: the image has such a word, which fails its CRC (log entry 34). -/
def copyEnd (s : State) (lost : List Nat) (spoilt : Bool) : State :=
  match s.lschOp with
  | some o =>
    if o.op = 3 then s
    else if o.phase = 1 then
      if o.img && (spoilt || !imgOk s o.addr) then
        if o.op = 1 then foNext (stitchFail s .crcMismatch)
        else foNext (foFail (opFail (opEnd s) .lsch 0 .crcMismatch 0x01C) o.src)
      else
        let s1 := if o.img then loadImage s o.dst o.addr false
          else copyRange (copyRange s (lcAddr o.src 0 0) (lcAddr o.dst 0 0) 65536) (lcAddr o.src 2 0) (lcAddr o.dst 2 0) 65536
        let s2 := copyRange s1 (lcAddr o.src 1 0) (lcAddr o.dst 1 0) 65536
        setProg { s2 with lschOp := some { o with phase := 2 } } .lsch 0 3 2 32
    else if o.phase = 2 then
      let s1 := if o.op = 2 then xRestore (copyRange s (lcAddr o.src 1 0) (lcAddr o.dst 1 0) 65536) o.dst o.addr lost else s
      setProg { s1 with lschOp := some { o with phase := 3, lost := if o.op = 2 then lost.length else 0 } } .lsch 0 0 3 0
    else s
  | none => s

/-- The page of a core that takes part in an operation shows UPDATE; one in HOLD or FAULT keeps its state (R220). -/
def lcUpdate (s : State) (c : Nat) : State := if inSt s .lc c [.idle, .run] then setSt s .lc c .update else s

/-- STITCH acts: phase 1 (R211). -/
def stitchAct (s : State) : State :=
  let r := rg s .lsch 0 Reg.LSCH.STITCH
  let img := imgAddr (rg s .lsch 0 Reg.LSCH.STITCH_IMG_LO) (rg s .lsch 0 Reg.LSCH.STITCH_IMG_HI)
  let op : LschOp := { op := 1, src := fld r 0 5, dst := fld r 8 5, phase := 1, img := bit r 16, addr := img, wait := 0,
                       bad := false, lost := 0 }
  opSync (opStart { lcUpdate (lcUpdate s (fld r 0 5)) (fld r 8 5) with lschOp := some op } .lsch 0 3 1 0)

/-! ## Commands of LSCH (R219) -/

/-- What `LSCH` says of its commands: in IDLE only STITCH and RESTART wait for the next tick (R219). -/
def lschRule (s : State) (code : Nat) : Option CmdRule :=
  let r := rg s .lsch 0 Reg.LSCH.STITCH
  let op := s.lschOp
  match code with
  | 0x01 => some ⟨false, true, firstOf [(!inSt s .lsch 0 [.idle], .wrongState)]⟩
  | 0x02 => some ⟨true, false, firstOf [(!inSt s .lsch 0 [.run, .update], .wrongState)]⟩
  | 0x05 => some ⟨false, inSt s .lsch 0 [.off, .idle], none⟩
  | 0x07 => some ⟨false, true, firstOf [(!op.any (fun o => o.op == 1), .wrongState)]⟩
  | 0x10 => some ⟨false, false, firstOf [(!inSt s .lsch 0 [.idle, .run], .wrongState),
      ((coreTasks s (fld r 0 5)).isEmpty || !freeStandby s (fld r 8 5), .conflict), (op.isSome || !s.lschFoQ.isEmpty, .busy)]⟩
  | 0x11 => some ⟨false, false, firstOf [(!inSt s .lsch 0 [.idle, .run], .wrongState), (op.isSome || !s.lschFoQ.isEmpty, .busy)]⟩
  | _ => none

/-- The effect of an `LSCH` command. -/
def lschAct (s : State) (code : Nat) : State :=
  match code with
  | 0x01 =>
    let s1 := tasks.foldl (fun s t => wr s .lsch 0 (Reg.LSCH.OVR_CNT + 4 * t) 0) s
    lcSyncAll { setSt s1 .lsch 0 .run with lschZero := true }
  | 0x02 => lcSyncAll (setSt s .lsch 0 .idle)
  | 0x07 => foNext (stitchFail s .wrongState)
  | 0x10 => stitchAct s
  | 0x11 => restartAct s
  | _ => s

/-! ## Commits (R208, R209) -/

/-- A field of a staged task descriptor word. -/
def tsf (s : State) (t i lo len : Nat) : Nat := stf s .lsch 0 (taskReg t i) lo len

/-- A sample of the schedule check: the cycles left of it and all of them, its deadline tick and its task. -/
structure SchedJob where
  left : Nat
  all : Nat
  due : Nat
  task : Nat
  deriving DecidableEq, Repr

/-- A sample put among those that wait, in ascending task index, an older one first (R201). -/
def schedInsert (e : SchedJob) : List SchedJob → List SchedJob
  | [] => [e]
  | q :: l => if e.task < q.task then e :: q :: l else q :: schedInsert e l

/-- One tick of the schedule check of a core (R208): the backlog after it, or the task whose sample would end after its deadline. A
sample that has begun goes on first, the others run in ascending index. -/
def schedTick (s : State) (ts : List Nat) (cap k : Nat) (q : List SchedJob) : Except Nat (List SchedJob) :=
  let rel := ts.filter (fun t => k % 2 ^ tsf s t 0 8 4 == tsf s t 0 12 8)
  let new := rel.map (fun t =>
    let d := tsf s t 0 20 8
    let n := (staged s .lsch 0 (taskReg t 2)).toNat + 24
    (⟨n, n, k + (if d = 0 then 2 ^ tsf s t 0 8 4 else d), t⟩ : SchedJob))
  let run := q.filter (fun e => e.left < e.all)
  let wait := new.foldl (fun l e => schedInsert e l) (q.filter (fun e => e.left == e.all))
  let left := (run ++ wait).foldl (fun (r : Nat × List SchedJob) e =>
    if e.left ≤ r.1 then (r.1 - e.left, r.2) else (0, r.2 ++ [{ e with left := e.left - r.1 }])) (cap, [])
  match left.2.filter (fun e => e.due ≤ k + 1) with
  | e :: l => .error (l.foldl (fun m e => min m e.task) e.task)
  | [] => .ok left.2

/-- The first task of a core whose sample would end late over 256 ticks (R208). -/
def schedCore (s : State) (c : Nat) : Option Nat :=
  let ts := tasks.filter (fun t => tsf s t 0 0 1 == 1 && tsf s t 0 1 5 == c)
  let cap := 9375 - 60 - (staged s .lsch 0 (Reg.LSCH.RESERVE + 4 * c)).toNat
  if ts.isEmpty then none
  else
    let r := (List.range 256).foldl (fun (r : Except Nat (List SchedJob)) k => match r with
      | .ok q => schedTick s ts cap k q
      | .error t => .error t) (.ok [])
    match r with
    | .error t => some t
    | .ok _ => none

/-- The tests of a staged LSCH set (R208, R209). -/
def lschValidate (s : State) : List (Bool × Nat × ErrCode) :=
  let st (o : Nat) : Nat := (staged s .lsch 0 o).toNat
  let img := imgAddr (staged s .lsch 0 Reg.LSCH.STITCH_IMG_LO) (staged s .lsch 0 Reg.LSCH.STITCH_IMG_HI)
  let busy := s.lschOp.isSome
  let en (t : Nat) : Bool := tsf s t 0 0 1 == 1
  let core (t : Nat) : Nat := tsf s t 0 1 5
  let sb (c : Nat) : Bool := bit (staged s .lsch 0 Reg.LSCH.STANDBY) c
  [(stf s .lsch 0 Reg.LSCH.CFG 8 8 == 0 || stf s .lsch 0 Reg.LSCH.CFG 16 16 == 0, Reg.LSCH.CFG, .range),
   (st Reg.LSCH.OVR_LIMIT == 0, Reg.LSCH.OVR_LIMIT, .range),
   ((List.range 18).any (fun c => sb c && tasks.any (fun t => en t && core t == c && !changed s .lsch 0 (taskReg t 0))),
     Reg.LSCH.STANDBY, .conflict),
   (busy && changed s .lsch 0 Reg.LSCH.STANDBY, Reg.LSCH.STANDBY, .wrongState),
   (decide (18 ≤ stf s .lsch 0 Reg.LSCH.STITCH 0 5) || decide (18 ≤ stf s .lsch 0 Reg.LSCH.STITCH 8 5), Reg.LSCH.STITCH, .range),
   (busy && changed s .lsch 0 Reg.LSCH.STITCH, Reg.LSCH.STITCH, .wrongState),
   ((img != 0 || stf s .lsch 0 Reg.LSCH.STITCH 16 1 == 1) &&
      (img % 4096 != 0 || decide (img < loopBase s) || decide (0xC00000000 ≤ img)), Reg.LSCH.STITCH_IMG_LO, .range)] ++
  (List.range 18).map (fun c => let o := Reg.LSCH.RESERVE + 4 * c; (decide (9000 < st o), o, .range)) ++
  tasks.flatMap (fun t =>
    let o := taskReg t 0
    let p := 2 ^ tsf s t 0 8 4
    [(decide (18 ≤ core t) || decide (8 < tsf s t 0 8 4) || decide (p ≤ tsf s t 0 12 8) || decide (p < tsf s t 0 20 8), o, .range),
     (en t && sb (core t), o, .conflict),
     (busy && en t && rb s .lsch 0 o 0 && core t != taskCore s t, o, .wrongState),
     (en t && !powered s .lc (core t), o, .notPresent),
     (en t && (st (taskReg t 2) == 0 || decide (2400000 < st (taskReg t 2))), taskReg t 2, .range)]) ++
  (List.range 18).filterMap (fun c => (schedCore s c).map (fun t => (true, taskReg t 2, .budget)))

/-- After a commit: newly enabled tasks show FIRST, and the LC pages follow (R209). -/
def lschCommitted (s : State) (old : Page) : State :=
  let was (t : Nat) : Bool := bit (SMap.get (regReset .lsch) old.regs (taskReg t 0)) 0
  lcSyncAll (tasks.foldl (fun s t => if taskEn s t && !was t then taskFlag s t 0 true else s) s)

/-! ## The LC pages (R217, R220) -/

/-- What an `LC` page says of its commands. -/
def lcRule (s : State) (c code : Nat) : Option CmdRule :=
  match code with
  | 0x05 => some ⟨false, true, none⟩
  | 0x06 => some ⟨false, true, firstOf [(!inSt s .lc c [.fault], .wrongState)]⟩
  | 0x07 => some ⟨false, true, firstOf [(!selfTesting s c, .wrongState)]⟩
  | 0x10 => some ⟨false, true, firstOf [(!freeStandby s c, .wrongState)]⟩
  | _ => none

/-- The effect of an `LC` command. -/
def lcAct (s : State) (c code : Nat) : State :=
  match code with
  | 0x06 => setSt (setLc s c { LcSt.reset with cyc := (lcOf s c).cyc, bare := true }) .lc c .idle
  | 0x07 => setSt (opFail s .lc c .wrongState 0x010) .lc c .idle
  | 0x10 => opStart (setSt s .lc c .update) .lc c 1 1 0
  | _ => s

/-- A self-test ends (R217): cause 0 passes; `w` is the failing word of causes 1 to 4. -/
def selfTestEnd (s : State) (c cause w : Nat) : State :=
  if selfTesting s c then
    let s1 := clearRange (clearRange (clearRange s (lcAddr c 0 0) 65536) (lcAddr c 1 0) 65536) (lcAddr c 2 0) 65536
    let s2 := wr s1 .lc c Reg.LC.ST_RESULT (ofN (cause + (if 1 ≤ cause ∧ cause ≤ 4 then 16 * w else 0)))
    if cause = 0 then setSt (opDone s2 .lc c) .lc c .idle
    else
      let s3 := setSt (opFail s2 .lc c .notPresent 0x010) .lc c .fault
      setStandby (setLc s3 c { lcOf s3 c with halt := 4 }) c false
  else s

/-- The tests of a staged `LC` set (R220). -/
def lcValidate (s : State) (c : Nat) : List (Bool × Nat × ErrCode) :=
  let img := imgAddr (staged s .lc c Reg.LC.IMG_LO) (staged s .lc c Reg.LC.IMG_HI)
  let v (i : Nat) : Word := staged s .lc c (Reg.LC.IRQV + 4 * i)
  [(img != 0 && (img % 4096 != 0 || decide (img < loopBase s) || decide (0xC00000000 ≤ img)), Reg.LC.IMG_LO, .range)] ++
  (List.range 24).map (fun i => ((List.range 24).any (fun j => j != i && bit (v i) 15 && bit (v j) 15 && fld (v i) 0 8 == fld (v j) 0 8),
    Reg.LC.IRQV + 4 * i, .conflict))

/-- A soft reset of an `LC` page (R40): nothing runs any more; a core that had failed is loaded before it serves again (R220). -/
def lcSoftReset (s : State) (c : Nat) : State :=
  let x := lcOf s c
  setLc (lcStop s c) c { LcSt.reset with cyc := x.cyc, bare := x.bare || x.halt != 0 }

/-- A soft reset of the scheduler (R40): no operation, no task, nothing waits, and no core serves. -/
def lschSoftReset (s : State) : State :=
  let s1 := (insts .lc).foldl (fun s c =>
    let x := lcOf s c
    if x.act = .idle ∧ x.waiting = [] then s else setLc s c { x.clear0 with waiting := [] }) s
  let s2 := (insts .lc).foldl (fun s c => if stOf s .lc c == .update && !selfTesting s c then setSt s .lc c .idle else s)
    { s1 with lschOp := none, lschFoQ := [], taskFlags := [], lschZero := false }
  lcSyncAll s2

end Sys2Proof.Machine
end

