-- ==== Sys2Proof/Machine/Cslot.lean ====
section
/-! DEFINITION. Control engines and control slots (R223 to R249): sample events and output phases, update phases, repetitive
compensation, the fallback loop, commits and commands. -/
namespace Sys2Proof.Machine

/-! ## Configuration in force -/

/-- NS, NI, NY and NU (R224). -/
def csNS (s : State) (k : Nat) : Nat := rf s .cslot k Reg.CSLOT.DIMS 0 4
def csNI (s : State) (k : Nat) : Nat := rf s .cslot k Reg.CSLOT.DIMS 4 3
def csNY (s : State) (k : Nat) : Nat := rf s .cslot k Reg.CSLOT.DIMS 8 3
def csNU (s : State) (k : Nat) : Nat := rf s .cslot k Reg.CSLOT.DIMS 12 3

/-- A matrix element, Q1.23 (R224): base, width, row and column. -/
def csEl (s : State) (k base w r c : Nat) : Int := sext 24 (rg s .cslot k (base + 4 * (r * w + c))).toNat

/-- The sum of a matrix row against a vector of `n` elements. -/
def csRow (s : State) (k base w r n : Nat) (v : Nat → Int) : Int :=
  (List.range n).foldl (fun a c => a + csEl s k base w r c * v c) 0

/-- rnd of a sum in 2⁻⁴⁶ with a left shift, in 2⁻²³: to nearest with ties towards plus infinity (R225). -/
def csRnd (shift : Nat) (v : Int) : Int := (v * 2 ^ shift + 4194304) / 8388608

/-- A row's shift. -/
def csShift (s : State) (k off r : Nat) : Nat := rf s .cslot k off (4 * r) 4

/-- The state x̂ of a row (XHAT, Q8.23); rows at or above NS read 0. -/
def csX (s : State) (k r : Nat) : Int := if r < csNS s k then sw (rg s .cslot k (Reg.CSLOT.XHAT + 4 * r)) else 0

/-- Whether the frame is DQ. -/
def csDq (s : State) (k : Nat) : Bool := rb s .cslot k Reg.CSLOT.CFG 1

/-! ## Angles -/

/-- The electrical angle from a position in 2⁻¹⁶ counts, in 2⁻³² turns (R229). -/
def csTheta (s : State) (k : Nat) (p : Int) : Nat :=
  let e := rg s .cslot k Reg.CSLOT.ELEC
  let cpr := fld e 0 24
  let poles := fld e 24 7
  let m := p % ((cpr * 65536 : Nat) : Int)
  ((fq (m * poles * 4294967296) (cpr * 65536) + (rg s .cslot k Reg.CSLOT.THETA_OFS).toNat) % 4294967296).toNat

/-- The positions of the ENC channels latched at a trigger that starts a conversion of a fast channel (R229). -/
def fchLatch (s : State) (c t : Nat) : State :=
  let at_ (n : Nat) : Int := if powered s .enc n then encPos s n t else 0
  setFch s c { fchOf s c with latch := ((insts .enc).map (fun n => (n, at_ n))).filter (fun e => e.2 != 0) }

/-- The electrical angle of a sample and the angular speed in 2⁻³² turns/s. -/
def csAngle (s : State) (k t : Nat) : Nat × Int :=
  let a := rg s .cslot k Reg.CSLOT.ANGLE
  let c := fld a 2 6
  let e := rg s .cslot k Reg.CSLOT.ELEC
  match fld a 0 2 with
  | 1 =>
    let p := if rf s .cslot k Reg.CSLOT.TRIG 0 2 = 0 then
        SMap.get (fun _ => 0) (fchOf s (rf s .cslot k Reg.CSLOT.TRIG 2 7)).endLatch c
      else encPos s c t
    (csTheta s k p, fq (encSpd s c t * (fld e 24 7 : Nat) * 65536) (fld e 0 24))
  | 2 => ((sigLo s (fld a 16 16)).toNat, 0)
  | _ => ((rg s .cslot k Reg.CSLOT.THETA_OFS).toNat, 0)

/-! ## The repetitive master (R236) -/

/-- Position, speed (2⁻¹⁶) and validity of the repetitive master at an event: its page is in RUN (R239), and a serial sensor has had a
good frame since START. -/
def repSource (s : State) (k t : Nat) : Int × Int × Bool :=
  let r := rg s .cslot k Reg.CSLOT.REP_CFG
  let i := fld r 8 7
  match fld r 5 2 with
  | 1 => (encPos s (i % 64) t, encSpd s (i % 64) t, stOf s .enc (i % 64) == .run)
  | 2 => (rg64 s .axis i Reg.AXIS.SETP_LO, rg64 s .axis i Reg.AXIS.SETV_LO, stOf s .axis i == .run)
  | 3 => let q := ssnShow s (i % 16) t
    (rg64 q .ssn (i % 16) Reg.SSN.POS_LO, rg64 q .ssn (i % 16) Reg.SSN.SPEED_LO,
      stOf s .ssn (i % 16) == .run && rb s .ssn (i % 16) Reg.SSN.STAT 0)
  | _ => (0, 0, false)

/-- θ_m as a numerator over REP_CPR × 2¹⁶. -/
def repNum (s : State) (k : Nat) (p : Int) : Nat :=
  ((p - rg64 s .cslot k Reg.CSLOT.REP_ORIGIN_LO) % (((rg s .cslot k Reg.CSLOT.REP_CPR).toNat * 65536 : Nat) : Int)).toNat

/-- The denominator of θ_m. -/
def repDen (s : State) (k : Nat) : Nat := (rg s .cslot k Reg.CSLOT.REP_CPR).toNat * 65536

/-- A bin of a channel's table. -/
def repBin (x : CslotSt) (c b : Nat) : Int := SMap.get (fun _ => 0) x.tab (4096 * c + b % 4096)

/-- A bin written, saturating to Q1.23 (R238). -/
def repPut (x : CslotSt) (c b : Nat) (v : Int) : CslotSt :=
  { x with tab := SMap.set (fun _ => 0) x.tab (4096 * c + b % 4096) (clampI (-8388608) 8388607 v) }

/-- The channels enabled in REP_CFG.EN. -/
def repChans (s : State) (k : Nat) : List Nat := (List.range 4).filter (fun c => rb s .cslot k Reg.CSLOT.REP_CFG c)

/-! ## Inputs and measured outputs (R228, R234, R235) -/

/-- The raw value of an input (R234). -/
def csRaw (s : State) (k i : Nat) : Int :=
  let r := rg s .cslot k (Reg.CSLOT.IN_SRC + 4 * i)
  match fld r 0 2 with
  | 0 => SMap.get (fun _ => 0) (cslotOf s k).loopIn i
  | 1 => sext 24 (sigPort s (fld r 16 16))
  | _ => sext 24 (rg s .cslot k (Reg.CSLOT.IN_VAL + 4 * i)).toNat

/-- The limited input (R235). -/
def csSlew (lim prev raw : Int) : Int := if lim = 0 then raw else prev + clampI (-lim) lim (raw - prev)

/-- A measured output as it stands (R228). -/
def csY (s : State) (k m : Nat) : Int :=
  let r := rg s .cslot k (Reg.CSLOT.Y_SRC + 4 * m)
  match fld r 0 2 with
  | 1 => sw (rg s .fch (fld r 2 7) Reg.FCH.RESULT)
  | 2 => sext 24 (sigPort s (fld r 16 16))
  | _ => 0

/-- Whether an FCH output has not converted since the previous sample event (R228). -/
def csStale (s : State) (k : Nat) : Bool :=
  (List.range (csNY s k)).any (fun m =>
    let r := rg s .cslot k (Reg.CSLOT.Y_SRC + 4 * m)
    fld r 0 2 == 1 && (fchOf s (fld r 2 7)).seq == SMap.get (fun _ => 0) (cslotOf s k).seen (fld r 2 7))

/-- The conversion counts of the fast channels as they stand. -/
def csSeen (s : State) : SMap Nat := s.fchs.filterMap (fun e => if e.2.seq = 0 then none else some (e.1, e.2.seq))

/-! ## The fallback loop (R242 to R244) -/

/-- The fallback starts (R242): its integrator at the last value of the input. -/
def rideStart (s : State) (k t : Nat) : State :=
  let x := cslotOf s k
  let i := rf s .cslot k Reg.CSLOT.FB_CFG 1 2
  let s1 := setCslot s k { x with rtFrom := s.lap t, fbI := x.rLim.getD i 0 * 8388608, expired := false, dog := 0, dogSaid := 0 }
  ceSync (setInt (wb (setSt s1 .cslot k .update) .cslot k Reg.CSLOT.STAT 12 true) .cslot k 5) (k / 8)

/-- The fallback ends (R244). -/
def rideEnd (s : State) (k t : Nat) : State :=
  let x := cslotOf s k
  let us := min ((s.lap t - x.rtFrom) / 8000) 16777215
  let s1 := wr (setCslot s k { x with expired := false }) .cslot k Reg.CSLOT.RT_TIME (ofN us)
  ceSync (setInt (wb (setSt s1 .cslot k .run) .cslot k Reg.CSLOT.STAT 12 false) .cslot k 6) (k / 8)

/-- The watchdog's count has reached WDOG (R242): without a fallback the loss is raised once for each value of WDOG reached. -/
def dogAct (s : State) (k t : Nat) : State :=
  let w := rf s .cslot k Reg.CSLOT.MISC 0 8
  let x := cslotOf s k
  if stOf s .cslot k == .run && w != 0 && w ≤ x.dog then
    if rb s .cslot k Reg.CSLOT.FB_CFG 0 then rideStart s k t
    else if x.dogSaid < w then raise (setInt (setCslot s k { x with dogSaid := x.dog }) .cslot k 10) 0x05 .cslot k 0 0
    else s
  else s

/-- One sample of the fallback (R243); `dt`: the time since the previous sample. -/
def fbStep (s : State) (k dt : Nat) : State × Int :=
  let a := rf s .cslot k Reg.CSLOT.FB_CFG 8 7
  let c := rg s .axis a Reg.AXIS.CFG
  let f := fld c 2 6
  let speed := if fld c 0 2 = 1 then rg64 s .enc f Reg.ENC.TICK_SPEED_LO else (ssnOf s (f % 16)).tickV
  let kp : Int := (rg s .cslot k Reg.CSLOT.FB_KP).toNat
  let vc := kp * (rg64 s .axis a Reg.AXIS.SETP_LO - rg64 s .axis a Reg.AXIS.ACT_LO) + rg64 s .axis a Reg.AXIS.SETV_LO * 65536
  let e := vc - speed * 65536
  let kv := sext 24 (rg s .cslot k Reg.CSLOT.FB_KV).toNat
  let q := fq (kv * e) (512 * (rg s .cslot k Reg.CSLOT.FB_VSCALE).toNat)
  let x := cslotOf s k
  let ki : Int := (rg s .cslot k Reg.CSLOT.FB_KI).toNat
  let i := clampI (-70368744177664) 70368744177664 (x.fbI + fq (ki * q * dt) (65536 * perS))
  let o := clampI (-8388608) 8388607 (fq (q + i) 8388608)
  (wr (setCslot s k { x with fbI := i }) .cslot k Reg.CSLOT.FB_OUT (ofI o), o)

/-! ## The output phase (R225, R227 to R230) -/

/-- The duty fraction of a control or phase value (R230). -/
def dutyFrac (v : Int) : Nat := min 0xFFFF ((v + 8388608 + 128) / 256).toNat

/-- When the fractions of a sample stand in the compare shadows, in elapsed time (R231): 24 engine cycles and the crossing to the module, 33 ns,
after the event has crossed to the engine, from a converter group in 3 ns, from another block at the fixed cost of a crossing that is not
listed (R10). -/
def csArrive (s : State) (k t : Nat) : Nat :=
  s.lap t + 264 + (if rf s .cslot k Reg.CSLOT.TRIG 0 2 = 0 then 24 else Config.crossing % 33)

/-- A fraction is on its way to the compare shadow of a pair, where it stands from an elapsed time on (R230, R231). -/
def pwmDuty (s : State) (m p a f : Nat) : State :=
  let x := pwmOf s m
  setPwm s m (x.setPair p { (x.pair p).absorb (s.lap s.now) with inc := some (a, f) })

/-- The controls of a sample with a correction: the values, and a bit for each that was limited (R225 step 1, R229). -/
def csControls (s : State) (k : Nat) (corr y r : List Int) : List Int × Nat :=
  let x := cslotOf s k
  let raw (j : Nat) : Int :=
    csRnd (csShift s k Reg.CSLOT.SHIFT_U j) (x.p.getD j 0 + csRow s k Reg.CSLOT.E 4 j (csNY s k) (fun m => y.getD m 0)
      + csRow s k Reg.CSLOT.H 4 j (csNI s k) (fun i => r.getD i 0)) + corr.getD j 0
  let lim (j : Nat) : Int := sw (rg s .cslot k (Reg.CSLOT.U_LIM + 4 * j))
  let sat (v : Int) : Int := clampI (-8388608) 8388607 v
  let one (j : Nat) : Int := clampI (-(lim j)) (lim j) (sat (raw j))
  let nu := csNU s k
  let us := (List.range 4).map (fun j => if j < nu then one j else 0)
  if csDq s k then
    let d := sat (raw 0)
    let q := sat (raw 1)
    let ovr := decide (lim 0 * lim 0 < d * d + q * q)
    let (d', q') := if ovr then vectorLimit d q (lim 0) else (d, q)
    let us' := [d', q', us.getD 2 0, us.getD 3 0]
    (us', (List.range 4).foldl (fun w j =>
      let l := if j < 2 then ovr || raw j != sat (raw j) else decide (j < nu) && us.getD j 0 != raw j
      if l then w + 2 ^ j else w) 0)
  else (us, (List.range 4).foldl (fun w j => if j < nu ∧ us.getD j 0 ≠ raw j then w + 2 ^ j else w) 0)

/-- The controls go to their destinations, where they stand from the elapsed time `a` on (R225 step 2, R229 to R231). -/
def csDeliver (s : State) (k a : Nat) (u : List Int) (theta : Nat) (omega : Int) : State :=
  let map (j : Nat) : Word := rg s .cslot k (Reg.CSLOT.U_MAP + 4 * j)
  let one (s : State) (j : Nat) : State :=
    let w := map j
    if j < csNU s k ∧ fld w 0 2 = 1 then pwmDuty s (fld w 2 5) (fld w 8 2) a (dutyFrac (u.getD j 0)) else s
  if csDq s k then
    let adv := fq (omega * (rf s .cslot k Reg.CSLOT.ANG_ADV 0 16 : Nat)) 1000000000
    let (va, vb, vc) := dqBack (u.getD 0 0) (u.getD 1 0) ((((theta : Int) + adv) % 4294967296).toNat)
    let mid := if rb s .cslot k Reg.CSLOT.CFG 2 then fq (max va (max vb vc) + min va (min vb vc)) 2 else 0
    let m := fld (map 0) 2 5
    let s1 := pwmDuty (pwmDuty (pwmDuty s m 0 a (dutyFrac (va - mid))) m 1 a (dutyFrac (vb - mid))) m 2 a (dutyFrac (vc - mid))
    one (one s1 2) 3
  else (List.range 4).foldl one s

/-- Update-phase cost of a set of values (Table 8-3): `f` reads a register, staged or active. -/
def csCost (f : Nat → Word) : Nat :=
  let d := f Reg.CSLOT.DIMS
  let ns := fld d 0 4
  let ni := fld d 4 3
  let ny := fld d 8 3
  let nu := fld d 12 3
  let plaus := (List.range 4).any (fun m => f (Reg.CSLOT.PLAUS_LIM + 4 * m) != 0)
  let chans := ((List.range 4).filter (fun c => bit (f Reg.CSLOT.REP_CFG) c)).length
  24 + ns * (ns + ni + 2 * ny + 2 * nu) + (if bit (f Reg.CSLOT.CFG) 1 then 24 else 0) + (if plaus then 8 * ny else 0)
    + 48 * chans + (if bit (f Reg.CSLOT.FB_CFG) 0 then 96 else 0)

/-- The waiting update phases of an engine. -/
def ceQueue (s : State) (e : Nat) : List Nat := SMap.get (fun _ => []) s.ceQ e

/-- One update phase put in the queue of its engine; QUEUE_MAX follows (R223, Table 8-7). -/
def ceEnqueue (s : State) (k : Nat) : State :=
  let e := k / 8
  let q := (ceQueue s e).filter (fun j => j != k) ++ [k]
  let n := q.foldl (fun a j => a + (rg s .cslot j Reg.CSLOT.COST).toNat) 0
  let s1 := { s with ceQ := SMap.set (fun _ => []) s.ceQ e q }
  if (rg s1 .ce e Reg.CE.QUEUE_MAX).toNat < n then wr s1 .ce e Reg.CE.QUEUE_MAX (ofN n) else s1

/-- Whether a sample event comes too early (R227). -/
def csEarly (s : State) (k t : Nat) : Bool :=
  match (cslotOf s k).last with
  | some l => s.lap t < l + 10 * rf s .cslot k Reg.CSLOT.TMIN 0 24
  | none => false

/-- The repetitive master at a sample: θ_m in 2⁻³² turns, its numerator, the sign of its speed and REP_ON (R236). -/
def repSample (s : State) (k t : Nat) : State × Nat × Int × Bool :=
  let (p, v, ok) := repSource s k t
  let num := repNum s k p
  let on := ok && decide ((rg s .cslot k Reg.CSLOT.REP_VMIN).toNat * 65536 ≤ v.natAbs)
  let th := fq ((num : Int) * 4294967296) (repDen s k)
  let s1 := wb (wr s .cslot k Reg.CSLOT.ANGLE_M (ofI (th % 4294967296))) .cslot k Reg.CSLOT.STAT 16 on
  (s1, num, if v < 0 then -1 else if v = 0 then 0 else 1, on)

/-- The correction that a sample applies (R239): none while compensation is off or the tables are being cleared (R246). -/
def csCorr (s : State) (k : Nat) (on : Bool) : List Int :=
  if on && !(s.page (pk .cslot k)).busy then (cslotOf s k).corr else [0, 0, 0, 0]

/-- The output phase of an accepted sample event; `fresh`: a commit has just applied (R225, R241). -/
def csOutput (s : State) (k t : Nat) (fresh : Bool) : State :=
  let x := cslotOf s k
  let dt := match x.last with
    | some l => s.lap t - l
    | none => 0
  -- the watchdog and the fallback
  let loopW := x.written % 16
  let fbIn := rf s .cslot k Reg.CSLOT.FB_CFG 1 2
  let s1 := if stOf s .cslot k == .update && loopW / 2 ^ fbIn % 2 == 1 then rideEnd s k t else s
  let (s2, fb) := if stOf s1 .cslot k == .update && decide ((cslotOf s1 k).rtFrom < s.lap t) then (let (a, o) := fbStep s1 k dt; (a, some o)) else (s1, none)
  let y0 := cslotOf s2 k
  let s3 := dogAct (setCslot s2 k (if loopW = 0 then { y0 with dog := y0.dog + 1, written := 0 }
    else { y0 with dog := 0, dogSaid := 0, written := 0 })) k t
  -- inputs
  let raws := (List.range 4).map (fun i => match fb with
    | some o => if i = fbIn then o else csRaw s3 k i
    | none => csRaw s3 k i)
  let r := (List.range 4).map (fun i =>
    csSlew (sext 24 (rg s3 .cslot k (Reg.CSLOT.IN_SLEW + 4 * i)).toNat) (x.rLim.getD i 0) (raws.getD i 0))
  let lag (i : Nat) : Int := raws.getD i 0 - r.getD i 0
  let s4 := (List.range 4).foldl (fun s i => wr s .cslot k (Reg.CSLOT.IN_LAG + 4 * i) (ofI (lag i))) s3
  let s5 := wf s4 .cslot k Reg.CSLOT.STAT 8 4 ((List.range 4).foldl (fun w i => if lag i ≠ 0 then w + 2 ^ i else w) 0)
  -- measured outputs
  let stale := csStale s5 k
  let s6 := if stale then setInt (wb s5 .cslot k Reg.CSLOT.STAT 13 true) .cslot k 1 else wb s5 .cslot k Reg.CSLOT.STAT 13 false
  let yr := (List.range 4).map (fun m => if m < csNY s6 k then csY s6 k m else 0)
  let (th, om) := csAngle s6 k t
  let yv := if csDq s6 k then
      let a := yr.getD 0 0
      let b := yr.getD 1 0
      let c := if rf s6 .cslot k (Reg.CSLOT.Y_SRC + 8) 0 2 = 0 then -a - b else yr.getD 2 0
      let (d, q) := dqForward a b c th
      [d, q, fq (a + b + c) 3, yr.getD 3 0]
    else yr
  let s7 := (List.range 4).foldl (fun s m => wr s .cslot k (Reg.CSLOT.Y_IN + 4 * m) (q23 (yv.getD m 0))) s6
  -- the repetitive master and the controls
  let (s7, num, sgn, on) := repSample s7 k t
  let (u, lim) := csControls s7 k (csCorr s7 k on) yv r
  let s8 := (List.range 4).foldl (fun s j => wr s .cslot k (Reg.CSLOT.U_OUT + 4 * j) (ofI (u.getD j 0))) s7
  let s9 := wf (if lim = 0 then s8 else setInt s8 .cslot k 2) .cslot k Reg.CSLOT.STAT 4 4 lim
  let s10 := csDeliver (wr s9 .cslot k Reg.CSLOT.ANGLE_E (ofN th)) k (csArrive s9 k t) u th om
  -- the update phase waits
  let z := cslotOf s10 k
  let w : CsWork := { y := yv, r := r, u := u, lim := lim, theta := num, sgn := sgn, repOn := on, ts := devTime t,
                      fresh := fresh, keep := rb s10 .cslot k Reg.CSLOT.CFG 0 }
  let s12 := setCslot s10 k { z with rLim := r, last := some (s.lap t), seen := csSeen s10, work := some w }
  ceEnqueue (incWrap s12 .cslot k Reg.CSLOT.SAMPLES) k

/-- A skipped sample event (R227). -/
def csSkip (s : State) (k : Nat) : State := setInt (incSat s .cslot k Reg.CSLOT.SKIP_CNT) .cslot k 0

/-! ## The update phase (R225, R235, R238, R239) -/

/-- P of each control from the state (R225 step 5). -/
def csP (s : State) (k : Nat) : List Int :=
  (List.range 4).map (fun j => csRow s k Reg.CSLOT.F 8 j (csNS s k) (fun r => csX s k r))

/-- ŷ of each measured output from the state (R225 step 5). -/
def csYhat (s : State) (k : Nat) : List Int :=
  (List.range 4).map (fun m =>
    csRnd (csShift s k Reg.CSLOT.SHIFT_Y m) (csRow s k Reg.CSLOT.CM 8 m (csNS s k) (fun r => csX s k r)))

/-- P and ŷ follow the state. -/
def csPredict (s : State) (k : Nat) : State := setCslot s k { cslotOf s k with p := csP s k, yhat := csYhat s k }

/-- x̂ takes X_INIT (R226, R241). -/
def csInit (s : State) (k : Nat) : State :=
  (List.range 8).foldl (fun s r => wr s .cslot k (Reg.CSLOT.XHAT + 4 * r)
    (if r < csNS s k then rg s .cslot k (Reg.CSLOT.X_INIT + 4 * r) else 0)) s

/-- START and RESET_STATE: the state and what step 5 computes from it (R226). -/
def csReset (s : State) (k : Nat) : State := csPredict (csInit s k) k

/-- The next state of a row (R225 step 4), before saturation. -/
def csNext (s : State) (k : Nat) (w : CsWork) (r : Nat) : Int :=
  csRnd (csShift s k Reg.CSLOT.SHIFT_X r) (csRow s k Reg.CSLOT.A 8 r (csNS s k) (fun c => csX s k c)
    + csRow s k Reg.CSLOT.B 4 r (csNU s k) (fun c => w.u.getD c 0) + csRow s k Reg.CSLOT.L 4 r (csNY s k) (fun c => w.y.getD c 0)
    + csRow s k Reg.CSLOT.G 4 r (csNI s k) (fun c => w.r.getD c 0))

/-- Plausibility (R235). -/
def csPlaus (s : State) (k : Nat) (res : List Int) : State :=
  let lim (m : Nat) : Int := sw (rg s .cslot k (Reg.CSLOT.PLAUS_LIM + 4 * m))
  let badM := (List.range (csNY s k)).find? (fun m => decide (lim m ≠ 0) && decide (lim m < (res.getD m 0).natAbs))
  match badM with
  | none => wr (setCslot s k { cslotOf s k with told := false }) .cslot k Reg.CSLOT.PLAUS_CNT 0
  | some _ => incSat s .cslot k Reg.CSLOT.PLAUS_CNT

/-- The count of implausible samples has reached PLAUS.CNT: the fault is raised, once for each run of them (R235). -/
def plausAct (s : State) (k : Nat) : State :=
  let cnt := rf s .cslot k Reg.CSLOT.PLAUS 0 8
  let lim (m : Nat) : Nat := (rg s .cslot k (Reg.CSLOT.PLAUS_LIM + 4 * m)).toNat
  if cslotLive s k && cnt != 0 && cnt ≤ (rg s .cslot k Reg.CSLOT.PLAUS_CNT).toNat && !(cslotOf s k).told then
    let m := ((List.range (csNY s k)).find? (fun m => decide (lim m ≠ 0) &&
      decide (lim m < (sw (rg s .cslot k (Reg.CSLOT.RESID + 4 * m))).natAbs))).getD 0
    let s0 := setCslot s k { cslotOf s k with told := true }
    let s1 := raise (setInt (wb s0 .cslot k Reg.CSLOT.STAT 15 true) .cslot k 4) 0x04 .cslot k 0 m
    if rb s1 .cslot k Reg.CSLOT.PLAUS 8 then cslotStop s1 k .fault else s1
  else s

/-- Learning of one channel at a sample (R238). -/
def repLearn1 (s : State) (k : Nat) (w : CsWork) (c : Nat) : State :=
  let ch := rg s .cslot k (Reg.CSLOT.REP_CH + 4 * c)
  let x := cslotOf s k
  if !rb s .cslot k Reg.CSLOT.STAT c || w.lim / 2 ^ fld ch 8 2 % 2 == 1 then s
  else
    let e := w.r.getD (fld ch 0 2) 0 - w.y.getD (fld ch 4 2) 0
    let g := sext 24 (rg s .cslot k (Reg.CSLOT.REP_GAIN + 4 * c)).toNat
    let f := sext 24 (rg s .cslot k (Reg.CSLOT.REP_FORGET + 4 * c)).toNat
    let b := (4096 * w.theta) / repDen s k
    let step (x : CslotSt) (b : Nat) (num den : Int) : CslotSt :=
      repPut x c b (fq (f * repBin x c b * den + g * e * num) (8388608 * den.toNat))
    if rb s .cslot k Reg.CSLOT.REP_CFG 4 then
      setCslot s k (step (step (step x (b + 4095) 1 4) b 1 2) (b + 1) 1 4)
    else setCslot s k (step x b 1 1)

/-- The correction of one control for the next sample (R239). -/
def repCorr (s : State) (k : Nat) (w : CsWork) (j : Nat) : Int :=
  let x := cslotOf s k
  let den := repDen s k
  let lead : Int := w.sgn * (rf s .cslot k Reg.CSLOT.REP_CFG 16 8 : Nat)
  let pos : Int := ((4096 * w.theta : Nat) : Int) + lead * den
  let b := (pos / (den : Int) % 4096).toNat
  let fr := pos % (den : Int)
  (repChans s k).foldl (fun a c =>
    if rf s .cslot k (Reg.CSLOT.REP_CH + 4 * c) 8 2 = j then
      let v := repBin x c b
      a + v + fq ((repBin x c (b + 1) - v) * fr) den
    else a) 0

/-- The update event of a slot's signals (R232). -/
def csEvent (kind : Nat) : UpdEv := if kind = 0 then .convEnd else if kind = 1 then .pwmEvent else .tick

/-- The update phase of the slot at the front of an engine's queue (R223, R225). -/
def csUpdate (s : State) (k : Nat) (w : CsWork) : State :=
  let x := cslotOf s k
  let s0 := setCslot s k { x with work := none }
  let s1 := if w.fresh && !w.keep then csInit s0 k
    else if w.fresh then (List.range 8).foldl (fun s r => if r < csNS s k then s else wr s .cslot k (Reg.CSLOT.XHAT + 4 * r) 0) s0
    else s0
  let res := (List.range 4).map (fun m => if m < csNY s1 k then w.y.getD m 0 - x.yhat.getD m 0 else 0)
  let s2 := (List.range 4).foldl (fun s m => wr s .cslot k (Reg.CSLOT.RESID + 4 * m) (satI32 (res.getD m 0))) s1
  let nx := (List.range (csNS s2 k)).map (fun r => csNext s2 k w r)
  let ovr := nx.any (fun v => v < -2147483648 || 2147483647 < v)
  let s3 := (List.range (csNS s2 k)).foldl (fun s r => wr s .cslot k (Reg.CSLOT.XHAT + 4 * r) (satI32 (nx.getD r 0))) s2
  let s4 := if ovr then setInt (wb s3 .cslot k Reg.CSLOT.STAT 14 true) .cslot k 3 else s3
  let s5 := csPlaus (csPredict s4 k) k res
  let clearing := (s5.page (pk .cslot k)).busy
  let s6 := if w.repOn && !clearing then (List.range 4).foldl (fun s c => repLearn1 s k w c) s5 else s5
  let corr := (List.range 4).map (fun j => if w.repOn && !clearing then repCorr s6 k w j else 0)
  let s7 := setCslot s6 k { cslotOf s6 k with corr := corr }
  let s8 := pubAllAt s7 .cslot k (csEvent (rf s7 .cslot k Reg.CSLOT.TRIG 0 2)) w.ts
  plausAct s8 k

/-- A memory error of a control engine (R245, R248, Table 8-7). -/
def ceError (s : State) (e k : Nat) (x : CsErr) : State :=
  if !x.ue then setInt (incSat s .ce e Reg.CE.CE_CNT) .ce e 0
  else
    let s1 := wr s .ce e Reg.CE.UE_ADDR (ofN (k % 8 + 16 * x.area.val + 256 * x.word.val))
    let s2 := setInt s1 .ce e 1
    let ks := (List.range 8).map (fun i => 8 * e + i)
    if x.area.val = 3 then
      let g := ks.foldl (fun w k => w ||| groupsOf s2 .cslot k) (0 : Word)
      let s3 := ks.foldl (fun s k => if stOf s .cslot k == .off then s else cslotStop s k .fault) s2
      raiseG (setSt s3 .ce e .fault) 0x0A .ce e 0 (4096 + e) g
    else raiseG (cslotStop s2 k .fault) 0x0A .ce e 0 (4096 + e) (groupsOf s2 .cslot k)

/-- The matrix unit of an engine is free and serves the next update phase. -/
def ceServe (s : State) (e : Nat) (err : Option CsErr) : State :=
  match ceQueue s e with
  | k :: q =>
    let s1 := { s with ceQ := SMap.set (fun _ => []) s.ceQ e q }
    let s2 := match err with
      | some x => ceError s1 e k x
      | none => s1
    match (cslotOf s2 k).work with
    | some w => if cslotLive s2 k then csUpdate s2 k w else s2
    | none => s2
  | [] => s

/-- RT_MAX has passed in the fallback (R244). -/
def rtExpire (s : State) (k t : Nat) : State :=
  let x := cslotOf s k
  if stOf s .cslot k == .update && !x.expired && x.rtFrom + 8000000 * (rg s .cslot k Reg.CSLOT.RT_MAX).toNat ≤ s.lap t then
    raise (setInt (setCslot s k { x with expired := true }) .cslot k 7) 0x06 .cslot k 0 0
  else s

/-! ## The table window (R240) -/

/-- The bin that REP_IDX selects, and REP_IDX after an access. -/
def repSel (s : State) (k : Nat) : Nat × Nat := let r := rg s .cslot k Reg.CSLOT.REP_IDX; (fld r 12 2, fld r 0 12)

/-- The bin advances with AINC. -/
def repStep (s : State) (k : Nat) : State :=
  if rb s .cslot k Reg.CSLOT.REP_IDX 15 then wf s .cslot k Reg.CSLOT.REP_IDX 0 12 ((repSel s k).2 + 1) else s

/-- REP_DATA as it reads. -/
def repRead (s : State) (k : Nat) : Word := let (c, b) := repSel s k; ofI (repBin (cslotOf s k) c b)

/-- An access of REP_DATA: a read, or a write of a value. -/
def repAccess (s : State) (k : Nat) (v : Option Word) : State :=
  let (c, b) := repSel s k
  match v with
  | none => repStep (wr s .cslot k Reg.CSLOT.REP_DATA (repRead s k)) k
  | some w =>
    if rb s .cslot k Reg.CSLOT.STAT c then repStep (rejWr s .cslot k .conflict Reg.CSLOT.REP_DATA) k
    else repStep (setCslot s k (repPut (cslotOf s k) c b (sext 24 w.toNat))) k

/-! ## Commands, commits and states (R241, R245 to R248) -/

/-- What a control slot says of its commands (R246). -/
def cslotRule (s : State) (k code : Nat) : Option CmdRule :=
  let live := cslotLive s k
  match code with
  | 0x01 => some ⟨false, false, firstOf [(!inSt s .cslot k [.idle] || stOf s .ce (k / 8) != .run || blocked s .cslot k, .wrongState)]⟩
  | 0x02 => some ⟨true, true, firstOf [(!inSt s .cslot k [.run, .update, .safe], .wrongState)]⟩
  | 0x05 => some ⟨false, false, none⟩
  | 0x06 => some ⟨false, true, firstOf [(!inSt s .cslot k [.fault] || stOf s .ce (k / 8) == .fault, .wrongState)]⟩
  | 0x07 => some ⟨false, false, firstOf [(!(s.page (pk .cslot k)).busy, .wrongState)]⟩
  | 0x10 => some ⟨false, false, firstOf [(!live || (repChans s k).isEmpty, .wrongState)]⟩
  | 0x11 => some ⟨false, false, firstOf [(inSt s .cslot k [.off], .wrongState)]⟩
  | 0x12 => some ⟨false, true, firstOf [(inSt s .cslot k [.off], .wrongState)]⟩
  | 0x13 => some ⟨true, false, firstOf [(!inSt s .cslot k [.run] || !rb s .cslot k Reg.CSLOT.FB_CFG 0, .wrongState)]⟩
  | 0x14 => some ⟨false, false, firstOf [(!inSt s .cslot k [.run, .update, .idle], .wrongState)]⟩
  | _ => none

/-- The effect of a control slot's command. -/
def cslotAct (s : State) (k code : Nat) : State :=
  match code with
  | 0x01 =>
    let s1 := csReset (setSt s .cslot k .run) k
    let x := cslotOf s1 k
    let s2 := setCslot s1 k { x with last := none, seen := csSeen s1, dog := 0, dogSaid := 0, written := 0, corr := [0, 0, 0, 0], work := none
                                     rLim := [0, 0, 0, 0], told := false, ticks := 0, trg := none }
    let s3 := wr (wr (wr s2 .cslot k Reg.CSLOT.SAMPLES 0) .cslot k Reg.CSLOT.SKIP_CNT 0) .cslot k Reg.CSLOT.PLAUS_CNT 0
    ceSync (wb (wb s3 .cslot k Reg.CSLOT.STAT 14 false) .cslot k Reg.CSLOT.STAT 15 false) (k / 8)
  | 0x02 => cslotHalt s k .idle
  | 0x06 => wb (setSt s .cslot k .idle) .cslot k Reg.CSLOT.STAT 15 false
  | 0x07 =>
    let x := cslotOf s k
    opFail (setCslot s k { x with tab := x.tab.filter (fun e => !Config.binCleared s.seed e.1) }).next .cslot k .wrongState 0x010
  | 0x10 => wf s .cslot k Reg.CSLOT.STAT 0 4 (rf s .cslot k Reg.CSLOT.STAT 0 4 ||| rf s .cslot k Reg.CSLOT.REP_CFG 0 4)
  | 0x11 => wf s .cslot k Reg.CSLOT.STAT 0 4 0
  | 0x12 => opStart (setCslot s k { cslotOf s k with corr := [0, 0, 0, 0] }) .cslot k 1 1 0
  | 0x13 => rideStart s k s.now
  | 0x14 => csReset s k
  | _ => s

/-- The table clear ends (R246). -/
def repClearDone (s : State) (k : Nat) : State :=
  if (s.page (pk .cslot k)).busy then opDone (setCslot s k { cslotOf s k with tab := [] }) .cslot k else s

/-- CE.BUDGET and the COST of every slot of an engine follow the active sets (Table 8-7). -/
def ceBudget (s : State) (e : Nat) : State :=
  let ks := (List.range 8).map (fun i => 8 * e + i)
  let s1 := ks.foldl (fun s k => wr s .cslot k Reg.CSLOT.COST (ofN (csCost (rg s .cslot k)))) s
  let on := ks.filter (fun k => (s1.page (pk .cslot k)).en)
  let used := on.foldl (fun a k => a + csCost (rg s1 .cslot k)) 0
  let lim := on.foldl (fun m k => min m ((rf s1 .cslot k Reg.CSLOT.TMIN 0 24) - 24)) 65535
  wr s1 .ce e Reg.CE.BUDGET (ofN (used % 65536 + 65536 * (lim % 65536)))

/-- The tests of a staged set that name no other page (R224, R227, R247). -/
def cslotRanges (s : State) (k : Nat) : List (Bool × Nat × ErrCode) :=
  let w (o : Nat) : Word := staged s .cslot k o
  let d := w Reg.CSLOT.DIMS
  let tmin := fld (w Reg.CSLOT.TMIN) 0 24
  let el := fld (w Reg.CSLOT.ELEC)
  let big (o : Nat) : Bool × Nat × ErrCode := (decide (0x7FFFFF < (w o).toNat), o, .range)
  let coef (o : Nat) : Bool × Nat × ErrCode := (decide (ofI (sext 24 (w o).toNat) ≠ w o), o, .range)
  let reg4 (b : Nat) (f : Nat → Bool × Nat × ErrCode) : List (Bool × Nat × ErrCode) := (List.range 4).map (fun i => f (b + 4 * i))
  let plausOn := (List.range 4).any (fun m => w (Reg.CSLOT.PLAUS_LIM + 4 * m) != 0)
  [(decide (8 < fld d 0 4) || decide (4 < fld d 4 3) || decide (4 < fld d 8 3) || decide (4 < fld d 12 3) || fld d 12 3 == 0,
      Reg.CSLOT.DIMS, .range),
   (fld (w Reg.CSLOT.TRIG) 0 2 == 3 || fld (w Reg.CSLOT.TRIG) 9 2 == 3 || (fld (w Reg.CSLOT.TRIG) 0 2 == 0 &&
      decide (95 < fld (w Reg.CSLOT.TRIG) 2 7)) || (fld (w Reg.CSLOT.TRIG) 0 2 == 1 && decide (31 < fld (w Reg.CSLOT.TRIG) 2 7)),
      Reg.CSLOT.TRIG, .range),
   (decide (tmin < 4000) || (fld (w Reg.CSLOT.TRIG) 0 2 == 2 && decide (6250 * (fld (w Reg.CSLOT.TRIG) 12 4 + 1) < tmin)),
      Reg.CSLOT.TMIN, .range),
   (fld (w Reg.CSLOT.ANGLE) 0 2 == 3, Reg.CSLOT.ANGLE, .range),
   (el 0 24 == 0 || el 24 7 == 0 || decide (64 < el 24 7), Reg.CSLOT.ELEC, .range),
   (plausOn && fld (w Reg.CSLOT.PLAUS) 0 8 == 0, Reg.CSLOT.PLAUS, .range),
   (w Reg.CSLOT.REP_CPR == 0, Reg.CSLOT.REP_CPR, .range),
   (w Reg.CSLOT.FB_VSCALE == 0 || decide (0x7FFFFFFF < (w Reg.CSLOT.FB_VSCALE).toNat), Reg.CSLOT.FB_VSCALE, .range),
   (w Reg.CSLOT.RT_MAX == 0 || decide (500 < (w Reg.CSLOT.RT_MAX).toNat), Reg.CSLOT.RT_MAX, .range)] ++
  reg4 Reg.CSLOT.IN_SRC (fun o => (fld (w o) 0 2 == 3, o, .range)) ++
  reg4 Reg.CSLOT.IN_SLEW big ++
  reg4 Reg.CSLOT.Y_SRC (fun o => (fld (w o) 0 2 == 3 || decide (95 < fld (w o) 2 7), o, .range)) ++
  reg4 Reg.CSLOT.PLAUS_LIM big ++
  reg4 Reg.CSLOT.U_MAP (fun o => (decide (1 < fld (w o) 0 2) || fld (w o) 8 2 == 3, o, .range)) ++
  reg4 Reg.CSLOT.U_LIM big ++ reg4 Reg.CSLOT.REP_GAIN big ++ reg4 Reg.CSLOT.REP_FORGET big ++
  (List.range 256).map (fun i => coef (0x200 + 4 * i))

/-- Whether a pair is mapped by another slot (R230). -/
def pairHeld (s : State) (k m p : Nat) : Bool :=
  (insts .cslot).any (fun j => j != k && (csPairs (rg s .cslot j)).any (fun e => e.2 == (m, p)))

/-- The CONFLICT, WRONG_STATE, BUDGET and NOT_PRESENT tests of a staged set (R229 to R247). DEDUCED (log entry 180): an index of 0 in a channel
that is not enabled names nothing, so that a set without inputs or measured outputs, which R224 allows, is accepted. -/
def cslotConflicts (s : State) (k : Nat) : List (Bool × Nat × ErrCode) :=
  let w (o : Nat) : Word := staged s .cslot k o
  let f (o lo len : Nat) : Nat := fld (w o) lo len
  let d := w Reg.CSLOT.DIMS
  let dq := bit (w Reg.CSLOT.CFG) 1
  let um0 := w Reg.CSLOT.U_MAP
  let run := stOf s .cslot k == .run
  let learning := rf s .cslot k Reg.CSLOT.STAT 0 4 != 0
  let kind := f Reg.CSLOT.TRIG 0 2
  let bad := s.sigs.any (fun x => x.2.en && x.2.from .cslot k && x.2.upd != (csEvent kind).num)
  let typ (id : Nat) : Nat := (sigEnt s id).typ
  let ks := (List.range 8).map (fun i => 8 * (k / 8) + i)
  let others := ks.filter (fun j => j != k && (s.page (pk .cslot j)).en)
  let on := (s.page (pk .cslot k)).en
  let used := others.foldl (fun a j => a + csCost (rg s .cslot j)) (if on then csCost w else 0)
  let tmins := others.map (fun j => rf s .cslot j Reg.CSLOT.TMIN 0 24) ++ (if on then [f Reg.CSLOT.TMIN 0 24] else [])
  let src := f Reg.CSLOT.REP_CFG 5 2
  let ri := f Reg.CSLOT.REP_CFG 8 7
  let fba := f Reg.CSLOT.FB_CFG 8 7
  let fb := bit (w Reg.CSLOT.FB_CFG) 0
  let beyond (i v n : Nat) : Bool := decide (n ≤ v) && (v != 0 || bit (w Reg.CSLOT.REP_CFG) i)
  [(dq && (fld d 8 3 != 3 || decide (fld d 12 3 < 2) || fld um0 0 2 != 1), Reg.CSLOT.CFG, .conflict),
   (run && dq != csDq s k, Reg.CSLOT.CFG, .wrongState),
   (bad, Reg.CSLOT.TRIG, .conflict),
   (run && changed s .cslot k Reg.CSLOT.TRIG, Reg.CSLOT.TRIG, .wrongState),
   ((kind == 0 && !powered s .fch (f Reg.CSLOT.TRIG 2 7)) || (kind == 1 && !powered s .pwm (f Reg.CSLOT.TRIG 2 7)),
      Reg.CSLOT.TRIG, .notPresent),
   (tmins.any (fun t => decide (t - 24 < used)), Reg.CSLOT.TMIN, .budget),
   (f Reg.CSLOT.ANGLE 0 2 == 2 && f Reg.CSLOT.ANGLE 16 16 != 0 && typ (f Reg.CSLOT.ANGLE 16 16) != 1, Reg.CSLOT.ANGLE, .conflict),
   (f Reg.CSLOT.ANGLE 0 2 == 1 && !powered s .enc (f Reg.CSLOT.ANGLE 2 6), Reg.CSLOT.ANGLE, .notPresent),
   (learning && (src != rf s .cslot k Reg.CSLOT.REP_CFG 5 2 || ri != rf s .cslot k Reg.CSLOT.REP_CFG 8 7),
      Reg.CSLOT.REP_CFG, .wrongState),
   (learning && changed s .cslot k Reg.CSLOT.REP_CPR, Reg.CSLOT.REP_CPR, .wrongState),
   ((src == 1 || src == 2 || src == 3) && !powered s .enc 0, Reg.CSLOT.REP_CFG, .notPresent),
   ((src == 1 && decide (63 < ri)) || (src == 3 && decide (15 < ri)), Reg.CSLOT.REP_CFG, .range),
   (fb && fld (rg s .axis fba Reg.AXIS.CFG) 0 2 == 0, Reg.CSLOT.FB_CFG, .conflict),
   (fb && !powered s .axis fba, Reg.CSLOT.FB_CFG, .notPresent)] ++
  (List.range 4).flatMap (fun i =>
    let y := w (Reg.CSLOT.Y_SRC + 4 * i)
    let c := w (Reg.CSLOT.REP_CH + 4 * i)
    let pairs := (csPairs w).filter (fun e => e.1 == i)
    [(fld y 0 2 == 2 && fld y 16 16 != 0 && typ (fld y 16 16) != 0, Reg.CSLOT.Y_SRC + 4 * i, .conflict),
     (run && fld y 0 2 != rf s .cslot k (Reg.CSLOT.Y_SRC + 4 * i) 0 2, Reg.CSLOT.Y_SRC + 4 * i, .wrongState),
     (fld y 0 2 == 1 && !powered s .fch (fld y 2 7), Reg.CSLOT.Y_SRC + 4 * i, .notPresent),
     (pairs.any (fun e => pairHeld s k e.2.1 e.2.2), Reg.CSLOT.U_MAP + 4 * i, .conflict),
     (run && changed s .cslot k (Reg.CSLOT.U_MAP + 4 * i), Reg.CSLOT.U_MAP + 4 * i, .wrongState),
     (pairs.any (fun e => !powered s .pwm e.2.1), Reg.CSLOT.U_MAP + 4 * i, .notPresent),
     (beyond i (fld c 0 2) (fld d 4 3) || beyond i (fld c 4 2) (fld d 8 3) || beyond i (fld c 8 2) (fld d 12 3), Reg.CSLOT.REP_CH + 4 * i,
        .conflict)])

/-- The tests of a staged set. -/
def cslotValidate (s : State) (k : Nat) : List (Bool × Nat × ErrCode) := cslotRanges s k ++ cslotConflicts s k

/-- After a commit outside a sample event the state's P and ŷ stay; COST and BUDGET follow. -/
def cslotCommitted (s : State) (k : Nat) : State := ceBudget s (k / 8)

/-- What a `CE` page says of its commands (R248). -/
def ceRule (s : State) (e code : Nat) : Option CmdRule :=
  match code with
  | 0x05 => some ⟨false, true, none⟩
  | 0x06 => some ⟨false, true, firstOf [(!inSt s .ce e [.fault], .wrongState)]⟩
  | _ => none

/-- An engine in RUN has its enabled slots in IDLE. -/
def ceOn (s : State) (e : Nat) : State :=
  let ks := (List.range 8).map (fun i => 8 * e + i)
  ceBudget (ceSync (ks.foldl (fun s k =>
    if (s.page (pk .cslot k)).en && (inSt s .cslot k [.off, .fault]) then setSt s .cslot k .idle else s)
    (wf (setSt s .ce e .run) .ce e Reg.CE.STAT 24 8 (Config.ucodeRev e).toNat)) e) e

/-- The effect of a `CE` command: CLEAR_FAULT reloads the microcode. -/
def ceAct (s : State) (e code : Nat) : State :=
  match code with
  | 0x06 => ceOn s e
  | _ => s

/-- An engine finishes loading its microcode and enters RUN (R248). -/
def ceLoaded (s : State) (e : Nat) : State :=
  if powered s .ce e && (s.page (pk .ce e)).en && stOf s .ce e == .off then ceOn s e else s

/-- An engine is switched off: its slots are OFF (Table 8-5). -/
def ceDisabled (s : State) (e : Nat) : State :=
  ((List.range 8).map (fun i => 8 * e + i)).foldl (fun s k => if stOf s .cslot k == .off then s else safeAll (cslotHalt s k .off) .cslot k) s

/-- A slot is switched on: IDLE while its engine runs. -/
def cslotEnabled (s : State) (k : Nat) : State :=
  ceBudget (if stOf s .ce (k / 8) == .run then s else setSt s .cslot k .off) (k / 8)

/-- A slot is switched off; the budget of its engine no longer counts it (R233). -/
def cslotDisabled (s : State) (k : Nat) : State :=
  ceBudget ((cslotHalt s k .off).modPage (pk .cslot k) (fun p => { p with en := false })) (k / 8)

/-! ## Sample events (R227) -/

/-- A base tick counts towards the sample event of a slot in RUN or UPDATE whose trigger is TICK. -/
def cslotTick (s : State) (k t : Nat) : State :=
  let tr := rg s .cslot k Reg.CSLOT.TRIG
  if cslotLive s k && fld tr 0 2 == 2 then
    let x := cslotOf s k
    setCslot s k (if fld tr 12 4 ≤ x.ticks then { x with ticks := 0, trg := some t } else { x with ticks := x.ticks + 1, trg := none })
  else s

/-- Whether a module has the event or events that TRIG.EVT names at a time; in up-count mode both events are one (R251). -/
def pwmEvtAt (s : State) (n ev t : Nat) : Bool :=
  let x := pwmOf s n
  let mid := if rb s .pwm n Reg.PWM.CFG 0 then x.mid == some t else x.zero == t
  x.run && ((ev != 1 && x.zero == t) || (ev != 0 && mid))

/-- Whether the sample event that TRIG selects falls at a time and has not been taken: the conversion end of a channel, an event of a
module, or a counted base tick. -/
def csTriggered (s : State) (k t : Nat) : Bool :=
  let tr := rg s .cslot k Reg.CSLOT.TRIG
  let x := cslotOf s k
  x.took != some t && match fld tr 0 2 with
    | 0 => (fchOf s (fld tr 2 7)).endAt == some (s.lap t)
    | 1 => pwmEvtAt s (fld tr 2 7) (fld tr 9 2) t
    | _ => x.trg == some t

/-- The event is taken. -/
def csTake (s : State) (k t : Nat) : State := setCslot s k { cslotOf s k with trg := none, took := some t }

end Sys2Proof.Machine
end

