-- ==== Sys2Proof/Machine/Psp.lean ====
section
/-! DEFINITION. The peripheral serial ports (R442 to R444): triggers, frames, the SMART check and the safe frame. -/
namespace Sys2Proof.Machine

/-- Fields of CFG. -/
def pspSmart (s : State) (n : Nat) : Bool := rb s .psp n Reg.PSP.CFG 0
def pspWidth (s : State) (n : Nat) : Nat := rf s .psp n Reg.PSP.CFG 3 5
def pspWords (s : State) (n : Nat) : Nat := rf s .psp n Reg.PSP.CFG 8 7
def pspTrig (s : State) (n : Nat) : Nat := rf s .psp n Reg.PSP.CFG 18 2

/-- WIDTH as the spec codes it: 8 to 32 in five bits, 32 as 0. -/
def widthOf (f : Nat) : Nat := if f = 0 then 32 else f

/-- The bits of a word of `w` bits, most significant first. -/
def msbFirst (w v : Nat) : List Bool := (List.range w).map (fun i => v / 2 ^ (w - 1 - i) % 2 == 1)

/-- One bit into the CRC-16/CCITT-FALSE register. -/
def crc16Step (c : Nat) (b : Bool) : Nat :=
  let x := Nat.xor c (if b then 0x8000 else 0)
  crc16Bit x

/-- CRC-16/CCITT-FALSE over words of `w` bits as they are shifted. -/
def wordCrc (w : Nat) (l : List Word) : Nat := (l.flatMap (fun v => msbFirst w v.toNat)).foldl crc16Step 0xFFFF

/-- The word a TX register sends (R443); of a 48.16 signal the spec names no bits, so a free word. -/
def txWord (s : State) (w : Nat) (v : Word) : Word :=
  if bit v 31 then
    let x := sigLo s (fld v 0 16)
    match (sigEnt s (fld v 0 16)).typ with
    | 0 => ofN (if w ≤ 24 then fld x 0 24 / 2 ^ (24 - w) else fld x 0 24 * 2 ^ (w - 24))
    | 1 => ofN (x.toNat % 2 ^ w)
    | 2 => ofN ((Config.free32 s.seed).toNat % 2 ^ w)
    | _ => x &&& 1
  else ofN (fld v 0 31 % 2 ^ w)

/-- The words of a frame from an array, and the CRC of a SMART frame. -/
def pspFrame (s : State) (n off : Nat) : List Word :=
  let w := widthOf (pspWidth s n)
  let l := (List.range (pspWords s n)).map (fun i => txWord s w (rg s .psp n (off + 4 * i)))
  if pspSmart s n then l ++ [ofN (wordCrc w l)] else l

/-- The steps a frame takes: a bit takes CLKDIV + 1 periods of 10 ns. -/
def pspLen (s : State) (n : Nat) : Nat :=
  (pspWords s n * widthOf (pspWidth s n) + (if pspSmart s n then 16 else 0)) * 80 * (rf s .psp n Reg.PSP.CLKDIV 0 8 + 1)

/-- A trigger starts a frame, or is skipped while one runs (R442). -/
def pspStart (s : State) (n : Nat) : State :=
  let x := pspOf s n
  if stOf s .psp n != .run then s
  else if x.trig then setInt (incSat s .psp n Reg.PSP.SKIP_CNT) .psp n 2
  else
    let y : PspSt := { x with trig := true, sending := x.safe, until_ := s.lap s.now + pspLen s n,
                              tx := pspFrame s n (if x.safe then Reg.PSP.SAFE_TX else Reg.PSP.TX) }
    setPsp s.next n y

/-- A base tick of a port that is triggered by ticks. -/
def pspTick (s : State) (n : Nat) : State :=
  if stOf s .psp n == .run && pspTrig s n == 1 then
    let k := (pspOf s n).ticks + 1
    let d := rf s .psp n Reg.PSP.TRIG_SRC 0 8 + 1
    let s1 := setPsp s n { pspOf s n with ticks := k % d }
    if k % d = 0 then pspStart s1 n else s1
  else s

/-- Trigger output `k` of PWM module `m` fires: the ports it triggers. -/
def pspPwm (s : State) (m k : Nat) : State :=
  (insts .psp).foldl (fun s n =>
    if pspTrig s n == 2 && rf s .psp n Reg.PSP.TRIG_SRC 8 5 == m && rf s .psp n Reg.PSP.TRIG_SRC 13 2 == k then pspStart s n else s) s

/-- A received word of `w` bits left-aligned in 24 bits, as a Q1.23 entry takes it. -/
def rxQ23 (w : Nat) (v : Word) : BitVec 64 :=
  let u := v.toNat % 2 ^ w
  sx64 (ofI (sext 24 (if w ≤ 24 then u * 2 ^ (24 - w) else u / 2 ^ (w - 24))))

/-- The signals of the received words are published (R443). -/
def pspPublish (s : State) (n w : Nat) : State :=
  s.sigs.foldl (fun s (e : Nat × SigEntry) =>
    if e.2.en && e.2.from .psp n && e.2.upd == UpdEv.frame.num then
      publish s e.1 (if e.2.typ = 0 then rxQ23 w (rg s .psp n (4 * e.2.word)) else sigSource s e.2) (devTime s.now)
    else s) s

/-- Whether a port holds its frame boundary back: only while a frame is in transfer (Table 2-1). -/
def pspBusy (s : State) (n : Nat) : Bool := stOf s .psp n == .run && (pspOf s n).trig

/-- A frame ends with the words received and, of a SMART frame, the CRC received (R443, R444). -/
def pspEnd (s0 : State) (n t : Nat) (rx : List Word) (crc : Nat) : State :=
  let s := s0.at t
  let x := pspOf s n
  if pspBusy s n && decide (x.until_ ≤ s.lap t) then
    let w := widthOf (pspWidth s n)
    let ws := (rx.take (pspWords s n)).map (fun v => ofI (sext w v.toNat))
    let s1 := (ws.zipIdx).foldl (fun s (e : Word × Nat) => wr s .psp n (Reg.PSP.RX + 4 * e.2) e.1) s
    let s2 := setInt (incWrap s1 .psp n Reg.PSP.FRAME_CNT) .psp n 0
    let good := !pspSmart s n || wordCrc w (rx.take (pspWords s n)) == crc
    let y : PspSt := { x with trig := false, sending := false, bad := if good then 0 else x.bad + 1 }
    let s3 := setPsp (if good then pspPublish s2 n w else setInt (incSat s2 .psp n Reg.PSP.ERR_CNT) .psp n 1) n y
    if x.sending then safeAll (setSt (setPsp s3 n { y with safe := false }) .psp n .safe) .psp n
    else if rf s .psp n Reg.PSP.ERR_LIMIT 0 8 ≤ y.bad && !good then safeAll (setSt s3 .psp n .fault) .psp n
    else s3
  else s

/-! ## Commands and commits (R450) -/

/-- What a PSP page says of its commands. -/
def pspRule (s : State) (n code : Nat) : Option CmdRule :=
  let st := stOf s .psp n
  match code with
  | 0x01 => some ⟨false, false, firstOf [(st != .idle || blocked s .psp n, .wrongState), (!padsAre s 1 (padsOf .psp n), .conflict)]⟩
  | 0x02 => some ⟨true, false, firstOf [(!inSt s .psp n [.run, .safe], .wrongState)]⟩
  | 0x05 => some ⟨false, true, none⟩
  | 0x06 => some ⟨false, true, firstOf [(st != .fault, .wrongState)]⟩
  | 0x10 => some ⟨false, true, firstOf [(st != .run || pspTrig s n != 0, .wrongState)]⟩
  | _ => none

/-- The effect of a PSP command. -/
def pspAct (s : State) (n code : Nat) : State :=
  match code with
  | 0x01 => wr (wr (setPsp (setSt s .psp n .run) n .reset) .psp n Reg.PSP.ERR_CNT 0) .psp n Reg.PSP.SKIP_CNT 0
  | 0x02 => setPsp (setSt s .psp n .idle) n .reset
  | 0x06 => setPsp (setSt s .psp n .idle) n .reset
  | 0x10 => pspStart s n
  | _ => s

/-- The tests of a staged PSP set. -/
def pspValidate (s : State) (n : Nat) : List (Bool × Nat × ErrCode) :=
  let w := widthOf (stf s .psp n Reg.PSP.CFG 3 5)
  let k := stf s .psp n Reg.PSP.CFG 8 7
  [(w < 8 || k == 0 || 64 < k || stf s .psp n Reg.PSP.CFG 18 2 == 3, Reg.PSP.CFG, .range),
   (stOf s .psp n == .run && (w != widthOf (pspWidth s n) || k != pspWords s n || stf s .psp n Reg.PSP.CFG 0 1 != rf s .psp n Reg.PSP.CFG 0 1),
     Reg.PSP.CFG, .wrongState),
   (stf s .psp n Reg.PSP.CLKDIV 0 8 == 0, Reg.PSP.CLKDIV, .range),
   (stf s .psp n Reg.PSP.ERR_LIMIT 0 8 == 0, Reg.PSP.ERR_LIMIT, .range)]

/-- EN=0: the port stops. -/
def pspDisabled (s : State) (n : Nat) : State := setPsp (setSt s .psp n .off) n .reset

end Sys2Proof.Machine
end

