-- ==== Sys2Proof/Machine/Pwm.lean ====
section
/-! DEFINITION. PWM modules and the fault inputs (R250 to R275): events, loads, short pulses, outputs, triggers, FIN. -/
namespace Sys2Proof.Machine

/-! ## Counter and period (R251, R261) -/

/-- The module whose PERIOD sets T for a module: the end of its chain of masters (R261). -/
def pwmEndN (s : State) : Nat → Nat → Nat
  | 0, n => n
  | k + 1, n => if rf s .pwm n Reg.PWM.CFG 8 2 = 2 then pwmEndN s k (rf s .pwm n Reg.PWM.CFG 10 5) else n

/-- The same, over a chain of any length. -/
def pwmEnd (s : State) (n : Nat) : Nat := pwmEndN s 32 n

/-- Whether a module's counter runs. -/
def pwmCounts (s : State) (n : Nat) : Bool :=
  (pwmOf s n).run && !s.pwmClkLost && inSt s .pwm n [.run, .hold, .safe, .fault]

/-- CFG.SYNC (0 FREE, 1 TICK, 2 MODULE), SYNC_SRC and PHASE_OFS of a module. -/
def pwmMode (s : State) (n : Nat) : Nat := rf s .pwm n Reg.PWM.CFG 8 2
def pwmSrc (s : State) (n : Nat) : Nat := rf s .pwm n Reg.PWM.CFG 10 5
def pwmOfs (s : State) (n : Nat) : Nat := rf s .pwm n Reg.PWM.PHASE_OFS 0 24

/-- T at an event: in SYNC MODULE the T in use in the master while it counts, else the last T (R261). -/
def pwmT (s : State) (n : Nat) : Nat :=
  if pwmMode s n = 2 then
    let m := pwmOf s (pwmSrc s n)
    let x := pwmOf s n
    if pwmCounts s (pwmSrc s n) && m.per != 0 then m.per else if x.per = 0 then rf s .pwm n Reg.PWM.PERIOD 0 24 else x.per
  else rf s .pwm n Reg.PWM.PERIOD 0 24

/-- A number as a deviation around 0 modulo T. -/
def centred (v : Int) (t : Nat) : Int :=
  if t = 0 then 0 else let r := v % (t : Int); if (t : Int) < 2 * r then r - t else r

/-- How far a time lies after the nearest point of the grid: the tick edges plus PHASE_OFS plus whole multiples of T (R261). -/
def gridDev (s : State) (n t per : Nat) : Int := centred ((t : Int) - pwmOfs s n - s.tickAt) (Nat.gcd 62500 per)

/-- The first point of the grid at or after a tick (R261). -/
def gridFirst (s : State) (n t : Nat) : Nat := t + pwmOfs s n % max (Nat.gcd 62500 (pwmT s n)) 1

/-- When the next zero event of a module falls (R251, R261): T after the last one; on the ticks' grid one step nearer to it; behind a
master that counts, at its zero events plus PHASE_OFS modulo T. None before the period event of an up-down period, or while the
master's next zero event is awaited. -/
def pwmNextZero (s : State) (n : Nat) : Option Nat :=
  let x := pwmOf s n
  let m := pwmOf s (pwmSrc s n)
  let mode := pwmMode s n
  if !x.run then
    if mode = 1 then some x.anchor
    else if mode = 2 && pwmCounts s (pwmSrc s n) && decide (x.anchor < m.zero) then some (m.zero + pwmOfs s n % max m.per 1)
    else none
  else if pwmUpDown s n && x.mid.isNone then none
  else if mode = 2 && pwmCounts s (pwmSrc s n) then
    let r := (((m.zero : Int) + pwmOfs s n - x.zero) % (max x.per 1 : Nat)).toNat
    some (x.zero + (if 2 * r ≤ x.per then r + x.per else r))
  else
    let base := match x.mid with
      | some h => if pwmUpDown s n then h + x.per / 2 else x.zero + x.per
      | none => x.zero + x.per
    let dev := if mode = 1 then sext 32 (rg s .pwm n Reg.PWM.SYNC_DEV).toNat else 0
    some (if 0 < dev then base - 1 else if dev < 0 then base + 1 else base)

/-- A fraction as an on-time (R253). -/
def fracD (f t : Nat) : Nat := if f = 0xFFFF then t else (f * t + 32768) / 65536

/-! ## Short pulses (R257, R258) -/

/-- What a period delivers: the on-time, the accumulators, and whether it was handled as short. -/
structure Deliv where
  d : Nat
  qh : Nat
  ql : Nat
  short : Bool
  deriving DecidableEq, Repr

/-- The handling of one classified period (Table 9-2, R258); `h` and `l` are DT_H + MINP and DT_L + MINP. -/
def deliver (mode t h l d qh ql : Nat) : Deliv :=
  if 0 < d ∧ d < h then
    match mode with
    | 0 => ⟨0, qh, ql, true⟩
    | 1 => ⟨h, qh, ql, true⟩
    | _ => if h ≤ qh + d then ⟨qh + d, 0, ql, true⟩ else ⟨0, qh + d, ql, true⟩
  else if d < t ∧ t - d < l then
    match mode with
    | 0 => ⟨t, qh, ql, true⟩
    | 1 => ⟨t - l, qh, ql, true⟩
    | _ => if l ≤ ql + (t - d) then ⟨t - (ql + (t - d)), qh, 0, true⟩ else ⟨t, qh, ql + (t - d), true⟩
  else if mode < 2 then ⟨d, qh, ql, false⟩
  else
    let (d1, qh1) := if 0 < qh ∧ d + qh + l ≤ t then (d + qh, 0) else (d, qh)
    let (d2, ql1) := if 0 < ql ∧ ql + h ≤ d1 then (d1 - ql, 0) else (d1, ql)
    ⟨d2, qh1, ql1, false⟩

/-! ## Loads (R253 to R255, R270) -/

/-- The slot that maps a pair and samples, or none (R270). -/
def pairSlot (s : State) (m p : Nat) : Option Nat :=
  (insts .cslot).find? (fun j => cslotLive s j && (csPairs (rg s .cslot j)).any (fun e => e.2 == (m, p)))

/-- What a pair has at an event: its on-time, whether it clamped, whether its source is lost, and the compare or fraction it was made from. -/
structure Loaded where
  d : Nat
  clamp : Bool
  lost : Bool
  raw : Nat
  deriving DecidableEq, Repr

/-- What a pair has at an event (R253, R254, R270); in HOLD the active compare is kept, and a lost source stays lost. -/
def pairLoad (s : State) (n p : Nat) (loads : Bool) : Loaded :=
  let x := pwmOf s n
  let y := x.pair p
  let t := x.per
  let c := rg s .pwm n (Reg.PWM.PAIR_CFG + 4 * p)
  let kept := min (rg s .pwm n (Reg.PWM.CMP_ACT + 4 * p)).toNat t
  let lost := rb s .pwm n Reg.PWM.STAT (13 + p)
  match fld c 2 2 with
  | 0 =>
    let v := rf s .pwm n (Reg.PWM.CMP + 4 * p) 0 24
    if rb s .pwm n Reg.PWM.CFG 4 then ⟨fracD (v % 65536) t, false, false, v + 16777216⟩ else ⟨min v t, decide (t < v), false, v⟩
  | 1 =>
    let gone := (pairSlot s n p).isNone || !y.fresh
    if !loads then ⟨kept, false, lost, y.raw⟩
    else if stOf s .pwm n == .hold then ⟨kept, false, lost || gone, y.raw⟩
    else if gone then ⟨kept, false, true, y.raw⟩
    else ⟨fracD y.frac t, false, false, y.frac⟩
  | _ =>
    let f := dutyFrac (sext 24 (sigLo s (fld c 16 16)).toNat)
    if !loads || stOf s .pwm n == .hold then ⟨kept, false, false, y.raw⟩ else ⟨fracD f t, false, false, f⟩

/-- A delivered on-time where its period goes on with another T or an on-time that follows from it, without being classified again: a period
delivered as never or always active stays so, another keeps its distance from what was requested (R255, R259). `t0`, `d0`: T and the
on-time before. -/
def deliverKept (t0 t d0 d v : Nat) : Nat :=
  if v = d0 then d else if v = 0 then 0 else if t0 ≤ v then t else min t (d + v - d0)

/-- The on-times of a pair at an event, the accumulators and whether the period counts as short. A pair is classified once per period, at
the event `cls` that precedes its leading edge; at a later event in the period a new compare or fraction moves the trailing edge alone,
and without one the delivered period goes on (R252, R255, R257 to R259). `t0`, `d0`: T and the on-time before. -/
def pairPlace (s : State) (n : Nat) (r : Loaded) (y : PwmPair) (zero cls : Bool) (t0 d0 : Nat) : PwmPair × Bool :=
  let t := (pwmOf s n).per
  let v := deliver (rf s .pwm n Reg.PWM.CFG 5 2) t (pwmDtH s n + pwmMinp s n) (pwmDtL s n + pwmMinp s n) r.d y.qh y.ql
  let kept := if r.raw = y.raw then deliverKept t0 t d0 r.d y.d2 else r.d
  let y1 := { y with raw := r.raw }
  if cls then ({ y1 with d1 := if zero then v.d else y.d1, d2 := v.d, qh := v.qh, ql := v.ql }, v.short)
  else ({ y1 with d1 := if zero then kept else y.d1, d2 := kept }, false)

/-- What an event shows of a pair's load (R254, Table 9-6). -/
def pairShow (s : State) (n p : Nat) (r : Loaded) : State :=
  let s1 := wb (wr s .pwm n (Reg.PWM.CMP_ACT + 4 * p) (ofN r.d)) .pwm n Reg.PWM.STAT (16 + p) r.clamp
  if r.clamp then setInt s1 .pwm n 2 else s1

/-- One pair at an event of a module in RUN or HOLD: its compare, its source, its classification and its force (R253, R254, R259, R262,
R270). `cls`: a load event that classifies a duty of a slot or a signal; one of CMP is classified at zero events; `t0`: T before. -/
def pairEvent (s : State) (n p t : Nat) (zero loads cls : Bool) (t0 : Nat) : State :=
  let y0 := (pwmOf s n).pair p
  let c := rg s .pwm n (Reg.PWM.PAIR_CFG + 4 * p)
  let r := pairLoad s n p loads
  let was := rb s .pwm n Reg.PWM.STAT (13 + p)
  let f := if loads then rf s .pwm n Reg.PWM.FORCE (2 * p) 2 else y0.force
  let turns := f != y0.force || r.lost != was
  let y1 := { (if turns then pairTurn s n p t else y0) with fresh := y0.fresh && !(r.lost && (pairSlot s n p).isNone), force := f }
  let c1 := if fld c 2 2 = 0 then zero else cls
  let (y2, short) := pairPlace s n r y1 zero c1 t0 (rg s .pwm n (Reg.PWM.CMP_ACT + 4 * p)).toNat
  let s1 := pairShow (setPwm s n ((pwmOf s n).setPair p y2)) n p r
  let s2 := wb (wb s1 .pwm n Reg.PWM.STAT (13 + p) r.lost) .pwm n Reg.PWM.STAT (10 + p) (f != 0)
  let s4 := if r.lost && !was then setInt s2 .pwm n 6 else s2
  if c1 then
    let s5 := wb (wr s4 .pwm n (Reg.PWM.CARRY_ACC + 4 * p) (ofN (y2.qh % 65536 + 65536 * (y2.ql % 65536)))) .pwm n Reg.PWM.STAT (19 + p) short
    if short then setInt (incSat s5 .pwm n Reg.PWM.SHORT_CNT) .pwm n 3 else s5
  else s4

/-- A trigger output counts an event and, while it is enabled, fires on the event its SKEW names (R260): the fast channels and the serial ports
that it triggers (R278, R441). -/
def trgCount (s : State) (n k t : Nat) : State :=
  let x := pwmOf s n
  let c := rg s .pwm n (Reg.PWM.TRG_CFG + 4 * k)
  let e := x.evts.getD k 0
  let fire := bit c 2 && e % (fld c 4 4 + 1) == fld c 8 4
  let s1 := setPwm s n { x with evts := x.evts.set k (e + 1), fired := if fire then x.fired.set k (x.fired.getD k 0 + 1) else x.fired }
  if fire then pspPwm (fchEvent s1 t (fun w => fld w 0 3 == 1 && fld w 8 5 == n && fld w 13 2 == k)) n k else s1

/-- The trigger outputs at a zero or period event. -/
def trgEvents (s : State) (n t : Nat) (zero period : Bool) : State :=
  (List.range 4).foldl (fun s k =>
    let c := rg s .pwm n (Reg.PWM.TRG_CFG + 4 * k)
    let hit := match fld c 0 2 with
      | 0 => zero
      | 1 => period
      | 2 => zero || period
      | _ => false
    if hit then trgCount s n k t else s) s

/-- SYNC_DEV and SYNC_OK at a zero event (R261). -/
def pwmSync (s : State) (n t : Nat) : State :=
  let x := pwmOf s n
  let src := pwmSrc s n
  let (dev, ok) := match pwmMode s n with
    | 1 => (gridDev s n t x.per, true)
    | 2 => (centred ((t : Int) - pwmOfs s n - (pwmOf s src).zero) x.per, pwmCounts s src)
    | _ => (0, true)
  let good := ok && decide (dev.natAbs ≤ 1)
  let s1 := wb (wr s .pwm n Reg.PWM.SYNC_DEV (ofI dev)) .pwm n Reg.PWM.STAT 1 good
  if decide (1 < dev.natAbs) then setInt s1 .pwm n 7 else s1

/-- Whether CFG.LOAD names an event (R255). -/
def pwmLoads (s : State) (n : Nat) (zero period : Bool) : Bool :=
  let l := rf s .pwm n Reg.PWM.CFG 2 2
  (zero && (l == 0 || l == 2)) || (period && (l == 1 || l == 2))

/-- COUNT at a time: the position, which is the time since the last zero event (R251). -/
def pwmShow (s : State) (n t : Nat) : State :=
  if pwmCounts s n then wr s .pwm n Reg.PWM.COUNT (ofN ((t - (pwmOf s n).zero) % 16777216)) else s

/-- A zero or period event of a module whose counter runs, after its commit boundary (R251 to R262, R273). In SAFE and FAULT the periods
run on: their loads are made and checked, and drive nothing (R254, Table 9-5). -/
def pwmEvent (s : State) (n t : Nat) (zero period : Bool) : State :=
  let x := pwmOf s n
  let per := pwmT s n
  let seen (p : Nat) : PwmPair := (x.pair p).absorb (s.lap t)
  let hist (p : Nat) : PwmPair := let (l, a) := refAt s n p t; { seen p with lvl := l, at_ := a }
  let x1 := if zero then
      { x with run := true, zero := t, mid := none, per := per, half := per, pairs := (List.range 3).map hist }
    else { x with mid := some t, per := per, pairs := (List.range 3).map seen }
  let s1 := setPwm s n x1
  let s2 := if zero then
      let s' := setInt (wrTs s1 .pwm n Reg.PWM.ZERO_TS_LO (devTime t)) .pwm n 0
      pwmSync (wb (incWrap s' .pwm n Reg.PWM.PERIOD_CNT) .pwm n Reg.PWM.STAT 0 false) n t
    else wb s1 .pwm n Reg.PWM.STAT 0 true
  let s3 := wr (if period then setInt s2 .pwm n 1 else s2) .pwm n Reg.PWM.PERIOD_ACT (ofN per)
  let loads := pwmLoads s3 n zero period
  let cls := if pwmUpDown s3 n && rf s3 .pwm n Reg.PWM.CFG 2 2 == 1 then period && !zero else zero
  let s4 := if inSt s3 .pwm n [.run, .hold] then
      (List.range 3).foldl (fun s p => pairEvent s n p t zero loads cls x.per) s3
    else (List.range 3).foldl (fun s p => pairShow s n p (pairLoad s n p loads)) s3
  let s5 := pwmShow (trgEvents s4 n t zero period) n t
  if loads then pubAllAt s5 .pwm n .pwmEvent (devTime t) else s5

/-- Whether a zero event falls at a time: the counter runs, or it is the first one after START. -/
def pwmZeroOk (s : State) (n t : Nat) : Bool :=
  !s.pwmClkLost && inSt s .pwm n [.run, .hold, .safe, .fault] && pwmNextZero s n == some t

/-- Whether the period event of an up-down period falls at a time (R251). -/
def pwmPeriodOk (s : State) (n t : Nat) : Bool :=
  let x := pwmOf s n
  pwmCounts s n && pwmUpDown s n && x.mid.isNone && t == x.zero + x.per / 2

/-- Whether an event is the module's commit boundary: commits wait in HOLD (R51, R255). -/
def pwmBoundaryAt (s : State) (n : Nat) (zero period : Bool) : Bool :=
  if rb s .pwm n Reg.PWM.CFG 1 then period else zero

/-- A position trigger output at a time at which the counter reaches TRG_POS (R260). -/
def pwmPosTrigger (s : State) (n k t : Nat) : State :=
  let c := rg s .pwm n (Reg.PWM.TRG_CFG + 4 * k)
  let x := pwmOf s n
  let pos := rf s .pwm n (Reg.PWM.TRG_POS + 4 * k) 0 24
  if pwmCounts s n && fld c 0 2 == 3 && decide (pos < x.per) && t == x.zero + pos then trgCount s n k t else s

/-! ## Clock, readback, commands (R266 to R271) -/

/-- SYNC_OK of a module (R261). -/
def pwmSyncOk (s : State) (n : Nat) (ok : Bool) : State := wb s .pwm n Reg.PWM.STAT 1 ok

/-- A module stops counting: those that follow it show SYNC_OK=0 (R261). -/
def pwmLeaves (s : State) (n : Nat) : State :=
  (insts .pwm).foldl (fun s m => if m != n && pwmMode s m == 2 && pwmSrc s m == n then pwmSyncOk s m false else s) s

/-- The PWM island clock is lost: every output goes to its safe level through the hold cells, no counter runs, and PWM_CLK is raised for the
modules that were counting (R261, R266). -/
def pwmLoseClock (s : State) : State :=
  if s.pwmClkLost then s
  else
    let on := (insts .pwm).filter (fun n => pwmCounts s n)
    let g := on.foldl (fun w n => w ||| groupsOf s .pwm n) (0 : Word)
    let s0 := (insts .pwm).foldl (fun s n => if powered s .pwm n then pwmTurn s n s.now true else s) s
    let s1 := on.foldl (fun s n => pwmSyncOk s n false) s0
    raiseG { s1 with pwmClkLost := true } 0x02 .pwm (on.headD 0) 0 0 g

/-- A counter that stood without a clock goes on from a position that is not stated; in FREE it is in step at once (R261). -/
def pwmResume (s : State) (n : Nat) : State :=
  let x := pwmOf s n
  let pos := (Config.free32 s.seed).toNat % max x.per 1
  setPwm (pwmSyncOk s.next n (pwmMode s n == 0)) n { x with zero := s.now - pos, half := x.per, mid := if x.per ≤ 2 * pos then some (s.now - pos + x.per / 2) else none }

/-- The clock returns: every module that was counting enters FAULT (R266). -/
def pwmClockBack (s : State) : State :=
  if s.pwmClkLost then
    let was (n : Nat) : Bool := (pwmOf s n).run && inSt s .pwm n [.run, .hold, .safe, .fault]
    let s1 := (insts .pwm).foldl (fun s n => if was n then pwmResume (pwmStop s n 7 .fault) n else s) s
    let s2 := { s1 with pwmClkLost := false }
    s2.holds.foldl (fun s h => if h.src = 0x02 then endRaise s 0x02 .pwm h.inst h.sub else s) s2
  else s

/-- A pad differs from its level, which has been intended for `held` steps: it is compared from RB_T × 1.25 ns on (R268). -/
def pwmReadback (s : State) (n out held : Nat) : State :=
  if stOf s .pwm n == .off || decide (held < 10 * rf s .pwm n Reg.PWM.RB_T 0 8) then s
  else
    let s1 := setInt (incSat (wb s .pwm n Reg.PWM.STAT (24 + out) true) .pwm n Reg.PWM.RB_CNT) .pwm n 5
    let s2 := if rb s1 .pwm n Reg.PWM.CFG 15 && stOf s1 .pwm n != .fault then pwmStop s1 n 8 .fault else s1
    raise s2 0x03 .pwm n 0 out

/-- Whether the readback of a module matches at this moment (Table 9-5): after a mismatch the pads' levels are not known, so a free value
says. -/
def readbackOk (s : State) (n : Nat) : Bool := rf s .pwm n Reg.PWM.STAT 24 6 == 0 || Config.freeBool s.seed

/-- What a PWM page says of its commands (R271). -/
def pwmRule (s : State) (n code : Nat) : Option CmdRule :=
  let src := rf s .pwm n Reg.PWM.CFG 10 5
  let needs := rf s .pwm n Reg.PWM.CFG 8 2 == 2
  match code with
  | 0x01 => some ⟨false, false, firstOf [(needs && !powered s .pwm src, .notPresent), (!inSt s .pwm n [.idle] || finHolds s n ||
      (needs && !inSt s .pwm src [.run, .hold, .safe]) || blocked s .pwm n || s.pwmClkLost, .wrongState)]⟩
  | 0x02 => some ⟨true, true, firstOf [(!inSt s .pwm n [.run, .hold, .safe], .wrongState)]⟩
  | 0x03 => some ⟨true, false, firstOf [(!holdable s .pwm n, .wrongState)]⟩
  | 0x04 => some ⟨false, false, firstOf [(!inSt s .pwm n [.hold] || blocked s .pwm n, .wrongState)]⟩
  | 0x05 => some ⟨false, !pwmCounts s n, none⟩
  | 0x06 => some ⟨false, false, firstOf [(!inSt s .pwm n [.fault] || s.pwmClkLost || !readbackOk s n, .wrongState)]⟩
  | _ => none

/-- A module stops counting: its outputs take their safe levels. -/
def pwmHalt (s : State) (n : Nat) (st : PgState) : State :=
  let s0 := pwmTurn s n s.now false
  let s1 := pwmLeaves (setPwm (setSt s0 .pwm n st) n { pwmOf s0 n with run := false }) n
  wb (wb s1 .pwm n Reg.PWM.STAT 1 false) .pwm n Reg.PWM.STAT 0 false

/-- START (R261, R271): in FREE the first zero event falls now, in TICK at the first point of the grid from this tick on. An output
that stands active at its safe level goes on as the low reference has it. -/
def pwmStart (s : State) (n : Nat) : State :=
  let s0 := pwmTurn s n s.now false
  let x := pwmOf s0 n
  let low (p : Nat) : PwmPair :=
    let y := x.pair p
    { PwmPair.reset with frac := y.frac, fresh := y.fresh, inc := y.inc, hOn := y.hOn, lOn := y.lOn
                         at_ := if (pwmOut s n p s.now).2 then s.now - pwmDtL s n else s.now }
  let s1 := setPwm (setSt s0 .pwm n .run) n { PwmSt.reset with
    pairs := (List.range 3).map low, per := x.per, fired := x.fired, anchor := if pwmMode s n = 1 then gridFirst s n s.now else s.now }
  let s2 := wr s1 .pwm n Reg.PWM.STAT (rg s1 .pwm n Reg.PWM.STAT &&& 0x0000E002)
  let s3 := [Reg.PWM.PERIOD_CNT, Reg.PWM.SHORT_CNT, Reg.PWM.RB_CNT, Reg.PWM.SYNC_DEV, Reg.PWM.CARRY_ACC, Reg.PWM.CARRY_ACC + 4,
    Reg.PWM.CARRY_ACC + 8].foldl (fun s o => wr s .pwm n o 0) s2
  if pwmMode s n = 0 then pwmEvent s3 n s3.now true (!pwmUpDown s3 n) else s3

/-- The effect of a PWM command. -/
def pwmAct (s : State) (n code : Nat) : State :=
  match code with
  | 0x01 => pwmStart s n
  | 0x02 => pwmHalt s n .idle
  | 0x03 => setSt s .pwm n .hold
  | 0x04 => setSt s .pwm n .run
  | 0x06 => pwmHalt s.next n .idle
  | _ => s

/-! ## Commits (R253, R257, R261, R272) -/

/-- The modules that take their T from a module, directly or along a chain. -/
def pwmFollowers (s : State) (n : Nat) : List Nat :=
  (insts .pwm).filter (fun m => m != n && rf s .pwm m Reg.PWM.CFG 8 2 == 2 && pwmEnd s m == n)

/-- Whether a chain from a module's staged master comes back to it through the active settings of the others. -/
def pwmLoops (s : State) (n : Nat) : Nat → Nat → Bool
  | 0, _ => true
  | k + 1, m => m == n || (rf s .pwm m Reg.PWM.CFG 8 2 == 2 && pwmLoops s n k (rf s .pwm m Reg.PWM.CFG 10 5))

/-- Whether n × 62,500 is a whole multiple of T for some n from 1 to 256 (R261). -/
def tickMultiple (t : Nat) : Bool := (List.range 256).any (fun n => (n + 1) * 62500 % (max t 1) == 0)

/-- The tests of a staged PWM set. -/
def pwmValidate (s : State) (n : Nat) : List (Bool × Nat × ErrCode) :=
  let w (o : Nat) : Word := staged s .pwm n o
  let f (o lo len : Nat) : Nat := fld (w o) lo len
  let c := w Reg.PWM.CFG
  let per := f Reg.PWM.PERIOD 0 24
  let ud := bit c 0
  let ratio := bit c 4
  let sync := fld c 8 2
  let src := fld c 10 5
  let dh := f Reg.PWM.DT 0 16
  let dl := f Reg.PWM.DT 16 16
  let mp := f Reg.PWM.MINP 0 16
  let need := 2 * (dh + dl + 2 * mp)
  let endT := rf s .pwm (pwmEnd s src) Reg.PWM.PERIOD 0 24
  let live := inSt s .pwm n [.run, .hold]
  let followBad := (pwmFollowers s n).any (fun m => decide (per < 2 * (pwmDtH s m + pwmDtL s m + 2 * pwmMinp s m)))
  [(fld c 2 2 == 3 || fld c 5 2 == 3 || fld c 8 2 == 3, Reg.PWM.CFG, .range),
   (live && (ud != pwmUpDown s n || sync != rf s .pwm n Reg.PWM.CFG 8 2 || src != rf s .pwm n Reg.PWM.CFG 10 5),
      Reg.PWM.CFG, .wrongState),
   (sync == 2 && (src == n || pwmLoops s n 33 src), Reg.PWM.CFG, .conflict),
   (decide (per < 4000) || decide (8000000 < per) || (ud && per % 2 == 1), Reg.PWM.PERIOD, .range),
   (sync != 2 && decide (per < need), Reg.PWM.PERIOD, .range),
   (sync == 1 && !tickMultiple per, Reg.PWM.PERIOD, .conflict),
   (sync != 2 && per != rf s .pwm n Reg.PWM.PERIOD 0 24 && followBad, Reg.PWM.PERIOD, .conflict),
   (decide (16000 < dh) || decide (16000 < dl), Reg.PWM.DT, .range),
   (sync == 2 && decide (endT < need), Reg.PWM.DT, .range),
   (decide (16000 < mp), Reg.PWM.MINP, .range),
   (decide (per ≤ f Reg.PWM.PHASE_OFS 0 24), Reg.PWM.PHASE_OFS, .range),
   (decide (f Reg.PWM.RB_T 0 8 < 8), Reg.PWM.RB_T, .range)] ++
  (List.range 3).flatMap (fun p =>
    let o := Reg.PWM.PAIR_CFG + 4 * p
    let g := w o
    let id := fld g 16 16
    [(fld g 0 2 == 3 || fld g 2 2 == 3, o, .range),
     (bit g 6 && bit g 7, o, .conflict),
     (fld g 2 2 == 2 && (id == 0 || !(sigEnt s id).en || (sigEnt s id).typ != 0), o, .conflict),
     (ratio && f (Reg.PWM.CMP + 4 * p) 16 8 != 0, Reg.PWM.CMP + 4 * p, .range)]) ++
  (List.range 4).flatMap (fun k =>
    let o := Reg.PWM.TRG_CFG + 4 * k
    [(decide (fld (w o) 4 4 < fld (w o) 8 4), o, .range),
     (decide (per ≤ f (Reg.PWM.TRG_POS + 4 * k) 0 24), Reg.PWM.TRG_POS + 4 * k, .range)])

/-- A commit that changes how a pair is driven: an output it turns on waits for the dead time of its side after its partner (R263). -/
def pwmCommitTurn (s : State) (n : Nat) (old : Page) : State :=
  let b := s.setPage (pk .pwm n) old
  let turn (p : Nat) : PwmPair :=
    let y := (pwmOf s n).pair p
    let o := Reg.PWM.PAIR_CFG + 4 * p
    if rg b .pwm n o = rg s .pwm n o then y
    else let r := pairReady b n p s.now (pwmDtH s n) (pwmDtL s n); { y with hOn := r.1, lOn := r.2 }
  setPwm s n { pwmOf s n with pairs := (List.range 3).map turn }

/-- A commit of a module: outputs that change turn, what the hold cells need is mirrored into PD0 (R266), and one that changes PERIOD, DT or
MINP clears the CARRY accumulators (R258). -/
def pwmCommitted (s0 : State) (n : Nat) (old : Page) : State :=
  let s := pwmCommitTurn s0 n old
  let ch (o : Nat) : Bool := SMap.get (regReset .pwm) old.regs o != rg s .pwm n o
  let s0 : State := { s with pwmPads := (List.range 3).foldl (fun m p =>
    SMap.set (fun _ => 0) m (4 * n + p) (rg s .pwm n (Reg.PWM.PAIR_CFG + 4 * p) &&& 0xF0)) s.pwmPads }
  if ch Reg.PWM.PERIOD || ch Reg.PWM.DT || ch Reg.PWM.MINP then
    let x := pwmOf s0 n
    let s1 := setPwm s0 n { x with pairs := x.pairs.map (fun y => { y with qh := 0, ql := 0 }) }
    (List.range 3).foldl (fun s p => wr s .pwm n (Reg.PWM.CARRY_ACC + 4 * p) 0) s1
  else s0

/-! ## FIN (R264, R265, R275) -/

/-- Whether a fault pin is enabled and at its active level. -/
def finActive (s : State) (p : Nat) : Bool := s.finRaw.getLsbD p != rb s .fin 0 Reg.FIN.CFG p
def finEnabled (s : State) (p : Nat) : Bool := rb s .fin 0 Reg.FIN.CFG (16 + p)

/-- LEVEL follows the pins. -/
def finShow (s : State) : State :=
  wr s .fin 0 Reg.FIN.LEVEL (ofN ((List.range 16).foldl (fun w p => if finActive s p then w + 2 ^ p else w) 0))

/-- A latch takes a module (R264): its outputs go to their safe levels through the asynchronous path, and in RUN or HOLD it enters SAFE. -/
def finTake (s : State) (n : Nat) : State := if inSt s .pwm n [.run, .hold] then pwmSafe s n 4 else pwmTurn s n s.now true

/-- A pin that latches takes every module it maps that no other latch has taken. -/
def finForce (s : State) (p : Nat) : State :=
  (insts .pwm).foldl (fun s n =>
    if rb s .fin 0 (Reg.FIN.MAP + 4 * p) n && powered s .pwm n && (!finHolds s n || inSt s .pwm n [.run, .hold]) then finTake s n else s) s

/-- A device time kept to ±1.25 ns: within ten steps, which one is not stated (R264). -/
def finStamp (s : State) (t : Nat) : BitVec 35 := devTime (t + (Config.free32 s.seed).toNat % 21 - 10)

/-- One pin latches at a time (R264). -/
def finLatch (s : State) (p t : Nat) : State :=
  let first := rg s .fin 0 Reg.FIN.LATCH == 0
  let s0 := finForce s p
  let s1 := setInt (wb s0 .fin 0 Reg.FIN.LATCH p true) .fin 0 p
  let s2 := if first then wrTs (wr s1.next .fin 0 Reg.FIN.FIRST (ofN (p + 256))) .fin 0 Reg.FIN.TRIP_TS_LO (finStamp s1 t) else s1
  raise s2 0x01 .fin 0 p p

/-- Every pin that is enabled, active and not latched latches while FIN is in RUN (R264). -/
def finCheck (s : State) (t : Nat) : State :=
  if stOf s .fin 0 == .run then
    (List.range 16).foldl (fun s p =>
      if finEnabled s p && finActive s p && !rb s .fin 0 Reg.FIN.LATCH p then finLatch s p t else s) (finShow s)
  else s

/-- After a commit of FIN: newly mapped modules of latched pins go safe, and pins may latch. -/
def finCommitted (s : State) (old : Page) : State :=
  let before := s.setPage (pk .fin 0) old
  finCheck ((insts .pwm).foldl (fun s n => if powered s .pwm n && finHolds s n && !finHolds before n then finTake s n else s) s) s.now

/-- The fault pins stand at levels for longer than 2 ns (R264). -/
def finPins (s : State) (raw : BitVec 16) (t : Nat) : State := finCheck { s with finRaw := raw } t

/-- What FIN says of its commands (R265, R275). -/
def finRule (s : State) (code : Nat) : Option CmdRule :=
  let held := (List.range 16).any (fun p => rb s .fin 0 Reg.FIN.CLR_MASK p && finEnabled s p && finActive s p)
  match code with
  | 0x05 => some ⟨false, true, none⟩
  | 0x10 => some ⟨false, true, firstOf [(held, .wrongState)]⟩
  | _ => none

/-- CLEAR clears the latches of CLR_MASK (R265). -/
def finAct (s : State) (code : Nat) : State :=
  match code with
  | 0x10 => (List.range 16).foldl (fun s p =>
      if rb s .fin 0 Reg.FIN.CLR_MASK p && rb s .fin 0 Reg.FIN.LATCH p then
        endRaise (wb s .fin 0 Reg.FIN.LATCH p false) 0x01 .fin 0 p
      else s) s
  | _ => s

/-- FIN enters RUN at once with EN=1. -/
def finEnabledAct (s : State) : State := finCheck (setSt s .fin 0 .run) s.now

/-- A module's page is switched off. -/
def pwmDisabled (s : State) (n : Nat) : State := safeAll (pwmHalt s n .off) .pwm n

end Sys2Proof.Machine
end

