-- ==== Sys2Proof/Machine/Conv.lean ====
section
/-! DEFINITION. Fast converters, the bobbin calibration and precision converters (R276 to R304). -/
namespace Sys2Proof.Machine

/-- What a converter group holds besides its registers. -/
def fcgOf (s : State) (g : Nat) : FcgSt := SMap.get (fun _ => FcgSt.reset) s.fcgs g

/-- The same, replaced. -/
def setFcg (s : State) (g : Nat) (x : FcgSt) : State := { s with fcgs := SMap.set (fun _ => FcgSt.reset) s.fcgs g x }

/-- What a precision converter holds besides its registers. -/
def pcvOf (s : State) (k : Nat) : PcvSt := SMap.get (fun _ => PcvSt.reset) s.pcvs k

/-- The same, replaced. -/
def setPcv (s : State) (k : Nat) (x : PcvSt) : State := { s with pcvs := SMap.set (fun _ => PcvSt.reset) s.pcvs k x }

/-! ## Channels and converters (R276, R277) -/

/-- The group and the working converter of a channel, and the four channels of a converter. -/
def chGroup (c : Nat) : Nat := c / 32
def chConv (c : Nat) : Nat := c % 32 / 4
def convChans (g k : Nat) : List Nat := (List.range 4).map (fun i => 32 * g + 4 * k + i)

/-- The converter that serves a channel: the bobbin (8) while it carries the channel's converter. -/
def chServer (s : State) (c : Nat) : Nat := if (fcgOf s (chGroup c)).carry == some (chConv c) then 8 else chConv c

/-- Whether the channel's converter runs in low power. -/
def chLp (s : State) (c : Nat) : Bool := rb s .fcg (chGroup c) Reg.FCG.CFG (chConv c)

/-- Occupation, sampling instant and conversion end of one conversion, in steps after its start (R277). -/
def convOcc (lp : Bool) : Nat := if lp then 6400 else 800
def convSmp (lp : Bool) : Nat := if lp then 640 else 80

/-- The conversion end of one conversion, in steps after its start (R277). -/
def convEnd (lp : Bool) : Nat := if lp then 5120 else 640

/-- The conversions of one result (R280). -/
def chN (s : State) (c : Nat) : Nat :=
  if rf s .fch c Reg.FCH.CFG 0 2 = 1 then 2 ^ rf s .fch c Reg.FCH.CFG 2 4 else 1

/-! ## STAT of a group -/

/-- STAT, CAL_Q and CAL_STAT follow (Table 10-4). -/
def fcgSync (s : State) (g : Nat) : State :=
  let x := fcgOf s g
  let s1 := wf (wb s .fcg g Reg.FCG.STAT 4 x.carry.isSome) .fcg g Reg.FCG.STAT 0 4 (x.cur.getD 15)
  let q := (List.range 8).foldl (fun w i => w + (x.queue.getD i 15) * 16 ^ i) 0
  let s2 := wr s1 .fcg g Reg.FCG.CAL_Q (ofN q)
  (List.range 9).foldl (fun s v =>
    let place := match x.queue.findIdx? (fun a => a == v) with
      | some i => i + 1
      | none => 0
    wr s .fcg g (Reg.FCG.CAL_STAT + 4 * v) (ofN place)) s2

/-- The age of a converter's calibration in ms, saturating (CAL_AGE). -/
def calAge (s : State) (g v t : Nat) : Nat :=
  match (fcgOf s g).age.find? (fun (e : Nat × Nat) => e.1 == v) with
  | some e => min ((s.lap t - e.2) / 8000000) 0xFFFFFFFF
  | none => 0xFFFFFFFF

/-- CAL_AGE and BOB_VALID as they stand at a time. -/
def fcgShow (s : State) (g t : Nat) : State :=
  let s1 := (List.range 9).foldl (fun s v => wr s .fcg g (Reg.FCG.CAL_AGE + 4 * v) (ofN (calAge s g v t))) s
  wb s1 .fcg g Reg.FCG.STAT 6 (decide (calAge s g 8 t < (rg s .fcg g Reg.FCG.BOB_AGE).toNat))

/-- Whether the bobbin's last calibration is younger than BOB_AGE. -/
def bobYoung (s : State) (g t : Nat) : Bool := rb (fcgShow s g t) .fcg g Reg.FCG.STAT 6

/-- Offset and gain of a converter written, with the time of its calibration. -/
def fcgCoef (s : State) (g v : Nat) (ofs : Int) (gain t : Nat) : State :=
  let x := fcgOf s g
  let s1 := wr (wr s .fcg g (Reg.FCG.CAL_OFS + 4 * v) (q23 ofs)) .fcg g (Reg.FCG.CAL_GAIN + 4 * v) (ofN gain)
  setFcg s1 g { x with age := SMap.insert (SMap.erase x.age v) v (s.lap t) }

/-- The PARKED field (0xF none). -/
def fcgParked (s : State) (g : Nat) : Option Nat :=
  let p := rf s .fcg g Reg.FCG.STAT 8 4
  if p = 15 then none else some p

/-- The channels of a carried converter show BOBBIN, and the group is in UPDATE (R285). -/
def fcgCarry (s : State) (g : Nat) (k : Option Nat) : State :=
  let x := fcgOf s g
  let s1 := match x.carry with
    | some j => (convChans g j).foldl (fun s c => wb s .fch c Reg.FCH.STAT 1 false) s
    | none => s
  let s2 := match k with
    | some j => (convChans g j).foldl (fun s c => wb s .fch c Reg.FCH.STAT 1 true) s1
    | none => s1
  let s3 := setFcg s2 g { x with carry := k }
  fcgSync (if inSt s3 .fcg g [.run, .update] then setSt s3 .fcg g (if k.isSome then .update else .run) else s3) g

/-! ## Calibrations (R284 to R290) -/

/-- A phase of the calibration in hand begins. -/
def calPhase (s : State) (g ph t : Nat) : State :=
  setProg (setFcg s g { fcgOf s g with since := s.lap t, pairs := 0, diff := 0, passed := false }) .fcg g 1 ph 0

/-- Whether a working converter has a channel in RUN. -/
def convUsed (s : State) (g k : Nat) : Bool := (convChans g k).any (fun c => stOf s .fch c == .run)

/-- A calibration of a converter starts (R284): phase 1, or past it when the bobbin was calibrated lately; a parked converter
starts at phase 3 (R288). -/
def calStart (s : State) (g v t : Nat) : State :=
  let x := fcgOf s g
  let take := v < 8 && inSt s .fcg g [.run, .update] && convUsed s g v
  let s1 := setFcg s g { x with cur := some v, take := take, back := none }
  let s2 := fcgSync (opStart s1 .fcg g 1 1 0) g
  if v < 8 && fcgParked s2 g == some v then calPhase s2 g 3 t
  else if v = 8 ∨ !bobYoung s g t then calPhase s2 g 1 t
  else calPhase s2 g (if take then 2 else 3) t

/-- Whether the bobbin converter is free for a queued calibration: while it carries a parked converter, for that one alone (R284, R288). -/
def calReady (s : State) (g v : Nat) : Bool := (fcgParked s g).all (fun k => k == v)

/-- The start-up calibration, where START waits with it for the calibration in hand, or the next queued calibration for which the bobbin
converter is free starts: none runs, and no handback and no parking is due. While one waits and none runs, the page is BUSY and PGPROG
shows the place (R58, R284, R291). -/
def calNext (s : State) (g t : Nat) : State :=
  let x := fcgOf s g
  if x.cur.isSome then s
  else if x.startup then opStart s .fcg g 1 1 0
  else if x.queue.isEmpty then s
  else
    match if x.back.isNone && x.toPark.isNone then x.queue.find? (calReady s g) else none with
    | some v => calStart (setFcg s g { x with queue := x.queue.erase v }) g v t
    | none => opStart s .fcg g 0 0 1

/-- The record of a calibration that is over. -/
def calResult (s : State) (g v cause : Nat) (diff : Int) : State :=
  wr s .fcg g Reg.FCG.CAL_RESULT (ofN (v + 16 * cause + 65536 * (diff % 65536).toNat))

/-- The mean difference of the present comparison in 1/16 LSB of q. -/
def calDiff (x : FcgSt) : Int := if x.pairs = 0 then 0 else fq x.diff (16 * x.pairs)

/-- The calibration in hand passes (PHASE 15). -/
def calPass (s : State) (g t : Nat) : State :=
  let x := fcgOf s g
  let v := x.cur.getD 0
  let s1 := calResult (incWrap s .fcg g Reg.FCG.CAL_CNT) g v 0 (sext 16 (rf s .fcg g Reg.FCG.CAL_RESULT 16 16))
  let s2 := fcgSync (setFcg s1 g { x with cur := none }) g
  calNext (setInt (opDone s2 .fcg g) .fcg g 0) g t

/-- A converter is parked on the bobbin (R288). -/
def calPark (s : State) (g k : Nat) : State :=
  let s1 := wf (wb s .fcg g Reg.FCG.STAT (16 + k) true) .fcg g Reg.FCG.STAT 8 4 k
  setInt (fcgCarry s1 g (some k)) .fcg g 4

/-- A converter is parked no longer (R288). -/
def calUnpark (s : State) (g k : Nat) : State :=
  if fcgParked s g = some k then fcgCarry (wf (wb s .fcg g Reg.FCG.STAT (16 + k) false) .fcg g Reg.FCG.STAT 8 4 15) g none else s

/-- The calibration in hand fails with a cause (Table 10-2). -/
def calFail (s : State) (g cause t : Nat) : State :=
  let x := fcgOf s g
  let v := x.cur.getD 0
  let ph := opPhase s .fcg g
  let code : ErrCode := if cause ≤ 3 then .range else .wrongState
  let s1 := calResult s g v cause (if cause = 1 ∨ cause = 2 then calDiff x else sext 16 (rf s .fcg g Reg.FCG.CAL_RESULT 16 16))
  let s2 := setInt (opFail s1 .fcg g code 0x010) .fcg g 1
  let hand := x.carry == some v && fcgParked s g != some v && ((cause = 5 && 3 ≤ ph) || (cause = 4 && ph == 4))
  let back := if hand then some false else x.back
  let s3 := fcgSync (setFcg s2 g { x with cur := none, back := back }) g
  let s4 := if cause = 1 then wb s3 .fcg g Reg.FCG.STAT 5 true
    else if (cause = 2 ∨ cause = 3) ∧ v < 8 ∧ inSt s3 .fcg g [.run, .update] = true then calPark s3 g v
    else s3
  let s5 := if cause ≤ 3 then raise s4 0x17 .fcg g v v else s4
  calNext s5 g t

/-- The calibration in hand ends as by ABORT (R287): the one that runs, the start-up calibration, or else the next queued one. Which
converter CAL_RESULT names after an aborted start-up calibration of all nine is not stated. -/
def calAbort (s : State) (g t : Nat) : State :=
  let x := fcgOf s g
  if x.cur.isSome then calFail s g 5 t
  else if x.startup then
    calFail (setFcg s.next g { x with startup := false, cur := some ((Config.free32 s.seed).toNat % 9), take := false }) g 5 t
  else match x.queue with
    | v :: q => calFail (setFcg s g { x with queue := q, cur := some v, take := false }) g 5 t
    | [] => s

/-- Whether new coefficients lie within their limits (R286). -/
def coefOk (ofs : Int) (gain : Nat) : Bool := ofs.natAbs ≤ 65536 && 4128768 ≤ gain && gain ≤ 4259840

/-- The bobbin's self-calibration ends (phase 1). -/
def bobEnd (s : State) (g t : Nat) (ofs : Int) (gain : Nat) : State :=
  let x := fcgOf s g
  if x.cur.isSome && opPhase s .fcg g == 1 then
    if !coefOk ofs gain then calFail s g 3 t
    else
      let s1 := fcgCoef s g 8 ofs gain t
      if x.cur = some 8 then calPass (wb s1 .fcg g Reg.FCG.STAT 5 false) g t
      else calPhase s1 g (if x.take then 2 else 3) t
  else s

/-- The pairs of a comparison are complete: it passes within TOL, or fails (R286). -/
def calCompare (s : State) (g ph t : Nat) : State :=
  let x := fcgOf s g
  let n := rf s .fcg g Reg.FCG.CAL_CFG 4 11
  if x.cur.isSome && opPhase s .fcg g == ph && n ≤ x.pairs && !x.passed then
    let d := calDiff x
    let s1 := calResult s g (x.cur.getD 0) 0 d
    if x.diff.natAbs ≤ 256 * rf s .fcg g Reg.FCG.CAL_CFG 16 8 * x.pairs then
      let s2 := setFcg s1 g { x with passed := true }
      if ph = 2 then s2 else setProg s2 .fcg g 1 5 0
    else calFail s1 g (if ph = 2 then 1 else 2) t
  else s

/-- The converter under calibration finishes its working copy (phase 3). -/
def convCalEnd (s : State) (g t : Nat) (ofs : Int) (gain : Nat) : State :=
  let x := fcgOf s g
  if x.cur.isSome && opPhase s .fcg g == 3 then
    if !coefOk ofs gain then calFail s g 3 t
    else if x.take then calPhase (setFcg s g { x with copy := (ofs, gain) }) g 4 t
    else
      let v := x.cur.getD 0
      let s1 := fcgCoef s g v ofs gain t
      calPass (calUnpark s1 g v) g t
  else s

/-- SHADOW_N pairs have not come within CAL_TMO (R287). -/
def calTimeoutAct (s : State) (g t : Nat) : State :=
  let x := fcgOf s g
  let ph := opPhase s .fcg g
  if x.cur.isSome && (ph == 2 || ph == 4) && !x.passed && x.since + 8000000 * (rg s .fcg g Reg.FCG.CAL_TMO).toNat ≤ s.lap t then
    calFail s g 4 t
  else s

/-- A conversion of a converter's channels begins after its effective trigger: a takeover, a handback or a parking that is due
falls here (R285, R289). -/
def calSwitch (s : State) (g k t : Nat) : State :=
  let x := fcgOf s g
  let ph := opPhase s .fcg g
  if x.toPark = some k then
    let s1 := if x.carry.any (fun j => j != k) then setInt s .fcg g 3 else s
    calNext (calPark (setFcg s1 g { x with toPark := none, back := none }) g k) g t
  else if x.cur = some k ∧ ph = 2 ∧ x.passed = true then
    calPhase (setInt (fcgCarry s g (some k)) .fcg g 2) g 3 t
  else if x.cur = some k ∧ ph = 5 then
    let s1 := fcgCoef s g k x.copy.1 x.copy.2 t
    let s2 := if fcgParked s1 g = some k then wf (wb s1 .fcg g Reg.FCG.STAT (16 + k) false) .fcg g Reg.FCG.STAT 8 4 15 else s1
    calPass (setInt (fcgCarry s2 g none) .fcg g 3) g t
  else if x.back.isSome ∧ x.carry = some k ∧ x.cur = none then
    calNext (setInt (fcgCarry (setFcg s g { x with back := none }) g none) .fcg g 3) g t
  else s

/-- One pair of a comparison: bobbin result minus converter result, in 2⁻⁸ LSB of q (R286). -/
def calPair (s : State) (g k : Nat) (bob conv : Int) (t : Nat) : State :=
  let x := fcgOf s g
  let ph := opPhase s .fcg g
  let n := rf s .fcg g Reg.FCG.CAL_CFG 4 11
  if x.cur = some k ∧ (ph = 2 ∨ ph = 4) ∧ x.passed = false ∧ x.pairs < n then
    let s1 := setFcg s g { x with pairs := x.pairs + 1, diff := x.diff + (bob - conv) }
    calCompare (setProg s1 .fcg g 1 ph (10000 * (x.pairs + 1) / max n 1)) g ph t
  else s

/-! ## Triggers and conversions (R278 to R283) -/

/-- What a conversion of a channel occupies of its converter, in steps (R277, R280). -/
def chOcc (s : State) (c : Nat) : Nat := convOcc (chLp s c) * chN s c

/-- The channels of a group whose conversions wait for a converter or are made by it, ascending. -/
def convJobs (s : State) (g v : Nat) : List Nat :=
  ((List.range 32).map (fun i => 32 * g + i)).filter (fun c => (fchOf s c).trig.isSome && (fchOf s c).by_ == v)

/-- The conversions that wait for a converter are placed anew at a time: in ascending input order, back to back, once it is awake and
the conversion it makes is over (R279). -/
def convPlan (s : State) (g v t : Nat) : State :=
  let jobs := convJobs s g v
  let now := s.lap t
  let begun := jobs.filter (fun c => decide ((fchOf s c).start < now))
  let from_ := begun.foldl (fun m c => max m ((fchOf s c).start + chOcc s c)) (max now (SMap.get (fun _ => 0) (fcgOf s g).free v))
  ((jobs.filter (fun c => decide (now ≤ (fchOf s c).start))).foldl (fun (a : State × Nat) c =>
    (setFch a.1 c { fchOf a.1 c with start := a.2 }, a.2 + chOcc s c)) (s, from_)).1

/-- Whether an effective trigger of a channel falls at a time (R278): one that is due, placed on the 1.25 ns base within 1.25 ns, or
the end of a period of its group timer. -/
def fchDueAt (s : State) (c t : Nat) : Bool :=
  let x := fchOf s c
  let w := rg s .fch c Reg.FCH.TRIG
  let o := Reg.FCG.TMR_PERIOD + 4 * fld w 16 2
  let per := 50 * rf s .fcg (chGroup c) o 0 24
  let now := s.lap t
  let near (d : Nat) : Bool := decide (d ≤ now + 10) && decide (now ≤ d + 10)
  let timer (a : Nat) : Bool :=
    let e := now - a - 10 * rf s .fch c Reg.FCH.DELAY 0 16
    decide (0 < per) && decide (per ≤ e + 10) && (decide (e % per ≤ 10) || decide (per ≤ e % per + 10))
  x.due.any near || (fld w 0 3 == 2 && x.took.all (fun u => decide (u + 20 < now)) &&
    ((fcgOf s (chGroup c)).timers.find? (fun (e : Nat × Nat) => e.1 == fld w 16 2)).any (fun e => timer e.2))

/-- An effective trigger is taken; the ones due before it are over. -/
def fchTake (s : State) (c t : Nat) : State :=
  let x := fchOf s c
  setFch s c { x with due := x.due.filter (fun d => decide (s.lap t + 10 < d)), took := some (s.lap t) }

/-- An effective trigger of a channel, after its commit boundary (R278 to R280). -/
def fchTrig (s : State) (c t : Nat) : State :=
  if stOf s .fch c != .run then s
  else
    let x := fchOf s c
    let inter := rf s .fch c Reg.FCH.CFG 0 2 == 2
    if inter && !x.isOpen then fchLatch (setFch s c { x with isOpen := true, prev := s.lap t }) c t
    else if x.trig.isSome then setInt (incSat s .fch c Reg.FCH.TRIG_LOST_CNT) .fch c 1
    else
      let g := chGroup c
      let s1 := calSwitch s g (chConv c) t
      let v := chServer s1 c
      let s2 := setFch s1 c { fchOf s1 c with trig := some (s.lap t), start := s.lap t, by_ := v }
      fchLatch (if inter then s2 else convPlan s2 g v t) c t

/-- A base tick (R278, Table 10-4): every TICK_DIV + 1-th is a trigger event of a channel in RUN whose KIND is TICK. -/
def fchTick (s : State) (c t : Nat) : State :=
  let w := rg s .fch c Reg.FCH.TRIG
  let x := fchOf s c
  if stOf s .fch c == .run && fld w 0 3 == 3 then
    setFch s c (if fld w 24 8 ≤ x.ticks then { x with ticks := 0, due := x.due ++ [s.lap t + 10 * rf s .fch c Reg.FCH.DELAY 0 16] }
      else { x with ticks := x.ticks + 1 })
  else s

/-- A timer of a group with TICK_SYNC begins its first period at a base tick (Table 10-4). -/
def fcgTick (s : State) (g t : Nat) : State :=
  (List.range 4).foldl (fun s i =>
    let x := fcgOf s g
    if rf s .fcg g (Reg.FCG.TMR_CFG + 4 * i) 0 2 == 3 && !x.timers.any (fun (e : Nat × Nat) => e.1 == i) then
      setFcg s g { x with timers := SMap.insert x.timers i (s.lap t) }
    else s) s

/-- A commit of a group reaches a timer: one that it starts or changes begins its first period now, or with TICK_SYNC at the next tick;
and AUTO counts from the commit that sets it (R290). -/
def fcgCommitted (s : State) (g : Nat) (old : Page) : State :=
  let was (o : Nat) : Word := SMap.get (regReset .fcg) old.regs o
  let timer (m : SMap Nat) (i : Nat) : SMap Nat :=
    let c := Reg.FCG.TMR_CFG + 4 * i
    let p := Reg.FCG.TMR_PERIOD + 4 * i
    let w := rg s .fcg g c
    if was c == w && was p == rg s .fcg g p then m
    else if fld w 0 2 = 1 then SMap.insert (SMap.erase m i) i (s.lap s.now) else SMap.erase m i
  let x := fcgOf s g
  let starts := rb s .fcg g Reg.FCG.CAL_CFG 0 && !bit (was Reg.FCG.CAL_CFG) 0
  setFcg s g { x with timers := (List.range 4).foldl timer x.timers, autoAt := if starts then s.lap s.now else x.autoAt }

/-- The mean of raw codes in 2⁻⁸ LSB, to nearest with ties towards plus infinity (R280). -/
def codeMean (qs : List Int) : Int := (512 * qs.foldl (fun a q => a + q) 0 + qs.length) / (2 * qs.length)

/-- A mean in 2⁻⁸ LSB corrected by an offset and a gain (R281). -/
def correctBy (ofs gain m : Int) : Int := clampI (-8388608) 8388607 (fq ((m - ofs) * gain) 4194304)

/-- A mean in 2⁻⁸ LSB corrected by a converter's coefficients (R281). -/
def corrected (s : State) (g v : Nat) (m : Int) : Int :=
  correctBy (sw (rg s .fcg g (Reg.FCG.CAL_OFS + 4 * v))) (rg s .fcg g (Reg.FCG.CAL_GAIN + 4 * v)).toNat m

/-- Results in a row outside the limits have reached LIM_N (R283). -/
def fchLimitAct (s : State) (c : Nat) : State :=
  let n := rf s .fch c Reg.FCH.LIM_N 0 8
  if rb s .fch c Reg.FCH.CFG 7 && n != 0 && n ≤ (fchOf s c).outN && !rb s .fch c Reg.FCH.STAT 4 then
    raise (setInt (wb s .fch c Reg.FCH.STAT 4 true) .fch c 2) 0x16 .fch c 0 0
  else s

/-- The limits after a result (R283): results are counted while LIM_EN=1, and one within the limits ends LIM_FAULT whatever LIM_EN says. -/
def fchLimits (s : State) (c : Nat) (r : Int) : State :=
  let x := fchOf s c
  let out := decide (r < sw (rg s .fch c Reg.FCH.LIM_LO)) || decide (sw (rg s .fch c Reg.FCH.LIM_HI) < r)
  if !out then wb (setFch s c { x with outN := 0 }) .fch c Reg.FCH.STAT 4 false
  else if rb s .fch c Reg.FCH.CFG 7 then fchLimitAct (setFch s c { x with outN := x.outN + 1 }) c
  else setFch s c { x with outN := 0 }

/-- The instants of a channel's INTERVAL grid before an elapsed time (R280). -/
def gridCount (s : State) (c e : Nat) : Nat :=
  let first := (fchOf s c).grid + convSmp (chLp s c)
  if e ≤ first then 0 else cdiv (e - first) (convOcc (chLp s c))

/-- How many codes the result of a channel has: of an interval, its sampling instants from the previous effective trigger up to the
present one (R280). -/
def chCodes (s : State) (c : Nat) : Nat :=
  let x := fchOf s c
  if rf s .fch c Reg.FCH.CFG 0 2 = 2 then gridCount s c (x.trig.getD 0) - gridCount s c x.prev else chN s c

/-- Whether the conversion end of a channel may fall at a time (R277, R280): of an interval, up to one conversion after its trigger. -/
def fchEndAt (s : State) (c t : Nat) : Bool :=
  let x := fchOf s c
  let e := convEnd (chLp s c)
  let now := s.lap t
  if rf s .fch c Reg.FCH.CFG 0 2 = 2 then decide (x.trig.getD 0 ≤ now) && decide (now ≤ x.trig.getD 0 + e)
  else now == x.start + e + (chN s c - 1) * convOcc (chLp s c)

/-- A conversion is over: its converter is free after it, and its wait counts (R279). -/
def fchOver (s : State) (c : Nat) : State :=
  let x := fchOf s c
  let inter := rf s .fch c Reg.FCH.CFG 0 2 == 2
  let g := chGroup c
  let y := fcgOf s g
  let s1 := setFch s c { x with trig := none, prev := x.trig.getD 0 }
  if inter then s1
  else
    let wait := x.start - x.trig.getD 0
    let ns := (fq (wait : Int) 8).toNat
    let f := max (SMap.get (fun _ => 0) y.free x.by_) (x.start + chOcc s c)
    let s2 := wb (setFcg s1 g { y with free := SMap.set (fun _ => 0) y.free x.by_ f }) .fch c Reg.FCH.STAT 2 (decide (0 < wait))
    if (rg s2 .fch c Reg.FCH.WAIT_MAX).toNat < ns then wr s2 .fch c Reg.FCH.WAIT_MAX (ofN ns) else s2

/-- The pair that a conversion by a converter and by the one beside it gives a comparison (R286): the converter under calibration in its
verification by its working copy. -/
def fchPair (s : State) (c v t : Nat) (m o : Int) : State :=
  let g := chGroup c
  let k := chConv c
  let conv (q : Int) : Int :=
    if opPhase s .fcg g = 4 then correctBy (fcgOf s g).copy.1 (fcgOf s g).copy.2 q else corrected s g k q
  let (a, b) := if v = 8 then (m, o) else (o, m)
  calPair s g k (corrected s g 8 a) (conv b) t

/-- A conversion ends with its raw codes (R280 to R282); `other`: the codes of the converter that shadows or verifies. An interval that
holds no sampling instant has no result. Of a burst or interval the spec does not say which sampling instant is the timestamp. -/
def fchEnd (s : State) (c t : Nat) (qs other : List Int) : State :=
  let x := fchOf s c
  if stOf s .fch c != .run || x.trig.isNone || !fchEndAt s c t || qs.length != chCodes s c then s
  else if qs.isEmpty then fchOver s c
  else
    let lp := chLp s c
    let m := codeMean qs
    let r := corrected s (chGroup c) x.by_ m
    let i := if rf s .fch c Reg.FCH.CFG 0 2 = 0 then 0 else (Config.free32 s.seed).toNat % qs.length
    let first := if rf s .fch c Reg.FCH.CFG 0 2 = 2 then x.grid + gridCount s c x.prev * convOcc lp else x.start
    let ts := devTime (s.ext (first + convSmp lp + i * convOcc lp))
    let last := qs.getLastD 0
    let clip := qs.any (fun q => q == -32768 || q == 32767)
    let s0 := fchOver s c
    let s1 := wr (wr s0 .fch c Reg.FCH.RESULT (ofI r)) .fch c Reg.FCH.RAW (ofN (last % 65536).toNat)
    let s2 := wr (wrTs s1 .fch c Reg.FCH.TS_LO ts) .fch c Reg.FCH.COUNT (ofN qs.length)
    let s3 := wb (wb s2 .fch c Reg.FCH.STAT 0 true) .fch c Reg.FCH.STAT 3 clip
    let s4 := if clip then setInt s3 .fch c 3 else s3
    let s5 := if rb s4 .fch c Reg.FCH.CFG 6 then setInt s4 .fch c 0 else s4
    let s6 := setFch s5 c { fchOf s5 c with seq := x.seq + 1, endAt := some (s.lap t), endLatch := x.latch }
    let s7 := pubAllAt (fchLimits s6 c r) .fch c .convEnd ts
    (if other.isEmpty then s7 else fchPair s7 c x.by_ t m (codeMean other)).next

/-- A conversion is not completed in its time (R289). -/
def convFails (s : State) (c t : Nat) : State :=
  if stOf s .fch c != .run || (fchOf s c).trig.isNone || decide (s.lap t < (fchOf s c).start + chOcc s c) then s
  else
    let g := chGroup c
    let k := chConv c
    let x := fchOf s c
    let s1 := wb (setFch s c { x with trig := none, prev := x.trig.getD 0 }) .fch c Reg.FCH.STAT 5 true
    if (fcgParked s1 g).isNone then
      let s2 := setFcg s1 g { fcgOf s1 g with toPark := some k }
      let s3 := if (fcgOf s2 g).cur.isSome || (fcgOf s2 g).startup then calAbort s2 g t else s2
      raise s3 0x17 .fcg g k k
    else
      let s2 := (convChans g k).foldl (fun s c =>
        if stOf s .fch c == .run then safeAll (setSt (setFch s c { fchOf s c with trig := none }) .fch c .fault) .fch c else s) s1
      raise (wb s2 .fcg g Reg.FCG.STAT (16 + k) true) 0x17 .fcg g k k

/-! ## Commands and commits of FCG and FCH (R291 to R294) -/

/-- CAL is queued, and starts when no other runs (R284). -/
def calQueue (s : State) (g v t : Nat) : State :=
  let x := fcgOf s g
  let s1 := fcgSync (setFcg s g { x with queue := x.queue ++ [v] }) g
  fcgSync (calNext s1 g t) g

/-- AUTO queues the next working converter that is neither queued nor parked (R290). -/
def autoCal (s : State) (g t : Nat) : State :=
  let x := fcgOf s g
  if rb s .fcg g Reg.FCG.CAL_CFG 0 && inSt s .fcg g [.idle, .run, .update] &&
      decide (x.autoAt + perS * (rg s .fcg g Reg.FCG.CAL_PERIOD).toNat ≤ s.lap t) then
    let s := setFcg s g { x with autoAt := s.lap t }
    let x := fcgOf s g
    let ok (v : Nat) : Bool := !x.queue.contains v && x.cur != some v && fcgParked s g != some v
    match ((List.range 8).map (fun i => (x.auto + i) % 8)).find? ok with
    | some v =>
      if 8 ≤ x.queue.length || rb s .fcg g Reg.FCG.STAT 5 then s
      else calQueue (setFcg s g { x with auto := (v + 1) % 8 }) g v t
    | none => s
  else s

/-- The start-up calibration ends (R291): coefficients of all nine converters; the first converter whose new coefficients lie beyond
their limits fails it with cause 3 (R286, R287). -/
def startupEnd (s : State) (g t : Nat) (cs : List (Int × Nat)) : State :=
  let x := fcgOf s g
  if x.startup && x.cur.isNone && cs.length == 9 then
    let s1 := setFcg s g { x with startup := false }
    let ok (v : Nat) : Bool := (cs[v]?).any (fun c => coefOk c.1 c.2)
    let s2 := (List.range 9).foldl (fun s v => match cs[v]? with
      | some c => if coefOk c.1 c.2 then calUnpark (fcgCoef s g v c.1 c.2 t) g v else s
      | none => s) s1
    match (List.range 9).find? (fun v => !ok v) with
    | none => calNext (setInt (opDone s2 .fcg g) .fcg g 0) g t
    | some v => calFail (setFcg s2 g { fcgOf s2 g with cur := some v, take := false }) g 3 t
  else s

/-- What an `FCG` page says of its commands (R284, R292). -/
def fcgRule (s : State) (g code : Nat) : Option CmdRule :=
  let x := fcgOf s g
  let v := rf s .fcg g Reg.FCG.CAL_SEL 0 4
  let parked := fcgParked s g
  match code with
  | 0x01 => some ⟨false, false, firstOf [(!inSt s .fcg g [.idle], .wrongState)]⟩
  | 0x02 => some ⟨true, true, firstOf [(!inSt s .fcg g [.run, .update], .wrongState)]⟩
  | 0x05 => some ⟨false, true, none⟩
  | 0x07 => some ⟨true, true, firstOf [(x.cur.isNone && !x.startup && x.queue.isEmpty, .wrongState)]⟩
  | 0x10 => some ⟨false, true, if stOf s .fcg g == .off then none else firstOf [(decide (8 < v), .range),
      ((parked.isSome && parked != some v) || (rb s .fcg g Reg.FCG.STAT 5 && v != 8), .notPresent),
      (x.queue.contains v || x.cur == some v || decide (8 ≤ x.queue.length), .busy)]⟩
  | _ => none

/-- STOP: the calibration ends as by ABORT and every channel of the group goes to IDLE (R291). -/
def fcgStop (s : State) (g : Nat) (st : PgState) : State :=
  let y := fcgOf s g
  let one := if y.cur.isSome then { y with queue := [], startup := false } else { y with queue := if y.startup then [] else y.queue.take 1 }
  let s2 := calAbort (setFcg s g one) g s.now
  let x := fcgOf s2 g
  let s3 := setFcg s2 g { FcgSt.reset with age := x.age, auto := x.auto, timers := x.timers, autoAt := x.autoAt }
  let s4 := (List.range 32).foldl (fun s i =>
    let c := 32 * g + i
    let s' := setFch (wb s .fch c Reg.FCH.STAT 1 false) c { fchOf s c with trig := none, isOpen := false, due := [] }
    if inSt s' .fch c [.run, .fault] then setSt s' .fch c .idle else s') s3
  fcgCarry (setSt s4 .fcg g st) g (fcgParked s4 g)

/-- The effect of an `FCG` command. -/
def fcgAct (s : State) (g code : Nat) : State :=
  match code with
  | 0x01 =>
    let x := fcgOf s g
    calNext (setSt (setFcg s g { x with startup := true, autoAt := s.lap s.now }) .fcg g (if x.carry.isSome then .update else .run)) g s.now
  | 0x02 => fcgStop s g .idle
  | 0x07 => calAbort s g s.now
  | 0x10 => if stOf s .fcg g == .off then s else calQueue s g (rf s .fcg g Reg.FCG.CAL_SEL 0 4) s.now
  | _ => s

/-- The tests of a staged `FCG` set. -/
def fcgValidate (s : State) (g : Nat) : List (Bool × Nat × ErrCode) :=
  let v (o : Nat) : Nat := (staged s .fcg g o).toNat
  let n := stf s .fcg g Reg.FCG.CAL_CFG 4 11
  let bad16 (o : Nat) : Bool × Nat × ErrCode := (v o == 0 || decide (65535 < v o), o, .range)
  let lp := match (fcgOf s g).cur with
    | some k => decide (k < 8) && stf s .fcg g Reg.FCG.CFG k 1 != rf s .fcg g Reg.FCG.CFG k 1
    | none => false
  [(lp, Reg.FCG.CFG, .wrongState),
   (decide (n < 4) || decide (1024 < n) || stf s .fcg g Reg.FCG.CAL_CFG 16 8 == 0, Reg.FCG.CAL_CFG, .range),
   bad16 Reg.FCG.CAL_PERIOD, bad16 Reg.FCG.CAL_TMO, bad16 Reg.FCG.BOB_AGE] ++
  (List.range 4).map (fun i => (decide (v (Reg.FCG.TMR_PERIOD + 4 * i) < 16), Reg.FCG.TMR_PERIOD + 4 * i, .range))

/-- Whether a channel's converter belongs to one channel in INTERVAL while another one of it is not in OFF (R280). -/
def chOwned (s : State) (c : Nat) : Bool :=
  let inter (j : Nat) : Bool := rf s .fch j Reg.FCH.CFG 0 2 == 2
  (convChans (chGroup c) (chConv c)).any (fun j => j != c && stOf s .fch j != .off && (inter j || inter c))

/-- What an `FCH` page says of its commands (R293, R294). -/
def fchRule (s : State) (c code : Nat) : Option CmdRule :=
  let g := chGroup c
  let served := (fcgOf s g).carry == some (chConv c) || !rb s .fcg g Reg.FCG.STAT (16 + chConv c)
  match code with
  | 0x01 => some ⟨false, false, firstOf [(!inSt s .fch c [.idle] || !inSt s .fcg g [.run, .update], .wrongState), (chOwned s c, .conflict)]⟩
  | 0x02 => some ⟨true, false, firstOf [(!inSt s .fch c [.run], .wrongState)]⟩
  | 0x05 => some ⟨false, false, none⟩
  | 0x06 => some ⟨false, true, firstOf [(!inSt s .fch c [.fault] || !served, .wrongState)]⟩
  | 0x10 => some ⟨false, true, firstOf [(!inSt s .fch c [.run], .wrongState)]⟩
  | _ => none

/-- A channel stops converting. -/
def fchHalt (s : State) (c : Nat) (st : PgState) : State :=
  setFch (setSt s .fch c st) c { fchOf s c with trig := none, isOpen := false, outN := 0, due := [], ticks := 0, took := none }

/-- A channel enters RUN: the grid of INTERVAL starts, and a converter that was powered down is awake after 2 µs (R277, R280). -/
def fchRun (s : State) (c : Nat) : State :=
  let g := chGroup c
  let y := fcgOf s g
  let v := chServer s c
  let wakes := !convUsed s g (chConv c) && y.cur != some (chConv c)
  let f := max (SMap.get (fun _ => 0) y.free v) (s.lap s.now + 16000)
  let s1 := if wakes then setFcg s g { y with free := SMap.set (fun _ => 0) y.free v f } else s
  let s2 := fchHalt s1 c .run
  setFch s2 c { fchOf s2 c with grid := s.lap s.now }

/-- The effect of an `FCH` command. -/
def fchAct (s : State) (c code : Nat) : State :=
  match code with
  | 0x01 =>
    let s1 := wr (fchRun s c) .fch c Reg.FCH.TRIG_LOST_CNT 0
    wb (wb s1 .fch c Reg.FCH.STAT 0 false) .fch c Reg.FCH.STAT 5 false
  | 0x02 => fchHalt s c .idle
  | 0x06 => fchHalt s c .idle
  | 0x10 =>
    let d := rf s .fch c Reg.FCH.DELAY 0 16
    if d = 0 then
      let s1 := fchTake s c s.now
      fchTrig (if commitReady s1 .fch c then takeStaged s1 .fch c else s1) c s.now
    else setFch s c { fchOf s c with due := (fchOf s c).due ++ [s.lap s.now + 10 * d] }
  | _ => s

/-- The tests of a staged `FCH` set. -/
def fchValidate (s : State) (c : Nat) : List (Bool × Nat × ErrCode) :=
  let w (o : Nat) : Word := staged s .fch c o
  let mode := fld (w Reg.FCH.CFG) 0 2
  let n := fld (w Reg.FCH.CFG) 2 4
  let others := (convChans (chGroup c) (chConv c)).any (fun j => j != c && stOf s .fch j != .off)
  let run := stOf s .fch c == .run
  let was := rf s .fch c Reg.FCH.CFG 0 2
  [(mode == 3 || decide (4 < n) || (mode == 1 && n == 0), Reg.FCH.CFG, .range),
   (mode == 2 && others, Reg.FCH.CFG, .conflict),
   (run && mode != was && (mode == 2 || was == 2), Reg.FCH.CFG, .wrongState),
   (decide (4 < fld (w Reg.FCH.TRIG) 0 3), Reg.FCH.TRIG, .range),
   (bit (w Reg.FCH.CFG) 7 && fld (w Reg.FCH.LIM_N) 0 8 == 0, Reg.FCH.LIM_N, .range)]

/-- A group is switched off: its channels stop. -/
def fcgDisabled (s : State) (g : Nat) : State :=
  let s1 := fcgStop s g .off
  (List.range 32).foldl (fun s i => let c := 32 * g + i; if stOf s .fch c == .off then s else safeAll s .fch c) s1

/-! ## Precision converters (R297 to R304) -/

/-- The channels of a scan, in ascending order (R299). -/
def pcvScan (s : State) (k : Nat) : List Nat := (List.range 16).filter (fun p => rb s .pcv k Reg.PCV.SCAN p)

/-- The gains in use by the scan. -/
def pcvGains (s : State) (k : Nat) : List Nat :=
  (List.range 8).filter (fun g => (pcvScan s k).any (fun p => rf s .pcv k (Reg.PCV.CH_CFG + 4 * p) 10 3 == g))

/-- The CAL conversions of R302: for each gain the shorted input and half the full scale. -/
def pcvCals (s : State) (k : Nat) : List (Nat × Bool) := (pcvGains s k).flatMap (fun g => [(g, false), (g, true)])

/-- A word corrected by its gain's coefficients, before saturation. -/
def pcvCorrect (s : State) (k g : Nat) (w : Int) : Int :=
  fq ((w - sw (rg s .pcv k (Reg.PCV.OFS_CAL + 4 * g))) * (rg s .pcv k (Reg.PCV.GAIN_CAL + 4 * g)).toNat) 4194304

/-- An open wire: OPEN, INT_RAW.OPEN, PCV_OPEN, and the channel's signal goes safe (R301). -/
def pcvOpen (s : State) (k p : Nat) : State :=
  let x := pcvOf s k
  let s0 := setPcv s k { x with good := SMap.erase x.good p }
  if rb s0 .pcv k Reg.PCV.OPEN p then s0
  else
    let s1 := setInt (wb s0 .pcv k Reg.PCV.OPEN p true) .pcv k 1
    let s2 := raise s1 0x18 .pcv k 0 (rg s1 .pcv k Reg.PCV.OPEN).toNat
    safeIf s2 .pcv k (fun e => e.word == Reg.PCV.RESULT / 4 + p)

/-- A passed open-wire test: the bit clears after two in a row (R301). -/
def pcvGood (s : State) (k p : Nat) : State :=
  if !rb s .pcv k Reg.PCV.OPEN p then s
  else
    let x := pcvOf s k
    let n := SMap.get (fun _ => 0) x.good p + 1
    if 2 ≤ n then
      let s1 := setInt (wb (setPcv s k { x with good := SMap.erase x.good p }) .pcv k Reg.PCV.OPEN p false) .pcv k 2
      if rg s1 .pcv k Reg.PCV.OPEN = 0 then endRaise s1 0x18 .pcv k 0 else s1
    else setPcv s k { x with good := SMap.set (fun _ => 0) x.good p n }

/-- The time to a channel's next word, in steps (R298, R299): at a switch it settles first. -/
def pcvTime (s : State) (k p : Nat) (switch : Bool) : Nat :=
  let o := rf s .pcv k (Reg.PCV.CH_OSR + 4 * p) 0 20 * (if rb s .pcv k Reg.PCV.CFG 1 then 5000 else 1250)
  if switch then 8000 * (rg s .pcv k Reg.PCV.SETTLE).toNat + (if rb s .pcv k (Reg.PCV.CH_CFG + 4 * p) 13 then 5 else 3) * o else o

/-- A channel is converted next, from a time on. -/
def pcvNext (s : State) (k t : Nat) (p : Option Nat) (switch : Bool) : State :=
  setPcv s k { pcvOf s k with conv := p.map (fun c => (c, s.lap t + pcvTime s k c switch)) }

/-- Whether the words a converter gives now are those of CAL: of its start-up, or at the end of a scan (R302). -/
def pcvCalDue (s : State) (k : Nat) : Bool := !(pcvOf s k).cal.isEmpty && (pcvOf s k).conv.isNone

/-- Measured coefficients become a converter's (R302). -/
def pcvApply (s : State) (k : Nat) : State :=
  let x := pcvOf s k
  setPcv (x.next.foldl (fun s e =>
    wr (wr s .pcv k (Reg.PCV.OFS_CAL + 4 * e.1) (q23 e.2.1)) .pcv k (Reg.PCV.GAIN_CAL + 4 * e.1) (ofI e.2.2)) s) k { x with next := [] }

/-- The end of a scan: its length, its count, and the coefficients that apply from the next one (R299, R302). -/
def pcvScanEnd (s : State) (k t : Nat) : State :=
  let x := pcvOf s k
  let us := min ((s.lap t - x.from_) / 8000) 0xFFFFFFFF
  let s1 := setInt (incWrap (wr s .pcv k Reg.PCV.SCAN_T (ofN us)) .pcv k Reg.PCV.SCAN_CNT) .pcv k 0
  let s3 := pcvApply (setPcv s1 k { x with from_ := s.lap t, scans := x.scans + 1 }) k
  if x.cal.isEmpty && (s3.page (pk .pcv k)).busy then opDone s3 .pcv k else s3

/-- The next channel after one that gave its word, in ascending order; after the last one, the CAL conversion that is still to make, or
the end of the scan and the next one, whose first word needs no switch where the channel stays the same (R299, R302). `fresh`: a
commit changed what the channel is converted with, so that it settles again (R303). -/
def pcvMove (s : State) (k t p : Nat) (fresh : Bool) : State :=
  match (pcvScan s k).find? (fun c => decide (p < c)) with
  | some c => pcvNext s k t (some c) true
  | none =>
    if !(pcvOf s k).cal.isEmpty then pcvNext s k t none true
    else
      let s1 := pcvScanEnd s k t
      let c := (pcvScan s1 k).head?
      pcvNext s1 k t c (fresh || c != some p)

/-- One CAL conversion (R302): the zero conversion within ±2⁻⁸, the reference conversion within 0.5 ± 2⁻⁷. -/
def pcvCalWord (s : State) (k t : Nat) (w : Int) : State :=
  let x := pcvOf s k
  match x.cal with
  | (g, ref) :: l =>
    let ok := if ref then (w - 4194304).natAbs ≤ 65536 else w.natAbs ≤ 32768
    if !ok then
      let s1 := setPcv s k { x with cal := [], first := false, from_ := if x.first then s.lap t else x.from_ }
      let s2 := raise (opFail s1 .pcv k .range 0x010) 0x19 .pcv k 0 g
      pcvNext (if x.first then pcvApply s2 k else pcvScanEnd s2 k t) k t (pcvScan s k).head? true
    else
      let z := SMap.get (fun _ => 0) x.zero g
      let x1 := if ref then { x with cal := l, next := x.next ++ [(g, z, fq (4194304 * 4194304) (w - z).toNat)] }
        else { x with cal := l, zero := SMap.set (fun _ => 0) x.zero g w }
      let s1 := setPcv s k x1
      if x.first then
        if l.isEmpty then
          pcvNext (opDone (pcvApply (setPcv s1 k { x1 with first := false, from_ := s.lap t }) k) .pcv k) k t (pcvScan s k).head? true
        else s1
      else pcvNext (pcvScanEnd s1 k t) k t (pcvScan s k).head? true
  | [] => s

/-- A settled word of a channel (R299 to R301). -/
def pcvWord (s : State) (k t p : Nat) (w : Int) : State :=
  let x := pcvOf s k
  let mode := rf s .pcv k Reg.PCV.CFG 8 2
  let lim := sw (rg s .pcv k Reg.PCV.OW_LIM)
  let g := rf s .pcv k (Reg.PCV.CH_CFG + 4 * p) 10 3
  let v := pcvCorrect s k g w
  let ovr := v < -8388607 || 8388607 < v
  let r := clampI (-8388607) 8388607 v
  let div := rf s .pcv k Reg.PCV.OW_DIV 0 8
  let test := mode == 2 && div != 0 && (x.scans + 1) % div == 0
  let old := sw (rg s .pcv k (Reg.PCV.RESULT + 4 * p))
  let s1 := if test then
      if ovr || decide (lim < (r - old).natAbs) then pcvOpen s k p else pcvGood s k p
    else
      let s' := wb (wr s .pcv k (Reg.PCV.RESULT + 4 * p) (ofI r)) .pcv k Reg.PCV.OVER p ovr
      let s'' := if ovr then setInt s' .pcv k 3 else s'
      let hit := if rb s'' .pcv k Reg.PCV.CFG 12 then decide (r ≤ -lim) else decide (lim ≤ r)
      let s3 := if mode = 1 then (if hit then pcvOpen s'' k p else pcvGood s'' k p) else s''
      if rb s3 .pcv k Reg.PCV.OPEN p then s3
      else pubIf s3 .pcv k .convEnd (devTime t) (fun e => e.word == Reg.PCV.RESULT / 4 + p)
  s1

/-- What a `PCV` page says of its commands (R303). -/
def pcvRule (s : State) (k code : Nat) : Option CmdRule :=
  match code with
  | 0x01 => some ⟨false, false, firstOf [(!inSt s .pcv k [.idle], .wrongState), (rg s .pcv k Reg.PCV.SCAN == 0, .range)]⟩
  | 0x02 => some ⟨true, false, firstOf [(!inSt s .pcv k [.run], .wrongState)]⟩
  | 0x05 => some ⟨false, false, none⟩
  | 0x07 => some ⟨true, true, firstOf [(!(s.page (pk .pcv k)).busy, .wrongState)]⟩
  | 0x10 => some ⟨false, true, firstOf [((s.page (pk .pcv k)).busy, .busy), (!inSt s .pcv k [.run], .wrongState)]⟩
  | _ => none

/-- The effect of a `PCV` command. -/
def pcvAct (s : State) (k code : Nat) : State :=
  let x := pcvOf s k
  match code with
  | 0x01 =>
    let s1 := wr (setSt s .pcv k .run) .pcv k Reg.PCV.SCAN_CNT 0
    opStart (setPcv s1 k { PcvSt.reset with cal := pcvCals s k, first := true }) .pcv k 1 1 0
  | 0x02 =>
    let s1 := setPcv (setSt s .pcv k .idle) k { x with cal := [], first := false, next := [], conv := none }
    if (s1.page (pk .pcv k)).busy then opFail s1 .pcv k .wrongState 0x010 else s1
  | 0x07 =>
    let s1 := setPcv s k { x with cal := [], first := false, from_ := if x.first then s.lap s.now else x.from_ }
    let s2 := opFail s1 .pcv k .wrongState 0x010
    if x.conv.isSome then s2 else pcvNext (if x.first then pcvApply s2 k else pcvScanEnd s2 k s.now) k s.now (pcvScan s k).head? true
  | 0x10 => opStart (setPcv s k { x with cal := pcvCals s k }) .pcv k 1 1 0
  | _ => s

/-- The tests of a staged `PCV` set (R303, Table 10-9). -/
def pcvValidate (s : State) (k : Nat) : List (Bool × Nat × ErrCode) :=
  let w (o : Nat) : Word := staged s .pcv k o
  let c := w Reg.PCV.CFG
  [(decide (5 < fld c 2 3) || fld c 8 2 == 3 || fld c 10 2 == 3, Reg.PCV.CFG, .range),
   (decide (0xFFFF < (w Reg.PCV.SETTLE).toNat), Reg.PCV.SETTLE, .range),
   (decide (0x7FFFFF < (w Reg.PCV.OW_LIM).toNat), Reg.PCV.OW_LIM, .range),
   (fld c 8 2 == 2 && fld (w Reg.PCV.OW_DIV) 0 8 == 0, Reg.PCV.OW_DIV, .range)] ++
  (List.range 16).flatMap (fun p =>
    let h := w (Reg.PCV.CH_CFG + 4 * p)
    let inp := fld h 0 5
    let inn := fld h 5 5
    let osr := fld (w (Reg.PCV.CH_OSR + 4 * p)) 0 20
    [(decide (18 < inp) || decide (16 < inn), Reg.PCV.CH_CFG + 4 * p, .range),
     (decide (inp < 16) && inp == inn, Reg.PCV.CH_CFG + 4 * p, .conflict),
     (decide (osr < 100) || decide (640000 < osr), Reg.PCV.CH_OSR + 4 * p, .range)])

end Sys2Proof.Machine
end

