-- ==== Sys2Proof/Machine/Blocks.lean ====
section
/-! DEFINITION. The block library of the logic engines (Table 11-2), the costs and bounds of compiled code (R308, R309) and what
the blocks do in a cycle (R309, R321). -/
namespace Sys2Proof.Machine

/-! ## Costs (R308, R309) -/

/-- The cost of a library block in engine cycles (Table 11-2), none for a code that names none. -/
def libCost (typ : Nat) : Option Nat :=
  match typ with
  | 0x01 => some 40
  | 0x02 => some 40
  | 0x03 => some 40
  | 0x04 => some 16
  | 0x05 => some 16
  | 0x06 => some 16
  | 0x07 => some 16
  | 0x08 => some 32
  | 0x09 => some 32
  | 0x0A => some 40
  | 0x10 => some 240
  | 0x11 => some 48
  | 0x12 => some 64
  | 0x13 => some 24
  | 0x14 => some 24
  | 0x15 => some 48
  | 0x16 => some 24
  | 0x20 => some 16
  | 0x21 => some 16
  | _ => none

/-- The instance bytes of a library block (Table 11-2). -/
def libBytes (typ : Nat) : Nat :=
  match typ with
  | 0x01 => 16
  | 0x02 => 16
  | 0x03 => 16
  | 0x04 => 8
  | 0x05 => 8
  | 0x06 => 8
  | 0x07 => 8
  | 0x08 => 16
  | 0x09 => 16
  | 0x0A => 16
  | 0x10 => 64
  | 0x11 => 16
  | 0x12 => 24
  | 0x15 => 16
  | 0x16 => 8
  | _ => 0

/-- Block type codes that are reserved (Table 11-2, R308). -/
def leReserved (typ : Nat) : Bool := typ < 0x8000 && (libCost typ).isNone

/-- Code summed up: `w` for an elementary operation, `f` for a block call, a loop at its declared count (R309). -/
def codeSum (w : Nat) (f : Nat → Nat → Nat) : LeCode → Nat
  | .fin => 0
  | .ops n rest => w * n + codeSum w f rest
  | .call typ part rest => f typ part + codeSum w f rest
  | .loop count body rest => count * codeSum w f body + codeSum w f rest

/-- The greatest of a measure over the block calls of code. -/
def codeGreatest (f : Nat → Nat) : LeCode → Nat
  | .fin => 0
  | .ops _ rest => codeGreatest f rest
  | .call typ _ rest => max (f typ) (codeGreatest f rest)
  | .loop count body rest => max (if count = 0 then 0 else codeGreatest f body) (codeGreatest f rest)

/-- Whether every block call of code passes a test. -/
def codeEvery (f : Nat → Bool) : LeCode → Bool
  | .fin => true
  | .ops _ rest => codeEvery f rest
  | .call typ _ rest => f typ && codeEvery f rest
  | .loop _ body rest => codeEvery f body && codeEvery f rest

/-- The TYPE of a part of code. -/
def codePart (i : Nat) : LeCode → Option Nat
  | .fin => none
  | .ops _ rest => codePart i rest
  | .call typ part rest => if part = i then some typ else codePart i rest
  | .loop _ body rest => (codePart i body).or (codePart i rest)

/-- The user blocks an image defines, by TYPE. -/
abbrev LeEnv : Type := List (Nat × LeCode)

/-- The code of a user block. -/
def LeEnv.body (env : LeEnv) (typ : Nat) : Option LeCode :=
  if typ < 0x8000 then none else (env.find? (fun d => d.1 == typ)).map (fun d => d.2)

/-- The cost of code in engine cycles (R308, R309): an elementary operation 8, a library block by Table 11-2, a user block the sum
of its parts. The number bounds how deep user blocks lie in each other. -/
def codeCost (env : LeEnv) : Nat → LeCode → Nat
  | 0, _ => 0
  | k + 1, c => codeSum 8 (fun typ _ => (libCost typ).getD ((env.body typ).elim 0 (codeCost env k))) c

/-- The longest library block in code (R317). -/
def codeLongest (env : LeEnv) : Nat → LeCode → Nat
  | 0, _ => 0
  | k + 1, c => codeGreatest (fun typ => (libCost typ).getD ((env.body typ).elim 0 (codeLongest env k))) c

/-- Whether code calls only library blocks and user blocks of the image, without recursion (R308, R309). -/
def codeOk (env : LeEnv) : Nat → LeCode → Bool
  | 0, _ => false
  | k + 1, c => codeEvery (fun typ => (libCost typ).isSome || (env.body typ).elim false (codeOk env k)) c

/-- The elementary operations of code, those of its user blocks among them. -/
def codeOps (env : LeEnv) : Nat → LeCode → Nat
  | 0, _ => 0
  | k + 1, c => codeSum 1 (fun typ _ => (env.body typ).elim 0 (codeOps env k)) c

/-- How often a cycle of code evaluates the block at a path, at most: a loop never runs beyond its declared count (R309). -/
def codeTimes (env : LeEnv) : List Nat → LeCode → Nat
  | [], _ => 0
  | [i], c => codeSum 0 (fun _ j => if j = i then 1 else 0) c
  | i :: p, c => codeSum 0 (fun typ j => if j = i then (env.body typ).elim 0 (codeTimes env p) else 0) c

/-- The TYPE of the block at a path of code. -/
def codeTyp (env : LeEnv) : List Nat → LeCode → Option Nat
  | [], _ => none
  | [i], c => codePart i c
  | i :: p, c => match codePart i c with
    | some typ => (env.body typ).bind (codeTyp env p)
    | none => none

/-- The code of a bench: none where the image has no entry for it (Table 11-3). -/
def LeSlot.codeOf (y : LeSlot) (b : Nat) : LeCode :=
  if y.entry.getD b 0xFFFFFFFF = 0xFFFFFFFF then .fin else y.prog.getD b .fin

/-- COST of a bench and its longest library block (R309, R312, R317). -/
def LeSlot.cost (y : LeSlot) (b : Nat) : Nat := codeCost y.env (y.env.length + 1) (y.codeOf b)
def LeSlot.longest (y : LeSlot) (b : Nat) : Nat := codeLongest y.env (y.env.length + 1) (y.codeOf b)

/-! ## Values (Table 11-1, R307) -/

/-- A quotient by a power of two rounded to the nearest integer, halves to even. -/
def halfEven (m k : Nat) : Nat :=
  let q := m / 2 ^ k
  let r := 2 * (m % 2 ^ k)
  if r < 2 ^ k ∨ (r = 2 ^ k ∧ q % 2 = 0) then q else q + 1

/-- A REAL (binary32) written to a Q1.23 signal: rounded to nearest even and saturated (R307), in the slot layout. -/
def realQ23 (w : Word) : BitVec 64 :=
  let e := max 1 (fld w 23 8)
  let m := fld w 0 23 + (if fld w 23 8 = 0 then 0 else 8388608)
  let a : Nat := if 127 ≤ e then m * 2 ^ (min (e - 127) 32) else halfEven m (127 - e)
  BitVec.ofInt 64 (clampI (-8388608) 8388607 (if bit w 31 then -(a : Int) else (a : Int)))

/-- A REAL as its sign and its magnitude in 2⁻¹⁴⁹; exponent 255, which no operation gives, as the greatest finite one. -/
def realParts (w : Word) : Bool × Nat :=
  let e := fld w 23 8
  let m := if e = 255 then 16777215 else fld w 0 23 + (if e = 0 then 0 else 8388608)
  (bit w 31, m * 2 ^ (min (max 1 e) 254 - 1))

/-- A magnitude n / d × 2⁻¹⁴⁹ with its sign as a REAL, to nearest even; beyond the finite range it saturates, which sets ARITH (R307). -/
def realRound (neg : Bool) (n d : Nat) : Word × Bool :=
  let k := Nat.log2 (n / d) - 23
  let den := d * 2 ^ k
  let q := n / den
  let r := 2 * (n % den)
  let m := if r < den ∨ (r = den ∧ q % 2 = 0) then q else q + 1
  let w := k * 8388608 + m
  let sign := if neg then 2147483648 else 0
  if 0x7F800000 ≤ w then (ofN (sign + 0x7F7FFFFF), true) else (ofN (sign + w), false)

/-- A REAL operation: binary32, to nearest even; division by 0 gives 0 and sets ARITH (R307). -/
def realOp (o : LeOp) (x y : Word) : Word × Bool :=
  let (nx, mx) := realParts x
  let (ny, my) := realParts y
  let sum (ny : Bool) : Word × Bool :=
    let v := (if nx then -(mx : Int) else mx) + (if ny then -(my : Int) else my)
    realRound (if v = 0 then nx && ny else decide (v < 0)) v.natAbs 1
  match o with
  | .add => sum ny
  | .sub => sum (!ny)
  | .mul => realRound (nx != ny) (mx * my) (2 ^ 149)
  | .div => if my = 0 then (0, true) else realRound (nx != ny) (mx * 2 ^ 149) my

/-- The fraction bits of a type (Table 1-8). -/
def numFrac : LeNum → Nat
  | .fix => 23
  | .pos => 16
  | _ => 0

/-- A number narrowed to a type: DINT and POS wrap, FIX saturates (Table 11-1). -/
def numNarrow (ty : LeNum) (v : Int) : BitVec 64 :=
  match ty with
  | .dint => BitVec.ofInt 64 (BitVec.ofInt 32 v).toInt
  | .fix => BitVec.ofInt 64 (clampI (-8388608) 8388607 v)
  | _ => BitVec.ofInt 64 v

/-- A quotient in units of a type: of DINT towards 0, of the others to a neighbour of the exact value. -/
def numQuot (ty : LeNum) (n : Int) (d : Nat) : Int :=
  if ty = .dint then Int.tdiv n d else if n % d = 0 then n / d else n / d + (if Config.leUp n d then 1 else 0)

/-- An operation of a type on two values (Table 11-1), and whether it sets ARITH. -/
def leNumOp (ty : LeNum) (o : LeOp) (x y : BitVec 64) : BitVec 64 × Bool :=
  if ty = .real then let r := realOp o (x.setWidth 32) (y.setWidth 32); (r.1.setWidth 64, r.2)
  else
    let a := x.toInt
    let b := y.toInt
    let v := match o with
      | .add => a + b
      | .sub => a - b
      | .mul => numQuot ty (a * b) (2 ^ numFrac ty)
      | .div => if b = 0 then Config.leDivZero a else numQuot ty (a * 2 ^ numFrac ty * b.sign) b.natAbs
    (numNarrow ty v, false)

/-- A comparison of two values of a type. -/
def leCmpOp (ty : LeNum) (o : LeCmp) (x y : BitVec 64) : Bool :=
  let of (v : BitVec 64) : Int :=
    if ty = .real then let p := realParts (v.setWidth 32); if p.1 then -(p.2 : Int) else p.2 else v.toInt
  match o with
  | .eq => of x == of y
  | .lt => decide (of x < of y)
  | .le => decide (of x ≤ of y)

/-- A Q1.23 value as a REAL, which is exact. -/
def q23Real (v : BitVec 64) : Word := (realRound (decide (v.toInt < 0)) (v.toInt.natAbs * 2 ^ 126) 1).1

/-- What the block calls of a cycle have put out so far, in their order. -/
abbrev LeOuts : Type := List (List (BitVec 64))

/-- What the values of a cycle come from: its snapshot, the instances of its bench, and what its block calls have put out. -/
structure LeCtx where
  snap : List (Nat × BitVec 64)
  insts : List LeInst
  outs : LeOuts

/-- Some bytes as a number, least significant first. -/
def leNumber (l : List Byte) : BitVec 64 := l.foldr (fun a v => (v <<< 8) ||| a.setWidth 64) 0

/-- A value of a cycle, and whether computing it sets ARITH (R306, R307). -/
def leVal (c : LeCtx) : LeVal → BitVec 64 × Bool
  | .lit v => (v, false)
  | .sig id => (((c.snap.find? (fun e => e.1 == id)).map (fun e => e.2)).getD 0, false)
  | .out k port => ((c.outs.getD k []).getD port 0, false)
  | .var id off n => (((c.insts.find? (fun i => i.id == id)).map (fun i => leNumber ((i.data.drop off).take (min n 8)))).getD 0, false)
  | .not a => let x := leVal c a; (~~~x.1 &&& 1, x.2)
  | .log o a b =>
    let x := leVal c a
    let y := leVal c b
    (match o with
      | .and => x.1 &&& y.1 &&& 1
      | .or => (x.1 ||| y.1) &&& 1
      | .xor => (x.1 ^^^ y.1) &&& 1, x.2 || y.2)
  | .num ty o a b =>
    let x := leVal c a
    let y := leVal c b
    let r := leNumOp ty o x.1 y.1
    (r.1, x.2 || y.2 || r.2)
  | .cmp ty o a b =>
    let x := leVal c a
    let y := leVal c b
    (if leCmpOp ty o x.1 y.1 then 1 else 0, x.2 || y.2)
  | .toReal a => let x := leVal c a; ((q23Real x.1).setWidth 64, x.2)
  | .ofReal a => let x := leVal c a; (realQ23 (x.1.setWidth 32), x.2)

/-- The elementary operations of a value. -/
def leOps : LeVal → Nat
  | .not a => leOps a + 1
  | .log _ a b => leOps a + leOps b + 1
  | .num _ _ a b => leOps a + leOps b + 1
  | .cmp _ _ a b => leOps a + leOps b + 1
  | .toReal a => leOps a + 1
  | .ofReal a => leOps a + 1
  | _ => 0

/-! ## Library blocks (Table 11-2) -/

/-- A Bool and a number as values in the slot layout. -/
def leBool (b : Bool) : BitVec 64 := if b then 1 else 0
def leInt (i : Int) : BitVec 64 := BitVec.ofInt 64 i

/-- The three timers with input IN and preset PT in µs at an instant of bench time (R309, R321): the memory after it and ET. -/
def leTimer (typ now : Nat) (in_ : Bool) (pt : Nat) (f : LeFb) : LeFb × Nat :=
  match typ with
  | 1 =>
    if in_ then
      let g := if f.run then f else { f with run := true, start := now }
      ({ g with q := decide (pt ≤ now - g.start) }, min pt (now - g.start))
    else ({ f with run := false, q := false }, 0)
  | 2 =>
    if in_ then ({ f with run := false, q := true }, 0)
    else
      let g := if f.q && !f.run then { f with run := true, start := now } else f
      if g.run then ({ g with q := g.q && decide (now - g.start < pt) }, min pt (now - g.start)) else (g, 0)
  | _ =>
    let g := if in_ && !f.run then { f with run := true, start := now } else f
    if g.run then
      let gone := decide (pt ≤ now - g.start)
      ({ g with q := !gone, run := !(gone && !in_) }, min pt (now - g.start))
    else ({ g with q := false }, 0)

/-- A counter after an edge up and an edge down, kept within DINT. -/
def leCount (up down : Bool) (cv : Int) : Int :=
  if up && !down && cv < 2147483647 then cv + 1 else if down && !up && -2147483648 < cv then cv - 1 else cv

/-- What a block whose computation Table 11-2 only names puts out: a BOOL of TPO and HYST, else a finite REAL. -/
def leNamed (typ now : Nat) (ins : List (BitVec 64)) (data : List Byte) : BitVec 64 :=
  let w := Config.blockOut typ now ins data
  if typ = 0x15 ∨ typ = 0x16 then w.setWidth 64 &&& 1
  else (if fld w 23 8 = 255 then (w &&& 0x80000000) ||| 0x7F7FFFFF else w).setWidth 64

/-- One evaluation of a library block of a TYPE at an instant of bench time: its memory after it, and its outputs. The inputs
stand in IEC 61131-3's order. SCALE has no memory, and its result follows from its inputs alone. -/
def LeFb.step (typ now : Nat) (ins : List (BitVec 64)) (f : LeFb) : LeFb × List (BitVec 64) :=
  let b (i : Nat) : Bool := (ins.getD i 0).getLsbD 0
  let v (i : Nat) : Int := (ins.getD i 0).toInt
  let (g, os) : LeFb × List (BitVec 64) := match typ with
    | 1 => let r := leTimer 1 now (b 0) (v 1).toNat f; (r.1, [leBool r.1.q, leInt r.2])
    | 2 => let r := leTimer 2 now (b 0) (v 1).toNat f; (r.1, [leBool r.1.q, leInt r.2])
    | 3 => let r := leTimer 3 now (b 0) (v 1).toNat f; (r.1, [leBool r.1.q, leInt r.2])
    | 4 =>
      let m := if f.used then f.m else b 0
      let q := b 0 && !m
      ({ f with m := b 0, q := q }, [leBool q])
    | 5 =>
      let m := if f.used then f.m else b 0
      let q := m && !b 0
      ({ f with m := b 0, q := q }, [leBool q])
    | 6 => let q := b 0 || (!b 1 && f.q); ({ f with q := q }, [leBool q])
    | 7 => let q := !b 1 && (b 0 || f.q); ({ f with q := q }, [leBool q])
    | 8 =>
      let c := if b 1 then 0 else leCount (b 0 && !f.m) false f.cv
      ({ f with m := b 0, cv := c, q := decide (v 2 ≤ c) }, [leBool (decide (v 2 ≤ c)), leInt c])
    | 9 =>
      let c := if b 1 then v 2 else leCount false (b 0 && !f.m) f.cv
      ({ f with m := b 0, cv := c, q := decide (c ≤ 0) }, [leBool (decide (c ≤ 0)), leInt c])
    | 10 =>
      let c := if b 2 then 0 else if b 3 then v 4 else leCount (b 0 && !f.m) (b 1 && !f.m2) f.cv
      ({ f with m := b 0, m2 := b 1, cv := c, q := decide (v 4 ≤ c) },
        [leBool (decide (v 4 ≤ c)), leInt c, leBool (decide (c ≤ 0))])
    | 0x13 => (f, [leInt (if v 1 < v 0 then v 0 else if v 2 < v 1 then v 2 else v 1)])
    | 0x20 => (f, [ins.getD (if b 0 then 2 else 1) 0])
    | 0x21 => (f, [ins.getD ((v 0).toNat % 8 + 1) 0])
    | 0x14 => (f, [leNamed 0x14 0 ins []])
    | _ => ({ f with data := (List.range (libBytes typ)).map (Config.blockByte typ now ins f.data) }, [leNamed typ now ins f.data])
  ({ g with used := true }, os)

/-- What a block starts with (R321): data of zeros stand for FALSE and 0, others for what the layout makes of them, which is not given. -/
def LeFb.init (typ : Nat) (p : List Nat) (data : List Byte) : LeFb :=
  let w (k : Nat) : BitVec 32 := Config.blockWord typ p data k
  if data.all (fun a => a == 0) then { LeFb.new with data := List.replicate (libBytes typ) 0 }
  else
    { used := false, m := bit (w 0) 0, m2 := bit (w 0) 1, q := bit (w 0) 2, run := bit (w 0) 3, start := (w 1).toNat
      cv := (w 2).toInt
      data := if p.isEmpty then data.take (libBytes typ) else (List.range (libBytes typ)).map (fun j => (w (3 + j)).setWidth 8) }

/-- The memory of a block of an instance, by its path within it and its TYPE. -/
def LeInst.fbAt (i : LeInst) (typ : Nat) (p : List Nat) : LeFb :=
  ((i.fb.find? (fun e => e.1 == p)).map (fun e => e.2)).getD (LeFb.init typ p i.data)

/-- The instance with the memory of one of its blocks replaced. -/
def LeInst.setFb (i : LeInst) (p : List Nat) (f : LeFb) : LeInst :=
  { i with fb := (p, f) :: i.fb.filter (fun e => e.1 != p) }

/-- A cycle of a bench as far as its code has run: the slot, the paths evaluated and their outputs, the writes held until the publication
(R314), whether ARITH is set, and the elementary operations carried out. -/
structure LeRun where
  slot : LeSlot
  seen : List (List Nat)
  outs : LeOuts
  held : List (BitVec 16 × BitVec 64)
  arith : Bool
  ops : Nat

/-- What the values of a cycle of a bench come from at this point. -/
def LeRun.ctx (r : LeRun) (b : Nat) (snap : List (Nat × BitVec 64)) : LeCtx :=
  ⟨snap, r.slot.insts.filter (fun i => i.bench == b), r.outs⟩

/-- A block call: a path the bench's code does not have, or one evaluated beyond its loops' counts, does not run (R309). -/
def leCall (b now : Nat) (r : LeRun) (path : List Nat) (ins : List (BitVec 64)) : LeRun :=
  let y := r.slot
  let typ := (codeTyp y.env path (y.codeOf b)).getD 0
  if codeTimes y.env path (y.codeOf b) ≤ r.seen.count path then { r with outs := r.outs ++ [[]] }
  else
    let mine (i : LeInst) : Bool := i.id == path.headD 0 && i.bench == b
    let f := ((y.insts.find? mine).map (fun i => i.fbAt typ (path.drop 1))).getD (LeFb.init typ [] [])
    let v := f.step typ now ins
    { r with slot := { y with insts := y.insts.map (fun i => if mine i then i.setFb (path.drop 1) v.1 else i) }
             seen := path :: r.seen, outs := r.outs ++ [v.2] }

/-- A value stored into the data of the instance of a user block, least significant byte first. -/
def leStore (b : Nat) (r : LeRun) (id off n : Nat) (v : BitVec 64) : LeRun :=
  let put (i : LeInst) : LeInst :=
    if i.id == id && i.bench == b && 0x8000 ≤ i.typ && off + n ≤ i.data.length && n ≤ 8 then
      { i with data := i.data.take off ++ (List.range n).map (fun k => (v >>> (8 * k)).setWidth 8) ++ i.data.drop (off + n) }
    else i
  { r with slot := { r.slot with insts := r.slot.insts.map put } }

/-- A write held: the last one of a signal stands. -/
def leHold (r : LeRun) (id : BitVec 16) (v : BitVec 64) : LeRun := { r with held := r.held.filter (fun e => e.1 != id) ++ [(id, v)] }

/-- The elementary operations of an act. -/
def leActOps : LeAct → Nat
  | .call _ ins => ins.foldl (fun n v => n + leOps v) 0
  | .store _ _ _ v => leOps v
  | .write _ v => leOps v
  | .eval v => leOps v

/-- One act of a cycle of a bench; beyond the elementary operations its code has, nothing runs (R308, R309). -/
def leAct1 (b now : Nat) (snap : List (Nat × BitVec 64)) (r : LeRun) (a : LeAct) : LeRun :=
  let c := r.ctx b snap
  if codeOps r.slot.env (r.slot.env.length + 1) (r.slot.codeOf b) < r.ops + leActOps a then r
  else
    let s (v : LeVal) : LeRun := { r with ops := r.ops + leActOps a, arith := r.arith || (leVal c v).2 }
    match a with
    | .call path ins =>
      leCall b now { r with ops := r.ops + leActOps a, arith := r.arith || ins.any (fun v => (leVal c v).2) } path (ins.map (fun v => (leVal c v).1))
    | .store id off n v => leStore b (s v) id off n (leVal c v).1
    | .write id v => leHold (s v) id (leVal c v).1
    | .eval v => s v

/-- A cycle of a bench in the slot it runs, at its release instant in µs of bench time (R309, R314). -/
def leCycle (b now : Nat) (snap : List (Nat × BitVec 64)) (acts : List LeAct) (y : LeSlot) : LeRun :=
  acts.foldl (leAct1 b now snap) ⟨y, [], [], [], false, 0⟩

end Sys2Proof.Machine
end

