-- ==== Sys2Proof/Machine/Mem.lean ====
section
/-! DEFINITION. The address map and who may reach it (R25 to R29), the fabric error log (R32, R33), and the memory
controllers: errors of memory words and scrubbing (R33 to R35). -/
namespace Sys2Proof.Machine

/-! ## Access (Table 1-10, Table 1-11) -/

/-- Where an address lies: its range of Table 1-10. -/
inductive Region where
  | bootRom | lcMem (core : Nat) | sram | xip (n : Nat) | pages | image | sigTable | pricking | dram | none
  deriving DecidableEq, Repr

/-- The range of an address (R25). -/
def regionOf (a : Nat) : Region :=
  if a < 0x40000 then .bootRom
  else if 0x0C000000 ≤ a && (a - 0x0C000000) / 0x100000 < 18 && (a - 0x0C000000) % 0x100000 < 0x30000 then
    .lcMem ((a - 0x0C000000) / 0x100000)
  else if 0x10000000 ≤ a && a < 0x11000000 then .sram
  else if 0x20000000 ≤ a && a < 0x30000000 then .xip 0
  else if 0x30000000 ≤ a && a < 0x40000000 then .xip 1
  else if 0x40000000 ≤ a && a < 0x50000000 then .pages
  else if 0x50000000 ≤ a && a < 0x50400000 then .image
  else if 0x50400000 ≤ a && a < 0x50500000 then .sigTable
  else if 0x60000000 ≤ a && a < 0x60200000 then .pricking
  else if 0x800000000 ≤ a && a < 0xC00000000 then .dram
  else .none

/-- Whether a master may make an access to in-package DRAM (Table 1-11); a fixed-function block acts for its chapter. -/
def dramAllows (s : State) (m : Master) (a : Nat) (write : Bool) : Bool :=
  if m = .fixedBlock then true
  else if a < apBase s then !write
  else if a < loopBase s then m.isAp || m.isHost
  else if write then m.isAp || m = .pcieHost || m = .hsp
  else match m with
    | .lc _ => true
    | _ => false

/-- Whether the DRAM of an address can be reached: its controller has power and has been trained (R510). -/
def dramUp (s : State) (a : Nat) : Bool :=
  powered s .mem (a / 256 % 2) && rb s .mem (a / 256 % 2) Reg.MEM.STAT 0

/-- Whether a master may make an access, by the access column of its range: no master writes the boot ROM, the XIP windows or the signal
table, which changes through SIG alone (R16). -/
def allows (s : State) (m : Master) (a : Nat) (write : Bool) : Bool :=
  match regionOf a with
  | .bootRom => m = .sc && !write
  | .lcMem c => !write || (match m with | .lc k => k.val == c | _ => false) || standby s c || (SMap.get (fun _ => LcSt.reset) s.lcs c).halt != 0
  | .xip _ => !write
  | .sigTable => !write
  | .dram => dramUp s a && dramAllows s m a write
  | .none => false
  | _ => true

/-- How an access ends (R27). -/
def busEnd (s : State) (m : Master) (a : Nat) (write : Bool) : BusEnd :=
  if regionOf a = .none then .undecoded else if allows s m a write then .ok else .denied

/-! ## The fabric error log (R32) -/

/-- STAT of FAB: the entries and OVF. -/
def fabShow (s : State) : State := wf s .fab 0 Reg.FAB.STAT 0 5 s.fabLog.length

/-- An error response is logged. -/
def fabError (s : State) (m : Master) (a kind : Nat) (write : Bool) : State :=
  if !powered s .fab 0 then s
  else
    let e : FabEnt := ⟨a, m.code, kind, write, devTime s.now⟩
    let full := decide (16 ≤ s.fabLog.length)
    let keep := rb s .fab 0 Reg.FAB.CFG 0
    let s1 := if full then
        setInt (wb (incSat s .fab 0 Reg.FAB.LOG_OVF) .fab 0 Reg.FAB.STAT 8 true) .fab 0 1
      else s
    let s2 := if full && keep then s1 else { s1 with fabLog := (if full then s.fabLog.drop 1 else s.fabLog) ++ [e] }
    setInt (fabShow s2) .fab 0 0

/-- An access that ends with an error response (R27): logged, and answered with the kind of error. -/
def busError (s : State) (m : Master) (a : Nat) (write : Bool) : State :=
  match busEnd s m a write with
  | .ok => s
  | .undecoded => { fabError s m a 0 write with resp := ⟨0, 0, .undecoded⟩ }
  | _ => { fabError s m a 1 write with resp := ⟨0, 0, .denied⟩ }

/-- The entry that LOG_IDX selects. -/
def fabEntry (s : State) : Option FabEnt := s.fabLog[rf s .fab 0 Reg.FAB.LOG_IDX 0 4]?

/-- A word of an entry, by its register (Table 1-13). -/
def FabEnt.word (e : FabEnt) (off : Nat) : Word :=
  if off = Reg.FAB.LOG_ADDR_LO then ofN e.addr
  else if off = Reg.FAB.LOG_ADDR_HI then ofN (e.addr / 4294967296)
  else if off = Reg.FAB.LOG_INFO then ofN (e.master + 256 * e.kind + 4096 * b2n e.write)
  else if off = Reg.FAB.LOG_TS_LO then tsLo e.ts
  else tsHi e.ts

/-- What the log registers read; 0 while the log is empty. -/
def fabLogWord (s : State) (off : Nat) : Word :=
  match fabEntry s with
  | some e => e.word off
  | none => 0

/-- A write of LOG_IDX selects an entry by age, or is ignored with RANGE. -/
def fabLogIdx (s : State) (v : Word) : State :=
  if fld v 0 4 < s.fabLog.length then wr s .fab 0 Reg.FAB.LOG_IDX (ofN (fld v 0 4))
  else rejWr s .fab 0 .range Reg.FAB.LOG_IDX

/-- What the FAB page says of its commands (R33). -/
def fabRule (code : Nat) : Option CmdRule :=
  match code with
  | 0x05 => some ⟨false, true, none⟩
  | 0x10 => some ⟨false, true, none⟩
  | _ => none

/-- CLEAR_LOG empties the log (R33). -/
def fabAct (s : State) (code : Nat) : State :=
  match code with
  | 0x10 => fabShow (wb (wr { s with fabLog := [] } .fab 0 Reg.FAB.LOG_OVF 0) .fab 0 Reg.FAB.STAT 8 false)
  | _ => s

/-! ## Errors of memory words (R33, R34) -/

/-- The controller of an address: they interleave every 256 bytes. -/
def memCtl (a : Nat) : Nat := a / 256 % 2

/-- A word of DRAM that a reader met was corrected, or cannot be (R34). -/
def dramEcc (s : State) (ue : Bool) (a : Nat) : State :=
  let n := memCtl a
  if !powered s .mem n then s
  else if ue then
    raiseG (setInt (wr64 (incSat s .mem n Reg.MEM.UE_CNT) .mem n Reg.MEM.UE_ADDR_LO a) .mem n 1) 0x0A .mem n 0 (0x5000 + n)
      0xFFFFFFFF
  else setInt (wr64 (incSat s .mem n Reg.MEM.CE_CNT) .mem n Reg.MEM.CE_ADDR_LO a) .mem n 0

/-- A word of shared SRAM (kind 4), or of the process image or the signal table (kind 6) (R33). -/
def fabEcc (s : State) (ue : Bool) (a kind cnt : Nat) : State :=
  if !powered s .fab 0 then s
  else if ue then
    raiseG (setInt (wr64 s .fab 0 Reg.FAB.UE_ADDR_LO a) .fab 0 2) 0x0A .fab 0 0 (4096 * kind) 0xFFFFFFFF
  else incSat s .fab 0 cnt

/-- An error of the word at an address that a read met; loop-core memories report to their core (R183). -/
def memEcc (s : State) (ue : Bool) (a : Nat) : State :=
  match regionOf a with
  | .dram => dramEcc s ue a
  | .sram => fabEcc s ue a 4 Reg.FAB.SRAM_CE_CNT
  | .image => fabEcc s ue a 6 Reg.FAB.PI_CE_CNT
  | .sigTable => fabEcc s ue a 6 Reg.FAB.PI_CE_CNT
  | _ => s

/-- The errors a step's reads met, each uncorrectable or corrected, at its address. -/
def eccAll (s : State) (l : List (Bool × Nat)) : State := l.foldl (fun s (e : Bool × Nat) => memEcc s e.1 e.2) s

/-- The errors of a list that a read of the word at an address meets: those of its 64-bit word (R33, R34). -/
def eccAt (ecc : List (Bool × Nat)) (a : Nat) : List (Bool × Nat) := ecc.filter (fun e => e.2 / 8 == a / 8)

/-- Whether a read of the word at an address meets an uncorrectable word of DRAM, which it delivers with an error response (R34). -/
def eccFails (ecc : List (Bool × Nat)) (a : Nat) : Bool := inDram a 1 && (eccAt ecc a).any (fun e => e.1)

/-- Whether a block's read of `n` bytes at an address met an uncorrectable word. -/
def eccSpoils (ecc : List (Bool × Nat)) (a n : Nat) : Bool :=
  ecc.any (fun e => e.1 && decide (a / 8 * 8 ≤ e.2) && decide (e.2 < a + n))

/-- An error of a word that a block's own read met: counted, and in DRAM delivered with an error response where the word cannot be
corrected, which the log shows for the master (R27, R32 to R34; its KIND is log entry 34's). -/
def eccWord (m : Master) (s : State) (e : Bool × Nat) : State :=
  let s1 := memEcc s e.1 e.2
  if e.1 && inDram e.2 1 then fabError s1.next m e.2 (b2n (Config.freeBool s1.seed)) false else s1

/-- The errors a block's read of `n` bytes at an address met. -/
def eccRead (s : State) (m : Master) (ecc : List (Bool × Nat)) (a n : Nat) : State :=
  (ecc.filter (fun e => decide (a / 8 * 8 ≤ e.2) && decide (e.2 < a + n))).foldl (eccWord m) s

/-- A read that met an uncorrectable word of DRAM: the error response of R27, logged by R32. The kinds of Table 1-13 name neither of its
causes, so LOG_INFO.KIND is a free one of the two (log entry 34). -/
def eccError (s : State) (m : Master) (a : Nat) : State :=
  { fabError s.next m a (b2n (Config.freeBool s.seed)) false with resp := ⟨0, 0, .uncorrectable⟩ }

/-! ## Scrubbing (R35) -/

/-- What a MEM page says of its commands: ABORT needs no pass in progress to be named, and has an effect only in one. -/
def memRule (s : State) (n code : Nat) : Option CmdRule :=
  let busy := (s.page (pk .mem n)).busy
  match code with
  | 0x05 => some ⟨false, true, none⟩
  | 0x07 => some ⟨false, true, firstOf [(!busy, .wrongState)]⟩
  | 0x10 => some ⟨false, true, firstOf [(busy, .busy)]⟩
  | _ => none

/-- SCRUB starts a pass; ABORT ends it in PHASE 14. -/
def memAct (s : State) (n code : Nat) : State :=
  match code with
  | 0x07 => opFail s .mem n .wrongState 0x010
  | 0x10 => opStart s .mem n 1 1 0
  | _ => s

/-- A full pass ends, having read every word of its channel: the errors it met are counted and reported (R34), and it is counted; a
commanded one ends its long operation. `ecc`: those errors; a corrected word is written back and reads as before. -/
def scrubPass (s : State) (n : Nat) (commanded : Bool) (ecc : List (Bool × Nat)) : State :=
  let s0 := eccAll s (ecc.filter (fun e => inDram e.2 1 && memCtl e.2 == n))
  let s1 := incWrap s0 .mem n Reg.MEM.SCRUB_CNT
  if commanded then setInt (opDone s1 .mem n) .mem n 2 else s1

/-- A background pass ends, at least SCRUB_HOURS after the one before it (R35). -/
def scrubBack (s : State) (n t : Nat) (ecc : List (Bool × Nat)) : State :=
  if SMap.get (fun _ => 0) s.scrubAt n + perS * 3600 * rf s .mem n Reg.MEM.CFG 16 16 ≤ s.lap t then
    scrubPass { s with scrubAt := SMap.insert s.scrubAt n (s.lap t) } n false ecc
  else s

/-- The test of a staged MEM set (R35). -/
def memValidate (s : State) (n : Nat) : List (Bool × Nat × ErrCode) :=
  [(stf s .mem n Reg.MEM.CFG 16 16 == 0, Reg.MEM.CFG, .range)]

end Sys2Proof.Machine
end

