-- ==== Sys2Proof/Machine/Le.lean ====
section
/-! DEFINITION. The logic engines (R305 to R327): loading a program, benches and their cycles, budgets, the watchdog. -/
namespace Sys2Proof.Machine

/-! ## The program image (R310, R311) -/

/-- One instance record and the address after it (Table 11-4). -/
def leRecord (s : State) (a : Nat) : LeInst × Nat :=
  let w1 := mem32 s (a + 4)
  let n := 8 * fld w1 20 12
  (⟨(mem32 s a).toNat, fld w1 0 16, fld w1 16 2, (mem32 s (a + 8)).toNat,
    (List.range n).map (fun i => mem8 s (a + 16 + i)), [], false⟩, a + 16 + n)

/-- `n` instance records from an address that end before another one, or none where they do not fit. -/
def leRecords (s : State) (stop : Nat) : Nat → Nat → Option (List LeInst)
  | 0, a => if a ≤ stop then some [] else none
  | n + 1, a =>
    if stop < a + 16 then none
    else (leRecords s stop n (leRecord s a).2).map (fun l => (leRecord s a).1 :: l)

/-- An entry of the signal list. -/
def leSigEntry (w : Word) : LeSig := ⟨fld w 0 16, fld w 16 2, fld w 18 2, bit w 20⟩

/-- A word of the header of an image at an address. -/
def imgW (s : State) (a o : Nat) : Nat := (mem32 s (a + o)).toNat

/-- The failure of a load: the PGERR code, LOAD_ERR.KIND and ITEM. -/
abbrev LoadFail : Type := ErrCode × Nat × Nat

/-- The first header word of an image that fails, by its offset: the address, MAGIC, the lengths (R310, R312). -/
def leHeaderBad (s : State) (a : Nat) : Option Nat :=
  let len := imgW s a 4
  let bad : List (Bool × Nat) :=
    [(a % 8 != 0 || !inDram a 64 || imgW s a 0 != 0x4C450001, 0),
     (decide (len < 64) || !inDram a len, 4),
     (decide (imgW s a 8 < 64) || decide (len < imgW s a 8 + imgW s a 12), 8),
     (decide (imgW s a 0x10 < 64) || decide (len < imgW s a 0x10 + 16 * imgW s a 0x14), 0x10),
     (decide (imgW s a 0x18 < 64) || decide (len < imgW s a 0x18 + 4 * imgW s a 0x1C), 0x18)] ++
    (List.range 4).map (fun b =>
      let e := imgW s a (0x20 + 4 * b)
      (e != 0xFFFFFFFF && decide (imgW s a 12 ≤ e), 0x20 + 4 * b))
  (bad.find? (fun x => x.1)).map (fun x => x.2)

/-- The CRC of the body of an image (R310). -/
def imgCrc (s : State) (a : Nat) : Word := crc32c (memBytes s (a + 64) (imgW s a 4 - 64))

/-- A matched instance of a running slot: the same ID, bench, TYPE and HASH (Table 11-5). -/
def LeInst.same (i j : LeInst) : Bool := i.id == j.id && i.bench == j.bench && i.typ == j.typ && i.hash == j.hash

/-- The instances of a running slot. -/
def oldInsts (o : Option LeSlot) : List LeInst := match o with
  | some y => y.insts
  | none => []

/-- INST_KEPT, INST_NEW, INST_REPLACED and INST_REMOVED (Table 11-5). -/
def leCounts (old new : List LeInst) : Nat × Nat × Nat × Nat :=
  let kept := (new.filter (fun i => old.any (fun j => i.same j))).length
  let has (l : List LeInst) (i : LeInst) : Bool := l.any (fun j => j.id == i.id)
  let fresh := (new.filter (fun i => !has old i)).length
  (kept, fresh, new.length - kept - fresh, (old.filter (fun j => !has new j)).length)

/-- Why a signal-list entry fails PHASE 3: its type, and for a write its source (R306, R312, R316). -/
def leSigBad (s : State) (e : Nat) (g : LeSig) : Bool :=
  let x := sigEnt s g.id
  x.typ != g.typ || (g.out && !(x.en && x.from .le e && x.word == g.bench && x.lsb == 0 && x.upd == UpdEv.bench.num))

/-- The image at an address as a program slot for an engine, or why it is refused (R312). `spoilt`: one of its words cannot be corrected,
which fails its CRC (log entry 34). `prog` and `env` are what the bytes of
its code section hold, the code of each bench and the user blocks: the spec does not give the code's format. -/
def leLoad (s : State) (e a : Nat) (prog : List LeCode) (env : LeEnv) (spoilt : Bool) : Except LoadFail LeSlot :=
  let old := (leOf s e).slot (leRunning s e)
  match leHeaderBad s a with
  | some o => .error (.range, 1, o)
  | none =>
    if spoilt || imgCrc s a != mem32 s (a + 0x30) then .error (.crcMismatch, 2, 0x30)
    else
      match leRecords s (a + imgW s a 4) (imgW s a 0x14) (a + imgW s a 0x10) with
      | none => .error (.range, 1, 0x10)
      | some recs =>
        let list := (List.range (imgW s a 0x1C)).map (fun i => leSigEntry (mem32 s (a + imgW s a 0x18 + 4 * i)))
        let marked := recs.map (fun i => if (oldInsts old).any (fun j => i.same j) then { i with kept := true } else i)
        let slot : LeSlot := { src := a, crc := imgCrc s a, code := imgW s a 12, insts := marked, list := list,
                               entry := (List.range 4).map (fun b => imgW s a (0x20 + 4 * b)),
                               prog := prog, env := env }
        match recs.findIdx? (fun i => leReserved i.typ) with
        | some k => .error (.range, 3, k)
        | none =>
          if !benchNos.all (fun b => codeOk env (env.length + 1) (slot.codeOf b)) then .error (.range, 3, recs.length)
          else if 0x100000 < lePrgUsed s + slot.code then .error (.memExceeded, 5, 12)
          else if 0x400000 < leInstUsed s + slot.bytes then .error (.memExceeded, 5, 0x10)
          else if 65536 < leInstCount s + slot.count then .error (.memExceeded, 6, recs.length)
          else match list.find? (leSigBad s e) with
            | some g => .error (.conflict, 4, g.id)
            | none => .ok slot

/-- The standby slot of an engine freed. -/
def leFree (s : State) (e : Nat) : State :=
  lePools (wb (setLe s e ((leOf s e).setSlot (1 - leRunning s e) none)) .le e Reg.LE.STAT 8 false)

/-- A load ends (R312). -/
def leLoadEnd (s : State) (e : Nat) (prog : List LeCode) (env : LeEnv) (spoilt : Bool) : State :=
  match (leOf s e).src with
  | none => s
  | some a =>
    let s0 := setLe s e { leOf s e with src := none }
    let k := 1 - leRunning s e
    match leLoad s0 e a prog env spoilt with
    | .error (c, kind, item) =>
      let s1 := if kind < 3 then setProg s0 .le e 3 1 0 else setProg s0 .le e 1 2 0
      setInt (wr (opFail s1 .le e c 0x010) .le e Reg.LE.LOAD_ERR (ofN (kind * 16777216 + item % 16777216))) .le e 2
    | .ok y =>
      let n := leCounts (oldInsts ((leOf s0 e).slot (leRunning s0 e))) y.insts
      let s1 := wb (setLe s0 e ((leOf s0 e).setSlot k (some y))) .le e Reg.LE.STAT 8 true
      let s2 := benchNos.foldl (fun s b => wr s .le e (Reg.LE.COST + 16 * k + 4 * b) (ofN (y.cost b))) s1
      let s3 := [(Reg.LE.INST_KEPT, n.1), (Reg.LE.INST_NEW, n.2.1), (Reg.LE.INST_REPLACED, n.2.2.1),
        (Reg.LE.INST_REMOVED, n.2.2.2), (Reg.LE.LOAD_ERR, 0)].foldl (fun s x => wr s .le e x.1 (ofN x.2)) s2
      lePools (setInt (opDone s3 .le e) .le e 1)

/-! ## Budgets (R317) -/

/-- Reads and writes of a bench on the signal list of a slot. -/
def LeSlot.ins (y : LeSlot) (b : Nat) : Nat := (y.list.filter (fun g => !g.out && g.bench == b)).length
def LeSlot.outs (y : LeSlot) (b : Nat) : Nat := (y.list.filter (fun g => g.out && g.bench == b)).length

/-- C_b of a slot: its COST, the cycle start and snapshot, and the publication. -/
def LeSlot.total (y : LeSlot) (b : Nat) : Nat := y.cost b + 120 + (y.ins b + 1) / 2 + y.outs b

/-- The longest section of a bench without a pre-emption point. -/
def LeSlot.section_ (y : LeSlot) (b : Nat) : Nat := max (y.longest b) (max ((y.ins b + 1) / 2) (y.outs b))

/-- A measure of a bench over the slots a commit leaves in play: during an exchange the greater of the two (R317); `none_`: of a slot without
a program. -/
def leOver (s : State) (e none_ : Nat) (f : LeSlot → Nat) : Nat :=
  let x := leOf s e
  let k := leRunning s e
  let of (o : Option LeSlot) : Nat := match o with
    | some y => f y
    | none => none_
  let new := stf s .le e Reg.LE.PRG_SLOT 0 1
  if new = k then of (x.slot k) else max (of (x.slot k)) (of (x.slot new))

/-- The staged settings of a bench: enabled, period in µs, budget in percent. -/
def leStEn (s : State) (e b : Nat) : Bool := bit (staged s .le e (Reg.LE.BENCH_CTRL + 16 * b)) 0
def leStPeriod (s : State) (e b : Nat) : Nat := (staged s .le e (Reg.LE.BENCH_PERIOD + 16 * b)).toNat
def leStBudget (s : State) (e b : Nat) : Nat := stf s .le e (Reg.LE.BENCH_BUDGET + 16 * b) 0 7

/-- The least R with R = base + Σ ⌈R / P⌉ × C over the higher benches, from below, or any value beyond the limit. -/
def leBound (hs : List (Nat × Nat)) (base limit : Nat) : Nat → Nat → Nat
  | 0, r => r
  | k + 1, r =>
    let r' := base + hs.foldl (fun n h => n + cdiv r h.1 * h.2) 0
    if r' = r ∨ limit < r then r else leBound hs base limit k r'

/-- The response bound R_b of the staged set, in engine cycles of 2.5 ns (R317). -/
def leRb (s : State) (e b : Nat) : Nat :=
  let c := leOver s e 120 (fun y => y.total b)
  let low := (benchNos.filter (fun l => decide (b < l) && leStEn s e l)).foldl (fun m l => max m (leOver s e 0 (fun y => y.section_ l))) 0
  let hs := (benchNos.filter (fun h => decide (h < b) && leStEn s e h)).map (fun h =>
    (400 * leStPeriod s e h, leOver s e 120 (fun y => y.total h)))
  leBound hs (c + low) (400 * leStPeriod s e b) 30001 (c + low)

/-- Whether R_b exceeds BENCH_BUDGET[b] percent of the period. -/
def leOverBudget (s : State) (e b : Nat) : Bool :=
  leStEn s e b && decide (400 * leStPeriod s e b * leStBudget s e b < 100 * leRb s e b)

/-- The tests of a staged LE set (R319, R326). -/
def leValidate (s : State) (e : Nat) : List (Bool × Nat × ErrCode) :=
  (changed s .le e Reg.LE.PRG_SLOT && !rb s .le e Reg.LE.STAT 8, Reg.LE.PRG_SLOT, .wrongState) ::
  benchNos.flatMap (fun b =>
    let p := leStPeriod s e b
    let ph := (staged s .le e (Reg.LE.BENCH_PHASE + 16 * b)).toNat
    let bu := leStBudget s e b
    [(decide (p < 100) || decide (1000000 < p), Reg.LE.BENCH_PERIOD + 16 * b, .range),
     (decide (p ≤ ph), Reg.LE.BENCH_PHASE + 16 * b, .range),
     (decide (bu < 10) || decide (100 < bu), Reg.LE.BENCH_BUDGET + 16 * b, .range),
     (leOverBudget s e b, Reg.LE.BENCH_BUDGET + 16 * b, .budget)])

/-- An accepted commit: B_BOUND shows R_b of the enabled benches, and the commit goes as far as it can. -/
def leAccepted (s : State) (e : Nat) : State :=
  leCommitStep (benchNos.foldl (fun s' b =>
    if leStEn s e b then wr s' .le e (Reg.LE.B_BOUND + 16 * b) (ofN (leRb s e b)) else s') s) e

/-! ## Benches (R313, R314, R318) -/

/-- Whether an elapsed time is a release instant of a bench: T₀ + PHASE + k × PERIOD on bench time (R313). -/
def leReleaseAt (s : State) (e b u : Nat) : Bool :=
  let first := (leOf s e).t0 + 8000 * (rg s .le e (Reg.LE.BENCH_PHASE + 16 * b)).toNat
  let p := 8000 * (rg s .le e (Reg.LE.BENCH_PERIOD + 16 * b)).toNat
  decide (first ≤ u) && decide (0 < p) && (u - first) % p == 0

/-- A bench is released (R313). -/
def leRelease (s : State) (e b t : Nat) : State :=
  let s1 := s.at t
  let u := s1.lap t
  let x := leOf s1 e
  let y := x.bench b
  if stOf s1 .le e == .run && leBenchEn s1 e b && leReleaseAt s1 e b u && y.last != some u then
    setLe s1 e (x.setBench b { y with rel := y.rel.or (some u), last := some u })
  else s1

/-- Whether a released bench may start its cycle: no higher bench is released or in progress (R314). -/
def leMayStart (s : State) (e b : Nat) : Bool :=
  let x := leOf s e
  (x.bench b).rel.isSome && !(x.bench b).run && inSt s .le e [.run, .hold] &&
    benchNos.all (fun h => decide (b ≤ h) || (x.bench h).rel.isNone)

/-- The signals a bench reads in the slot it runs. -/
def leReads (s : State) (e b : Nat) : List Nat :=
  match (leOf s e).slot (leSlotAct s e b) with
  | some y => (y.list.filter (fun g => !g.out && g.bench == b)).map (fun g => g.id)
  | none => []

/-- The errors of the process image that the snapshot of some signals met (R33). -/
def leSnapEcc (s : State) (ids : List Nat) (ecc : List (Bool × Nat)) : State :=
  (ecc.filter (fun x => ids.any (fun i => x.2 / 64 == (0x50000000 + 64 * i) / 64))).foldl (fun s x => memEcc s x.1 x.2) s

/-- A cycle starts with its snapshot (R22, R314); `ecc`: the wrong words of the process image that it met. -/
def leStart (s : State) (e b : Nat) (ecc : List (Bool × Nat)) : State :=
  let x := leOf s e
  let ids := leReads s e b
  let s1 := setLe s e (x.setBench b { x.bench b with run := true, snap := ids.map (fun i => (i, sigVal s i)) })
  leSnapEcc (leShow s1 e) ids ecc

/-- How far a released cycle lies beyond BENCH_BUDGET percent of its period since its release, in hundredths of a step (R318). -/
def leBeyond (s : State) (e b u : Nat) : Int :=
  100 * ((s.lap s.now - u : Nat) : Int) -
    ((8000 * (rg s .le e (Reg.LE.BENCH_PERIOD + 16 * b)).toNat * rf s .le e (Reg.LE.BENCH_BUDGET + 16 * b) 0 7 : Nat) : Int)

/-- Whether the budget of a released cycle that has not ended has run out, and whether it ran out before now (R318). -/
def leOverdue (s : State) (e b : Nat) : Bool := ((leOf s e).bench b).rel.any (fun u => decide (0 ≤ leBeyond s e b u))
def leTooLate (s : State) (e b : Nat) : Bool := ((leOf s e).bench b).rel.any (fun u => decide (0 < leBeyond s e b u))

/-- The engine watchdog trips (R318): cause 1 the budget, 2 an access error; `i` is the index of the running instance. -/
def leTrip (s : State) (e b cause i : Nat) : State :=
  let s1 := leStop s e .safe
  let s2 := setInt (wr s1 .le e Reg.LE.WDOG_INFO (ofN (b + 16 * cause + 65536 * i))) .le e 0
  raise s2 0x1A .le e 0 (b + 16 * cause)

/-- Whether an entry is a signal of a bench of an engine (R316). -/
def leOwns (e b : Nat) (x : SigEntry) : Bool := x.from .le e && x.word == b

/-- One write of a cycle published at its end (R314, R316). -/
def lePublish (e b : Nat) (s : State) (w : BitVec 16 × BitVec 64) : State :=
  let own := leOwns e b (sigEnt s w.1.toNat)
  let s1 := pubBy s (leOwns e b) w.1.toNat w.2 (devTime s.now)
  if own then s1 else setInt s1 .le e 5

/-- A cycle ends: it publishes every signal it wrote, stamped with its end; one that ends too late has tripped the watchdog, and none ends
while a higher bench has a cycle in progress (R314, R318). `acts`: what its code does, on its snapshot, with its release instant as now
(R309). -/
def leEnd (s : State) (e b : Nat) (acts : List LeAct) : State :=
  let x := leOf s e
  let y := x.bench b
  if !y.run || benchNos.any (fun h => decide (h < b) && (x.bench h).run) then s
  else if leTooLate s e b then leTrip s.next e b 1 ((Config.free32 s.seed).toNat % 65536)
  else
    let k := leSlotAct s e b
    let resp := (s.lap s.now - y.rel.getD 0) / 20
    let r := (x.slot k).map (leCycle b (y.rel.getD 0 / 8000) y.snap acts)
    let s1 := setLe s e ((x.setSlot k (r.map (fun z => z.slot))).setBench b { y with rel := none, run := false, snap := [] })
    let s2 := ((r.map (fun z => z.held)).getD []).foldl (lePublish e b) s1
    let s3 := if r.any (fun z => z.arith) then setInt (wb s2 .le e Reg.LE.STAT 10 true) .le e 6 else s2
    let s4 := wr (incWrap s3 .le e (Reg.LE.B_CNT + 16 * b)) .le e (Reg.LE.B_LAST + 16 * b) (ofN resp)
    let s5 := if (rg s4 .le e (Reg.LE.B_MAX + 16 * b)).toNat < resp then wr s4 .le e (Reg.LE.B_MAX + 16 * b) (ofN resp) else s4
    leShow s5 e

/-- An uncorrectable error in the running slot puts the engine in FAULT (Table 11-7). -/
def leUe (s : State) (e : Nat) : State := if stOf s .le e == .off then s else leStop s e .fault

/-! ## Commands (R312, R324, R325) -/

/-- What an LE page says of its commands. -/
def leRule (s : State) (e code : Nat) : Option CmdRule :=
  let exch := leExchanging s e
  let loading := (leOf s e).src.isSome
  let off := stOf s .le e == .off
  let run := leRunning s e
  let a := rgU64 s .le e Reg.LE.LOAD_SRC_LO
  let gone : Bool := match (leOf s e).slot run with
    | some y => (leHeaderBad s a).isSome || imgCrc s a != y.crc || mem32 s (a + 0x30) != y.crc
    | none => true
  match code with
  | 0x01 => some ⟨false, false, firstOf [(!inSt s .le e [.idle] || blocked s .le e, .wrongState)]⟩
  | 0x02 => some ⟨true, inSt s .le e [.hold, .safe], firstOf [(!inSt s .le e [.run, .hold, .safe], .wrongState)]⟩
  | 0x03 => some ⟨true, false, firstOf [(!holdable s .le e, .wrongState)]⟩
  | 0x04 => some ⟨false, false, firstOf [(!inSt s .le e [.hold] || blocked s .le e, .wrongState)]⟩
  | 0x05 => some ⟨false, false, none⟩
  | 0x06 => some ⟨false, true, firstOf [(!inSt s .le e [.fault] || !rb s .le e Reg.LE.STAT 8, .wrongState)]⟩
  | 0x07 => some ⟨true, true, firstOf [(!loading, .wrongState)]⟩
  | 0x10 => some ⟨false, true, firstOf [(off, .wrongState), (leProgCommit s e || loading, .busy)]⟩
  | 0x11 => some ⟨false, true, firstOf [(off || exch, .wrongState)]⟩
  | 0x12 => some ⟨false, true, firstOf [(!inSt s .le e [.idle], .wrongState), (gone, .notPresent)]⟩
  | _ => none

/-- The initial data of the instances of an image at an address. -/
def leInitial (s : State) (a : Nat) (y : LeSlot) : LeSlot :=
  match leRecords s (a + imgW s a 4) (imgW s a 0x14) (a + imgW s a 0x10) with
  | some recs => { y with insts := recs }
  | none => y

/-- CLEAR_FAULT switches every bench to the standby slot, whose instances start at their initial data, and frees the faulty
one (R324). -/
def leClearFault (s : State) (e : Nat) : State :=
  let old := leRunning s e
  let x := leOf s e
  let fresh (y : LeSlot) : LeSlot := { y with insts := y.insts.map (fun i => { i with kept := false }) }
  let x1 := (x.setSlot (1 - old) ((x.slot (1 - old)).map fresh)).setSlot old none
  let s1 := wf (wb (setLe s e x1) .le e Reg.LE.STAT 8 false) .le e Reg.LE.STAT 4 4 (if old = 0 then 15 else 0)
  let s2 := wr s1 .le e Reg.LE.PRG_SLOT (ofN (1 - old))
  frcEval (lePools (setSt s2 .le e .idle))

/-- START sets T₀, the first microsecond of bench time from here on, and clears the cycle counts and ARITH (R325, Table 11-9). -/
def leGo (s : State) (e : Nat) : State :=
  let s1 := setLe (setSt s .le e .run) e { (leOf s e).stopped with t0 := 8000 * cdiv (s.lap s.now) 8000, benches := [.reset, .reset, .reset, .reset] }
  let s2 := benchNos.foldl (fun s b => wr s .le e (Reg.LE.B_CNT + 16 * b) 0) s1
  wb s2 .le e Reg.LE.STAT 10 false

/-- A load begins (R312). -/
def leLoadStart (s : State) (e : Nat) : State :=
  let s1 := leFree s e
  let s2 := setLe s1 e { leOf s1 e with src := some (rgU64 s1 .le e Reg.LE.LOAD_SRC_LO) }
  opStart s2 .le e 3 1 0

/-- The effect of an LE command (Table 11-7, Table 11-8). -/
def leAct (s : State) (e code : Nat) : State :=
  match code with
  | 0x01 => leGo s e
  | 0x02 => leHalt s e .idle
  | 0x03 => leCommitStep (setSt s .le e .hold) e
  | 0x04 => setSt s .le e .run
  | 0x06 => leClearFault s e
  | 0x07 => setInt (opFail (setLe s e { leOf s e with src := none }) .le e .wrongState 0x010) .le e 2
  | 0x10 => leLoadStart s e
  | 0x11 => leFree s e
  | 0x12 => setLe s e ((leOf s e).setSlot (leRunning s e) (((leOf s e).slot (leRunning s e)).map (leInitial s (rgU64 s .le e Reg.LE.LOAD_SRC_LO))))
  | _ => s

/-- The engine is switched off: its benches stop and its signals take their safe values. -/
def leDisabled (s : State) (e : Nat) : State := leStop s e .off

/-- A soft reset leaves no program (R40). -/
def leSoftReset (s : State) (e : Nat) : State := lePools (setLe s e .reset)

end Sys2Proof.Machine
end

