-- ==== Sys2Proof/Machine/Frc.lean ====
section
/-! DEFINITION. The force table (R328 to R332). -/
namespace Sys2Proof.Machine

/-- The entry of an ID, and the lowest free entry. -/
def frcFind (s : State) (id : Nat) : Option Nat := (s.frc.find? (fun e => e.2.id == id)).map (fun e => e.1)
def frcFree (s : State) : Option Nat := frcEntries.find? (fun i => (frcEnt s i).id == 0)

/-- The register of a force value that does not match a signal TYPE, if one does not (R328). -/
def forceBad (typ : Nat) (lo hi : Word) : Option Bool :=
  if typ = 2 then none
  else if (typ = 0 && lo != ofI (sext 24 lo.toNat)) || (typ = 3 && decide (1 < lo.toNat)) then some false
  else if hi != ofI (if bit lo 31 then -1 else 0) then some true
  else none

/-- The tests of a staged window (R328, R332). -/
def frcValidate (s : State) : List (Bool × Nat × ErrCode) :=
  let op := stf s .frc 0 Reg.FRC.ENTRY_CTRL 0 2
  let id := stf s .frc 0 Reg.FRC.ENTRY_ID 0 16
  let e := sigEnt s id
  let bad := forceBad e.typ (staged s .frc 0 Reg.FRC.ENTRY_VAL_LO) (staged s .frc 0 Reg.FRC.ENTRY_VAL_HI)
  [((op == 1 || op == 2) && id == 0, Reg.FRC.ENTRY_ID, .range),
   (op == 2 && (frcFind s id).isNone, Reg.FRC.ENTRY_ID, .range),
   (op == 1 && !e.en, Reg.FRC.ENTRY_ID, .conflict),
   (op == 3, Reg.FRC.ENTRY_CTRL, .range),
   (op == 1 && stOf s .frc 0 == .off, Reg.FRC.ENTRY_CTRL, .wrongState),
   (op == 1 && (frcFind s id).isNone && (frcFree s).isNone, Reg.FRC.ENTRY_CTRL, .memExceeded),
   (op == 1 && bad == some false, Reg.FRC.ENTRY_VAL_LO, .range),
   (op == 1 && bad == some true, Reg.FRC.ENTRY_VAL_HI, .range)]

/-- A SET (R328, R329): the entry of the ID, else the lowest free one, takes the window's value and the signal's TYPE. -/
def frcSet (s : State) (id : Nat) (v : BitVec 64) : State :=
  match (frcFind s id).or (frcFree s) with
  | none => s
  | some i =>
    let o := frcOrphan s id
    let newly := o && !(frcEnt s i).orphan
    let s1 := forceSlot (setFrc s i ⟨id, v, (sigEnt s id).typ, o⟩) id v
    let s2 := setInt (incWrap (wr s1 .frc 0 Reg.FRC.LAST_ENTRY (ofN i)) .frc 0 Reg.FRC.SET_CNT) .frc 0 0
    frcShow (if newly then setInt s2 .frc 0 2 else s2)

/-- One entry freed and its slot released (R329). -/
def frcRelease (s : State) (i : Nat) : State :=
  let id := (frcEnt s i).id
  frcShow (setInt (unforceSlot (setFrc s i .none) id) .frc 0 1)

/-- After a commit of FRC the window's operation takes place and OP reads NONE (R328). -/
def frcCommitted (s : State) : State :=
  let op := rf s .frc 0 Reg.FRC.ENTRY_CTRL 0 2
  let id := rf s .frc 0 Reg.FRC.ENTRY_ID 0 16
  let v := rg s .frc 0 Reg.FRC.ENTRY_VAL_HI ++ rg s .frc 0 Reg.FRC.ENTRY_VAL_LO
  let s1 := wr s .frc 0 Reg.FRC.ENTRY_CTRL 0
  match op with
  | 1 => frcSet s1 id v
  | 2 => match frcFind s1 id with
    | some i => frcRelease (wr s1 .frc 0 Reg.FRC.LAST_ENTRY (ofN i)) i
    | none => s1
  | _ => s1

/-- What FRC says of its commands (R332). -/
def frcRule (code : Nat) : Option CmdRule :=
  match code with
  | 0x05 => some ⟨false, true, none⟩
  | 0x10 => some ⟨false, true, none⟩
  | _ => none

/-- RELEASE_ALL frees every entry (R332). -/
def frcAct (s : State) (code : Nat) : State :=
  match code with
  | 0x10 => setInt (s.frc.foldl (fun s e => frcRelease s e.1) s) .frc 0 1
  | _ => s

/-- The table restored from the retention store (R331): every entry acts again on its slot, and neither SET nor RELEASED
sets. SET_CNT is kept in the same store. -/
def frcRestore (s : State) : State :=
  let s1 := { s with frc := s.frcKeep.map (fun (e : Nat × ForceEnt) => (e.1, { e.2 with orphan := false })) }
  frcEval (s1.frc.foldl (fun s (e : Nat × ForceEnt) => forceSlot s e.2.id e.2.value) s1)

/-- ENT_ID, ENT_LO and ENT_HI (Table 11-11). -/
def frcRead (s : State) (off : Nat) : Word :=
  let e := frcEnt s ((off % 1024) / 4)
  if e.id = 0 then 0
  else if off < Reg.FRC.ENT_LO then ofN (e.id + 65536 + 131072 * b2n e.orphan + 262144 * e.ty)
  else if off < Reg.FRC.ENT_HI then e.value.setWidth 32
  else (e.value >>> 32).setWidth 32

end Sys2Proof.Machine
end

