-- ==== Sys2Proof/Machine/Rseq.lean ====
section
/-! DEFINITION. The recipe steppers (R333 to R349): the recipe image, the clock edge, actions, branches and the log. -/
namespace Sys2Proof.Machine

/-! ## The recipe image (R335, R337) -/

/-- A step record. -/
def rStepAt (s : State) (a : Nat) : RStep :=
  let w0 := mem32 s a
  let w1 := mem32 s (a + 4)
  let w2 := mem32 s (a + 8)
  { dur := fld w0 0 24, kind := fld w0 24 3, fin := bit w0 27, rest := bit w0 28, first := fld w1 0 14, num := fld w1 14 7,
    cond := fld w2 0 16, op := fld w2 16 3, nxt := fld w2 20 12, val := mem32 s (a + 12), arg := fld (mem32 s (a + 16)) 0 24 }

/-- An action record. -/
def rActAt (s : State) (a : Nat) : RAct :=
  let w0 := mem32 s a
  ⟨fld w0 0 16, fld w0 16 2, fld (mem32 s (a + 4)) 0 24, mem32 s (a + 12) ++ mem32 s (a + 8)⟩

/-- Whether a step record breaks the rules of R337: `n` steps, `m` actions, `last` the record is the last one. -/
def rStepBad (s : State) (a n m : Nat) (last : Bool) : Bool :=
  let x := rStepAt s a
  let reserved := fld (mem32 s a) 29 3 + fld (mem32 s (a + 4)) 21 11 + fld (mem32 s (a + 8)) 19 1 + fld (mem32 s (a + 16)) 24 8 +
    imgW s a 20 + imgW s a 24 + imgW s a 28
  reserved != 0 || decide (5 < x.kind) || decide (5 < x.op) || x.dur == 0 || decide (n ≤ x.nxt) || decide (64 < x.num) ||
    decide (m < x.first + x.num) || (last && !x.fin) || (x.kind == 4 && (x.cond != 0 || x.arg == 0))

/-- Whether an action record has a reserved code or bit. -/
def rActBad (s : State) (a : Nat) : Bool :=
  fld (mem32 s a) 18 14 != 0 || fld (mem32 s (a + 4)) 24 8 != 0 || fld (mem32 s a) 16 2 == 3

/-- Whether an entry is an action output of a stepper (R337, R338). -/
def rseqOwns (r : Nat) (e : SigEntry) : Bool := e.from .rseq r && e.word == 0

/-- Why an action of a step fails, with the signals the step's earlier actions write (R337). -/
def rUseBad (s : State) (r : Nat) (st : RStep) (seen : List Nat) (j : Nat) (a : RAct) : Option LoadFail :=
  let e := sigEnt s a.sig
  if st.dur < a.t ∨ (a.kind = 2 ∧ a.t = 0) then some (.range, 5, j)
  else if !(e.en && rseqOwns r e && e.lsb == 0 && e.upd == UpdEv.step.num) then some (.conflict, 6, a.sig)
  else if a.kind == 1 && e.typ == 3 then some (.conflict, 6, a.sig)
  else if seen.contains a.sig then some (.conflict, 6, a.sig)
  else if (forceBad e.typ (a.val.setWidth 32) ((a.val >>> 32).setWidth 32)).isSome then some (.range, 5, j)
  else none

/-- The first failing action of a step. -/
def rUses (s : State) (r : Nat) (st : RStep) : List Nat → Nat → List RAct → Option LoadFail
  | _, _, [] => none
  | seen, j, a :: l => (rUseBad s r st seen j a).or (rUses s r st (a.sig :: seen) (j + 1) l)

/-- Whether a branch entry names neither a step nor none. -/
def rBranchBad (w n : Nat) : Bool := decide (65535 < w) || (w != 0xFFFF && decide (n ≤ w))

/-- The first header test that fails (Table 12-1, R337): of PHASE 1 up to the CRC, then of PHASE 2 the entries and the reserved words. -/
def rHeaderBad (s : State) (a : Nat) (spoilt : Bool) : Option LoadFail :=
  let inMem (n : Nat) : Bool := inDram a n || inSram a n
  let len := imgW s a 4
  let n := imgW s a 8
  let m := imgW s a 12
  let so := imgW s a 0x10
  let ao := imgW s a 0x14
  let bad : List (Bool × LoadFail) :=
    [(a % 8 != 0 || !inMem 64 || imgW s a 0 != 0x52530001, (.range, 1, 0)),
     (decide (4096 < n), (.memExceeded, 3, 8)),
     (decide (16384 < m), (.memExceeded, 3, 12)),
     (decide (len < 64) || !inMem len, (.range, 1, 4)),
     (n == 0, (.range, 1, 8)),
     (decide (so < 64) || decide (len < so + 32 * n), (.range, 1, 0x10)),
     (decide (ao < 64) || decide (len < ao + 16 * m), (.range, 1, 0x14)),
     (spoilt || imgCrc s a != mem32 s (a + 0x28), (.crcMismatch, 2, 0x28)),
     (decide (n ≤ imgW s a 0x18) || decide (4095 < imgW s a 0x18), (.range, 1, 0x18)),
     (rBranchBad (imgW s a 0x1C) n, (.range, 1, 0x1C)),
     (rBranchBad (imgW s a 0x20) n, (.range, 1, 0x20)),
     (imgW s a 0x2C != 0, (.range, 1, 0x2C)), (imgW s a 0x30 != 0, (.range, 1, 0x30)),
     (imgW s a 0x34 != 0, (.range, 1, 0x34)), (imgW s a 0x38 != 0, (.range, 1, 0x38)),
     (imgW s a 0x3C != 0, (.range, 1, 0x3C))]
  (bad.find? (fun x => x.1)).map (fun x => x.2)

/-- The image at an address as a bank of a stepper, or why it is refused (R337). `spoilt`: one of its words cannot be corrected, which
fails its CRC (log entry 34). -/
def rLoad (s : State) (r a : Nat) (spoilt : Bool) : Except LoadFail RBank :=
  match rHeaderBad s a spoilt with
  | some f => .error f
  | none =>
    let n := imgW s a 8
    let m := imgW s a 12
    let stepA (i : Nat) : Nat := a + imgW s a 0x10 + 32 * i
    let actA (j : Nat) : Nat := a + imgW s a 0x14 + 16 * j
    let steps := (List.range n).map (fun i => rStepAt s (stepA i))
    let acts := (List.range m).map (fun j => rActAt s (actA j))
    let condBad (x : RStep) : Bool := x.cond != 0 && (!(sigEnt s x.cond).en || (sigEnt s x.cond).typ == 2)
    match (List.range n).find? (fun i => rStepBad s (stepA i) n m (i + 1 == n)) with
    | some i => .error (.range, 4, i)
    | none => match (List.range m).find? (fun j => rActBad s (actA j)) with
      | some j => .error (.range, 5, j)
      | none => match steps.find? condBad with
        | some x => .error (.conflict, 6, x.cond)
        | none => match steps.findSome? (fun x => rUses s r x [] x.first ((acts.drop x.first).take x.num)) with
          | some f => .error f
          | none => .ok { steps := steps, acts := acts, entry := imgW s a 0x18, hold := imgW s a 0x1C, abort := imgW s a 0x20,
                          id := mem32 s (a + 0x24), crc := mem32 s (a + 0x28) }

/-- A bank of a stepper replaced and shown. -/
def rseqSetBank (s : State) (r k : Nat) (y : Option RBank) : State :=
  rseqShowBank (setRseq s r ((rseqOf s r).setBank k y)) r k

/-- LOAD begins: the bank that is not active is invalid until it ends (R337). -/
def rseqLoadStart (s : State) (r : Nat) : State :=
  let k := 1 - rseqActive s r
  let s1 := rseqSetBank s r k none
  opStart (setRseq s1 r { rseqOf s1 r with src := some (rgU64 s1 .rseq r Reg.RSEQ.LOAD_SRC_LO, k) }) .rseq r 3 1 0

/-- LOAD ends (R337). -/
def rseqLoadEnd (s : State) (r : Nat) (spoilt : Bool) : State :=
  match (rseqOf s r).src with
  | none => s
  | some (a, k) =>
    let s0 := setRseq s r { rseqOf s r with src := none }
    match rLoad s0 r a spoilt with
    | .error (c, kind, item) =>
      let s1 := if kind < 4 ∧ ¬(kind = 1 ∧ 0x18 ≤ item) then setProg s0 .rseq r 3 1 0 else setProg s0 .rseq r 1 2 0
      setInt (wr (opFail s1 .rseq r c 0x010) .rseq r Reg.RSEQ.LOAD_ERR (ofN (kind * 16777216 + item % 16777216))) .rseq r 10
    | .ok y => setInt (opDone (wr (rseqSetBank s0 r k (some y)) .rseq r Reg.RSEQ.LOAD_ERR 0) .rseq r) .rseq r 9

/-! ## Writes and actions (R339, R340) -/

/-- A write of a stepper with the device time of the edge (R334). -/
def rseqPub (s : State) (r id : Nat) (v : BitVec 64) : State := pubBy s (rseqOwns r) id v (rseqOf s r).edge

/-- A slot value as a signed number of least significant bits, and back. -/
def valInt (v : BitVec 64) : Int := v.toInt
def intVal (i : Int) : BitVec 64 := BitVec.ofInt 64 i

/-- s + trunc((g − s) × j / n) (R340). -/
def rampAt (s g : Int) (j n : Nat) : Int := if j = n then g else s + Int.tdiv ((g - s) * (j : Int)) n

/-- A pulse's end value: a 1-bit value inverted, else the value the signal had (R339). -/
def pulseEnd (s : State) (a : RAct) : Int :=
  if (sigEnt s a.sig).typ = 3 then (if a.val.getLsbD 0 then 0 else 1) else valInt (slotOf s a.sig).raw

/-- Where a ramp starts: the RAW value, or the safe value while the signal has never been published (R340). -/
def rampFrom (s : State) (id : Nat) : Int :=
  valInt (if (slotOf s id).never then safeValue (sigEnt s id) else (slotOf s id).raw)

/-- A run added to a stepper. -/
def rseqAddRun (s : State) (r : Nat) (x : RRun) : State := setRseq s r { rseqOf s r with runs := (rseqOf s r).runs ++ [x] }

/-- One action at the entry of a step, or at its re-entry with `e` clocks spent, where a pulse keeps the end value of its first entry
(`kept`, by signal) (R339, R340, R342). -/
def rseqAction (r dur e : Nat) (kept : SMap Int) (s : State) (a : RAct) : State :=
  let g := valInt (typed (sigEnt s a.sig).typ 0 (a.val.setWidth 32) ((a.val >>> 32).setWidth 32))
  match a.kind with
  | 0 => rseqPub s r a.sig a.val
  | 1 =>
    let n := if a.t = 0 then dur else a.t
    if e < n then rseqAddRun s r ⟨a.sig, false, rampFrom s a.sig, g, n - e, 0⟩ else rseqPub s r a.sig a.val
  | _ =>
    let fin := SMap.get (fun _ => pulseEnd s a) kept a.sig
    let s1 := setRseq s r { rseqOf s r with ends := SMap.insert (SMap.erase (rseqOf s r).ends a.sig) a.sig fin }
    if e < a.t then rseqAddRun (rseqPub s1 r a.sig a.val) r ⟨a.sig, true, 0, fin, a.t - e, 0⟩ else rseqPub s1 r a.sig (intVal fin)

/-- The end values of the pulses that meet a test are written. -/
def rseqEndPulses (s : State) (r : Nat) (test : RRun → Bool) : State :=
  let x := rseqOf s r
  let s1 := (x.runs.filter (fun u => u.pulse && test u)).foldl (fun s u => rseqPub s r u.sig (intVal u.g)) s
  setRseq s1 r { rseqOf s1 r with runs := (rseqOf s1 r).runs.filter (fun u => !(u.pulse && test u)) }

/-! ## The log and the entry of a step (R345, R338) -/

/-- An entry appended to the transition log. -/
def rseqLog (s : State) (r : Nat) (w : Word) : State :=
  let x := rseqOf s r
  if x.log.length < 64 then setRseq s r { x with log := x.log ++ [⟨w, x.edge⟩] }
  else setInt (incSat (setRseq s r { x with log := x.log.drop 1 ++ [⟨w, x.edge⟩] }) .rseq r Reg.RSEQ.TLOG_OVF) .rseq r 11

/-- A transition-log word (Table 12-8). -/
def tlogWord (src dest cause path toBank fromBank : Nat) : Word :=
  ofN (src + 4096 * dest + 16777216 * cause + 268435456 * path + 1073741824 * toBank + 2147483648 * fromBank)

/-- The signals sourced from STEP_NOW publish at a step boundary (R338). -/
def rseqPubNow (s : State) (r : Nat) : State :=
  pubIf s .rseq r .step (rseqOf s r).edge (fun e => e.word == 0x41)

/-- A step of the active bank is entered with `e` clocks spent and the end values its pulses had before, if any (R334, R339, R342,
R345). -/
def rseqReenter (s : State) (r dest path cause e : Nat) (kept : SMap Int) : State :=
  let x := rseqOf s r
  let k := rseqActive s r
  match rseqRecipe s r with
  | none => s
  | some y =>
    let s1 := setRseq s r { x with cur := dest, path := path, el := e, bank := k, runs := [], ends := [], ending := none, timeout := false }
    let s2 := (y.actsOf dest).foldl (rseqAction r ((y.steps.getD dest ⟨1, 0, true, false, 0, 0, 0, 0, 0, 0, 0⟩).dur) e kept) s1
    let s3 := setInt (incWrap s2 .rseq r Reg.RSEQ.STEP_CNT) .rseq r 0
    rseqPubNow (rseqShow (rseqLog s3 r (tlogWord x.cur dest cause path k x.bank)) r) r

/-- A step of the active bank is entered. -/
def rseqEnter (s : State) (r dest path cause e : Nat) : State := rseqReenter s r dest path cause e []

/-! ## Conditions (R336) -/

/-- Whether a comparison of Table 12-2 holds. -/
def rCompare (op : Nat) (a b : Int) : Bool :=
  match op with
  | 0 => a == b
  | 1 => a != b
  | 2 => decide (a < b)
  | 3 => decide (b ≤ a)
  | 4 => decide (b < a)
  | _ => decide (a ≤ b)

/-- Whether the condition of a step is true (R336). -/
def rCond (s : State) (st : RStep) : Bool :=
  let x := slotView s st.cond
  let lo := sigLo s st.cond
  if (x.safe || x.never) && !x.forced then false
  else if (sigEnt s st.cond).typ = 3 then rCompare st.op (b2n (bit lo 0)) (b2n (bit st.val 0))
  else rCompare st.op (sw lo) (sw st.val)

/-! ## The clock edge (R333, R334) -/

/-- Whether an elapsed time is a clock edge of a stepper that has not been played (R333). -/
def rseqEdgeAt (s : State) (r u : Nat) : Bool :=
  u % (800000 * max 1 (rf s .rseq r Reg.RSEQ.CFG 0 4)) == 0 && (rseqOf s r).last.all (fun l => decide (l < u))

/-- Every running ramp publishes its value for the edge, every running pulse counts down (R334, R339, R340). -/
def rseqRuns (s : State) (r : Nat) : State :=
  let up (u : RRun) : RRun := if u.pulse then { u with n := u.n - 1 } else { u with j := u.j + 1 }
  let runs := (rseqOf s r).runs.map up
  let s1 := runs.foldl (fun s u => if u.pulse then s else rseqPub s r u.sig (intVal (rampAt u.s u.g u.j u.n))) s
  setRseq s1 r { rseqOf s1 r with runs := runs.filter (fun u => u.pulse || decide (u.j < u.n)) }

/-- The cause of a hold or abort request that acts at an edge, an abort first (R341). -/
def rBranch (x : RseqSt) : Option REnd :=
  match x.abortReq, x.holdReq with
  | some c, _ => if x.path = 2 then none else some (.abort c)
  | none, some c => if x.path = 0 then some (.hold c) else none
  | none, none => none

/-- What Table 12-3 decides of a step `e` clocks after its entry: the end, and the new count of a LOOP. -/
def rDecide (st : RStep) (cur e cnt : Nat) (cond : Bool) : Option REnd × Nat :=
  let ovr := decide (st.dur ≤ e)
  let on : REnd := .next (cur + 1) 0
  match st.kind with
  | 0 => (if ovr then some on else none, cnt)
  | 1 => (if ovr && cond then some (.next (cur + 1) 1) else none, cnt)
  | 2 => (if ovr then (if cond then some (.next st.nxt 1) else some on) else none, cnt)
  | 3 => (if cond then some (.next st.nxt 1) else if ovr then some on else none, cnt)
  | 4 => if ovr then (if cnt < st.arg then (some (.next st.nxt 2), cnt + 1) else (some on, 0)) else (none, cnt)
  | _ => (if ovr then some on else none, cnt)

/-- Steps 1 to 4 of an edge in RUN (R334): the condition, the ramps, the decision, the requests. A request that the edge
itself makes acts at the next one. -/
def rseqPlay (s : State) (r : Nat) : State :=
  match rseqRecipe s r with
  | none => s
  | some y =>
    let x := rseqOf s r
    let st := y.steps.getD x.cur ⟨1, 0, true, false, 0, 0, 0, 0, 0, 0, 0⟩
    let e := x.el + 1
    let cond := rCond s st
    let d := rDecide st x.cur e (SMap.get (fun _ => 0) x.loops x.cur) cond
    let s1 := rseqRuns (setRseq s r { x with el := e }) r
    let late := st.kind == 1 && st.arg != 0 && e == st.dur + st.arg && d.1.isNone
    let guard := st.kind == 5 && !cond
    let x1 := { rseqOf s1 r with
      loops := if st.kind = 4 then SMap.set (fun _ => 0) x.loops x.cur d.2 else x.loops, ending := (rBranch x).or d.1,
      timeout := late, holdReq := none, abortReq := if guard then some 6 else none }
    let s2 := setRseq s1 r x1
    rseqShow (if guard then setInt s2 .rseq r 8 else s2) r

/-- A WAIT whose timeout has passed makes a hold request (Table 12-3). -/
def rseqTimeout (s : State) (r : Nat) : State :=
  let x := rseqOf s r
  if x.timeout then setInt (rseqRequest (setRseq s r { x with timeout := false }) r false 5) .rseq r 7 else s

/-- A step ends and none follows: the log shows it as left and entered (R334). -/
def rseqLogEnd (s : State) (r cause : Nat) : State :=
  let x := rseqOf s r
  rseqLog s r (tlogWord x.cur x.cur cause x.path x.bank x.bank)

/-- The page rests (R341). -/
def rseqRest (s : State) (r : Nat) : State := rseqCommitStep (setInt (setSt s .rseq r .hold) .rseq r 4) r

/-- A job ends: its last step is logged with cause END (R344); one of the abort branch is aborted as well (R341). -/
def rseqJobEnd (s : State) (r : Nat) : State :=
  let x := rseqOf s r
  let s1 := rseqLogEnd s r 10
  let s2 := setInt (incWrap s1 .rseq r Reg.RSEQ.JOB_CNT) .rseq r 1
  rseqHalt (if x.path = 2 then setInt s2 .rseq r 6 else s2) r .idle

/-- The abort branch of the active bank is entered, or the page enters IDLE without one (R341). -/
def rseqAbortBranch (s : State) (r cause : Nat) : State :=
  match rseqRecipe s r with
  | none => rseqHalt s r .idle
  | some y =>
    if y.abort = 0xFFFF then rseqHalt (setInt s .rseq r 6) r .idle
    else
      let s1 := setRseq (setSt s .rseq r .run) r { rseqOf s r with held := none, atEntry := false }
      setInt (rseqEnter s1 r y.abort 2 cause 0) .rseq r 5

/-- Whether a pending commit applies at the end of a step: a bank switch with AT_END waits for a step with END=1 (R343). -/
def rseqCommitHere (s : State) (r : Nat) (fin : Bool) : Bool :=
  commitReady s .rseq r && (!rseqSwitching s r || fin || !bit (staged s .rseq r Reg.RSEQ.BANK_SEL) 8)

/-- Steps 5 and 6 of an edge: the step ends (R334, R336, R341, R343, R344). -/
def rseqStepEnd (s : State) (r : Nat) : State :=
  let x := rseqOf s r
  match x.ending, rseqRecipe s r with
  | none, _ => s
  | some _, none => s
  | some d, some y =>
    let st := y.steps.getD x.cur ⟨1, 0, true, false, 0, 0, 0, 0, 0, 0, 0⟩
    let k := rseqActive s r
    let s0 := setRseq s r { x with ending := none }
    let s1 := if rseqCommitHere s0 r st.fin then rseqTake s0 r else s0
    let switched := rseqActive s1 r != k
    let s2 := rseqEndPulses s1 r (fun _ => true)
    let s3 := setRseq s2 r { rseqOf s2 r with runs := [] }
    match d with
    | .abort c => rseqAbortBranch (if (rseqRecipe s3 r).any (fun z => z.abort == 0xFFFF) then rseqLogEnd s3 r c else s3) r c
    | .hold c =>
      let s4 := setInt (setRseq s3 r { rseqOf s3 r with
        held := if switched then none else some (x.cur, x.el), heldEnds := x.ends, atEntry := switched, path := 1 }) .rseq r 3
      match rseqRecipe s4 r with
      | none => s4
      | some z => if z.hold = 0xFFFF then rseqRest (rseqLogEnd s4 r c) r else rseqEnter s4 r z.hold 1 c 0
    | .next dest c =>
      if switched then
        match rseqRecipe s3 r with
        | some z => rseqEnter s3 r z.entry 0 8 0
        | none => s3
      else if st.fin then rseqJobEnd s3 r
      else if st.rest && x.path != 2 then rseqRest (rseqLogEnd s3 r c) r
      else rseqEnter s3 r dest x.path c 0

/-- Pulses whose clocks have passed write their end values (R339). -/
def rseqPulseEnds (s : State) (r : Nat) : State := rseqEndPulses s r (fun u => u.n == 0)

/-- What the last edge decided and has not come about yet comes about. -/
def rseqSettle (s : State) (r : Nat) : State := rseqStepEnd (rseqPulseEnds (rseqTimeout s r) r) r

/-! ## Commands (R341, R342, R347) -/

/-- What an RSEQ page says of its commands. -/
def rseqRule (s : State) (r code : Nat) : Option CmdRule :=
  let sw := rseqSwitchCommit s r
  let loading := (rseqOf s r).src.isSome
  let off := stOf s .rseq r == .off
  let other := (rseqOf s r).bankAt (1 - rseqActive s r)
  match code with
  | 0x01 => some ⟨false, false, firstOf [(!inSt s .rseq r [.idle] || (rseqRecipe s r).isNone || blocked s .rseq r, .wrongState)]⟩
  | 0x02 => some ⟨true, false, firstOf [(!inSt s .rseq r [.run, .hold, .safe], .wrongState)]⟩
  | 0x03 => some ⟨true, false, firstOf [(!inSt s .rseq r [.run], .wrongState)]⟩
  | 0x04 => some ⟨false, false, firstOf [(!inSt s .rseq r [.hold] || blocked s .rseq r, .wrongState)]⟩
  | 0x05 => some ⟨false, off, none⟩
  | 0x06 => some ⟨false, false, firstOf [(!inSt s .rseq r [.fault] || other.isNone, .wrongState)]⟩
  | 0x07 => some ⟨false, true, firstOf [(!loading, .wrongState)]⟩
  | 0x10 => some ⟨false, true, firstOf [(off, .wrongState), (loading || sw, .busy)]⟩
  | 0x11 => some ⟨false, true, firstOf [(off || sw, .wrongState)]⟩
  | 0x12 => some ⟨true, false, firstOf [(!inSt s .rseq r [.run, .hold], .wrongState)]⟩
  | 0x13 => some ⟨false, true, firstOf [(off, .wrongState)]⟩
  | _ => none

/-- START enters ENTRY of the active bank (R347). -/
def rseqStart (s : State) (r : Nat) : State :=
  match rseqRecipe s r with
  | none => s
  | some y =>
    let s1 := setRseq (wr s .rseq r Reg.RSEQ.STEP_CNT 0) r { (rseqOf s r).stopped with loops := [], path := 0 }
    rseqEnter (setSt s1 .rseq r .run) r y.entry 0 9 0

/-- CONTINUE (R342): an abort request that waits prevails (R341); else the interrupted step, the new ENTRY after a switch in HOLD, or the following step. -/
def rseqContinue (s : State) (r : Nat) : State :=
  let x := rseqOf s r
  let s1 := setRseq (setSt s .rseq r .run) r { x with held := none, atEntry := false, holdReq := none }
  match x.abortReq with
  | some c => rseqAbortBranch (setRseq s r { x with abortReq := none }) r c
  | none => match x.held, rseqRecipe s r with
  | some (i, e), _ => rseqReenter s1 r i 0 7 e x.heldEnds
  | none, some y => if x.atEntry then rseqEnter s1 r y.entry 0 7 0 else rseqEnter s1 r (x.cur + 1) x.path 7 0
  | none, none => s1

/-- CLEAR_FAULT makes the other bank active (Table 12-5). -/
def rseqClearFault (s : State) (r : Nat) : State :=
  let k := 1 - rseqActive s r
  rseqHalt (frcEval (wf s .rseq r Reg.RSEQ.BANK_SEL 0 1 k)) r .idle

/-- The effect of an RSEQ command. -/
def rseqAct (s : State) (r code : Nat) : State :=
  match code with
  | 0x01 => rseqStart s r
  | 0x02 => rseqHalt (if stOf s .rseq r == .safe then s else rseqEndPulses s r (fun _ => true)) r .idle
  | 0x03 => rseqRequest s r false 3
  | 0x04 => rseqContinue s r
  | 0x06 => rseqClearFault s r
  | 0x07 =>
    match (rseqOf s r).src with
    | some (_, k) => rseqSetBank (opFail (setRseq s r { rseqOf s r with src := none }) .rseq r .wrongState 0x010) r k none
    | none => s
  | 0x10 => rseqLoadStart s r
  | 0x11 => rseqSetBank s r (1 - rseqActive s r) none
  | 0x12 => rseqRequest s r true 4
  | 0x13 => rseqShow (wr (setRseq s r { rseqOf s r with log := [] }) .rseq r Reg.RSEQ.TLOG_OVF 0) r
  | _ => s

/-- The command that waits acts at an edge, if it is still allowed (R347). -/
def rseqEdgeCmd (s : State) (r : Nat) : State :=
  match (s.page (pk .rseq r)).cmd with
  | none => s
  | some c =>
    let s1 := cmdDone s .rseq r
    match rseqRule s1 r c.code with
    | some q => if q.err.isNone then
        (if c.code = 0x05 then s1.modPage (pk .rseq r) (fun p => { p with staged := [], dirty := false }) else rseqAct s1 r c.code)
      else s1
    | none => s1

/-- A clock edge (R334): what the last one decided first, then the waiting command, then the present step; in HOLD an abort
request enters the abort branch and a hold request is dropped (R341). -/
def rseqEdge (s : State) (r t : Nat) : State :=
  let s0 := rseqSettle (s.at t) r
  if stOf s0 .rseq r == .off || !rseqEdgeAt s0 r (s0.lap t) then s0
  else
    let s1 := setRseq s0 r { rseqOf s0 r with edge := devTime t, last := some (s0.lap t) }
    let s2 := rseqEdgeCmd s1 r
    if stOf s1 .rseq r != .run && stOf s2 .rseq r == .run then s2
    else match stOf s2 .rseq r with
      | .run => rseqPlay s2 r
      | .hold => match (rseqOf s2 r).abortReq with
        | some c => rseqAbortBranch s2 r c
        | none => setRseq s2 r { rseqOf s2 r with holdReq := none }
      | _ => s2

/-- An uncorrectable error in a bank (Table 12-5): FAULT for the active one, else the bank is invalid. -/
def rseqUe (s : State) (r k : Nat) : State :=
  if stOf s .rseq r == .off then s
  else if k = rseqActive s r then rseqStop s r .fault else rseqSetBank s r k none

/-! ## Commits and the log read (R343, R345, R348) -/

/-- The tests of a staged RSEQ set. -/
def rseqValidate (s : State) (r : Nat) : List (Bool × Nat × ErrCode) :=
  let d := stf s .rseq r Reg.RSEQ.CFG 0 4
  let k := stf s .rseq r Reg.RSEQ.BANK_SEL 0 1
  [(d == 0 || decide (10 < d), Reg.RSEQ.CFG, .range),
   (k != rseqActive s r && ((rseqOf s r).bankAt k).isNone, Reg.RSEQ.BANK_SEL, .wrongState)]

/-- A read of TLOG_ENT returns the oldest entry and removes it (R345). -/
def tlogRead (s : State) (r : Nat) : Word × State :=
  let x := rseqOf s r
  match x.log with
  | [] => (0, wrTs s .rseq r Reg.RSEQ.TLOG_TS_LO 0)
  | e :: l => (e.word, rseqShow (wrTs (setRseq s r { x with log := l }) .rseq r Reg.RSEQ.TLOG_TS_LO e.ts) r)

/-- The page is switched off: no steps, signals at their safe values. -/
def rseqDisabled (s : State) (r : Nat) : State := rseqStop s r .off

/-- A soft reset leaves both banks invalid (R346). -/
def rseqSoftReset (s : State) (r : Nat) : State := setRseq s r .reset

end Sys2Proof.Machine
end

