-- ==== Sys2Proof/Machine/Stepper.lean ====
section
/-! DEFINITION. Step/direction channels and microstep tables (R160 to R168). -/
namespace Sys2Proof.Machine

/-! ## USTP (R167, R168) -/

/-- Word w of user table k: s at even words, k at odd ones; the built-in table after reset. -/
def ustpWord (s : State) (k w : Nat) : Word := SMap.get (fun i => builtinWord (i % 512)) s.ustp (512 * k + w)

/-- The user table EDIT_SEL names. -/
def ustpSel (s : State) : Nat := rf s .ustp 0 Reg.USTP.EDIT_SEL 0 2

/-- The active values of TBL_DATA are those of the edited table. -/
def ustpShow (s : State) : State :=
  (List.range 512).foldl (fun s w => wr s .ustp 0 (Reg.USTP.TBL_DATA + 4 * w) (ustpWord s (ustpSel s) w)) s

/-- A write of EDIT_SEL starts a copy of the named table into the staging store, or is ignored with CONFLICT (R167). -/
def ustpEditSel (s : State) (v : Word) : State :=
  let p := s.page (pk .ustp 0)
  if p.dirty || p.commit != .none then rejWr s .ustp 0 .conflict Reg.USTP.EDIT_SEL
  else (wr s .ustp 0 Reg.USTP.EDIT_SEL (ofN (fld v 0 2))).modPage (pk .ustp 0) (fun p => { p with busy := true })

/-- The copy ends: the staging store holds the table, BUSY and STAGED_DIRTY are 0 (R167). -/
def ustpCopyEnd (s : State) : State :=
  if (s.page (pk .ustp 0)).busy then
    (ustpShow s).modPage (pk .ustp 0) (fun p => { p with busy := false, dirty := false, staged := [] })
  else s

/-- IN_USE: the user tables that channels in PHASE mode and RUN use. -/
def ustpInUse (s : State) : Word :=
  (insts .step).foldl (fun w n =>
    let c := rg s .step n Reg.STEP.CFG
    if stOf s .step n == .run && fld c 0 2 == 1 && 1 ≤ fld c 12 3 && fld c 12 3 ≤ 4 then w ||| (1#32 <<< (fld c 12 3 - 1))
    else w) 0

/-- IN_USE follows the channels. -/
def ustpSync (s : State) : State := wr s .ustp 0 Reg.USTP.IN_USE (ustpInUse s)

/-- The tests of a staged table: bits [31:24] are the sign extension of bit 23 (R167). -/
def ustpValidate (s : State) : List (Bool × Nat × ErrCode) :=
  (List.range 512).map (fun w =>
    let o := Reg.USTP.TBL_DATA + 4 * w
    let v := staged s .ustp 0 o
    (ofI (sext 24 v.toNat) != v, o, .range))

/-- A committed table applies: the edited table takes it and every channel that uses it sets TABLE_NEW (R167). -/
def ustpCommitted (s : State) : State :=
  let k := ustpSel s
  let dflt := fun i => builtinWord (i % 512)
  let m := (List.range 512).foldl (fun m w => SMap.set dflt m (512 * k + w) (rg s .ustp 0 (Reg.USTP.TBL_DATA + 4 * w))) s.ustp
  (insts .step).foldl (fun s n =>
    let c := rg s .step n Reg.STEP.CFG
    if stOf s .step n == .run && fld c 0 2 == 1 && fld c 12 3 == k + 1 then setInt s .step n 2 else s) { s with ustp := m }

/-! ## STEP (R160 to R166) -/

/-- CFG.AXIS of a channel. -/
def stepAxis (s : State) (n : Nat) : Nat := rf s .step n Reg.STEP.CFG 2 7

/-- ⌊SETP⌋ of an axis. -/
def setpFloor (s : State) (a : Nat) : Int := rg64 s .axis a Reg.AXIS.SETP_LO / 65536

/-- LAG set to the owed steps: LAG sets when it first becomes non-zero, LAG_LIM and STEP_LAG when it passes the limit
(R161). -/
def stepLag (s : State) (n : Nat) (lag : Int) : State :=
  let was := rg s .step n Reg.STEP.LAG
  let lim := rf s .step n Reg.STEP.LAG_LIM 0 16
  let s1 := wb (wr s .step n Reg.STEP.LAG (satI32 lag)) .step n Reg.STEP.STAT 1 (lag != 0)
  let s2 := if was = 0 && lag != 0 then setInt s1 .step n 0 else s1
  let x := stepOf s2 n
  if lim != 0 && lim < lag.natAbs then
    if x.ovr then s2 else raise (setInt (setStep s2 n { x with ovr := true }) .step n 1) 0x15 .step n 0 0
  else setStep s2 n { x with ovr := false }

/-- Whether the minima of R161 allow a leading edge at an extended time: HIGH and LOW since the last one; for a step in the other direction
also SETUP after the level of STEPnD changes, which waits until that step has ended and this one is owed. -/
def stepFree (s : State) (n t : Nat) (back : Bool) : Bool :=
  let hi := 10 * rf s .step n Reg.STEP.PULSE_T 0 16
  let lo := 10 * rf s .step n Reg.STEP.PULSE_T 16 16
  let su := 10 * rf s .step n Reg.STEP.DIR_T 0 16
  let c := rg64 s .step n Reg.STEP.STEPS_LO
  let turn := back != (stepOf s n).back
  let owed := if back then decide (stepPlaced s n (t - su) < c) else decide (c < stepPlaced s n (t - su))
  (!turn || owed) && (match (stepOf s n).edge with
    | none => true
    | some e => decide (e + hi + max lo (if turn then su else 0) ≤ s.lap t))

/-- A step's leading edge (R160, R161): the channel emits one owed step once the minima allow it; until then it stands in LAG. -/
def stepEmit (s : State) (n t : Nat) : State :=
  if stOf s .step n != .run || rf s .step n Reg.STEP.CFG 0 2 != 0 then s
  else
    let c := rg64 s .step n Reg.STEP.STEPS_LO
    let d := stepPlaced s n t
    if d = c then s
    else if !stepFree s n t (decide (d < c)) then stepLag s n (d - c)
    else
      let c' := if c < d then c + 1 else c - 1
      let s1 := wb (wr64 s .step n Reg.STEP.STEPS_LO c') .step n Reg.STEP.STAT 0 (decide (d < c))
      stepLag (setStep s1 n { stepOf s1 n with edge := some (s.lap t), back := decide (d < c) }) n (d - c')

/-- The levels of STEPnP and STEPnD at an extended time: a step is shown for HIGH, the direction changes before a step in the other
direction (R161), with PUL_INV and DIR_INV (R160); in OFF and in PHASE mode both are inactive (R162, R164). -/
def stepPinP (s : State) (n t : Nat) : Bool :=
  let hi := 10 * rf s .step n Reg.STEP.PULSE_T 0 16
  let on := match (stepOf s n).edge with
    | some e => decide (s.lap t < e + hi)
    | none => false
  rb s .step n Reg.STEP.CFG 10 != (on && stOf s .step n != .off && rf s .step n Reg.STEP.CFG 0 2 == 0)
def stepPinD (s : State) (n t : Nat) : Bool :=
  rb s .step n Reg.STEP.CFG 9 != (stepBack s n t && stOf s .step n != .off && rf s .step n Reg.STEP.CFG 0 2 == 0)

/-- The table entry of an index (R162, R163). -/
def stepEntry (s : State) (tbl i : Nat) : Int × Int :=
  if tbl = 0 then (builtinS i, builtinK i)
  else (sw (ustpWord s (tbl - 1) (2 * i)), sw (ustpWord s (tbl - 1) (2 * i + 1)))

/-- PHASE_A and PHASE_B from a microstep count (R162). -/
def stepPhases (s : State) (n : Nat) (c : Int) : State :=
  let cfg := rg s .step n Reg.STEP.CFG
  let d : Int := 2 ^ fld cfg 16 4
  let q := (c / d % 4).toNat
  let i := (c % d * 256 / d).toNat
  let e := stepEntry s (fld cfg 12 3) i
  let amp : Int := sw (rg s .step n (if rb s .step n Reg.STEP.STAT 2 then Reg.STEP.AMP_HOLD else Reg.STEP.AMP))
  let ab : Int × Int := match q with
    | 0 => (e.1, e.2)
    | 1 => (e.2, -e.1)
    | 2 => (-e.1, -e.2)
    | _ => (-e.2, e.1)
  let s1 := wr s .step n Reg.STEP.PHASE_A (q23 (fq (amp * ab.1) 8388608))
  let s2 := wr s1 .step n Reg.STEP.PHASE_B (q23 (fq (amp * ab.2) 8388608))
  let s3 := wf s2 .step n Reg.STEP.STAT 3 3 (fld cfg 12 3)
  wr s3 .step n Reg.STEP.ELEC (ofN (i + 256 * q))

/-- Whether SETV has been 0 for HOLD_DELAY µs at an extended time (R162). -/
def stepStands (s : State) (n t : Nat) : Bool :=
  match (stepOf s n).zero with
  | some z => decide (z + 8000 * (rg s .step n Reg.STEP.HOLD_DELAY).toNat ≤ s.lap t)
  | none => false

/-- A channel at a base tick (R160, R162, R164); how long SETV has been 0 is reckoned in every state but OFF. -/
def stepTick (s : State) (n t : Nat) : State :=
  let a := stepAxis s n
  let setp := rg64 s .axis a Reg.AXIS.SETP_LO
  let x := stepOf s n
  let zero := if rg64 s .axis a Reg.AXIS.SETV_LO ≠ 0 then none else x.zero.or (some (s.lap t))
  if stOf s .step n == .off then s
  else if stOf s .step n == .run && inSt s .axis a [.off, .fault] then safeAll (stepHalt s n .fault) .step n
  else if stOf s .step n == .run then
    let s1 := setStep s n { x with from_ := x.to_, to_ := setp, t := t, zero := zero }
    let s2 :=
      if rf s .step n Reg.STEP.CFG 0 2 == 1 then
        let c := setp / 65536
        let old := rg64 s .step n Reg.STEP.STEPS_LO
        let s' := wb s1 .step n Reg.STEP.STAT 2 (stepStands s1 n t)
        let s' := if c = old then s' else wb s' .step n Reg.STEP.STAT 0 (decide (c < old))
        stepPhases (wr64 s' .step n Reg.STEP.STEPS_LO c) n c
      else stepLag s1 n (x.to_ / 65536 - rg64 s .step n Reg.STEP.STEPS_LO)
    pubAll s2 .step n .tick
  else pubAll (setStep s n { x with zero := zero }) .step n .tick

/-- SETV has been 0 for HOLD_DELAY µs: the amplitude becomes AMP_HOLD (R162). -/
def stepHoldAmp (s : State) (n t : Nat) : State :=
  if stOf s .step n == .run && rf s .step n Reg.STEP.CFG 0 2 == 1 && stepStands s n t then
    stepPhases (wb s .step n Reg.STEP.STAT 2 true) n (rg64 s .step n Reg.STEP.STEPS_LO)
  else s

/-- Whether another enabled channel follows an axis (R165). -/
def stepTaken (s : State) (n a : Nat) : Bool :=
  (insts .step).any (fun m => m != n && inSt s .step m [.idle, .run, .safe, .fault] && stepAxis s m == a)

/-- What the page says of its commands (R164, R165). -/
def stepRule (s : State) (n code : Nat) : Option CmdRule :=
  let st := stOf s .step n
  match code with
  | 0x01 => some ⟨false, false, firstOf [(st != .idle || blocked s .step n, .wrongState), (!padsAre s 1 (padsOf .step n) || stepTaken s n (stepAxis s n), .conflict)]⟩
  | 0x02 => some ⟨true, false, firstOf [(!inSt s .step n [.run, .safe], .wrongState)]⟩
  | 0x05 => some ⟨false, false, none⟩
  | 0x06 => some ⟨false, false, firstOf [(st != .fault || !inSt s .axis (stepAxis s n) [.idle, .run], .wrongState)]⟩
  | _ => none

/-- The effect of a command (R164): START sets STEPS to ⌊SETP⌋ and LAG to 0; the minima since the last step hold on (R161). -/
def stepAct (s : State) (n code : Nat) : State :=
  match code with
  | 0x01 =>
    let p := rg64 s .axis (stepAxis s n) Reg.AXIS.SETP_LO
    let s1 := wb (wr (wr64 s .step n Reg.STEP.STEPS_LO (p / 65536)) .step n Reg.STEP.LAG 0) .step n Reg.STEP.STAT 1 false
    ustpSync (setStep (setSt s1 .step n .run) n { stepOf s n with from_ := p, to_ := p, t := s.now, ovr := false })
  | 0x02 => ustpSync (stepHalt s n .idle)
  | 0x06 => stepHalt s n .idle
  | _ => s

/-- The tests of a staged set (R165). -/
def stepValidate (s : State) (n : Nat) : List (Bool × Nat × ErrCode) :=
  let c := staged s .step n Reg.STEP.CFG
  let a := rg s .step n Reg.STEP.CFG
  let p := staged s .step n Reg.STEP.PULSE_T
  [(2 ≤ fld c 0 2 || 5 ≤ fld c 12 3 || 9 ≤ fld c 16 4, Reg.STEP.CFG, .range),
   (stepTaken s n (fld c 2 7), Reg.STEP.CFG, .conflict),
   (stOf s .step n == .run && (fld c 0 9 != fld a 0 9 || fld c 16 4 != fld a 16 4), Reg.STEP.CFG, .wrongState),
   (1 ≤ fld c 12 3 && fld c 12 3 ≤ 4 && stOf s .ustp 0 == .off, Reg.STEP.CFG, .notPresent),
   (fld p 0 16 < 16 || fld p 16 16 < 16, Reg.STEP.PULSE_T, .range),
   (65536 ≤ (staged s .step n Reg.STEP.LAG_LIM).toNat, Reg.STEP.LAG_LIM, .range),
   (8388608 ≤ (staged s .step n Reg.STEP.AMP).toNat, Reg.STEP.AMP, .range),
   (8388608 ≤ (staged s .step n Reg.STEP.AMP_HOLD).toNat, Reg.STEP.AMP_HOLD, .range),
   (65536 ≤ (staged s .step n Reg.STEP.HOLD_DELAY).toNat, Reg.STEP.HOLD_DELAY, .range)]

end Sys2Proof.Machine
end

