-- ==== Sys2Proof/Machine/Acq.lean ====
section
/-! DEFINITION. The acquisition units (R360 to R370, R373). -/
namespace Sys2Proof.Machine

/-- What an acquisition unit holds besides its registers. -/
def acqOf (s : State) (u : Nat) : AcqSt := SMap.get (fun _ => AcqSt.reset) s.acqs u

/-- The same, replaced. -/
def setAcq (s : State) (u : Nat) (x : AcqSt) : State := { s with acqs := SMap.set (fun _ => AcqSt.reset) s.acqs u x }

/-! ## Sources and frames (R360 to R363, R370) -/

/-- A word of the active set of a unit, and of its staged set. -/
def acqReg (s : State) (u o : Nat) : Word := rg s .acq u o
def acqStg (s : State) (u o : Nat) : Word := staged s .acq u o

/-- The source words of a set that name a source, in index order. -/
def acqSources (g : Nat → Word) : List (Nat × Word) :=
  ((List.range 16).map (fun i => (i, g (Reg.ACQ.SRC + 4 * i)))).filter (fun x => fld x.2 0 2 != 0)

/-- The signal TYPE of a source: a fast channel is Q1.23. -/
def srcType (s : State) (w : Word) : Nat := if fld w 0 2 = 1 then (sigEnt s (fld w 16 16)).typ else 0

/-- A source's present value in the slot layout: the signal's VALUE, or the channel's last result. -/
def srcValue (s : State) (w : Word) : BitVec 64 :=
  if fld w 0 2 = 1 then sigVal s (fld w 16 16) else sx64 (rg s .fch (fld w 2 7) Reg.FCH.RESULT)

/-- Settings of a set. -/
def acqDigital (g : Nat → Word) : Bool := bit (g Reg.ACQ.CFG) 0
def acqEvent (g : Nat → Word) : Bool := bit (g Reg.ACQ.CFG) 1
def acqK (g : Nat → Word) : Nat := fld (g Reg.ACQ.CFG) 8 4
def acqPre (g : Nat → Word) : Nat := fld (g Reg.ACQ.PRE) 0 29
def acqPost (g : Nat → Word) : Nat := fld (g Reg.ACQ.POST) 0 29
def acqP (g : Nat → Word) : Nat := (if acqEvent g then g Reg.ACQ.MIN_T else g Reg.ACQ.PERIOD).toNat

/-- F, the bytes of a frame (R363). -/
def acqF (s : State) (g : Nat → Word) : Nat :=
  if acqDigital g then 4
  else (acqSources g).foldl (fun n x => n + (if srcType s x.2 = 2 then 8 else 4)) (if acqEvent g then 8 else 0)

/-- BW_CLAIM in MB/s (R363). -/
def acqClaim (s : State) (g : Nat → Word) : Nat := cdiv (acqF s g * 200) (acqP g * 2 ^ acqK g)

/-- Base and length in bytes of a unit's region (R355). -/
def acqBase (s : State) (u : Nat) : Nat := 0x800000000 + 1048576 * rf s .recStore 0 (Reg.REC.REGION + 4 * u) 0 16
def acqBytes (s : State) (u : Nat) : Nat := 1048576 * rf s .recStore 0 (Reg.REC.REGION + 4 * u) 16 16

/-- ALLOC_LEN of a set (R370). -/
def acqAlloc (s : State) (u : Nat) (g : Nat → Word) : Nat :=
  if acqF s g = 0 then 0 else min 268435456 ((acqBytes s u - 1536) / acqF s g)

/-- Bytes of a slot, and the slots of the region (R370). -/
def acqSlotBytes (s : State) (g : Nat → Word) : Nat := cdiv (1536 + (acqPre g + acqPost g) * acqF s g) 64 * 64
def acqSlots (s : State) (u : Nat) (g : Nat → Word) : Nat := acqBytes s u / acqSlotBytes s g

/-- Whether a unit is in RUN, or enters it at its next sample instant (R373). -/
def acqAtWork (s : State) (u : Nat) : Bool := stOf s .acq u == .run || (acqOf s u).toBegin

/-- The claims of the units at work (R356), without one of them. -/
def acqClaims (s : State) (but : Nat) : Nat :=
  (insts .acq).foldl (fun n u => if u != but && acqAtWork s u then n + acqClaim s (acqReg s u) else n) 0

/-- What the record store admits work against, by its share of the memory slots (R28, R356). -/
def bwLimit (s : State) : Nat := if s.part.share then 16000 else 8000

/-- What the units may claim together (R356). -/
def acqRoom (s : State) : Nat := bwLimit s - (rg s .recStore 0 Reg.REC.HIST_BW).toNat

/-- The registers that follow the active set; BW_USED follows the units at work. -/
def acqShow (s : State) (u : Nat) : State :=
  let g := acqReg s u
  let s1 := [(Reg.ACQ.ALLOC_LEN, acqAlloc s u g), (Reg.ACQ.REC_SLOTS, acqSlots s u g), (Reg.ACQ.BW_CLAIM, acqClaim s g)].foldl
    (fun s e => wr s .acq u e.1 (ofN e.2)) s
  wr s1 .recStore 0 Reg.REC.BW_USED (ofN (acqClaims s1 16))

/-! ## Writing records (R370, R371) -/

/-- An export with what recording is about to write over: the words keep the value they had first, for the copy that has read them. -/
def RecExp.overtake (x : RecExp) (s : State) (a n : Nat) : RecExp :=
  let l := ((List.range n).map (fun i => a + 4 * i)).filter (fun b => x.old.all (fun e => e.1 != b))
  { x with hit := true, old := x.old ++ l.map (fun b => (b, mem32 s b)) }

/-- Recording stores into DRAM; over data of an export it marks the export as overtaken. -/
def recPut (s : State) (a : Nat) (ws : List Word) : State :=
  let s1 := (ws.zipIdx).foldl (fun s e => putMem32 s (a + 4 * e.2) e.1) s
  match s1.recExp with
  | some x =>
    if x.kind == 0 && decide (a < x.upTo) && decide (x.src < a + 4 * ws.length) then { s1 with recExp := some (x.overtake s a ws.length) }
    else s1
  | none => s1

/-- The slot of the present record, if the region has any. -/
def acqSlot (s : State) (u : Nat) : Option Nat :=
  let n := acqSlots s u (acqReg s u)
  if n = 0 then none
  else some (acqBase s u + ((rg s .acq u Reg.ACQ.REC_SEQ).toNat % n) * acqSlotBytes s (acqReg s u))

/-- A frame stored at an index of the present record. -/
def acqStore (s : State) (u i : Nat) (ws : List Word) : State :=
  match acqSlot s u with
  | some a => recPut s (a + 512 + i * acqF s (acqReg s u)) ws
  | none => s

/-! ## Markers (R361, R369) -/

/-- A marker written: a record holds 64 (R369). -/
def acqMarkAdd (s : State) (u : Nat) (m : AcqMark) : State :=
  let x := acqOf s u
  if x.marks.length < 64 then setAcq s u { x with marks := x.marks ++ [m] }
  else setInt (setAcq s u { x with lost := x.lost + 1 }) .acq u 7

/-- The phase of a unit. -/
def acqPhase (s : State) (u : Nat) : Nat := rf s .acq u Reg.ACQ.STAT 0 2
def setPhase (s : State) (u p : Nat) : State := wf s .acq u Reg.ACQ.STAT 0 2 p

/-- The number of the next frame since the record's first. -/
def AcqSt.next (x : AcqSt) : Nat := x.dropped + x.pre.length + x.post.length

/-- Whether a unit is in a record. -/
def acqInRecord (s : State) (u : Nat) : Bool := stOf s .acq u == .run && acqPhase s u != 3

/-- A step of device time is written into every running record as a STEP marker, in ns (R361, R379). -/
def acqStepMark (s : State) (steps : Int) : State :=
  (insts .acq).foldl (fun s u =>
    if acqInRecord s u then acqMarkAdd s u ⟨2, 0, false, (acqOf s u).next, satI32 (fq steps 8), 0⟩ else s) s

/-- Nanoseconds of an extended time, 32 bits. -/
def nsOf (t : Nat) : Word := ofN (t / 8)

/-- A publication of a link source: later than twice the frame period of its port, in elapsed time, it leaves a GAP marker in a record
(R369). -/
def acqLinkPub (s : State) (id t : Nat) : State :=
  (insts .acq).foldl (fun s u =>
    if stOf s .acq u == .run then
      (acqSources (acqReg s u)).foldl (fun s x =>
        if fld x.2 0 2 == 1 && fld x.2 16 16 == id then
          let y := acqOf s u
          let s1 := setAcq s u { y with pubs := SMap.set (fun _ => (0, 0)) y.pubs x.1 (s.lap t, t) }
          match y.pubs.lookup x.1 with
          | some l =>
            if acqInRecord s u ∧ l.1 + 16000 < s.lap t then
              setInt (incSat (acqMarkAdd s1 u ⟨1, x.1, false, y.next, nsOf l.2, nsOf t⟩) .acq u Reg.ACQ.GAP_CNT) .acq u 3
            else s1
          | none => s1
        else s) s
    else s) s

/-! ## Measurements (Table 13-6) -/

/-- A mean rounded to nearest, ties towards plus infinity (R362). -/
def meanUp (sum : Int) (n : Nat) : Int := if n = 0 then 0 else (2 * sum + n) / (2 * n)

/-- The root mean square rounded to nearest. -/
def rmsOf (l : List Int) : Int :=
  let n := l.length
  if n = 0 then 0 else (((4 * (l.foldl (fun a x => a + (x * x).toNat) 0) / n).sqrt + 1) / 2 : Nat)

/-- The least and the greatest of a list. -/
def minOf (l : List Int) : Int := match l with
  | [] => 0
  | x :: r => r.foldl min x
def maxOf (l : List Int) : Int := match l with
  | [] => 0
  | x :: r => r.foldl max x

/-- How often a list of bits rises. -/
def risesIn : List Bool → Nat
  | a :: b :: l => (if !a && b then 1 else 0) + risesIn (b :: l)
  | _ => 0

/-- The four measurement words of a source over its values in the stored frames. -/
def measure (typ : Nat) (l : List (BitVec 64)) : List Word :=
  let ints := l.map (fun v => sw (v.setWidth 32))
  let wide := l.map BitVec.toInt
  let bits := l.map (fun v => v.getLsbD 0)
  let sat (x : Int) : Word := if typ = 0 then q23 x else satI32 x
  match typ with
  | 2 => [lo32 (minOf wide), hi32 (minOf wide), lo32 (maxOf wide), hi32 (maxOf wide)]
  | 3 => [ofN (risesIn bits), ofN (risesIn (bits.map not)), ofN (bits.filter (fun b => b)).length, ofN (bits.filter not).length]
  | _ => [sat (minOf ints), sat (maxOf ints), sat (meanUp (ints.foldl (· + ·) 0) ints.length), sat (rmsOf ints)]

/-- Where each source's words start in a frame. -/
def srcPlaces (s : State) (g : Nat → Word) : List (Nat × Nat × Nat) :=
  ((acqSources g).foldl (fun (r : List (Nat × Nat × Nat) × Nat) x =>
    let ty := srcType s x.2
    (r.1 ++ [(x.1, ty, r.2)], r.2 + (if ty = 2 then 2 else 1))) ([], 0)).1

/-- A value read back from a frame. -/
def frameValue (ty at_ : Nat) (f : AcqFrame) : BitVec 64 :=
  if ty = 2 then (f.ws.getD (at_ + 1) 0) ++ (f.ws.getD at_ 0) else sx64 (f.ws.getD at_ 0)

/-- The measurement words of a record, with their offsets. -/
def acqMeasures (s : State) (g : Nat → Word) (fs : List AcqFrame) : List (Nat × Word) :=
  if acqDigital g then
    (List.range 32).flatMap (fun l =>
      let bits := fs.map (fun f => bit (f.ws.getD 0 0) l)
      [(0x100 + 4 * l, ofN (risesIn bits)), (0x180 + 4 * l, ofN (bits.filter (fun b => b)).length)])
  else
    (srcPlaces s g).flatMap (fun p =>
      ((measure p.2.1 (fs.map (frameValue p.2.1 p.2.2))).zipIdx).map (fun e => (0x100 + 16 * p.1 + 4 * e.2, e.1)))

/-! ## The end of a record (R367, R368, Table 13-6) -/

/-- The words of a marker. -/
def AcqMark.words (dropped : Nat) (m : AcqMark) : List Word :=
  [ofN (m.kind + 256 * m.src + 4096 * b2n m.isOpen), ofN (m.frame - dropped), m.w2, m.w3]

/-- The markers of gaps that are open at the end of a record (R369). -/
def acqOpenGaps (s : State) (u : Nat) : State :=
  (acqOf s u).pubs.foldl (fun s e =>
    if e.2.1 + 16000 < s.lap s.now then setInt (incSat (acqMarkAdd s u ⟨1, e.1, true, (acqOf s u).next, nsOf e.2.2, 0⟩) .acq u Reg.ACQ.GAP_CNT) .acq u 3
    else s) s

/-- The header of a record. -/
def acqHeader (s : State) (u : Nat) (trunc : Bool) : List (Nat × Word) :=
  let x := acqOf s u
  let g := acqReg s u
  let fs := x.pre ++ x.post
  let short := decide (x.pre.length < acqPre g)
  let flags := 16777216 * b2n short + 33554432 * b2n (x.marks.any (fun m => m.kind == 1)) + 67108864 * b2n (decide (0 < x.lost))
    + 134217728 * b2n x.forced + 268435456 * b2n x.safe + 536870912 * b2n trunc
  let trigT := x.trigAt.getD 0
  let oldT := match fs with
    | f :: _ => f.at_
    | [] => 0
  [(0, 0x41430001), (4, ofN (u + 16 * b2n (acqDigital g) + 32 * b2n (acqEvent g) + 256 * acqK g + 65536 * (acqSources g).length + flags)),
    (8, rg s .acq u Reg.ACQ.REC_SEQ + 1), (0xC, ofN (acqF s g)), (0x10, ofN x.pre.length), (0x14, ofN x.post.length),
    (0x18, ofN (if short then 0 else x.ring)), (0x1C, g Reg.ACQ.TRIG), (0x20, lo32 trigT), (0x24, hi32 trigT), (0x28, lo32 oldT),
    (0x2C, hi32 oldT), (0x30, if acqEvent g then 0 else ofN (acqP g * 2 ^ acqK g)), (0x34, ofN (x.marks.length + 65536 * x.lost))] ++
  (List.range 16).map (fun i => (0x40 + 4 * i, g (Reg.ACQ.SRC + 4 * i))) ++
  (List.range 32).map (fun l => (0x80 + 4 * l, if acqDigital g then g (Reg.ACQ.LINE + 4 * l) else 0)) ++
  acqMeasures s g fs

/-- The header and the marker table are written and the record is complete: REC_SEQ, LAST_REC, REC_DONE (R367). A region of length 0
gives its unit no records (R355). -/
def acqFinish (s0 : State) (u : Nat) (trunc : Bool) : State :=
  let s := acqOpenGaps s0 u
  let g := acqReg s u
  let x := acqOf s u
  match acqSlot s u with
  | some a =>
    let blank := recPut s a (List.replicate 128 0)
    let head := (acqHeader s u trunc).foldl (fun s e => recPut s (a + e.1) [e.2]) blank
    let table := a + 512 + (acqPre g + acqPost g) * acqF s g
    let marks := (x.marks.zipIdx).foldl (fun s m => recPut s (table + 16 * m.2) (m.1.words x.dropped)) head
    setInt (incWrap (wr64 marks .acq u Reg.ACQ.LAST_REC_LO a) .acq u Reg.ACQ.REC_SEQ) .acq u 1
  | none => s

/-- A new record starts: ARMING, or ARMED without pre-trigger frames (R365). -/
def acqArm (s : State) (u : Nat) : State :=
  let x := acqOf s u
  let s1 := setAcq s u { AcqSt.reset with
    grid := x.grid, last := x.last, prev := x.prev, offUp := x.offUp, offDown := x.offDown, seen := x.seen, busDue := false,
    pubs := x.pubs, evSeen := x.evSeen }
  setPhase s1 u (if acqPre (acqReg s u) = 0 then 1 else 0)

/-- The unit enters IDLE: its trigger output is no longer driven. -/
def acqIdle (s : State) (u : Nat) : State :=
  acqShow (setPhase (setAcq (setSt s .acq u .idle) u { acqOf s u with drive := false, toBegin := false }) u 0) u

/-- LOG_SEQ, which the next entry of the fault log takes. -/
def logSeq (s : State) : Nat := rf s .flt 0 Reg.FLT.LOG_SEQ 0 16

/-- PUBCNT of the signal a source names. -/
def srcCount (s : State) (w : Word) : Word := (slotOf s (fld w 16 16)).pubCnt

/-- A pending commit applies at a re-arm (Table 2-1); what is known of a source that the commit changes is forgotten, and a trigger that
becomes FAULT sees the entries after it. -/
def acqTake (s : State) (u : Nat) : State :=
  if commitReady s .acq u then
    let s1 := takeStaged s .acq u
    let x := acqOf s1 u
    let same (i : Nat) : Bool := acqReg s1 u (Reg.ACQ.SRC + 4 * i) == acqReg s u (Reg.ACQ.SRC + 4 * i)
    acqShow (setAcq s1 u { x with pubs := x.pubs.filter (fun e => same e.1),
                                  seen := if rf s .acq u Reg.ACQ.TRIG 0 3 = 6 then x.seen else logSeq s
                                  evSeen := if same 0 then x.evSeen else srcCount s1 (acqReg s1 u Reg.ACQ.SRC) }) u
  else s

/-- The sample period of TIMED pacing in steps; EVENT pacing has none (R361, Table 13-6). -/
def acqStep (g : Nat → Word) : Nat := if acqEvent g then 0 else 40 * acqP g

/-- When REARM begins, with the frame period after the last post-trigger frame, and the earliest time at which it ends, 16 frame
periods later (R367). -/
def acqRearmAt (s : State) (u : Nat) : Option Nat := (acqOf s u).full.map (fun l => l + acqStep (acqReg s u))
def acqRearmDue (s : State) (u : Nat) : Option Nat :=
  (acqRearmAt s u).map (fun l => l + 16 * (acqStep (acqReg s u) * 2 ^ acqK (acqReg s u)))

/-- Whether such a time has come. -/
def acqCome (s : State) (d : Option Nat) : Bool := d.any (fun l => decide (l ≤ s.lap s.now))

/-- The next record begins at the next sample instant of the grid; until then the unit stands in REARM (R367). -/
def acqWait (s : State) (u : Nat) : State := setAcq s u { acqOf s u with toBegin := true }

/-- REARM ends: the header stands, a pending commit applies, and the next record starts as SEQ selects (R367). -/
def acqRearmEnd (s : State) (u : Nat) : State :=
  if stOf s .acq u == .run && acqPhase s u == 3 && !(acqOf s u).toBegin && acqCome s (acqRearmDue s u) then
    let s1 := acqTake (acqFinish s u false) u
    match rf s1 .acq u Reg.ACQ.CFG 2 2 with
    | 0 => acqIdle s1 u
    | 1 =>
      if acqSlots s1 u (acqReg s1 u) ≤ (rg s1 .acq u Reg.ACQ.REC_SEQ).toNat then setInt (acqIdle s1 u) .acq u 5
      else acqWait s1 u
    | _ => acqWait s1 u
  else s

/-- POST frames are stored: REARM begins (R365, R367). -/
def acqPostComplete (s : State) (u : Nat) : State :=
  let x := acqOf s u
  if stOf s .acq u == .run && acqPhase s u == 2 && decide (acqPost (acqReg s u) ≤ x.post.length) && acqCome s (acqRearmAt s u) then
    setPhase (setAcq s u { x with grp := [], drive := false }) u 3
  else s

/-! ## Triggers (R364, R366) -/

/-- The units that take their trigger from a unit. -/
def acqFollowers (s : State) (u : Nat) : List Nat :=
  (insts .acq).filter (fun v => rf s .acq v Reg.ACQ.TRIG 0 3 == 5 && rf s .acq v Reg.ACQ.TRIG 16 4 == u)

/-- A trigger meets a unit in RUN: accepted or ignored by its phase (R366); along a chain of UNIT triggers every unit takes
it in the same cycle. -/
def acqTrigger : Nat → State → Nat → Nat → State
  | 0, s, _, _ => s
  | k + 1, s, u, t =>
    if stOf s .acq u != .run then s
    else
      let ph := acqPhase s u
      let full := rb s .acq u Reg.ACQ.CFG 4
      if ph = 1 ∨ (ph = 0 ∧ full = false) then
        let s1 := setAcq s u { acqOf s u with trig := true, drive := rb s .acq u Reg.ACQ.TRIG 24 }
        let s2 := wr64 (setInt (setPhase s1 u 2) .acq u 0) .acq u Reg.ACQ.TRIG_TIME_LO t
        let s3 := if ph = 0 then setInt s2 .acq u 4 else s2
        (acqFollowers s u).foldl (fun s v => acqTrigger k s v t) s3
      else setInt (incSat s .acq u Reg.ACQ.TRIG_IGNORED) .acq u 2

/-- The value of the trigger source as it is compared: VALUE_LO signed, a 1-bit source by its bit (R364). -/
def trigValue (s : State) (w : Word) : Int :=
  if srcType s w = 3 then (if (srcValue s w).getLsbD 0 then 1 else 0) else sw ((srcValue s w).setWidth 32)

/-- Whether a sample is the trigger event of its unit, and the unit with what it remembers of the slope (Table 13-4). -/
def acqDetect (s : State) (u : Nat) (lines : Word) (x : AcqSt) : Bool × AcqSt :=
  let g := acqReg s u
  let tr := g Reg.ACQ.TRIG
  let l1 := sw (g Reg.ACQ.TRIG_LVL)
  let l2 := sw (g Reg.ACQ.TRIG_LVL2)
  let mask := g Reg.ACQ.TRIG_MASK
  let slope := fld tr 4 2
  let v : Int := if acqDigital g then b2n (lines &&& mask == g Reg.ACQ.TRIG_PAT &&& mask)
    else trigValue s (g (Reg.ACQ.SRC + 4 * fld tr 8 4))
  match x.prev with
  | none => (false, { x with prev := some v })
  | some p =>
    let up := decide (p < l1) && decide (l1 ≤ v) && !x.offUp && slope != 1
    let down := decide (l1 < p) && decide (v ≤ l1) && !x.offDown && slope != 0
    let was := decide (l2 ≤ p) && decide (p ≤ l1)
    let is := decide (l2 ≤ v) && decide (v ≤ l1)
    match (if acqDigital g then (if fld tr 0 3 = 3 then 3 else 0) else fld tr 0 3) with
    | 1 => (up || down, { x with prev := some v, offUp := (x.offUp || up) && !decide (v < l1 - l2),
                                 offDown := (x.offDown || down) && !decide (l1 + l2 < v) })
    | 2 => ((slope != 1 && !was && is) || (slope != 0 && was && !is), { x with prev := some v })
    | 3 => (acqDigital g && p == 0 && v == 1, { x with prev := some v })
    | _ => (false, { x with prev := some v })

/-- Whether an entry of the fault log is no older than a number of the wrapping count: it lies no further behind LOG_SEQ (R413). -/
def logNew (s : State) (seen seq : Nat) : Bool :=
  decide ((logSeq s + 65535 - seq) % 65536 < (logSeq s + 65536 - seen) % 65536)

/-- A unit's trigger event from outside its samples: a rising trigger bus line, or a new fault-log entry of MIN_REACT or
above (Table 13-4). -/
def acqEventDue (s : State) (u : Nat) : Bool :=
  let x := acqOf s u
  match rf s .acq u Reg.ACQ.TRIG 0 3 with
  | 4 => x.busDue
  | 6 => s.flog.any (fun e => logNew s x.seen e.seq && decide (rf s .acq u Reg.ACQ.TRIG 20 3 ≤ e.react))
  | _ => false

/-- Such an event reaches the unit (R364). -/
def acqTriggerEvent (s : State) (u t : Nat) : State :=
  if acqEventDue s u then
    acqTrigger 17 (setAcq s u { acqOf s u with busDue := false, seen := logSeq s }) u t
  else s

/-! ## Samples (R360 to R362) -/

/-- The level of a digital line: outputs as the part drives them, inputs as they stand at the pads. -/
def lineLevel (s : State) (t : Nat) (w : Word) (pad : Bool) : Bool :=
  let i := fld w 4 8
  match fld w 0 4 with
  | 0 => false
  | 1 => let p := pwmPins s (i / 6) (i % 6 / 2) t; if i % 2 = 0 then p.1 else p.2
  | 2 => rb s .pcmp i Reg.PCMP.STAT 0 != rb s .pcmp i Reg.PCMP.CFG 10
  | 7 => stepPinP s i t
  | 8 => stepPinD s i t
  | 9 => s.finRaw.getLsbD i
  | 10 => s.trgSeen.getLsbD i
  | _ => pad

/-- The lines of a unit in one word. -/
def acqLines (s : State) (u t : Nat) (pads : Word) : Word :=
  ofN ((List.range 32).foldl (fun w l =>
    if lineLevel s t (rg s .acq u (Reg.ACQ.LINE + 4 * l)) (bit pads l) then w + 2 ^ l else w) 0)

/-- A source's words in a frame of some samples, oldest first (R362). -/
def acqWords (ty : Nat) (l : List (BitVec 64)) : List Word :=
  let n := l.length
  let last := l.getLastD 0
  match ty with
  | 2 => let m := meanUp (l.foldl (fun a v => a + v.toInt) 0) n
    [lo32 m, hi32 m]
  | 3 => let first := l.headD 0
    [ofN (b2n (last.getLsbD 0) + 2 * b2n (l.any (fun v => v.getLsbD 0 != first.getLsbD 0)))]
  | _ => [ofI (meanUp (l.foldl (fun a v => a + sw (v.setWidth 32)) 0) n)]

/-- The words of a frame (R363). -/
def acqFrameWords (s : State) (u t : Nat) (smp : List (List (BitVec 64))) : List Word :=
  let g := acqReg s u
  if acqDigital g then [((smp.headD []).headD 0).setWidth 32]
  else
    ((acqSources g).zipIdx).flatMap (fun e => acqWords (srcType s e.1.2) (smp.map (fun v => v.getD e.2 0))) ++
      (if acqEvent g then [tsLo (devTime t), tsHi (devTime t)] else [])

/-- A finished frame is stored: after the trigger from frame PRE on, before it in the ring of PRE frames (R365, R370). -/
def acqFrame (s : State) (u : Nat) (f : AcqFrame) : State :=
  let x := acqOf s u
  let pre := acqPre (acqReg s u)
  if x.trig then
    if x.post.length < acqPost (acqReg s u) then
      setAcq (acqStore s u (pre + x.post.length) f.ws) u { x with
        post := x.post ++ [f], full := if x.post.length + 1 = acqPost (acqReg s u) then x.last else x.full }
    else s
  else if pre = 0 then s
  else
    let s1 := acqStore s u x.ring f.ws
    let ring := (x.ring + 1) % pre
    if x.pre.length < pre then
      let s2 := setAcq s1 u { x with pre := x.pre ++ [f], ring := ring }
      if x.pre.length + 1 = pre then setPhase s2 u 1 else s2
    else setAcq s1 u { x with pre := x.pre.drop 1 ++ [f], ring := ring, dropped := x.dropped + 1 }

/-- Whether SRC[0] has published since the last look, or its channel's conversion ends at a time (R361). -/
def acqEventAt (s : State) (u t : Nat) : Bool :=
  let w := acqReg s u Reg.ACQ.SRC
  if fld w 0 2 = 2 then (fchOf s (fld w 2 7)).endAt == some (s.lap t) else fld w 0 2 == 1 && srcCount s w != (acqOf s u).evSeen

/-- Whether a time is a sample instant of a unit; in EVENT pacing an event that comes too early is skipped (R361). -/
def acqInstant (s : State) (u t : Nat) : Bool × Bool :=
  let g := acqReg s u
  let x := acqOf s u
  let lap := s.lap t
  if acqEvent g then
    let early := match x.last with
      | some l => decide (lap < l + 40 * (g Reg.ACQ.MIN_T).toNat)
      | none => false
    let on := acqEventAt s u t && x.last != some lap
    (on && !early, on && early)
  else (decide (x.grid ≤ lap) && (lap - x.grid) % (40 * max 1 (g Reg.ACQ.PERIOD).toNat) == 0 && x.last != some lap, false)

/-- Whether a source is sampled at its safe value: a signal that stands at it, or a channel whose domain is off (R373). -/
def srcSafe (s : State) (w : Word) : Bool :=
  if fld w 0 2 = 1 then sigSafe s (fld w 16 16) else !powered s .fch (fld w 2 7)

/-- A sample taken (R360, R362, R364, R365). -/
def acqTake1 (s : State) (u t : Nat) (pads : Word) : State :=
  let g := acqReg s u
  let lines := acqLines s u t pads
  let srcs := acqSources g
  let v : List (BitVec 64) := if acqDigital g then [lines.setWidth 64] else srcs.map (fun x => srcValue s x.2)
  let isSig (x : Nat × Word) : Bool := !acqDigital g && fld x.2 0 2 == 1
  let d := acqDetect s u lines (acqOf s u)
  let x0 := { d.2 with
    last := some (s.lap t), forced := d.2.forced || srcs.any (fun x => isSig x && (slotView s (fld x.2 16 16)).forced),
    safe := d.2.safe || (!acqDigital g && srcs.any (fun x => srcSafe s x.2)) }
  let s1 := setAcq s u x0
  let s2 := if d.1 then acqTrigger 17 s1 u t else s1
  let x := acqOf s2 u
  if acqPhase s2 u == 3 then s2
  else
    let x1 : AcqSt := { x with grp := v :: x.grp, grpAt := if x.grp.isEmpty then t else x.grpAt,
                               trigAt := if x.trig then x.trigAt.or (some t) else none }
    if x1.grp.length < 2 ^ acqK g then setAcq s2 u x1
    else acqFrame (setAcq s2 u { x1 with grp := [] }) u ⟨x1.grpAt, acqFrameWords s2 u t x1.grp.reverse⟩

/-- At its sample instant a record begins: the unit is in RUN, and in ARMING or ARMED (R367, R373). -/
def acqBegin (s : State) (u : Nat) : State :=
  if (acqOf s u).toBegin then acqShow (acqArm (setSt s .acq u .run) u) u else s

/-- A sample instant of a unit at work. -/
def acqSample (s0 : State) (u t : Nat) (pads : Word) : State :=
  let s := s0.at t
  if !acqAtWork s u then s
  else
    let i := acqInstant s u t
    let s1 := setAcq s u { acqOf s u with evSeen := srcCount s (acqReg s u Reg.ACQ.SRC) }
    if i.1 then acqTake1 (acqBegin s1 u) u t pads
    else if i.2 then setInt (incSat s1 .acq u Reg.ACQ.EVT_SKIP) .acq u 6
    else s

/-! ## Commands and commits (R356, R368, R373) -/

/-- What an ACQ page says of its commands. -/
def acqRule (s : State) (u code : Nat) : Option CmdRule :=
  let run := inSt s .acq u [.run]
  match code with
  | 0x01 => some ⟨false, true, firstOf [(!inSt s .acq u [.idle] || stOf s .recStore 0 != .run, .wrongState),
      (decide (acqRoom s < acqClaims s u + acqClaim s (acqReg s u)), .conflict)]⟩
  | 0x02 => some ⟨true, true, firstOf [(!acqAtWork s u, .wrongState)]⟩
  | 0x05 => some ⟨false, true, none⟩
  | 0x10 => some ⟨false, true, firstOf [(!run, .wrongState)]⟩
  | 0x11 => some ⟨false, true, firstOf [(!run || decide (2 ≤ acqPhase s u), .wrongState)]⟩
  | _ => none

/-- START: the sample grid begins at the first 5 ns boundary of device time, and the unit enters RUN at its next sample instant (R361,
R373). -/
def acqStart (s : State) (u : Nat) : State :=
  let s1 := setAcq s u { AcqSt.reset with grid := s.lap s.now + (40 - s.now % 40) % 40, seen := logSeq s,
                                              evSeen := srcCount s (acqReg s u Reg.ACQ.SRC), toBegin := true }
  acqShow ([Reg.ACQ.REC_SEQ, Reg.ACQ.TRIG_IGNORED, Reg.ACQ.EVT_SKIP, Reg.ACQ.GAP_CNT].foldl (fun s o => wr s .acq u o 0) s1) u

/-- STOP: a record in POST is ended with the flag TRUNC, in REARM its header is written if it does not stand, and in ARMING and ARMED
nothing is written (R368). -/
def acqStop (s : State) (u : Nat) : State :=
  let ph := acqPhase s u
  acqIdle (acqTake (if ph = 2 then acqFinish s u true else if ph = 3 ∧ ¬(acqOf s u).toBegin then acqFinish s u false else s) u) u

/-- The effect of an ACQ command. -/
def acqAct (s : State) (u code : Nat) : State :=
  match code with
  | 0x01 => acqStart s u
  | 0x02 => acqStop s u
  | 0x10 => acqTrigger 17 s u s.now
  | 0x11 => acqArm (acqTake s u) u
  | _ => s

/-- Whether UNIT triggers lead from a unit back to `u` through the active TRIG of the others (Table 13-4). -/
def acqLoop (s : State) (u : Nat) : Nat → Nat → Bool
  | 0, _ => true
  | k + 1, v => v == u || (rf s .acq v Reg.ACQ.TRIG 0 3 == 5 && acqLoop s u k (rf s .acq v Reg.ACQ.TRIG 16 4))

/-- The number of pins of each kind of line (Table 13-9). -/
def lineCount (kind : Nat) : Nat :=
  match kind with
  | 1 => 192
  | 9 => 16
  | 10 => 8
  | _ => 64

/-- The tests of a staged ACQ set (R373). -/
def acqValidate (s : State) (u : Nat) : List (Bool × Nat × ErrCode) :=
  let g := acqStg s u
  let c := g Reg.ACQ.CFG
  let tr := g Reg.ACQ.TRIG
  let dig := acqDigital g
  let run := inSt s .acq u [.run]
  let work := acqAtWork s u
  let n := acqPre g + acqPost g
  let kind := fld tr 0 3
  let trigSrc := g (Reg.ACQ.SRC + 4 * fld tr 8 4)
  let onSource := (kind == 1 || kind == 2) && !dig
  [(fld c 2 2 == 3 || decide (10 < acqK g), Reg.ACQ.CFG, .range),
   (dig && (acqEvent g || acqK g != 0), Reg.ACQ.CFG, .conflict),
   (!dig && (acqSources g).isEmpty, Reg.ACQ.CFG, .conflict),
   (dig && (List.range 32).all (fun l => fld (g (Reg.ACQ.LINE + 4 * l)) 0 4 == 0), Reg.ACQ.CFG, .conflict),
   (run && (dig != acqDigital (acqReg s u) || acqEvent g != acqEvent (acqReg s u)), Reg.ACQ.CFG, .wrongState),
   (work && decide (acqRoom s < acqClaims s u + acqClaim s g), Reg.ACQ.CFG, .conflict),
   (decide ((g Reg.ACQ.PERIOD).toNat < (if dig then 1 else 20)), Reg.ACQ.PERIOD, .range),
   (decide ((g Reg.ACQ.MIN_T).toNat < 20), Reg.ACQ.MIN_T, .range),
   (decide (268435456 < n), Reg.ACQ.PRE, .range),
   (decide (acqAlloc s u g < n), Reg.ACQ.PRE, .memExceeded),
   (acqPost g == 0, Reg.ACQ.POST, .range),
   (kind == 7 || fld tr 4 2 == 3 || fld tr 20 3 == 7, Reg.ACQ.TRIG, .range),
   (onSource && (fld trigSrc 0 2 == 0 || srcType s trigSrc == 2), Reg.ACQ.TRIG, .conflict),
   (kind == 3 && !dig, Reg.ACQ.TRIG, .conflict),
   (kind == 5 && (fld tr 16 4 == u || acqLoop s u 17 (fld tr 16 4)), Reg.ACQ.TRIG, .conflict)] ++
  (List.range 16).flatMap (fun i =>
    let o := Reg.ACQ.SRC + 4 * i
    let w := g o
    let k := fld w 0 2
    [(k == 3 || (k == 2 && decide (95 < fld w 2 7)), o, .range),
     (k == 1 && !(sigEnt s (fld w 16 16)).en, o, .conflict),
     (k == 2 && !powered s .fch (fld w 2 7), o, .notPresent)]) ++
  (List.range 32).map (fun l =>
    let o := Reg.ACQ.LINE + 4 * l
    let k := fld (g o) 0 4
    (decide (10 < k) || (k != 0 && decide (lineCount k ≤ fld (g o) 4 8)), o, .range))

/-- After a commit the derived registers follow. -/
def acqCommitted (s : State) (u : Nat) : State := acqShow s u

/-- The page is switched off: what is being recorded is dropped. -/
def acqDisabled (s : State) (u : Nat) : State := acqShow (setPhase (setAcq (setSt s .acq u .off) u .reset) u 0) u

end Sys2Proof.Machine
end

