-- ==== Sys2Proof/Machine/Apc.lean ====
section
/-! DEFINITION. The application cores and the service mailbox (R448, R449). -/
namespace Sys2Proof.Machine

/-- The start address of an application core. -/
def apBoot (s : State) (i : Nat) : Nat := rgU64 s .apc 0 (Reg.APC.AP0_BOOT_LO + 8 * i)

/-- Whether a start address lies in the application-core partition or an XIP window (R448). -/
def apBootOk (s : State) (a : Nat) : Bool := inAp s a 1 || (0x20000000 ≤ a && a < 0x40000000)

/-- Whether an application core runs: PD2 is on and no debug halt holds it. -/
def apRuns (s : State) (i : Nat) : Bool := s.dom.getLsbD 2 && !s.apHalt.getLsbD i

/-- What APC says of its commands (R448, R450). -/
def apcRule (s : State) (code : Nat) : Option CmdRule :=
  match code with
  | 0x05 => some ⟨false, true, none⟩
  | 0x10 => some ⟨false, true, firstOf [(!s.dom.getLsbD 2, .notPresent), (s.apRestart.isSome, .busy)]⟩
  | 0x11 => some ⟨false, true, firstOf [(!s.dom.getLsbD 2, .notPresent), (s.apRestart.isSome, .busy)]⟩
  | _ => none

/-- A core restarts: PHASE 1 until it writes its READY bit, for at most 120 ms (R448). -/
def apRestartAct (s : State) (i : Nat) : State :=
  let n := rf s .apc 0 Reg.APC.RESTART_CNT (16 * i) 16 + 1
  let s1 := wf (wb s .apc 0 Reg.APC.READY i false) .apc 0 Reg.APC.RESTART_CNT (16 * i) 16 (n % 65536)
  opStart { s1 with apRestart := some (i, s.lap s.now + 960000000), apHalt := s1.apHalt &&& ~~~(1#2 <<< i)
                    dbgHalt := s1.dbgHalt.filter (fun e => match e with | .ap j => j.val != i | _ => true) } .apc 0 0 1 0

/-- The effect of an APC command. -/
def apcAct (s : State) (code : Nat) : State :=
  match code with
  | 0x10 => apRestartAct s 0
  | 0x11 => apRestartAct s 1
  | _ => s

/-- A write of READY: a core reaches its own bit only (R448). -/
def readyWrite (s : State) (m : Master) (v : Word) : State :=
  let i := if m = .ap0 then some 0 else if m = .ap1 then some 1 else none
  match i with
  | none => s
  | some i =>
    let s1 := wb s .apc 0 Reg.APC.READY i (bit v i)
    match s.apRestart with
    | some (k, _) => if k = i ∧ bit v i = true then setInt (opDone { s1 with apRestart := none } .apc 0) .apc 0 2 else s1
    | none => s1

/-- No READY within 120 ms (R448). -/
def restartTimeout (s0 : State) (t : Nat) : State :=
  let s := s0.at t
  match s.apRestart with
  | some (_, due) =>
    if due ≤ s.lap t then setInt (opFail { s with apRestart := none } .apc 0 .wrongState 0x010) .apc 0 3 else s
  | none => s

/-! ## The mailbox (R449) -/

/-- Whether a request is pending. -/
def reqPend (s : State) : Bool := rb s .apc 0 Reg.APC.MB_STAT 0

/-- A write of MB_REQ or MB_RING, discarded while a request is pending. -/
def mbReqWrite (s : State) (off : Nat) (v : Word) : State :=
  if reqPend s then rejWr s .apc 0 .busy off else wr s .apc 0 off v

/-- MB_RING rings. -/
def mbRing (s : State) : State :=
  if reqPend s then rejWr s .apc 0 .busy Reg.APC.MB_RING else setInt (wb s .apc 0 Reg.APC.MB_STAT 0 true) .apc 0 0

/-- MB_RSP and MB_RSP_RING: application cores only. -/
def mbRspWrite (s : State) (m : Master) (off : Nat) (v : Word) : State := if m.isAp then wr s .apc 0 off v else s
def mbRspRing (s : State) (m : Master) : State :=
  if m.isAp then setInt (wb s .apc 0 Reg.APC.MB_STAT 1 true) .apc 0 1 else s

/-- MB_ACK clears REQ_PEND and RSP_PEND. -/
def mbAck (s : State) (v : Word) : State :=
  let s1 := if bit v 0 then wb s .apc 0 Reg.APC.MB_STAT 0 false else s
  if bit v 1 then wb s1 .apc 0 Reg.APC.MB_STAT 1 false else s1

/-- The tests of a staged APC set: start addresses (R448). -/
def apcValidate (s : State) : List (Bool × Nat × ErrCode) :=
  [0, 1].map (fun i =>
    let o := Reg.APC.AP0_BOOT_LO + 8 * i
    (!apBootOk s (joinN (staged s .apc 0 o) (staged s .apc 0 (o + 4))), o, .range))

end Sys2Proof.Machine
end

