-- ==== Sys2Proof/Machine/Pcmp.lean ====
section
/-! DEFINITION. Position compare and latch units (R143 to R159). -/
namespace Sys2Proof.Machine

/-! ## The compared value (R144, R145) -/

/-- CFG.SRC_KIND and SRC_INDEX. -/
def pcmpKind (s : State) (n : Nat) : Nat := rf s .pcmp n Reg.PCMP.CFG 0 2
def pcmpSrc (s : State) (n : Nat) : Nat := rf s .pcmp n Reg.PCMP.CFG 2 6

/-- The compared value at an extended time, in units of 2⁻³² counts or ns: the interpolated position advanced by LEAD, or
device time. -/
def pcmpValue (s : State) (n t : Nat) : Int :=
  match pcmpKind s n with
  | 1 =>
    let c := pcmpSrc s n
    let l : Int := rf s .pcmp n Reg.PCMP.LEAD 0 16
    let adv := fq (2 * perS * encSpd s c t * l + 65536 * encAcc s c t * l * l) (2 * perS * perS)
    fq (encPosF s c t) 65536 + adv * 65536
  | 2 => ((devTime t).toNat : Int) * 536870912
  | _ => 0

/-- The direction of an entry as a check takes it: with ANY that of the channel's last edge (R149). -/
def pcmpAim (s : State) (n : Nat) (e : PcmpEnt) : PcmpEnt := { e with back := e.dir == 2 || (e.dir == 0 && encBack s (pcmpSrc s n)) }

/-- Whether a compare value has been reached by a compared value in a direction (R145); with the TIME source reckoned modulo 2³² ns. -/
def pcmpPast (time back : Bool) (pos v : Int) : Bool :=
  if time then decide ((v - pos) % 18446744073709551616 < 9223372036854775808)
  else if back then decide (v ≤ pos) else decide (pos ≤ v)

/-- Whether an entry's compare value has been reached in its direction at an extended time. -/
def pcmpBehind (s : State) (n t : Nat) (e : PcmpEnt) : Bool := pcmpPast (pcmpKind s n == 2) e.back e.pos (pcmpValue s n t)

/-! ## Firing (R147 to R151) -/

/-- Signals of a unit that publish at an edge event: LATCH and MARK registers, or FIRE_CNT (R158). -/
def pcmpPub (s : State) (n t : Nat) (fire : Bool) : State :=
  pubIf s .pcmp n .edge (devTime t) (fun e =>
    let w := 4 * e.word
    if fire then w == Reg.PCMP.FIRE_CNT
    else (Reg.PCMP.LATCH_POS_LO ≤ w && w ≤ Reg.PCMP.MARK_MISS_CNT))

/-- The output level at a later time: the pulse in progress may have ended by then, and the one after it begun (R151). -/
def pcmpLevelAt (s : State) (n t : Nat) : Bool :=
  let x := pcmpOf s n
  match x.next with
  | some (a, b) => if a ≤ t then decide (t < b) else rb s .pcmp n Reg.PCMP.STAT 0 && x.pulse.all (fun e => decide (t < e))
  | none => rb s .pcmp n Reg.PCMP.STAT 0 && x.pulse.all (fun e => decide (t < e))

/-- The pulse after a gap has begun: its pin edge lies no later than an extended time (R151). -/
def pcmpRise (s : State) (n t : Nat) : State :=
  let x := pcmpOf s n
  match x.pulse, x.next with
  | none, some (a, b) => if a ≤ t then pcmpOut (setPcmp s n { x with pulse := some b, next := none }) n true else s
  | _, _ => s

/-- A PULSE at the pin from an extended time (R151): while one is still active there it only moves its end and sets OVERLAP; after one
that ends before, the output is inactive in between. -/
def pcmpPulse (s : State) (n tPin width : Nat) : State :=
  let x := pcmpOf s n
  match x.pulse, x.next with
  | _, some (a, _) => setInt (setPcmp s n { x with next := some (a, tPin + width) }) .pcmp n 4
  | some e, none =>
    if tPin < e then setInt (setPcmp s n { x with pulse := some (tPin + width) }) .pcmp n 4
    else setPcmp s n { x with next := some (tPin, tPin + width) }
  | none, none => setPcmp (pcmpOut s n true) n { x with pulse := some (tPin + width) }

/-- An action at the pin, at an extended time (R147, R151). -/
def pcmpAction (s : State) (n tPin : Nat) (e : PcmpEnt) : State :=
  let x := pcmpOf s n
  let s1 := wrTs (incWrap s .pcmp n Reg.PCMP.FIRE_CNT) .pcmp n Reg.PCMP.FIRE_TS_LO (devTime tPin)
  let s2 := if e.fireInt then setInt s1 .pcmp n 0 else s1
  let s3 := match e.action with
    | 0 => pcmpPulse s2 n tPin e.width
    | 1 => setPcmp (pcmpOut s2 n true) n { x with pulse := none, next := none }
    | 2 => setPcmp (pcmpOut s2 n false) n { x with pulse := none, next := none }
    | _ => setPcmp (pcmpOut s2 n (!pcmpLevelAt s2 n tPin)) n { x with pulse := none, next := none }
  pcmpPub s3 n tPin true

/-- QLOW sets when QCOUNT falls to its level or past it. -/
def pcmpQlow (s : State) (n was : Nat) : State :=
  let l := rf s .pcmp n Reg.PCMP.CFG 24 5
  if l < was && (pcmpOf s n).q.length ≤ l then setInt s .pcmp n 10 else s

/-- The queue replaced after a removal. -/
def pcmpTake (s : State) (n : Nat) (q : List PcmpEnt) : State :=
  pcmpQlow (pcmpSync (setPcmp s n { pcmpOf s n with q := q }) n) n (pcmpOf s n).q.length

/-- An entry found behind is missed, with the repetitions it still has (R149). -/
def pcmpMiss (s : State) (n : Nat) (e : PcmpEnt) : State :=
  let s1 := wr s .pcmp n Reg.PCMP.MISS_CNT (satAdd (rg s .pcmp n Reg.PCMP.MISS_CNT) (1 + e.rep))
  let s2 := setInt (wb s1 .pcmp n Reg.PCMP.STAT 3 true) .pcmp n 2
  raise s2 0x14 .pcmp n 0 (rf s2 .pcmp n Reg.PCMP.MISS_CNT 0 16)

/-- An entry found behind fires late, its pin edge 16 ns after the check (R149). -/
def pcmpLate (s : State) (n t : Nat) (e : PcmpEnt) : State :=
  let s1 := pcmpAction s n (t + 128) e
  setInt (wb (incSat s1 .pcmp n Reg.PCMP.LATE_CNT) .pcmp n Reg.PCMP.STAT 4 true) .pcmp n 3

/-- The entry after one firing that is not its last (R148). -/
def PcmpEnt.advance (e : PcmpEnt) : PcmpEnt := { e with pos := e.pos + e.inc, rep := e.rep - 1 }

/-- The check of R149 on one entry, which takes its direction, with at most `fuel` firings: the state and the entry if it stays. A late entry that is not at the head
leaves the queue with its first firing. -/
def pcmpCheck : Nat → State → Nat → Nat → Bool → PcmpEnt → State × Option PcmpEnt
  | 0, s, _, _, _, e => (s, some e)
  | fuel + 1, s, n, t, head, e0 =>
    let e := pcmpAim s n e0
    if pcmpBehind s n t e then
      if rb s .pcmp n Reg.PCMP.CFG 8 then
        let s1 := pcmpLate s n t e
        if e.rep = 0 then (setInt s1 .pcmp n 1, none)
        else if head then pcmpCheck fuel s1 n t head e.advance
        else (s1, none)
      else (pcmpMiss s n e, none)
    else (s, some e)

/-- The check of R149 on the head, and on each entry that becomes the head. -/
def pcmpHeadsGo : List PcmpEnt → State → Nat → Nat → State × List PcmpEnt
  | [], s, _, _ => (s, [])
  | e :: q, s, n, t =>
    match pcmpCheck (e.rep + 1) s n t true e with
    | (s1, some e1) => (s1, e1 :: q)
    | (s1, none) => pcmpHeadsGo q s1 n t

/-- The queue after a check; a unit that a missed entry's reaction took to SAFE keeps the empty queue of SAFE (R156). -/
def pcmpKeep (r : State × List PcmpEnt) (n : Nat) : State := if stOf r.1 .pcmp n == .safe then r.1 else pcmpTake r.1 n r.2

/-- The head checked at an extended time. -/
def pcmpHeads (s : State) (n t : Nat) : State :=
  if stOf s .pcmp n == .safe then s else pcmpKeep (pcmpHeadsGo (pcmpOf s n).q s n t) n

/-- Every queued entry checked (R152, R156). -/
def pcmpAll (s : State) (n t : Nat) : State :=
  pcmpKeep ((pcmpOf s n).q.foldl (fun (a : State × List PcmpEnt) e =>
    match pcmpCheck (e.rep + 1) a.1 n t a.2.isEmpty e with
    | (s1, some e1) => (s1, a.2 ++ [e1])
    | (s1, none) => (s1, a.2)) (s, [])) n

/-- Whether the head is armed and its compare value is reached, in the direction of its check, at an instant whose nearest step is an extended
time or lies before it (R144, R145, R147): by half a step later. Device time moves in whole steps. -/
def pcmpReached (s : State) (n t : Nat) : Bool :=
  match (pcmpOf s n).q with
  | [] => false
  | e :: _ => stOf s .pcmp n == .run &&
      (if pcmpKind s n == 2 then pcmpBehind s n t e
       else pcmpPast false e.back (2 * e.pos) (pcmpValue s n t + pcmpValue s n (t + 1)))

/-- The head fires: the compared value has reached its compare value at an extended time, and the action stands at the pin 16 ns later
(R144, R147, R148). -/
def pcmpFire (s0 : State) (n t : Nat) : State :=
  let s := pcmpRise s0 n t
  match (pcmpOf s n).q with
  | [] => s
  | e :: q =>
    if pcmpReached s n t then
      let s1 := pcmpAction s n (t + 128) e
      if e.rep = 0 then pcmpHeads (pcmpTake (setInt s1 .pcmp n 1) n q) n t
      else pcmpHeads (pcmpTake s1 n (e.advance :: q)) n t
    else s

/-- A pulse ends (R147): its end stands in the unit, and a SET, CLEAR or TOGGLE has cancelled it (R151). -/
def pcmpPulseEnd (s0 : State) (n t : Nat) : State :=
  let s := pcmpRise s0 n t
  let x := pcmpOf s n
  match x.pulse with
  | some e => if e ≤ t then pcmpRise (pcmpOut (setPcmp s n { x with pulse := none }) n false) n t else s
  | none => s

/-! ## Latches and registration windows (R153 to R155) -/

/-- The bounds of window k of the series. -/
def pcmpWindow (s : State) (n k : Nat) : Int × Int :=
  let w := rg64 s .pcmp n Reg.PCMP.WIN_START_LO + k * rgU64 s .pcmp n Reg.PCMP.WIN_PITCH_LO + (pcmpOf s n).winShift
  (w, w + rgU64 s .pcmp n Reg.PCMP.WIN_LEN_LO)

/-- The number of the first window ahead of a position; with WIN_PITCH=0 there is only window 0. -/
def pcmpNextWin (s : State) (n : Nat) (p : Int) : Nat :=
  let w := (pcmpWindow s n 0).1
  let pitch : Int := rgU64 s .pcmp n Reg.PCMP.WIN_PITCH_LO
  if p < w then 0 else if pitch = 0 then 1 else ((p - w) / pitch + 1).toNat

/-- The source's position reaches the start of the next window in forward motion (R155). -/
def pcmpWinOpen (s : State) (n t : Nat) : State :=
  let x := pcmpOf s n
  let only := rgU64 s .pcmp n Reg.PCMP.WIN_PITCH_LO = 0 && 0 < x.winNext
  let w := pcmpWindow s n x.winNext
  if stOf s .pcmp n == .run && rb s .pcmp n Reg.PCMP.LATCH_CFG 16 && pcmpKind s n == 1 && !encBack s (pcmpSrc s n)
      && !only && x.win.isNone && decide (w.1 ≤ encPos s (pcmpSrc s n) t) then
    wb (setPcmp s n { x with win := some (w.1, w.2, false), winNext := x.winNext + 1 }) .pcmp n Reg.PCMP.STAT 6 true
  else s

/-- The position has passed the open window, which closes: without a mark it counts as missed (R155). -/
def pcmpWinClose (s : State) (n t : Nat) : State :=
  let x := pcmpOf s n
  match x.win with
  | some (_, e, got) =>
    if encPos s (pcmpSrc s n) t < e then s
    else
      let s1 := wb (setPcmp s n { x with win := none }) .pcmp n Reg.PCMP.STAT 6 false
      if got then s1 else setInt (incSat s1 .pcmp n Reg.PCMP.MARK_MISS_CNT) .pcmp n 9
  | none => s

/-- A mark: the first accepted edge inside an open window (R155). -/
def pcmpMark (s : State) (n : Nat) (p : Int) : State × Bool :=
  let x := pcmpOf s n
  match x.win with
  | some (w, e, false) =>
    if rb s .pcmp n Reg.PCMP.LATCH_CFG 16 && w ≤ p && p ≤ e then
      let s1 := setPcmp s n { x with win := some (w, e, true) }
      let s2 := wr64 (wr64 s1 .pcmp n Reg.PCMP.MARK_POS_LO p) .pcmp n Reg.PCMP.MARK_DEV_LO
        (p - (w + rg64 s .pcmp n Reg.PCMP.MARK_EXPECT_LO))
      (setInt (incWrap s2 .pcmp n Reg.PCMP.MARK_CNT) .pcmp n 8, true)
    else (s, false)
  | _ => (s, false)

/-- Whether the latch input has an edge at `te` that has held its level since, for FILT: of a trigger line the level consumers see and the
time of its change; the event itself says so of the pin (R153). -/
def pcmpEdge (s : State) (n te : Nat) (rising : Bool) : Bool :=
  let c := rg s .pcmp n Reg.PCMP.LATCH_CFG
  let l := fld c 4 3
  !bit c 2 || (s.trgSeen.getLsbD l == rising && SMap.get (fun _ => 0) s.trgAt l == te)

/-- An accepted edge of the latch input, with the time `te` of its transition at the pad, FILT before the present (R153). An edge that finds
the queue full is lost, and publishes what stands as any accepted edge does (R158). -/
def pcmpLatch (s0 : State) (n te : Nat) (rising : Bool) : State :=
  let s := s0.at (te + 10 * rf s0 .pcmp n Reg.PCMP.LATCH_CFG 8 8)
  let ed := rf s .pcmp n Reg.PCMP.LATCH_CFG 0 2
  if stOf s .pcmp n != .run || !(if rising then ed == 1 || ed == 3 else ed == 2 || ed == 3) || !pcmpEdge s n te rising then s0
  else if 8 ≤ (pcmpOf s n).lq.length then pcmpPub (setInt (wb s .pcmp n Reg.PCMP.STAT 5 true) .pcmp n 7) n te false
  else
    let p : Int := if pcmpKind s n == 1 then encPos s (pcmpSrc s n) te else 0
    let m := pcmpMark s n p
    let x := pcmpOf m.1 n
    let s1 := setPcmp m.1 n { x with lq := x.lq ++ [⟨BitVec.ofInt 64 p, devTime te, rising, m.2⟩] }
    pcmpPub (setInt (pcmpSync s1 n) .pcmp n 6) n te false

/-- A read of LATCH_POS_LO returns and removes the oldest entry and snapshots its other words (R154). -/
def pcmpLatchRead (s : State) (n : Nat) : State × Word :=
  let x := pcmpOf s n
  let snap (s : State) (hi tl th : Word) : State :=
    s.modPage (pk .pcmp n) (Page.latch [(Reg.PCMP.LATCH_POS_HI, hi), (Reg.PCMP.LATCH_TS_LO, tl), (Reg.PCMP.LATCH_TS_HI, th)])
  match x.lq with
  | [] => (snap s 0 0 0, 0)
  | l :: q =>
    let s1 := pcmpSync (setPcmp s n { x with lq := q }) n
    (snap s1 ((l.pos >>> 32).setWidth 32) (tsLo l.ts) (ofN ((tsHi l.ts).toNat + 8 * b2n l.rising + 16 * b2n l.mark)),
      l.pos.setWidth 32)

/-! ## Shifts and the source (R152, R156) -/

/-- The source channel's position is shifted by `o` (R152). -/
def pcmpShift (s : State) (n t : Nat) (o : Int) : State :=
  let x := pcmpOf s n
  if rb s .pcmp n Reg.PCMP.CFG 9 then
    let s1 := setInt s .pcmp n 5
    if stOf s .pcmp n == .run then pcmpAll s1 n t else s1
  else
    let mv (e : PcmpEnt) : PcmpEnt := { e with pos := e.pos + o * 65536 }
    let w' := x.win.map (fun w => (w.1 + o, w.2.1 + o, w.2.2))
    let s1 := setPcmp s n { x with q := x.q.map mv, winShift := x.winShift + o, win := w' }
    setInt (pcmpSync s1 n) .pcmp n 5

/-- Every enabled unit on an ENC channel sees its shift. -/
def pcmpShiftAll (s : State) (c t : Nat) (o : Int) : State :=
  (insts .pcmp).foldl (fun s n =>
    if pcmpKind s n == 1 && pcmpSrc s n == c && stOf s .pcmp n != .off then pcmpShift s n t o else s) s

/-- A unit enters FAULT: the output takes its inactive level and the queue is kept (R156). -/
def pcmpFault (s : State) (n : Nat) : State :=
  let x := pcmpOf s n
  safeAll (wb (pcmpOut (setPcmp (setSt s .pcmp n .fault) n { x with pulse := none, next := none, win := none }) n false) .pcmp n
    Reg.PCMP.STAT 6 false) .pcmp n

/-- An ENC channel has left RUN: the units that compare it enter FAULT (R156). -/
def pcmpLost (s : State) (c : Nat) : State :=
  (insts .pcmp).foldl (fun s n =>
    if pcmpKind s n == 1 && pcmpSrc s n == c && inSt s .pcmp n [.run, .hold] then pcmpFault s n else s) s

/-! ## Control (R156 to R158) -/

/-- What the page says of its commands (R157). -/
def pcmpRule (s : State) (n code : Nat) : Option CmdRule :=
  let st := stOf s .pcmp n
  match code with
  | 0x01 => some ⟨false, false, firstOf [(st != .idle || blocked s .pcmp n, .wrongState),
      (pcmpKind s n == 0, .conflict),
      ((rf s .pcmp n Reg.PCMP.CFG 12 2 != 2 && !padsAre s 1 [224 + 2 * n]) ||
        (rf s .pcmp n Reg.PCMP.LATCH_CFG 0 2 != 0 && !rb s .pcmp n Reg.PCMP.LATCH_CFG 2 && !padsAre s 1 [225 + 2 * n]), .conflict)]⟩
  | 0x02 => some ⟨true, false, firstOf [(!inSt s .pcmp n [.run, .hold, .safe], .wrongState)]⟩
  | 0x03 => some ⟨true, false, firstOf [(!holdable s .pcmp n, .wrongState)]⟩
  | 0x04 => some ⟨false, false, firstOf [(st != .hold || blocked s .pcmp n, .wrongState)]⟩
  | 0x05 => some ⟨false, false, none⟩
  | 0x06 => some ⟨false, false, firstOf [(st != .fault || (pcmpKind s n == 1 && stOf s .enc (pcmpSrc s n) != .run), .wrongState)]⟩
  | 0x10 => some ⟨true, true, firstOf [(st == .off, .wrongState)]⟩
  | 0x11 => some ⟨false, true, firstOf [(st == .off, .wrongState)]⟩
  | _ => none

/-- START: the sticky bits and counters it clears, the window series as WIN_START now stands (R155), the checks of R156. -/
def pcmpStart (s : State) (n : Nat) : State :=
  let s1 := [Reg.PCMP.MISS_CNT, Reg.PCMP.LATE_CNT, Reg.PCMP.MARK_CNT, Reg.PCMP.MARK_MISS_CNT].foldl
    (fun s o => wr s .pcmp n o 0) s
  let s2 := wb (wb (wb s1 .pcmp n Reg.PCMP.STAT 3 false) .pcmp n Reg.PCMP.STAT 4 false) .pcmp n Reg.PCMP.STAT 7 false
  let s3 := wb (setSt (setPcmp s2 n { pcmpOf s2 n with winShift := 0 }) .pcmp n .run) .pcmp n Reg.PCMP.STAT 6 false
  let p := if pcmpKind s n == 1 then encPos s (pcmpSrc s n) s.now else 0
  let x := pcmpOf s3 n
  pcmpHeads (pcmpAll (setPcmp s3 n { x with win := none, winNext := pcmpNextWin s3 n p }) n s.now) n s.now

/-- A unit that left HOLD checks its head (R156). -/
def pcmpResume (s : State) (n : Nat) : State := pcmpHeads s n s.now

/-- The effect of a command (R157). -/
def pcmpAct (s : State) (n code : Nat) : State :=
  match code with
  | 0x01 => pcmpStart s n
  | 0x02 => setSt (wb (setPcmp s n { pcmpOf s n with win := none }) .pcmp n Reg.PCMP.STAT 6 false) .pcmp n .idle
  | 0x03 => setSt s .pcmp n .hold
  | 0x04 => pcmpResume (setSt s .pcmp n .run) n
  | 0x06 => setSt s .pcmp n .idle
  | 0x10 => pcmpTake s n []
  | 0x11 => wb (pcmpSync (setPcmp s n { pcmpOf s n with lq := [] }) n) .pcmp n Reg.PCMP.STAT 5 false
  | _ => s

/-- The tests of a staged set (R146, R155, R158). -/
def pcmpValidate (s : State) (n : Nat) : List (Bool × Nat × ErrCode) :=
  let c := staged s .pcmp n Reg.PCMP.CFG
  let l := staged s .pcmp n Reg.PCMP.LATCH_CFG
  let e := staged s .pcmp n Reg.PCMP.ENTRY_CTRL
  let len := joinN (staged s .pcmp n Reg.PCMP.WIN_LEN_LO) (staged s .pcmp n Reg.PCMP.WIN_LEN_HI)
  let pitch := joinN (staged s .pcmp n Reg.PCMP.WIN_PITCH_LO) (staged s .pcmp n Reg.PCMP.WIN_PITCH_HI)
  [(fld c 0 2 == 3 || fld c 12 2 == 3, Reg.PCMP.CFG, .range),
   (inSt s .pcmp n [.run, .hold] && fld c 0 8 != rf s .pcmp n Reg.PCMP.CFG 0 8, Reg.PCMP.CFG, .wrongState),
   (bit l 16 && fld c 0 2 == 2, Reg.PCMP.LATCH_CFG, .conflict),
   (fld e 2 2 == 3, Reg.PCMP.ENTRY_CTRL, .range),
   (fld c 0 2 == 2 && fld e 2 2 != 0, Reg.PCMP.ENTRY_CTRL, .conflict),
   (bit e 4 && 32 ≤ (pcmpOf s n).q.length, Reg.PCMP.ENTRY_CTRL, .memExceeded),
   (staged s .pcmp n Reg.PCMP.ENTRY_WIDTH |>.toNat |> (· < 16), Reg.PCMP.ENTRY_WIDTH, .range),
   (bit l 16 && (len == 0 || (pitch != 0 && pitch < len)), Reg.PCMP.WIN_LEN_LO, .range)]

/-- The entry that the window registers hold (R147). -/
def pcmpEntry (s : State) (n : Nat) : PcmpEnt :=
  let c := rg s .pcmp n Reg.PCMP.ENTRY_CTRL
  let lo := rg s .pcmp n Reg.PCMP.ENTRY_POS_LO
  let hi := rg s .pcmp n Reg.PCMP.ENTRY_POS_HI
  { pos := if pcmpKind s n == 2 then (joinN lo hi % 34359738368 : Nat) * 536870912 else join lo hi * 65536
    inc := rg64 s .pcmp n Reg.PCMP.ENTRY_INC_LO, dir := fld c 2 2, action := fld c 0 2
    width := rf s .pcmp n Reg.PCMP.ENTRY_WIDTH 0 24, rep := rf s .pcmp n Reg.PCMP.ENTRY_REPEAT 0 24
    fireInt := bit c 5, tag := fld c 8 8, back := false }

/-- The entry window appended to the queue, and checked in RUN (R146, R149). -/
def pcmpPush (s : State) (n : Nat) : State :=
  let e := pcmpEntry s n
  let x := pcmpOf s n
  let s1 := wb s .pcmp n Reg.PCMP.ENTRY_CTRL 4 false
  if stOf s .pcmp n == .run then
    match pcmpCheck (e.rep + 1) s1 n s.now x.q.isEmpty e with
    | (s2, some e1) => pcmpSync (setPcmp s2 n { pcmpOf s2 n with q := x.q ++ [e1] }) n
    | (s2, none) => s2
  else pcmpSync (setPcmp s1 n { x with q := x.q ++ [e] }) n

/-- The offsets of the window registers. -/
def pcmpWinRegs : List Nat :=
  [Reg.PCMP.WIN_START_LO, Reg.PCMP.WIN_START_HI, Reg.PCMP.WIN_PITCH_LO, Reg.PCMP.WIN_PITCH_HI, Reg.PCMP.WIN_LEN_LO,
   Reg.PCMP.WIN_LEN_HI, Reg.PCMP.LATCH_CFG]

/-- What follows a commit: a push, and a changed window series continues from the first window ahead (R146, R155); a new WIN_START is
one of the present frame. -/
def pcmpCommitted (s : State) (n : Nat) (old : Page) : State :=
  let ch (o : Nat) : Bool := SMap.get (regReset .pcmp) old.regs o != rg s .pcmp n o
  let s1 := if pcmpWinRegs.any ch then
      let p := if pcmpKind s n == 1 then encPos s (pcmpSrc s n) s.now else 0
      let s' := if ch Reg.PCMP.WIN_START_LO || ch Reg.PCMP.WIN_START_HI then setPcmp s n { pcmpOf s n with winShift := 0 } else s
      setPcmp s' n { pcmpOf s' n with winNext := pcmpNextWin s' n p }
    else s
  if rb s1 .pcmp n Reg.PCMP.ENTRY_CTRL 4 then pcmpPush s1 n else pcmpSync s1 n

/-- The page enabled or disabled (R156): EN=1 shows QEMPTY, EN=0 takes the output inactive. -/
def pcmpEnabled (s : State) (n : Nat) : State := pcmpSync s n
def pcmpDisabled (s : State) (n : Nat) : State :=
  pcmpSync (wb (pcmpOut (setPcmp (setSt s .pcmp n .off) n { pcmpOf s n with pulse := none, next := none, win := none }) n false) .pcmp n Reg.PCMP.STAT 6 false) n

/-- A base tick: the registers that publish at TICK do so in every state but OFF (R158). -/
def pcmpTick (s : State) (n : Nat) : State := if stOf s .pcmp n == .off then s else pubAll s .pcmp n .tick

/-- A step of device time that carries it to or past the head of a TIME unit makes the head fire (R145, R379). -/
def pcmpTimeStep (s : State) (t0 t1 : Nat) : State :=
  (insts .pcmp).foldl (fun s n =>
    match (pcmpOf s n).q with
    | e :: _ =>
      if stOf s .pcmp n == .run && pcmpKind s n == 2 && !pcmpBehind s n t0 e && pcmpBehind s n t1 e && t0 < t1 then
        pcmpFire s n t1
      else s
    | [] => s) s

end Sys2Proof.Machine
end

