-- ==== Sys2Proof/Machine/Shift.lean ====
section
/-! DEFINITION. What a shift of a feedback channel's frame does at once in other blocks (R152, R237). An axis carries it at
the tick at which its feedback first shows it (R110). -/
namespace Sys2Proof.Machine

/-- A number added to a wide register, active and staged, low word at `off`: where one word is staged, the other's staged value, so far the
active one, follows the carry too. -/
def addWide (s : State) (t : PgTy) (n off : Nat) (o : Int) : State :=
  let add (lo hi : Word) : Int := join lo hi + o
  let v := add (staged s t n off) (staged s t n (off + 4))
  let put (m : SMap Word) (k : Nat) (w : Word) : SMap Word := SMap.insert (SMap.erase m k) k w
  let some_ := (s.page (pk t n)).staged.any (fun e => e.1 == off || e.1 == off + 4)
  let s1 := wr64 s t n off (add (rg s t n off) (rg s t n (off + 4)))
  if some_ then s1.modPage (pk t n) (fun p => { p with staged := put (put p.staged off (lo32 v)) (off + 4) (hi32 v) }) else s1

/-- A number added to a one-word register, active and staged, wrapping. -/
def addWord (s : State) (t : PgTy) (n off : Nat) (o : Int) : State :=
  let st := (s.page (pk t n)).staged.map (fun e => if e.1 = off then (e.1, e.2 + ofI o) else e)
  (wr s t n off (rg s t n off + ofI o)).modPage (pk t n) (fun p => { p with staged := st })

/-- A control slot carries a shift of its repetitive master and of its angle channel (R237). -/
def cslotShift (s : State) (k c : Nat) (o : Int) : State :=
  let r := rg s .cslot k Reg.CSLOT.REP_CFG
  let a := rg s .cslot k Reg.CSLOT.ANGLE
  let s1 := if fld r 5 2 == 1 && fld r 8 7 == c then setInt (addWide s .cslot k Reg.CSLOT.REP_ORIGIN_LO o) .cslot k 8 else s
  if fld a 0 2 == 1 && fld a 2 6 == c then
    let e := rg s1 .cslot k Reg.CSLOT.ELEC
    let turns := rdiv (o * (fld e 24 7 : Nat) * 65536) (fld e 0 24)
    setInt (addWord s1 .cslot k Reg.CSLOT.THETA_OFS (-turns)) .cslot k 8
  else s1

/-- A shift of an ENC channel by `o` (2⁻¹⁶ counts) reaches the compare units and the control slots, these in any state (R237). -/
def feedShift (s : State) (c t : Nat) (o : Int) : State :=
  (insts .cslot).foldl (fun s k => if powered s .cslot k then cslotShift s k c o else s) (pcmpShiftAll s c t o)

end Sys2Proof.Machine
end

