-- ==== Sys2Proof/Machine/Enc.lean ====
section
/-! DEFINITION. Incremental feedback channels (R67 to R91). -/
namespace Sys2Proof.Machine

/-! ## Shifts (R74, R75) -/

/-- The observer position, the boundaries and COUNT moved by an offset: COUNT by ⌊b + o⌋ − ⌊b⌋ (R74). -/
def EncSt.shiftBy (e : EncSt) (o : Int) : EncSt :=
  { e with o := { e.o with p := e.o.p + fine o }, bnd := e.bnd + o, cnt := e.cnt + ((e.bnd + o) / 65536 - e.bnd / 65536)
           shift := e.shift + o }

/-- A shift applied: SHIFT shows it and the blocks that follow the channel carry it. -/
def encShift (s : State) (n t : Nat) (o : Int) : State :=
  let e := (encOf s n).shiftBy o
  let s1 := wr64 (wr (setEnc s n e) .enc n Reg.ENC.COUNT (ofI e.cnt)) .enc n Reg.ENC.SHIFT_LO o
  let s2 := if stOf s1 .enc n == .run then encShow s1 n t else wr64 s1 .enc n Reg.ENC.POS_LO (coarse e.o.p)
  feedShift s2 n t o

/-- The position moved so that it equals PRESET (R75). An index reset of the same cycle prevails: where it stands already, the position
stays and SHIFT shows the part of it that follows SET_POS (log entry 128). -/
def encSetPos (s : State) (n t : Nat) : State :=
  let p := rg64 s .enc n Reg.ENC.PRESET_LO
  if (encOf s n).rstCyc = some (t / 10) then setInt (wr64 s .enc n Reg.ENC.SHIFT_LO (encPos s n t - p)) .enc n 8
  else setInt (encShift s n t (p - encPos s n t)) .enc n 8

/-! ## Leaving RUN, LEARN_LINES -/

/-- The channel leaves RUN: the position it reached holds, speed and acceleration read 0 (log entry 126), an unfinished LEARN_LINES
fails, and the units that compare it see it. -/
def encLeave (s : State) (n t : Nat) (st : PgState) : State :=
  if stOf s .enc n == .run then
    let s1 := showFb s .enc n (encPos s n t) 0 0
    let e := encOf s1 n
    let s2 := setEnc s1 n { e with o := ⟨fine (encPos s n t), 0, 0, s.lap t⟩, fresh := true, edges := 0 }
    let s3 := if (s2.page (pk .enc n)).busy then opFail s2 .enc n .wrongState 0x010 else s2
    pcmpLost (leadSt s3 .enc n st) n
  else setSt s .enc n st

/-- The channel enters FAULT: its signals take their safe values (R87). -/
def encFault (s : State) (n t : Nat) : State := safeAll (encLeave s n t .fault) .enc n

/-! ## Counted edges (R68, R72, R78, R84, R85) -/

/-- The observer and the counter at a counted edge at time `te`; `b`: backward. -/
def EncSt.edge (e : EncSt) (b dir : Bool) (bw te : Nat) : EncSt :=
  let f := e.bnd % 65536
  let cnt := if b then e.cnt - 1 else e.cnt + 1
  let bnd := (if b then e.cnt else e.cnt + 1) * 65536 + f
  let first := e.fresh || e.edges = 0 || b != dir
  let tau := max (te - e.tEdge) 1
  let o : Obs :=
    if first then ⟨fine bnd, 0, 0, te⟩
    else if e.edges = 1 then ⟨fine bnd, fq (fine (if b then -65536 else 65536) * perS) tau, 0, te⟩
    else e.o.correct bw tau te (fine bnd)
  { e with o := o, cnt := cnt, bnd := bnd, edges := if first then 1 else min (e.edges + 1) 3, had := true, fresh := false
           tEdge := te, rev := if b then e.rev - 1 else e.rev + 1 }

/-- A counted edge (R68, R71, R84 to R86). DESIGN CHOICE (log entry 124): an accepted edge that counts nothing neither updates EDGE_TS
nor restarts the standstill time. -/
def encCount (s : State) (n te : Nat) (b : Bool) : State :=
  let e := encOf s n
  let dir := encBack s n
  let e' := e.edge b dir (rg s .enc n Reg.ENC.OBS_BW).toNat (s.lap te)
  let still := rb s .enc n Reg.ENC.STAT 0
  let first := e.fresh || e.edges = 0 || b != dir
  let s1 := wrTs (wr (setEnc s n e') .enc n Reg.ENC.COUNT (ofI e'.cnt)) .enc n Reg.ENC.EDGE_TS_LO (devTime te)
  let s2 := if first then
      let s' := wb (wb (wb s1 .enc n Reg.ENC.STAT 0 false) .enc n Reg.ENC.STAT 1 false) .enc n Reg.ENC.STAT 2 b
      let s' := if e.fresh || still then setInt s' .enc n 5 else s'
      if e.had && b != dir then setInt s' .enc n 6 else s'
    else if e.edges = 2 then setInt (wb s1 .enc n Reg.ENC.STAT 1 true) .enc n 7
    else s1
  let s3 := if opPhase s2 .enc n = 2 && (s2.page (pk .enc n)).busy && b != dir then opFail s2 .enc n .wrongState 0x010 else s2
  pubAllAt (encShow s3 n te) .enc n .edge (devTime te)

/-- An illegal transition (R69). -/
def encIllegal (s : State) (n t : Nat) : State :=
  let s1 := setInt (wb (incSat s .enc n Reg.ENC.EDGE_ERR_CNT) .enc n Reg.ENC.STAT 6 true) .enc n 3
  let s2 := raise s1 0x0B .enc n 0 0
  if rb s2 .enc n Reg.ENC.CFG 7 then encFault s2 n t else s2

/-! ## Modes (R68, R69) -/

/-- The forward Hall sequence UVW (Table 3-1). -/
def hallSeq : List Nat := [1, 3, 2, 6, 4, 5]

/-- The filtered levels of A, B and Z. -/
def encLevel (s : State) (n i : Nat) : Bool := rb s .enc n Reg.ENC.STAT (7 + i)

/-- STAT.LEVELS and HALL follow the filtered inputs. -/
def encLevels (s : State) (n : Nat) (a b z : Bool) : State :=
  let s1 := wf s .enc n Reg.ENC.STAT 7 3 (b2n a + 2 * b2n b + 4 * b2n z)
  wf s1 .enc n Reg.ENC.STAT 10 3 (4 * b2n a + 2 * b2n b + b2n z)

/-- A Hall state is accepted (R69). -/
def encHall (s : State) (n t te : Nat) (new : Nat) (inv : Bool) : State :=
  let old := (encOf s n).hall
  match hallSeq.idxOf? new with
  | none => encIllegal s n t
  | some j =>
    let s1 := setEnc s n { encOf s n with hall := new }
    match hallSeq.idxOf? old with
    | none => s1
    | some i =>
      let d := (j + 6 - i) % 6
      if d = 0 then s1
      else if d = 1 then encCount s1 n te inv
      else if d = 5 then encCount s1 n te (!inv)
      else encIllegal s1 n t

/-- Whether a level that stands since `te` has held for a filter time of FILT at `t` (R70): AB is field 0, Z field 8. -/
def encHeld (s : State) (n t te lo : Nat) : Bool := decide (te + 10 * rf s .enc n Reg.ENC.FILT lo 8 ≤ t)

/-- Whether the channel is in Hall mode, where Z is an input of the sector code under FILT.AB. -/
def encHallMode (s : State) (n : Nat) : Bool := rf s .enc n Reg.ENC.CFG 0 3 == 3

/-- Whether new levels have held for the filter times of the inputs that change. -/
def encAccepts (s : State) (n t te : Nat) (a b z : Bool) : Bool :=
  let ab := a != encLevel s n 0 || b != encLevel s n 1
  let zc := z != encLevel s n 2
  (!(ab || (zc && encHallMode s n)) || encHeld s n t te 0) && (!zc || encHallMode s n || encHeld s n t te 8)

/-- The filters accept new levels of A, B and Z together at time `t`, the transition being at the pad at `te` (R70, R71); outside Hall mode
a rising Z is an index, an event of its own (R73). DESIGN CHOICE (log entry 123): at DECODE ×1 the counted edge is tested before INV
swaps the direction. -/
def encEdge (s : State) (n t te : Nat) (a b z1 : Bool) : State :=
  let z := z1 && (encLevel s n 2 || encHallMode s n)
  if !inSt s .enc n [.idle, .run, .fault] || !encAccepts s n t te a b z then s
  else
    let a0 := encLevel s n 0
    let b0 := encLevel s n 1
    let z0 := encLevel s n 2
    let s1 := encLevels s n a b z
    if stOf s .enc n != .run then s1
    else
      let c := rg s .enc n Reg.ENC.CFG
      let inv := bit c 6
      match fld c 0 3 with
      | 0 =>
        if a != a0 && b != b0 then encIllegal s1 n t
        else if a != a0 then
          let back := a == b
          if fld c 4 2 == 0 || fld c 4 2 == 1 || (fld c 4 2 == 2 && a != back) then encCount s1 n te (back != inv) else s1
        else if b != b0 then
          if fld c 4 2 == 0 then encCount s1 n te ((a != b) != inv) else s1
        else s1
      | 1 => if a && !a0 then encCount s1 n te (b != inv) else s1
      | 2 =>
        let s2 := if a && !a0 then encCount s1 n te inv else s1
        if b && !b0 then encCount s2 n te (!inv) else s2
      | 3 => if a != a0 || b != b0 || z != z0 then encHall s1 n t te (4 * b2n a + 2 * b2n b + b2n z) inv else s1
      | _ => s1

/-! ## Index, line check, LEARN_LINES (R73 to R77) -/

/-- The count boundary nearest to a position, in the frame whose fraction is `f`. -/
def nearBoundary (p f : Int) : Int := (p - f + 32768) / 65536 * 65536 + f

/-- The line-count check at an accepted index (R76). -/
def encLines (s : State) (n t : Nat) : State :=
  let e := encOf s n
  let d := encBack s n
  let s1 := setEnc s n { e with idx := some (e.rev, d) }
  let lines := (rg s .enc n Reg.ENC.LINES).toNat
  match e.idx with
  | some (r, d0) =>
    let dev : Int := ((e.rev - r).natAbs : Int) - lines
    if lines = 0 || d != d0 || dev.natAbs ≤ (rg s .enc n Reg.ENC.LINE_TOL).toNat then s1
    else
      let s2 := setInt (wb (wr s1 .enc n Reg.ENC.LINE_DEV (ofI dev)) .enc n Reg.ENC.STAT 5 true) .enc n 2
      let s3 := raise s2 0x0C .enc n 0 ((ofI dev).toNat % 65536)
      if rb s3 .enc n Reg.ENC.CFG 8 then encFault s3 n t else s3
  | none => s1

/-- LEARN_LINES at an accepted index (R77); `prev`: the revolution counter at the index before. DESIGN CHOICE (log entry 125): VALUE is
truncated. -/
def encLearn (s : State) (n : Nat) (prev : Option (Int × Bool)) : State :=
  if !(s.page (pk .enc n)).busy then s
  else
    let e := encOf s n
    if opPhase s .enc n = 1 then setProg s .enc n 1 2 0
    else
      match prev with
      | none => s
      | some (r, _) =>
        let c : Int := (e.rev - r).natAbs
        let revs := rf s .enc n Reg.ENC.INDEX 8 8
        let k := e.learnN + 1
        let first := if e.learnN = 0 then c else e.learnFirst
        let s1 := setEnc s n { e with learnN := k, learnFirst := first, learnSum := e.learnSum + c }
        if (rg s .enc n Reg.ENC.LINE_TOL).toNat < (c - first).natAbs then opFail s1 .enc n .range 0x010
        else if revs ≤ k then opDone (wr s1 .enc n Reg.ENC.LINES_LEARNED (ofI (fq (e.learnSum + c) k))) .enc n
        else setProg s1 .enc n 1 2 (10000 * k / revs)

/-- A rising Z edge that held for FILT.Z is accepted (R70, R73, R74): Z was low, and it is no input of the sector code. -/
def encIndex (s : State) (n t te : Nat) : State :=
  if !inSt s .enc n [.idle, .run, .fault] || encHallMode s n || encLevel s n 2 || !encHeld s n t te 8 then s
  else
    let s0 := encLevels s n (encLevel s n 0) (encLevel s n 1) true
    let ix := rg s .enc n Reg.ENC.INDEX
    let gate := bit ix 6 && (encLevel s n 0 != bit ix 5 || encLevel s n 1 != bit ix 4)
    if stOf s .enc n != .run || gate then s0
    else
      let p := encPos s0 n te
      let prev := (encOf s0 n).idx
      let s1 := wrTs (wr64 s0 .enc n Reg.ENC.IDX_POS_LO p) .enc n Reg.ENC.IDX_TS_LO (devTime te)
      let s2 := setInt (wb (setEnc s1 n { encOf s1 n with idxN := (encOf s1 n).idxN + 1 }) .enc n Reg.ENC.STAT 4 true) .enc n 0
      let s3 :=
        if fld ix 0 2 == 1 || (fld ix 0 2 == 2 && rb s2 .enc n Reg.ENC.STAT 3) then
          let o := rg64 s2 .enc n Reg.ENC.PRESET_LO - nearBoundary p ((encOf s2 n).bnd % 65536)
          let s' := encShift (wb s2 .enc n Reg.ENC.STAT 3 false) n te o
          setInt (setEnc s' n { encOf s' n with rstCyc := some (te / 10) }) .enc n 1
        else s2
      let s4 := encLines s3 n t
      if stOf s4 .enc n == .run then encLearn s4 n prev else s4

/-- No edge has been accepted for STANDSTILL_T µs (R83). -/
def encStandstill (s : State) (n t : Nat) : State :=
  let e := encOf s n
  let due := e.tEdge + 8000 * (rg s .enc n Reg.ENC.STANDSTILL_T).toNat
  if stOf s .enc n == .run && !rb s .enc n Reg.ENC.STAT 0 && due ≤ s.lap t then
    let p := encPos s n t
    let s1 := setEnc s n { e with o := ⟨fine p, 0, 0, s.lap t⟩, fresh := true, edges := 0 }
    setInt (wb (encShow s1 n t) .enc n Reg.ENC.STAT 0 true) .enc n 4
  else s

/-- A base tick: the limited state is sampled (R80), and in RUN the TICK signals publish it (R87, R90). -/
def encTick (s : State) (n t : Nat) : State :=
  if inSt s .enc n [.idle, .run, .fault] then
    let s1 := encShow s n t
    let s2 := wr64 (wr64 s1 .enc n Reg.ENC.TICK_POS_LO (rg64 s1 .enc n Reg.ENC.POS_LO)) .enc n Reg.ENC.TICK_SPEED_LO
      (rg64 s1 .enc n Reg.ENC.SPEED_LO)
    let e := encOf s2 n
    let s3 := setEnc s2 n { e with tickA := rg64 s1 .enc n Reg.ENC.ACCEL_LO, tickS := e.shift }
    if stOf s3 .enc n == .run then pubAll s3 .enc n .tick else s3
  else s

/-! ## Control (R87 to R89) -/

/-- What the page says of its commands (R88). -/
def encRule (s : State) (n code : Nat) : Option CmdRule :=
  let st := stOf s .enc n
  match code with
  | 0x01 => some ⟨false, false, firstOf [(st != .idle, .wrongState), (!padsAre s 1 (padsOf .enc n), .conflict)]⟩
  | 0x02 => some ⟨true, false, firstOf [(st != .run, .wrongState)]⟩
  | 0x05 => some ⟨false, false, none⟩
  | 0x06 => some ⟨false, false, firstOf [(st != .fault, .wrongState)]⟩
  | 0x07 => some ⟨true, false, firstOf [(!(s.page (pk .enc n)).busy, .wrongState)]⟩
  | 0x10 => some ⟨false, false, firstOf [(!inSt s .enc n [.run, .idle], .wrongState)]⟩
  | 0x11 => some ⟨false, true, firstOf [(st != .run || rf s .enc n Reg.ENC.INDEX 0 2 != 2, .wrongState)]⟩
  | 0x12 => some ⟨false, true, firstOf [(st != .run, .wrongState), ((s.page (pk .enc n)).busy, .busy),
      (rf s .enc n Reg.ENC.INDEX 8 8 == 0, .range)]⟩
  | _ => none

/-- START: counting begins, the position is kept and the next edge is a first edge (R84, R87). -/
def encStart (s : State) (n : Nat) : State :=
  let s1 := [4, 5, 6].foldl (fun s i => wb s .enc n Reg.ENC.STAT i false) (wr s .enc n Reg.ENC.EDGE_ERR_CNT 0)
  let e := encOf s1 n
  let hall := rf s .enc n Reg.ENC.STAT 10 3
  setSt (setEnc s1 n { e with o := ⟨e.o.p, 0, 0, s.lap s.now⟩, fresh := true, edges := 0, tEdge := s.lap s.now, idx := none
                              hall := if hallSeq.contains hall then hall else 0 }) .enc n .run

/-- The effect of a command (R88, Table 3-3). -/
def encAct (s : State) (n code : Nat) : State :=
  match code with
  | 0x01 => encStart s n
  | 0x02 => wb (encLeave s n s.now .idle) .enc n Reg.ENC.STAT 3 false
  | 0x06 => wb (wb (setSt s .enc n .idle) .enc n Reg.ENC.STAT 5 false) .enc n Reg.ENC.STAT 6 false
  | 0x07 => opFail s .enc n .wrongState 0x010
  | 0x10 => encSetPos s n s.now
  | 0x11 => wb s .enc n Reg.ENC.STAT 3 true
  | 0x12 => opStart (setEnc s n { encOf s n with learnN := 0, learnFirst := 0, learnSum := 0 }) .enc n 1 1 0
  | _ => s

/-- The tests of a staged set (R68, R73, R74, R89). -/
def encValidate (s : State) (n : Nat) : List (Bool × Nat × ErrCode) :=
  let c := staged s .enc n Reg.ENC.CFG
  let a := rg s .enc n Reg.ENC.CFG
  let ix := stf s .enc n Reg.ENC.INDEX 0 2
  let bw := (staged s .enc n Reg.ENC.OBS_BW).toNat
  let ss := (staged s .enc n Reg.ENC.STANDSTILL_T).toNat
  [(4 ≤ fld c 0 3 || fld c 4 2 == 3, Reg.ENC.CFG, .range),
   (stOf s .enc n == .run && (fld c 0 3 != fld a 0 3 || fld c 4 2 != fld a 4 2), Reg.ENC.CFG, .wrongState),
   (ix == 3, Reg.ENC.INDEX, .range),
   (fld c 0 3 == 3 && ix != 0, Reg.ENC.INDEX, .conflict),
   (bw < 10 || 20000 < bw, Reg.ENC.OBS_BW, .range),
   (ss < 100 || 1000000 < ss, Reg.ENC.STANDSTILL_T, .range)]

/-- The page is disabled: nothing is counted. -/
def encDisabled (s : State) (n : Nat) : State := encLeave s n s.now .off

end Sys2Proof.Machine
end

