-- ==== Sys2Proof/Machine/Prk.lean ====
section
/-! DEFINITION. Pricking stores and their tables (R114 to R120, R142): points, interpolation, checking, protection. -/
namespace Sys2Proof.Machine

/-! ## Points (Table 4-2) -/

/-- A pricking point: X, Y and V as they stand in the store, and SEG. -/
structure PrkPoint where
  x : Int
  y : Int
  v : Int
  seg : Nat
  deriving DecidableEq, Repr

/-- The address of point i of store n (R114). -/
def prkAddr (n i : Nat) : Nat := 0x60000000 + n * 0x80000 + i * 32

/-- Point i of store n; X of a TIME table is unsigned. -/
def prkPoint (s : State) (n i : Nat) (time : Bool) : PrkPoint :=
  let a := prkAddr n i
  let lo := mem32 s a
  let hi := mem32 s (a + 4)
  { x := if time then joinN lo hi else join lo hi, y := join (mem32 s (a + 8)) (mem32 s (a + 12))
    v := join (mem32 s (a + 16)) (mem32 s (a + 20)), seg := fld (mem32 s (a + 24)) 0 3 }

/-- First point and number of points of table k of store n. -/
def prkStart (s : State) (n k : Nat) : Nat := rf s .prk n (Reg.PRK.TBL_RANGE + 4 * k) 0 14
def prkLen (s : State) (n k : Nat) : Nat := rf s .prk n (Reg.PRK.TBL_RANGE + 4 * k) 16 14 + 1

/-- KIND (1 MASTER) and CYCLIC of a table. -/
def prkMaster (s : State) (n k : Nat) : Bool := rb s .prk n (Reg.PRK.TBL_MODE + 4 * k) 0
def prkCyclic (s : State) (n k : Nat) : Bool := rb s .prk n (Reg.PRK.TBL_MODE + 4 * k) 1

/-- VALID of a table. -/
def prkValid (s : State) (n k : Nat) : Bool := rb s .prk n Reg.PRK.VALID k

/-- The points of a table in the units the axis counts x in: X of a TIME table in steps of 125 ps (8 to the ns). -/
def prkTable (s : State) (n k : Nat) : List PrkPoint :=
  let time := !prkMaster s n k
  (List.range (prkLen s n k)).map (fun i =>
    let p := prkPoint s n (prkStart s n k + i) time
    if time then { p with x := p.x * 8 } else p)

/-! ## Interpolation (R115) -/

/-- Position, first and second derivative by x at a point of a segment, as numerators over `den`: Y in 2⁻¹⁶ counts; `c` is
the scale of V (2³² for a slope, steps per second for a velocity). -/
structure Curve where
  y : Int
  d1 : Int
  d2 : Int
  den : Nat
  deriving DecidableEq, Repr

/-- The interpolation between two points at distance w from the first. -/
def segCurve (p q : PrkPoint) (c : Nat) (w : Int) : Curve :=
  let h := q.x - p.x
  let ci : Int := c
  if p.seg % 4 = 1 then
    { y := ci * h * h * (p.y * h + (q.y - p.y) * w), d1 := ci * h * h * (q.y - p.y), d2 := 0, den := (h * h * h).toNat * c }
  else
    { y := ci * ((2 * w * w * w - 3 * w * w * h + h * h * h) * p.y + (3 * w * w * h - 2 * w * w * w) * q.y)
        + h * ((w * w * w - 2 * w * w * h + w * h * h) * p.v + (w * w * w - w * w * h) * q.v)
      d1 := ci * (6 * w * w - 6 * w * h) * (p.y - q.y) + h * ((3 * w * w - 4 * w * h + h * h) * p.v + (3 * w * w - 2 * w * h) * q.v)
      d2 := ci * (12 * w - 6 * h) * (p.y - q.y) + h * ((6 * w - 4 * h) * p.v + (6 * w - 2 * h) * q.v)
      den := (h * h * h).toNat * c }

/-- The curve from a point on: at the last point it holds its Y. -/
def curveFrom (c : Nat) (x : Int) : PrkPoint → List PrkPoint → Curve
  | p, [] => ⟨p.y, 0, 0, 1⟩
  | p, q :: r => if x < q.x then segCurve p q c (x - p.x) else curveFrom c x q r

/-- The curve of a table at x: beyond its ends it holds the first or the last Y (R119). -/
def tableCurve (l : List PrkPoint) (c : Nat) (x : Int) : Curve :=
  match l with
  | [] => ⟨0, 0, 0, 1⟩
  | p :: r => if x < p.x then ⟨p.y, 0, 0, 1⟩ else curveFrom c x p r

/-- Whether x passed a point with MARK=1 between two ticks. -/
def tableMark (l : List PrkPoint) (x0 x1 : Int) : Bool :=
  l.any (fun p => decide (4 ≤ p.seg) && ((decide (x0 < p.x) && decide (p.x ≤ x1)) || (decide (x1 ≤ p.x) && decide (p.x < x0))))

/-- X of the last point, and Y of the first and the last. -/
def tableSpan (l : List PrkPoint) : Int := match l.getLast? with | some p => p.x | none => 0
def tableY0 (l : List PrkPoint) : Int := match l.head? with | some p => p.y | none => 0
def tableY1 (l : List PrkPoint) : Int := match l.getLast? with | some p => p.y | none => 0

/-! ## Use and protection (R116, R117) -/

/-- The tables of store n that some axis of its engine runs or has pending. -/
def prkInUse (s : State) (n : Nat) : Word :=
  (List.range 32).foldl (fun w i =>
    let a := 32 * n + i
    let m := motion s a
    let x := axisOf s a
    let w1 := if m == 4 || m == 5 then w ||| (1#32 <<< x.tbl) else w
    match x.pend with
    | some k => if m == 4 then w1 ||| (1#32 <<< k) else w1
    | none => w1) 0

/-- IN_USE follows the axes. -/
def prkSync (s : State) (n : Nat) : State := wr s .prk n Reg.PRK.IN_USE (prkInUse s n)

/-- The tables of store n whose descriptor covers point i. -/
def prkCovers (s : State) (n i : Nat) : List Nat :=
  (List.range 16).filter (fun k => prkStart s n k ≤ i && i < prkStart s n k + prkLen s n k)

/-- A word written to a pricking store (R114, R116). -/
def prkWrite (s : State) (addr : Nat) (v : Word) : State :=
  let n := (addr - 0x60000000) / 0x80000
  let i := (addr - 0x60000000) % 0x80000 / 32
  let l := prkCovers s n i
  if l.any (fun k => (prkInUse s n).getLsbD k) then
    let s1 := wr (incSat s .prk n Reg.PRK.REJ_CNT) .prk n Reg.PRK.REJ_POINT (ofN i)
    rejWr (setInt s1 .prk n 2) .prk n .conflict Reg.PRK.REJ_POINT
  else
    l.foldl (fun s k => wb s .prk n Reg.PRK.VALID k false) (putMem32 s (addr / 4 * 4) v)

/-- The first bad point of a table and the cause (BAD_POINT.CAUSE). -/
def prkScan (s : State) (n k : Nat) : Option (Nat × Nat) :=
  let time := !prkMaster s n k
  let st := prkStart s n k
  let len := prkLen s n k
  (List.range len).findSome? (fun i =>
    let p := prkPoint s n (st + i) time
    if i = 0 && p.x ≠ 0 then some (st, 2)
    else if 0 < i && p.x ≤ (prkPoint s n (st + i - 1) time).x then some (st + i, 1)
    else if p.seg % 4 = 3 then some (st + i, 3)
    else if decide (p.seg % 4 = 0) != decide (i + 1 = len) then some (st + i, 4)
    else none)

/-- The table scan ends (R116, R142). -/
def prkCheckEnd (s : State) (n : Nat) : State :=
  if !(s.page (pk .prk n)).busy then s
  else
    let k := SMap.get (fun _ => 0) s.prkSel n
    match prkScan s n k with
    | none => setInt (opDone (wb s .prk n Reg.PRK.VALID k true) .prk n) .prk n 0
    | some (i, c) =>
      setInt (opFail (wr (wb s .prk n Reg.PRK.VALID k false) .prk n Reg.PRK.BAD_POINT (ofN (i + 65536 * c))) .prk n .range 0x010)
        .prk n 1

/-- What the page says of its commands (R142). -/
def prkRule (s : State) (n code : Nat) : Option CmdRule :=
  let st := stOf s .prk n
  match code with
  | 0x05 => some ⟨false, false, none⟩
  | 0x07 => some ⟨false, false, firstOf [(!(s.page (pk .prk n)).busy, .wrongState)]⟩
  | 0x10 => some ⟨false, true, firstOf [(st != .idle || (prkInUse s n).getLsbD (rf s .prk n Reg.PRK.CHECK_SEL 0 4), .wrongState),
      ((s.page (pk .prk n)).busy, .busy)]⟩
  | _ => none

/-- The effect of a command. -/
def prkAct (s : State) (n code : Nat) : State :=
  match code with
  | 0x07 => opFail s .prk n .wrongState 0x010
  | 0x10 => opStart { s with prkSel := SMap.set (fun _ => 0) s.prkSel n (rf s .prk n Reg.PRK.CHECK_SEL 0 4) } .prk n 1 1 0
  | _ => s

/-- The tests of a staged set (R116, R142): a changed descriptor overruns the store or has LEN − 1 = 0, or its table is in
use. -/
def prkValidate (s : State) (n : Nat) : List (Bool × Nat × ErrCode) :=
  (List.range 16).flatMap (fun k =>
    let r := Reg.PRK.TBL_RANGE + 4 * k
    let m := Reg.PRK.TBL_MODE + 4 * k
    let w := staged s .prk n r
    let used := (prkInUse s n).getLsbD k
    [(changed s .prk n r && (fld w 16 14 == 0 || 16384 ≤ fld w 0 14 + fld w 16 14), r, .range),
     (used && changed s .prk n r, r, .wrongState), (used && changed s .prk n m, m, .wrongState)])

/-- A commit that changes a descriptor clears VALID (R116). -/
def prkCommitted (s : State) (n : Nat) (old : Page) : State :=
  (List.range 16).foldl (fun s k =>
    let d := fun o => SMap.get (regReset .prk) old.regs o != rg s .prk n o
    if d (Reg.PRK.TBL_RANGE + 4 * k) || d (Reg.PRK.TBL_MODE + 4 * k) then wb s .prk n Reg.PRK.VALID k false else s) s

end Sys2Proof.Machine
end

