-- ==== Sys2Proof/Machine/Axis.lean ====
section
/-! DEFINITION. Axes (R98 to R141): the set-point of a tick in every motion mode, stops, limits, homing, control. Units are
those of the registers: positions in 2⁻¹⁶ counts, velocities in 2⁻¹⁶ counts/s, a base tick being 1/128,000 s. -/
namespace Sys2Proof.Machine

/-! ## Registers -/

/-- An unsigned 48-bit limit (R141). -/
def axLim (s : State) (n off : Nat) : Int := (rg s .axis n off).toNat + 4294967296 * (rf s .axis n (off + 4) 0 16 : Nat)

/-- VTARGET, signed 48 bits. DESIGN CHOICE (log entry 178): bits [31:16] of its HI word are held but not part of it. -/
def axVtarget (s : State) (n : Nat) : Int :=
  sext 48 ((rg s .axis n Reg.AXIS.VTARGET_LO).toNat + 4294967296 * rf s .axis n Reg.AXIS.VTARGET_HI 0 16)

/-- A wide register of an axis. -/
def ax (s : State) (n off : Nat) : Int := rg64 s .axis n off

/-- A bit of STAT. -/
def axSt (s : State) (n i : Nat) : Bool := rb s .axis n Reg.AXIS.STAT i
def axSetSt (s : State) (n i : Nat) (b : Bool) : State := wb s .axis n Reg.AXIS.STAT i b

/-- STAT.MOTION set. -/
def setMotion (s : State) (n m : Nat) : State := wf s .axis n Reg.AXIS.STAT 0 4 m

/-- The set-point registers written: SETP, SETV, SETA and STAT.MOVING. -/
def showSetp (s : State) (n : Nat) (p v a : Int) : State :=
  axSetSt (wr64 (wr64 (wr64 s .axis n Reg.AXIS.SETP_LO p) .axis n Reg.AXIS.SETV_LO (lim48 v)) .axis n Reg.AXIS.SETA_LO (lim48 a))
    n 4 (v != 0)

/-- The set-point taken from its registers' values. -/
def setSetp (s : State) (n : Nat) (p v a : Int) : State :=
  showSetp (setAxis s n { axisOf s n with ex := ProfAt.of p v a }) n p v a

/-- The set-point taken from an exact state, which the registers show. -/
def setExact (s : State) (n : Nat) (x : ProfAt) : State :=
  showSetp (setAxis s n { axisOf s n with ex := x }) n x.regs.1 x.regs.2.1 x.regs.2.2

/-- Feedback kind (0 none, 1 ENC, 2 SSN) and channel. -/
def axFb (s : State) (n : Nat) : Nat := rf s .axis n Reg.AXIS.CFG 0 2
def axFbIdx (s : State) (n : Nat) : Nat := rf s .axis n Reg.AXIS.CFG 2 6

/-- The state of the feedback channel. -/
def axFbState (s : State) (n : Nat) : PgState :=
  match axFb s n with
  | 1 => stOf s .enc (axFbIdx s n)
  | 2 => stOf s .ssn (axFbIdx s n)
  | _ => .run

/-- The actual position of a tick: the feedback's tick sample, SETP without feedback (R100). -/
def axActual (s : State) (n : Nat) : Int :=
  match axFb s n with
  | 1 => rg64 s .enc (axFbIdx s n) Reg.ENC.TICK_POS_LO
  | 2 => (ssnOf s (axFbIdx s n)).tickP
  | _ => ax s n Reg.AXIS.SETP_LO

/-- The feedback speed. -/
def axFbSpeed (s : State) (n : Nat) : Int :=
  match axFb s n with
  | 1 => rg64 s .enc (axFbIdx s n) Reg.ENC.TICK_SPEED_LO
  | 2 => (ssnOf s (axFbIdx s n)).tickV
  | _ => ax s n Reg.AXIS.SETV_LO

/-- The quick-stop deceleration; 0 means DMAX (R126), which acts as 1 where it is 0 too (log entry 44). -/
def axQdec (s : State) (n : Nat) : Nat :=
  let q := (axLim s n Reg.AXIS.QDEC_LO).toNat
  if q = 0 then max (axLim s n Reg.AXIS.DMAX_LO).toNat 1 else q

/-! ## Profiles (R105, R126) -/

/-- The limits of R105. A limit committed as 0 while an axis moves acts as 1, the smallest there is (log entry 44). -/
def axProf (s : State) (n : Nat) : ProfLim :=
  let l (off : Nat) : Nat := max (axLim s n off).toNat 1
  ⟨l Reg.AXIS.AMAX_LO, l Reg.AXIS.DMAX_LO, l Reg.AXIS.JMAX_LO⟩
def axVmax (s : State) (n : Nat) : Nat := max (axLim s n Reg.AXIS.VMAX_LO).toNat 1

/-- A velocity within ±VMAX. -/
def axClamp (s : State) (n : Nat) (v : Int) : Int := clampI (-(axVmax s n : Int)) (axVmax s n) v

/-- The set-point state of an axis after a tick's ramp towards a velocity. -/
def axRamp (s : State) (n : Nat) (v : Int) : ProfAt := velStep (axProf s n) (axisOf s n).ex (axClamp s n v)

/-- The set-point at the end of a tick's ramp, and whether it has come to a velocity. -/
def axRamped (s : State) (n : Nat) (v : Int) : State := setExact s n (axRamp s n v)
def ProfAt.has (x : ProfAt) (v : Int) : Bool := x.v == profV v && x.a == 0

/-- A tick's approach to a position that moves at a velocity (R112, R123), and whether the set-point has reached it. -/
def axTracked (s : State) (n tol : Nat) (r v : Int) : State × Bool :=
  let q := trackStep (axisOf s n).prof (axProf s n) (axVmax s n) tol (axisOf s n).ex r (axClamp s n v)
  (setExact (setAxis s n { axisOf s n with prof := some q.1 }) n q.2.2, q.2.1 && axClamp s n v == v)

/-- The plan of a move one tick further: one with another goal or other limits is planned anew from the present set-point (R106). -/
def axPlan (s : State) (n : Nat) (goal : Int) (vmax : Nat) : MovePlan :=
  let l := axProf s n
  let fresh := planWay (axisOf s n).ex (profP goal) 0 vmax l
  (match (axisOf s n).prof with
    | some m => if m.goal = profP goal ∧ m.vg = 0 ∧ m.vmax = vmax ∧ m.lim = l then m else fresh
    | none => fresh).next

/-! ## Masters and external set-points (R101, R123) -/

/-- A position extrapolated by one tick with its speed and acceleration. -/
def extrap (p v a : Int) : Int := p + fq (125 * v + 32 * a) 16000000

/-- A signal in a process image (R101): its value as a number, and whether it stood at its safe value. -/
def imgSlot (img : SMap Slot) (id : Nat) : Slot := if id = 0 then Slot.reset else SMap.get (fun _ => Slot.reset) img id
def imgInt (img : SMap Slot) (id : Nat) : Int := (imgSlot img id).value.toInt

/-- What an axis reads of its master for a tick: position with the shifts of its frame removed, velocity, acceleration, and
whether the master is lost (R101, R110, R122). `s0` is the device before the tick, `s` during it. A signal is read as it stood at the start
of the tick before, and its velocity is the difference from the tick before that (log entry 44). -/
def master (s0 s : State) (n : Nat) : Int × Int × Int × Bool :=
  let m := rg s .axis n Reg.AXIS.MASTER
  let i := fld m 8 7
  match fld m 0 3 with
  | 1 =>
    let v := rg64 s0 .enc i Reg.ENC.TICK_SPEED_LO
    let a := (encOf s0 i).tickA
    (extrap (rg64 s0 .enc i Reg.ENC.TICK_POS_LO) v a - (encOf s0 i).tickS, v, a, inSt s0 .enc i [.off, .fault])
  | 2 =>
    let x := ssnOf s0 i
    (extrap x.tickP x.tickV x.tickA, x.tickV, x.tickA, inSt s0 .ssn i [.off, .fault])
  | 3 =>
    let lost := inSt s0 .axis i [.off, .fault]
    if i < n && i / 32 = n / 32 then
      (ax s i Reg.AXIS.SETP_LO - (axisOf s i).fbShift, ax s i Reg.AXIS.SETV_LO, ax s i Reg.AXIS.SETA_LO, lost)
    else
      let v := ax s0 i Reg.AXIS.SETV_LO
      let a := ax s0 i Reg.AXIS.SETA_LO
      (extrap (ax s0 i Reg.AXIS.SETP_LO) v a - (axisOf s0 i).fbShift, v, a, lost)
  | 4 =>
    let id := fld m 16 16
    let x := imgInt s0.img1 id
    (x, (x - imgInt s0.img2 id) * 128000, 0, (imgSlot s0.img1 id).safe)
  | _ => (0, 0, 0, true)

/-- The shifts of the master's frame, and its position at the last tick with them removed (R110); the position of a signal is the one
that the last tick read. -/
def masterShift (s : State) (n : Nat) : Int :=
  let m := rg s .axis n Reg.AXIS.MASTER
  match fld m 0 3 with
  | 1 => (encOf s (fld m 8 7)).tickS
  | 3 => (axisOf s (fld m 8 7)).fbShift
  | _ => 0
def masterNow (s : State) (n : Nat) : Int :=
  let m := rg s .axis n Reg.AXIS.MASTER
  let i := fld m 8 7
  match fld m 0 3 with
  | 1 => rg64 s .enc i Reg.ENC.TICK_POS_LO - masterShift s n
  | 2 => (ssnOf s i).tickP
  | 3 => ax s i Reg.AXIS.SETP_LO - masterShift s n
  | 4 => imgInt s.img1 (fld m 16 16)
  | _ => 0

/-- The external set-point r of a signal in a process image, a position or a velocity (R123). -/
def extSignal (s : State) (n : Nat) (img : SMap Slot) : Int :=
  let id := rf s .axis n Reg.AXIS.SP_SRC 16 16
  let k := sw (rg s .axis n Reg.AXIS.SP_SCALE)
  let v := imgInt img id
  match (sigEnt s id).typ with
  | 0 => fq (v * k) 128
  | 2 => fq (v * k) 65536
  | _ => v * k

/-- The velocity of a position followed (R123), from which it is tracked: of a signal the difference of the last two ticks, of a channel
its speed (log entry 44). -/
def extVel (s0 s : State) (n : Nat) (r : Int) : Int :=
  let c := rg s .axis n Reg.AXIS.SP_SRC
  if fld c 0 2 = 1 then (r - extSignal s n s0.img2) * 128000
  else fq (rg64 s0 .enc (fld c 8 6) Reg.ENC.TICK_SPEED_LO * sw (rg s .axis n Reg.AXIS.SP_SCALE)) 65536

/-- The external set-point r for a tick, a position or a velocity (R123); a signal is read as it stood at the start of the tick before
(R101). -/
def extSetp (s0 s : State) (n : Nat) : Int :=
  let c := rg s .axis n Reg.AXIS.SP_SRC
  match fld c 0 2 with
  | 1 => extSignal s n s0.img1
  | _ =>
    let i := fld c 8 6
    fq (extrap (rg64 s0 .enc i Reg.ENC.TICK_POS_LO) (rg64 s0 .enc i Reg.ENC.TICK_SPEED_LO) (encOf s0 i).tickA
      * sw (rg s .axis n Reg.AXIS.SP_SCALE)) 65536

/-! ## Ends of motion (R126, R127, R136) -/

/-- Homing ends on a cause (R136). -/
def homeFail (s : State) (n cause : Nat) : State :=
  let s1 := setInt (wf s .axis n Reg.AXIS.STAT 17 3 cause) .axis n 5
  opFail s1 .axis n (if cause = 4 then .wrongState else .range) 0x010

/-- The active motion ends and the set-point is brought to rest, at QDEC if `quick`: a move keeps its remainder (R127),
homing fails with cause 4 (R136), a table is freed (R117). SP_LAG and its flag keep the last values of FOLLOW mode (DESIGN CHOICE, log entry
173). -/
def endMotion (s : State) (n : Nat) (quick : Bool) : State :=
  let m := motion s n
  let x := axisOf s n
  let s1 := if m == 7 then homeFail s n 4 else s
  let s2 := if m == 1 then setInt (axSetSt s1 n 5 true) .axis n 14 else s1
  let s3 := axSetSt (axSetSt (axSetSt s2 n 11 false) n 16 false) n 6 false
  let s4 := setAxis (setMotion s3 n 8) n { x with
    quick := quick || (m == 8 && x.quick), pend := none, camOut := false, prof := none, resume := false }
  prkSync s4 (n / 32)

/-- REMAIN and REMAIN_VALID cleared (R127). -/
def clearRemain (s : State) (n : Nat) : State :=
  wr64 (axSetSt s n 5 false) .axis n Reg.AXIS.REMAIN_LO 0

/-- SAFE at once with the set-point equal to ACT (R129). -/
def axCoast (s : State) (n : Nat) : State :=
  let s1 := endMotion s n true
  setMotion (setAxis (leadSt s1 .axis n .safe) n { axisOf s1 n with coast := true, toIdle := false }) n 0

/-- HOLD of R126 as a command or a reaction. -/
def axHold (s : State) (n : Nat) : State :=
  let s1 := if motion s n == 0 then s else endMotion s n false
  setAxis (leadSt s1 .axis n .hold) n { axisOf s1 n with toIdle := false }

/-- QUICKSTOP of R126 as a command or a reaction. -/
def axQuick (s : State) (n : Nat) : State :=
  let s1 := if motion s n == 0 then s else endMotion s n true
  setAxis (leadSt s1 .axis n .safe) n { axisOf s1 n with toIdle := false }

/-- The reaction received since the last tick acts (R129, R408). -/
def axReact (s : State) (n : Nat) : State :=
  let x := axisOf s n
  let s1 := if x.req = 0 then s else setAxis s n { x with req := 0 }
  if x.req = 3 then (if inSt s .axis n [.run, .hold] then axHold s1 n else s1)
  else if x.req = 4 then (if inSt s .axis n [.run, .hold] then axQuick s1 n else s1)
  else if 5 ≤ x.req then (if inSt s .axis n [.run, .hold, .safe] then axCoast s1 n else s1)
  else s1

/-! ## Limits (R131 to R134) -/

/-- Soft limits. -/
def swPos (s : State) (n : Nat) : Int := ax s n Reg.AXIS.SWLIM_POS_LO
def swNeg (s : State) (n : Nat) : Int := ax s n Reg.AXIS.SWLIM_NEG_LO
def swOn (s : State) (n : Nat) : Bool := rb s .axis n Reg.AXIS.CFG 11

/-- A set-point that crosses a soft limit in a synchronous or following mode, or moves on beyond it (R134), from the position `p0` of the
tick before. -/
def axSoft (s : State) (n : Nat) (p0 : Int) : State :=
  let p := ax s n Reg.AXIS.SETP_LO
  let m := motion s n
  let pos := decide (swPos s n < p) && decide (p0 < p)
  let neg := decide (p < swNeg s n) && decide (p < p0)
  if swOn s n && (m == 3 || m == 4 || m == 5 || m == 6) && (pos || neg) then
    let s1 := setInt (axSetSt (endMotion s n true) n (if neg then 10 else 9) true) .axis n 3
    raise s1 0x10 .axis n 0 (b2n neg)
  else s

/-- A soft-limit flag clears once SETP lies inside the limits, in whatever state (R134); not at one: velocity mode comes to rest there with
its flag (R109, log entry 135). -/
def softClear (s : State) (n : Nat) : State :=
  let p := ax s n Reg.AXIS.SETP_LO
  let s1 := if p < swPos s n then axSetSt s n 9 false else s
  if swNeg s n < p then axSetSt s1 n 10 false else s1

/-- Motion in a direction is refused: an active hard limit or a soft-limit flag lies there (R133, R134). -/
def intoLimit (s : State) (n : Nat) (d : Int) : Bool :=
  (decide (0 < d) && (axSt s n 7 || axSt s n 9)) || (decide (d < 0) && (axSt s n 8 || axSt s n 10))

/-! ## Synchronous modes (R111 to R122) -/

/-- The check of R121 after a synchronous set-point: every breach sets the flags and raises. -/
def syncOver (s : State) (n : Nat) : State :=
  let v := ax s n Reg.AXIS.SETV_LO
  let a := ax s n Reg.AXIS.SETA_LO
  let al := if 0 ≤ a * v then axLim s n Reg.AXIS.AMAX_LO else axLim s n Reg.AXIS.DMAX_LO
  if axLim s n Reg.AXIS.VMAX_LO < v.natAbs || al < a.natAbs then raise (setInt (axSetSt s n 12 true) .axis n 7) 0x11 .axis n 0 0 else s

/-- IN_SYNC sets. -/
def inSync (s : State) (n : Nat) : State := setInt (axSetSt s n 11 true) .axis n 6

/-- A tick in GEAR mode (R111, R112). -/
def gearTick (s : State) (n : Nat) (m v a : Int) : State :=
  let num := sw (rg s .axis n Reg.AXIS.GEAR_NUM)
  let den := (rg s .axis n Reg.AXIS.GEAR_DEN).toNat
  let x := axisOf s n
  let gv := fq (v * num) den
  let law := x.pBase + idiv ((m - x.mBase) * num) den
  if axSt s n 11 then syncOver (setSetp s n law gv (fq (a * num) den)) n
  else
    let vel := x.velRamp || !rb s .axis n Reg.AXIS.SYNC_CFG 0
    let (s1, at_) := if vel then (axRamped s n gv, (axRamp s n gv).has gv) else axTracked s n (num.natAbs / den + 2) law gv
    if at_ then inSync (setAxis s1 n { axisOf s1 n with mBase := m, pBase := ax s1 n Reg.AXIS.SETP_LO, velRamp := false, prof := none }) n
    else s1

/-- An engagement clears SYNC_OVER and MASTER_LOST (Table 4-7). -/
def engaged (s : State) (n : Nat) : State := axSetSt (axSetSt s n 12 false) n 15 false

/-- The engine's store and the running table of an axis. -/
def axTable (s : State) (n : Nat) : List PrkPoint := prkTable s (n / 32) (axisOf s n).tbl

/-- The set-point of a cam at x with a master velocity and acceleration. -/
def camSetp (s : State) (n : Nat) (x v a : Int) : State :=
  let c := tableCurve (axTable s n) 4294967296 x
  let y := ax s n Reg.AXIS.SYNC_OFS_LO + fq c.y c.den
  setSetp s n y (fq (c.d1 * v) c.den) (fq (c.d2 * v * v + c.d1 * a * 65536) (c.den * 65536))

/-- SYNC_OFS captured so that the position does not jump, or 0 for an absolute cam (R118, R119). -/
def camCapture (s : State) (n : Nat) (x : Int) (abs : Bool) : State :=
  let c := tableCurve (axTable s n) 4294967296 x
  wr64 s .axis n Reg.AXIS.SYNC_OFS_LO (if abs then 0 else ax s n Reg.AXIS.SETP_LO - fq c.y c.den)

/-- A pending table starts to run (R119). -/
def camSwitch (s : State) (n k : Nat) : State :=
  prkSync (setAxis s n { axisOf s n with tbl := k, pend := none }) (n / 32)

/-- The pending table starts to run if there is one. -/
def camTake (s : State) (n : Nat) : State :=
  match (axisOf s n).pend with
  | some k => camSwitch s n k
  | none => s

/-- The whole spans in a distance x of the running table: none of a table that is not cyclic (R119). -/
def camLaps (s : State) (n : Nat) (x : Int) : Int :=
  let span := tableSpan (axTable s n)
  if prkCyclic s (n / 32) (axisOf s n).tbl && decide (0 < span) then x / span else 0

/-- x taken modulo the span: the master position of x = 0 moves by whole spans. -/
def camReduce (s : State) (n : Nat) (x : Int) : State :=
  let w := camLaps s n x
  setAxis s n { axisOf s n with mBase := (axisOf s n).mBase + w * tableSpan (axTable s n) }

/-- `w` wraps of the running table: each adds Y_last − Y_first to SYNC_OFS and sets CAM_WRAP (R119). -/
def camWrap (s : State) (n : Nat) (w : Int) : State :=
  let l := axTable s n
  let s1 := wr64 s .axis n Reg.AXIS.SYNC_OFS_LO (ax s n Reg.AXIS.SYNC_OFS_LO + w * (tableY1 l - tableY0 l))
  let s2 := setAxis s1 n { axisOf s1 n with mBase := (axisOf s1 n).mBase + w * tableSpan l }
  if w = 0 then s else setInt s2 .axis n 13

/-- Whether x passed a point with MARK=1 from x0, or from an end of the table in a lap that began in this tick (R115). -/
def camMark (l : List PrkPoint) (x0 x : Int) (w : Int) : Bool :=
  if w = 0 then tableMark l x0 x
  else if 0 < w then tableMark l x0 (tableSpan l) || tableMark l (if 1 < w then x - tableSpan l else -1) x
  else tableMark l x0 0 || tableMark l (if w < -1 then x + tableSpan l else tableSpan l + 1) x

/-- The wraps of a tick (DESIGN CHOICE, log entry 172: a table that is not cyclic has no wrap, and a switch that waits for one stays
pending): where a switch is pending, the first boundary passed ends the old table and x = 0 of the new one lies there; a boundary passed
backwards is entered at the new table's end (R119). -/
def camLap (s : State) (n : Nat) (xr : Int) : State × Int :=
  let w := camLaps s n xr
  if w = 0 then (s, 0)
  else if 0 < w && (axisOf s n).pend.isSome then
    let s1 := camTake (camWrap s n 1) n
    let w1 := camLaps s1 n (xr - tableSpan (axTable s n))
    (camWrap s1 n w1, w1 + 1)
  else
    let s1 := camTake s n
    let w1 := camLaps s1 n xr
    if w1 = 0 then (setInt s1 .axis n 13, w) else (camWrap s1 n w1, w1)

/-- The engaged cam's tick at a master position (R119, R121). -/
def camRun (s : State) (n : Nat) (m v a : Int) : State :=
  let s0 := match (axisOf s n).pend with
    | some _ => if rb s .axis n Reg.AXIS.SYNC_CFG 1 then
          let s1 := camTake s n
          let s2 := camReduce s1 n (axisOf s n).x
          let x := (axisOf s n).x + (axisOf s n).mBase - (axisOf s2 n).mBase
          camCapture (setAxis s2 n { axisOf s2 n with x := x }) n x false
        else s
    | none => s
  let x := axisOf s0 n
  let l0 := axTable s0 n
  let (s1, w) := camLap s0 n (m - x.mBase)
  let y := axisOf s1 n
  let xn := m - y.mBase
  let mark := if y.tbl = x.tbl then camMark l0 x.x xn w
    else tableMark l0 x.x (if 0 < w then tableSpan l0 else 0) ||
      camMark (axTable s1 n) (if 0 < w then -1 else tableSpan (axTable s1 n) + 1) xn (if 0 < w then w - 1 else w + 1)
  let s2 := if mark then setInt s1 .axis n 11 else s1
  let s3 := setAxis s2 n { axisOf s2 n with x := xn, mPrev := m }
  let s4 := syncOver (camSetp s3 n xn v a) n
  if x.camOut && w ≠ 0 && motion s4 n = 4 then endMotion s4 n false else s4

/-- The master position of x = 0 as CAM_START stands, in the master's frame without its shifts (R118, R140). -/
def camZero (s : State) (n : Nat) : Int := ax s n Reg.AXIS.CAM_START_LO - masterShift s n

/-- A tick in CAM mode (R118, R119): before engagement the set-point comes to rest, and a switch to be taken at the next tick is taken. The
engagement clears SYNC_OVER and MASTER_LOST (Table 4-7). -/
def camTick (s : State) (n : Nat) (m v a : Int) : State :=
  if axSt s n 16 then
    let s0 := if rb s .axis n Reg.AXIS.SYNC_CFG 1 then camTake s n else s
    let z := camZero s0 n
    let reached := decide (((axisOf s0 n).mPrev - z) * (m - z) ≤ 0)
    let s1 := setAxis s0 n { axisOf s0 n with mBase := z, mPrev := m }
    if reached then
      let s2 := camReduce s1 n (m - z)
      let x := m - (axisOf s2 n).mBase
      let s3 := camCapture (engaged (axSetSt (setAxis s2 n { axisOf s2 n with x := x }) n 16 false) n) n x (rb s .axis n Reg.AXIS.SYNC_CFG 2)
      let l := axTable s3 n
      let s4 := if tableMark l (if z ≤ m then -1 else if x < 0 then 0 else tableSpan l + 1) x then setInt s3 .axis n 11 else s3
      syncOver (camSetp s4 n x v a) n
    else axRamped s1 n 0
  else camRun s n m v a

/-- A tick of a TIME table (R120, R121); x counts steps of 125 ps. CYCLIC means nothing here (log entry 133). DESIGN CHOICE (log entry 171): x starts
at the first point and does not pass it. -/
def pvtTick (s : State) (n : Nat) : State :=
  let x := axisOf s n
  let l := axTable s n
  let xn := x.x + 62500
  let s1 := if tableMark l x.x xn then setInt s .axis n 11 else s
  let s2 := setAxis s1 n { x with x := xn }
  let ofs := ax s n Reg.AXIS.SYNC_OFS_LO
  if tableSpan l ≤ xn then
    let v := match l.getLast? with | some p => p.v | none => 0
    let s3 := setInt (setSetp s2 n (ofs + tableY1 l) v 0) .axis n 12
    let s4 := prkSync (setMotion s3 n (if v = 0 then 0 else 8)) (n / 32)
    syncOver (setAxis s4 n { axisOf s4 n with quick := false }) n
  else
    let c := tableCurve l perS xn
    syncOver (setSetp s2 n (ofs + fq c.y c.den) (fq (c.d1 * perS) c.den) (fq (c.d2 * perS * perS) (c.den * 65536))) n

/-- A tick in FOLLOW mode (R123, R124). -/
def followTick (s0 s : State) (n : Nat) : State :=
  let vel := rb s .axis n Reg.AXIS.SP_SRC 2
  let r := extSetp s0 s n
  let tol := (sw (rg s .axis n Reg.AXIS.SP_SCALE)).natAbs / 65536 + 2
  let s1 := if vel then axRamped s n r else (axTracked s n tol r (extVel s0 s n r)).1
  let lag := r - ax s1 n (if vel then Reg.AXIS.SETV_LO else Reg.AXIS.SETP_LO)
  let s2 := wr64 s1 .axis n Reg.AXIS.SP_LAG_LO lag
  let lim : Int := (rg s .axis n Reg.AXIS.SP_LAG_LIM).toNat * 65536
  if lim ≠ 0 && lim < lag.natAbs && !axSt s2 n 13 then raise (setInt (axSetSt s2 n 13 true) .axis n 8) 0x13 .axis n 0 0
  else if 2 * (lag.natAbs : Int) < lim then axSetSt s2 n 13 false
  else s2

/-- The master is lost (R122): the mode ends and the set-point is to come to rest. -/
def masterLost (s : State) (n : Nat) : State :=
  raise (setInt (axSetSt (endMotion s n false) n 15 true) .axis n 10) 0x12 .axis n 0 0

/-! ## Homing (R135 to R137) -/

/-- The phase of homing shown in PGPROG. -/
def homePhase (s : State) (n : Nat) : Nat := opPhase s .axis n

/-- A homing phase entered: UNIT 2 (R137). -/
def setHomePhase (s : State) (n p : Nat) : State := setProg s .axis n 2 p 0

/-- HOMECFG.METHOD. -/
def homeMethod (s : State) (n : Nat) : Nat := rf s .axis n Reg.AXIS.HOMECFG 0 4

/-- Homing fails after a limit, at distance or on request, and the set-point is brought to rest (R136). -/
def homeAbort (s : State) (n cause : Nat) : State :=
  let s1 := homeFail s n cause
  setAxis (setMotion s1 n 8) n { axisOf s1 n with quick := cause = 1 || cause = 2, resume := false }

/-- The velocity a homing phase runs at (R135). -/
def homeSpeed (s : State) (n : Nat) : Int :=
  let x := axisOf s n
  let d : Int := if x.hNeg then -1 else 1
  let fast : Int := (rg s .axis n Reg.AXIS.HOME_VFAST).toNat * 65536
  let slow : Int := (rg s .axis n Reg.AXIS.HOME_VSLOW).toNat * 65536
  match homePhase s n with
  | 1 => d * fast
  | 2 => d * fast
  | 3 => if x.hBack then 0 else -d * slow
  | 4 => d * slow
  | 5 => if homeMethod s n = 5 then -d * fast else d * fast
  | _ => 0

/-- A reference is found: phase 6 (R137). -/
def homeFound (s : State) (n : Nat) (r : Int) : State :=
  setHomePhase (setAxis s n { axisOf s n with hRef := some r }) n 6

/-- Phase 5 entered: the search for the next index. -/
def homeIndex (s : State) (n : Nat) : State :=
  setHomePhase (setAxis s n { axisOf s n with hIdx := (encOf s (axFbIdx s n)).idxN }) n 5

/-- Whether the channel has indexed since the count noted. -/
def homeSeen (s : State) (n : Nat) : Bool :=
  axFb s n = 1 && (encOf s (axFbIdx s n)).idxN ≠ (axisOf s n).hIdx

/-- A tick of homing (R135 to R137). METHOD 1 stays in phase 1 until the search speed is reached, where the distance test applies, and
takes the first index after HOME (log entry 134). -/
def homeTick (s : State) (n : Nat) : State :=
  let x := axisOf s n
  let r := axRamp s n (homeSpeed s n)
  let s1 := axRamped s n (homeSpeed s n)
  let way := (ax s1 n Reg.AXIS.SETP_LO - ax s n Reg.AXIS.SETP_LO).natAbs
  let dist := x.hDist + way
  let srch := if homePhase s n = 1 || homePhase s n = 2 then x.hSrch + way else x.hSrch
  let s2 := setAxis s1 n { axisOf s1 n with hDist := dist, hSrch := srch }
  let s3 := s2.modPage (pk .axis n) (fun p => { p with pos := BitVec.ofNat 64 dist })
  let rest := r.has 0
  let lim := (rg s .axis n Reg.AXIS.HOME_DIST).toNat * 65536
  let far := lim ≠ 0 && decide (lim < srch)
  let index (s : State) : State := homeFound s n (rg64 s .enc (axFbIdx s n) Reg.ENC.IDX_POS_LO)
  match homePhase s n with
  | 1 =>
    if homeMethod s n = 1 && homeSeen s3 n then index s3
    else if far then homeAbort s3 n 3
    else if homeMethod s n = 1 && r.has (axClamp s n (homeSpeed s n)) then setHomePhase s3 n 5 else s3
  | 2 => if far then homeAbort s3 n 3 else s3
  | 3 => if x.hBack && rest then setHomePhase s3 n 4 else s3
  | 5 => if homeSeen s3 n then index s3 else s3
  | 6 =>
    if rest && !x.hApply then
      let ref := x.hRef.getD (ax s n Reg.AXIS.ACT_LO)
      setAxis (wr64 s3 .axis n Reg.AXIS.HOME_REF_LO ref) n { axisOf s3 n with hApply := true }
    else s3
  | _ => s3

/-- The positions of an axis moved with its frame (R110): SETP, TARGET_ACT, LATCH and SYNC_OFS, and what is reckoned from them; the
motion, FERR and REMAIN stand. -/
def axMove (s : State) (n : Nat) (d : Int) : State :=
  let add (s : State) (o : Nat) : State := wr64 s .axis n o (ax s n o + d)
  let s1 := add (add (add (add s Reg.AXIS.SETP_LO) Reg.AXIS.TARGET_ACT_LO) Reg.AXIS.LATCH_LO) Reg.AXIS.SYNC_OFS_LO
  let x := axisOf s1 n
  setInt (setAxis s1 n { x with
    fbShift := x.fbShift + d, pBase := x.pBase + d, hRef := x.hRef.map (· + d), ex := { x.ex with p := x.ex.p + profP d }
    prof := x.prof.map (fun m => { m with x := { m.x with p := m.x.p + profP d }, goal := m.goal + profP d }) }) .axis n 15

/-- The offset HOME_OFS − HOME_REF is applied, to the feedback channel as SET_POS does or to the axis itself (R110), and homing ends
(R137). It runs before the channels are sampled at the tick. -/
def homeApply (s : State) (n t : Nat) : State :=
  let x := axisOf s n
  if x.hApply && motion s n == 7 then
    let o := ax s n Reg.AXIS.HOME_OFS_LO - ax s n Reg.AXIS.HOME_REF_LO
    let s1 := if axFb s n = 1 then setInt (encShift s (axFbIdx s n) t o) .enc (axFbIdx s n) 8 else axMove s n o
    let s2 := setAxis s1 n { axisOf s1 n with hApply := false, hRef := none }
    opDone (setInt (axSetSt (setMotion s2 n 0) n 14 true) .axis n 4) .axis n
  else s

/-- Whether a 1-bit signal has held a level for a number of µs, reckoned from its publication; a forced one acts as forced (R131). -/
def sigHeld (s : State) (id : Nat) (lvl : Bool) (us : Nat) : Bool :=
  id ≠ 0 && sigBit s id == lvl && decide ((slotOf s id).chg + 8000 * us ≤ s.lap s.now)

/-- Whether a limit input has held its active level for DEBOUNCE.LIM, or its inactive one; without an input there is no limit (R131). -/
def limHeld (s : State) (n : Nat) (neg active : Bool) : Bool :=
  let id := rf s .axis n Reg.AXIS.LIMCFG (if neg then 16 else 0) 16
  (!active && id = 0) || sigHeld s id (active != rb s .axis n Reg.AXIS.CFG 9) (rf s .axis n Reg.AXIS.DEBOUNCE 0 16)

/-- Whether an edge of a signal first seen `dt` steps ago lies no later than the level it led to. -/
def sinceEdge (s : State) (id dt : Nat) : Bool := decide (s.lap s.now ≤ (slotOf s id).chg + dt)

/-- Whether the limit edge of the slow approach is the reference that METHOD 4 seeks (R135, Table 4-3). -/
def homeSeeks (s : State) (n : Nat) (neg : Bool) : Bool :=
  motion s n == 7 && homePhase s n = 4 && homeMethod s n = 4 && neg == (axisOf s n).hNeg

/-- An accepted limit during homing (R135, R136); `neg`: the negative limit, `ref`: the position of the edge. METHOD 0 searches nothing, and
in the final stop there is no search left to reverse (log entry 134). -/
def homeLimit (s : State) (n : Nat) (neg : Bool) (ref : Int) : State :=
  let x := axisOf s n
  let ph := homePhase s n
  let m := homeMethod s n
  if m = 0 then s
  else if neg != x.hNeg then homeAbort s n 1
  else if m = 4 || m = 5 then
    if ph = 1 then setHomePhase (setAxis s n { x with hBack := false }) n 3
    else if homeSeeks s n neg then homeFound s n ref
    else s
  else if m = 1 || x.hRev then homeAbort s n 2
  else if ph = 6 then s
  else setHomePhase (setAxis s n { x with hRev := true, hNeg := !x.hNeg }) n 2

/-- An edge of the home input accepted at the present time (R135): its level has held for DEBOUNCE.HOME, an active one not since before
HOME; `dt`: steps from the edge's first transition to its acceptance. -/
def homeEdge (s : State) (n : Nat) (active : Bool) (dt : Nat) : State :=
  let ref := ax s n Reg.AXIS.ACT_LO - fq (axFbSpeed s n * dt) perS
  let m := homeMethod s n
  let ph := homePhase s n
  let id := rf s .axis n Reg.AXIS.HOMECFG 16 16
  let us := rf s .axis n Reg.AXIS.DEBOUNCE 16 16
  let held := sigHeld s id (active != rb s .axis n Reg.AXIS.CFG 10) us && sinceEdge s id dt
  if motion s n != 7 || !(m = 2 || m = 3) || !held then s
  else if !active then (if ph = 3 then setAxis s n { axisOf s n with hBack := true } else s)
  else if (slotOf s id).chg + 8000 * us < (axisOf s n).hAt then s
  else if ph = 1 || ph = 2 then setHomePhase (setAxis s n { axisOf s n with hBack := false }) n 3
  else if ph = 4 then (if m = 3 then homeIndex s n else homeFound s n ref)
  else s

/-- A hard limit is accepted at the present time once its input has held the active level (R131, R133); `dt` as for the home input. One that
stands is not accepted anew (R136), but the edge that METHOD 4 seeks in its slow approach is its reference all the same: the back-off ends
before LIM_CLEAR is reached. DESIGN CHOICE (log entry 175): with SETV 0 a limit lies in no direction of motion. -/
def limitAccept (s : State) (n : Nat) (neg : Bool) (dt : Nat) : State :=
  let i := if neg then 8 else 7
  let held := limHeld s n neg true && sinceEdge s (rf s .axis n Reg.AXIS.LIMCFG (if neg then 16 else 0) 16) dt
  let act := ax s n Reg.AXIS.ACT_LO
  if !rb s .axis n Reg.AXIS.CFG 8 || stOf s .axis n == .off || !held then s
  else if axSt s n i then (if homeSeeks s n neg then homeFound s n (act - fq (axFbSpeed s n * dt) perS) else s)
  else
    let s1 := wr64 (setInt (axSetSt s n i true) .axis n 2) .axis n Reg.AXIS.LATCH_LO act
    if motion s n == 7 then homeLimit s1 n neg (act - fq (axFbSpeed s n * dt) perS)
    else
      let v := ax s n Reg.AXIS.SETV_LO
      let into := if neg then decide (v < 0) else decide (0 < v)
      raise (if into && inSt s .axis n [.run, .hold] then endMotion s1 n true else s1) 0x0F .axis n 0 (b2n neg)

/-- While the input has held its inactive level: an accepted limit clears once the axis has moved LIM_CLEAR away (R132), and a back-off
from a limit reference is done (R135): METHOD 5 takes the first index from there. -/
def limitRelease (s : State) (n : Nat) (neg : Bool) : State :=
  let i := if neg then 8 else 7
  let m := homeMethod s n
  let d := (ax s n Reg.AXIS.ACT_LO - ax s n Reg.AXIS.LATCH_LO).natAbs
  if !limHeld s n neg false then s
  else
    let s1 := if motion s n == 7 && homePhase s n = 3 && (m = 4 || m = 5) && neg == (axisOf s n).hNeg then
        (if m = 5 then homeIndex s n else setAxis s n { axisOf s n with hBack := true }) else s
    if axSt s n i && (rg s .axis n Reg.AXIS.LIM_CLEAR).toNat * 65536 ≤ d then axSetSt s1 n i false else s1

/-! ## The tick (R99 to R101) -/

/-- The active motion is over at rest. -/
def motionOver (s : State) (n : Nat) : State :=
  let s1 := setMotion s n 0
  setAxis s1 n { axisOf s1 n with prof := none }

/-- A tick of a move (R105 to R107): OVERSHOOT_PLANNED ends where the velocity reverses. -/
def moveTick (s : State) (n : Nat) : State :=
  let g := ax s n Reg.AXIS.TARGET_ACT_LO
  let m := axPlan s n g (axVmax s n)
  let s1 := setExact (setAxis s n { axisOf s n with prof := some m }) n m.at
  let s2 := if axSt s n 6 && decide (m.at.v * (axisOf s n).ex.v ≤ 0) then axSetSt s1 n 6 false else s1
  if m.ended then clearRemain (setInt (motionOver s2 n) .axis n 0) n
  else wr64 s2 .axis n Reg.AXIS.REMAIN_LO (g - ax s2 n Reg.AXIS.SETP_LO)

/-- A tick of velocity mode, with VTARGET and VMAX as they stand (R106, R109, R140, log entry 132): a soft limit ahead is the goal of a move at that
velocity; at rest there, or beyond it, the flag sets and the motion ends. -/
def velTick (s : State) (n : Nat) : State :=
  let v := axClamp s n (axVtarget s n)
  let neg := decide (v < 0)
  let lim := if neg then swNeg s n else swPos s n
  let p := ax s n Reg.AXIS.SETP_LO
  let ahead := if neg then decide (lim < p) else decide (p < lim)
  if !swOn s n || v = 0 then axRamped (setAxis s n { axisOf s n with prof := none }) n v
  else
    let m := axPlan s n lim v.natAbs
    let planned := ahead || (axisOf s n).prof.isSome
    let r := if planned then m.at else axRamp s n 0
    let s1 := setExact (setAxis s n { axisOf s n with prof := if planned then some m else none }) n r
    let there := r.has 0 && (if neg then decide (r.p ≤ profP lim) else decide (profP lim ≤ r.p))
    if there then axSetSt (motionOver s1 n) n (if neg then 10 else 9) true else s1

/-- A move to a target (R105 to R108): the plan starts from the set-point of the tick. -/
def planTo (s : State) (n : Nat) (g : Int) : State :=
  let s1 := wr64 (setMotion s n 1) .axis n Reg.AXIS.TARGET_ACT_LO g
  let s2 := prkSync (wr64 s1 .axis n Reg.AXIS.REMAIN_LO (g - ax s n Reg.AXIS.SETP_LO)) (n / 32)
  let s3 := setAxis s2 n { axisOf s2 n with prof := none }
  let v := (axisOf s n).ex.v
  let stop := stopAt (axProf s n) (axisOf s n).ex
  let behind := (decide (0 < v) && decide (profP g < stop)) || (decide (v < 0) && decide (stop < profP g))
  if behind then setInt (axSetSt s3 n 6 true) .axis n 1 else s3

/-- A motion mode is left for a new one (R106): its table is freed and the remainder cleared (R127). -/
def takeOver (s : State) (n : Nat) : State :=
  let s1 := axSetSt (axSetSt (axSetSt (clearRemain s n) n 11 false) n 16 false) n 6 false
  setAxis s1 n { axisOf s1 n with
    quick := false, toIdle := false, pend := none, camOut := false, prof := none, resume := false }

/-- A move takes over (R105 to R108). -/
def startMove (s : State) (n : Nat) (g : Int) : State := planTo (takeOver s n) n g

/-- A tick of a stop: at rest the axis stands, keeps the remainder of a move and takes the state the stop leads to (R126,
R127), or runs the rest of the move that CONTINUE asked for (R128). -/
def stopTick (s : State) (n : Nat) : State :=
  let x := axisOf s n
  let r := if x.quick then quickStep (axQdec s n) x.ex else axRamp s n 0
  let s1 := setExact s n r
  if r.has 0 then
    let s2 := setAxis (motionOver s1 n) n { axisOf s1 n with quick := false, toIdle := false, prof := none, resume := false }
    let s3 := if axSt s n 5 then wr64 s2 .axis n Reg.AXIS.REMAIN_LO (ax s2 n Reg.AXIS.TARGET_ACT_LO - ax s2 n Reg.AXIS.SETP_LO) else s2
    if x.toIdle then leadSt s3 .axis n .idle
    else if x.resume && axSt s n 5 then startMove s3 n (ax s3 n Reg.AXIS.TARGET_ACT_LO)
    else s3
  else s1

/-- The set-point of an axis for a tick (R99, R100). -/
def axisTick (s0 s : State) (n : Nat) : State :=
  let s := axReact s n
  if !inSt s .axis n [.run, .hold, .safe] || (axisOf s n).coast then s
  else
    let m := motion s n
    let p0 := ax s n Reg.AXIS.SETP_LO
    let ms := master s0 s n
    if (m == 3 || m == 4) && ms.2.2.2 then
      let s1 := masterLost s n
      if (axisOf s1 n).coast || motion s1 n != 8 then s1 else stopTick s1 n
    else
      let s1 := match m with
        | 1 => moveTick s n
        | 2 => velTick s n
        | 3 => gearTick s n ms.1 ms.2.1 ms.2.2.1
        | 4 => camTick s n ms.1 ms.2.1 ms.2.2.1
        | 5 => pvtTick s n
        | 6 => followTick s0 s n
        | 7 => homeTick s n
        | 8 => stopTick s n
        | _ => setSetp s n (ax s n Reg.AXIS.SETP_LO) 0 0
      axSoft s1 n p0

/-- The feedback's shift is carried (R110). -/
def axCarry (s : State) (n : Nat) : State :=
  let d := (encOf s (axFbIdx s n)).tickS - (axisOf s n).fbShift
  if axFb s n = 1 && d ≠ 0 then axMove s n d else s

/-- After the channels have been sampled: the shift, ACT, the limits that the position clears, the states that follow ACT, FERR, the
feedback's fault, and the publication of the tick (R100, R103, R110, R130, R132). FERR is rounded down (log entry 129); while the set-point
follows ACT the remainder of a move follows too (R127). DESIGN CHOICE (log entry 174): FERR is set and raised where the limit is first exceeded,
not again at each tick beyond it. -/
def axisAfter (s : State) (n : Nat) : State :=
  if stOf s .axis n == .off then s
  else
    let s1 := axCarry s n
    let act := axActual s1 n
    let s2 := limitRelease (limitRelease (wr64 s1 .axis n Reg.AXIS.ACT_LO act) n false) n true
    let s3 := if axFbState s2 n == .fault && !inSt s2 .axis n [.fault] then
        setMotion (leadSt (endMotion s2 n true) .axis n .fault) n 0 else s2
    let follows := inSt s3 .axis n [.idle, .fault] || (axisOf s3 n).coast
    let s4 := if follows then
        let s' := setSetp s3 n act 0 0
        if axSt s' n 5 && !inSt s' .axis n [.idle] then wr64 s' .axis n Reg.AXIS.REMAIN_LO (ax s' n Reg.AXIS.TARGET_ACT_LO - act) else s'
      else s3
    let s5 := softClear (if axFbState s4 n == .run then s4 else axSetSt s4 n 14 false) n
    let f := (ax s5 n Reg.AXIS.SETP_LO - act) / 65536
    let s6 := wr s5 .axis n Reg.AXIS.FERR (ofI (clampI (-2147483647) 2147483647 f))
    let lim := (rg s .axis n Reg.AXIS.FERR_LIM).toNat
    let ovr := decide (lim ≠ 0) && decide (lim < f.natAbs)
    let x := axisOf s6 n
    let s7 := setAxis s6 n { x with ferrOver := ovr }
    let s8 := if ovr && !x.ferrOver then raise (setInt s7 .axis n 9) 0x0E .axis n 0 0 else s7
    pubAll s8 .axis n .tick

/-! ## Control (R103, R104, R138 to R140) -/

/-- At rest: the set-point has no velocity and no motion runs. -/
def atRest (s : State) (n : Nat) : Bool := motion s n == 0 && ax s n Reg.AXIS.SETV_LO == 0

/-- Some limit of R105 is 0. -/
def zeroLimits (s : State) (n : Nat) : Bool :=
  [Reg.AXIS.VMAX_LO, Reg.AXIS.AMAX_LO, Reg.AXIS.DMAX_LO, Reg.AXIS.JMAX_LO].any (fun o => axLim s n o == 0)

/-- The target of MOVE_ABS or MOVE_REL (R108). -/
def moveTarget (s : State) (n : Nat) (rel : Bool) : Int :=
  let t := ax s n Reg.AXIS.TARGET_LO
  if rel then t + (if motion s n == 1 then ax s n Reg.AXIS.TARGET_ACT_LO else ax s n Reg.AXIS.SETP_LO) else t

/-- Whether a position lies beyond an enabled soft limit. -/
def beyondSoft (s : State) (n : Nat) (p : Int) : Bool := swOn s n && (decide (swPos s n < p) || decide (p < swNeg s n))

/-- Whether a table can be run by a command that needs its kind (R117). -/
def tableOk (s : State) (n : Nat) (master : Bool) : Bool :=
  let k := rf s .axis n Reg.AXIS.SYNC_CFG 4 4
  prkValid s (n / 32) k && prkMaster s (n / 32) k == master

/-- The direction in which a synchronous or following mode would set out (R133, R134): that of the geared velocity, of the cam's slope at
its start times the master's velocity, of a TIME table's first step, and of the external set-point. -/
def gearDir (s : State) (n : Nat) : Int := (master s s n).2.1 * sw (rg s .axis n Reg.AXIS.GEAR_NUM)
def camDir (s : State) (n : Nat) : Int :=
  (tableCurve (prkTable s (n / 32) (rf s .axis n Reg.AXIS.SYNC_CFG 4 4)) 4294967296 0).d1 * (master s s n).2.1
def pvtDir (s : State) (n : Nat) : Int :=
  let l := prkTable s (n / 32) (rf s .axis n Reg.AXIS.SYNC_CFG 4 4)
  let c := tableCurve l perS 62500
  c.y - (if rb s .axis n Reg.AXIS.SYNC_CFG 3 then ax s n Reg.AXIS.SETP_LO else tableY0 l) * c.den
def followDir (s : State) (n : Nat) : Int :=
  extSetp s s n - (if rb s .axis n Reg.AXIS.SP_SRC 2 then 0 else ax s n Reg.AXIS.SETP_LO)

/-- What the page says of its commands (R138, R139, Table 4-5). The motion commands that R105 refuses at a zero limit, and R133 and R134
in the direction of a limit, are those of Table 4-5 that set out to move; CONTINUE, GEAR_OUT, CAM_OUT, FOLLOW_OFF and QUICKSTOP are not
tested (log entry 130). -/
def axisRule (s : State) (n code : Nat) : Option CmdRule :=
  let st := stOf s .axis n
  let run := st == .run
  let homing := motion s n == 7
  let free := run && !homing
  let move (rel : Bool) : CmdRule :=
    let p := moveTarget s n rel
    ⟨false, false, firstOf [(!free || intoLimit s n (p - ax s n Reg.AXIS.SETP_LO), .wrongState),
      (zeroLimits s n || beyondSoft s n p, .range)]⟩
  match code with
  | 0x01 => some ⟨false, false, firstOf [(st != .idle || blocked s .axis n, .wrongState)]⟩
  | 0x02 => some ⟨true, false, firstOf [(!inSt s .axis n [.run, .hold, .safe], .wrongState)]⟩
  | 0x03 => some ⟨true, false, firstOf [(!holdable s .axis n, .wrongState)]⟩
  | 0x04 => some ⟨false, false, firstOf [(st != .hold || blocked s .axis n, .wrongState)]⟩
  | 0x05 => some ⟨false, false, none⟩
  | 0x06 => some ⟨false, false, firstOf [(st != .fault || axFbState s n != .run, .wrongState)]⟩
  | 0x07 => some ⟨true, false, firstOf [(!homing, .wrongState)]⟩
  | 0x10 => some (move false)
  | 0x11 => some (move true)
  | 0x12 => some ⟨false, false, firstOf [(!free || intoLimit s n (axVtarget s n), .wrongState),
      (zeroLimits s n || decide (axLim s n Reg.AXIS.VMAX_LO < (axVtarget s n).natAbs), .range)]⟩
  | 0x13 => some ⟨false, false, firstOf [(!free || rf s .axis n Reg.AXIS.MASTER 0 3 == 0 || intoLimit s n (gearDir s n), .wrongState),
      (zeroLimits s n, .range)]⟩
  | 0x14 => some ⟨false, false, firstOf [(!run || motion s n != 3, .wrongState)]⟩
  | 0x15 => some ⟨false, false, firstOf [(!free || rf s .axis n Reg.AXIS.MASTER 0 3 == 0 || intoLimit s n (camDir s n), .wrongState),
      (zeroLimits s n, .range), (!tableOk s n true, .conflict)]⟩
  | 0x16 => some ⟨false, false, firstOf [(!run || motion s n != 4, .wrongState)]⟩
  | 0x17 => some ⟨false, false, firstOf [(!run || !atRest s n || intoLimit s n (pvtDir s n), .wrongState),
      (zeroLimits s n, .range), (!tableOk s n false, .conflict)]⟩
  | 0x18 => some ⟨false, false, firstOf [(!free || rf s .axis n Reg.AXIS.SP_SRC 0 2 == 0 || intoLimit s n (followDir s n), .wrongState),
      (zeroLimits s n, .range)]⟩
  | 0x19 => some ⟨false, false, firstOf [(!run || motion s n != 6, .wrongState)]⟩
  | 0x1A => some ⟨false, false, firstOf [(!run || !atRest s n, .wrongState),
      (zeroLimits s n || (homeMethod s n != 0 && (rg s .axis n Reg.AXIS.HOME_VFAST == 0 || rg s .axis n Reg.AXIS.HOME_VSLOW == 0)), .range),
      (axFb s n == 2, .conflict)]⟩
  | 0x1B => some ⟨false, false, firstOf [(!inSt s .axis n [.run, .hold] || !atRest s n || !axSt s n 5 || blocked s .axis n
        || intoLimit s n (ax s n Reg.AXIS.TARGET_ACT_LO - ax s n Reg.AXIS.SETP_LO), .wrongState), (zeroLimits s n, .range)]⟩
  | 0x1C => some ⟨true, false, firstOf [(!inSt s .axis n [.run, .hold], .wrongState)]⟩
  | _ => none

/-- A mode that engages at once takes over. -/
def engage (s : State) (n : Nat) : State := engaged (takeOver s n) n

/-- START takes the actual position and the feedback speed as the set-point state and brings the set-point to rest (R104): the first set-point
from it is that of the next tick (R99). -/
def axisStart (s : State) (n : Nat) : State :=
  let s1 := axSetSt (setMotion (setSt s .axis n .run) n 8) n 12 false
  setAxis s1 n { axisOf s1 n with
    ex := ProfAt.of (ax s n Reg.AXIS.ACT_LO) (axFbSpeed s n) 0
    quick := false, toIdle := false, coast := false, prof := none, resume := false }

/-- STOP: as HOLD, then IDLE; from SAFE to IDLE at once when at rest (R126, Table 4-1). During its ramp the page keeps its state
(log entry 131). -/
def axisStop (s : State) (n : Nat) : State :=
  if stOf s .axis n == .safe then
    let s1 := clearRemain s n
    if atRest s n then setAxis (setSt s1 .axis n .idle) n { axisOf s1 n with coast := false }
    else setAxis s1 n { axisOf s1 n with toIdle := true }
  else if motion s n == 0 then leadSt s .axis n .idle
  else
    let s1 := endMotion s n false
    setAxis s1 n { axisOf s1 n with toIdle := true }

/-- HOME acts (R135, R137). -/
def homeStart (s : State) (n : Nat) : State :=
  let s1 := wf (axSetSt (setMotion (clearRemain s n) n 7) n 14 false) .axis n Reg.AXIS.STAT 17 3 0
  let s2 := setAxis s1 n { axisOf s1 n with
    hNeg := rb s .axis n Reg.AXIS.HOMECFG 4, hRev := false, hDist := 0, hSrch := 0, hBack := false, hRef := none, hApply := false
    hIdx := (encOf s (axFbIdx s n)).idxN, hAt := s.lap s.now }
  opStart (s2.modPage (pk .axis n) (fun p => { p with pos := 0 })) .axis n 2 (if homeMethod s n = 0 then 6 else 1) 0

/-- CONTINUE: back to RUN; the rest of a move is planned from standstill, at once or when the ramp to rest is over (R128). -/
def axisContinue (s : State) (n : Nat) : State :=
  let s1 := setSt s .axis n .run
  if !axSt s n 5 then s1
  else if atRest s n then startMove s1 n (ax s n Reg.AXIS.TARGET_ACT_LO)
  else setAxis s1 n { axisOf s1 n with resume := true }

/-- The effect of a command at its tick (Table 4-5). RESUME in HOLD leaves the page in HOLD while the move runs: Table 4-1 lets only
CONTINUE and STOP leave it (log entry 131). -/
def axisAct (s : State) (n code : Nat) : State :=
  match code with
  | 0x01 => axisStart s n
  | 0x02 => axisStop s n
  | 0x03 => axHold s n
  | 0x04 => axisContinue s n
  | 0x06 => setAxis (setSt s .axis n .idle) n { axisOf s n with coast := false }
  | 0x07 => homeAbort s n 4
  | 0x10 => startMove s n (moveTarget s n false)
  | 0x11 => startMove s n (moveTarget s n true)
  | 0x12 => prkSync (setMotion (takeOver s n) n 2) (n / 32)
  | 0x13 =>
    let s1 := engage s n
    prkSync (setMotion (setAxis s1 n { axisOf s1 n with mBase := masterNow s n, pBase := ax s n Reg.AXIS.SETP_LO, velRamp := false }) n 3) (n / 32)
  | 0x14 => endMotion s n false
  | 0x15 =>
    let s1 := takeOver s n
    let s2 := setAxis s1 n { axisOf s1 n with mBase := camZero s n, mPrev := masterNow s n, tbl := rf s .axis n Reg.AXIS.SYNC_CFG 4 4 }
    prkSync (axSetSt (setMotion s2 n 4) n 16 true) (n / 32)
  | 0x16 =>
    let x := axisOf s n
    if prkCyclic s (n / 32) x.tbl && !axSt s n 16 then setAxis s n { x with camOut := true } else endMotion s n false
  | 0x17 =>
    let s1 := engage s n
    let s2 := setMotion (setAxis s1 n { axisOf s1 n with x := 0, tbl := rf s .axis n Reg.AXIS.SYNC_CFG 4 4 }) n 5
    let y0 := tableY0 (axTable s2 n)
    let s3 := wr64 s2 .axis n Reg.AXIS.SYNC_OFS_LO (if rb s .axis n Reg.AXIS.SYNC_CFG 3 then 0 else ax s n Reg.AXIS.SETP_LO - y0)
    prkSync s3 (n / 32)
  | 0x18 => prkSync (setMotion (takeOver s n) n 6) (n / 32)
  | 0x19 => endMotion s n false
  | 0x1A => homeStart s n
  | 0x1B => startMove s n (ax s n Reg.AXIS.TARGET_ACT_LO)
  | 0x1C => axQuick s n
  | _ => s

/-- Whether a signal's TYPE is one of some; an entry that is not enabled has none to check. -/
def sigTypeOk (s : State) (id : Nat) (l : List Nat) : Bool :=
  id = 0 || !(sigEnt s id).en || l.contains (sigEnt s id).typ

/-- The tests of a staged set (R126, R131, R139, R140). DESIGN CHOICE (log entry 177): a TABLE committed in CAM mode that CAM_IN would refuse
is refused with CONFLICT. -/
def axisValidate (s : State) (n : Nat) : List (Bool × Nat × ErrCode) :=
  let c := staged s .axis n Reg.AXIS.CFG
  let m := staged s .axis n Reg.AXIS.MASTER
  let p := staged s .axis n Reg.AXIS.SP_SRC
  let l := staged s .axis n Reg.AXIS.LIMCFG
  let h := staged s .axis n Reg.AXIS.HOMECFG
  let y := staged s .axis n Reg.AXIS.SYNC_CFG
  let run := stOf s .axis n == .run
  let mo := motion s n
  let lim (o : Nat) : Nat := joinN (staged s .axis n o) (staged s .axis n (o + 4)) % 281474976710656
  let q := lim Reg.AXIS.QDEC_LO
  let k := fld y 4 4
  let big (o : Nat) : Bool := bit (staged s .axis n o) 31
  [(fld c 0 2 == 3 || (fld c 0 2 == 2 && 16 ≤ fld c 2 6), Reg.AXIS.CFG, .range),
   (fld c 0 2 != 0 && (insts .axis).any (fun i => i != n && axFb s i == fld c 0 2 && axFbIdx s i == fld c 2 6), Reg.AXIS.CFG, .conflict),
   (stOf s .axis n != .idle && fld c 0 8 != rf s .axis n Reg.AXIS.CFG 0 8, Reg.AXIS.CFG, .wrongState),
   ((fld c 0 2 == 1 && !powered s .enc (fld c 2 6)) || (fld c 0 2 == 2 && !powered s .ssn (fld c 2 6)), Reg.AXIS.CFG, .notPresent),
   (!sigTypeOk s (fld l 0 16) [3] || !sigTypeOk s (fld l 16 16) [3], Reg.AXIS.LIMCFG, .conflict),
   (big Reg.AXIS.LIM_CLEAR, Reg.AXIS.LIM_CLEAR, .range),
   (q != 0 && q < lim Reg.AXIS.DMAX_LO, Reg.AXIS.QDEC_LO, .range),
   (big Reg.AXIS.FERR_LIM, Reg.AXIS.FERR_LIM, .range), (big Reg.AXIS.SP_LAG_LIM, Reg.AXIS.SP_LAG_LIM, .range),
   (big Reg.AXIS.HOME_VFAST, Reg.AXIS.HOME_VFAST, .range), (big Reg.AXIS.HOME_VSLOW, Reg.AXIS.HOME_VSLOW, .range),
   (5 ≤ fld m 0 3 || (fld m 0 3 == 1 && 64 ≤ fld m 8 7) || (fld m 0 3 == 2 && 16 ≤ fld m 8 7), Reg.AXIS.MASTER, .range),
   ((fld m 0 3 == 3 && fld m 8 7 == n) || (fld m 0 3 == 4 && !sigTypeOk s (fld m 16 16) [2]), Reg.AXIS.MASTER, .conflict),
   ((fld m 0 3 == 1 && !powered s .enc (fld m 8 7)) || (fld m 0 3 == 2 && !powered s .ssn (fld m 8 7)) ||
      (fld m 0 3 == 3 && !powered s .axis (fld m 8 7)), Reg.AXIS.MASTER, .notPresent),
   (run && (mo == 3 || mo == 4) && changed s .axis n Reg.AXIS.MASTER, Reg.AXIS.MASTER, .wrongState),
   (staged s .axis n Reg.AXIS.GEAR_DEN == 0, Reg.AXIS.GEAR_DEN, .range),
   (run && mo == 4 && k != rf s .axis n Reg.AXIS.SYNC_CFG 4 4 && !(prkValid s (n / 32) k && prkMaster s (n / 32) k), Reg.AXIS.SYNC_CFG, .conflict),
   (fld p 0 2 == 3, Reg.AXIS.SP_SRC, .range),
   ((fld p 0 2 == 2 && bit p 2) || (fld p 0 2 == 1 && !sigTypeOk s (fld p 16 16) [0, 1, 2]), Reg.AXIS.SP_SRC, .conflict),
   (run && mo == 6 && changed s .axis n Reg.AXIS.SP_SRC, Reg.AXIS.SP_SRC, .wrongState),
   (6 ≤ fld h 0 4, Reg.AXIS.HOMECFG, .range),
   (!sigTypeOk s (fld h 16 16) [3], Reg.AXIS.HOMECFG, .conflict),
   (run && mo == 7 && changed s .axis n Reg.AXIS.HOMECFG, Reg.AXIS.HOMECFG, .wrongState)]

/-- What follows a commit: a new ratio ramps (R113), a new table is pending (R119), x of an engaged cam is reckoned from the new CAM_START
(R118, R140), a new feedback channel is taken with its frame as it stands. -/
def axisCommitted (s : State) (n : Nat) (old : Page) : State :=
  let o := fun r => SMap.get (regReset .axis) old.regs r
  let ch := fun r => o r != rg s .axis n r
  let s1 := if motion s n == 3 && (ch Reg.AXIS.GEAR_NUM || ch Reg.AXIS.GEAR_DEN) then
      axSetSt (setAxis s n { axisOf s n with velRamp := true }) n 11 false else s
  let k := rf s .axis n Reg.AXIS.SYNC_CFG 4 4
  let s2 := if motion s1 n == 4 && fld (o Reg.AXIS.SYNC_CFG) 4 4 != k then
      prkSync (setAxis s1 n { axisOf s1 n with pend := some k }) (n / 32) else s1
  let d := ax s n Reg.AXIS.CAM_START_LO - join (o Reg.AXIS.CAM_START_LO) (o (Reg.AXIS.CAM_START_LO + 4))
  let s3 := if motion s2 n == 4 && !axSt s2 n 16 then setAxis s2 n { axisOf s2 n with mBase := (axisOf s2 n).mBase + d } else s2
  if fld (o Reg.AXIS.CFG) 0 8 != rf s .axis n Reg.AXIS.CFG 0 8 then
    setAxis s3 n { axisOf s3 n with fbShift := if axFb s n = 1 then (encOf s (axFbIdx s n)).tickS else 0 }
  else s3

/-- EN=0: none published; signals at safe values (Table 4-1). DESIGN CHOICE (log entry 176): homing that runs ends as ABORT ends it. -/
def axisDisabled (s0 : State) (n : Nat) : State :=
  let s := if motion s0 n == 7 then homeFail s0 n 4 else s0
  let s1 := prkSync (setMotion (setSetp (leadSt s .axis n .off) n (ax s n Reg.AXIS.SETP_LO) 0 0) n 0) (n / 32)
  safeAll (setAxis (axSetSt s1 n 14 false) n { AxisSt.reset with fbShift := (axisOf s n).fbShift }) .axis n

end Sys2Proof.Machine
end

