-- ==== Sys2Proof/Machine/Can.lean ====
section
/-! DEFINITION. The CAN controllers (R452 to R471): message objects, receive queues, requests, signals, error confinement. -/
namespace Sys2Proof.Machine

/-- What a controller holds besides its registers. -/
def canOf (s : State) (k : Nat) : CanSt := SMap.get (fun _ => CanSt.reset) s.cans k

/-- The same, replaced. -/
def setCan (s : State) (k : Nat) (x : CanSt) : State := { s with cans := SMap.set (fun _ => CanSt.reset) s.cans k x }

/-- A message object. -/
def canObj (s : State) (k n : Nat) : CanObj := SMap.get (fun _ => CanObj.reset) (canOf s k).objs n

/-- The same, replaced. -/
def setObj (s : State) (k n : Nat) (o : CanObj) : State :=
  let x := canOf s k
  setCan s k { x with objs := SMap.set (fun _ => CanObj.reset) x.objs n o }

/-- A bit of a bitmap register for an object, and the same written. -/
def objBit (s : State) (k r n : Nat) : Bool := rb s .can k (r + 4 * (n / 32)) (n % 32)
def setObjBit (s : State) (k r n : Nat) (b : Bool) : State := wb s .can k (r + 4 * (n / 32)) (n % 32) b

/-! ## Object configuration (R455, R456) -/

/-- OBJ_CFG of an object, and its fields in a word. -/
def objCfg (s : State) (k n : Nat) : Word := rg s .can k (Reg.CAN.OBJ_CFG + 4 * n)
def cfgTx (w : Word) : Bool := fld w 0 2 == 1
def cfgRx (w : Word) : Bool := fld w 0 2 == 2
def cfgHead (w : Word) : Bool := cfgRx w && bit w 2
def cfgQlen (w : Word) : Nat := fld w 3 6
def cfgTime (w : Word) : Nat := fld w 12 12

/-- The bytes of a DLC in classical and in FD format (Table 17-1). -/
def dlcLen (fdf : Bool) (d : Nat) : Nat :=
  if fdf then [0, 1, 2, 3, 4, 5, 6, 7, 8, 12, 16, 20, 24, 32, 48, 64].getD d 0 else min d 8

/-- The data length of an object's DLC. -/
def cfgLen (w : Word) : Nat := dlcLen (bit w 25) (fld w 28 4)

/-- The head whose queue an object belongs to. -/
def headOf (s : State) (k n : Nat) : Option Nat :=
  (List.range (n + 1)).find? (fun h => cfgHead (objCfg s k h) && n < h + cfgQlen (objCfg s k h))

/-! ## Signals (R464) -/

/-- MAP[i] and its fields. -/
def canMap (s : State) (k i : Nat) : Word := rg s .can k (Reg.CAN.MAP + 4 * i)
def mapObj (w : Word) : Nat := fld w 16 7
def mapByte (w : Word) : Nat := fld w 26 6

/-- The bytes a signal TYPE takes in a frame. -/
def typBytes (t : Nat) : Nat := [3, 4, 8, 1].getD t 0

/-- A little-endian number of `n` data bytes. -/
def leBytes (d : List Nat) (b n : Nat) : Nat := (List.range n).foldl (fun v i => v + (d.getD (b + i) 0 % 256) * 256 ^ i) 0

/-- The value of a map in some data bytes, in the slot layout. -/
def mapValue (typ : Nat) (m : Word) (d : List Nat) : BitVec 64 :=
  let b := mapByte m
  match typ with
  | 0 => sx64 (ofI (sext 24 (leBytes d b 3)))
  | 1 => sx64 (ofN (leBytes d b 4))
  | 2 => BitVec.ofNat 64 (leBytes d b 8)
  | _ => if leBytes d b 1 / 2 ^ fld m 23 3 % 2 = 1 then 1 else 0

/-- Data bytes with a map's signal put in. -/
def mapPut (typ : Nat) (m : Word) (v : BitVec 64) (d : List Nat) : List Nat :=
  let b := mapByte m
  if typ = 3 then
    let w := d.getD b 0
    let i := fld m 23 3
    d.set b (w - w / 2 ^ i % 2 * 2 ^ i + v.toNat % 2 * 2 ^ i)
  else (List.range (typBytes typ)).foldl (fun d i => d.set (b + i) (v.toNat / 256 ^ i % 256)) d

/-- 64 data bytes of an object. -/
def pad64 (d : List Nat) : List Nat := (List.range 64).map (fun i => d.getD i 0)

/-- The signals that a map of an object publishes, tested. -/
def mapsFrom (s : State) (k : Nat) (f : Nat → Bool) (e : SigEntry) : Bool :=
  e.en && e.from .can k && e.upd == UpdEv.frame.num && e.word < 64 && f (mapObj (canMap s k e.word))

/-- The signals mapped from a written object are published with its timestamp. -/
def canPublish (s : State) (k n : Nat) (ts : BitVec 35) : State :=
  s.sigs.foldl (fun s (e : Nat × SigEntry) =>
    if mapsFrom s k (fun o => o == n) e.2 then
      publish s e.1 (mapValue e.2.typ (canMap s k e.2.word) (canObj s k n).data) ts
    else s) s

/-- The signals of a queue's objects take their safe values. -/
def canStaleSafe (s : State) (k h : Nat) : State :=
  safeIf s .can k (fun e => e.word < 64 && headOf s k (mapObj (canMap s k e.word)) == some h)

/-- A TX object's data with its signals read from the process image (R464). -/
def canFill (s : State) (k n : Nat) : List Nat :=
  (List.range 64).foldl (fun d i =>
    let m := canMap s k i
    if mapObj m = n ∧ fld m 0 16 ≠ 0 then mapPut (sigEnt s (fld m 0 16)).typ m (sigVal s (fld m 0 16)) d else d)
    (pad64 (canObj s k n).data)

/-! ## Error confinement (R467) -/

/-- Whether a controller takes part in the bus. -/
def canLive (s : State) (k : Nat) : Bool := inSt s .can k [.run, .safe] && !rb s .can k Reg.CAN.STAT 0

/-- ECR follows the counters. -/
def ecrShow (s : State) (k : Nat) : State :=
  let x := canOf s k
  wf (wf s .can k Reg.CAN.ECR 0 8 (min x.txErr 255)) .can k Reg.CAN.ECR 8 7 (min x.rxErr 127)

/-- Bus-off: FAULT, and the signals mapped from its objects go safe. -/
def canBusOff (s : State) (k : Nat) : State :=
  let s1 := setInt (wf (setSt s .can k .fault) .can k Reg.CAN.ECR 16 2 2) .can k 7
  safeAll (raise s1 0x20 .can k 0 0) .can k

/-- The counters take new values: warning, error-passive and bus-off follow. -/
def canCount (s : State) (k tec rec_ : Nat) : State :=
  let x := canOf s k
  let s1 := ecrShow (setCan s k { x with txErr := tec, rxErr := rec_ }) k
  let s2 := if (x.txErr < 96 && 96 ≤ tec) || (x.rxErr < 96 && 96 ≤ rec_) then setInt s1 .can k 5 else s1
  let passive := decide (128 ≤ tec ∨ 128 ≤ rec_)
  let s3 := if 255 < tec then canBusOff s2 k else wf s2 .can k Reg.CAN.ECR 16 2 (b2n passive)
  if passive && x.txErr < 128 && x.rxErr < 128 then setInt s3 .can k 6 else s3

/-- A frame received without error lowers the receive counter (ISO 11898-1): from above 127 it returns to a value of 119 to 127. -/
def canGoodRx (s : State) (k : Nat) : State :=
  let x := canOf s k
  if x.rxErr = 0 then s
  else if x.rxErr ≤ 127 then canCount s k x.txErr (x.rxErr - 1)
  else canCount s.next k x.txErr (119 + (Config.free32 s.seed).toNat % 9)

/-- A frame sent without error lowers the transmit counter. -/
def canGoodTx (s : State) (k : Nat) : State :=
  let x := canOf s k
  if x.txErr = 0 then s else canCount s k (x.txErr - 1) x.rxErr

/-! ## Receiving (R457, R458, R463) -/

/-- Whether a frame matches a head. -/
def canMatch (s : State) (k n : Nat) (f : CanFrame) : Bool :=
  let id := rg s .can k (Reg.CAN.FILT_ID + 4 * n)
  let m := rg s .can k (Reg.CAN.FILT_MASK + 4 * n)
  cfgHead (objCfg s k n) && Nat.land (Nat.xor f.id.toNat (fld id 0 29)) (fld m 0 29) == 0 && (!bit m 29 || f.ide == bit id 29)

/-- OBJ_HDR and OBJ_INFO of a received frame. -/
def canHdr (f : CanFrame) : Word :=
  ofN (f.id.toNat + 536870912 * b2n f.ide + 1073741824 * b2n f.fdf + 2147483648 * b2n f.brs)
def canInfo (f : CanFrame) (lost : Bool) : Word := ofN (b2n lost + 2 * b2n f.rtr + 4 * b2n f.esi + 16 * f.dlc.val)

/-- The bytes a frame carries. -/
def canData (f : CanFrame) : List Nat := if f.rtr then [] else f.data.take (dlcLen f.fdf f.dlc.val)

/-- A frame is written into an object, which then belongs to software. -/
def canStore (s : State) (k n tsof : Nat) (f : CanFrame) (lost : Bool) : State :=
  let o : CanObj := { canObj s k n with data := canData f, hdr := canHdr f, info := canInfo f lost, ts := devTime tsof }
  let s1 := setObjBit (setObj s k n o) k Reg.CAN.RX_FULL n true
  let s2 := if bit (objCfg s k n) 10 then setInt s1 .can k 0 else s1
  canPublish s2 k n (devTime tsof)

/-- A frame reaches the queue of a head: written into its next object, or lost. -/
def canQueue (s : State) (k h tsof : Nat) (f : CanFrame) : State :=
  let x := canOf s k
  let c := objCfg s k h
  let q := max 1 (cfgQlen c)
  let i := SMap.get (fun _ => 0) x.ring h
  let n := h + i
  let s1 := setObjBit (setCan s k { x with seen := SMap.set (fun _ => 0) x.seen h (s.lap s.now) }) k Reg.CAN.RX_STALE h false
  let full := objBit s k Reg.CAN.RX_FULL n
  if full && !bit c 9 then setInt (incSat s1 .can k Reg.CAN.RX_LOST) .can k 3
  else
    let y := canOf s1 k
    canStore (setCan s1 k { y with ring := SMap.set (fun _ => 0) y.ring h ((i + 1) % q) }) k n tsof f full

/-- A frame meets the heads. -/
def canAccept (s : State) (k tsof : Nat) (f : CanFrame) : State :=
  match (List.range 128).find? (fun n => canMatch s k n f) with
  | some h => canQueue s k h tsof f
  | none => s

/-- A frame from the bus ends at `t`; its start of frame fell at `tsof`. -/
def canReceive (s0 : State) (k tsof t : Nat) (f : CanFrame) : State :=
  let s := s0.at t
  if canLive s k then canAccept (canGoodRx s k) k tsof f else s

/-- A write of RX_FULL returns objects to the controller; a frame written in the same cycle keeps its bit (R458). -/
def rxFullWrite (s : State) (k w : Nat) (v ev : Word) : State :=
  (List.range 32).foldl (fun s b =>
    let n := 32 * w + b
    if bit v b && !bit ev b && objBit s k Reg.CAN.RX_FULL n then
      let o := canObj s k n
      setObjBit (setObj s k n { o with info := setBit o.info 0 false }) k Reg.CAN.RX_FULL n false
    else s) s

/-! ## Requests (R460 to R462) -/

/-- A request is set: the object's signals are read and it passes to the controller. -/
def canRequest (s : State) (k n : Nat) : State :=
  let o : CanObj := { canObj s k n with data := canFill s k n, arb := 0, errs := 0, reqAt := s.lap s.now, cancel := false,
                                        again := false }
  setObjBit (setObj s k n o) k Reg.CAN.TX_PEND n true

/-- A write of TX_REQ. -/
def txReqWrite (s : State) (k w : Nat) (v : Word) : State :=
  (List.range 32).foldl (fun s b =>
    let n := 32 * w + b
    if !bit v b then s
    else if !cfgTx (objCfg s k n) then rejWr s .can k .conflict (Reg.CAN.TX_REQ + 4 * w)
    else if objBit s k Reg.CAN.TX_PEND n then s
    else canRequest s k n) s

/-- A request ends; one that waits behind it is set. -/
def canEnd (s : State) (k n : Nat) : State :=
  let o := canObj s k n
  let s1 := setObjBit (setObj s k n { o with cancel := false, again := false }) k Reg.CAN.TX_PEND n false
  if o.again then canRequest s1 k n else s1

/-- A write of TX_CANCEL; `onBus` names the object whose frame is on the bus. -/
def txCancelWrite (s : State) (k w : Nat) (v : Word) (onBus : Option Nat) : State :=
  (List.range 32).foldl (fun s b =>
    let n := 32 * w + b
    if bit v b && objBit s k Reg.CAN.TX_PEND n then
      if onBus = some n then setObj s k n { canObj s k n with cancel := true } else canEnd s k n
    else s) s

/-- The place of an identifier in arbitration: a base identifier precedes the extended ones it begins. -/
def arbKey (w : Word) : Nat := if bit w 29 then 2 * fld w 0 29 + 1 else 2 * (fld w 0 11 * 262144)

/-- The object whose frame the controller offers at `tsof`: of the requests set before, the lowest identifier or number. -/
def canChosen (s : State) (k tsof : Nat) : Option Nat :=
  let l := (List.range 128).filter (fun n => objBit s k Reg.CAN.TX_PEND n && decide ((canObj s k n).reqAt ≤ s.lap tsof))
  let key (n : Nat) : Nat := if rb s .can k Reg.CAN.CFG 2 then 0 else arbKey (rg s .can k (Reg.CAN.FILT_ID + 4 * n))
  l.foldl (fun (m : Option Nat) n => match m with
    | none => some n
    | some b => if key n < key b then some n else m) none

/-- Whether a controller may send: in RUN, in normal or loop-back mode. -/
def canSends (s : State) (k : Nat) : Bool :=
  canLive s k && stOf s .can k == .run && (rf s .can k Reg.CAN.CFG 0 2 == 0 || rf s .can k Reg.CAN.CFG 0 2 == 3)

/-- The frame of an object; a time master's reference carries the extended time of its start of frame (R466). -/
def canFrameOf (s : State) (k n tsof : Nat) : CanFrame :=
  let c := objCfg s k n
  let id := rg s .can k (Reg.CAN.FILT_ID + 4 * n)
  let d := pad64 (canObj s k n).data
  let ref := rb s .can k Reg.CAN.TIMEREF 0 && rf s .can k Reg.CAN.TIMEREF 8 7 == n
  let d1 := if ref then (List.range 8).foldl (fun d i => d.set i (tsof / 256 ^ i % 256)) d else d
  { id := BitVec.ofNat 29 (if bit id 29 then fld id 0 29 else fld id 0 11), ide := bit id 29, fdf := bit c 25, brs := bit c 25 && bit c 26,
    esi := bit c 25 && rf s .can k Reg.CAN.ECR 16 2 == 1, rtr := bit c 24, dlc := Fin.ofNat 16 (fld c 28 4),
    data := if bit c 24 then [] else d1.take (cfgLen c) }

/-- A requested frame has been sent; `tdc` is the delay the controller measured in it. Where the secondary sample point lies beyond 127
clocks every bit of the data phase is a bit error (R454), so that no such frame is ever sent: it ends by CAN_ERROR. -/
def canSent (s0 : State) (k tsof t tdc : Nat) : State :=
  let s := s0.at t
  if !canSends s k then s
  else match canChosen s k tsof with
    | none => s
    | some n =>
      let f := canFrameOf s k n tsof
      if f.brs && rb s .can k Reg.CAN.TDC 0 && decide (127 < tdc % 128 + rf s .can k Reg.CAN.TDC 8 7) then
        wr s .can k Reg.CAN.TDC_MEAS (ofN (tdc % 128))
      else
      let x := canOf s k
      let o := canObj s k n
      let s1 := setObj (setCan s k { x with sent := some f }) k n { o with ts := devTime tsof, data := pad64 (if f.rtr then o.data else f.data) }
      let s2 := setObjBit (canEnd s1 k n) k Reg.CAN.TX_DONE n true
      let s3 := if bit (objCfg s k n) 10 then setInt s2 .can k 1 else s2
      let s4 := if f.fdf && rb s .can k Reg.CAN.TDC 0 then wr s3 .can k Reg.CAN.TDC_MEAS (ofN (tdc % 128)) else s3
      let s5 := canGoodTx s4 k
      if rf s .can k Reg.CAN.CFG 0 2 == 3 then canAccept s5 k tsof f else s5

/-- A request whose attempts exceed a limit is abandoned; one cancelled on the bus ends without a flag (R461, R462). -/
def canAttempt (s : State) (k n : Nat) (ovr : Bool) : State :=
  if (canObj s k n).cancel then canEnd s k n
  else if ovr then setInt (setObjBit (canEnd s k n) k Reg.CAN.TX_ABANDON n true) .can k 2
  else s

/-- The frame offered at `tsof` loses arbitration. -/
def canArbLost (s0 : State) (k tsof t : Nat) : State :=
  let s := s0.at t
  if !canSends s k then s
  else match canChosen s k tsof with
    | none => s
    | some n =>
      let o := canObj s k n
      canAttempt (setObj s k n { o with arb := o.arb + 1 }) k n
        (!rb s .can k Reg.CAN.RETRY 4 && decide (rf s .can k Reg.CAN.RETRY 0 4 < o.arb + 1))

/-- A bus error: `tx` of the controller's own frame, `inc` what ISO 11898-1 adds to the counter, `lec` its kind. -/
def canError (s0 : State) (k : Nat) (tx : Bool) (inc lec tsof t : Nat) : State :=
  let s := s0.at t
  if !canLive s k then s
  else
    let s1 := wf (incWrap s .can k Reg.CAN.ERR_CNT) .can k Reg.CAN.ECR 20 3 lec
    let x := canOf s k
    let s2 := match (if tx && canSends s k then canChosen s k tsof else none) with
      | some n =>
        let o := canObj s k n
        canAttempt (setObj s1 k n { o with errs := o.errs + 1 }) k n
          (!rb s .can k Reg.CAN.RETRY 12 && decide (rf s .can k Reg.CAN.RETRY 8 4 < o.errs + 1))
      | none => s1
    if tx then canCount s2 k (x.txErr + inc) x.rxErr else canCount s2 k x.txErr (x.rxErr + inc)

/-! ## Cyclic requests, stale queues, references (R465, R466) -/

/-- A TX object with TIME is requested at each multiple of TIME ms. -/
def canCyclic (s0 : State) (k n t : Nat) : State :=
  let s := s0.at t
  let c := objCfg s k n
  if inSt s .can k [.run, .safe] && cfgTx c && cfgTime c != 0 && t % (8000000 * cfgTime c) == 0 then
    if objBit s k Reg.CAN.TX_PEND n then wb s .can k Reg.CAN.STAT 2 true else canRequest s k n
  else s

/-- No frame for TIME ms: the queue of a head is stale. -/
def canStale (s0 : State) (k h t : Nat) : State :=
  let s := s0.at t
  let c := objCfg s k h
  let due := SMap.get (fun _ => 0) (canOf s k).seen h + 8000000 * cfgTime c
  if inSt s .can k [.run, .safe] && cfgHead c && cfgTime c != 0 && !objBit s k Reg.CAN.RX_STALE h && decide (due ≤ s.lap t) then
    canStaleSafe (setInt (setObjBit s k Reg.CAN.RX_STALE h true) .can k 4) k h
  else s

/-- The time master requests its reference; `onBus`: the previous one is on the bus. -/
def canReference (s0 : State) (k t : Nat) (onBus : Bool) : State :=
  let s := s0.at t
  let n := rf s .can k Reg.CAN.TIMEREF 8 7
  let per := (rg s .can k Reg.CAN.REF_PERIOD).toNat
  if stOf s .can k == .run && rb s .can k Reg.CAN.TIMEREF 0 && t % (8000 * per) == 0 then
    if objBit s k Reg.CAN.TX_PEND n then
      let s1 := setInt (incSat s .can k Reg.CAN.REF_MISS) .can k 8
      if onBus then setObj s1 k n { canObj s1 k n with cancel := true, again := true } else canRequest (canEnd s1 k n) k n
    else canRequest s k n
  else s

/-- Heads that wait for frames count from now. -/
def canSeenAll (s : State) (k : Nat) (f : Nat → Bool) : State :=
  let x := canOf s k
  let l := (List.range 128).filter (fun n => cfgHead (objCfg s k n) && f n)
  setCan s k { x with seen := l.foldl (fun m n => SMap.set (fun _ => 0) m n (s.lap s.now)) x.seen
                      ring := l.foldl (fun m n => SMap.set (fun _ => 0) m n 0) x.ring }

/-! ## The object window (R459) -/

/-- A read of OBJ_HDR: the rest of the object stands in the snapshot. -/
def objHdrRead (s : State) (k : Nat) : State × Word :=
  let o := canObj s k (rf s .can k Reg.CAN.OBJ_IDX 0 7)
  let d := pad64 o.data
  let ws := (List.range 16).map (fun j => (Reg.CAN.OBJ_DATA + 4 * j, ofN (leBytes d (4 * j) 4)))
  (s.modPage (pk .can k) (Page.latch ([(Reg.CAN.OBJ_TS_LO, tsLo o.ts), (Reg.CAN.OBJ_TS_HI, tsHi o.ts), (Reg.CAN.OBJ_INFO, o.info)] ++ ws)), o.hdr)

/-- A write of OBJ_DATA: into a TX object that is not pending. -/
def objDataWrite (s : State) (k off : Nat) (v : Word) : State :=
  let n := rf s .can k Reg.CAN.OBJ_IDX 0 7
  let o := canObj s k n
  if !cfgTx (objCfg s k n) then s
  else if objBit s k Reg.CAN.TX_PEND n then rejWr s .can k .busy off
  else
    let d := (wordBytes v).zipIdx.foldl (fun d (e : Nat × Nat) => d.set (off - Reg.CAN.OBJ_DATA + e.2) e.1) (pad64 o.data)
    setObj s k n { o with data := d }

/-! ## Commands and commits (R468 to R470) -/

/-- What a CAN page says of its commands. -/
def canRule (s : State) (k code : Nat) : Option CmdRule :=
  let st := stOf s .can k
  let busy := (s.page (pk .can k)).busy
  match code with
  | 0x01 => some ⟨false, true, firstOf [(st != .idle || blocked s .can k, .wrongState), (!padsAre s 1 (padsOf .can k), .conflict)]⟩
  | 0x02 => some ⟨true, true, firstOf [(!inSt s .can k [.run, .safe, .fault], .wrongState)]⟩
  | 0x05 => some ⟨false, true, none⟩
  | 0x07 => some ⟨false, true, firstOf [(!busy, .wrongState)]⟩
  | 0x10 => some ⟨true, true, firstOf [(st != .fault || rf s .can k Reg.CAN.ECR 16 2 != 2, .wrongState), (busy, .busy)]⟩
  | _ => none

/-- The controller leaves the bus. -/
def canLeave (s : State) (k : Nat) (st : PgState) : State :=
  let s1 := if (s.page (pk .can k)).busy then opFail s .can k .wrongState 0x010 else s
  wf (setSt s1 .can k st) .can k Reg.CAN.STAT 0 2 0

/-- The effect of a CAN command; a controller still bus-off returns from START to FAULT (R469). -/
def canAct (s : State) (k code : Nat) : State :=
  match code with
  | 0x01 =>
    let s1 := wf (wr (wr s .can k Reg.CAN.RX_LOST 0) .can k Reg.CAN.REF_MISS 0) .can k Reg.CAN.STAT 2 1 0
    if rf s .can k Reg.CAN.ECR 16 2 = 2 then setSt s1 .can k .fault
    else canSeenAll (wb (setSt s1 .can k .run) .can k Reg.CAN.STAT 0 true) k (fun _ => true)
  | 0x02 => canLeave s k .idle
  | 0x07 => opFail s .can k .wrongState 0x010
  | 0x10 => opStart (setCan s k { canOf s k with recAt := s.lap s.now, occ := 0 }) .can k 1 1 0
  | _ => s

/-- The 128th occurrence ends recovery (R468). -/
def canRecovered (s : State) (k : Nat) : State :=
  if stOf s .can k == .fault && (s.page (pk .can k)).busy then
    let s1 := setCan (setSt s .can k .run) k { canOf s k with txErr := 0, rxErr := 0 }
    opDone (wf (ecrShow s1 k) .can k Reg.CAN.ECR 16 2 0) .can k
  else s

/-- The clocks of a bit in a staged NBT or DBT. -/
def nbtClocks (w : Word) : Nat := (fld w 0 5 + 1) * (1 + (fld w 8 8 + 1) + (fld w 16 7 + 1))
def dbtClocks (w : Word) : Nat := (fld w 0 5 + 1) * (1 + (fld w 8 5 + 1) + (fld w 16 4 + 1))

/-- The occurrences of 11 recessive bits counted when PGPROG is read: at least those read before, at most what the time since RECOVER
allows, fewer than 128; the bits of CANRXk are no part of the model, so a free number between them (R468, log entry 159). -/
def canProg (s : State) (k : Nat) : State :=
  let x := canOf s k
  let most := min 127 ((s.lap s.now - x.recAt) / (1100 * nbtClocks (rg s .can k Reg.CAN.NBT)))
  let n := if most ≤ x.occ then x.occ else x.occ + (Config.free32 s.seed).toNat % (most - x.occ + 1)
  setProg (setCan s.next k { x with occ := n }) .can k 1 1 (10000 * n / 128)

/-- Eleven recessive bits: the controller takes part in the bus. -/
def canIntegrated (s : State) (k : Nat) : State :=
  if inSt s .can k [.run, .safe] then wb s .can k Reg.CAN.STAT 0 false else s

/-- The tests of one staged object (R456, R470). -/
def objTests (s : State) (k n : Nat) : List (Bool × Nat × ErrCode) :=
  let cfg (i : Nat) : Word := staged s .can k (Reg.CAN.OBJ_CFG + 4 * i)
  let c := cfg n
  let o := Reg.CAN.OBJ_CFG + 4 * n
  let held := objBit s k Reg.CAN.TX_PEND n || objBit s k Reg.CAN.RX_FULL n
  let q := cfgQlen c
  let inQueue := (List.range n).any (fun h => cfgHead (cfg h) && n < h + cfgQlen (cfg h))
  [(fld c 0 2 == 3 || (cfgHead c && (q == 0 || 32 < q)) || (bit c 24 && bit c 25), o, .range),
   (cfgHead c && (128 < n + q || (bit c 9 && 1 < q) ||
      (List.range (q - 1)).any (fun i => n + 1 + i < 128 && (!cfgRx (cfg (n + 1 + i)) || bit (cfg (n + 1 + i)) 2))), o, .conflict),
   (cfgRx c && !bit c 2 && !inQueue, o, .conflict),
   (held && changed s .can k o, o, .wrongState),
   (held && changed s .can k (Reg.CAN.FILT_ID + 4 * n), Reg.CAN.FILT_ID + 4 * n, .wrongState),
   (held && changed s .can k (Reg.CAN.FILT_MASK + 4 * n), Reg.CAN.FILT_MASK + 4 * n, .wrongState)]

/-- The test of one staged map: its bytes lie within its object's data (R464). -/
def mapTest (s : State) (k i : Nat) : Bool × Nat × ErrCode :=
  let m := staged s .can k (Reg.CAN.MAP + 4 * i)
  let c := staged s .can k (Reg.CAN.OBJ_CFG + 4 * mapObj m)
  let beyond (t : Nat) : Bool := cfgLen c < mapByte m + typBytes t
  let bad := if cfgTx c then fld m 0 16 != 0 && beyond (sigEnt s (fld m 0 16)).typ
    else if cfgRx c then s.sigs.any (fun (e : Nat × SigEntry) => e.2.en && e.2.from .can k && e.2.word == i && beyond e.2.typ)
    else false
  (bad, Reg.CAN.MAP + 4 * i, .conflict)

/-- The tests of a staged CAN set (R470). -/
def canValidate (s : State) (k : Nat) : List (Bool × Nat × ErrCode) :=
  let on := inSt s .can k [.run, .safe]
  let nb := staged s .can k Reg.CAN.NBT
  let db := staged s .can k Reg.CAN.DBT
  let tr := staged s .can k Reg.CAN.TIMEREF
  let rc := staged s .can k (Reg.CAN.OBJ_CFG + 4 * fld tr 8 7)
  let rp := (staged s .can k Reg.CAN.REF_PERIOD).toNat
  [(on && stf s .can k Reg.CAN.CFG 0 2 != rf s .can k Reg.CAN.CFG 0 2, Reg.CAN.CFG, ErrCode.wrongState),
   (fld nb 8 8 == 0 || nbtClocks nb < 80, Reg.CAN.NBT, .range),
   (on && changed s .can k Reg.CAN.NBT, Reg.CAN.NBT, .wrongState),
   (dbtClocks db < 10 || nbtClocks nb < dbtClocks db, Reg.CAN.DBT, .range),
   (on && changed s .can k Reg.CAN.DBT, Reg.CAN.DBT, .wrongState),
   (on && changed s .can k Reg.CAN.TDC, Reg.CAN.TDC, .wrongState),
   (bit tr 0 && (!cfgTx rc || cfgLen rc < 8), Reg.CAN.TIMEREF, .conflict),
   (rp < 100 || 1000000 < rp, Reg.CAN.REF_PERIOD, .range)] ++
  (List.range 64).map (mapTest s k) ++ (List.range 128).flatMap (objTests s k)

/-- After a commit the queues of changed heads begin anew. -/
def canCommitted (s : State) (k : Nat) (old : Page) : State :=
  canSeenAll s k (fun n => SMap.get (regReset .can) old.regs (Reg.CAN.OBJ_CFG + 4 * n) != objCfg s k n)

end Sys2Proof.Machine
end

