-- ==== Sys2Proof/Machine/Binds.lean ====
section
/-! DEFINITION. The signals each page's active bindings name (R351), which are the signals it consumes (R42). -/
namespace Sys2Proof.Machine

/-- IDs named where a test holds. -/
def idIf (b : Bool) (id : Nat) : List Nat := if b && id != 0 then [id] else []

/-- The IDs bound by an axis. -/
def axisBinds (s : State) (n : Nat) : List Nat :=
  let r (o : Nat) : Word := rg s .axis n o
  idIf true (fld (r Reg.AXIS.LIMCFG) 0 16) ++ idIf true (fld (r Reg.AXIS.LIMCFG) 16 16) ++
    idIf (fld (r Reg.AXIS.MASTER) 0 3 == 4) (fld (r Reg.AXIS.MASTER) 16 16) ++
    idIf (fld (r Reg.AXIS.SP_SRC) 0 2 == 1) (fld (r Reg.AXIS.SP_SRC) 16 16) ++ idIf true (fld (r Reg.AXIS.HOMECFG) 16 16)

/-- The IDs bound by a control slot. -/
def cslotBinds (s : State) (k : Nat) : List Nat :=
  let r (o : Nat) : Word := rg s .cslot k o
  idIf (fld (r Reg.CSLOT.ANGLE) 0 2 == 2) (fld (r Reg.CSLOT.ANGLE) 16 16) ++
    (List.range 4).flatMap (fun i => idIf (fld (r (Reg.CSLOT.IN_SRC + 4 * i)) 0 2 == 1) (fld (r (Reg.CSLOT.IN_SRC + 4 * i)) 16 16) ++
      idIf (fld (r (Reg.CSLOT.Y_SRC + 4 * i)) 0 2 == 2) (fld (r (Reg.CSLOT.Y_SRC + 4 * i)) 16 16))

/-- The IDs a program reads, and those it names. -/
def LeSlot.reads (y : LeSlot) : List Nat := (y.list.filter (fun g => !g.out)).map (fun g => g.id)
def LeSlot.names (y : LeSlot) : List Nat := y.list.map (fun g => g.id)

/-- The IDs of a recipe's conditions, and those it names. -/
def RBank.conds (y : RBank) : List Nat := (y.steps.map (fun st => st.cond)).filter (fun i => i != 0)
def RBank.names (y : RBank) : List Nat := y.conds ++ y.acts.map (fun a => a.sig)

/-- The IDs bound by a page's registers. -/
def pageBinds (s : State) (t : PgTy) (n : Nat) : List Nat :=
  match t with
  | .axis => axisBinds s n
  | .cslot => cslotBinds s n
  | .lc => (List.range 64).flatMap (fun w => idIf true (rf s .lc n (Reg.LC.SIGIN + 4 * w) 0 16))
  | .pwm => (List.range 3).flatMap (fun p =>
      let c := rg s .pwm n (Reg.PWM.PAIR_CFG + 4 * p)
      idIf (fld c 2 2 == 2) (fld c 16 16))
  | .acq => (acqSources (acqReg s n)).flatMap (fun x => idIf (fld x.2 0 2 == 1) (fld x.2 16 16))
  | .psp => (List.range 64).flatMap (fun w =>
      let v := rg s .psp n (Reg.PSP.TX + 4 * w)
      idIf (bit v 31) (fld v 0 16))
  | .can => (List.range 64).flatMap (fun i => let m := canMap s n i; idIf (cfgTx (objCfg s n (mapObj m))) (fld m 0 16))
  | .dio => (List.range 16).flatMap (fun o =>
      let c := rg s .dio 0 (Reg.DIO.OUT_SRC + 4 * o)
      idIf (fld c 0 2 == 1) (fld c 16 16))
  | .time => (List.range 256).flatMap (fun x => let w := rg s .time 0 (Reg.TIME.EXPORT + 4 * x); idIf (bit w 16) (fld w 0 16))
  | _ => []

/-- The page types with bindings in registers. -/
def bindTypes : List PgTy := [.axis, .cslot, .lc, .pwm, .acq, .psp, .can, .dio, .time]

/-- Whether a signal is named by an active binding, by a program in either slot or by a recipe in either bank (R351). -/
def sigBound (s : State) (id : Nat) : Bool :=
  bindTypes.any (fun t => (insts t).any (fun n => (pageBinds s t n).contains id)) ||
    (leSlots s).any (fun y => y.names.contains id) ||
    (insts .rseq).any (fun r => [0, 1].any (fun k => match (rseqOf s r).bankAt k with
      | some y => y.names.contains id
      | none => false))

/-- The signals a page consumes: its bindings, the reads of the program an engine runs, the condition signals of a recipe. -/
def consumed (s : State) (t : PgTy) (n : Nat) : List Nat :=
  match t with
  | .le => match (leOf s n).slot (leRunning s n) with
    | some y => y.reads
    | none => []
  | .rseq => match rseqRecipe s n with
    | some y => y.conds
    | none => []
  | _ => pageBinds s t n

end Sys2Proof.Machine
end

