-- ==== Sys2Proof/Machine/Image.lean ====
section
/-! DEFINITION. Access to the addressed ranges that are not pages: the process image (R18, R19), the signal table (R16) and
memories, as one word or as bytes. -/
namespace Sys2Proof.Machine

/-! ## The process image -/

/-- The signal of an address in the process image. -/
def piId (a : Nat) : Nat := (a - 0x50000000) / 64 % 65536

/-- A read of VALUE_LO snapshots the words that follow it (R18). -/
def slotSnap (s : State) (id : Nat) : State :=
  let v := slotView s id
  setSlot s id { slotOf s id with snapHi := (v.value >>> 32).setWidth 32, snapTs := v.ts, snapStatus := v.status }

/-- The word of a slot at an offset (Table 1-8). -/
def slotWord (s : State) (id off : Nat) : Word :=
  let v := slotView s id
  match off with
  | 0x00 => sigLo s id
  | 0x04 => v.snapHi
  | 0x08 => tsLo v.snapTs
  | 0x0C => tsHi v.snapTs
  | 0x10 => v.snapStatus
  | 0x14 => v.pubCnt
  | 0x18 => v.raw.setWidth 32
  | 0x1C => (v.raw >>> 32).setWidth 32
  | _ => 0

/-- A read of the process image at an address: the state after it and the word. -/
def piRead (s : State) (a : Nat) : State × Word :=
  let id := piId a
  let off := a % 64 / 4 * 4
  let s1 := if off = 0 then slotSnap s id else s
  (s1, slotWord s1 id off)

/-- Whether a master may publish a signal: an application core or the host, of an entry whose source is APC[0] (R19). -/
def mayPublish (s : State) (m : Master) (id : Nat) : Bool :=
  (m.isAp || m = .pcieHost || m = .hsp) && (sigEnt s id).from .apc 0

/-- A write of VALUE_LO (`hi` = false) or VALUE_HI of a slot (R19); the low word last written is used (R61). -/
def pubWrite (s : State) (m : Master) (id : Nat) (hi : Bool) (v : Word) : State :=
  let e := sigEnt s id
  if id = 0 ∨ powered s .sig 0 = false then s
  else if !mayPublish s m id then sigConflict s id
  else if e.typ = 2 then
    if hi then publish s id (v ++ (slotOf s id).lowPart.getD 0) (devTime s.now)
    else setSlot s id { slotOf s id with lowPart := some v }
  else if hi then s
  else publish s id (typed e.typ 0 v 0) (devTime s.now)

/-- A write into the process image: only the value words publish. -/
def piWrite (s : State) (m : Master) (a : Nat) (v : Word) : State :=
  match a % 64 / 4 * 4 with
  | 0x00 => pubWrite s m (piId a) false v
  | 0x04 => pubWrite s m (piId a) true v
  | _ => s

/-! ## The signal table -/

/-- A word of the signal table (R14, Table 1-6). -/
def sigTableRead (s : State) (a : Nat) : Word :=
  let e := sigEnt s ((a - 0x50400000) / 16 % 65536)
  match a % 16 / 4 with
  | 0 => e.w0
  | 1 => e.w1
  | 2 => e.w2
  | _ => e.w3

/-! ## Ranges without pages -/

/-- Read a word at an address outside the pages and the flash windows. -/
def rangeRead (s : State) (a : Nat) : State × Word :=
  match regionOf a with
  | .image => piRead s a
  | .sigTable => (s, sigTableRead s a)
  | _ => (s, mem32 s (a / 4 * 4))

/-- Write a word at an address outside the pages and the flash windows; direct writes of the signal table are discarded
(R16). -/
def rangeWrite (s : State) (m : Master) (a : Nat) (v : Word) : State :=
  match regionOf a with
  | .image => piWrite s m a v
  | .sigTable => s
  | .pricking => prkWrite s a v
  | _ => putMem32 s (a / 4 * 4) v

/-- `n` words read from an address on, in ascending order. -/
def rangeWords (s : State) (a : Nat) : Nat → State × List Word
  | 0 => (s, [])
  | n + 1 =>
    let r := rangeRead s a
    let q := rangeWords r.1 (a + 4) n
    (q.1, r.2 :: q.2)

/-- Words written from an address on, in ascending order. -/
def rangeStore (s : State) (m : Master) (a : Nat) : List Word → State
  | [] => s
  | w :: l => rangeStore (rangeWrite s m a w) m (a + 4) l

/-- Bytes as words, least significant first (R7). -/
def toWords : List Nat → List Word
  | b0 :: b1 :: b2 :: b3 :: l => ofN (b0 + 256 * b1 + 65536 * b2 + 16777216 * b3) :: toWords l
  | _ => []

/-- Words as bytes. -/
def toBytes (l : List Word) : List Nat := l.flatMap wordBytes

end Sys2Proof.Machine
end

