-- ==== Sys2Proof/Machine/Msp.lean ====
section
/-! DEFINITION. The memory serial ports (R439 to R441, R498): the cached flash windows and indirect operations. -/
namespace Sys2Proof.Machine

/-- What a memory serial port holds besides its registers. -/
def mspOf (s : State) (p : Nat) : MspSt := SMap.get (fun _ => MspSt.reset) s.msps p

/-- The same, replaced. -/
def setMsp (s : State) (p : Nat) (x : MspSt) : State := { s with msps := SMap.set (fun _ => MspSt.reset) s.msps p x }

/-- The system address of a byte of a port's window. -/
def xipBase (p : Nat) : Nat := 0x20000000 + 0x10000000 * p

/-! ## The cache (R440): 64 sets of four 64-byte lines -/

/-- The lines of the set of a line. -/
def cacheSet (x : MspSt) (l : Nat) : List (Nat × List Nat) := x.lines.filter (fun (e : Nat × List Nat) => e.1 % 64 == l % 64)

/-- A line put into the cache; where its set is full, one of the set leaves: the spec names none, so a free one. -/
def cachePut (s : State) (p l : Nat) (b : List Nat) : State :=
  let x := mspOf s p
  if x.lines.any (fun (e : Nat × List Nat) => e.1 == l) then s
  else
    let set := cacheSet x l
    if set.length < 4 then setMsp s p { x with lines := (l, b) :: x.lines }
    else
      let out := (set.getD ((Config.free32 s.seed).toNat % 4) (0, [])).1
      setMsp s.next p { x with lines := (l, b) :: x.lines.filter (fun (e : Nat × List Nat) => e.1 != out) }

/-- A word of a line. -/
def lineWord (b : List Nat) (off : Nat) : Word :=
  let i := off / 4 * 4
  ofN (b.getD i 0 % 256 + 256 * (b.getD (i + 1) 0 % 256) + 65536 * (b.getD (i + 2) 0 % 256) + 16777216 * (b.getD (i + 3) 0 % 256))

/-- A window read ends with an error response (R27). -/
def xipError (s : State) (p : Nat) (m : Master) (off : Nat) : State :=
  { fabError s m (xipBase p + off) 1 false with resp := ⟨0, 0, .denied⟩ }

/-- A miss fetches its line, and behind its predecessor the next PREFETCH lines too (R440). -/
def xipFetch (s : State) (p l : Nat) (fetch : List (List Nat)) : State :=
  let x := mspOf s p
  let n := if 0 < l && x.last == some (l - 1) then 1 + rf s .msp p Reg.MSP.CFG 2 3 else 1
  let n1 := min n (4194304 - l)
  let s1 := (List.range n1).foldl (fun s i => cachePut s p (l + i) (fetch.getD i [])) s
  let s2 := setMsp s1 p { mspOf s1 p with last := some l }
  if rb s .msp p Reg.MSP.CFG 1 then wb s2 .msp p Reg.MSP.STAT 0 true else s2

/-- A read in the window of a port (R440, R441). `fetch`: the bytes of the line and of those after it, as the flash returns
them, where the read misses. -/
def xipRead (s0 : State) (p : Nat) (m : Master) (off : Nat) (fetch : List (List Nat)) (ecc : List (Bool × Nat)) : State :=
  let s := eccAll s0 ecc
  let l := off / 64
  let st := stOf s .msp p
  if st == .off then xipError s p m off
  else
    match (mspOf s p).lines.find? (fun (e : Nat × List Nat) => e.1 == l) with
    | some e => { incWrap (setMsp s p { mspOf s p with last := some l }) .msp p Reg.MSP.HIT_CNT with resp := ⟨lineWord e.2 (off % 64), 0, .ok⟩ }
    | none =>
      let s1 := incWrap s .msp p Reg.MSP.MISS_CNT
      if st == .update then setInt (incSat (xipError s1 p m off) .msp p Reg.MSP.BLOCK_CNT) .msp p 1
      else { xipFetch s1 p l fetch with resp := ⟨lineWord (fetch.getD 0 []) (off % 64), 0, .ok⟩ }

/-! ## Indirect operations (R441, R498) -/

/-- Whether a flash address of a port lies in a locked range (R498): PORT [31], START [27:16] and LEN [11:0] in 64 KiB. -/
def flashLocked (s : State) (p a : Nat) : Bool :=
  (List.range 4).any (fun i =>
    let w := rg s .sec 0 (Reg.SEC.FLASH_LOCK + 4 * i)
    b2n (bit w 31) == p && 65536 * fld w 16 12 ≤ a && a < 65536 * (fld w 16 12 + fld w 0 12))

/-- The life-cycle state (R491). -/
def lifeCycle (s : State) : Nat := rf s .sec 0 Reg.SEC.STAT 0 3

/-- SECURED. -/
def secured (s : State) : Bool := lifeCycle s == 3

/-- What an MSP page says of its commands. -/
def mspRule (s : State) (p code : Nat) (m : Master) : Option CmdRule :=
  match code with
  | 0x05 => some ⟨false, true, none⟩
  | 0x07 => some ⟨false, true, firstOf [(!(s.page (pk .msp p)).busy, .wrongState)]⟩
  | 0x10 => some ⟨false, true, firstOf [(stOf s .msp p != .run, .wrongState),
      (secured s && (!(m.isAp || m = .sc) || flashLocked s p (rg s .msp p Reg.MSP.IND_ADDR).toNat), .lifecycle)]⟩
  | _ => none

/-- An indirect operation ends: the page returns to RUN. -/
def indirectEnd (s : State) (p : Nat) : State := wb (setSt s .msp p .run) .msp p Reg.MSP.STAT 1 false

/-- INDIRECT leaves command-less mode, sends the command and polls; ABORT ends it. -/
def mspAct (s : State) (p code : Nat) : State :=
  match code with
  | 0x07 => indirectEnd (opFail s .msp p .wrongState 0x010) p
  | 0x10 =>
    let s1 := wb (wb (setSt s .msp p .update) .msp p Reg.MSP.STAT 0 false) .msp p Reg.MSP.STAT 1 true
    opStart (setMsp s1 p { mspOf s1 p with since := s.lap s.now }) .msp p 0 1 0
  | _ => s

/-- The flash is no longer busy: a read's bytes stand in IND_DATA (R441). -/
def indirectDone (s : State) (p : Nat) (data : List Nat) : State :=
  if stOf s .msp p == .update then
    let c := rg s .msp p Reg.MSP.IND_CMD
    let n := min (fld c 16 9) 256
    let put (s : State) (i : Nat) : State :=
      wf s .msp p (Reg.MSP.IND_DATA + i / 4 * 4) (8 * (i % 4)) 8 (data.getD i 0)
    let s1 := if bit c 25 then (List.range n).foldl put s else s
    setInt (opDone (indirectEnd s1 p) .msp p) .msp p 0
  else s

/-- The poll exceeds IND_POLL.TMO. -/
def indirectTimeout (s0 : State) (p t : Nat) : State :=
  let s := s0.at t
  let tmo := rf s .msp p Reg.MSP.IND_POLL 16 16
  if stOf s .msp p == .update && tmo != 0 && decide ((mspOf s p).since + 8000000 * tmo ≤ s.lap t) then
    setInt (indirectEnd (opFail s .msp p .wrongState 0x010) p) .msp p 2
  else s

/-- A write of an MSP register: IND_CMD.LEN above 256 is out of range. -/
def mspWrite (s : State) (p off : Nat) (v : Word) : State :=
  if off = Reg.MSP.IND_CMD ∧ 256 < fld v 16 9 then rejWr s .msp p .range off
  else wr s .msp p off (v &&& regMask .msp off)

/-- The tests of a staged MSP set: no change of PROTO while command-less (R450). -/
def mspValidate (s : State) (p : Nat) : List (Bool × Nat × ErrCode) :=
  [(stf s .msp p Reg.MSP.CFG 0 1 != rf s .msp p Reg.MSP.CFG 0 1 && rb s .msp p Reg.MSP.STAT 0, Reg.MSP.CFG, .wrongState)]

/-- After a commit the port leaves command-less mode where CFG no longer asks for it. -/
def mspCommitted (s : State) (p : Nat) : State :=
  if rb s .msp p Reg.MSP.CFG 1 then s else wb s .msp p Reg.MSP.STAT 0 false

/-- EN=0: an operation in progress fails, the select is high. -/
def mspDisabled (s : State) (p : Nat) : State :=
  let s1 := if (s.page (pk .msp p)).busy then opFail s .msp p .wrongState 0x010 else s
  wr (setSt s1 .msp p .off) .msp p Reg.MSP.STAT 0

end Sys2Proof.Machine
end

