-- ==== Sys2Proof/Machine/Verify.lean ====
section
/-! DEFINITION. Image verification and the boot table (R495, R496, Table 19-2). -/
namespace Sys2Proof.Machine

/-- Whether a root slot is provisioned, and whether it also stands. -/
def rootProv (o : OtpSt) (i : Nat) : Bool := o.roots.any (fun (e : Nat × List Nat) => e.1 == i)
def rootGood (o : OtpSt) (i : Nat) : Bool := rootProv o i && !o.revoked.getLsbD i

/-- A key-store slot without a key. -/
def KeySlot.reset : KeySlot := ⟨0, false, []⟩

/-- What a slot of the key store holds. -/
def keyOf (s : State) (i : Nat) : KeySlot := SMap.get (fun _ => KeySlot.reset) s.keys i

/-! ## The header -/

/-- Some bytes of a header, and a little-endian word of it. -/
def hdrBytes (i : FlashImg) (o n : Nat) : List Nat := (i.hdr.drop o).take n
def hdrWord (i : FlashImg) (o : Nat) : Nat := (hdrBytes i o 4).foldr (fun b w => b % 256 + 256 * w) 0

/-- Fields of the header. -/
def imgSecVer (i : FlashImg) : Nat := hdrWord i 0x00C
def imgRootIdx (i : FlashImg) : Nat := hdrWord i 0x024 / 65536 % 256
def imgEnc (i : FlashImg) : Bool := hdrWord i 0x024 % 2 == 1
def imgKeySlot (i : FlashImg) : Nat := hdrWord i 0x024 / 256 % 16
def imgEntry (i : FlashImg) : Nat := hdrWord i 0x018 + 4294967296 * hdrWord i 0x01C

/-! ## Verification (R496) -/

/-- MAGIC, HDR_VER, and KIND, which is that of the entry or loader and none of the reserved codes. -/
def imgHeader (i : FlashImg) (kind : Nat) : Bool :=
  hdrWord i 0 == 0x4B494D47 && hdrWord i 4 == 1 && hdrWord i 8 == kind && decide (1 ≤ kind) && decide (kind ≤ 7)

/-- In OPEN, with SECBOOT=0 and no root provisioned, an image with ROOT 0xFF boots unsigned. -/
def imgUnsigned (s : State) (i : FlashImg) : Bool :=
  lifeCycle s == 2 && !rb s .sec 0 Reg.SEC.CFG 0 && s.otp.roots.isEmpty && imgRootIdx i == 255

/-- The public key is that of a root that is provisioned and not revoked. -/
def imgRoot (s : State) (i : FlashImg) : Bool :=
  decide (imgRootIdx i < 4) && rootGood s.otp (imgRootIdx i) && SMap.get (fun _ => []) s.otp.roots (imgRootIdx i) == (Config.sha384 (hdrBytes i 0x090 96)).toList

/-- The signature over bytes 0x000 to 0x0EF. -/
def imgSigned (i : FlashImg) : Bool := Config.ecdsaOk (hdrBytes i 0x090 96) (Config.sha384 (hdrBytes i 0 0x0F0)).toList (hdrBytes i 0x0F0 96)

/-- The body as stored has its length and its hash. -/
def imgBody (i : FlashImg) : Bool := i.body.length == hdrWord i 0x020 && (Config.sha384 i.body).toList == hdrBytes i 0x060 48

/-- SEC_VER, 0 to 127, is not below MIN_VER of the kind. -/
def imgVersion (s : State) (i : FlashImg) (kind : Nat) : Bool :=
  decide (imgSecVer i ≤ 127) && decide (SMap.get (fun _ => 0) s.otp.minVer kind ≤ imgSecVer i)

/-- The body as it runs: with ENC=1 it is decrypted under a slot for images, while the key store is not lost (R502). -/
def imgOpen (s : State) (i : FlashImg) : Option (List Nat) :=
  let k := keyOf s (imgKeySlot i)
  if !imgEnc i then some i.body
  else if rb s .sec 0 Reg.SEC.STAT 12 || k.use != 1 then none
  else Config.gcmOpen k.value (hdrBytes i 0x028 12) (hdrBytes i 0 0x0F0) i.body (hdrBytes i 0x034 16)

/-- An image verified for a kind: its body as it runs, or none where a step fails (R496). -/
def imgVerify (s : State) (kind : Nat) (i : FlashImg) : Option (List Nat) :=
  if imgHeader i kind && (imgUnsigned s i || (imgRoot s i && imgSigned i)) && imgBody i && imgVersion s i kind then imgOpen s i else none

/-! ## The boot table (R495) -/

/-- The entries of a kind, the higher generation first, A before B where they are equal. -/
def bootOrder (l : List BootEntry) (kind : Nat) : List BootEntry :=
  match l.filter (fun e => e.kind.val == kind) with
  | [a, b] => if a.gen < b.gen || (a.gen == b.gen && a.entryB && !b.entryB) then [b, a] else [a, b]
  | m => m

/-- The entry of a kind that boots, with its body and whether it stands behind one that failed. -/
def bootPick (s : State) (l : List BootEntry) (kind : Nat) : Option (BootEntry × List Nat × Bool) :=
  match bootOrder l kind with
  | [] => none
  | e :: m =>
    match imgVerify s kind e.img with
    | some d => some (e, d, false)
    | none => (m.findSome? (fun x => (imgVerify s kind x.img).map (fun d => (x, d)))).map (fun x => (x.1, x.2, true))

/-- The port whose boot table is used, and its entries: `MSP[1]`'s when `MSP[0]` has no valid table. -/
def bootTable (b : BootRes) : Nat × List BootEntry :=
  match b.tab0, b.tab1 with
  | some l, _ => (0, l)
  | none, some l => (1, l)
  | none, none => (0, [])

/-- The kinds of Table 19-2. -/
def bootKinds : List Nat := [1, 2, 3, 4, 5, 6, 7]

/-- What the boot settles from what it finds in the flash. -/
def bootFind (s : State) (b : BootRes) : BootEnd :=
  let t := bootTable b
  let pick := bootPick s t.2
  { src := match pick 2 with
      | some x => 2 * t.1 + b2n x.1.entryB
      | none => 0
    fail := bootKinds.foldl (fun (w : BitVec 8) k => if (pick k).isNone then w ||| (1#8 <<< k) else w) 0
    fallback := bootKinds.any (fun k => (pick k).any (fun x => x.2.2))
    cfg := (pick 3).map (fun x => (toWords x.2.1).take 16)
    vers := bootKinds.filterMap (fun k => (pick k).map (fun x => (k, imgSecVer x.1.img)))
    entry := match pick 2 with
      | some x => imgEntry x.1.img
      | none => 0 }

end Sys2Proof.Machine
end

