-- ==== Sys2Proof/Machine/Wide.lean ====
section
/-! DEFINITION. Wide values (R60, R61): which words the read of a low word latches, and how a pair of RW words is written. -/
namespace Sys2Proof.Machine

/-- The low words of the two-word values of a page type that stand alone: the read of the low word latches the next word. -/
def wideLows (t : PgTy) : List Nat :=
  match t with
  | .sec => [Reg.SEC.SRC_LO]
  | .tamp => [Reg.TAMP.VBAT_TIME_LO]
  | .flt => [Reg.FLT.SRC_ACTIVE_LO]
  | .time => [Reg.TIME.STEP_VAL_LO, Reg.TIME.NOW_LO, Reg.TIME.STEP_LAST_LO]
  | .fab => [Reg.FAB.UE_ADDR_LO]
  | .mem => [Reg.MEM.CE_ADDR_LO, Reg.MEM.UE_ADDR_LO]
  | .enc => [Reg.ENC.PRESET_LO, Reg.ENC.EDGE_TS_LO, Reg.ENC.SHIFT_LO]
  | .ssn => [Reg.SSN.RAW_LO, Reg.SSN.LATCH_TS_LO]
  | .axis =>
    [Reg.AXIS.VMAX_LO, Reg.AXIS.AMAX_LO, Reg.AXIS.DMAX_LO, Reg.AXIS.JMAX_LO, Reg.AXIS.QDEC_LO, Reg.AXIS.SWLIM_POS_LO, Reg.AXIS.SWLIM_NEG_LO,
     Reg.AXIS.TARGET_LO, Reg.AXIS.VTARGET_LO, Reg.AXIS.CAM_START_LO, Reg.AXIS.HOME_OFS_LO, Reg.AXIS.REMAIN_LO, Reg.AXIS.TARGET_ACT_LO,
     Reg.AXIS.SP_LAG_LO, Reg.AXIS.LATCH_LO, Reg.AXIS.HOME_REF_LO, Reg.AXIS.SYNC_OFS_LO]
  | .pcmp =>
    [Reg.PCMP.ENTRY_POS_LO, Reg.PCMP.ENTRY_INC_LO, Reg.PCMP.WIN_START_LO, Reg.PCMP.WIN_LEN_LO, Reg.PCMP.WIN_PITCH_LO,
     Reg.PCMP.MARK_EXPECT_LO, Reg.PCMP.HEAD_POS_LO, Reg.PCMP.FIRE_TS_LO, Reg.PCMP.MARK_POS_LO, Reg.PCMP.MARK_DEV_LO]
  | .lc => [Reg.LC.IMG_LO]
  | .lsch => [Reg.LSCH.STITCH_IMG_LO]
  | .cslot => [Reg.CSLOT.REP_ORIGIN_LO]
  | .pwm => [Reg.PWM.ZERO_TS_LO]
  | .fin => [Reg.FIN.TRIP_TS_LO]
  | .le => [Reg.LE.LOAD_SRC_LO]
  | .rseq => [Reg.RSEQ.LOAD_SRC_LO]
  | .frc => [Reg.FRC.ENTRY_VAL_LO]
  | .sig => [Reg.SIG.LOAD_SRC_LO]
  | .acq => [Reg.ACQ.LAST_REC_LO, Reg.ACQ.TRIG_TIME_LO]
  | .recStore =>
    [Reg.REC.EXP_FROM_LO, Reg.REC.EXP_TO_LO, Reg.REC.EXP_DST_LO, Reg.REC.WRAP_CNT_LO, Reg.REC.HIST_OLDEST_LO, Reg.REC.EXP_LEN_LO]
  | .eth => [Reg.ETH.MAC_LO, Reg.ETH.TXR_LO, Reg.ETH.RXR_LO]
  | .pcie => (List.range 16).map (fun c => Reg.PCIE.CH_RING_LO + 32 * c)
  | .apc => [Reg.APC.AP0_BOOT_LO, Reg.APC.AP1_BOOT_LO]
  | _ => []

/-- The words that a read latches together where a chapter makes a group of them (R32, R91, R141, R166, R282, R415; SSN
as ENC), or where a wide value's words do not stand side by side. -/
def groupLatch (t : PgTy) (off : Nat) : List Nat :=
  match t, off with
  | .enc, 0x080 => [0x084, 0x088, 0x08C, 0x090, 0x094]
  | .enc, 0x0A0 => [0x0A4, 0x0A8, 0x0AC]
  | .enc, 0x0B8 => [0x0BC, 0x0C0, 0x0C4]
  | .ssn, 0x080 => [0x084, 0x088, 0x08C, 0x090, 0x094]
  | .axis, 0x100 => [0x104, 0x108, 0x10C, 0x110, 0x114, 0x118, 0x11C, 0x120]
  | .step, 0x084 => [0x088, 0x08C]
  | .fab, 0x08C => [0x090, 0x094, 0x098, 0x09C]
  | .flt, 0xC2C => [0xC30, 0xC34, 0xC38, 0xC3C]
  | .tamp, 0x08C => [0x090]
  | .fch, 0x080 => [0x084, 0x088, 0x08C, 0x094]
  | .frc, _ => if Reg.FRC.ENT_LO ≤ off && off < Reg.FRC.ENT_HI then [off + 0x400] else []
  | _, _ => []

/-- The words that the read of an offset latches. -/
def latchedBy (t : PgTy) (off : Nat) : List Nat :=
  match groupLatch t off with
  | [] => if (wideLows t).contains off then [off + 4] else []
  | l => l

/-- The first words of the groups of a page type. -/
def groupHeads (t : PgTy) : List Nat :=
  match t with
  | .enc => [0x080, 0x0A0, 0x0B8]
  | .ssn => [0x080]
  | .axis => [0x100]
  | .step => [0x084]
  | .fab => [0x08C]
  | .flt => [0xC2C]
  | .tamp => [0x08C]
  | .fch => [0x080]
  | _ => []

/-- Whether a word reads from its snapshot: a word that some read latches, or one that a queue read or the object window of CAN
latches (R154, R459). -/
def fromSnap (t : PgTy) (off : Nat) : Bool :=
  (groupHeads t).any (fun h => (groupLatch t h).contains off) || (4 ≤ off && (wideLows t).contains (off - 4)) ||
    match t with
    | .pcmp => [Reg.PCMP.LATCH_POS_HI, Reg.PCMP.LATCH_TS_LO, Reg.PCMP.LATCH_TS_HI].contains off
    | .can => Reg.CAN.OBJ_TS_LO ≤ off && off ≤ Reg.CAN.OBJ_INFO
    | .frc => Reg.FRC.ENT_HI ≤ off
    | _ => false

/-- The low words of the two-word values that are RW and apply at the write of the high word (R61). -/
def rwLows (t : PgTy) : List Nat :=
  match t with
  | .sec => [Reg.SEC.SRC_LO]
  | .time => [Reg.TIME.STEP_VAL_LO]
  | .le => [Reg.LE.LOAD_SRC_LO]
  | .rseq => [Reg.RSEQ.LOAD_SRC_LO]
  | .sig => [Reg.SIG.LOAD_SRC_LO]
  | .recStore => [Reg.REC.EXP_FROM_LO, Reg.REC.EXP_TO_LO, Reg.REC.EXP_DST_LO]
  | .eth => [Reg.ETH.TXR_LO, Reg.ETH.RXR_LO]
  | .pcie => (List.range 16).map (fun c => Reg.PCIE.CH_RING_LO + 32 * c)
  | _ => []

/-- The low word last written of a wide RW value; before one, the low word in force. -/
def lowWord (s : State) (t : PgTy) (n off : Nat) : Word :=
  SMap.get (fun _ => rg s t n off) (s.page (pk t n)).wlow off

/-- The low word of a wide RW value is written: it waits for its high word. -/
def putLow (s : State) (t : PgTy) (n off : Nat) (v : Word) : State :=
  s.modPage (pk t n) (fun p => { p with wlow := SMap.insert (SMap.erase p.wlow off) off v })

/-- A live register takes a written word: the words of a wide value together, at the write of the high one (R61). -/
def rwStore (s : State) (t : PgTy) (n off : Nat) (v : Word) : State :=
  let w := v &&& regMask t off
  if (rwLows t).contains off then putLow s t n off w
  else if 4 ≤ off ∧ (rwLows t).contains (off - 4) = true then wr (wr s t n (off - 4) (lowWord s t n (off - 4))) t n off w
  else wr s t n off w

end Sys2Proof.Machine
end

