-- ==== Sys2Proof/Machine/Sec.lean ====
section
/-! DEFINITION. Life cycle, key store, debug access and tamper log (R491 to R506): SEC, TAMP and DBG. -/
namespace Sys2Proof.Machine

/-! ## OTP as SEC shows it -/

/-- ROOT_STAT and MIN_VER follow the OTP; ROOT_ACT stays. -/
def otpShow (s : State) : State :=
  let o := s.otp
  let prov := [0, 1, 2, 3].foldl (fun w i => if rootProv o i then w + 2 ^ i else w) 0
  let s1 := wf (wf s .sec 0 Reg.SEC.ROOT_STAT 0 4 prov) .sec 0 Reg.SEC.ROOT_STAT 8 4 o.revoked.toNat
  let s2 := wb s1 .sec 0 Reg.SEC.ROOT_STAT 16 (o.dbgKey != [])
  [1, 2, 3, 4, 5, 6, 7].foldl (fun s k => wr s .sec 0 (Reg.SEC.MIN_VER - 4 + 4 * k) (ofN (SMap.get (fun _ => 0) o.minVer k))) s2

/-- KEY_STAT follows the key store. -/
def keyShow (s : State) : State :=
  let w := s.keys.foldl (fun w (e : Nat × KeySlot) => w + 2 ^ e.1 + (if e.2.lock then 2 ^ (16 + e.1) else 0)) 0
  wr s .sec 0 Reg.SEC.KEY_STAT (ofN w)

/-- Words of SEC or DBG as bytes. -/
def regBytes (s : State) (t : PgTy) (off n : Nat) : List Nat :=
  (List.range n).flatMap (fun i => wordBytes (rg s t 0 (off + 4 * i)))

/-- The key store zeroised (R503). -/
def keysErase (s : State) : State := keyShow { s with keys := [] }

/-! ## LC_ADVANCE (R492 to R494) -/

/-- Whether TOKEN names this part: MAGIC and SEC.ID. -/
def tokenNames (s : State) : Bool :=
  rg s .sec 0 Reg.SEC.TOKEN == 0x52544E01 &&
    [0, 1, 2, 3].all (fun i => rg s .sec 0 (Reg.SEC.TOKEN + 4 + 4 * i) == rg s .sec 0 (Reg.SEC.ID + 4 * i))

/-- Whether TOKEN is signed under an unrevoked root. -/
def tokenSigned (s : State) : Bool :=
  let key := regBytes s .sec (Reg.SEC.TOKEN + 20) 24
  let h := (Config.sha384 key).toList
  s.otp.roots.any (fun (e : Nat × List Nat) => rootGood s.otp e.1 && e.2 == h) &&
    Config.ecdsaOk key (Config.sha384 (regBytes s .sec Reg.SEC.TOKEN 29)).toList (regBytes s .sec (Reg.SEC.TOKEN + 116) 24)

/-- Whether a return token is good; in OPEN with no root provisioned no signature is checked. -/
def returnToken (s : State) : Bool := tokenNames s && ((lifeCycle s == 2 && s.otp.roots.isEmpty) || tokenSigned s)

/-- Whether a transition is one of Table 19-1. -/
def lcPair (a b : Nat) : Bool :=
  (a == 1 && (b == 2 || b == 5)) || (a == 2 && (b == 3 || b == 4 || b == 5)) || (a == 3 && (b == 4 || b == 5)) || (a == 4 && b == 5)

/-- The target of LC_ADVANCE. -/
def lcTarget (s : State) : Nat := rf s .sec 0 Reg.SEC.TRANSITION 0 3

/-- What PHASE 1 of LC_ADVANCE finds wrong with the token. -/
def tokenErr (s : State) : Option ErrCode :=
  let a := lifeCycle s
  let b := lcTarget s
  if a = 1 ∧ b = 2 then if Config.vendorToken (regBytes s .sec Reg.SEC.TOKEN 64) then none else some .lifecycle
  else if b = 4 ∨ (a = 3 ∧ b = 5) then if returnToken s then none else some .crcMismatch
  else none

/-- The erasure of a RETURN transition (R494). -/
def returnErase (s : State) : State := otpShow { keysErase s with otp := { s.otp with revoked := 0xF, dbgKey := [] } }

/-- LC_ADVANCE: token and conditions, the erasure, the burn; the new state applies at the next power-on reset. -/
def lcAdvance (s : State) : State :=
  let s1 := opStart s .sec 0 1 1 0
  match tokenErr s with
  | some c => opFail s1 .sec 0 c 0x010
  | none =>
    let b := lcTarget s
    let s2 := if b = 4 then returnErase s1 else s1
    let s3 : State := { s2 with otp := { s2.otp with lc := b } }
    setInt (opDone (wf s3 .sec 0 Reg.SEC.STAT 4 3 b) .sec 0) .sec 0 0

/-! ## Keys and roots (R497, R502, R503, R506) -/

/-- The slot KEY_IDX names. -/
def keyIdx (s : State) : Nat := rf s .sec 0 Reg.SEC.KEY_IDX 0 4

/-- The value KEY_LOAD would load: from KEY_DATA in OPEN, from a verified key bundle in SECURED. -/
def keyValue (s : State) : Option (List Nat) :=
  if lifeCycle s = 2 then some (regBytes s .sec Reg.SEC.KEY_DATA 8)
  else
    let a := rgU64 s .sec 0 Reg.SEC.SRC_LO
    (imgVerify s 7 ⟨memBytes s a 512, memBytes s (a + 512) (mem32 s (a + 0x20)).toNat⟩).map
      (fun d => Config.bundleKey (keyOf s 0).value d (keyIdx s))

/-- KEY_LOAD fills a slot. -/
def keyLoad (s : State) : State :=
  match keyValue s with
  | none => rejCmd s .sec 0 .crcMismatch
  | some v =>
    let k : KeySlot := ⟨rf s .sec 0 Reg.SEC.KEY_ATTR 0 2, rb s .sec 0 Reg.SEC.KEY_ATTR 4, v⟩
    setInt (keyShow { s with keys := SMap.set (fun _ => KeySlot.reset) s.keys (keyIdx s) k }) .sec 0 1

/-- An erasure with its phases: done when read back. -/
def keyErased (s : State) : State := setInt (opDone (opStart (keyShow s) .sec 0 1 1 0) .sec 0) .sec 0 1

/-- ROLLBACK_SET raises MIN_VER to the version that runs, never lowers it. -/
def rollbackSet (s : State) : State :=
  let k := rf s .sec 0 Reg.SEC.KIND_SEL 0 8
  let v := max (SMap.get (fun _ => 0) s.otp.minVer k) (SMap.get (fun _ => 0) s.runVer k)
  otpShow { s with otp := { s.otp with minVer := SMap.set (fun _ => 0) s.otp.minVer k v } }

/-- The slot PROV_SEL names: 0 to 3 roots, 4 the debug key. -/
def provSel (s : State) : Nat := rf s .sec 0 Reg.SEC.PROV_SEL 0 3

/-- Whether ROOT_REVOKE would take the last root that stands. -/
def lastRoot (s : State) : Bool := rootGood s.otp (provSel s) && ([0, 1, 2, 3].filter (rootGood s.otp)).length == 1

/-- ROOT_REVOKE. -/
def rootRevoke (s : State) : State := otpShow { s with otp := { s.otp with revoked := s.otp.revoked ||| (1#4 <<< provSel s) } }

/-- What a slot holds once a hash is burnt into it: of one burnt before, the spec states no result. -/
def burn (s : State) (old new : List Nat) : List Nat :=
  if old = [] then new else (List.range 48).map (fun i => (Config.free32 (s.seed + i)).toNat % 256)

/-- PROVISION burns the hash in TOKEN. -/
def provision (s : State) : State :=
  let h := regBytes s .sec Reg.SEC.TOKEN 12
  let i := provSel s
  let o := s.otp
  let o1 : OtpSt := if i = 4 then { o with dbgKey := burn s o.dbgKey h }
    else { o with roots := SMap.set (fun _ => []) o.roots i (burn s (SMap.get (fun _ => []) o.roots i) h) }
  otpShow { s with otp := o1, seed := s.seed + 48 }

/-- DERIVE. -/
def derive (s : State) : State :=
  let d := Config.hkdf (keyOf s (keyIdx s)).value (rg s .sec 0 Reg.SEC.DERIVE_LABEL)
  (List.range 8).foldl (fun s j =>
    wr s .sec 0 (Reg.SEC.DERIVED + 4 * j) (ofN ((List.range 4).foldl (fun v i => v + (d.getD (4 * j + i) 0 % 256) * 256 ^ i) 0))) s

/-- Whether a command or write from outside is refused in SECURED (R506): TOKEN and LC_ADVANCE to RETURN are not (R493). -/
def secRefuses (s : State) (m : Master) : Bool := secured s && m.isHost

/-- What SEC says of its commands. -/
def secRule (s : State) (code : Nat) (m : Master) : Option CmdRule :=
  let busy := (s.page (pk .sec 0)).busy
  let host := secRefuses s m
  let lc := lifeCycle s
  let a (l : List (Bool × ErrCode)) : Option CmdRule := some ⟨false, true, firstOf ([(busy, .wrongState)] ++ l)⟩
  match code with
  | 0x05 => some ⟨false, true, firstOf [(host, .lifecycle)]⟩
  | 0x10 => a [(rf s .sec 0 Reg.SEC.STAT 4 3 != 0 || (lc == 2 && lcTarget s == 3 && s.otp.roots.isEmpty), .wrongState),
      (!lcPair lc (lcTarget s) || (host && lcTarget s != 4), .lifecycle)]
  | 0x11 => a [(rf s .sec 0 Reg.SEC.KEY_ATTR 0 2 % 3 == 0, .range), (host || (lc != 2 && lc != 3) || (keyOf s (keyIdx s)).lock, .lifecycle)]
  | 0x12 => a [(host, .lifecycle)]
  | 0x13 => a [(host, .lifecycle)]
  | 0x14 => a [(rf s .sec 0 Reg.SEC.KIND_SEL 0 8 == 0 || 7 < rf s .sec 0 Reg.SEC.KIND_SEL 0 8, .range), (host, .lifecycle)]
  | 0x15 => a [(lastRoot s, .wrongState), (4 ≤ provSel s, .range), (host, .lifecycle)]
  | 0x16 => a [((keyOf s (keyIdx s)).use != 2, .wrongState), (host, .lifecycle)]
  | 0x17 => a [(5 ≤ provSel s, .range), (host || lc != 2, .lifecycle)]
  | _ => none

/-- The effect of a SEC command. -/
def secAct (s : State) (code : Nat) : State :=
  match code with
  | 0x10 => lcAdvance s
  | 0x11 => keyLoad s
  | 0x12 => keyErased { s with keys := SMap.erase s.keys (keyIdx s) }
  | 0x13 => keyErased { s with keys := [] }
  | 0x14 => rollbackSet s
  | 0x15 => rootRevoke s
  | 0x16 => derive s
  | 0x17 => provision s
  | _ => s

/-- A write of a SEC register: reserved codes are out of range, KEY_DATA counts in OPEN only. -/
def secWrite (s : State) (m : Master) (off : Nat) (v : Word) : State :=
  if secRefuses s m && !(Reg.SEC.TOKEN ≤ off && off < Reg.SEC.TOKEN + 256) then rejWr s .sec 0 .lifecycle off
  else if (off = Reg.SEC.PROV_SEL ∧ 5 ≤ fld v 0 3) ∨ (off = Reg.SEC.KEY_ATTR ∧ fld v 0 2 % 3 = 0) then rejWr s .sec 0 .range off
  else if Reg.SEC.KEY_DATA ≤ off ∧ off < Reg.SEC.KEY_DATA + 32 ∧ lifeCycle s ≠ 2 then s
  else rwStore s .sec 0 off v

/-- DERIVED reads 0 to every master but the application cores (R503). -/
def derivedRead (s : State) (m : Master) (off : Nat) : Word := if m.isAp then rg s .sec 0 off else 0

/-- SECBOOT reads 1 in SECURED. -/
def secCommitted (s : State) : State := if secured s then wb s .sec 0 Reg.SEC.CFG 0 true else s

/-! ## DBG (R500, R501) -/

/-- The session ends. -/
def endSession (s : State) : State := wf (wf s .dbg 0 Reg.DBG.STAT 0 6 0) .dbg 0 Reg.DBG.STAT 8 2 0

/-- FAILS, and whether its lock-out still runs. -/
def dbgFails (s : State) : Nat := rf s .dbg 0 Reg.DBG.STAT 16 8
def lockedOut (s : State) : Bool :=
  dbgFails s != 0 && decide (s.lap s.now < s.failAt + perS * min 1024 (2 ^ (dbgFails s - 1)))

/-- CHALLENGE replaced. -/
def putChallenge (s : State) (f : Nat → Word) : State :=
  (List.range 8).foldl (fun s i => wr s .dbg 0 (Reg.DBG.CHALLENGE + 4 * i) (f i)) s

/-- NEW_CHALLENGE: 32 random bytes. -/
def newChallenge (s : State) : State := putChallenge { s with seed := s.seed + 8 } (fun i => Config.free32 (s.seed + i))

/-- The hash of the key that opens a session in the present state. -/
def dbgHash (s : State) : List Nat := if lifeCycle s = 3 then s.otp.dbgKey else if lifeCycle s = 4 then Config.vendorHash 0 else []

/-- Whether RESP answers the challenge. -/
def unlockOk (s : State) : Bool :=
  let key := regBytes s .dbg Reg.DBG.RESP 24
  (List.range 8).any (fun i => rg s .dbg 0 (Reg.DBG.CHALLENGE + 4 * i) != 0) && dbgHash s != [] && (Config.sha384 key).toList == dbgHash s &&
    Config.ecdsaOk key (Config.sha384 (regBytes s .dbg Reg.DBG.CHALLENGE 8 ++ regBytes s .sec Reg.SEC.ID 4 ++ regBytes s .dbg Reg.DBG.REQ 1)).toList
      (regBytes s .dbg (Reg.DBG.RESP + 96) 24)

/-- UNLOCK opens a session or counts a failure; the challenge is consumed. -/
def unlock (s : State) : State :=
  let s1 := putChallenge s (fun _ => 0)
  if unlockOk s then
    let s2 := wf (wf s1 .dbg 0 Reg.DBG.STAT 0 6 (rf s .dbg 0 Reg.DBG.REQ 0 6)) .dbg 0 Reg.DBG.STAT 8 2 (1 + 2 * b2n (lifeCycle s == 4))
    setInt s2 .dbg 0 0
  else
    let s2 := wf { s1 with failAt := s.lap s.now } .dbg 0 Reg.DBG.STAT 16 8 (min 255 (dbgFails s + 1))
    setInt (rejCmd s2 .dbg 0 .crcMismatch) .dbg 0 1

/-- What DBG says of its commands. -/
def dbgRule (s : State) (code : Nat) (m : Master) : Option CmdRule :=
  let host := secRefuses s m
  match code with
  | 0x05 => some ⟨false, true, firstOf [(host, .lifecycle)]⟩
  | 0x10 => some ⟨false, true, firstOf [(lockedOut s, .wrongState), (host, .lifecycle)]⟩
  | 0x11 => some ⟨false, true, firstOf [(host, .lifecycle)]⟩
  | 0x12 => some ⟨false, true, firstOf [(host, .lifecycle)]⟩
  | _ => none

/-- The effect of a DBG command. -/
def dbgAct (s : State) (code : Nat) : State :=
  match code with
  | 0x10 => newChallenge s
  | 0x11 => unlock s
  | 0x12 => endSession s
  | _ => s

/-- A write of a DBG register. -/
def dbgWrite (s : State) (m : Master) (off : Nat) (v : Word) : State :=
  if secRefuses s m then rejWr s .dbg 0 .lifecycle off else wr s .dbg 0 off (v &&& regMask .dbg off)

/-- Whether the life-cycle state lets an engine be halted for debug (Table 19-3). -/
def dbgOpen (s : State) (e : Engine) : Bool :=
  let i := match e with
    | .lc _ => 0
    | .ce _ => 1
    | .le _ => 2
    | .ap _ => 3
  match lifeCycle s with
  | 1 => true
  | 2 => true
  | 5 => false
  | _ => rb s .dbg 0 Reg.DBG.STAT 8 && rb s .dbg 0 Reg.DBG.STAT i

/-- The instruction a boundary-scan instruction decodes as (R499, Table 19-3). -/
def jtagDecode (s : State) (i : JtagInstr) : JtagInstr :=
  let scan := rb s .dbg 0 Reg.DBG.STAT 8 && rb s .dbg 0 Reg.DBG.STAT 5
  let basic := i = .idcode ∨ i = .bypass
  match lifeCycle s with
  | 1 => i
  | 2 => i
  | 5 => if basic then i else .bypass
  | _ => if basic ∨ i = .samplePreload ∨ scan = true then i else .bypass

/-! ## TAMP (R504, R505) -/

/-- VBAT_TIME: a 32.768 kHz count. -/
def vbatTime (s : State) : Nat := s.vbatBase + s.lap s.now * 32768 / perS

/-- VBAT_TIME and LOG_COUNT as they read. -/
def tampShow (s : State) : State :=
  wr (wr64 s .tamp 0 Reg.TAMP.VBAT_TIME_LO (vbatTime s)) .tamp 0 Reg.TAMP.LOG_COUNT (ofN s.tampLog.length)

/-- The words of the log entry LOG_IDX selects. -/
def tampW0 (s : State) : Word :=
  match s.tampLog[rf s .tamp 0 Reg.TAMP.LOG_IDX 0 4]? with
  | some e => ofN (e.sensor + 16 * e.level)
  | none => 0
def tampW1 (s : State) : Word :=
  match s.tampLog[rf s .tamp 0 Reg.TAMP.LOG_IDX 0 4]? with
  | some e => ofN e.at_
  | none => 0

/-- The level of a sensor. -/
def tampLevel (s : State) (i : Nat) : Nat := rf s .tamp 0 Reg.TAMP.CFG (2 * i) 2

/-- An alarm enters the log; the oldest of 16 entries gives way. -/
def tampLogPut (s : State) (i : Nat) : State :=
  let e : TampEnt := ⟨i, tampLevel s i, vbatTime s % 4294967296⟩
  { s with tampLog := (if 16 ≤ s.tampLog.length then s.tampLog.drop 1 else s.tampLog) ++ [e] }

/-- What every alarm of a sensor does while the part has power: the log, STAT, the interrupt and TAMP_ALARM. -/
def tampAlarm (s : State) (i : Nat) : State :=
  let s1 := setInt (wb (tampLogPut s i) .tamp 0 Reg.TAMP.STAT i true) .tamp 0 i
  raise (tampShow (if i = 4 then wb s1 .tamp 0 Reg.TAMP.STAT 9 false else s1)) 0x22 .tamp 0 0 i

/-- The key store erased by an alarm. -/
def tampErase (s : State) : State := setInt (incSat (endSession (keysErase s)) .tamp 0 Reg.TAMP.ERASE_CNT) .tamp 0 5

/-- An alarm on VBAT alone can only erase or log. -/
def tampVbat (s : State) (i : Nat) : State :=
  if i < 3 then s
  else
    let s1 := tampLogPut s i
    if tampLevel s i = 3 then incSat (keysErase s1) .tamp 0 Reg.TAMP.ERASE_CNT else s1

/-- The tests of a staged TAMP set: in SECURED no level goes down and no window widens (R504). -/
def tampValidate (s : State) : List (Bool × Nat × ErrCode) :=
  let o (r : Nat) : Word := rg s .tamp 0 r
  let n (r : Nat) : Word := staged s .tamp 0 r
  let vw := Reg.TAMP.VOLT_WIN
  let tl := Reg.TAMP.TEMP_LIM
  [(secured s && [0, 1, 2, 3, 4].any (fun i => fld (n Reg.TAMP.CFG) (2 * i) 2 < fld (o Reg.TAMP.CFG) (2 * i) 2), Reg.TAMP.CFG, .lifecycle),
   (secured s && (fld (n vw) 0 16 < fld (o vw) 0 16 || fld (o vw) 16 16 < fld (n vw) 16 16), vw, .lifecycle),
   (fld (n Reg.TAMP.CLK_WIN) 0 8 == 0, Reg.TAMP.CLK_WIN, .range),
   (secured s && fld (o Reg.TAMP.CLK_WIN) 0 8 < fld (n Reg.TAMP.CLK_WIN) 0 8, Reg.TAMP.CLK_WIN, .lifecycle),
   (secured s && (sext 16 (fld (n tl) 0 16) < sext 16 (fld (o tl) 0 16) || sext 16 (fld (o tl) 16 16) < sext 16 (fld (n tl) 16 16)), tl,
     .lifecycle)]

/-- What TAMP says of its commands: DISCARD only. -/
def tampRule (s : State) (code : Nat) (m : Master) : Option CmdRule :=
  if code = 5 then some ⟨false, true, firstOf [(secRefuses s m, .lifecycle)]⟩ else none

/-- A write of a TAMP register. -/
def tampWrite (s : State) (m : Master) (off : Nat) (v : Word) : State :=
  if secRefuses s m then rejWr s .tamp 0 .lifecycle off else wr s .tamp 0 off (v &&& regMask .tamp off)

/-- VBAT falls below 1.6 V (R513). -/
def vbatLow (s : State) : State := setInt (wb s .tamp 0 Reg.TAMP.STAT 8 false) .tamp 0 6

end Sys2Proof.Machine
end

