-- ==== Sys2Proof/Machine/Debug.lean ====
section
/-! DEFINITION. Debug halt and resume of an engine (R42, R267). -/
namespace Sys2Proof.Machine

/-- Whether an engine stands in a debug halt. -/
def halted (s : State) (e : Engine) : Bool := s.dbgHalt.contains e

/-- Whether an engine is the source of a signal; either application core is of one sourced from APC. -/
def sourcedBy (s : State) (e : Engine) (id : Nat) : Bool :=
  let x := sigEnt s id
  x.en && match e with
    | .lc c => x.from .lc c.val
    | .ce c => x.pageType == PgTy.cslot.code && x.inst / 8 == c.val
    | .le c => x.from .le c.val
    | .ap _ => x.from .apc 0

/-- Whether a slot maps a pair of a module. -/
def slotMaps (s : State) (j m : Nat) : Bool :=
  (csPairs (rg s .cslot j)).any (fun e => e.2.1 == m)

/-- Whether a loop core wrote a LOOP input of a slot last. -/
def loopWrites (s : State) (c k : Nat) : Bool :=
  (List.range 4).any (fun i => rf s .cslot k (Reg.CSLOT.IN_SRC + 4 * i) 0 2 == 0 && SMap.get (fun _ => 18) (cslotOf s k).writer i == c)

/-- Whether an engine controls a page (R42, R267); a logic engine also its own. -/
def controls (s : State) (e : Engine) (t : PgTy) (n : Nat) : Bool :=
  (consumed s t n).any (sourcedBy s e) ||
    match e, t with
    | .lc c, .cslot => loopWrites s c.val n
    | .ce c, .pwm => (List.range 8).any (fun i => slotMaps s (8 * c.val + i) n)
    | .le c, .le => c.val == n
    | _, _ => false

/-- A page enters SAFE by a debug halt. -/
def debugSafe (s : State) (t : PgTy) (n : Nat) : State :=
  match t with
  | .axis => axisReact s n 4
  | .cslot => cslotSafe s n
  | .pwm => pwmSafe s n 6
  | .le => leSafe s n
  | .rseq => rseqSafe s n
  | .psp => pspSafe s n
  | .can => canSafe s n
  | .dio => dioSafe s 2
  | _ => s

/-- The page types a debug halt can drive safe. -/
def debugTypes : List PgTy := [.axis, .cslot, .pwm, .le, .rseq, .psp, .can, .dio]

/-- Whether an engine has power and is not halted. -/
def engineUp (s : State) (e : Engine) : Bool :=
  !halted s e && match e with
    | .lc c => inSt s .lc c.val [.idle, .run, .update]
    | .ce c => stOf s .ce c.val == .run
    | .le c => powered s .le c.val
    | .ap _ => s.dom.getLsbD 2

/-- The page of the halted engine itself: LC goes to HOLD, LE with DBGSAFE=0 too. -/
def haltOwn (s : State) (e : Engine) : State :=
  match e with
  | .lc c => setSt s .lc c.val .hold
  | .le c =>
    if !(s.page (pk .le c.val)).dbgSafe && stOf s .le c.val == .run then leCommitStep (setSt s .le c.val .hold) c.val else s
  | .ap i => { s with apHalt := s.apHalt ||| (1#2 <<< i.val) }
  | .ce _ => s

/-- A debug halt stops an engine, where the life-cycle state opens it: every page it controls whose DBGSAFE is 1 goes safe. -/
def haltEngine (s : State) (e : Engine) : State :=
  if dbgOpen s e && engineUp s e then
    let s1 := haltOwn { s with dbgHalt := e :: s.dbgHalt } e
    debugTypes.foldl (fun s t => (insts t).foldl (fun s n =>
      if powered s t n && (s.page (pk t n)).dbgSafe && controls s1 e t n then debugSafe s t n else s) s) s1
  else s

/-- A halted engine resumes: an LC page leaves HOLD, the pages driven safe stay in SAFE. -/
def resumeEngine (s : State) (e : Engine) : State :=
  if halted s e then
    let s1 : State := { s with dbgHalt := s.dbgHalt.filter (fun x => x != e) }
    match e with
    | .lc c =>
      if stOf s1 .lc c.val == .hold then
        if inOp s1 c.val then setSt s1 .lc c.val .update else lcSync (setSt s1 .lc c.val .idle) c.val
      else s1
    | .ap i => { s1 with apHalt := s1.apHalt &&& ~~~(1#2 <<< i.val) }
    | _ => s1
  else s

end Sys2Proof.Machine
end

