-- ==== Sys2Proof/Machine/Rec.lean ====
section
/-! DEFINITION. The record store: its partition (R355), the continuous history (R357 to R359), exports (R371) and the rules
of its page (R356, R372). -/
namespace Sys2Proof.Machine

/-! ## The history ring (R357, R358) -/

/-- Address and entries of the history area (R355): 16 bytes each. -/
def histBase (s : State) : Nat := 0x800000000 + 1048576 * rf s .recStore 0 Reg.REC.HIST_AREA 0 16
def histCap (s : State) : Nat := 65536 * rf s .recStore 0 Reg.REC.HIST_AREA 16 16

/-- The words of a history entry (Table 13-3). -/
def HistEnt.words (e : HistEnt) : List Word :=
  [ofN (e.id + 65536 * e.kind + 1048576 * b2n e.forced + 2097152 * b2n e.safe + 536870912 * (tsHi e.ts).toNat), tsLo e.ts,
    e.value.setWidth 32, (e.value >>> 32).setWidth 32]

/-- The address of ring entry `i`. -/
def histAddr (s : State) (i : Nat) : Nat := histBase s + 16 * (i % histCap s)

/-- KIND, timestamp and value of a stored entry. -/
def histKindAt (s : State) (i : Nat) : Nat := fld (mem32 s (histAddr s i)) 16 4
def histTsAt (s : State) (i : Nat) : Nat :=
  (mem32 s (histAddr s i + 4)).toNat + 4294967296 * fld (mem32 s (histAddr s i)) 29 3
def histValueAt (s : State) (i : Nat) : Nat := joinN (mem32 s (histAddr s i + 8)) (mem32 s (histAddr s i + 12))

/-- The index of the oldest entry. -/
def histFirst (s : State) : Nat := if s.histCnt < histCap s then 0 else s.histPos

/-- The wrap count under which a stored entry stands, given the one before it: a WRAP mark gives the new one (R358). -/
def histWrapAt (s : State) (w i : Nat) : Nat := if histKindAt s i = 1 then histValueAt s i else w

/-- The record time of a stored entry (R358). -/
def histTimeAt (s : State) (w i : Nat) : Nat := histWrapAt s w i * 34359738368 + histTsAt s i

/-- What the boot has given the record store: SHARE, PART_SIZE and BW_LIMIT (R29, R355, R356). -/
def recBoot (s : State) : State :=
  wr (wr (wb s .recStore 0 Reg.REC.STAT 0 s.part.share) .recStore 0 Reg.REC.PART_SIZE (ofN s.part.recMib)) .recStore 0 Reg.REC.BW_LIMIT
    (ofN (bwLimit s))

/-- Registers that show the record store at an instant: those of the boot, HIST_RATE, WRAP_CNT, HIST_OLDEST and HIST_ON. -/
def recShow (s0 : State) : State :=
  let s := recBoot s0
  let sec := s.lap s.now / perS
  let rate := if s.histSec.1 + 1 = sec then ofN s.histSec.2
    else if s.histSec.1 = sec then rg s .recStore 0 Reg.REC.HIST_RATE else 0
  let old := if s.histCnt = 0 then 0 else histTimeAt s s.histWrap (histFirst s)
  wr64 (wr64 (wb (wr s .recStore 0 Reg.REC.HIST_RATE rate) .recStore 0 Reg.REC.STAT 1 (histOn s)) .recStore 0 Reg.REC.WRAP_CNT_LO
    (s.now / 34359738368 : Nat)) .recStore 0 Reg.REC.HIST_OLDEST_LO old

/-- One more entry of the present second (HIST_RATE). -/
def histCount (s : State) : State :=
  let sec := s.lap s.now / perS
  if s.histSec.1 = sec then { s with histSec := (sec, s.histSec.2 + 1) }
  else { wr s .recStore 0 Reg.REC.HIST_RATE (if s.histSec.1 + 1 = sec then ofN s.histSec.2 else 0) with histSec := (sec, 1) }

/-- An append to a full ring overwrites its oldest entry: HIST_WRAPPED, and an export that has not copied it is overtaken. -/
def histOver (s : State) : State :=
  let i := s.histPos
  let at_ := histTimeAt s s.histWrap i
  let s1 := if rb s .recStore 0 Reg.REC.STAT 4 then s else setInt (wb s .recStore 0 Reg.REC.STAT 4 true) .recStore 0 2
  let s2 := { s1 with histWrap := histWrapAt s s.histWrap i }
  match s.recExp with
  | some x =>
    if x.kind = 1 ∧ x.src ≤ at_ ∧ at_ ≤ x.upTo then
      let e : HistOld := ⟨histWrapAt s s.histWrap i, histAddr s i, (List.range 4).map (fun k => mem32 s (histAddr s i + 4 * k))⟩
      { s2 with recExp := some { x with hit := true, oldEnts := x.oldEnts ++ [e] } }
    else s2
  | none => s2

/-- An entry appended to the ring (R357). -/
def histPut (s : State) (e : HistEnt) : State :=
  let s1 := if s.histCnt < histCap s then { s with histCnt := s.histCnt + 1 } else histOver s
  let s2 := recPut s1 (histAddr s1 s1.histPos) e.words
  recShow (histCount { s2 with histPos := (s2.histPos + 1) % histCap s2 })

/-- The queue has room again after a loss: one LOST mark follows (R359). -/
def histLostMark (s : State) : State :=
  match s.histLost with
  | some (n, t0, t1) => { s with histQ := s.histQ ++ [⟨3, 0, false, false, t0, t1 ++ ofN n⟩], histLost := none }
  | none => s

/-- The oldest entry of the queue is appended. -/
def histAppend (s : State) : State :=
  match s.histQ with
  | [] => s
  | e :: q =>
    if stOf s .recStore 0 == .run && histCap s != 0 then histPut (histLostMark { s with histQ := q }) e else s

/-- The history begins: an empty ring whose first entry stands under the present wrap count. -/
def histStart (s : State) : State :=
  wb { s with histPos := 0, histCnt := 0, histWrap := s.now / 34359738368 } .recStore 0 Reg.REC.STAT 4 false

/-! ## Exports (R371) -/

/-- A word of an export's source as the export read it: before recording has written over it. -/
def expWord (s : State) (x : RecExp) (a : Nat) : Word := (x.old.lookup a).getD (mem32 s a)

/-- Copy 32-bit words from given addresses: uncorrectable words are copied as 0. -/
def expWords (s : State) (x : RecExp) (ues : List Nat) (l : List Nat) : List Word :=
  l.map (fun a => if ues.contains (a / 8 * 8) then 0 else expWord s x a)

/-- The addresses of a record's words in record order (R370). -/
def expFrameAddrs (a f pre preAct postAct start : Nat) : List Nat :=
  let frame (i : Nat) : List Nat := (List.range (f / 4)).map (fun k => a + 512 + i * f + 4 * k)
  (List.range preAct).flatMap (fun i => frame (if preAct = pre then (start + i) % pre else i)) ++
    (List.range postAct).flatMap (fun i => frame (pre + i))

/-- The addresses of a record's words: the header, the stored frames and the marker table. -/
def expRecordAddrs (s : State) (x : RecExp) : List Nat :=
  let a := x.src
  let w (o : Nat) : Nat := (expWord s x (a + o)).toNat
  let table := a + 512 + (x.pre + x.post) * w 0xC
  (List.range 128).map (fun i => a + 4 * i) ++
    expFrameAddrs a (w 0xC) x.pre (w 0x10) (w 0x14) (w 0x18) ++
    (List.range 256).map (fun i => table + 4 * i)

/-- The slot of record `seq` of a unit. -/
def expSlot (s : State) (u : Nat) (seq : Word) : Option Nat :=
  let n := acqSlots s u (acqReg s u)
  if n = 0 || seq = 0 then none else some (acqBase s u + ((seq.toNat - 1) % n) * acqSlotBytes s (acqReg s u))

/-- The ring indices of the entries in a span of record times, with the wrap count of the first. -/
def expHistory (s : State) (lo hi : Nat) : List Nat × Nat :=
  let r := (List.range s.histCnt).foldl (fun (r : Nat × List Nat × Nat) k =>
    let i := histFirst s + k
    let w := histWrapAt s r.1 i
    let t := w * 34359738368 + histTsAt s i
    if lo ≤ t ∧ t ≤ hi then (w, i :: r.2.1, if r.2.1.isEmpty then w else r.2.2) else (w, r.2.1, r.2.2)) (s.histWrap, [], 0)
  (r.2.1.reverse, r.2.2)

/-- Bytes an export may still write from its destination on: EXP_MAX, and the end of the destination's area. -/
def expRoom (s : State) (dst max : Nat) : Nat :=
  let area := if inSram dst 1 then 0x11000000 - dst else loopBase s - dst
  if max = 0 then area else min area (4096 * max)

/-- The words of an export's copy, and the 64-bit words of its source. -/
def expCopy (s : State) (x : RecExp) (ues : List Nat) : List Word × List Nat :=
  if x.kind = 0 then
    let l := expRecordAddrs s x
    let w := expWords s x ues l
    ((w.take 6 ++ [0] ++ w.drop 7), l)
  else
    let h := expHistory s x.src x.upTo
    let words (a : Nat) : List Nat := (List.range 4).map (fun k => a + 4 * k)
    let l := h.1.flatMap (fun i => words (histAddr s i))
    let wrap := match x.oldEnts with
      | e :: _ => e.wrap
      | [] => h.2
    let gone := x.oldEnts.flatMap (fun e => ((words e.at_).zip e.ws).map (fun y => if ues.contains (y.1 / 8 * 8) then 0 else y.2))
    if h.1.isEmpty && x.oldEnts.isEmpty then ([], [])
    else (((HistEnt.mk 1 0 false false 0 (BitVec.ofNat 64 wrap)).words ++ gone ++ expWords s x ues l),
      x.oldEnts.flatMap (fun e => words e.at_) ++ l)

/-- The export's copy is written, with what it found uncorrectable and where it was cut. -/
def expWrite (s0 : State) (x : RecExp) (ues : List Nat) : State :=
  let c := expCopy s0 x ues
  let met := ues.filter (fun a => c.2.any (fun b => b / 8 * 8 == a))
  let s := met.foldl (fun s a => memEcc s true a) (wr s0 .recStore 0 Reg.REC.EXP_UE (ofN met.length))
  let room := x.limit / 4
  let ws := c.1.take room
  let s1 := (ws.zipIdx).foldl (fun s e => putMem32 s (x.dst + 4 * e.2) e.1) s
  let s2 := wb s1 .recStore 0 Reg.REC.STAT 2 (decide (room < c.1.length))
  opDone { wr64 s2 .recStore 0 Reg.REC.EXP_LEN_LO (4 * ws.length : Nat) with recExp := none } .recStore 0

/-- EXPORT begins to locate its source (R371). -/
def expStart (s : State) : State :=
  let c := rg s .recStore 0 Reg.REC.EXP_CTL
  let kind := fld c 0 2
  let u := fld c 4 4
  let seq := rg s .recStore 0 Reg.REC.EXP_SEQ
  let dst := rgU64 s .recStore 0 Reg.REC.EXP_DST_LO
  let slot := expSlot s u seq
  let src := if kind = 0 then slot.getD 0 else rgU64 s .recStore 0 Reg.REC.EXP_FROM_LO
  let upTo := if kind = 0 then src + acqSlotBytes s (acqReg s u) else rgU64 s .recStore 0 Reg.REC.EXP_TO_LO
  let old := histTimeAt s s.histWrap (histFirst s)
  let x : RecExp := ⟨kind, u, seq, src, upTo, dst, expRoom s dst (rg s .recStore 0 Reg.REC.EXP_MAX).toNat, false,
    kind != 0 || (slot.isSome && mem32 s (src + 8) == seq), acqPre (acqReg s u), acqPost (acqReg s u), [], []⟩
  let s1 := wb (wb { s with recExp := some x } .recStore 0 Reg.REC.STAT 2 false) .recStore 0 Reg.REC.STAT 3
    (kind == 1 && s.histCnt != 0 && decide (src < old))
  opStart (wr (wr64 s1 .recStore 0 Reg.REC.EXP_LEN_LO 0) .recStore 0 Reg.REC.EXP_UE 0) .recStore 0 0 1 0

/-- An export ends: overtaken by recording, without its record, or with its copy. -/
def expEnd (s : State) (lost : Bool) (ues : List Nat) : State :=
  match s.recExp with
  | none => s
  | some x =>
    if lost && x.hit then setInt (opFail { s with recExp := none } .recStore 0 .conflict 0x010) .recStore 0 0
    else if x.found = false then
      opFail { s with recExp := none } .recStore 0 .range 0x010
    else expWrite s x ues

/-! ## The page (R355, R356, R372) -/

/-- What REC says of its commands. -/
def recRule (s : State) (code : Nat) : Option CmdRule :=
  let busy := (s.page (pk .recStore 0)).busy
  let dst := rgU64 s .recStore 0 Reg.REC.EXP_DST_LO
  match code with
  | 0x05 => some ⟨false, true, none⟩
  | 0x07 => some ⟨false, true, firstOf [(!busy, .wrongState)]⟩
  | 0x10 => some ⟨false, true, firstOf [
      (decide (2 ≤ rf s .recStore 0 Reg.REC.EXP_CTL 0 2) || !(inSram dst 1 || inAp s dst 1), .range), (busy, .busy)]⟩
  | _ => none

/-- The effect of a REC command. -/
def recAct (s : State) (code : Nat) : State :=
  match code with
  | 0x07 => opFail { s with recExp := none } .recStore 0 .wrongState 0x010
  | 0x10 => expStart s
  | _ => s

/-- The areas of the staged division: offset of the register, base and length in MiB. -/
def recAreas (s : State) : List (Nat × Nat × Nat) :=
  let area (o : Nat) : Nat × Nat × Nat := (o, stf s .recStore 0 o 0 16, stf s .recStore 0 o 16 16)
  (area Reg.REC.HIST_AREA :: (List.range 16).map (fun u => area (Reg.REC.REGION + 4 * u))).filter (fun a => a.2.2 != 0)

/-- The tests of a staged REC set. -/
def recValidate (s : State) : List (Bool × Nat × ErrCode) :=
  let l := recAreas s
  let bw := (staged s .recStore 0 Reg.REC.HIST_BW).toNat
  let lim := bwLimit s
  [(decide (bw < 64) || decide (lim < bw), Reg.REC.HIST_BW, .range),
   (decide (lim - bw < (rg s .recStore 0 Reg.REC.BW_USED).toNat), Reg.REC.HIST_BW, .conflict),
   (decide (stf s .recStore 0 Reg.REC.HIST_AREA 16 16 < 64), Reg.REC.HIST_AREA, .range),
   (rb s .recStore 0 Reg.REC.CFG 0 && changed s .recStore 0 Reg.REC.HIST_AREA, Reg.REC.HIST_AREA, .wrongState)] ++
  l.map (fun a => (decide (s.part.recMib < a.2.1 + a.2.2) ||
    l.any (fun b => a.1 != b.1 && decide (a.2.1 < b.2.1 + b.2.2) && decide (b.2.1 < a.2.1 + a.2.2)), a.1, .range)) ++
  (List.range 16).map (fun u =>
    let o := Reg.REC.REGION + 4 * u
    (changed s .recStore 0 o && !inSt s .acq u [.off, .idle], o, .wrongState))

/-- After a commit: the history begins with HIST_EN, and what depends on the division follows. -/
def recCommitted (s : State) (old : Page) : State :=
  let was := bit (SMap.get (regReset .recStore) old.regs Reg.REC.CFG) 0
  let s1 := if rb s .recStore 0 Reg.REC.CFG 0 && !was then histStart s else s
  recShow ((insts .acq).foldl acqShow s1)

/-- Whether EN=0 is refused: a unit is in RUN (R372). -/
def recBusy (s : State) : Bool := (insts .acq).any (fun u => stOf s .acq u == .run)

/-- EN=0 ends an export and with it what waits. -/
def recDisabled (s : State) : State :=
  let s1 := if (s.page (pk .recStore 0)).busy then opFail { s with recExp := none } .recStore 0 .wrongState 0x010 else s
  recShow (setSt s1 .recStore 0 .off)

end Sys2Proof.Machine
end

