-- ==== Sys2Proof/Machine/Time.lean ====
section
/-! DEFINITION. Device time: steps, wraps and holdover (R374 to R380), the trigger bus (R394) and the rules of TIME (R398). -/
namespace Sys2Proof.Machine

/-- The role, node and upstream port of the device in its link domain (R387): roles 0 NONE, 1 MASTER, 2 SLAVE. -/
def timeRole (s : State) : Nat := rf s .time 0 Reg.TIME.DOMAIN 0 2
def timeNode (s : State) : Nat := rf s .time 0 Reg.TIME.DOMAIN 8 5
def timeUpPort (s : State) : Nat := rf s .time 0 Reg.TIME.DOMAIN 16 2

/-- The deviation of the tick grid in steps, positive where ticks are lengthened (R376). -/
def tickDev (s : State) : Int :=
  let m := (-s.tickAt) % 62500
  if m < 31250 then m else m - 62500

/-- NOW_LO and NOW_HI (R375), TICK_DEV, TICK_SLEW and STEP_PENDING. -/
def timeShow (s : State) : State :=
  wb (wb (wr (wr64 s .time 0 Reg.TIME.NOW_LO (s.now : Nat)) .time 0 Reg.TIME.TICK_DEV (ofI (tickDev s))) .time 0 Reg.TIME.STAT 3 (tickDev s != 0)) .time 0 Reg.TIME.STAT 4
    s.timeStep.isSome

/-- An adjustment of device time: supervision begins or begins again, and a holdover ends (R380). -/
def timeAdjust (s : State) : State :=
  endRaise (wb { s with adjAt := some (s.lap s.now) } .time 0 Reg.TIME.STAT 0 false) 0x1B .time 0 0

/-- Device time wraps (R375, R358). -/
def timeWrapMark (s : State) : State :=
  histMark (setInt s .time 0 0) 1 0 (BitVec.ofNat 64 (s.now / 34359738368))

/-- The wrap of device time at an extended time. -/
def timeWrapAt (s : State) (t : Nat) : State :=
  if t % 34359738368 = 0 ∧ s.now < t then timeWrapMark (s.at t) else s

/-- The times a PWM module holds, moved. -/
def PwmSt.moved (x : PwmSt) (mv : Nat → Nat) : PwmSt :=
  { x with zero := mv x.zero, mid := x.mid.map mv, anchor := mv x.anchor
           pairs := x.pairs.map (fun y => { y with at_ := mv y.at_, hOn := mv y.hOn, lOn := mv y.lOn }) }

/-- The times that blocks hold in device time move with it, so that what they count goes on unchanged (R376, R379). -/
def timesMoved (s : State) (mv : Nat → Nat) : State :=
  let s1 := s.ssns.foldl (fun s e => setSsn s e.1 { e.2 with start := mv e.2.start, took := e.2.took.map mv }) s
  let s2 := s1.pcmps.foldl (fun s e =>
    setPcmp s e.1 { e.2 with pulse := e.2.pulse.map mv, next := e.2.next.map (fun p => (mv p.1, mv p.2)) }) s1
  let s3 := s2.steps.foldl (fun s e => setStep s e.1 { e.2 with t := mv e.2.t }) s2
  let s4 := s3.cslots.foldl (fun s e => setCslot s e.1 { e.2 with took := e.2.took.map mv }) s3
  s4.pwms.foldl (fun s e => setPwm s e.1 (e.2.moved mv)) s4

/-- A step of device time applies (R376, R379). -/
def stepTime (s : State) (d : Int) : State :=
  let t0 := s.now
  let t1 := (((t0 : Int) + d) % 18446744073709551616).toNat
  let by_ := (t1 : Int) - t0
  let s1 := timesMoved { s with now := t1, stepSum := s.stepSum + by_, lastStep := (s.lap t0, by_), tickAt := s.tickAt + by_ } (fun u => ((u : Int) + by_).toNat)
  let s2 := setInt (wb (wr64 s1 .time 0 Reg.TIME.STEP_LAST_LO d) .time 0 Reg.TIME.STAT 1 false) .time 0 1
  let s3 := acqStepMark (histMark (timeShow s2) 2 (devTime t1) (BitVec.ofInt 64 d)) d
  let s4 := if t0 / 34359738368 = t1 / 34359738368 then s3 else timeWrapMark s3
  pcmpTimeStep s4 t0 t1

/-- The step that waits applies, at its SOF instant or, announced late, at the device's own next one (R378, R389). -/
def timeStepApply (s0 : State) (t : Nat) : State :=
  let s := s0.at t
  match s.timeStep with
  | none => s
  | some x =>
    if x.at_.getD 0 ≤ t then
      let s1 := stepTime { s with timeStep := none } x.steps
      if x.late then raise (setInt s1 .time 0 10) 0x1C .time 0 0 0 else s1
    else s

/-- HOLDOVER_T after the last adjustment the device is in holdover (R380). -/
def holdoverAt (s0 : State) (t : Nat) : State :=
  let s := s0.at t
  match s.adjAt with
  | some a =>
    if a + 8000000 * rf s .time 0 Reg.TIME.HOLDOVER_T 0 16 ≤ s.lap t ∧ rb s .time 0 Reg.TIME.STAT 0 = false then
      raise (setInt (wb s .time 0 Reg.TIME.STAT 0 true) .time 0 3) 0x1B .time 0 0 0
    else s
  | none => s

/-- A write of RATE (R377). -/
def rateWrite (s : State) (v : Word) : State :=
  if 549755813 < (sw v).natAbs then rejWr s .time 0 .range Reg.TIME.RATE
  else if timeRole s = 2 then rejWr s .time 0 .wrongState Reg.TIME.RATE
  else timeAdjust (wr s .time 0 Reg.TIME.RATE v)

/-! ## The trigger bus (R394) -/

/-- MODE, PIN and OWNER of a line in a TRG_CFG word; in role NONE a DOMAIN line acts as LOCAL. -/
def trgCfg (s : State) (l : Nat) : Word := rg s .time 0 (Reg.TIME.TRG_CFG + 4 * l)
def trgDomain (s : State) (l : Nat) : Bool := bit (trgCfg s l) 0 && timeRole s != 0

/-- The local level of a line: its drivers and the pin where it is an input. -/
def trgLevel (s : State) (l : Nat) : Bool :=
  (fld (trgCfg s l) 1 2 == 1 && s.trgPin.getLsbD l) ||
  (insts .pcmp).any (fun n =>
    let c := rg s .pcmp n Reg.PCMP.CFG
    stOf s .pcmp n != .off && (fld c 12 2 == 1 || fld c 12 2 == 2) && fld c 16 3 == l && (rb s .pcmp n Reg.PCMP.STAT 0 != bit c 10)) ||
  (insts .acq).any (fun u => (acqOf s u).drive && rf s .acq u Reg.ACQ.TRIG 25 3 == l)

/-- One bit of the lines. -/
def setLine (w : BitVec 8) (l : Nat) (b : Bool) : BitVec 8 := if b then w ||| (1#8 <<< l) else w &&& ~~~(1#8 <<< l)

/-- Consumers see a level: on a rise the fast channels and the acquisition units that wait for the line have their trigger event. -/
def trgSee (s : State) (l : Nat) (b : Bool) : State :=
  if s.trgSeen.getLsbD l == b then s
  else
    let s1 := { s with trgSeen := setLine s.trgSeen l b, trgAt := SMap.set (fun _ => 0) s.trgAt l s.now }
    if b then
      let s2 := fchEvent s1 s.now (fun w => fld w 0 3 == 4 && fld w 20 3 == l)
      (insts .acq).foldl (fun s u =>
        if rf s .acq u Reg.ACQ.TRIG 0 3 == 4 && rf s .acq u Reg.ACQ.TRIG 12 3 == l && stOf s .acq u == .run then
          setAcq s u { acqOf s u with busDue := true }
        else s) s2
    else s1

/-- Trigger events of this device that have not yet gone into a frame. -/
def trgWaiting (s : State) : Nat :=
  (insts .dlk).foldl (fun m p => max m ((dlkOf s p).evs.filter (fun e => e.2 == 2)).length) 0

/-- An event is put before every port in RUN but the one it came from, for two frames each; it is lost where 32 wait. -/
def trgSend (s : State) (ev : TrgEv) (from_ : Nat) : State × Bool :=
  if 32 ≤ trgWaiting s then
    (raise (setInt (incSat s .time 0 Reg.TIME.TRG_LOST) .time 0 7) 0x1D .time 0 0 ev.line, false)
  else
    ((insts .dlk).foldl (fun s p =>
      if p != from_ && inSt s .dlk p [.run, .update] && rb s .dlk p Reg.DLK.STAT 0 then setDlk s p { dlkOf s p with evs := (dlkOf s p).evs ++ [(ev, 2)] } else s) s,
     true)

/-- The level of a TRG pin: an output follows what consumers see, else the pin follows the outside. -/
def trgPad (s : State) (l : Nat) : Bool := if fld (trgCfg s l) 1 2 = 2 then s.trgSeen.getLsbD l else s.trgPin.getLsbD l

/-- A change of the owner's level becomes an event due TRG_DELAY later. -/
def trgEvent (s : State) (l : Nat) (b : Bool) : State :=
  let ev : TrgEv := ⟨timeNode s, l, b, s.now + 8000 * rf s .time 0 Reg.TIME.TRG_DELAY 0 8⟩
  let r := trgSend s ev 4
  if r.2 then { r.1 with trgQ := r.1.trgQ ++ [ev] } else r.1

/-- A line's local level is looked at again, and what follows from a change comes about. -/
def trgUpdate (s : State) (l : Nat) : State :=
  let b := trgLevel s l
  let was := s.trgLocal.getLsbD l
  let s1 := { s with trgLocal := setLine s.trgLocal l b }
  if trgDomain s l then
    if was != b && fld (trgCfg s l) 8 5 == timeNode s then trgEvent s1 l b else s1
  else trgSee s1 l b

/-- The pin of a line, or one of its drivers, changes. -/
def trgChange (s0 : State) (l : Nat) (pin : Bool) (t : Nat) : State :=
  let s := s0.at t
  trgUpdate { s with trgPin := setLine s.trgPin l pin } l

/-- An event takes effect on its line: only the owner's events count, and only in DOMAIN mode. -/
def trgApply (s : State) (ev : TrgEv) : State :=
  let s1 := { s with trgDone := (s.trgDone ++ [ev]).drop (s.trgDone.length - 63) }
  if trgDomain s ev.line && fld (trgCfg s ev.line) 8 5 == ev.node then trgSee s1 ev.line ev.level else s1

/-- An event put in the order of due times. -/
def trgInsert (ev : TrgEv) : List TrgEv → List TrgEv
  | [] => [ev]
  | x :: l => if ev.due < x.due then ev :: x :: l else x :: trgInsert ev l

/-- The events due by an extended time, in the order of their due times. -/
def trgDueAt (s0 : State) (t : Nat) : State :=
  let s := s0.at t
  let due := (s.trgQ.filter (fun e => decide (e.due ≤ t))).foldl (fun l e => trgInsert e l) []
  due.foldl trgApply { s with trgQ := s.trgQ.filter (fun e => !decide (e.due ≤ t)) }

/-- A commit of TIME reaches a line: moved to DOMAIN it keeps what consumers saw, and on the owner its present level is an
event; otherwise it is looked at again. -/
def trgCommit (s : State) (old : Page) (l : Nat) : State :=
  let o (x : Nat) : Word := SMap.get (regReset .time) old.regs x
  let was := bit (o (Reg.TIME.TRG_CFG + 4 * l)) 0 && fld (o Reg.TIME.DOMAIN) 0 2 != 0
  if trgDomain s l && !was then
    let b := trgLevel s l
    let s1 := { s with trgLocal := setLine s.trgLocal l b }
    if fld (trgCfg s l) 8 5 == timeNode s then trgEvent s1 l b else s1
  else trgUpdate s l

/-! ## The page (R378, R391, R398) -/

/-- STEP_VAL. -/
def stepVal (s : State) : Int := rg64 s .time 0 Reg.TIME.STEP_VAL_LO

/-- What TIME says of its commands. -/
def timeRule (s : State) (code : Nat) : Option CmdRule :=
  let slave := timeRole s == 2
  let busy := (s.page (pk .time 0)).busy
  match code with
  | 0x05 => some ⟨false, true, none⟩
  | 0x07 => some ⟨false, true, firstOf [(!busy, .wrongState)]⟩
  | 0x10 => some ⟨false, true, firstOf [(slave, .wrongState),
      (decide (8 * (rg s .time 0 Reg.TIME.JUMP_LIMIT).toNat < (stepVal s).natAbs), .range), (s.timeStep.isSome, .busy)]⟩
  | 0x11 => some ⟨false, true, firstOf [(slave, .wrongState), (s.timeStep.isSome, .busy)]⟩
  | 0x12 => some ⟨false, true, firstOf [(!slave, .wrongState), (busy, .busy)]⟩
  | _ => none

/-- A refused STEP shows JUMP_REFUSED (R378). -/
def timeRefused (s : State) (code : Nat) (c : ErrCode) : State :=
  if code = 0x10 ∧ c = .range then setInt (wb s .time 0 Reg.TIME.STAT 1 true) .time 0 2 else s

/-- An accepted step waits: for the next island cycle, or in role MASTER for the SOF instant at least TRG_DELAY µs after the
next frame, which announces it (R378). -/
def stepAccept (s : State) : State :=
  let at_ := if timeRole s = 1 then some ((s.now / 8000 + 1 + rf s .time 0 Reg.TIME.TRG_DELAY 0 8) * 8000) else none
  timeShow (timeAdjust { s with timeStep := some ⟨stepVal s, at_, false⟩ })

/-- The effect of a TIME command. -/
def timeAct (s : State) (code : Nat) : State :=
  match code with
  | 0x07 => opFail { s with joinDue := none, joinOk := false } .time 0 .wrongState 0x010
  | 0x10 => stepAccept s
  | 0x11 => stepAccept s
  | 0x12 =>
    let due := s.lap s.now + 8000000 * rf s .time 0 Reg.TIME.JOIN_TMO 0 16
    opStart { wf s .time 0 Reg.TIME.STAT 2 1 0 with joinDue := some due, joinCnt := 0, joinOk := false } .time 0 0 1 0
  | _ => s

/-- No lock within JOIN_TMO (R391). -/
def joinTimeout (s0 : State) (t : Nat) : State :=
  let s := s0.at t
  match s.joinDue with
  | some d => if d ≤ s.lap t then opFail { s with joinDue := none, joinOk := false } .time 0 .wrongState 0x010 else s
  | none => s

/-- The tests of a staged TIME set (R398). -/
def timeValidate (s : State) : List (Bool × Nat × ErrCode) :=
  let d := staged s .time 0 Reg.TIME.DOMAIN
  [(fld d 0 2 == 3, Reg.TIME.DOMAIN, .range),
   (changed s .time 0 Reg.TIME.DOMAIN && (insts .dlk).any (fun p => inSt s .dlk p [.run, .update]), Reg.TIME.DOMAIN, .wrongState),
   (fld d 0 2 == 2 && stOf s .dlk (fld d 16 2) == .off, Reg.TIME.DOMAIN, .conflict),
   (bit (staged s .time 0 Reg.TIME.JUMP_LIMIT) 31, Reg.TIME.JUMP_LIMIT, .range),
   (decide (stf s .time 0 Reg.TIME.HOLDOVER_T 0 32 < 100) || decide (65535 < stf s .time 0 Reg.TIME.HOLDOVER_T 0 32), Reg.TIME.HOLDOVER_T, .range),
   (stf s .time 0 Reg.TIME.JOIN_TMO 0 32 == 0 || decide (65535 < stf s .time 0 Reg.TIME.JOIN_TMO 0 32), Reg.TIME.JOIN_TMO, .range),
   (decide (stf s .time 0 Reg.TIME.TRG_DELAY 0 8 < 2), Reg.TIME.TRG_DELAY, .range)] ++
  (List.range 8).map (fun l => (stf s .time 0 (Reg.TIME.TRG_CFG + 4 * l) 1 2 == 3, Reg.TIME.TRG_CFG + 4 * l, .range)) ++
  (List.range 256).map (fun x =>
    let w := staged s .time 0 (Reg.TIME.EXPORT + 4 * x)
    (bit w 16 && !(sigEnt s (fld w 0 16)).en, Reg.TIME.EXPORT + 4 * x, .conflict))

/-- After a commit: a new domain begins without lock, and every line follows its settings. -/
def timeCommitted (s : State) (old : Page) : State :=
  let same := SMap.get (regReset .time) old.regs Reg.TIME.DOMAIN == rg s .time 0 Reg.TIME.DOMAIN
  let s1 := if same then s
    else { wb (wb s .time 0 Reg.TIME.STAT 2 false) .time 0 Reg.TIME.STAT 5 false with joinOk := false, joinCnt := 0 }
  (List.range 8).foldl (fun s l => trgCommit s old l) s1

end Sys2Proof.Machine
end

