-- ==== Sys2Proof/Machine/Dlk.lean ====
section
/-! DEFINITION. The Draora Link: frames, hop delay, joining, trigger events, remote signals and nodes (R387 to R397), and the
rules of DLK (R399). -/
namespace Sys2Proof.Machine

/-- Whether a port is the upstream port of a slave. -/
def isUp (s : State) (p : Nat) : Bool := timeRole s == 2 && timeUpPort s == p

/-- Whether a port has frame lock, and whether it carries records and events. -/
def dlkUp (s : State) (p : Nat) : Bool := rb s .dlk p Reg.DLK.STAT 0
def dlkCarries (s : State) (p : Nat) : Bool := inSt s .dlk p [.run, .update] && dlkUp s p

/-- The nodes reached through the other ports. -/
def nodesBeyond (s : State) (p : Nat) : Word :=
  (insts .dlk).foldl (fun w q => if q != p && dlkCarries s q then w ||| rg s .dlk q Reg.DLK.PEER_NODES else w) 0

/-! ## The words of a frame (Table 14-2) -/

/-- The two words of a trigger event, and the four of a record. -/
def evWords (e : TrgEv) : List Word :=
  [ofN (2147483648 + 268435456 * e.line + 134217728 * b2n e.level + 4194304 * e.node), ofN e.due]
def recWords (r : LinkRec) : List Word := [ofN (134217728 * r.node + 524288 * r.exp + 131072 * r.typ), r.lo, r.hi, r.ts]

/-- A list of words made as long as its area by words of 0. -/
def padded (n : Nat) (l : List Word) : List Word := (l ++ List.replicate n 0).take n

/-- Words 1 to 248 of a frame. -/
def linkWords (f : LinkFrame) : List Word :=
  [ofN (268435456 * f.ver + 8388608 * f.node + 4194304 * b2n f.up + 2097152 * b2n f.masterOk + f.fseq), ofN f.time,
    ofN (f.time / 4294967296), f.rate, ofI f.step, ofN f.echo, ofN f.turn, f.nodes] ++ padded 16 (f.evs.flatMap evWords) ++
    [ofN f.recs.length] ++ padded 220 (f.recs.flatMap recWords) ++ [ofN f.stepAt, ofN (f.stepAt / 4294967296), 0]

/-- The CRC-32C over words 1 to 248 (R47, Table 14-2), and whether a frame's CRC agrees. -/
def linkCrc (f : LinkFrame) : Word := crc32c ((linkWords f).flatMap wordBytes)
def linkGood (f : LinkFrame) : Bool := f.crc == linkCrc f

/-! ## Sending (R388, R389, R394, R395) -/

/-- Whether the device tells time of its domain: the master, or a slave in LOCKED. -/
def masterOk (s : State) : Bool := timeRole s == 1 || (timeRole s == 2 && rb s .time 0 Reg.TIME.STAT 2)

/-- The frame a port sends at an extended time: a blocked port carries no announcement, event or record (R387), a slave forwards an
announcement through its other ports only (R389), and TURN counts elapsed steps. -/
def dlkFrame (s : State) (p t : Nat) : LinkFrame :=
  let x := dlkOf s p
  let carries := dlkCarries s p
  let step : Int × Nat := match s.timeStep with
    | some ⟨n, some a, false⟩ => if t ≤ a ∧ n ≠ 0 ∧ stOf s .dlk p ≠ .fault ∧ isUp s p = false then (n, a) else (0, 0)
    | _ => (0, 0)
  let f : LinkFrame := {
    crc := 0, ver := 1, node := timeNode s, up := isUp s p, masterOk := masterOk s, fseq := x.fseq, time := t,
    rate := rg s .time 0 Reg.TIME.RATE, step := step.1, stepAt := step.2,
    echo := (x.rx.map (fun r => r.1)).getD 0, turn := (x.rx.map (fun r => (s.lap t - r.2) % 4294967296)).getD 0,
    nodes := grpBit (timeNode s) ||| nodesBeyond s p,
    evs := if carries then (x.evs.take 8).map (fun e => e.1) else [],
    recs := if carries then x.recs.take 55 else [] }
  { f with crc := linkCrc f }

/-- A port sends its frame: events go into two frames each, records leave the queue. -/
def linkSend (s0 : State) (p t : Nat) : State :=
  let s := s0.at t
  if inSt s .dlk p [.run, .update, .fault] && t % 8000 == 0 then
    let f := dlkFrame s p t
    let x := dlkOf s p
    let n := f.evs.length
    let evs := ((x.evs.take n).filter (fun e => e.2 != 1)).map (fun e => (e.1, 1)) ++ x.evs.drop n
    let x1 : DlkSt := { x with fseq := (x.fseq + 1) % 65536, sent := ((x.fseq, s.lap t) :: x.sent).take 64, evs := evs,
                               recs := x.recs.drop f.recs.length, tx := some f }
    dlkShow (wr (setDlk s p x1) .dlk p Reg.DLK.REC_TX (rg s .dlk p Reg.DLK.REC_TX + ofN f.recs.length)) p
  else s

/-! ## Hop delay (R392, R393) -/

/-- HOP_DELAY in 1/16 step from the last 64 round trips, ASYM and, once calibrated, the internal delays; HOP_VALID. -/
def hopShow (s : State) (p : Nat) : State :=
  let l := (dlkOf s p).rts
  if l.length < 64 then wb s .dlk p Reg.DLK.STAT 4 false
  else
    let sum := l.foldl (· + ·) 0
    let int := if rb s .dlk p Reg.DLK.STAT 1 then Config.hopInternal (rg s .dlk p Reg.DLK.INT_TX) (rg s .dlk p Reg.DLK.INT_RX) else 0
    let d := fq (125 * sum + 8 * sext 16 (rg s .dlk p Reg.DLK.ASYM).toNat * 8) 1000 + int
    wr (wb s .dlk p Reg.DLK.STAT 4 true) .dlk p Reg.DLK.HOP_DELAY (ofI d)

/-- The elapsed time of the SOF of a frame that has just ended, which arrived at device time `ta`. A frame lasts 1 µs (R388): where device
time has stepped within it, `ta` was read before the step. -/
def sofLap (s : State) (ta : Nat) : Nat :=
  if s.lap s.now < s.lastStep.1 + 8000 then ((ta : Int) - (s.stepSum - s.lastStep.2)).toNat else s.lap ta

/-- A good frame that echoes one of the port's frames measures a round trip, in elapsed time. -/
def hopMeasure (s : State) (p ta : Nat) (f : LinkFrame) : State :=
  let x := dlkOf s p
  let a := sofLap s ta
  let x1 := { x with rx := some (f.fseq, a) }
  let x2 : DlkSt := match x.sent.find? (fun e => e.1 == f.echo) with
    | some e => { x1 with rts := (((a : Int) - e.2 - f.turn) :: x.rts).take 64 }
    | none => x1
  hopShow (setDlk s p x2) p

/-! ## Receiving: time (R389 to R391) -/

/-- The extended time nearest to an instant with given low 32 bits. -/
def near32 (now lo : Nat) : Nat :=
  let d := sext 32 ((lo + 4294967296 - now % 4294967296) % 4294967296)
  ((now : Int) + d).toNat

/-- The 35-bit timestamp nearest to an instant with given low 32 bits (R395). -/
def nearTs (now : Nat) (lo : Word) : BitVec 35 := devTime (near32 now lo.toNat)

/-- e of a frame in 1/16 step (R391). -/
def linkErr (s : State) (p ta : Nat) (f : LinkFrame) : Int :=
  16 * ((ta : Int) - f.time) - sw (rg s .dlk p Reg.DLK.HOP_DELAY)

/-- PHASE 1 ends: the slave steps by −e at the end of the frame. -/
def joinAlign (s : State) (e : Int) : State :=
  let s1 := stepTime s (fq (-e) 16)
  { setProg s1 .time 0 0 2 0 with joinOk := true, joinCnt := 0 }

/-- A frame of PHASE 2: 64 in a row with small e give lock. -/
def joinTrack (s : State) (e : Int) : State :=
  let n := if e.natAbs ≤ 32 then s.joinCnt + 1 else 0
  if 64 ≤ n then opDone (setInt (wb { s with joinCnt := 0, joinDue := none } .time 0 Reg.TIME.STAT 2 true) .time 0 4) .time 0
  else { s with joinCnt := n }

/-- A locked slave that meets a large e unlocks (R391). -/
def joinUnlock (s : State) : State :=
  let s1 := wb (wb { s with joinOk := false } .time 0 Reg.TIME.STAT 1 true) .time 0 Reg.TIME.STAT 2 false
  raise (setInt s1 .time 0 5) 0x1C .time 0 0 0

/-- Frames have returned with small e: PHASE 2 resumes (R391). -/
def joinResume (s : State) : State :=
  let due := s.lap s.now + 8000000 * rf s .time 0 Reg.TIME.JOIN_TMO 0 16
  let s1 := wb { s with joinCnt := 0, joinDue := some (s.joinDue.getD due) } .time 0 Reg.TIME.STAT 5 false
  opStart s1 .time 0 0 2 0

/-- What a good upstream frame does to the time of a slave (R390, R391). -/
def slaveTime (s0 : State) (p ta : Nat) (f : LinkFrame) : State :=
  let s1 := wr s0 .time 0 Reg.TIME.RATE f.rate
  let s := if f.masterOk then timeAdjust s1 else s1
  let e := linkErr s p ta f
  let small := decide (e.natAbs ≤ 128 * (rg s .time 0 Reg.TIME.JUMP_LIMIT).toNat)
  let s2 := wr s .time 0 Reg.TIME.LINK_ERR (satI32 e)
  let joining := (s.page (pk .time 0)).busy
  if joining && opPhase s .time 0 == 1 then
    if rb s .dlk p Reg.DLK.STAT 4 && f.masterOk then joinAlign (wb s2 .time 0 Reg.TIME.STAT 5 false) e else s2
  else if rb s .time 0 Reg.TIME.STAT 5 then
    if s.joinOk && small then joinTrack (joinResume s2) e else s2
  else if joining then joinTrack s2 e
  else if rb s .time 0 Reg.TIME.STAT 2 && !small then joinUnlock s2
  else s2

/-- An announcement is taken once; one whose STEP_AT has passed waits for the device's own next frame (R389). -/
def takeStep (s : State) (f : LinkFrame) : State :=
  if f.step = 0 ∨ s.stepDone = some (f.step, f.stepAt) then s
  else
    let x : TimeStep := if s.now ≤ f.stepAt then ⟨f.step, some f.stepAt, false⟩ else ⟨f.step, some ((s.now / 8000 + 1) * 8000), true⟩
    timeShow { s with timeStep := some x, stepDone := some (f.step, f.stepAt) }

/-! ## Receiving: records, events and nodes (R387, R394 to R396) -/

/-- A record forwarded to the other ports in RUN. -/
def forwardRec (s : State) (p : Nat) (r : LinkRec) : State :=
  (insts .dlk).foldl (fun s q => if q != p then queueRec s q false r else s) s

/-- A record reaches the signals that import it: published with the record's time, or of another TYPE and discarded (R396). -/
def importRec (s : State) (r : LinkRec) : State :=
  s.sigs.foldl (fun s (e : Nat × SigEntry) =>
    if e.2.en && e.2.from .dlk r.node && e.2.word == r.exp then
      if e.2.typ == r.typ then acqLinkPub (publish s e.1 (r.hi ++ r.lo) (nearTs s.now r.ts)) e.1 s.now
      else setInt (incSat s .time 0 Reg.TIME.TYPE_ERR) .time 0 9
    else s) s

/-- A trigger event received: each is applied once, at its due time or at once when late, and sent on (R394). -/
def takeEvent (s : State) (p : Nat) (e : TrgEv) : State :=
  let ev := { e with due := near32 s.now e.due }
  if s.trgQ.contains ev || s.trgDone.contains ev || ev.node == timeNode s then s
  else
    let s1 := (trgSend s ev p).1
    if ev.due < s.now then trgApply (setInt (incSat s1 .time 0 Reg.TIME.TRG_LATE) .time 0 6) ev
    else { s1 with trgQ := s1.trgQ ++ [ev] }

/-- The nodes of a frame are present. -/
def takeNodes (s : State) (w : Word) : State :=
  let s1 := wr s .time 0 Reg.TIME.NODES (rg s .time 0 Reg.TIME.NODES ||| w)
  { s1 with nodeGap := (grpList w).foldl (fun m n => SMap.set (fun _ => 0) m n (s.lap s.now)) s1.nodeGap }

/-- A node absent for 8 frames is lost: the signals imported from it go safe (R396). -/
def nodeLost (s0 : State) (n t : Nat) : State :=
  let s := s0.at t
  if (rg s .time 0 Reg.TIME.NODES).getLsbD n && decide (SMap.get (fun _ => 0) s.nodeGap n + 64000 ≤ s.lap t) then
    let s1 := wb { s with nodeGap := SMap.erase s.nodeGap n } .time 0 Reg.TIME.NODES n false
    raise (setInt (safeIf s1 .dlk n (fun _ => true)) .time 0 8) 0x1F .time 0 0 n
  else s

/-- CAUSE of the topology fault a frame shows: 1 LOOP, 2 NODE_DUP, 0 none (R387). -/
def dlkCause (s : State) (p : Nat) (node : Nat) (nodes : Word) : Nat :=
  if nodes &&& nodesBeyond s p ≠ 0 then 1 else if node = timeNode s ∨ nodes.getLsbD (timeNode s) = true then 2 else 0

/-- A port enters FAULT. -/
def dlkFault (s : State) (p cause : Nat) : State :=
  let s1 := wf (wb (setSt s .dlk p .fault) .dlk p Reg.DLK.STAT 2 (cause == 1)) .dlk p Reg.DLK.STAT 16 2 cause
  let s2 := if (s.page (pk .dlk p)).busy then opFail s1 .dlk p .wrongState 0x010 else s1
  setInt (dlkShow (setDlk s2 p { dlkOf s2 p with recs := [], evs := [] }) p) .dlk p (3 + cause)

/-- What a good frame shows of the peer: FRAME_CNT, PEER_NODES, MASTER_OK_RX, PEER_NODE and a round trip. -/
def linkSeen (s : State) (p ta : Nat) (f : LinkFrame) : State :=
  let s1 := wr (incWrap s .dlk p Reg.DLK.FRAME_CNT) .dlk p Reg.DLK.PEER_NODES f.nodes
  hopMeasure (wf (wb s1 .dlk p Reg.DLK.STAT 3 f.masterOk) .dlk p Reg.DLK.STAT 8 5 f.node) p ta f

/-- What a port in RUN takes from a good frame. -/
def linkTake (s : State) (p ta : Nat) (f : LinkFrame) : State :=
  let s1 := takeNodes s f.nodes
  let s2 := if isUp s p then takeStep (slaveTime s1 p ta f) f else s1
  let s3 := f.evs.foldl (fun s e => takeEvent s p e) s2
  f.recs.foldl (fun s r => if r.node = timeNode s then s else importRec (forwardRec s p r) r) s3

/-- A frame ends at `t`, its SOF having arrived at `ta` (R389). -/
def linkReceive (s0 : State) (p ta t : Nat) (f : LinkFrame) : State :=
  let s := s0.at t
  if inSt s .dlk p [.run, .update, .fault] && dlkUp s p then
    if linkGood f && f.ver == 1 then
      let s1 := linkSeen s p ta f
      if stOf s .dlk p == .fault then s1
      else
        let c := dlkCause s1 p f.node f.nodes
        if c = 0 then linkTake s1 p ta f else dlkFault s1 p c
    else setInt (incSat s .dlk p Reg.DLK.CRC_CNT) .dlk p 2
  else s

/-! ## Lock, calibration and the page (R393, R399) -/

/-- A slave loses its upstream port (R391). -/
def upLost (s : State) (p : Nat) : State :=
  if isUp s p then wb (wb { s with joinCnt := 0 } .time 0 Reg.TIME.STAT 2 false) .time 0 Reg.TIME.STAT 5 true else s

/-- Frame lock. -/
def linkLock (s0 : State) (p t : Nat) : State :=
  let s := s0.at t
  if inSt s .dlk p [.run, .update, .fault] && !dlkUp s p then
    endRaise (setInt (wb s .dlk p Reg.DLK.STAT 0 true) .dlk p 0) 0x1E .dlk p 0
  else s

/-- Frame lock lost for 4 frames (R399). -/
def linkDown (s0 : State) (p t : Nat) : State :=
  let s := s0.at t
  if inSt s .dlk p [.run, .update, .fault] && dlkUp s p then
    let s1 := wb (wb s .dlk p Reg.DLK.STAT 0 false) .dlk p Reg.DLK.STAT 3 false
    let s2 := setInt (setDlk s1 p { dlkOf s1 p with rx := none }) .dlk p 1
    upLost (if stOf s .dlk p == .fault then s2 else raise s2 0x1E .dlk p 0 0) p
  else s

/-- A calibration ends with the delays it measured (R393). -/
def dlkCalEnd (s : State) (p : Nat) (tx rx : Word) : State :=
  if stOf s .dlk p == .update then
    let s1 := wr (wr (wb (setSt s .dlk p .run) .dlk p Reg.DLK.STAT 1 true) .dlk p Reg.DLK.INT_TX tx) .dlk p Reg.DLK.INT_RX rx
    hopShow (setInt (opDone s1 .dlk p) .dlk p 3) p
  else s

/-- What a DLK page says of its commands. -/
def dlkRule (s : State) (p code : Nat) : Option CmdRule :=
  let busy := (s.page (pk .dlk p)).busy
  match code with
  | 0x01 => some ⟨false, false, firstOf [(!inSt s .dlk p [.idle] || timeRole s == 0, .wrongState)]⟩
  | 0x02 => some ⟨true, false, firstOf [(!inSt s .dlk p [.run, .update], .wrongState)]⟩
  | 0x05 => some ⟨false, false, none⟩
  | 0x06 => some ⟨false, false, firstOf [(!inSt s .dlk p [.fault] ||
      dlkCause s p (rf s .dlk p Reg.DLK.STAT 8 5) (rg s .dlk p Reg.DLK.PEER_NODES) != 0, .wrongState)]⟩
  | 0x07 => some ⟨false, false, firstOf [(!busy, .wrongState)]⟩
  | 0x10 => some ⟨false, true, firstOf [(!inSt s .dlk p [.run] || !dlkUp s p, .wrongState)]⟩
  | _ => none

/-- A port is stopped: nothing of the link stays but what its registers hold. -/
def dlkLeave (s : State) (p : Nat) (st : PgState) : State :=
  let s1 := if (s.page (pk .dlk p)).busy then opFail s .dlk p .wrongState 0x010 else s
  let s2 := wr (setDlk (setSt s1 .dlk p st) p .reset) .dlk p Reg.DLK.STAT (rg s1 .dlk p Reg.DLK.STAT &&& 2)
  endRaise (upLost (dlkShow s2 p) p) 0x1E .dlk p 0

/-- The effect of a DLK command. -/
def dlkAct (s : State) (p code : Nat) : State :=
  match code with
  | 0x01 =>
    let s1 := wr (setDlk (setSt s .dlk p .run) p .reset) .dlk p Reg.DLK.CRC_CNT 0
    dlkShow (wr s1 .dlk p Reg.DLK.STAT (rg s .dlk p Reg.DLK.STAT &&& 2)) p
  | 0x02 => dlkLeave s p .idle
  | 0x06 => dlkLeave s p .idle
  | 0x07 => setSt (opFail s .dlk p .wrongState 0x010) .dlk p .run
  | 0x10 => opStart (setSt s .dlk p .update) .dlk p 1 1 0
  | _ => s

/-- The tests of a staged DLK set (R48, Table 14-7): ASYM is a signed number of 16 bits. -/
def dlkValidate (s : State) (p : Nat) : List (Bool × Nat × ErrCode) :=
  let a := sw (staged s .dlk p Reg.DLK.ASYM)
  [(decide (a < -32768) || decide (32767 < a), Reg.DLK.ASYM, .range)]

/-- After a commit HOP_DELAY follows ASYM. -/
def dlkCommitted (s : State) (p : Nat) : State := if (dlkOf s p).rts.length < 64 then s else hopShow s p

end Sys2Proof.Machine
end

