-- ==== Sys2Proof/Machine/Eth.lean ====
section
/-! DEFINITION. Ethernet and PTP (R381 to R386, R445 to R447): PTP messages, timestamps and corrections, the switch, the rings,
MDIO. -/
namespace Sys2Proof.Machine

/-! ## Frames -/

/-- A byte of a frame, and a big-endian 16-bit field. -/
def fb (f : List Nat) (i : Nat) : Nat := f.getD i 0 % 256
def fb16 (f : List Nat) (i : Nat) : Nat := 256 * fb f i + fb f (i + 1)

/-- Some bytes of a frame as one big-endian number. -/
def fbN (f : List Nat) (i n : Nat) : Nat := (List.range n).foldl (fun v k => 256 * v + fb f (i + k)) 0

/-- A frame with a big-endian field of `n` bytes replaced. -/
def fbPut (f : List Nat) (i n v : Nat) : List Nat :=
  (List.range n).foldl (fun f k => f.set (i + k) (v / 256 ^ (n - 1 - k) % 256)) f

/-- Whether a frame carries an IEEE 802.1Q tag; its Ethertype's place; its PCP, 0 where it has none. -/
def ethTagged (f : List Nat) : Bool := fb16 f 12 == 0x8100
def ethAt (f : List Nat) : Nat := if ethTagged f then 16 else 12
def ethPcp (f : List Nat) : Nat := if ethTagged f then fb f 14 / 32 else 0

/-- Destination and source address, the first octet most significant. -/
def ethDst (f : List Nat) : Nat := fbN f 0 6
def ethSrc (f : List Nat) : Nat := fbN f 6 6

/-- Whether an address is of a group. -/
def ethGroup (a : Nat) : Bool := a / 1099511627776 % 2 == 1

/-! ## PTP messages (R382) -/

/-- The transports of a PTP message. -/
inductive PtpOver where
  | l2 | udp4 (sum : Nat) | udp6
  deriving DecidableEq, Repr

/-- Where a PTP message begins in a frame, and its transport. -/
def ptpFind (f : List Nat) : Option (Nat × PtpOver) :=
  let e := ethAt f
  let ip := e + 2
  match fb16 f e with
  | 0x88F7 => some (ip, .l2)
  | 0x0800 =>
    let udp := ip + 4 * (fb f ip % 16)
    if fb f (ip + 9) = 17 ∧ (fb16 f (udp + 2) = 319 ∨ fb16 f (udp + 2) = 320) then some (udp + 8, .udp4 (udp + 6)) else none
  | 0x86DD =>
    let udp := ip + 40
    if fb f (ip + 6) = 17 ∧ (fb16 f (udp + 2) = 319 ∨ fb16 f (udp + 2) = 320) then some (udp + 8, .udp6) else none
  | _ => none

/-- The PTP message a port recognises: in the transports its PORT_CFG enables, while PTP is in RUN (R382). -/
def ptpOf (s : State) (p : Nat) (f : List Nat) : Option (Nat × PtpOver) :=
  let c := rg s .ptp 0 (Reg.PTP.PORT_CFG + 4 * p)
  if stOf s .ptp 0 == .run && bit c 0 then
    match ptpFind f with
    | some (o, .l2) => if bit c 1 then some (o, .l2) else none
    | some (o, .udp4 k) => if bit c 2 then some (o, .udp4 k) else none
    | some (o, .udp6) => if bit c 3 then some (o, .udp6) else none
    | none => none
  else none

/-- messageType and sequenceId of a message at an offset. -/
def ptpType (f : List Nat) (o : Nat) : Nat := fb f o % 16
def ptpSeq (f : List Nat) (o : Nat) : Nat := fb16 f (o + 30)

/-- The sum of four 16-bit fields from an offset. -/
def sum4 (f : List Nat) (o : Nat) : Nat := fb16 f o + fb16 f (o + 2) + fb16 f (o + 4) + fb16 f (o + 6)

/-- The two bytes after the message that keep a UDP checksum valid when its correctionField changes (R384). -/
def udp6Fix (old new : List Nat) (o : Nat) : List Nat :=
  let n := fb16 old (o + 2)
  let d := (sum4 old (o + 8) + 4 * 65535 - sum4 new (o + 8)) % 65535
  let e := if n % 2 = 1 then d % 256 * 256 + d / 256 else d
  fbPut new (o + n) 2 ((fb16 old (o + n) + e) % 65535)

/-- correctionField plus a number of 2⁻¹⁶ ns, the UDP checksum kept valid (R384). -/
def ptpCorrect (f : List Nat) (o : Nat) (ovr : PtpOver) (d : Int) : List Nat :=
  let g := fbPut f (o + 8) 8 (((fbN f (o + 8) 8 : Int) + d) % 18446744073709551616).toNat
  match ovr with
  | .l2 => g
  | .udp4 k => fbPut g k 2 0
  | .udp6 => udp6Fix f g o

/-- A difference of device times in 2⁻¹⁶ ns: a step is 125 ps. -/
def tsDiff (a b : BitVec 35) : Int := 8192 * (a - b).toInt

/-- Receive and transmit timestamps of a frame (R382). -/
def rxTs (s : State) (p t : Nat) : BitVec 35 := devTime t - BitVec.ofInt 35 (sw (rg s .ptp 0 (Reg.PTP.RX_CORR + 4 * p)))
def txTs (s : State) (p t : Nat) : BitVec 35 := devTime t + BitVec.ofInt 35 (sw (rg s .ptp 0 (Reg.PTP.TX_CORR + 4 * p)))

/-! ## The transmit timestamp queues (R383, R386) -/

/-- The queue of a port. -/
def txqOf (s : State) (p : Nat) : List TxqEnt := SMap.get (fun _ => []) s.txq p

/-- The queue of a port, replaced, and its count shown. -/
def setTxq (s : State) (p : Nat) (l : List TxqEnt) : State :=
  wf { s with txq := SMap.set (fun _ => []) s.txq p l } .ptp 0 Reg.PTP.STAT (4 * p) 4 l.length

/-- A frame that asked for a timestamp has left a port. -/
def txqPut (s : State) (p : Nat) (f : List Nat) (ts : BitVec 35) : State :=
  if stOf s .ptp 0 != .run then s
  else
    let e : TxqEnt := match ptpOf s p f with
      | some (o, _) => ⟨ptpSeq f o, ptpType f o, false, ts⟩
      | none => ⟨0, 0, true, ts⟩
    if 8 ≤ (txqOf s p).length then
      setInt (wb (incSat s .ptp 0 (Reg.PTP.TXQ_LOST + 16 * p)) .ptp 0 Reg.PTP.STAT (16 + p) true) .ptp 0 (3 + p)
    else setInt (setTxq s p (txqOf s p ++ [e])) .ptp 0 p

/-- The key word of an entry (Table 14-6); the key fields of a frame that is not PTP are 0. -/
def TxqEnt.key (e : TxqEnt) (p : Nat) : Word :=
  ofN ((if e.nonPtp then 0 else e.seq + 65536 * e.msg + 1048576 * p) + 16777216 * b2n e.nonPtp + 2147483648)

/-- A read of TXQ_KEY: the oldest entry leaves and its time stands beside it. -/
def txqRead (s : State) (p : Nat) : State × Word :=
  match txqOf s p with
  | [] => (s, 0)
  | e :: l => (wrTs (setTxq s p l) .ptp 0 (Reg.PTP.TXQ_TS_LO + 16 * p) e.ts, e.key p)

/-- TXQ_FLUSH empties the three queues. -/
def txqFlush (s : State) : State :=
  let s1 := [0, 1, 2].foldl (fun s p => wr (setTxq s p []) .ptp 0 (Reg.PTP.TXQ_LOST + 16 * p) 0) s
  wf s1 .ptp 0 Reg.PTP.STAT 16 3 0

/-- What PTP says of its commands, and their effect. -/
def ptpRule (code : Nat) : Option CmdRule :=
  if code = 5 ∨ code = 0x10 then some ⟨false, true, none⟩ else none
def ptpAct (s : State) (code : Nat) : State := if code = 0x10 then txqFlush s else s

/-- The tests of a staged PTP set. -/
def ptpValidate (s : State) : List (Bool × Nat × ErrCode) :=
  let bad (o : Nat) : Bool := let v := sw (staged s .ptp 0 o); v < -32768 || 32767 < v
  (stf s .ptp 0 Reg.PTP.CFG 0 2 == 3, Reg.PTP.CFG, .range) ::
    [0, 1, 2].flatMap (fun p => [(bad (Reg.PTP.RX_CORR + 4 * p), Reg.PTP.RX_CORR + 4 * p, ErrCode.range),
      (bad (Reg.PTP.TX_CORR + 4 * p), Reg.PTP.TX_CORR + 4 * p, ErrCode.range),
      (bit (staged s .ptp 0 (Reg.PTP.PORT_CFG + 4 * p)) 0 && !powered s .eth p, Reg.PTP.PORT_CFG + 4 * p, ErrCode.notPresent)])

/-! ## Rings (R447) -/

/-- Where a ring's present descriptor lies: `r` is the offset of the ring's LO register. -/
def ringAt (s : State) (p r : Nat) : Nat := rgU64 s .eth p r + 32 * (rg s .eth p (r + 16)).toNat

/-- Whether `n` bytes lie where rings and buffers may: shared SRAM or the application-core partition. -/
def bufOk (s : State) (a n : Nat) : Bool := inSram a n || (inAp s a n && dramUp s a && dramUp s (a + n - 1))

/-- Whether a ring has a descriptor its port owns. -/
def ringReady (s : State) (p r : Nat) : Bool :=
  rg s .eth p (r + 16) != rg s .eth p (r + 12) && bufOk s (ringAt s p r) 32 && bit (mem32 s (ringAt s p r + 8)) 16

/-- A descriptor is written back and the ring's head moves on. -/
def ringDone (s : State) (p r err len : Nat) : State :=
  let h := (rg s .eth p (r + 16)).toNat + 1
  wr (putMem32 s (ringAt s p r + 12) (ofN (1 + 2 * err + 65536 * (len % 16384)))) .eth p (r + 16)
    (ofN (if (rg s .eth p (r + 8)).toNat ≤ h then 0 else h))

/-- A write of a ring register: base and size not in RUN (R431), values in range. -/
def ringWrite (s : State) (p off : Nat) (v : Word) : State :=
  let r := if off < Reg.ETH.RXR_LO then Reg.ETH.TXR_LO else Reg.ETH.RXR_LO
  if off ≠ r + 12 ∧ stOf s .eth p = .run then rejWr s .eth p .wrongState off
  else if (off = r ∧ v.toNat % 32 ≠ 0) ∨ (off = r + 8 ∧ (fld v 0 13 < 2 ∨ 4096 < fld v 0 13)) ∨
      (off = r + 12 ∧ (rg s .eth p (r + 8)).toNat ≤ fld v 0 12) then rejWr s .eth p .range off
  else rwStore s .eth p off v

/-- The longest frame of a port, with its check sequence (Table 16-8). -/
def ethMax (s : State) (p : Nat) : Nat := if rb s .eth p Reg.ETH.CFG 4 then 9216 else 1522

/-! ## Receiving (R446, R447) -/

/-- A frame for the Orandun reaches the receive ring of its port; without a descriptor it is dropped. `ecc`: the memory errors the
descriptor's words meet (R33, R34); one that cannot be corrected is an access error. -/
def ethHost (s0 : State) (p : Nat) (f : List Nat) (good : Bool) (ts : BitVec 35) (ecc : List (Bool × Nat)) : State :=
  let r := Reg.ETH.RXR_LO
  if !ringReady s0 p r then setInt (incWrap s0 .eth p Reg.ETH.RX_DROP) .eth p 2
  else
    let d := ringAt s0 p r
    let s := eccRead s0 .fixedBlock ecc d 32
    let buf := joinN (mem32 s d) (mem32 s (d + 4))
    let c := mem32 s (d + 8)
    let n := fld c 0 14
    let err := if !bufOk s buf n || eccSpoils ecc d 32 then 1 else if !good then 2 else if n < f.length || ethMax s p < f.length + 4 then 3 else 0
    let s1 := if err = 1 then s else putBytes s buf (f.take n)
    let s2 := putMem32 (putMem32 s1 (d + 16) (tsLo ts)) (d + 20) (tsHi ts)
    let s3 := incWrap (ringDone s2 p r err (min f.length n)) .eth p Reg.ETH.RX_FRAMES
    if bit c 19 then setInt s3 .eth p 1 else s3

/-- The egress queue of a frame at a port (R446): PTP event messages take the highest. -/
def ethQueue (s : State) (p : Nat) (f : List Nat) : Nat :=
  match ptpOf s p f with
  | some (o, _) => if ptpType f o < 4 then 3 else rf s .eth p Reg.ETH.QMAP (2 * ethPcp f) 2
  | none => rf s .eth p Reg.ETH.QMAP (2 * ethPcp f) 2

/-- Whether a port carries frames. -/
def ethUp (s : State) (p : Nat) : Bool := stOf s .eth p == .run && rb s .eth p Reg.ETH.STAT 0

/-- A frame leaves a port. -/
def ethSend (s : State) (p t : Nat) (f : List Nat) : State :=
  if ethUp s p then
    let s1 := incWrap s .eth p Reg.ETH.TX_FRAMES
    { s1 with ethOut := ⟨p, ethQueue s p f, f, devTime t⟩ :: s1.ethOut }
  else s

/-- A forwarded frame with its residence time (R385): `ti` and `te` are its ingress and egress times. -/
def tcCorrect (s : State) (p q ti te : Nat) (f : List Nat) : List Nat :=
  match ptpOf s p f with
  | some (o, ovr) =>
    let ty := ptpType f o
    let d := tsDiff (txTs s q te) (rxTs s p ti)
    match rf s .ptp 0 Reg.PTP.CFG 0 2 with
    | 1 => if ty < 2 then ptpCorrect f o ovr d else f
    | 2 => if ty = 0 then ptpCorrect f o ovr (d + (rg s .ptp 0 (Reg.PTP.LINK_DELAY + 4 * p)).toNat) else f
    | _ => f
  | none => f

/-- Whether a message goes to the host only: Pdelay messages under P2P (R385). -/
def pdelayHost (s : State) (p : Nat) (f : List Nat) : Bool :=
  match ptpOf s p f with
  | some (o, _) => rf s .ptp 0 Reg.PTP.CFG 0 2 == 2 && [2, 3, 10].contains (ptpType f o)
  | none => false

/-- The switch learns the source of a frame (R446); when its 1,024 entries are full, what happens is not stated. -/
def ethLearn (s : State) (p : Nat) (f : List Nat) : State :=
  let a := ethSrc f
  if !rb s .eth 0 Reg.ETH.SW_CFG 1 || ethGroup a then s
  else
    let e : EthAddr := ⟨a, p, s.lap s.now⟩
    let l := s.ethTbl.filter (fun x => x.mac != a)
    if l.length < 1024 then { s with ethTbl := l ++ [e] }
    else if Config.freeBool s.seed then { s.next with ethTbl := l.eraseIdx ((Config.free32 s.seed).toNat % 1024) ++ [e] }
    else s.next

/-- The station address of a port. -/
def ethMac (s : State) (p : Nat) : Nat := joinN (rg s .eth p Reg.ETH.MAC_LO) (rg s .eth p Reg.ETH.MAC_HI)

/-- A good frame of a line port meets the switch. -/
def ethSwitch (s0 : State) (p ti te : Nat) (f : List Nat) (ecc : List (Bool × Nat)) : State :=
  let s := ethLearn s0 p f
  let d := ethDst f
  let ts := rxTs s p ti
  let q := 1 - p
  let out (s : State) : State := ethSend s q te (tcCorrect s p q ti te f)
  if d = ethMac s 0 ∨ d = ethMac s 1 ∨ pdelayHost s p f = true then ethHost s p f true ts ecc
  else if ethGroup d then out (ethHost s p f true ts ecc)
  else match s.ethTbl.find? (fun x => x.mac == d) with
    | some x => if x.port = q then out s else s
    | none => out (ethHost s p f true ts ecc)

/-- A frame arrives at a port at `t`; `good`: its check sequence agrees; `te`: when it leaves the other line port; `ecc`: the errors of the
words its delivery reads. -/
def ethReceive (s0 : State) (p t : Nat) (f : List Nat) (good : Bool) (te : Nat) (ecc : List (Bool × Nat)) : State :=
  let s := s0.at t
  if !ethUp s p || f.length < 60 then s
  else if fb16 f 12 == 0x8808 && good && rb s .eth p Reg.ETH.CFG 3 then s
  else if !good || ethMax s p < f.length + 4 then
    let s1 := if good then s else incWrap s .eth p Reg.ETH.RX_FCS
    if ethDst f = ethMac s p then ethHost s1 p f good (rxTs s p t) ecc else s1
  else if p < 2 then ethSwitch s p t te f ecc
  else if ethDst f = ethMac s p ∨ ethGroup (ethDst f) = true then ethHost s p f true (rxTs s p t) ecc
  else s

/-- Addresses not seen for AGE seconds leave the table; AGE 0 keeps them. -/
def ethAge (s0 : State) (t : Nat) : State :=
  let s := s0.at t
  let a := rf s .eth 0 Reg.ETH.SW_CFG 16 16
  if a = 0 then s else { s with ethTbl := s.ethTbl.filter (fun x => decide (s.lap t < x.seen + perS * a)) }

/-! ## Transmitting (R384, R447) -/

/-- The frame of a descriptor leaves its port: corrected in one step, or its timestamp queued. -/
def ethLeave (s : State) (p t : Nat) (f : List Nat) (c : Word) (ref : BitVec 35) : State :=
  let ts := txTs s p t
  let one := bit c 18
  if one && p < 2 then
    let g := match ptpOf s p f with
      | some (o, ovr) => if ptpType f o = 0 ∨ ptpType f o = 3 then ptpCorrect f o ovr (tsDiff ts ref) else f
      | none => f
    ethSend s p t g
  else
    let s1 := ethSend s p t f
    let s2 := if one || bit c 17 then txqPut s1 p f ts else s1
    if one && stOf s .ptp 0 == .run then setInt s2 .ptp 0 6 else s2

/-- A transmit descriptor's frame leaves its port at `t`; `ecc`: errors of the words read. -/
def ethTransmit (s0 : State) (p t : Nat) (ecc : List (Bool × Nat)) : State :=
  let s := s0.at t
  let r := Reg.ETH.TXR_LO
  if ethUp s p && ringReady s p r then
    let d := ringAt s p r
    let a := joinN (mem32 s d) (mem32 s (d + 4))
    let c := mem32 s (d + 8)
    let n := fld c 0 14
    let s1 := eccRead (eccRead s .fixedBlock ecc d 32) .fixedBlock ecc a n
    let ref : BitVec 35 := BitVec.ofNat 35 (joinN (mem32 s1 (d + 16)) (mem32 s1 (d + 20)))
    let ue := eccSpoils ecc d 32 || eccSpoils ecc a n
    let err := if !bufOk s1 a n || ue then 1 else if ethMax s1 p < n + 4 then 3 else 0
    let s2 := if err = 0 then ethLeave s1 p t (memBytes s1 a n) c ref else s1
    let s3 := ringDone s2 p r err n
    if bit c 19 then setInt s3 .eth p 0 else s3
  else s

/-! ## Link, MDIO and the page (R445, R450) -/

/-- A port's link comes up or goes down. -/
def ethLink (s : State) (p : Nat) (up : Bool) (speed : Nat) (an : Bool) : State :=
  if inSt s .eth p [.idle, .run] then
    setInt (wr s .eth p Reg.ETH.STAT (ofN (if up then 1 + 2 * (speed % 4) + 8 * b2n an else 0))) .eth p 3
  else s

/-- A write of MDIO: on ETH[2] with GO=1 it starts a transfer. -/
def mdioWrite (s : State) (p : Nat) (v : Word) : State :=
  if p < 2 then rejWr s .eth p .notPresent Reg.ETH.MDIO
  else if rb s .eth p Reg.ETH.MDIO 12 then rejWr s .eth p .busy Reg.ETH.MDIO
  else wr s .eth p Reg.ETH.MDIO (v &&& regMask .eth Reg.ETH.MDIO)

/-- The transfer ends with the data read. -/
def mdioDone (s : State) (data : Nat) : State :=
  if powered s .eth 2 && rb s .eth 2 Reg.ETH.MDIO 12 then
    let s1 := if rb s .eth 2 Reg.ETH.MDIO 11 then wf s .eth 2 Reg.ETH.MDIO 16 16 data else s
    setInt (wb s1 .eth 2 Reg.ETH.MDIO 12 false) .eth 2 4
  else s

/-- What an ETH page says of its commands. -/
def ethRule (s : State) (p code : Nat) : Option CmdRule :=
  match code with
  | 0x01 => some ⟨false, true, firstOf [(stOf s .eth p != .idle, .wrongState)]⟩
  | 0x02 => some ⟨true, true, firstOf [(stOf s .eth p != .run, .wrongState)]⟩
  | 0x05 => some ⟨false, true, none⟩
  | _ => none

/-- START and STOP. -/
def ethAct (s : State) (p code : Nat) : State :=
  match code with
  | 0x01 => setSt s .eth p .run
  | 0x02 => setSt s .eth p .idle
  | _ => s

/-- The tests of a staged ETH set. -/
def ethValidate (s : State) (p : Nat) : List (Bool × Nat × ErrCode) :=
  let sp := stf s .eth p Reg.ETH.CFG 0 2
  [((if p < 2 then 1 else 2) < sp, Reg.ETH.CFG, .range),
   (stOf s .eth p == .run && (sp != rf s .eth p Reg.ETH.CFG 0 2 || stf s .eth p Reg.ETH.CFG 4 1 != rf s .eth p Reg.ETH.CFG 4 1),
     Reg.ETH.CFG, .wrongState)]

/-- EN=0: the port is off, its link down. -/
def ethDisabled (s : State) (p : Nat) : State := wr (setSt s .eth p .off) .eth p Reg.ETH.STAT 0

end Sys2Proof.Machine
end

