-- ==== Sys2Proof/Machine/LoopExec.lean ====
section
/-! DEFINITION. The meanings of the loop-core instructions (Table 6-10) and of the loop scheduler's events. -/
namespace Sys2Proof.Machine

/-- NOP (R198), or a 64-bit bundle whose move slots are both disabled (R196, R197): no effect but its cycle. -/
def execLcNop (a : LcAt) (wide : Bool) (s : State) : Res :=
  let len := if wide then 2 else 1
  done (lcIssue s a len false (fun _ _ => LcEff.none) (seqFlow len))

/-- MPY (R198). -/
def execLcMpy (a : LcAt) (mv : Option LcSlots) (an : Fin 4) (da db : Fin 32) (s : State) : Res :=
  done (lcArith s a mv (mpyEff an da db))

/-- MAC (R198). -/
def execLcMac (a : LcAt) (mv : Option LcSlots) (an : Fin 4) (da db : Fin 32) (s : State) : Res :=
  done (lcArith s a mv (macEff an da db))

/-- MSU (R198). -/
def execLcMsu (a : LcAt) (mv : Option LcSlots) (an : Fin 4) (da db : Fin 32) (s : State) : Res :=
  done (lcArith s a mv (msuEff an da db))

/-- PMAC (R198). -/
def execLcPmac (a : LcAt) (mv : Option LcSlots) (an : Fin 4) (da db dd : Fin 32) (s : State) : Res :=
  done (lcArith s a mv (pmacEff an da db dd))

/-- CLRA (R198). -/
def execLcClra (a : LcAt) (mv : Option LcSlots) (an : Fin 4) (s : State) : Res :=
  done (lcArith s a mv (clraEff an))

/-- LDA (R198). -/
def execLcLda (a : LcAt) (mv : Option LcSlots) (an : Fin 4) (da : Fin 32) (s : State) : Res :=
  done (lcArith s a mv (ldaEff an da))

/-- ADDA (R198). -/
def execLcAdda (a : LcAt) (mv : Option LcSlots) (an am : Fin 4) (s : State) : Res :=
  done (lcArith s a mv (addaEff an am))

/-- SUBA (R198). -/
def execLcSuba (a : LcAt) (mv : Option LcSlots) (an am : Fin 4) (s : State) : Res :=
  done (lcArith s a mv (subaEff an am))

/-- NEGA (R198). -/
def execLcNega (a : LcAt) (mv : Option LcSlots) (an : Fin 4) (s : State) : Res :=
  done (lcArith s a mv (negaEff an))

/-- ABSA (R198). -/
def execLcAbsa (a : LcAt) (mv : Option LcSlots) (an : Fin 4) (s : State) : Res :=
  done (lcArith s a mv (absaEff an))

/-- SHLA (R173, R198). -/
def execLcShla (a : LcAt) (mv : Option LcSlots) (an : Fin 4) (k : Fin 16) (s : State) : Res :=
  done (lcArith s a mv (shlaEff an k))

/-- SHRA (R198). -/
def execLcShra (a : LcAt) (mv : Option LcSlots) (an : Fin 4) (k : Fin 16) (s : State) : Res :=
  done (lcArith s a mv (shraEff an k))

/-- SATA (R198). -/
def execLcSata (a : LcAt) (mv : Option LcSlots) (an : Fin 4) (s : State) : Res :=
  done (lcArith s a mv (sataEff an))

/-- RNDA (R198). -/
def execLcRnda (a : LcAt) (mv : Option LcSlots) (an : Fin 4) (s : State) : Res :=
  done (lcArith s a mv (rndaEff an))

/-- MOVA (R175, R198). -/
def execLcMova (a : LcAt) (mv : Option LcSlots) (dd : Fin 32) (an : Fin 4) (s : State) : Res :=
  done (lcArith s a mv (movaEff dd an))

/-- ADD (R176, R198). -/
def execLcAdd (a : LcAt) (mv : Option LcSlots) (dd da db : Fin 32) (s : State) : Res :=
  done (lcArith s a mv (addEff dd da db))

/-- SUB (R176, R198). -/
def execLcSub (a : LcAt) (mv : Option LcSlots) (dd da db : Fin 32) (s : State) : Res :=
  done (lcArith s a mv (subEff dd da db))

/-- ADDS (R176, R198). -/
def execLcAdds (a : LcAt) (mv : Option LcSlots) (dd da db : Fin 32) (s : State) : Res :=
  done (lcArith s a mv (addsEff dd da db))

/-- SUBS (R176, R198). -/
def execLcSubs (a : LcAt) (mv : Option LcSlots) (dd da db : Fin 32) (s : State) : Res :=
  done (lcArith s a mv (subsEff dd da db))

/-- NEG (R176, R198). -/
def execLcNeg (a : LcAt) (mv : Option LcSlots) (dd da : Fin 32) (s : State) : Res :=
  done (lcArith s a mv (negEff dd da))

/-- ABS (R176, R198). -/
def execLcAbs (a : LcAt) (mv : Option LcSlots) (dd da : Fin 32) (s : State) : Res :=
  done (lcArith s a mv (absEff dd da))

/-- AND (R198). -/
def execLcAnd (a : LcAt) (mv : Option LcSlots) (dd da db : Fin 32) (s : State) : Res :=
  done (lcArith s a mv (logicEff Nat.land dd da db))

/-- OR (R198). -/
def execLcOr (a : LcAt) (mv : Option LcSlots) (dd da db : Fin 32) (s : State) : Res :=
  done (lcArith s a mv (logicEff Nat.lor dd da db))

/-- XOR (R198). -/
def execLcXor (a : LcAt) (mv : Option LcSlots) (dd da db : Fin 32) (s : State) : Res :=
  done (lcArith s a mv (logicEff Nat.xor dd da db))

/-- MIN (R198). -/
def execLcMin (a : LcAt) (mv : Option LcSlots) (dd da db : Fin 32) (s : State) : Res :=
  done (lcArith s a mv (minEff dd da db))

/-- MAX (R198). -/
def execLcMax (a : LcAt) (mv : Option LcSlots) (dd da db : Fin 32) (s : State) : Res :=
  done (lcArith s a mv (maxEff dd da db))

/-- CMP (R198). -/
def execLcCmp (a : LcAt) (mv : Option LcSlots) (da db : Fin 32) (s : State) : Res :=
  done (lcArith s a mv (cmpEff da db))

/-- CLIP (R198). -/
def execLcClip (a : LcAt) (mv : Option LcSlots) (dd da db : Fin 32) (s : State) : Res :=
  done (lcArith s a mv (clipEff dd da db))

/-- SHL (R176, R198); the C of a shift by 0 is a free value. -/
def execLcShl (a : LcAt) (mv : Option LcSlots) (dd da : Fin 32) (k : Fin 16) (s : State) : Res :=
  done (lcArith s a mv (shlEff dd da k (freeC s))).next

/-- SHR (R198); the C of a shift by 0 is a free value. -/
def execLcShr (a : LcAt) (mv : Option LcSlots) (dd da : Fin 32) (k : Fin 16) (s : State) : Res :=
  done (lcArith s a mv (shrEff dd da k (freeC s))).next

/-- SHRL (R198); the C of a shift by 0 is a free value. -/
def execLcShrl (a : LcAt) (mv : Option LcSlots) (dd da : Fin 32) (k : Fin 16) (s : State) : Res :=
  done (lcArith s a mv (shrlEff dd da k (freeC s))).next

/-- MOV (R198). -/
def execLcMov (a : LcAt) (rd rs : Fin 64) (s : State) : Res :=
  done (lcIssue s a 1 false (fun _ x => movEff rd rs x) (seqFlow 1))

/-- MVC to a control register (R170, Table 6-2). -/
def execLcMvcToControl (a : LcAt) (ctl rs : Fin 64) (s : State) : Res :=
  done (lcIssue s a 1 false (mvcToEff ctl rs) (seqFlow 1)).next

/-- MVC from a control register (R170, Table 6-2). -/
def execLcMvcFromControl (a : LcAt) (rd ctl : Fin 64) (s : State) : Res :=
  done (lcIssue s a 1 false (mvcFromEff rd ctl) (seqFlow 1)).next

/-- CLRF (R177). -/
def execLcClrf (a : LcAt) (s : State) : Res := done (lcIssue s a 1 false (fun _ x => clrfEff x) (seqFlow 1))

/-- ROT (R189). -/
def execLcRot (a : LcAt) (s : State) : Res := done (lcIssue s a 1 false (fun _ x => rotEff x) (seqFlow 1))

/-- The memory an instruction names: 1 X, 2 Y. -/
def lcSide (y : Bool) : Nat := if y then 2 else 1

/-- LD (R181). -/
def execLcLd (a : LcAt) (y : Bool) (p am : Fin 8) (ofs : BitVec 11) (reg : Fin 64) (s : State) : Res :=
  done (lcIssue s a 1 false (ldEff a.core (lcSide y) p am ofs.toInt reg) (seqFlow 1))

/-- ST (R181). -/
def execLcSt (a : LcAt) (y : Bool) (p am : Fin 8) (ofs : BitVec 11) (reg : Fin 64) (s : State) : Res :=
  done (lcIssue s a 1 false (fun _ x => stEff a.core (lcSide y) p am ofs.toInt reg x) (seqFlow 1))

/-- LDP (R180). -/
def execLcLdp (a : LcAt) (y : Bool) (p am : Fin 8) (ofs : BitVec 11) (reg : Fin 64) (s : State) : Res :=
  done (lcIssue s a 1 false (ldpEff a.core (lcSide y) p am ofs.toInt reg) (seqFlow 1))

/-- STP (R180). -/
def execLcStp (a : LcAt) (y : Bool) (p am : Fin 8) (ofs : BitVec 11) (reg : Fin 64) (s : State) : Res :=
  done (lcIssue s a 1 false (fun _ x => stpEff a.core (lcSide y) p am ofs.toInt reg x) (seqFlow 1))

/-- The word of an active move slot (Table 6-9). -/
def slotRaw (st pair xch : Bool) (p : Fin 8) (am : Fin 4) (d : Fin 32) : BitVec 16 :=
  BitVec.ofNat 16 (32768 + 16384 * b2n st + 8192 * b2n pair + 1024 * p.val + 256 * am.val + 8 * d.val + 4 * b2n xch)

/-- A 64-bit bundle with move slots alone (R196): the named slot and the other one. -/
def lcSlotBundle (s : State) (a : LcAt) (y : Bool) (raw other : BitVec 16) : State :=
  let m : LcSlots := if y then ⟨other, raw⟩ else ⟨raw, other⟩
  lcIssue s a 2 false (fun s x => slotsEff s a.core.val x m) (seqFlow 2)

/-- A move slot that loads (R197). -/
def execLcMoveSlotLoad (a : LcAt) (y pair : Bool) (p : Fin 8) (am : Fin 4) (d : Fin 32) (other : BitVec 16) (s : State) : Res :=
  done (lcSlotBundle s a y (slotRaw false pair false p am d) other)

/-- A move slot that stores (R197). -/
def execLcMoveSlotStore (a : LcAt) (y pair : Bool) (p : Fin 8) (am : Fin 4) (d : Fin 32) (other : BitVec 16) (s : State) : Res :=
  done (lcSlotBundle s a y (slotRaw true pair false p am d) other)

/-- An exchange slot (R197). -/
def execLcMoveSlotExchange (a : LcAt) (y : Bool) (p : Fin 8) (am : Fin 4) (d : Fin 32) (other : BitVec 16) (s : State) : Res :=
  done (lcSlotBundle s a y (slotRaw true false true p am d) other)

/-- IN (R204). -/
def execLcIn (a : LcAt) (reg : Fin 64) (port : Fin 2048) (s : State) : Res := done (lcInOp s a reg port)

/-- OUT (R203, R204). -/
def execLcOut (a : LcAt) (reg : Fin 64) (port : Fin 2048) (s : State) : Res := done (lcOutOp s a reg port)

/-- FTAP (R199). -/
def execLcFtap (a : LcAt) (clr : Bool) (an : Fin 4) (px py : Fin 8) (s : State) : Res :=
  done (lcIssue s a 1 false (ftapEff a.core clr an px py) (seqFlow 1))

/-- BR (R188). -/
def execLcBr (a : LcAt) (cond : Fin 16) (tgt : BitVec 14) (s : State) : Res := done (lcBranch s a cond tgt.toNat)

/-- CALL (R188). -/
def execLcCall (a : LcAt) (cond : Fin 16) (tgt : BitVec 14) (s : State) : Res := done (lcCallTo s a cond tgt.toNat)

/-- RET (R188). -/
def execLcRet (a : LcAt) (cond : Fin 16) (s : State) : Res := done (lcReturn s a cond)

/-- RETI (R194). -/
def execLcReti (a : LcAt) (cond : Fin 16) (s : State) : Res := done (lcRetiOp s a cond)

/-- BREAK (R191). -/
def execLcBreak (a : LcAt) (cond : Fin 16) (s : State) : Res := done (lcBreakOut s a cond)

/-- TEND (R203). -/
def execLcTend (a : LcAt) (cond : Fin 16) (s : State) : Res := done (lcTendOp s a cond)

/-- TRAP (R195). -/
def execLcTrap (a : LcAt) (cond n : Fin 16) (s : State) : Res := done (lcTrapOp s a cond n)

/-- BREP (R190): the count is the immediate, or the low 16 bits of a data register. -/
def execLcBrep (a : LcAt) (reg : Option (Fin 32)) (cnt : BitVec 16) (rot : Bool) (last : BitVec 8) (s : State) : Res :=
  let n (x : LcSt) : Nat := match reg with
    | some r => x.d r % 65536
    | none => cnt.toNat
  done (lcRepeat s a n rot last.toNat)

/-- A repeat's count runs out (R190). -/
def execLcBrepLoopEnd (c : Fin 18) (s : State) : Res := done (lcLoopOver s c)

/-- MOVI (R198). -/
def execLcMovi (a : LcAt) (reg : Fin 64) (imm : BitVec 20) (s : State) : Res :=
  done (lcIssue s a 1 false (fun _ x => moviEff reg imm.toInt x) (seqFlow 1))

/-- LDI (R198): a 64-bit bundle. -/
def execLcLdi (a : LcAt) (reg : Fin 64) (imm : Word) (s : State) : Res :=
  done (lcIssue s a 2 false (fun _ x => ldiEff reg imm x) (seqFlow 2))

/-- LDC (R170): a 64-bit bundle. -/
def execLcLdc (a : LcAt) (ctl : Fin 64) (imm : Word) (s : State) : Res :=
  done (lcIssue s a 2 false (fun _ x => ldcEff ctl imm x) (seqFlow 2))

/-- An interrupt request enters its level (R192, R193). -/
def execLcInterrupt (c : Fin 18) (v : Fin 32) (s : State) : Res := done (lcInterruptEnter s c v)

/-- A released sample starts (R201, R202). -/
def execSampleStart (c : Fin 18) (gap : Nat) (s : State) : Res := done (lcSampleStart s c gap)

/-- A sample is cut (R206). -/
def execSampleCut (c : Fin 18) (s : State) : Res := done (lcSampleCut s c)

/-- A copy phase of a stitch-over or fail-over ends (R211, R215). -/
def execStitchCopyEnd (lost : List (Fin 8192)) (ecc : List (Bool × Nat)) (s : State) : Res :=
  done (match s.lschOp with
    | some o =>
      let n := imgLen s o.addr
      if o.img ∨ o.op = 2 then copyEnd (eccRead s .fixedBlock ecc o.addr n) (lost.map (fun p => p.val)) (eccSpoils ecc o.addr n)
      else copyEnd s (lost.map (fun p => p.val)) false
    | none => s)

/-- No switch tick came in time (R213). -/
def execStitchTimeout (t : Nat) (s : State) : Res := done (stitchTimeoutAct (s.at t))

/-- A fail-over did not switch in time (R216). -/
def execFailoverTimeout (t : Nat) (s : State) : Res := done (foTimeoutAct (s.at t))

/-- The reload of a RESTART ends (R218). -/
def execLschRestartEnd (t : Nat) (ecc : List (Bool × Nat)) (s : State) : Res :=
  done (let s0 := s.at t
    let s1 := (insts .lc).foldl (fun u c =>
      if restarts s0 c && s0.lschOp.any (fun o => o.op == 3 && o.phase == 1) then
        eccRead u .fixedBlock ecc (lcImg s0 c) (imgLen s0 (lcImg s0 c)) else u) s0
    restartEnd s1 (fun a => eccSpoils ecc a (imgLen s0 a)))

/-- A self-test ends (R217). -/
def execLcSelftestEnd (c : Fin 18) (cause : Fin 9) (w : Fin 16384) (s : State) : Res := done (selfTestEnd s c cause w)

end Sys2Proof.Machine
end

