-- ==== Sys2Proof/Machine/Pcie.lean ====
section
/-! DEFINITION. The PCIe endpoint (R425 to R432): MSI-X masking, the DMA channels, link and function-level resets. -/
namespace Sys2Proof.Machine

/-- Whether the endpoint answers: PCIE in RUN and its link up (R426). -/
def pcieUp (s : State) : Bool := stOf s .pcie 0 == .run && rb s .pcie 0 Reg.PCIE.STAT 0

/-! ## MSI-X (R429) -/

/-- A pending vector that is not masked sends its message when some line routed to it is asserted; the pending bit clears. -/
def msixFlush (s : State) (v : Nat) : State :=
  if s.msixPend.getLsbD v && !msixMasked s v then
    let want := (List.range 256).any (fun l =>
      let r := rg s .sys 0 (Reg.SYS.IRQ_ROUTE_V + 8 * l)
      bit r 8 && fld r 0 6 == v && lineOn s l)
    let s1 : State := { s with msixPend := s.msixPend &&& ~~~(1#64 <<< v) }
    if want then { s1 with msixSent := v :: s1.msixSent } else s1
  else s

/-- Every pending vector looked at. -/
def msixFlushAll (s : State) : State := (List.range 64).foldl (fun s v => msixFlush s v) s

/-- The reset value of an MSI-X table word: every vector masked. -/
def msixReset (i : Nat) : Word := if i % 4 = 3 then 1 else 0

/-- A word written to the MSI-X table. -/
def msixWrite (s : State) (i : Nat) (v : Word) : State :=
  let w := if i % 4 = 3 then v &&& 1 else v
  msixFlush { s with msixTbl := SMap.set msixReset s.msixTbl i w } (i / 4)

/-- The function mask set or cleared. -/
def msixFunction (s : State) (on : Bool) : State := msixFlushAll { s with msixMask := on }

/-- A vector unmasked, or with none the function. -/
def msixUnmask (s : State) (v : Option (Fin 64)) : State :=
  match v with
  | some v => msixWrite s (4 * v.val + 3) 0
  | none => msixFunction s false

/-! ## DMA channels (R430 to R432) -/

/-- A register of a channel. -/
def chOff (c off : Nat) : Nat := off + 32 * c
def chRg (s : State) (c off : Nat) : Word := rg s .pcie 0 (chOff c off)
def chWr (s : State) (c off : Nat) (v : Word) : State := wr s .pcie 0 (chOff c off) v

/-- CH_STAT.BUSY follows the ring: descriptors wait while EN=1. -/
def chShow (s : State) (c : Nat) : State :=
  let busy := bit (chRg s c Reg.PCIE.CH_CTRL) 0 && chRg s c Reg.PCIE.CH_HEAD != chRg s c Reg.PCIE.CH_TAIL
  wb s .pcie 0 (chOff c Reg.PCIE.CH_STAT) 0 busy

/-- A channel stops with an error (R431). -/
def chStop (s : State) (c err : Nat) : State :=
  let s1 := wb s .pcie 0 (chOff c Reg.PCIE.CH_CTRL) 0 false
  chShow (wf s1 .pcie 0 (chOff c Reg.PCIE.CH_STAT) 1 3 err) c

/-- A write of a channel register by its rules: the ring's registers only while EN=0 (R431), values in range. -/
def chWrite (s : State) (off : Nat) (v : Word) : State :=
  let c := (off - Reg.PCIE.CH_CTRL) / 32
  let r := off - 32 * c
  let en := bit (chRg s c Reg.PCIE.CH_CTRL) 0
  let ring := r == Reg.PCIE.CH_RING_LO || r == Reg.PCIE.CH_RING_HI || r == Reg.PCIE.CH_SIZE
  if ring && en then rejWr s .pcie 0 .wrongState off
  else if r = Reg.PCIE.CH_RING_LO ∧ v.toNat % 32 ≠ 0 then rejWr s .pcie 0 .range off
  else if r = Reg.PCIE.CH_SIZE ∧ (fld v 0 13 < 2 ∨ 4096 < fld v 0 13) then rejWr s .pcie 0 .range off
  else if r = Reg.PCIE.CH_TAIL ∧ (chRg s c Reg.PCIE.CH_SIZE).toNat ≤ fld v 0 12 then rejWr s .pcie 0 .range off
  else chShow (rwStore s .pcie 0 off v) c

/-- A descriptor (Table 16-3). -/
def dSrc (d : List Word) : Nat := joinN (d.getD 0 0) (d.getD 1 0)
def dDst (d : List Word) : Nat := joinN (d.getD 2 0) (d.getD 3 0)
def dLen (d : List Word) : Nat := fld (d.getD 4 0) 0 25
def dFlag (d : List Word) (i : Nat) : Bool := bit (d.getD 5 0) i

/-- Whether `n` bytes from a device address may be read or written by DMA (R431). -/
def dmaAllows (s : State) (a n : Nat) (write : Bool) : Bool :=
  inSram a n || (0x50000000 ≤ a && a + n ≤ 0x50400000 && !write) || (0x60000000 ≤ a && a + n ≤ 0x60200000) ||
    (inDram a n && dramUp s a && dramUp s (a + n - 1) && dramAllows s .pcieDma a write && dramAllows s .pcieDma (a + n - 1) write)

/-- `n` bytes read from a device address. -/
def dmaRead (s : State) (a n : Nat) : State × List Nat :=
  if regionOf a = .image then
    let r := rangeWords s (a / 4 * 4) ((n + a % 4 + 3) / 4)
    (r.1, ((toBytes r.2).drop (a % 4)).take n)
  else (s, memBytes s a n)

/-- Bytes written to a device address; the pricking stores take whole words (R114). -/
def dmaWrite (s : State) (a : Nat) (l : List Nat) : State :=
  if regionOf a = .pricking then rangeStore s .pcieDma a (toWords l) else putBytes s a l

/-- The address of a channel's present descriptor. -/
def chDescAt (s : State) (c : Nat) : Nat :=
  joinN (chRg s c Reg.PCIE.CH_RING_LO) (chRg s c Reg.PCIE.CH_RING_HI) + 32 * (chRg s c Reg.PCIE.CH_HEAD).toNat

/-- Bytes put where a channel writes: host memory or a device address. -/
def chPut (s : State) (host : Bool) (a : Nat) (l : List Nat) : State :=
  if l = [] then s else if host then { s with hostOut := ⟨a, l⟩ :: s.hostOut } else dmaWrite s a l

/-- Whether a ring that lies in the device lies where rings may. -/
def ringOk (s : State) (a : Nat) : Bool := inSram a 32 || (inAp s a 32 && dramUp s a)

/-- The status of a descriptor written back into its word 6. -/
def chBack (s : State) (c : Nat) (v : Word) : State :=
  let host := bit (chRg s c Reg.PCIE.CH_CTRL) 1
  let a := chDescAt s c
  if !host && !ringOk s a then s else chPut s host (a + 24) (wordBytes v)

/-- A descriptor fails: ERR written back, the channel stopped, INT_RAW.CH_ERR (R431). -/
def chFail (s : State) (c err : Nat) : State := setInt (chStop (chBack s c (ofN (2 * err))) c err) .pcie 0 18

/-- A descriptor completes: its status, then CH_HEAD and the interrupt it asks for (R430). -/
def chDone (s : State) (c : Nat) (irq : Bool) : State :=
  let h := (chRg s c Reg.PCIE.CH_HEAD).toNat + 1
  let s1 := chBack s c 1
  let s2 := chWr s1 c Reg.PCIE.CH_HEAD (ofN (if (chRg s c Reg.PCIE.CH_SIZE).toNat ≤ h then 0 else h))
  chShow (if irq then setInt s2 .pcie 0 c else s2) c

/-- The first uncorrectable word a transfer meets: the bytes moved before it. -/
def ueAt (ecc : List (Bool × Nat)) (a n : Nat) : Option Nat :=
  (ecc.filter (fun (e : Bool × Nat) => e.1 && decide (a ≤ e.2) && decide (e.2 < a + n))).foldl
    (fun (m : Option Nat) e => match m with
      | none => some (e.2 - a)
      | some k => some (min k (e.2 - a))) none

/-- A channel moves the bytes of a descriptor that stands, up to the first error it meets. -/
def chMove (s : State) (c : Nat) (d : List Word) (src : List Nat) (hostErr : Option Nat) (ecc : List (Bool × Nat)) : State :=
  let n := dLen d
  let r := if dFlag d 0 then (s, src.take n) else dmaRead s (dSrc d) n
  let ue := if dFlag d 0 then none else ueAt ecc (dSrc d) n
  match ue, hostErr with
  | some k, some h => chFail (chPut r.1 (dFlag d 1) (dDst d) (r.2.take (min k h))) c (if h < k then 3 else 4)
  | some k, none => chFail (chPut r.1 (dFlag d 1) (dDst d) (r.2.take k)) c 4
  | none, some k => chFail (chPut r.1 (dFlag d 1) (dDst d) (r.2.take k)) c 3
  | none, none => chDone (chPut r.1 (dFlag d 1) (dDst d) r.2) c (dFlag d 2)

/-- A channel processes the descriptor at CH_HEAD (R430, R431). `desc`: its words where the ring lies in host memory; `src`: the
bytes read from the host; `hostErr`: bytes moved before a completion error from the host; `ecc`: errors of the words
read. -/
def dmaStep (s0 : State) (c : Nat) (desc : List Word) (src : List Nat) (hostErr : Option Nat) (ecc : List (Bool × Nat)) : State :=
  if pcieUp s0 && bit (chRg s0 c Reg.PCIE.CH_CTRL) 0 && chRg s0 c Reg.PCIE.CH_HEAD != chRg s0 c Reg.PCIE.CH_TAIL then
    let s := ecc.foldl (eccWord .pcieDma) s0
    let host := bit (chRg s c Reg.PCIE.CH_CTRL) 1
    let a := chDescAt s c
    if !host && !ringOk s a then chFail s c 1
    else
      let d := if host then desc else (List.range 8).map (fun i => mem32 s (a + 4 * i))
      if !host && (ueAt ecc a 32).isSome then chFail s c 4
      else if !dFlag d 31 || dLen d < 4 || 16777216 < dLen d || dLen d % 4 != 0 then chFail s c 2
      else if (!dFlag d 0 && !dmaAllows s (dSrc d) (dLen d) false) || (!dFlag d 1 && !dmaAllows s (dDst d) (dLen d) true) then
        chFail s c 1
      else chMove s c d src hostErr ecc
  else s0

/-! ## Link (R426, R432) -/

/-- Every channel that is enabled stops, its descriptor not written back. -/
def pcieStop (s : State) : State :=
  (List.range 16).foldl (fun s c => if bit (chRg s c Reg.PCIE.CH_CTRL) 0 then chStop s c 5 else s) s

/-- The registers of the channels at their reset values. -/
def chReset (s : State) : State :=
  s.modPage (pk .pcie 0) (fun p => { p with regs := p.regs.filter (fun (e : Nat × Word) => e.1 < Reg.PCIE.CH_CTRL) })

/-- A link-down or hot reset, or a function-level reset (R432). -/
def pcieReset (s : State) (flr : Bool) : State :=
  if stOf s .pcie 0 == .run then
    let s1 := pcieStop s
    if flr then setInt { chReset s1 with msixTbl := [], msixPend := 0, msixMask := false } .pcie 0 17
    else setInt (wr s1 .pcie 0 Reg.PCIE.STAT 0) .pcie 0 16
  else s

/-- The highest speed of the link: PCIE_GEN of the boot configuration, by default 4 (Table 20-4). -/
def pcieGen (s : State) : Nat := if rf s .sys 0 Reg.SYS.BOOT_CFG 4 3 = 0 then 4 else rf s .sys 0 Reg.SYS.BOOT_CFG 4 3

/-- Link training completes, at a speed of at most PCIE_GEN and a width of 1, 2 or 4 lanes (R426, R427); the link trains to no other. -/
def pcieLink (s : State) (speed width : Nat) : State :=
  if stOf s .pcie 0 == .run && decide (1 ≤ speed) && decide (speed ≤ pcieGen s) && [1, 2, 4].contains width then wr s .pcie 0 Reg.PCIE.STAT (ofN (1 + 2 * (speed % 8) + 16 * (width % 8))) else s

/-- What PCIE says of its commands: DISCARD only (R450). -/
def pcieRule (code : Nat) : Option CmdRule := if code = 5 then some ⟨false, true, none⟩ else none

/-- EN=0: the link is disabled and every channel stops as a link-down does (R426). -/
def pcieDisabled (s : State) : State := setSt (setInt (wr (pcieStop s) .pcie 0 Reg.PCIE.STAT 0) .pcie 0 16) .pcie 0 .off

end Sys2Proof.Machine
end

