-- ==== Sys2Proof/Machine/Gpio.lean ====
section
/-! DEFINITION. General-purpose pads (R540 to R542): levels, edges, driven pads. -/
namespace Sys2Proof.Machine

/-- A bit of a bitmap register of GPIO. -/
def gBit (s : State) (base p : Nat) : Bool := rb s .gpio 0 (base + 4 * (p / 32)) (p % 32)

/-- IN shows the level of every pad. -/
def gpioShow (s : State) : State :=
  (List.range 20).foldl (fun s w => wr s .gpio 0 (Reg.GPIO.IN + 4 * w) ((s.padIn >>> (32 * w)).setWidth 32)) s

/-- Whether a pad is driven by OUT (R540). -/
def padDriven (s : State) (p : Nat) : Bool := stOf s .gpio 0 == .run && padFunc s p == 0 && gBit s Reg.GPIO.DIR p

/-- A pad takes a level: IN follows, an enabled edge is recorded and published while the page is in RUN. -/
def padLevel (s : State) (p : Nat) (b : Bool) : State :=
  if s.padIn.getLsbD p = b then s
  else
    let bitp := 1#616 <<< p
    let s1 : State := { s with padIn := if b then s.padIn ||| bitp else s.padIn &&& ~~~bitp }
    let s2 := if powered s1 .gpio 0 then wb s1 .gpio 0 (Reg.GPIO.IN + 4 * (p / 32)) (p % 32) b else s1
    if stOf s2 .gpio 0 == .run && gBit s2 (if b then Reg.GPIO.RISE_EN else Reg.GPIO.FALL_EN) p then
      let s3 := setInt (wb s2 .gpio 0 (Reg.GPIO.EDGE_ST + 4 * (p / 32)) (p % 32) true) .gpio 0 0
      pubIf s3 .gpio 0 .edge (devTime s3.now) (fun e => 4 * e.word == Reg.GPIO.IN + 4 * (p / 32) && e.lsb == p % 32)
    else s2

/-- A level from outside reaches a pad that the page does not drive. -/
def gpioEdge (s : State) (p : Nat) (b : Bool) : State := if padDriven s p then s else padLevel s p b

/-- The pads that are driven stand at OUT. -/
def gpioDrive (s : State) : State :=
  (List.range 616).foldl (fun s p => if padDriven s p then padLevel s p (gBit s Reg.GPIO.OUT p) else s) s

/-- A write of OUT, OUT_SET, OUT_CLR, DIR or another register of GPIO. -/
def gpioWrite (s : State) (off : Nat) (v : Word) : State :=
  let v := v &&& regMask .gpio off
  let out := Reg.GPIO.OUT + off % 0x80
  if Reg.GPIO.OUT_SET ≤ off ∧ off < Reg.GPIO.OUT_SET + 80 then gpioDrive (wr s .gpio 0 out (rg s .gpio 0 out ||| v))
  else if Reg.GPIO.OUT_CLR ≤ off ∧ off < Reg.GPIO.OUT_CLR + 80 then gpioDrive (wr s .gpio 0 out (rg s .gpio 0 out &&& ~~~v))
  else gpioDrive (wr s .gpio 0 off v)

end Sys2Proof.Machine
end

