-- ==== Sys2Proof/Machine/Dio.lean ====
section
/-! DEFINITION. The isolated field inputs and outputs (R472 to R490): refreshes, the field dies, diagnostics, silence. -/
namespace Sys2Proof.Machine

/-- A die, and the interface with a die replaced. -/
def DioSt.die (x : DioSt) (d : Nat) : DioDie := if d = 0 then x.die0 else x.die1
def DioSt.setDie (x : DioSt) (d : Nat) (y : DioDie) : DioSt := if d = 0 then { x with die0 := y } else { x with die1 := y }
def setDio (s : State) (x : DioSt) : State := { s with dio := x }
def setDie (s : State) (d : Nat) (y : DioDie) : State := { s with dio := s.dio.setDie d y }

/-- Registers of the one DIO page. -/
def dRg (s : State) (off : Nat) : Word := rg s .dio 0 off
def dBit (s : State) (off i : Nat) : Bool := rb s .dio 0 off i
def dPut (s : State) (off : Nat) (v : Word) : State := wr s .dio 0 off v
def dSet (s : State) (off i : Nat) (b : Bool) : State := wb s .dio 0 off i b

/-- LEGACY mode is active (R486). -/
def dioLegacy (s : State) : Bool := dBit s Reg.DIO.STAT 12

/-- Whether the interface is enabled with power: refreshes fall. -/
def dioOn (s : State) : Bool := powered s .dio 0 && (s.page (pk .dio 0)).en

/-- The steps of a refresh period. -/
def dioPeriod (s : State) : Nat := 400000 * rf s .dio 0 Reg.DIO.CFG 8 5

/-! ## Outputs (R481, R482) -/

/-- The lead of an output's group, and the outputs of its group. -/
def parOf (w : Word) (o : Nat) : Nat := fld w (2 * (o / 4)) 2
def leadOf (w : Word) (o : Nat) : Nat :=
  match parOf w o with
  | 1 => o / 2 * 2
  | 2 => o / 4 * 4
  | _ => o
def groupOf (w : Word) (o : Nat) : List Nat := (List.range 16).filter (fun p => leadOf w p == leadOf w o)

/-- The level an output is commanded to. -/
def outLevel (s : State) (o : Nat) : Bool :=
  let l := leadOf (dRg s Reg.DIO.PAR) o
  if stOf s .dio 0 == .run then
    let c := dRg s (Reg.DIO.OUT_SRC + 4 * l)
    if fld c 0 2 = 1 then sigBit s (fld c 16 16) else dBit s Reg.DIO.OUT_VAL l
  else dBit s Reg.DIO.SAFE_VAL l

/-- Sixteen levels as a word. -/
def bits16 (f : Nat → Bool) : Nat := (List.range 16).foldl (fun w o => if f o then w + 2 ^ o else w) 0

/-- The commanded levels, and the safe levels of the outputs. -/
def outWord (s : State) : Nat := bits16 (outLevel s)
def safeWord (s : State) : Nat := bits16 (fun o => dBit s Reg.DIO.SAFE_VAL (leadOf (dRg s Reg.DIO.PAR) o))

/-- What a die drives at its outputs: nothing without power or L+, its safe levels while it holds them, else its commands
without the outputs that a diagnostic has switched off. In LEGACY mode the interface drives the coupler pins so (R486). -/
def dieDrive (s : State) (d : Nat) : BitVec 8 :=
  let y := s.dio.die d
  if dioLegacy s then (if y.held then y.safe else y.cmd)
  else if !s.dio.power || dBit s Reg.DIO.STAT (2 + d) then 0
  else (if y.held then y.safe else y.cmd) &&& ~~~(s.dio.off.extractLsb' (8 * d) 8)

/-- The coupler pins DIOO0 to DIOO15 that are assigned to DIO take the levels of the outputs (R486, Table 21-14). -/
def legacyPads (s : State) : State :=
  if dioLegacy s then
    (List.range 16).foldl (fun s o => if padFunc s (584 + o) == 2 then padLevel s (584 + o) ((dieDrive s (o / 8)).getLsbD (o % 8)) else s) s
  else s

/-! ## Conditions of DIO_FIELD (R489) -/

/-- Whether a condition stands. -/
def dioFault (s : State) : Bool :=
  dRg s Reg.DIO.IN_WB != 0 || dRg s Reg.DIO.DIAG_OC_OT != 0 || dRg s Reg.DIO.DIAG_OL_SH != 0 || dRg s Reg.DIO.DIAG_RB != 0 ||
    rf s .dio 0 Reg.DIO.STAT 2 4 != 0 || (stOf s .dio 0 == .fault && rf s .dio 0 Reg.DIO.STAT 8 3 == 4)

/-- DIO_FIELD ends when no condition stands. -/
def dioSettle (s : State) : State := if dioFault s then s else endRaise s 0x21 .dio 0 0

/-- A condition raises DIO_FIELD with its cause and channel. -/
def dioRaise (s : State) (cause ch : Nat) : State := raise s 0x21 .dio 0 0 (cause + 16 * ch)

/-! ## A refresh (R475 to R477, R485) -/

/-- The die that a signal entry's channel belongs to: inputs in IN_STATE and IN_WB, outputs in the others. -/
def chanDie (e : SigEntry) : Nat := if e.word < 0x20C / 4 then e.lsb / 16 else e.lsb % 16 / 8

/-- The signals of a die's channels are published; an input with a wire break stands at its safe value. -/
def diePublish (s : State) (d t : Nat) : State :=
  pubIf s .dio 0 .frame (devTime t) (fun e => chanDie e == d && !(e.word == Reg.DIO.IN_STATE / 4 && dBit s Reg.DIO.IN_WB e.lsb))

/-- The accepted levels of a die's inputs are shown, inverted where IN_CFG asks. -/
def inputShow (s : State) (d : Nat) : State :=
  (List.range 16).foldl (fun s i =>
    let k := 16 * d + i
    dSet s Reg.DIO.IN_STATE k (s.dio.acc.getLsbD k != dBit s (Reg.DIO.IN_CFG + 4 * k) 3)) s

/-- The measurements of a die are shown. -/
def measureShow (s : State) (d lplus : Nat) (volts curs : List Nat) : State :=
  let s1 := wf s .dio 0 Reg.DIO.LPLUS (16 * d) 10 lplus
  let s2 := (List.range 16).foldl (fun s i =>
    let k := 16 * d + i
    wf s .dio 0 (Reg.DIO.IN_VOLT + k / 4 * 4) (8 * (k % 4)) 8 (volts.getD i 0)) s1
  (List.range 8).foldl (fun s i =>
    let o := 8 * d + i
    wf s .dio 0 (Reg.DIO.OUT_CUR + o / 2 * 4) (16 * (o % 2)) 16 (curs.getD i 0)) s2

/-- OL and SHORT clear where their condition no longer stands. -/
def presentClear (s : State) (d : Nat) (ol sh : BitVec 8) : State :=
  (List.range 8).foldl (fun s i =>
    let o := 8 * d + i
    let s1 := if ol.getLsbD i then s else dSet s Reg.DIO.DIAG_OL_SH o false
    if sh.getLsbD i then s1 else dSet s1 Reg.DIO.DIAG_OL_SH (16 + o) false) s

/-- The readback of one output: two refreshes that differ without OC, OT or low L+ set RB. -/
def readback (s : State) (o : Nat) : State :=
  let n := SMap.get (fun _ => 0) s.dio.rb o
  let quiet := !dBit s Reg.DIO.DIAG_OC_OT o && !dBit s Reg.DIO.DIAG_OC_OT (16 + o) && !dBit s Reg.DIO.STAT (2 + o / 8)
  let k := if quiet && dBit s Reg.DIO.OUT_STATE o != dBit s Reg.DIO.OUT_CMD o then n + 1 else 0
  let s1 := setDio s { s.dio with rb := SMap.set (fun _ => 0) s.dio.rb o (min k 2) }
  if k < 2 || dBit s Reg.DIO.DIAG_RB o then s1
  else dioRaise (setInt (dSet s1 Reg.DIO.DIAG_RB o true) .dio 0 2) 6 o

/-- A die that reports SAFE_HELD for the first time (R485). -/
def dieHeld (s : State) (d : Nat) : State :=
  let s1 := setInt (incSat (dSet s Reg.DIO.STAT (4 + d) true) .dio 0 Reg.DIO.SILENT_CNT) .dio 0 4
  let s2 := dioRaise s1 8 d
  if inSt s2 .dio 0 [.off, .idle, .run] then wf (setSt s2 .dio 0 .safe) .dio 0 Reg.DIO.STAT 8 3 3 else s2

/-- Whether SAFE_T has passed at an elapsed time since a die's last good output frame (R484). -/
def DioDie.overdue (y : DioDie) (l : Int) : Bool := decide (y.frame + 8000000 * y.safeT ≤ l)

/-- A die takes the output frame of a refresh: the commands, the safe levels and SAFE_T; it holds its safe outputs once SAFE_T had passed
without one, a frame in the cycle of the expiry included, until a release (R475, R484, R485). -/
def dieTake (s : State) (d t : Nat) : DioDie :=
  let y := s.dio.die d
  { y with frame := s.lap t, held := (y.held || y.overdue (s.lap t)) && !s.dio.release,
           cmd := BitVec.ofNat 8 ((dRg s Reg.DIO.OUT_CMD).toNat / 256 ^ d), safe := BitVec.ofNat 8 (safeWord s / 256 ^ d),
           safeT := rf s .dio 0 Reg.DIO.SAFE_T 0 16 }

/-- A good input frame from a die, which has taken the output frame before it. -/
def dieGood (s : State) (d t : Nat) (pins ol sh : BitVec 8) (lplus : Nat) (volts curs : List Nat) : State :=
  let y1 : DioDie := { dieTake s d t with miss := 0 }
  let held := y1.held
  let was := dBit s Reg.DIO.STAT (4 + d)
  let s1 := dSet (setDie s d y1) Reg.DIO.STAT d true
  let s2 := wf (measureShow (inputShow s1 d) d lplus volts curs) .dio 0 Reg.DIO.OUT_STATE (8 * d) 8 pins.toNat
  let s3 := (List.range 8).foldl (fun s i => readback s (8 * d + i)) (presentClear s2 d ol sh)
  let s4 := if held && !was then dieHeld s3 d else if !held then dSet s3 Reg.DIO.STAT (4 + d) false else s3
  diePublish s4 d t

/-- What a die answers at a refresh; without power it is silent. A die whose answer is bad has taken the output frame (log entry 106). -/
def dieAnswer (s : State) (d t : Nat) (a : DieAns) : State :=
  let y := s.dio.die d
  match (if s.dio.power then a else .silent) with
  | .silent => setDie s d { y with miss := y.miss + 1 }
  | .bad =>
    setInt (incSat (setDie s d { dieTake s d t with miss := y.miss + 1 }) .dio 0 Reg.DIO.FRAME_ERR) .dio 0 6
  | .good pins ol sh lplus volts curs => dieGood s d t pins ol sh lplus volts curs

/-- A refresh of the coupler pins: inputs are shown and published, outputs read back (R486). -/
def legacyAnswer (s : State) (d t : Nat) (a : DieAns) : State :=
  let s1 := inputShow (setDie s d { dieTake s d t with held := false }) d
  let s2 := match a with
    | .good pins _ _ _ _ _ => wf s1 .dio 0 Reg.DIO.OUT_STATE (8 * d) 8 pins.toNat
    | _ => s1
  diePublish ((List.range 8).foldl (fun s i => readback s (8 * d + i)) s2) d t

/-- Whether a refresh falls at an extended time. -/
def refreshAt (s : State) (t : Nat) : Bool := dioOn s && t % dioPeriod s == 0

/-- A die is lost: FAULT with cause DIE_LOST, the signals of its inputs safe, DIO_FIELD (R473, R475). -/
def loseDie (s : State) (d : Nat) : State :=
  let s1 := wf (dSet (setSt s .dio 0 .fault) Reg.DIO.STAT d false) .dio 0 Reg.DIO.STAT 8 3 4
  dioRaise (safeIf (setInt s1 .dio 0 5) .dio 0 (fun e => e.word < 0x20C / 4 && e.lsb / 16 == d)) 9 d

/-- Whether a die that was up has missed 3 refreshes in a row (R475). -/
def dieMissed (s : State) (d : Nat) : Bool := dBit s Reg.DIO.STAT d && decide (3 ≤ (s.dio.die d).miss)

/-- A refresh, after its commit boundary. -/
def fieldRefresh (s : State) (t : Nat) (a0 a1 : DieAns) : State :=
  let s1 := dPut (if s.dio.clear then setDio s { s.dio with off := 0 } else s) Reg.DIO.OUT_CMD (ofN (outWord s))
  let s2 := if dioLegacy s then legacyAnswer (legacyAnswer s1 0 t a0) 1 t a1 else dieAnswer (dieAnswer s1 0 t a0) 1 t a1
  let s3 := setDio s2 { s2.dio with clear := false, release := false }
  let s4 := [0, 1].foldl (fun s d => if dieMissed s d && !dioLegacy s then loseDie s d else s) s3
  let up := rf s4 .dio 0 Reg.DIO.STAT 0 2 == 3
  legacyPads (dioSettle (if stOf s4 .dio 0 == .off && up && !dioLegacy s4 then setSt s4 .dio 0 .idle else s4))

/-- A die has not answered for 3 refreshes, or not within 20 ms of EN=1 (R473, R475). -/
def dieLost (s0 : State) (d t : Nat) : State :=
  let s := s0.at t
  let late := !dBit s Reg.DIO.STAT d && stOf s .dio 0 == .off && decide (s.dio.enAt + 160000000 ≤ s.lap t)
  if dioOn s && !dioLegacy s && (late || dieMissed s d) then loseDie s d else s

/-! ## What the dies report (R474, R479, R480, R483, R484) -/

/-- Whether a die reports: powered, in a page that is enabled. -/
def dieReports (s : State) : Bool := dioOn s && s.dio.power && !dioLegacy s

/-- A die, or in LEGACY mode the interface, accepts a level of an input. -/
def inputAccept (s : State) (i : Nat) (level : Bool) : State :=
  if dioOn s && (s.dio.power || dioLegacy s) then
    let w := s.dio.acc
    setDio s { s.dio with acc := if level then w ||| (1#32 <<< i) else w &&& ~~~(1#32 <<< i) }
  else s

/-- A wire break, and its end. -/
def wireBreak (s : State) (i : Nat) : State :=
  if dieReports s && dBit s (Reg.DIO.IN_CFG + 4 * i) 2 && !dBit s Reg.DIO.IN_WB i then
    let s1 := setInt (dSet s Reg.DIO.IN_WB i true) .dio 0 0
    dioRaise (safeIf s1 .dio 0 (fun e => e.word == Reg.DIO.IN_STATE / 4 && e.lsb == i)) 7 i
  else s
def wireClear (s : State) (i : Nat) : State :=
  if dieReports s && dBit s Reg.DIO.IN_WB i then dioSettle (setInt (dSet s Reg.DIO.IN_WB i false) .dio 0 1) else s

/-- The outputs of an output's group switched off or back on. -/
def groupOff (s : State) (o : Nat) (b : Bool) : State :=
  let m := (groupOf (dRg s Reg.DIO.PAR) o).foldl (fun (w : BitVec 16) p => w ||| (1#16 <<< p)) 0
  setDio s { s.dio with off := if b then s.dio.off ||| m else s.dio.off &&& ~~~m }

/-- The outputs of an output's group go on again where none of them has OC or OT standing (R482, R483). -/
def groupOn (s : State) (o : Nat) : State :=
  if (groupOf (dRg s Reg.DIO.PAR) o).any (fun p => dBit s Reg.DIO.DIAG_OC_OT p || dBit s Reg.DIO.DIAG_OC_OT (16 + p)) then s else groupOff s o false

/-- The register and the bit of a diagnostic: 0 OC, 1 OT, 2 OL, 3 SHORT. -/
def diagReg (kind : Nat) : Nat := if kind < 2 then Reg.DIO.DIAG_OC_OT else Reg.DIO.DIAG_OL_SH
def diagBit (o kind : Nat) : Nat := if kind % 2 = 0 then o else 16 + o

/-- Whether the condition of a diagnostic can stand on an output: open load only commanded on, a short to L+ only commanded off
(Table 18-2). -/
def diagPossible (s : State) (o kind : Nat) : Bool :=
  match kind with
  | 2 => dBit s Reg.DIO.OUT_CMD o
  | 3 => !dBit s Reg.DIO.OUT_CMD o
  | _ => true

/-- An output diagnostic: its bit, what it switches off, DIO_FIELD. -/
def outputDiag (s : State) (o kind : Nat) : State :=
  if dieReports s && diagPossible s o kind then
    let s1 := setInt (dSet s (diagReg kind) (diagBit o kind) true) .dio 0 2
    dioRaise (if kind < 2 then groupOff s1 o true else s1) (2 + kind) o
  else s

/-- With OC_RETRY=1 an overcurrent output that is commanded on is tried again; a retry that holds clears the bit. -/
def ocRetry (s : State) (o : Nat) (holds : Bool) : State :=
  if dieReports s && dBit s Reg.DIO.CFG 24 && dBit s Reg.DIO.DIAG_OC_OT o && dBit s Reg.DIO.OUT_CMD o && holds then
    dioSettle (groupOn (dSet s Reg.DIO.DIAG_OC_OT o false) o)
  else s

/-- With OC_RETRY=1 an output shut off for over-temperature comes on again below 135 °C. -/
def otRecover (s : State) (o : Nat) : State :=
  if dieReports s && dBit s Reg.DIO.CFG 24 && dBit s Reg.DIO.DIAG_OC_OT (16 + o) then
    dioSettle (groupOn (dSet s Reg.DIO.DIAG_OC_OT (16 + o) false) o)
  else s

/-- L+ of a die falls below 18.0 V, and has returned above 19.0 V for 10 ms. -/
def lplusLow (s : State) (d : Nat) : State :=
  if dieReports s && !dBit s Reg.DIO.STAT (2 + d) then dioRaise (setInt (dSet s Reg.DIO.STAT (2 + d) true) .dio 0 3) 1 d else s
def lplusRestore (s : State) (d : Nat) : State :=
  if dieReports s && dBit s Reg.DIO.STAT (2 + d) then dioSettle (dSet s Reg.DIO.STAT (2 + d) false) else s

/-- SAFE_T without a good output frame: the die holds its safe outputs, whether or not the page has power. -/
def fieldSilence (s0 : State) (d t : Nat) : State :=
  let s := s0.at t
  let y := s.dio.die d
  if (s.dio.power || dioLegacy s) && y.overdue (s.lap t) then legacyPads (setDie s d { y with held := true }) else s

/-- VISO_IN is lost: the transformer drive stops and the dies lose power. -/
def visoLoss (s : State) : State := setDio s { s.dio with power := false, die0 := .reset, die1 := .reset, acc := 0, off := 0 }

/-! ## The page (R473, R486 to R488) -/

/-- What DIO says of its commands. -/
def dioRule (s : State) (code : Nat) : Option CmdRule :=
  let st := stOf s .dio 0
  match code with
  | 0x01 => some ⟨false, false, firstOf [(st != .idle || blocked s .dio 0, .wrongState),
      (dioLegacy s && !padsAre s 2 ((List.range 48).map (fun i => 552 + i)), .conflict)]⟩
  | 0x02 => some ⟨true, false, firstOf [(!inSt s .dio 0 [.run, .safe], .wrongState)]⟩
  | 0x05 => some ⟨false, true, none⟩
  | 0x06 => some ⟨false, false, firstOf [(st != .fault || rf s .dio 0 Reg.DIO.STAT 0 2 != 3, .wrongState)]⟩
  | 0x10 => some ⟨false, true, firstOf [(st == .off, .wrongState)]⟩
  | _ => none

/-- The effect of a DIO command. -/
def dioAct (s : State) (code : Nat) : State :=
  match code with
  | 0x01 => dPut (wf (setSt s .dio 0 .run) .dio 0 Reg.DIO.STAT 8 3 0) Reg.DIO.FRAME_ERR 0
  | 0x02 =>
    let s1 := wf (setSt s .dio 0 .idle) .dio 0 Reg.DIO.STAT 8 3 0
    if rf s .dio 0 Reg.DIO.STAT 4 2 = 0 then s1 else setDio s1 { s1.dio with release := true }
  | 0x06 => dioSettle (wf (setSt s .dio 0 .idle) .dio 0 Reg.DIO.STAT 8 3 0)
  | 0x10 =>
    let s1 := dPut (dPut s Reg.DIO.DIAG_OC_OT 0) Reg.DIO.DIAG_RB 0
    dioSettle (setDio s1 { s1.dio with clear := true, rb := [] })
  | _ => s

/-- EN=1: the drive latch sets and the dies get power, or in LEGACY mode the page is IDLE at once. -/
def dioEnabled (s : State) : State :=
  if dBit s Reg.DIO.CFG 0 then
    let x : DioSt := { s.dio with drive := false, power := false, die0 := .reset, die1 := .reset }
    dSet (setSt (setDio s x) .dio 0 .idle) Reg.DIO.STAT 12 true
  else
    let fresh : DioDie := { DioDie.reset with frame := s.lap s.now }
    let x := s.dio
    let on (y : DioDie) : DioDie := if x.power then { y with miss := 0 } else fresh
    setDio s { x with drive := true, power := true, enAt := s.lap s.now, die0 := on x.die0, die1 := on x.die1 }

/-- After a commit: LEGACY=1 committed while the dies have yet to answer EN=1 takes the drive off them (R473, R486). -/
def dioCommitted (s : State) : State :=
  if (s.page (pk .dio 0)).en && stOf s .dio 0 == .off && dBit s Reg.DIO.CFG 0 then dioEnabled s else s

/-- EN=0: the drive stops and every output turns off. -/
def dioDisabled (s : State) : State :=
  dioSettle (dPut (dPut (dPut (dPut (dPut (setSt (setDio s .reset) .dio 0 .off) Reg.DIO.STAT 0) Reg.DIO.IN_WB 0) Reg.DIO.DIAG_OC_OT 0)
    Reg.DIO.DIAG_OL_SH 0) Reg.DIO.DIAG_RB 0)

/-- THR_OFF of a staged input in 0.25 V codes (Table 18-1). -/
def thrOff (w : Word) : Nat :=
  match fld w 0 2 with
  | 0 => fld w 16 7
  | 1 => 32
  | _ => 28

/-- The tests of one staged input. -/
def inTests (s : State) (i : Nat) : List (Bool × Nat × ErrCode) :=
  let o := Reg.DIO.IN_CFG + 4 * i
  let w := staged s .dio 0 o
  let legacy := bit (staged s .dio 0 Reg.DIO.CFG) 0
  [(120 < fld w 8 7 || 120 < fld w 16 7 || (fld w 0 2 == 0 && fld w 8 7 < fld w 16 7 + 2), o, .range), (legacy && bit w 2, o, .notPresent)]

/-- The tests of one staged output source. -/
def outTests (s : State) (i : Nat) : List (Bool × Nat × ErrCode) :=
  let o := Reg.DIO.OUT_SRC + 4 * i
  let w := staged s .dio 0 o
  let sg := fld w 16 16
  [(2 ≤ fld w 0 2, o, .range),
   ((fld w 0 2 == 1 && sg != 0 && (sigEnt s sg).typ != 3) || (leadOf (staged s .dio 0 Reg.DIO.PAR) i != i && w != 0), o, .conflict)]

/-- The tests of a staged DIO set (R488). -/
def dioValidate (s : State) : List (Bool × Nat × ErrCode) :=
  let r := stf s .dio 0 Reg.DIO.CFG 8 5
  let st := (staged s .dio 0 Reg.DIO.SAFE_T).toNat
  let par := staged s .dio 0 Reg.DIO.PAR
  let legacy := bit (staged s .dio 0 Reg.DIO.CFG) 0
  let wb := stf s .dio 0 Reg.DIO.WB_THR 0 7
  let wt := (staged s .dio 0 Reg.DIO.WB_T).toNat
  let enIns := (List.range 32).filter (fun i => bit (staged s .dio 0 (Reg.DIO.IN_CFG + 4 * i)) 2)
  [(r == 0 || 20 < r, Reg.DIO.CFG, ErrCode.range),
   (stf s .dio 0 Reg.DIO.CFG 0 1 != rf s .dio 0 Reg.DIO.CFG 0 1 && stOf s .dio 0 != .off, Reg.DIO.CFG, .wrongState),
   (st == 0 || 1000 < st || st * 20 < 4 * r, Reg.DIO.SAFE_T, .range),
   ([0, 1, 2, 3].any (fun g => fld par (2 * g) 2 == 3), Reg.DIO.PAR, .range),
   (changed s .dio 0 Reg.DIO.PAR && stOf s .dio 0 == .run, Reg.DIO.PAR, .wrongState),
   (legacy && par != 0, Reg.DIO.PAR, .notPresent),
   (40 < wb || enIns.any (fun i => thrOff (staged s .dio 0 (Reg.DIO.IN_CFG + 4 * i)) ≤ wb), Reg.DIO.WB_THR, .range),
   (wt == 0 || 65535 < wt, Reg.DIO.WB_T, .range)] ++
  (List.range 32).flatMap (inTests s) ++ (List.range 16).flatMap (outTests s)

/-- The signal words of DIO (R477), and whether an entry may name a source there. -/
def dioWords : List Nat :=
  [Reg.DIO.IN_STATE, Reg.DIO.IN_WB, Reg.DIO.OUT_STATE, Reg.DIO.DIAG_OC_OT, Reg.DIO.DIAG_OL_SH, Reg.DIO.DIAG_RB]
def dioSource (word lsb typ : Nat) : Bool :=
  dioWords.contains (4 * word) && typ == 3 && (lsb < 16 || !([Reg.DIO.OUT_STATE, Reg.DIO.DIAG_RB].contains (4 * word)))

end Sys2Proof.Machine
end

