-- ==== Sys2Proof/Machine/Sig.lean ====
section
/-! DEFINITION. The signal-table page (R349 to R354): the entry window, LOAD, and the checks of R17 and R351. -/
namespace Sys2Proof.Machine

/-! ## Sources (R17, R351) -/

/-- Whether an offset is a block register of a page type. -/
def isBlockReg (t : PgTy) (off : Nat) : Bool := (regRow t off).isSome

/-- Whether WORD, LSB and TYPE name a source of a page type. -/
def sourceWord (s : State) (t : PgTy) (inst word lsb typ : Nat) : Bool :=
  match t with
  | .lc => Reg.LC.OUTW ≤ 4 * word && 4 * word < Reg.LC.OUTW + 256 && typ != 2
  | .le => word < 4 && lsb == 0
  | .rseq => (word == 0 && lsb == 0) || (word == 0x41 && ((typ == 1 && lsb == 0) || (typ == 3 && lsb < 16)))
  | .dlk => inst < 32 && inst != timeNode s && word < 256 && lsb == 0
  | .can => word < 64 && lsb == 0
  | .psp => Reg.PSP.RX ≤ 4 * word && isBlockReg .psp (4 * word) && 4 * word < Reg.PSP.RX + 256
  | .dio => dioSource word lsb typ
  | .gpio => 320 ≤ word && 32 * (word - 320) + lsb < 616 && typ == 3
  | .apc => true
  | .enc => isBlockReg t (4 * word)
  | .ssn => isBlockReg t (4 * word)
  | .axis => isBlockReg t (4 * word)
  | .pcmp => isBlockReg t (4 * word)
  | .step => isBlockReg t (4 * word)
  | .cslot => isBlockReg t (4 * word)
  | .pwm => isBlockReg t (4 * word)
  | .fch => isBlockReg t (4 * word)
  | .pcv => isBlockReg t (4 * word)
  | _ => false

/-- The events a source produces for a word. -/
def sourceEvents (s : State) (t : PgTy) (inst word : Nat) : List UpdEv :=
  match t with
  | .enc => [.tick, .edge]
  | .ssn => [.tick, .frame]
  | .axis => [.tick]
  | .pcmp =>
    if 4 * word = Reg.PCMP.FIRE_CNT ∨ (Reg.PCMP.LATCH_POS_LO ≤ 4 * word ∧ 4 * word ≤ Reg.PCMP.MARK_MISS_CNT) then [.edge] else [.tick]
  | .step => [.tick]
  | .lc => [.task]
  | .cslot => [csEvent (rf s .cslot inst Reg.CSLOT.TRIG 0 2)]
  | .pwm => [.pwmEvent]
  | .fch => [.convEnd]
  | .pcv => [.convEnd]
  | .le => [.bench]
  | .rseq => [.step]
  | .dlk => [.frame]
  | .can => [.frame]
  | .psp => [.frame]
  | .dio => [.frame]
  | .gpio => [.tick, .edge]
  | .apc => [.write]
  | _ => []

/-- The tests of an entry, enabled or not, with the window's offsets. -/
def sigTests (s : State) (id : Nat) (e : SigEntry) : List (Bool × Nat × ErrCode) :=
  let o := Reg.SIG.ENT_W
  let old := sigEnt s id
  let held := (e.w0 != old.w0 || e.typ != old.typ) && sigBound s id
  let t := PgTy.ofCode e.pageType
  let many := match t with
    | some t => t != .dlk && t.count ≤ e.inst
    | none => false
  let srcAt (typ : Nat) : Bool := match t with
    | some t => sourceWord s t e.inst e.word e.lsb typ
    | none => false
  let src := srcAt e.typ
  let named := [0, 1, 2, 3].any srcAt
  let ev := match t with
    | some t => (sourceEvents s t e.inst e.word).any (fun u => u.num == e.upd)
    | none => false
  [(31 < e.lsb || many, o, .range), (!named || (held && e.w0 != old.w0), o, .conflict),
   (8 < e.upd, o + 4, .range), (!src || !ev || (held && e.typ != old.typ), o + 4, .conflict)]

/-! ## Sources that stand stopped (R21) -/

/-- The states in which the source of a page type stands stopped by a watchdog or a reaction; the other types go on publishing. -/
def stoppedStates : PgTy → List PgState
  | .enc => [.fault]
  | .ssn => [.fault]
  | .fch => [.fault]
  | .can => [.fault]
  | .pcmp => [.safe, .fault]
  | .step => [.safe, .fault]
  | .cslot => [.safe, .fault]
  | .le => [.safe, .fault]
  | .rseq => [.safe, .fault]
  | .psp => [.safe, .fault]
  | _ => []

/-- Whether the source of an entry stands stopped: its domain is off, or its page is in a state that stops it. A stopped slot goes on
publishing U_OUT (Table 8-5). -/
def sourceStopped (s : State) (e : SigEntry) : Bool :=
  match PgTy.ofCode e.pageType with
  | some t => !powered s t e.inst || (inSt s t e.inst (stoppedStates t) && !(t == .cslot && e.uOut))
  | none => false

/-- An entry that becomes active while its source stands stopped holds its safe value or the last one (R21). -/
def sigStopped (s : State) (id : Nat) : State :=
  if (sigEnt s id).en && sourceStopped s (sigEnt s id) then safeSlot s id else s

/-! ## The window (R350) -/

/-- EN_CNT and HIST_CNT. -/
def sigShow (s : State) : State :=
  let en := s.sigs.filter (fun (x : Nat × SigEntry) => x.2.en)
  let h := en.filter (fun (x : Nat × SigEntry) => x.2.recDiv != 0)
  wr (wr s .sig 0 Reg.SIG.EN_CNT (ofN en.length)) .sig 0 Reg.SIG.HIST_CNT (ofN h.length)

/-- An entry replaced; a changed REC_DIV restarts its count (R352). -/
def sigPut (s : State) (id : Nat) (e : SigEntry) : State :=
  let s1 : State := { s with sigs := SMap.set (fun _ => SigEntry.reset) s.sigs id e }
  let s2 : State := if e.recDiv = (sigEnt s id).recDiv then s1 else { s1 with recCnt := SMap.erase s1.recCnt id }
  incWrap s2 .sig 0 Reg.SIG.CHG_CNT

/-- A write of ENT_ID: the copy of the entry into the window begins. -/
def sigEntId (s : State) (v : Word) : State :=
  let p := s.page (pk .sig 0)
  if p.dirty || p.commit != .none then rejWr s .sig 0 .conflict Reg.SIG.ENT_ID
  else
    let s1 := wr { s with sigCopy := some (fld v 0 16) } .sig 0 Reg.SIG.ENT_ID (v &&& 0xFFFF)
    s1.modPage (pk .sig 0) (fun p => { p with busy := true })

/-- The window's words are those of an entry. -/
def sigWindow (s : State) (e : SigEntry) : State :=
  wr (wr (wr (wr s .sig 0 Reg.SIG.ENT_W e.w0) .sig 0 (Reg.SIG.ENT_W + 4) e.w1) .sig 0 (Reg.SIG.ENT_W + 8) e.w2) .sig 0
    (Reg.SIG.ENT_W + 12) e.w3

/-- The copy ends. -/
def sigCopyEnd (s : State) : State :=
  match s.sigCopy with
  | none => s
  | some id =>
    (sigWindow { s with sigCopy := none } (sigEnt s id)).modPage (pk .sig 0) (fun p =>
      { p with staged := [], dirty := false, busy := s.sigLoad.isSome })

/-- The staged entry. -/
def sigStaged (s : State) : SigEntry :=
  let w (i : Nat) : Word := staged s .sig 0 (Reg.SIG.ENT_W + 4 * i)
  ⟨w 0, w 1, w 2, w 3⟩

/-- The tests of a staged SIG set. -/
def sigValidate (s : State) : List (Bool × Nat × ErrCode) :=
  let id := rf s .sig 0 Reg.SIG.ENT_ID 0 16
  (id == 0, Reg.SIG.ENT_ID, .range) :: sigTests s id (sigStaged s)

/-- The window's entry takes its words; ORPHAN is evaluated (R331). -/
def sigCommitted (s : State) : State :=
  let id := rf s .sig 0 Reg.SIG.ENT_ID 0 16
  frcEval (sigShow (sigStopped (sigPut s id (sigStaged s)) id))

/-! ## LOAD (R353) -/

/-- Whether the operands of LOAD are out of range. -/
def loadRange (s : State) : Bool :=
  let n := rf s .sig 0 Reg.SIG.LOAD_N 0 17
  let f := rf s .sig 0 Reg.SIG.LOAD_FIRST 0 16
  let a := rgU64 s .sig 0 Reg.SIG.LOAD_SRC_LO
  n == 0 || f == 0 || 65536 < f + n || !(inDram a (16 * n) || inSram a (16 * n))

/-- What SIG says of its commands. -/
def sigRule (s : State) (code : Nat) : Option CmdRule :=
  match code with
  | 0x05 => some ⟨false, true, none⟩
  | 0x07 => some ⟨false, true, firstOf [(s.sigLoad.isNone, .wrongState)]⟩
  | 0x10 => some ⟨false, true, firstOf [(loadRange s, .range),
      (s.sigLoad.isSome || (s.page (pk .sig 0)).commit != .none, .busy)]⟩
  | _ => none

/-- LOAD starts: its operands are those of the command. -/
def sigLoadStart (s : State) : State :=
  let l : SigLoad := ⟨rgU64 s .sig 0 Reg.SIG.LOAD_SRC_LO, rf s .sig 0 Reg.SIG.LOAD_FIRST 0 16, rf s .sig 0 Reg.SIG.LOAD_N 0 17,
    rg s .sig 0 Reg.SIG.LOAD_CRC⟩
  opStart { s with sigLoad := some l } .sig 0 3 1 0

/-- The effect of a SIG command. -/
def sigAct (s : State) (code : Nat) : State :=
  match code with
  | 0x07 => setInt (opFail { s with sigLoad := none } .sig 0 .wrongState 0x010) .sig 0 1
  | 0x10 => sigLoadStart s
  | _ => s

/-- An entry of a LOAD table. -/
def loadEntry (s : State) (a i : Nat) : SigEntry :=
  ⟨mem32 s (a + 16 * i), mem32 s (a + 16 * i + 4) &&& 0x3F3, mem32 s (a + 16 * i + 8), mem32 s (a + 16 * i + 12) &&& 0xFFFF⟩

/-- The first failing entry of a LOAD and its code. -/
def loadBad (s : State) (l : SigLoad) : Nat → Option (Nat × ErrCode)
  | 0 => none
  | k + 1 =>
    let i := l.n - (k + 1)
    match firstFail (sigTests s (l.first + i) (loadEntry s l.src i)) with
    | some (_, c) => some (l.first + i, c)
    | none => loadBad s l k

/-- LOAD fails. -/
def loadFail (s : State) (id kind : Nat) (c : ErrCode) : State :=
  setInt (opFail (wr s .sig 0 Reg.SIG.LOAD_ERR (ofN (id + 16777216 * kind))) .sig 0 c 0x010) .sig 0 1

/-- LOAD ends: every entry becomes active together, or none; which ID `LOAD_ERR` shows of a wrong CRC is open. `ecc`: the memory errors the
table's words meet; a table with an uncorrectable word fails its CRC (log entry 34). -/
def sigLoadEnd (s0 : State) (ecc : List (Bool × Nat)) : State :=
  match s0.sigLoad with
  | none => s0
  | some l =>
    let s : State := { eccRead s0 .fixedBlock ecc l.src (16 * l.n) with sigLoad := none }
    if crc32c (memBytes s l.src (16 * l.n)) ≠ l.crc ∨ eccSpoils ecc l.src (16 * l.n) = true then loadFail (setProg s.next .sig 0 3 1 0) ((Config.free32 s.seed).toNat % 65536) 1 .crcMismatch
    else match loadBad s l l.n with
      | some (id, c) => loadFail (setProg s .sig 0 1 2 0) id (if c = .range then 2 else 3) c
      | none =>
        let s1 := (List.range l.n).foldl (fun t i => sigStopped (sigPut t (l.first + i) (loadEntry s l.src i)) (l.first + i)) s
        setInt (opDone (frcEval (sigShow (wr s1 .sig 0 Reg.SIG.LOAD_ERR 0))) .sig 0) .sig 0 0

/-- A soft reset of SIG keeps the table and its counters, and ends a LOAD (R354). -/
def sigSoftReset (s : State) (old : State) : State :=
  let keep (o : Nat) (s : State) : State := wr s .sig 0 o (rg old .sig 0 o)
  let s1 := keep Reg.SIG.EN_CNT (keep Reg.SIG.HIST_CNT (keep Reg.SIG.CHG_CNT s))
  { s1 with sigLoad := none, sigCopy := none }

end Sys2Proof.Machine
end

