-- ==== Sys2Proof/Machine/Ssn.lean ====
section
/-! DEFINITION. Serial sensor channels (R92 to R97). -/
namespace Sys2Proof.Machine

/-- Whether the channel speaks BiSS C-mode. -/
def ssnBiss (s : State) (m : Nat) : Bool := rf s .ssn m Reg.SSN.CFG 0 2 == 2

/-- The number of bits N of a frame (R93). -/
def ssnN (f : Word) : Nat := fld f 16 4 + fld f 8 5 + fld f 0 6 + fld f 24 4

/-- One bit of the frame's CRC: width `w`, polynomial `p` without its top term. -/
def ssnCrcBit (w p c : Nat) (b : Bool) : Nat :=
  let top := decide (2 ^ (w - 1) ≤ c)
  let d := c * 2 % 2 ^ w
  if top != b then Nat.xor d (p % 2 ^ w) else d

/-- The CRC over the first LEAD bit to nW, most significant bit first. -/
def ssnCrc (w p n : Nat) (x : BitVec 64) (ne nw : Bool) : Nat :=
  let l := (List.range n).map (fun i => x.getLsbD (n - 1 - i))
  (l ++ [ne, nw]).foldl (ssnCrcBit w p) 0

/-- Gray code to binary, `n` bits. -/
def grayToBin (n v : Nat) : Nat :=
  (List.range n).foldl (fun acc i =>
    let b := v / 2 ^ (n - 1 - i) % 2
    acc * 2 + Nat.xor (acc % 2) b) 0

/-- The count a frame carries: MT × 2^ST_BITS + ST, counted down from full scale when CFG.INV=1 (R94). DESIGN CHOICE (log entry 168): the
full scale it is counted down from is the greatest code. -/
def ssnCount (s : State) (m : Nat) (x : BitVec 64) : Nat :=
  let f := rg s .ssn m Reg.SSN.FORMAT
  let w := fld f 0 6 + fld f 8 5
  let v := x.toNat / 2 ^ fld f 24 4 % 2 ^ w
  let v1 := if rf s .ssn m Reg.SSN.CFG 0 2 == 1 then grayToBin w v else v
  if rb s .ssn m Reg.SSN.CFG 4 then 2 ^ w - 1 - v1 else v1

/-- TIMEOUT in steps of 125 ps (R92). -/
def ssnTmo (s : State) (m : Nat) : Nat := 800 * rf s .ssn m Reg.SSN.TIMING 16 16

/-- The next bit of CDM_TX: bit 0 first, 0 after 32 frames (R97). -/
def ssnCdmNext (s : State) (m : Nat) : Bool :=
  let k := (ssnOf s m).cdm
  k < 32 && bit (rg s .ssn m Reg.SSN.CDM_TX) k

/-- A trigger starts a frame, or is skipped and counted while one runs or an SSI frame is waited out (R92, R93); a BiSS frame takes its
CDM bit, whose inverse SSNmMA shows in the frame's timeout (R92, R97). With SSNmSL low at its start an SSI frame is a NO_ACK frame,
judged at its end. -/
def ssnStart (s : State) (m t : Nat) : State :=
  if stOf s .ssn m != .run then s
  else if rb s .ssn m Reg.SSN.STAT 4 || decide (s.lap t < (ssnOf s m).free) then setInt (incSat s .ssn m Reg.SSN.SKIP_CNT) .ssn m 6
  else
    let x := ssnOf s m
    let x' := if ssnBiss s m then { x with start := t, cdm := min (x.cdm + 1) 32, ma := !ssnCdmNext s m } else { x with start := t, ma := true }
    wb (setSsn s m x') .ssn m Reg.SSN.STAT 4 true

/-- Whether the PWM module of CFG has its selected event at a time (R93): in up counting both events are one. -/
def ssnPwmAt (s : State) (m t : Nat) : Bool :=
  let c := rg s .ssn m Reg.SSN.CFG
  let x := SMap.get (fun _ => PwmSt.reset) s.pwms (fld c 8 5)
  x.run && (if bit c 13 && rb s .pwm (fld c 8 5) Reg.PWM.CFG 0 then x.mid == some t else x.zero == t)

/-- Whether the trigger CFG.TRIG selects falls at a time and has not been taken: a base tick's, or the PWM event's (R93); TRIGGER starts its
frames itself. -/
def ssnTriggered (s : State) (m t : Nat) : Bool :=
  let x := ssnOf s m
  match rf s .ssn m Reg.SSN.CFG 2 2 with
  | 0 => x.trg == some t
  | 1 => ssnPwmAt s m t && x.took != some t
  | _ => false

/-- A frame starts at its trigger. -/
def ssnFrameAt (s : State) (m t : Nat) : State :=
  if stOf s .ssn m == .run && ssnTriggered s m t then ssnStart (setSsn s m { ssnOf s m with trg := none, took := some t }) m t else s

/-- SPEED and ACCEL read 0 once frames have stopped; the position holds (R96, log entry 126). -/
def ssnRest (s : State) (m : Nat) : State :=
  let s1 := ssnShow s m s.now
  wr64 (wr64 s1 .ssn m Reg.SSN.SPEED_LO 0) .ssn m Reg.SSN.ACCEL_LO 0

/-- A bad frame (R95); `i`: the interrupt bit of its cause. -/
def ssnBad (s : State) (m i : Nat) : State :=
  let x := ssnOf s m
  let s1 := setSsn s m { x with bad := x.bad + 1 }
  let s2 := setInt (wb (incSat s1 .ssn m Reg.SSN.BAD_CNT) .ssn m Reg.SSN.STAT 1 true) .ssn m i
  if rf s2 .ssn m Reg.SSN.LIMITS 0 8 ≤ x.bad + 1 then
    let s3 := safeAll (leadSt (ssnRest s2 m) .ssn m .fault) .ssn m
    raise s3 0x0D .ssn m 0 0
  else s2

/-- A good frame: count, unwrap, observer, publication (R94). DESIGN CHOICE (log entry 169): a difference of exactly half the full scale is
taken as positive. -/
def ssnGood (s : State) (m t : Nat) (f : SsnFrame) (ts : Nat) : State :=
  let x := ssnOf s m
  let fm := rg s .ssn m Reg.SSN.FORMAT
  let full : Int := 2 ^ (fld fm 0 6 + fld fm 8 5)
  let c : Int := ssnCount s m f.bits
  let first := !rb s .ssn m Reg.SSN.STAT 0
  let d := (c - x.raw) % full
  let pos := if first then c else x.pos + (if full < 2 * d then d - full else d)
  let tl := s.lap ts
  let o : Obs := if first then ⟨fine (c * 65536), 0, 0, tl⟩
    else x.o.correct (rg s .ssn m Reg.SSN.OBS_BW).toNat (tl - x.o.t) tl (fine (pos * 65536))
  let s1 := setSsn s m { x with o := o, raw := c, pos := pos, bad := 0 }
  let s2 := wrTs (wr64 s1 .ssn m Reg.SSN.RAW_LO (f.bits.toNat : Nat)) .ssn m Reg.SSN.LATCH_TS_LO (devTime ts)
  let s3 := wb (wb s2 .ssn m Reg.SSN.STAT 0 true) .ssn m Reg.SSN.STAT 1 false
  let s4 := setInt (if f.nw then s3 else setInt s3 .ssn m 4) .ssn m 0
  pubAll (ssnShow s4 m t) .ssn m .frame

/-- The position jump of a frame against the extrapolated position, in counts (R94). DESIGN CHOICE (log entry 170): before the first good frame
there is no extrapolated position and no jump. -/
def ssnJump (s : State) (m ts : Nat) (f : SsnFrame) : Bool :=
  let x := ssnOf s m
  let lim := rf s .ssn m Reg.SSN.LIMITS 8 24
  let fm := rg s .ssn m Reg.SSN.FORMAT
  let full : Int := 2 ^ (fld fm 0 6 + fld fm 8 5)
  let d := ((ssnCount s m f.bits : Int) - x.raw) % full
  let pos := x.pos + (if full < 2 * d then d - full else d)
  lim != 0 && rb s .ssn m Reg.SSN.STAT 0 && decide (fine ((lim : Int) * 65536) < ((fine (pos * 65536) - (x.o.at (s.lap ts)).p).natAbs : Nat))

/-- The start bit of a BiSS frame came within TIMEOUT (R92). -/
def ssnInTime (s : State) (m : Nat) (f : SsnFrame) : Bool := decide (10 * f.delay ≤ ssnTmo s m)

/-- What a BiSS frame whose start bit came leaves: DELAY_MEAS, its CDS bit and its two flags (R92, R97). -/
def ssnTaken (s : State) (m : Nat) (f : SsnFrame) : State :=
  let x := ssnOf s m
  let s1 := wr (wr s .ssn m Reg.SSN.DELAY_MEAS (ofN f.delay)) .ssn m Reg.SSN.CDS_RX
    (ofN (2 * (rg s .ssn m Reg.SSN.CDS_RX).toNat + b2n f.cds))
  let s2 := setSsn s1 m { x with cds := min (x.cds + 1) 32 }
  let s3 := if x.cds + 1 = 32 then setInt s2 .ssn m 7 else s2
  wb (wb s3 .ssn m Reg.SSN.STAT 2 (!f.ne)) .ssn m Reg.SSN.STAT 3 (!f.nw)

/-- No frame runs any more, and SSNmMA idles high (R92). -/
def ssnIdle (s : State) (m : Nat) : State :=
  wb (setSsn s m { ssnOf s m with ma := true }) .ssn m Reg.SSN.STAT 4 false

/-- A received frame ends (R92, R94, R95, R97); `sl`: the level of SSNmSL at the frame's start. A BiSS frame whose start bit came later than
TIMEOUT is a NO_ACK frame, and nothing of it is taken. -/
def ssnEnd (s : State) (m t : Nat) (sl : Bool) (f : SsnFrame) : State :=
  if stOf s .ssn m != .run || !rb s .ssn m Reg.SSN.STAT 4 then s
  else
    let x := ssnOf s m
    let biss := ssnBiss s m
    let sw := if biss then s else setSsn s m { x with free := s.lap t + ssnTmo s m }
    let s0 := ssnIdle sw m
    let s1 := if biss && ssnInTime s m f then ssnTaken s0 m f else s0
    let ts := x.start + (if biss then 5 * f.delay else 5 * rf s .ssn m Reg.SSN.LINE_DELAY 0 12)
    let c := rg s .ssn m Reg.SSN.CRC
    let w := fld c 0 5
    let want := ssnCrc w (fld c 16 16) (ssnN (rg s .ssn m Reg.SSN.FORMAT)) f.bits f.ne f.nw
    let got := if bit c 7 then 2 ^ w - 1 - f.crc.toNat % 2 ^ w else f.crc.toNat % 2 ^ w
    if (if biss then !ssnInTime s m f else !sl) then ssnBad s1 m 2
    else if biss && w != 0 && want != got then ssnBad s1 m 1
    else if biss && !f.ne then ssnBad s1 m 3
    else if ssnJump s1 m ts f then ssnBad s1 m 5
    else ssnGood s1 m t (if biss then f else { f with nw := true }) ts

/-- A start bit or line release of a BiSS frame is missing within TIMEOUT (R92), so not before that time after its start; `f`: what came of
the frame, where its start bit did and the release is missing. -/
def ssnTimeout (s : State) (m t : Nat) (f : Option SsnFrame) : State :=
  if stOf s .ssn m == .run && rb s .ssn m Reg.SSN.STAT 4 && ssnBiss s m && decide ((ssnOf s m).start + ssnTmo s m ≤ t) then
    let s1 := ssnIdle s m
    ssnBad (match f with | some w => if ssnInTime s m w then ssnTaken s1 m w else s1 | none => s1) m 2
  else s

/-- A write of CDM_TX restarts the bit sequence at the next frame (R97). -/
def ssnCdmWrite (s : State) (m : Nat) (v : Word) : State :=
  setSsn (wr s .ssn m Reg.SSN.CDM_TX v) m { ssnOf s m with cdm := 0 }

/-- The CDM bit of the frame in progress, taken at its start (R97). -/
def ssnCdmBit (s : State) (m : Nat) : Bool := !(ssnOf s m).ma

/-- A read of CDS_RX restarts the count for CDS_FULL (R97). -/
def ssnCdsRead (s : State) (m : Nat) : State := setSsn s m { ssnOf s m with cds := 0 }

/-- The count of base ticks to the next tick trigger (R93); a trigger that no frame took by the next tick is past. -/
def ssnDivide (s : State) (m t : Nat) (x : SsnSt) : SsnSt :=
  if rf s .ssn m Reg.SSN.TIMING 0 8 ≤ x.div then { x with div := 0, trg := some t } else { x with div := x.div + 1, trg := none }

/-- A base tick samples the channel (R101), counts towards its trigger and publishes TICK signals in RUN (R90). -/
def ssnTick (s : State) (m t : Nat) : State :=
  let s1 := ssnShow s m t
  let x := { ssnOf s1 m with tickP := rg64 s1 .ssn m Reg.SSN.POS_LO, tickV := rg64 s1 .ssn m Reg.SSN.SPEED_LO,
                             tickA := rg64 s1 .ssn m Reg.SSN.ACCEL_LO }
  if stOf s .ssn m == .run then pubAll (setSsn s1 m (ssnDivide s m t x)) .ssn m .tick else setSsn s1 m x

/-- What the page says of its commands (R96). -/
def ssnRule (s : State) (m code : Nat) : Option CmdRule :=
  let st := stOf s .ssn m
  match code with
  | 0x01 => some ⟨false, false, firstOf [(st != .idle, .wrongState), (!padsAre s 1 (padsOf .ssn m), .conflict)]⟩
  | 0x02 => some ⟨false, false, firstOf [(st != .run, .wrongState)]⟩
  | 0x05 => some ⟨false, false, none⟩
  | 0x06 => some ⟨false, false, firstOf [(st != .fault, .wrongState)]⟩
  | 0x10 => some ⟨false, true, firstOf [(st != .run || rf s .ssn m Reg.SSN.CFG 2 2 != 2, .wrongState)]⟩
  | _ => none

/-- The channel leaves RUN or FAULT: no frame runs, the position holds, the LEVEL source ends with FAULT. -/
def ssnLeave (s : State) (m : Nat) (st : PgState) : State :=
  let s1 := ssnRest s m
  let s2 := ssnIdle (leadSt s1 .ssn m st) m
  if stOf s .ssn m == .fault then endRaise s2 0x0D .ssn m 0 else s2

/-- The effect of a command (R96). -/
def ssnAct (s : State) (m code : Nat) : State :=
  match code with
  | 0x01 =>
    let s1 := wr (wr (wb s .ssn m Reg.SSN.STAT 0 false) .ssn m Reg.SSN.BAD_CNT 0) .ssn m Reg.SSN.SKIP_CNT 0
    setSt (setSsn s1 m { ssnOf s m with bad := 0, div := 0, trg := none, took := none }) .ssn m .run
  | 0x02 => ssnLeave s m .idle
  | 0x06 => ssnLeave s m .idle
  | 0x10 => ssnStart s m s.now
  | _ => s

/-- The tests of a staged set (R93, R96, Tables 3-6 and 3-7). -/
def ssnValidate (s : State) (m : Nat) : List (Bool × Nat × ErrCode) :=
  let c := staged s .ssn m Reg.SSN.CFG
  let f := staged s .ssn m Reg.SSN.FORMAT
  let cr := staged s .ssn m Reg.SSN.CRC
  let tm := staged s .ssn m Reg.SSN.TIMING
  let dv := (staged s .ssn m Reg.SSN.CLKDIV).toNat
  let bw := (staged s .ssn m Reg.SSN.OBS_BW).toNat
  let k := if fld c 0 2 == 2 then 5 + fld cr 0 5 else 1
  let budget := (ssnN f + k) * (dv + 1) * 80 + fld tm 16 16 * 800
  [(fld c 0 2 == 3 || fld c 2 2 == 3, Reg.SSN.CFG, .range),
   (stOf s .ssn m == .run && fld c 0 2 != rf s .ssn m Reg.SSN.CFG 0 2, Reg.SSN.CFG, .wrongState),
   (fld f 0 6 == 0 || 32 < fld f 0 6 || 24 < fld f 8 5 || 64 < ssnN f || 47 < fld f 8 5 + fld f 0 6, Reg.SSN.FORMAT, .range),
   (stOf s .ssn m == .run && changed s .ssn m Reg.SSN.FORMAT, Reg.SSN.FORMAT, .wrongState),
   (dv < 9 || 1999 < dv, Reg.SSN.CLKDIV, .range),
   (fld tm 16 16 == 0, Reg.SSN.TIMING, .range),
   (fld c 2 2 == 0 && (fld tm 0 8 + 1) * 62500 < budget, Reg.SSN.TIMING, .conflict),
   (4095 < (staged s .ssn m Reg.SSN.LINE_DELAY).toNat, Reg.SSN.LINE_DELAY, .range),
   (16 < fld cr 0 5, Reg.SSN.CRC, .range),
   (bw < 10 || 20000 < bw, Reg.SSN.OBS_BW, .range),
   (stf s .ssn m Reg.SSN.LIMITS 0 8 == 0, Reg.SSN.LIMITS, .range)]

end Sys2Proof.Machine
end

