-- ==== Sys2Proof/Machine/Sys.lean ====
section
/-! DEFINITION. Power domains, clocks, resets and start-up (R507 to R521): SYS, PWR and CLK. -/
namespace Sys2Proof.Machine

/-! ## Domains (R510 to R512) -/

/-- The page of a page key, where the directory has one. -/
def pageOf (k : Nat) : Option PageId := (PgTy.ofCode (k / 256)).map (fun t => ⟨t, k % 256⟩)

/-- The domain of a page key; 14, no domain, for a key of no page. -/
def keyDomain (k : Nat) : Nat :=
  match pageOf k with
  | some p => p.ty.domain p.inst
  | none => 14

/-- STAT of PWR follows the domains. -/
def pwrShow (s : State) : State :=
  wr s .pwr 0 Reg.PWR.STAT (ofN (s.dom.toNat + 65536 * b2n (!s.swOff.isEmpty || !s.swOn.isEmpty)))

/-- Every enabled signal whose source lies in a domain takes its safe value (R21, R31). -/
def domainSafe (s : State) (d : Nat) : State :=
  s.sigs.foldl (fun s (x : Nat × SigEntry) =>
    if x.2.en && keyDomain (256 * x.2.pageType + x.2.inst) == d then safeSlot s x.1 else s) s

/-- The LEVEL sources the pages of a domain hold end with them. -/
def domainRelease (s : State) (d : Nat) : State :=
  s.holds.foldl (fun s (h : Hold) =>
    match PgTy.ofCode h.pgType with
    | some t => if t.domain h.inst = d then endRaise s h.src t h.inst h.sub else s
    | none => s) s

/-- The entries of a map whose key is not in a list. -/
def without {β : Type} (m : SMap β) (l : List Nat) : SMap β := m.filter (fun (e : Nat × β) => !l.contains e.1)

/-- Memory without an address range. -/
def memWithout (s : State) (a n : Nat) : State :=
  { s with mem := s.mem.filter (fun (e : Host.Cell) => !(a ≤ e.1 && e.1 < a + n)) }

/-- The state of device time at reset: extended time starts at 0 (R374), elapsed times of PD0 are kept against the new start. -/
def timeReset (s : State) : State :=
  let l : Int := s.lap s.now
  let die (y : DioDie) : DioDie := { y with frame := y.frame - l }
  let pads (y : PwmPair) : PwmPair := { y with hOn := y.hOn - s.now, lOn := y.lOn - s.now }
  { s with now := 0, stepSum := 0, lastStep := (0, 0), tickAt := 0, timeStep := none, stepDone := none, adjAt := none, joinDue := none, joinCnt := 0
           joinOk := false, trgLocal := 0, trgSeen := 0, trgAt := [], trgQ := [], trgDone := [], nodeGap := []
           pwms := s.pwms.map (fun e => (e.1, { e.2 with pairs := e.2.pairs.map pads }))
           vbatBase := vbatTime s, failAt := s.failAt - l
           dio := { s.dio with die0 := die s.dio.die0, die1 := die s.dio.die1 } }

/-- What the hold cells keep of a pair as PD8 goes off: when its outputs may stand at active safe levels (R266). -/
def padsKept (y : PwmPair) : PwmPair := { PwmPair.reset with hOn := y.hOn, lOn := y.lOn }

/-- The slots that the pages of PD8 lead see them leave RUN (R239). -/
def leadersOff (s : State) : State :=
  [PgTy.enc, .ssn, .axis].foldl (fun s t => (insts t).foldl (fun s n => if stOf s t n == .run then leadSt s t n .off else s) s) s

/-- The outputs of PD8 turn to the hold cells. -/
def pwmOffTurn (s : State) : State := if s.pwmClkLost then s else (insts .pwm).foldl (fun s n => pwmTurn s n s.now true) s

/-- The pairs of every module see the slots of PD6 stop (R270). -/
def slotsOff (s : State) : State :=
  (insts .pwm).foldl (fun s n => setPwm s n { pwmOf s n with pairs := (pwmOf s n).pairs.map PwmPair.gone }) s

/-- A slave loses its upstream port with PD11 (R391). -/
def linksOff (s : State) : State := if dlkUp s (timeUpPort s) then upLost s (timeUpPort s) else s

/-- What a domain holds besides its pages is reset (Table 20-2). -/
def domainClear (s : State) (d : Nat) : State :=
  match d with
  | 1 =>
    memWithout { timeReset s with holds := [], recDue := [], fabLog := [], irqMap := [], lschTick := 0, lschZero := false, lschT0 := 0
                                  taskFlags := [], lschOp := none, lschFoQ := [], apRestart := none } 0x10000000 0x1000000
  | 2 => { s with apHalt := 0, dbgHalt := s.dbgHalt.filter (fun e => match e with | .ap _ => false | _ => true) }
  | 6 => { s with cslots := [], ceQ := [], dbgHalt := s.dbgHalt.filter (fun e => match e with | .ce _ => false | _ => true) }
  | 7 =>
    { s with les := [], rseqs := [], sigs := [], slots := [], recCnt := [], frc := [], sigCopy := none, sigLoad := none
             dbgHalt := s.dbgHalt.filter (fun e => match e with | .le _ => false | _ => true) }
  | 8 =>
    memWithout { s with encs := [], ssns := [], pcmps := [], steps := [], axes := [], prkSel := [], ustp := []
                        pwms := s.pwms.map (fun e => (e.1, { PwmSt.reset with pairs := e.2.pairs.map padsKept })) }
      0x60000000 0x200000
  | 9 => { s with fchs := [], fcgs := [] }
  | 10 => { s with pcvs := [] }
  | 11 =>
    { s with msixTbl := [], msixPend := 0, msixMask := false, dlks := [], txq := [], hsp := .reset, msps := [], psps := [], ethTbl := []
             cans := [] }
  | 12 =>
    { s with acqs := [], histPos := 0, histCnt := 0, histWrap := 0, histSec := (0, 0), recExp := none, histQ := [], histLost := none }
  | 13 => { s with dio := { DioSt.reset with drive := s.dio.drive } }
  | _ =>
    let cs := (List.range 6).map (fun i => 6 * (d - 3) + i)
    let s1 : State := { s with lcs := without s.lcs cs
                               dbgHalt := s.dbgHalt.filter (fun e => match e with | .lc c => !cs.contains c.val | _ => true) }
    cs.foldl (fun s c => memWithout s (0x0C000000 + 0x100000 * c) 0x30000) s1

/-- What other domains see of a domain as it goes off. -/
def domainLeave (s : State) (d : Nat) : State :=
  match d with
  | 6 => slotsOff s
  | 8 => leadersOff (pwmOffTurn s)
  | 11 => linksOff s
  | _ => s

/-- A domain goes off: its signals safe, its pages in OFF with nothing pending, its registers and memories lost (R510). SET_CNT of
`FRC` lies in PD0 (R331). -/
def domainOff (s : State) (d : Nat) : State :=
  if s.dom.getLsbD d && d != 0 then
    let cnt := rg s .frc 0 Reg.FRC.SET_CNT
    let s1 := domainRelease (domainSafe (domainLeave s d) d) d
    let s2 := domainClear { s1 with pages := s1.pages.filter (fun (e : Nat × Page) => keyDomain e.1 != d) } d
    let s3 := if d = 7 then wr s2 .frc 0 Reg.FRC.SET_CNT cnt else s2
    pwrShow { s3 with dom := s3.dom &&& ~~~(1#14 <<< d) }
  else s

/-- A domain is on: its pages answer from OFF at their reset values; PD7 has its forces back (R331), PD12 its training (R510), and
the transformer drive of PD13 follows its latch (R473). -/
def domainOn (s : State) (d : Nat) : State :=
  if s.dom.getLsbD d then s
  else
    let s1 := pwrShow { s with dom := s.dom ||| (1#14 <<< d) }
    match d with
    | 1 => gpioShow s1
    | 7 => frcRestore s1
    | 12 => wb (wb { s1 with trained := true } .mem 0 Reg.MEM.STAT 0 true) .mem 1 Reg.MEM.STAT 0 true
    | 13 => setDio s1 { s1.dio with power := s1.dio.drive }
    | _ => s1

/-- The domains of a word that meet a test, ascending. -/
def domList (f : Nat → Bool) : List Nat := ((List.range 13).map (fun i => i + 1)).filter f

/-- Whether a domain has a page at work: the pages that are always enabled apart (R511). -/
def domainBusy (s : State) (d : Nat) : Bool :=
  s.pages.any (fun (e : Nat × Page) =>
    keyDomain e.1 == d && !enCodes.contains (e.1 / 256) && [PgState.run, .hold, .update].contains e.2.st)

/-- The tests of a staged DOM_EN (R31, R511). -/
def pwrValidate (s : State) : List (Bool × Nat × ErrCode) :=
  let n := staged s .pwr 0 Reg.PWR.DOM_EN
  let goes (d : Nat) : Bool := s.dom.getLsbD d && !bit n d
  let r31 := [1, 7].any (fun d => goes d && (domList (fun x => 2 ≤ x && x != d && s.dom.getLsbD x)) != [])
  let ram := (goes 12 && bit n 2) || (bit n 2 && !s.dom.getLsbD 2 && !bit n 12)
  [(r31 || ram || (domList goes).any (domainBusy s), Reg.PWR.DOM_EN, .wrongState)]

/-- Progress of a switching operation, with what it ends with. -/
def switchShow (s : State) : State :=
  let s1 := pwrShow s
  if !s.swOff.isEmpty then s1
  else if !s.swOn.isEmpty then setProg s1 .pwr 0 1 2 ((Config.free32 s.seed).toNat % 10001)
  else opDone s1 .pwr 0

/-- An accepted commit of DOM_EN switches every changed domain: those that go off descending, then those that go on
ascending (R510). -/
def pwrCommitted (s : State) : State :=
  let n := rg s .pwr 0 Reg.PWR.DOM_EN
  let off := (domList (fun d => s.dom.getLsbD d && !bit n d)).reverse
  let on := domList (fun d => !s.dom.getLsbD d && bit n d)
  if off.isEmpty && on.isEmpty then s
  else
    pwrShow (opStart { s with swOff := off, swOn := on } .pwr 0 1 (if off.isEmpty then 2 else 1) 0)

/-- The domain in progress has gone off. -/
def domainOffDone (s : State) (d : Nat) : State :=
  match s.swOff with
  | e :: l =>
    if e = d then
      let s1 := domainOff { s with swOff := l, seed := s.seed + 1 } d
      switchShow (if l.isEmpty then setInt s1 .pwr 0 1 else s1)
    else s
  | [] => s

/-- The domain in progress has come on. `ecc`: the errors that the training of PD12 met (R34). -/
def domainOnDone (s : State) (d : Nat) (ecc : List (Bool × Nat)) : State :=
  match s.swOff, s.swOn with
  | [], e :: l =>
    if e = d then
      let s0 := domainOn { s with swOn := l } d
      let s1 := if d = 12 then eccAll s0 (ecc.filter (fun e => inDram e.2 1)) else s0
      switchShow (if l.isEmpty then setInt s1 .pwr 0 0 else s1)
    else s
  | _, _ => s

/-- A domain rail browns out (R512): it prevails over a switching operation on the same domain. -/
def brownOut (s : State) (d : Nat) : State :=
  if s.dom.getLsbD d && d != 0 then
    let busy := !s.swOff.isEmpty || !s.swOn.isEmpty
    let s1 := domainOff { s with swOff := s.swOff.filter (fun e => e != d), swOn := s.swOn.filter (fun e => e != d) } d
    let s2 := s1.modPage (pk .pwr 0) (fun p =>
      { p with staged := p.staged.map (fun (e : Nat × Word) => if e.1 = Reg.PWR.DOM_EN then (e.1, setBit e.2 d false) else e) })
    let s3 := wb (wb s2 .pwr 0 Reg.PWR.DOM_EN d false) .pwr 0 Reg.PWR.BOR_STAT d true
    let s4 := setInt (incSat s3 .pwr 0 Reg.PWR.BOR_CNT) .pwr 0 2
    let s5 := if busy then switchShow { s4 with seed := s4.seed + 1 } else s4
    raise s5 0x23 .pwr 0 0 d
  else s

/-- The rail has held 0.72 V for 1 ms: its brown-out ends, and with the last one the condition of the page (R404, R512). -/
def brownEnd (s : State) (d : Nat) : State :=
  if rb s .pwr 0 Reg.PWR.BOR_STAT d then
    let s1 := wb s .pwr 0 Reg.PWR.BOR_STAT d false
    if rg s1 .pwr 0 Reg.PWR.BOR_STAT == 0 then endRaise s1 0x23 .pwr 0 0 else s1
  else s

/-! ## Clocks (R507 to R509) -/

/-- The reference selected: 1 the pins, 2 the upstream link port (R508). -/
def refSel (s : State) : Nat :=
  match rf s .clk 0 Reg.CLK.CFG 0 2 with
  | 1 => 1
  | 2 => 2
  | _ => if timeRole s = 2 then 2 else 1

/-- A change of the selected reference takes the PLLs into holdover (R508). -/
def clkFollow (s : State) : State :=
  if powered s .clk 0 && refSel s != rf s .clk 0 Reg.CLK.STAT 4 2 then wb s .clk 0 Reg.CLK.STAT 9 true else s

/-- The reference is lost. -/
def refLoss (s : State) : State :=
  if powered s .clk 0 then setInt (wb (wb s .clk 0 Reg.CLK.STAT 8 true) .clk 0 Reg.CLK.STAT 9 true) .clk 0 1 else s

/-- The PLLs lock onto the selected reference. -/
def refLock (s : State) : State :=
  if powered s .clk 0 && rb s .clk 0 Reg.CLK.STAT 9 then
    let s1 := wf (wf s .clk 0 Reg.CLK.STAT 0 4 15) .clk 0 Reg.CLK.STAT 4 2 (refSel s)
    setInt (wb (wb s1 .clk 0 Reg.CLK.STAT 8 false) .clk 0 Reg.CLK.STAT 9 false) .clk 0 2
  else s

/-- The domains whose islands take their clocks from a PLL (Table 20-1, Table 1-3), those of the page network last. -/
def pllDomains (p : Nat) : List Nat :=
  match p with
  | 0 => [13, 12, 11, 7, 5, 4, 3, 2, 1]
  | 1 => [11, 8, 6, 1]
  | 2 => [10, 9]
  | _ => [12]

/-- A PLL loses lock (R509): PWM_CLK for PLL1, and a brown-out of the domains that use it. -/
def pllLoss (s : State) (p : Nat) : State :=
  if powered s .clk 0 then
    let s1 := setInt (wb s .clk 0 Reg.CLK.STAT p false) .clk 0 0
    (pllDomains p).foldl brownOut (if p = 1 && s1.dom.getLsbD 8 then pwmLoseClock s1 else s1)
  else s

/-- The test of a staged CLK set. -/
def clkValidate (s : State) : List (Bool × Nat × ErrCode) :=
  let r := stf s .clk 0 Reg.CLK.CFG 0 2
  [(r == 3, Reg.CLK.CFG, .range), (r == 2 && timeRole s != 2, Reg.CLK.CFG, .conflict)]

/-! ## Resets (R514, R515) -/

/-- The device once a system reset is asserted: what Table 20-2 says it clears and keeps. -/
def sysAssert (s : State) (cause : Nat) : State :=
  let r := timeReset s
  let keep := (endSession s).pages.filter (fun (e : Nat × Page) => keyDomain e.1 == 0)
  let log := s.flog.map (fun (e : FltEnt) => { e with active := false })
  let seq := match s.flog.getLast? with
    | some e => (e.seq + 1) % 65536
    | none => 0
  let s1 : State :=
    { State.reset with pages := keep, mem := s.mem.filter (fun (e : Host.Cell) => 0x800000000 ≤ e.1), frcKeep := s.frcKeep
                       flog := log, part := s.part, vbatBase := r.vbatBase, failAt := r.failAt, otp := s.otp, keys := s.keys
                       runVer := s.runVer, tampLog := s.tampLog, jtag := s.jtag, trained := s.trained, padIn := s.padIn, finRaw := s.finRaw
                       trgPin := s.trgPin, dio := { DioSt.reset with drive := s.dio.drive, power := s.dio.power
                                                                     die0 := r.dio.die0, die1 := r.dio.die1 }
                       msixSent := s.msixSent, hostOut := s.hostOut, ethOut := s.ethOut, irqOn := s.irqOn, resp := s.resp, seed := s.seed
                       pending := s.pending }
  let s2 := wr (wr s1 .flt 0 Reg.FLT.LOG_SEQ (ofN seq)) .flt 0 Reg.FLT.LOG_COUNT (ofN log.length)
  let s3 := wr s2 .frc 0 Reg.FRC.SET_CNT (rg s .frc 0 Reg.FRC.SET_CNT)
  let s4 := wb (wr s3 .sys 0 Reg.SYS.RST_CAUSE (rg s .sys 0 Reg.SYS.RST_CAUSE)) .sys 0 Reg.SYS.RST_CAUSE cause true
  let s5 := s4.modPage (pk .pwr 0) (fun p => { p with staged := without p.staged [Reg.PWR.DOM_EN], busy := false, commit := .none })
  pwrShow (wr s5 .pwr 0 Reg.PWR.DOM_EN 1)

/-- The device once a power-on reset is asserted: key store, tamper log, ERASE_CNT and VBAT_TIME stay on VBAT, OTP is burnt; levels at
pins and what has left the device are not its logic. -/
def porAssert (s : State) : State :=
  let s1 : State :=
    { State.reset with otp := s.otp, keys := s.keys, tampLog := s.tampLog, vbatBase := vbatTime s, padIn := s.padIn, finRaw := s.finRaw
                       trgPin := s.trgPin, msixSent := s.msixSent, hostOut := s.hostOut, ethOut := s.ethOut, irqOn := s.irqOn
                       resp := s.resp, seed := s.seed, pending := s.pending }
  wr s1 .tamp 0 Reg.TAMP.ERASE_CNT (rg s .tamp 0 Reg.TAMP.ERASE_CNT)

/-! ## Start-up (R516, R517) -/

/-- The defaults of the boot configuration (Table 20-4). -/
def bootDefault : List Word := [0x42430001, 0x41, 0x700, 12288, 3584, 512, 0]

/-- Whether a boot configuration body is good: no field reserved or out of range, and sizes that sum to 16,384 MiB. -/
def bootOk (l : List Word) : Bool :=
  let w (i : Nat) : Nat := (l.getD i 0).toNat
  let g := fld (l.getD 1 0) 4 3
  l.length == 16 && w 0 == 0x42430001 && (l.getD 1 0 &&& 0xFFFFFF8C) == 0 && 1 ≤ g && g ≤ 4 && (l.getD 2 0 &&& 0xFFFF00FE) == 0 &&
    1024 ≤ w 3 && w 3 ≤ 14336 && 1024 ≤ w 4 && w 4 ≤ 14336 && 256 ≤ w 5 && w 5 ≤ 2048 && w 3 + w 4 + w 5 == 16384 && w 6 ≤ 1 &&
    (l.drop 7).all (fun x => x == 0)

/-- The configuration applied. -/
def bootCfg (b : BootEnd) : List Word :=
  match b.cfg with
  | some l => if bootOk l then l else bootDefault
  | none => bootDefault

/-- The kinds whose boot failed; a configuration that is absent or refused is kind 3. -/
def bootFail (b : BootEnd) : Nat :=
  let bad := match b.cfg with
    | some l => !bootOk l
    | none => true
  if bad && !b.fail.getLsbD 3 then b.fail.toNat + 8 else b.fail.toNat

/-- A page enabled by the boot (R425, R426). -/
def bootEnable (s : State) (t : PgTy) (n : Nat) (on : Bool) : State :=
  s.modPage (pk t n) (fun p => { p with en := on, st := if on then .run else .off })

/-- What the boot writes into SEC: the failures, the fallback, the source of the firmware and the locked flash ranges. -/
def bootSec (s : State) (r : BootRes) (b : BootEnd) : State :=
  let s1 := wf (wf s .sec 0 Reg.SEC.STAT 16 8 (bootFail b)) .sec 0 Reg.SEC.STAT 8 2 b.src
  let s2 := if b.fallback then setInt s1 .sec 0 2 else s1
  let s3 := (List.range 4).foldl (fun s i => wr s .sec 0 (Reg.SEC.FLASH_LOCK + 4 * i) (r.locks.getD i 0)) s2
  { s3 with runVer := b.vers.foldl (fun m (e : Nat × Nat) => SMap.set (fun _ => 0) m e.1 e.2) [] }

/-- What the boot configuration sets in the ports of PD11, and the start addresses of the application cores. -/
def bootPorts (s : State) (b : BootEnd) : State :=
  let c := bootCfg b
  let w1 := c.getD 1 0
  let w2 := c.getD 2 0
  let s1 := bootEnable (bootEnable (bootEnable (bootEnable s .msp 0 true) .msp 1 true) .pcie 0 (bit w1 0)) .hsp 0 (bit w1 1)
  let s2 := wr (wb s1 .msp 0 Reg.MSP.CFG 0 (bit w2 0)) .msp 0 Reg.MSP.CLKDIV (ofN (fld w2 8 8))
  let s3 := wr64 (wr64 s2 .apc 0 Reg.APC.AP0_BOOT_LO b.entry) .apc 0 Reg.APC.AP1_BOOT_LO b.entry
  let s4 := wr s3 .sys 0 Reg.SYS.BOOT_CFG w1
  wr s4 .sys 0 Reg.SYS.PART (ofN (s.part.recMib + 65536 * s.part.loopMib))

/-- The conditions of PD0 that still stand raise their sources afresh (R412). -/
def standing (s : State) : State :=
  (domList (fun d => rb s .pwr 0 Reg.PWR.BOR_STAT d)).foldl (fun s d => raise s 0x23 .pwr 0 0 d) s

/-- Stages 2 to 6 of Table 20-3: PD1, PD11, PD12 and, where the firmware of the application cores verified, PD2. -/
def sysStart (s : State) (r : BootRes) : State :=
  let b := bootFind s r
  let ap := !b.fail.getLsbD 2
  let on := if ap then [1, 11, 12, 2] else [1, 11, 12]
  let s1 := on.foldl domainOn s
  let s2 := wr s1 .clk 0 Reg.CLK.STAT (ofN 0x1F)
  let s3 := bootSec (bootPorts s2 b) r b
  let s4 := wr s3 .sys 0 Reg.SYS.STAGE (if ap then 6 else 5)
  standing (pwrShow (wr s4 .pwr 0 Reg.PWR.DOM_EN (if ap then 0x1807 else 0x1803)))

/-- Whether a boundary-scan instruction holds the die in system reset (R499). -/
def jtagHolds (i : JtagInstr) : Bool := i = .extest || i = .clamp || i = .intest

/-- A system reset with a cause (R514): start-up follows once no boundary-scan instruction holds it. -/
def systemReset (s : State) (cause : Nat) (b : BootRes) : State :=
  let s1 := sysAssert s cause
  if jtagHolds s.jtag then s1 else sysStart s1 b

/-- The life-cycle state of an OTP pattern: one that decodes to none of the states is treated as RETIRED (R491). -/
def otpState (o : OtpSt) : Nat := if 1 ≤ o.lc ∧ o.lc ≤ 5 then o.lc else 5

/-- SEC once the OTP and the key store have been read: ROOT_STAT, MIN_VER, KEY_STAT, STAT, CFG and ID (stage 1 of Table 20-3). -/
def secShow (s : State) (ksOk : Bool) : State :=
  let s2 := otpShow (keyShow s.next)
  let s3 := wb (wf s2 .sec 0 Reg.SEC.STAT 0 3 (otpState s2.otp)) .sec 0 Reg.SEC.STAT 12 (!ksOk)
  let s4 := wf s3 .sec 0 Reg.SEC.ROOT_STAT 24 2 ((Config.free32 s.seed).toNat % 4)
  let s5 := wb s4 .sec 0 Reg.SEC.CFG 0 (s4.otp.secBoot || s4.otp.lc == 3)
  [0, 1, 2, 3].foldl (fun s i => wr s .sec 0 (Reg.SEC.ID + 4 * i) (Config.deviceId i)) s5

/-- A power-on reset: OTP read afresh, the key store checked, the partition taken from the boot configuration (R29, R516). -/
def powerOn (s : State) (b : BootRes) : State :=
  let s1 := secShow (porAssert s) b.ksOk
  let c := bootCfg (bootFind s1 b)
  sysStart { s1 with part := ⟨(c.getD 3 0).toNat, (c.getD 4 0).toNat, (c.getD 5 0).toNat, bit (c.getD 6 0) 0⟩ } b

/-- A boundary-scan instruction is selected (R499). -/
def jtagSelect (s : State) (i : JtagInstr) (b : BootRes) : State :=
  let j := jtagDecode s i
  let was := jtagHolds s.jtag
  let s1 : State := { s with jtag := j }
  if jtagHolds j then (if was then s1 else sysAssert s1 5) else if was then sysStart s1 b else s1

/-- A tamper sensor alarms (R504): level 0 off, 1 log, 2 also reset, 3 also erase; without VDD only the sensors on VBAT act. -/
def tamper (s : State) (i : Nat) (vbat : Bool) (b : BootRes) : State :=
  let lv := tampLevel s i
  if lv = 0 then s
  else if vbat then tampVbat s i
  else
    let s1 := tampAlarm s i
    let s2 := if lv = 3 then tampErase s1 else s1
    if 2 ≤ lv then systemReset s2 3 b else s2

/-! ## SYS (R518, R519) -/

/-- What SYS says of its commands; RESET's effect is `systemReset`. -/
def sysRule (s : State) (code : Nat) (m : Master) : Option CmdRule :=
  match code with
  | 0x05 => some ⟨false, true, none⟩
  | 0x10 => some ⟨false, true, firstOf [(secured s && m.isHost, .lifecycle)]⟩
  | _ => none

/-- RESET with what the boot then finds left open. -/
def sysAct (s : State) (code : Nat) : State :=
  if code = 0x10 then systemReset { s with seed := s.seed + 1 } 2 (Config.bootRes s.seed) else s

/-- A write of STAGE: by AP0, AP1 and the security core; 7 to 14 are discarded (R518). -/
def stageWrite (s : State) (m : Master) (v : Word) : State :=
  let x := fld v 0 4
  if (m.isAp || m = .sc) && !(7 ≤ x && x ≤ 14) then wr s .sys 0 Reg.SYS.STAGE (ofN x) else s

/-- The page IRQ_SEL names, where the directory has it. -/
def irqSel (s : State) : Option PageId :=
  let w := rg s .sys 0 Reg.SYS.IRQ_SEL
  match pageOf (fld w 0 16) with
  | some p => if p.present then some p else none
  | none => none

/-- A write of IRQ_SEL, and what IRQ_LINE then reads. -/
def irqSelWrite (s : State) (v : Word) : State :=
  let s1 := wr s .sys 0 Reg.SYS.IRQ_SEL (v &&& 0xFFFF)
  match irqSel s1 with
  | some p => wr s1 .sys 0 Reg.SYS.IRQ_LINE (ofN (irqLine s1 p.key))
  | none => wr s1 .sys 0 Reg.SYS.IRQ_LINE 0

/-- A write of IRQ_LINE maps the page at once. -/
def irqLineWrite (s : State) (v : Word) : State :=
  match irqSel s with
  | some p =>
    wr { s with irqMap := SMap.set (fun k => k / 256) s.irqMap p.key (fld v 0 8) } .sys 0 Reg.SYS.IRQ_LINE (ofN (fld v 0 8))
  | none => rejWr s .sys 0 .range Reg.SYS.IRQ_LINE

/-- IRQ_PEND of eight words. -/
def irqPend (s : State) (w : Nat) : Word := ((levels s) >>> (32 * w)).setWidth 32

end Sys2Proof.Machine
end

