-- ==== Sys2Proof/Machine/Hooks.lean ====
section
/-! DEFINITION. What each page type brings to the selvedge: its commands, the tests of its staged set, its commit, its enable and
its soft reset. -/
namespace Sys2Proof.Machine

/-- The rule of a page whose only command is DISCARD (R450, R520, R521, R541, R168). -/
def discardOnly (code : Nat) : Option CmdRule := if code = 5 then some ⟨false, true, none⟩ else none

/-- What a page says of a command written by a master. -/
def ruleOf (s : State) (t : PgTy) (n code : Nat) (m : Master) : Option CmdRule :=
  match t with
  | .sys => sysRule s code m
  | .pwr => discardOnly code
  | .clk => discardOnly code
  | .sec => secRule s code m
  | .tamp => tampRule s code m
  | .flt => fltRule s code
  | .time => timeRule s code
  | .dlk => dlkRule s n code
  | .fab => fabRule code
  | .mem => memRule s n code
  | .enc => encRule s n code
  | .ssn => ssnRule s n code
  | .axis => axisRule s n code
  | .prk => prkRule s n code
  | .pcmp => pcmpRule s n code
  | .step => stepRule s n code
  | .ustp => discardOnly code
  | .lc => lcRule s n code
  | .lsch => lschRule s code
  | .ce => ceRule s n code
  | .cslot => cslotRule s n code
  | .pwm => pwmRule s n code
  | .fin => finRule s code
  | .fcg => fcgRule s n code
  | .fch => fchRule s n code
  | .pcv => pcvRule s n code
  | .le => leRule s n code
  | .rseq => rseqRule s n code
  | .frc => frcRule code
  | .sig => sigRule s code
  | .acq => acqRule s n code
  | .recStore => recRule s code
  | .eth => ethRule s n code
  | .ptp => ptpRule code
  | .can => canRule s n code
  | .pcie => pcieRule code
  | .hsp => discardOnly code
  | .msp => mspRule s n code m
  | .psp => pspRule s n code
  | .apc => apcRule s code
  | .dio => dioRule s code
  | .gpio => discardOnly code
  | .dbg => dbgRule s code m

/-- The effect of a command but for DISCARD. -/
def actOf (s : State) (t : PgTy) (n code : Nat) : State :=
  match t with
  | .sys => sysAct s code
  | .pwr => s
  | .clk => s
  | .sec => secAct s code
  | .tamp => s
  | .flt => fltAct s code
  | .time => timeAct s code
  | .dlk => dlkAct s n code
  | .fab => fabAct s code
  | .mem => memAct s n code
  | .enc => encAct s n code
  | .ssn => ssnAct s n code
  | .axis => axisAct s n code
  | .prk => prkAct s n code
  | .pcmp => pcmpAct s n code
  | .step => stepAct s n code
  | .ustp => s
  | .lc => lcAct s n code
  | .lsch => lschAct s code
  | .ce => ceAct s n code
  | .cslot => cslotAct s n code
  | .pwm => pwmAct s n code
  | .fin => finAct s code
  | .fcg => fcgAct s n code
  | .fch => fchAct s n code
  | .pcv => pcvAct s n code
  | .le => leAct s n code
  | .rseq => rseqAct s n code
  | .frc => frcAct s code
  | .sig => sigAct s code
  | .acq => acqAct s n code
  | .recStore => recAct s code
  | .eth => ethAct s n code
  | .ptp => ptpAct s code
  | .can => canAct s n code
  | .pcie => s
  | .hsp => s
  | .msp => mspAct s n code
  | .psp => pspAct s n code
  | .apc => apcAct s code
  | .dio => dioAct s code
  | .gpio => s
  | .dbg => dbgAct s code

/-- The test of a staged HSP set (Table 16-12). -/
def hspValidate (s : State) : List (Bool × Nat × ErrCode) :=
  let t := (staged s .hsp 0 Reg.HSP.SILENT_T).toNat
  [(stf s .hsp 0 Reg.HSP.CFG 0 6 < 4, Reg.HSP.CFG, .range), (t == 0 || decide (65535 < t), Reg.HSP.SILENT_T, .range)]

/-- The tests of a page's staged set (R48). -/
def validateOf (s : State) (t : PgTy) (n : Nat) : List (Bool × Nat × ErrCode) :=
  match t with
  | .sys => []
  | .pwr => pwrValidate s
  | .clk => clkValidate s
  | .sec => []
  | .tamp => tampValidate s
  | .flt => fltValidate s (secured s)
  | .time => timeValidate s
  | .dlk => dlkValidate s n
  | .fab => []
  | .mem => memValidate s n
  | .enc => encValidate s n
  | .ssn => ssnValidate s n
  | .axis => axisValidate s n
  | .prk => prkValidate s n
  | .pcmp => pcmpValidate s n
  | .step => stepValidate s n
  | .ustp => ustpValidate s
  | .lc => lcValidate s n
  | .lsch => lschValidate s
  | .ce => []
  | .cslot => cslotValidate s n
  | .pwm => pwmValidate s n
  | .fin => []
  | .fcg => fcgValidate s n
  | .fch => fchValidate s n
  | .pcv => pcvValidate s n
  | .le => leValidate s n
  | .rseq => rseqValidate s n
  | .frc => frcValidate s
  | .sig => sigValidate s
  | .acq => acqValidate s n
  | .recStore => recValidate s
  | .eth => ethValidate s n
  | .ptp => ptpValidate s
  | .can => canValidate s n
  | .pcie => []
  | .hsp => hspValidate s
  | .msp => mspValidate s n
  | .psp => pspValidate s n
  | .apc => apcValidate s
  | .dio => dioValidate s
  | .gpio => gpioValidate s
  | .dbg => []

/-- What follows a commit of a page that was `old` before it. -/
def committedOf (s : State) (t : PgTy) (n : Nat) (old : Page) : State :=
  match t with
  | .pwr => pwrCommitted s
  | .clk => clkFollow s
  | .sec => secCommitted s
  | .time => clkFollow (timeCommitted s old)
  | .dlk => dlkCommitted s n
  | .axis => axisCommitted s n old
  | .prk => prkCommitted s n old
  | .pcmp => pcmpCommitted s n old
  | .ustp => ustpCommitted s
  | .lsch => lschCommitted s old
  | .cslot => cslotCommitted s n
  | .pwm => pwmCommitted s n old
  | .fin => finCommitted s old
  | .fcg => fcgCommitted s n old
  | .frc => frcCommitted s
  | .sig => sigCommitted s
  | .acq => acqCommitted s n
  | .recStore => recCommitted s old
  | .can => canCommitted s n old
  | .msp => mspCommitted s n
  | .gpio => gpioDrive s
  | .dio => dioCommitted s
  | _ => s

/-- The page types without an IDLE state that EN=1 takes to RUN at once (R41). -/
def runAtOnce (t : PgTy) : Bool :=
  [PgTy.fin, .frc, .sig, .recStore, .ptp, .gpio, .pcie, .hsp, .msp].contains t

/-- EN=1 has been written: the state it enters, and what follows (Table 2-6, R41). A CE page loads its microcode first (R248),
the field dies must answer first (R473). -/
def enabledOf (s : State) (t : PgTy) (n : Nat) : State :=
  match t with
  | .fin => finEnabledAct s
  | .ce => s
  | .dio => dioEnabled s
  | .gpio => gpioDrive (setSt s .gpio 0 .run)
  | .pcmp => pcmpEnabled (setSt s .pcmp n .idle) n
  | .cslot => cslotEnabled (setSt s .cslot n .idle) n
  | .lc => lcSync (setSt s .lc n .idle) n
  | .recStore => recCommitted (setSt s .recStore 0 .run) (s.page (pk .recStore 0))
  | _ => setSt s t n (if runAtOnce t then .run else .idle)

/-- EN=0 has been written: the page goes to OFF (Table 2-6). -/
def disabledOf (s : State) (t : PgTy) (n : Nat) : State :=
  match t with
  | .enc => encDisabled s n
  | .ssn => ssnLeave s n .off
  | .axis => axisDisabled s n
  | .pcmp => pcmpDisabled s n
  | .step => ustpSync (stepHalt s n .off)
  | .lsch => lcSyncAll (setSt s .lsch 0 .off)
  | .ce => ceDisabled s n
  | .cslot => cslotDisabled s n
  | .pwm => pwmDisabled s n
  | .fcg => fcgDisabled s n
  | .fch => fchHalt s n .off
  | .pcv => setSt (if stOf s .pcv n == .run then pcvAct s n 2 else s) .pcv n .off
  | .le => leDisabled s n
  | .rseq => rseqDisabled s n
  | .acq => acqDisabled s n
  | .recStore => recDisabled s
  | .eth => ethDisabled s n
  | .can => canLeave s n .off
  | .pcie => pcieDisabled s
  | .msp => mspDisabled s n
  | .psp => pspDisabled s n
  | .dio => dioDisabled s
  | .dlk => dlkLeave s n .off
  | _ => setSt s t n .off

/-- Whether EN=0 is refused (R168, R265, R332, R354, R372). -/
def disableRefused (s : State) (t : PgTy) : Bool :=
  match t with
  | .ustp => ustpInUse s != 0
  | .fin => rg s .fin 0 Reg.FIN.LATCH != 0
  | .frc => !s.frc.isEmpty
  | .sig => s.sigs.any (fun (x : Nat × SigEntry) => x.2.en)
  | .recStore => recBusy s
  | _ => false

/-- What a soft reset leaves of the block besides its page (R40); `old` is the state before it. -/
def softResetOf (s old : State) (t : PgTy) (n : Nat) : State :=
  match t with
  | .enc => setEnc s n .reset
  | .ssn => setSsn s n .reset
  | .axis => prkSync (setAxis s n .reset) (n / 32)
  | .pcmp => pcmpSync (setPcmp s n .reset) n
  | .step => ustpSync (setStep s n .reset)
  | .prk => { s with prkSel := SMap.erase s.prkSel n }
  | .ustp => { s with ustp := [] }
  | .lc => lcSoftReset s n
  | .lsch => lschSoftReset s
  | .cslot => cslotCommitted (setCslot s n .reset) n
  | .pwm => setPwm s n .reset
  | .fcg => setFcg s n .reset
  | .fch => setFch s n .reset
  | .pcv => setPcv s n .reset
  | .le => leSoftReset s n
  | .rseq => rseqSoftReset s n
  | .frc => frcShow (wr s .frc 0 Reg.FRC.SET_CNT (rg old .frc 0 Reg.FRC.SET_CNT))
  | .sig => sigSoftReset s old
  | .acq => acqShow (setAcq s n .reset) n
  | .recStore => { s with histPos := 0, histCnt := 0, histWrap := 0, histSec := (0, 0), recExp := none, histQ := [], histLost := none }
  | .eth => { s with ethTbl := s.ethTbl.filter (fun e => e.port != n) }
  | .ptp => { s with txq := [] }
  | .can => setCan s n .reset
  | .hsp => { s with hsp := .reset }
  | .msp => setMsp s n .reset
  | .psp => setPsp s n .reset
  | .dlk => setDlk s n .reset
  | .gpio => gpioShow s
  | .dio => { s with dio := { DioSt.reset with drive := s.dio.drive, power := s.dio.power } }
  | _ => s

/-- The registers that show the block's state at this moment are brought up to date. -/
def showOf (s : State) (t : PgTy) (n : Nat) : State :=
  match t with
  | .enc => encShow s n s.now
  | .ssn => ssnShow s n s.now
  | .prk => prkSync s n
  | .pcmp => pcmpRise s n s.now
  | .ustp => ustpSync s
  | .lc => lcShow s n
  | .pwm => pwmShow s n s.now
  | .fin => finShow s
  | .fcg => fcgShow s n s.now
  | .le => leShow s n
  | .rseq => rseqShow s n
  | .recStore => recShow s
  | .tamp => tampShow s
  | .time => timeShow s
  | .pcie => (List.range 16).foldl chShow s
  | _ => s

end Sys2Proof.Machine
end

