-- ==== Sys2Proof/Machine/Selvedge.lean ====
section
/-! DEFINITION. The selvedge every page carries (R38 to R58): identity, control, locks, staged commit and commands. -/
namespace Sys2Proof.Machine

/-! ## Identity and status (Tables 2-3 to 2-5) -/

/-- PGID of a page; layout revision 1, no options. -/
def pgid (t : PgTy) (n : Nat) : Word := ofN (t.code * 16777216 + n * 65536 + 256)

/-- The page types whose PGCAP reads PROG, POS, SAFE_OUT or FREEZE as 1. -/
def progTypes : List PgTy :=
  [.pwr, .sec, .time, .dlk, .mem, .enc, .axis, .prk, .lc, .lsch, .cslot, .fcg, .pcv, .le, .rseq, .sig, .recStore, .can, .msp, .apc]
def safeOutTypes : List PgTy := [.pcmp, .step, .cslot, .pwm, .le, .rseq, .can, .psp, .dio]
def freezeTypes : List PgTy := [.pcmp, .pwm, .le]

/-- Whether a page type implements FREEZE. -/
def hasFreeze (t : PgTy) : Bool := freezeTypes.contains t

/-- PGCAP of a page type: every page has RS registers or accepts PGCOMMIT, and accepts commands. -/
def pgcap (t : PgTy) : Word :=
  ofN (0xC0000000 + 0x20000000 * b2n (progTypes.contains t) + 0x10000000 * b2n (t = .axis) +
    0x08000000 * b2n (safeOutTypes.contains t) + 0x04000000 * b2n (hasFreeze t))

/-- PGCTL of a page; SRST reads 0, since a soft reset ends within its command. -/
def Page.ctl (p : Page) : Word := ofN (b2n p.en + 4 * b2n p.freeze + 8 * b2n p.dbgSafe + 16 * b2n p.locked)

/-- PGSTAT of a page. -/
def Page.stat (p : Page) : Word :=
  ofN (p.st.num + 16 * b2n p.busy + 32 * b2n p.dirty + 64 * b2n p.locked + 128 * b2n p.cmd.isSome +
    256 * b2n (p.commit != .none))

/-- The INT_RAW bits [27:0] a page type defines: so many, from bit 0. -/
def intBits (t : PgTy) : Nat :=
  match t with
  | .sys => 0 | .pwr => 3 | .clk => 3 | .sec => 3 | .tamp => 7 | .flt => 8 | .time => 11 | .dlk => 6 | .fab => 3 | .mem => 3
  | .enc => 9 | .ssn => 8 | .axis => 16 | .prk => 3 | .pcmp => 11 | .step => 3 | .ustp => 0 | .lc => 3 | .lsch => 5 | .ce => 2
  | .cslot => 11 | .pwm => 8 | .fin => 16 | .fcg => 5 | .fch => 4 | .pcv => 4 | .le => 7 | .rseq => 12 | .frc => 4 | .sig => 2
  | .acq => 8 | .recStore => 3 | .eth => 5 | .ptp => 7 | .can => 9 | .pcie => 19 | .hsp => 4 | .msp => 3 | .psp => 3 | .apc => 4
  | .dio => 7 | .gpio => 1 | .dbg => 2

/-- The defined bits of INT_RAW: reserved bits never set (R63). -/
def intMask (t : PgTy) : Word := ofN (0xF0000000 + (2 ^ intBits t - 1))

/-! ## Boundaries (R36, R49, R55) -/

/-- Whether the event that makes a page's commit boundary is running, so that an accepted commit waits for it. -/
def boundaryRuns (s : State) (t : PgTy) (n : Nat) : Bool :=
  match t with
  | .enc => !inSt s t n [.off, .idle]
  | .axis => !inSt s t n [.off, .idle]
  | .step => !inSt s t n [.off, .idle]
  | .lsch => !inSt s t n [.off, .idle]
  | .ustp => inSt s t n [.idle]
  | .ssn => inSt s t n [.run]
  | .dlk => inSt s t n [.run, .update] && dlkUp s n
  | .cslot => cslotLive s n
  | .pwm => !inSt s t n [.off, .idle] && pwmCounts s n
  | .fch => inSt s t n [.run]
  | .pcv => inSt s t n [.run]
  | .rseq => inSt s t n [.run]
  | .acq => inSt s t n [.run]
  | .psp => pspBusy s n
  | .msp => inSt s t n [.update]
  | .dio => !inSt s t n [.off, .idle] && dioOn s
  | .le => benchNos.any (fun b => leWaits s n b)
  | _ => false

/-- Whether a command that is not immediate waits for an event: in OFF and IDLE it does not (R55), but an axis takes all its commands at
base ticks (R138), the loop scheduler a STITCH or RESTART at the next tick (R219), a PWM module on the ticks its START at the next one (R261),
a stepper its own at clock edges in every state but OFF (R347), and a logic engine in HOLD at its next release. -/
def cmdWaits (s : State) (t : PgTy) (n : Nat) : Bool :=
  match t with
  | .ustp => false
  | .axis => true
  | .lsch => !inSt s t n [.off]
  | .pwm => boundaryRuns s .pwm n || (stOf s .pwm n == .idle && rf s .pwm n Reg.PWM.CFG 8 2 == 1)
  | .rseq => !inSt s t n [.off]
  | .le => inSt s t n [.run, .hold] && benchNos.any (fun b => leBenchEn s n b)
  | _ => boundaryRuns s t n

/-- A commit takes effect (R49). -/
def commitNow (s : State) (t : PgTy) (n : Nat) : State :=
  match t with
  | .le => leCommitStep s n
  | .rseq => rseqTake s n
  | _ => committedOf (takeStaged s t n) t n (s.page (pk t n))

/-- An accepted commit takes effect at its boundary, unless FREEZE holds it (R49, R51). -/
def commitBoundary (s : State) (t : PgTy) (n : Nat) : State := if commitReady s t n then commitNow s t n else s

/-- An accepted commit whose page has gone to a state without its boundary takes effect at once (R49). -/
def settleCommit (s : State) (t : PgTy) (n : Nat) : State := if boundaryRuns s t n then s else commitBoundary s t n

/-! ## Commands (R54, R55, R543) -/

/-- DISCARD: the staging store equals the active values (Table 2-8). -/
def discardStaged (s : State) (t : PgTy) (n : Nat) : State :=
  s.modPage (pk t n) (fun p => { p with staged := [], dirty := false })

/-- A command acts: CMD_PENDING and PGERR clear and CMD_DONE sets, then its effect follows. A HOLD command makes a HOLD that FREEZE
caused its own (Table 2-6). -/
def doCmd (s : State) (t : PgTy) (n code : Nat) : State :=
  let s1 := cmdDone s t n
  let s2 := if code = 3 then s1.modPage (pk t n) (fun p => { p with frozen := false }) else s1
  let held := code = 3 ∧ stOf s t n = .hold
  settleCommit (if code = 5 then discardStaged s2 t n else if held then s2 else actOf s2 t n code) t n

/-- Why a command word written by a master is refused, in the order of R543. -/
def cmdRefusal (s : State) (t : PgTy) (n : Nat) (m : Master) (w : Word) : Option ErrCode :=
  let code := fld w 0 16
  let p := s.page (pk t n)
  let rule := ruleOf s t n code m
  let safe := match rule with
    | some r => r.safe
    | none => false
  firstOf [(fld w 16 16 != 0xFFFF - code, .cmdCheck), (p.locked && !safe, .locked),
    (p.cmd.isSome || (code == 5 && p.commit != .none), .busy)] |>.or
  (match rule with
    | none => some (if 1 ≤ code ∧ code ≤ 7 then .notPresent else .range)
    | some r => r.err)

/-- A refused command: PGERR shows it, and nothing acts (R56); the free value a PWM refusal may have used is taken. -/
def refuseCmd (s : State) (t : PgTy) (n code : Nat) (c : ErrCode) : State :=
  let s1 := rejCmd (if t = .pwm then s.next else s) t n c
  if t = .time then timeRefused s1 code c else s1

/-- An accepted command acts at once or waits (R55). -/
def acceptCmd (s : State) (t : PgTy) (n code : Nat) (m : Master) (r : CmdRule) : State :=
  if (r.imm || !cmdWaits s t n) && !((s.page (pk t n)).freeze && !r.safe) then doCmd s t n code
  else s.modPage (pk t n) (fun p => { p with cmd := some ⟨code, m⟩ })

/-- A word written to PGCMD by a master (R5, R54, R55). -/
def sendCmd (s : State) (t : PgTy) (n : Nat) (m : Master) (w : Word) : State :=
  let code := fld w 0 16
  match cmdRefusal s t n m w, ruleOf s t n code m with
  | some c, _ => refuseCmd s t n code c
  | none, some r => acceptCmd (s.modPage (pk t n) (fun p => { p with lastCmd := w })) t n code m r
  | none, none => s

/-- The command that waits acts at its boundary, if the page's state still allows it; while FREEZE=1 only a safe one does (R55). -/
def cmdBoundary (s : State) (t : PgTy) (n : Nat) : State :=
  let p := s.page (pk t n)
  match p.cmd with
  | none => s
  | some c =>
    match ruleOf s t n c.code c.by_ with
    | none => cmdDone s t n
    | some r =>
      if p.freeze && !r.safe then s
      else if r.err.isNone then doCmd s t n c.code else cmdDone s t n

/-- FREEZE=1 holds a block in RUN; a HOLD that only FREEZE caused ends once FREEZE is 0 (Table 2-4, Table 2-6). -/
def freezeStep (s : State) (t : PgTy) (n : Nat) : State :=
  let p := s.page (pk t n)
  if !hasFreeze t then s
  else if p.freeze && stOf s t n == .run then (actOf s t n 3).modPage (pk t n) (fun p => { p with frozen := true })
  else if !p.freeze && p.frozen then
    let s1 := s.modPage (pk t n) (fun p => { p with frozen := false })
    if stOf s t n == .hold then actOf s1 t n 4 else s1
  else s

/-- A page's boundary: the commit first, then the command (R52), then FREEZE. -/
def boundary (s : State) (t : PgTy) (n : Nat) : State := freezeStep (cmdBoundary (commitBoundary s t n) t n) t n

/-! ## Commits (R46 to R50) -/

/-- The offsets of the RS registers of a page, ascending (R47). -/
def rsOffs (t : PgTy) (n : Nat) : List Nat :=
  ((List.range 1008).map (fun i => 0x040 + 4 * i)).filter (fun o => match regRowAt t n o with
    | some r => r.acc == .rs
    | none => false)

/-- The CRC of the staging store (R47). -/
def stagedCrc (s : State) (t : PgTy) (n : Nat) : Word := crc32c ((rsOffs t n).flatMap (fun o => wordBytes (staged s t n o)))

/-- Whether a staging-window copy runs (R167, R350). -/
def copying (s : State) (t : PgTy) : Bool :=
  match t with
  | .sig => s.sigCopy.isSome
  | .ustp => (s.page (pk .ustp 0)).busy
  | _ => false

/-- Whether PGCOMMIT and RS writes are refused with BUSY: a commit is pending (R50), a copy runs, or domains still switch (R510). -/
def commitBusy (s : State) (t : PgTy) (n : Nat) : Bool :=
  (s.page (pk t n)).commit != .none || copying s t

/-- A write of PGCOMMIT (R48, R543). -/
def commitWrite (s : State) (t : PgTy) (n : Nat) (v : Word) : State :=
  let p := s.page (pk t n)
  let switching := t = .pwr && (!s.swOff.isEmpty || !s.swOn.isEmpty)
  match firstOf [(p.locked, .locked), (commitBusy s t n || switching, .busy), (v != stagedCrc s t n, .crcMismatch)] with
  | some c => reject s t n c 0x01C 1
  | none => s.modPage (pk t n) (fun p => { p with commit := .validating })

/-- The commit has passed its validation: it waits, or takes effect at once (R49). -/
def commitAccepted (s : State) (t : PgTy) (n : Nat) : State :=
  let s1 := s.modPage (pk t n) (fun p => { p with commit := .accepted })
  if t = .le then leAccepted s1 n else settleCommit s1 t n

/-- Validation ends (R48): the first failing register, or acceptance. A force that finds no entry free also sets FULL (R328). -/
def validationEnd (s : State) (t : PgTy) (n : Nat) : State :=
  if (s.page (pk t n)).commit = .validating then
    match firstFail (validateOf s t n) with
    | some (o, c) =>
      let s1 := reject (s.modPage (pk t n) (fun p => { p with commit := .none })) t n c o 1
      if t = .frc ∧ c = .memExceeded then setInt s1 .frc 0 3 else s1
    | none => commitAccepted s t n
  else s

/-! ## Control, locks and the unlock window (R40 to R45) -/

/-- Whether SRST is refused in the present state (R40, R41). -/
def srstRefused (s : State) (t : PgTy) (n : Nat) : Bool :=
  let st := stOf s t n
  if enCodes.contains t.code then true
  else if runAtOnce t || t = .ce then st != .off && st != .fault
  else st == .run || st == .hold || st == .update

/-- A soft reset (R40): what the page keeps is PGCTL, LOCKED, INT_EN and the last command. -/
def softReset (s : State) (t : PgTy) (n : Nat) : State :=
  let p := s.page (pk t n)
  let p1 : Page := { Page.reset (pk t n) with
    st := .off, en := p.en, freeze := p.freeze, dbgSafe := p.dbgSafe, locked := p.locked, intEn := p.intEn, lastCmd := p.lastCmd
    key := p.key }
  let s1 := softResetOf (s.setPage (pk t n) p1) s t n
  if p.en || t = .lc then enabledOf s1 t n else s1

/-- EN written (Table 2-4): on the always enabled pages it reads 1; a loop core follows its domain alone (R220); a page may refuse to
be switched off. -/
def enWrite (s : State) (t : PgTy) (n : Nat) (on : Bool) : State :=
  let p := s.page (pk t n)
  if enCodes.contains t.code || p.en = on then s
  else if t = .lc then s.modPage (pk t n) (fun p => { p with en := on })
  else if on then enabledOf (s.modPage (pk t n) (fun p => { p with en := true })) t n
  else if disableRefused s t then rejWr s t n .wrongState 0x008
  else
    let s1 := s.modPage (pk t n) (fun p => { p with cmd := none, frozen := false })
    let s2 := (disabledOf s1 t n).modPage (pk t n) (fun p => { p with en := false, st := .off })
    settleCommit s2 t n

/-- Whether the command that waits on a page is one that acts at once, so that only FREEZE holds it (R55). -/
def heldImm (s : State) (t : PgTy) (n : Nat) : Bool :=
  match (s.page (pk t n)).cmd with
  | some c => (ruleOf s t n c.code c.by_).any (fun r => r.imm)
  | none => false

/-- FREEZE written: on a page whose boundary is not running, or is the next cycle, the boundary follows at once, its commit first (R52);
elsewhere an immediate command that FREEZE held acts when it returns to 0 (R55). -/
def freezeWrite (s : State) (t : PgTy) (n : Nat) (on : Bool) : State :=
  if !hasFreeze t then s
  else
    let later (s : State) : Bool := boundaryRuns s t n || (t = .le && cmdWaits s t n)
    let s0 := s.modPage (pk t n) (fun p => { p with freeze := on })
    let s1 := if later s0 && !on && heldImm s0 t n then cmdBoundary s0 t n else s0
    if later s1 then s1 else boundary s1 t n

/-- The bits of a PGCTL write that apply with or without a window (R45); SRST is tested in the state the write found. -/
def ctlApply (s : State) (t : PgTy) (n : Nat) (v : Word) : State :=
  let srst := bit v 1
  let refused := srst && srstRefused s t n
  let s1 := freezeWrite (enWrite s t n (bit v 0)) t n (bit v 2)
  let s2 := if refused then rejWr s1 t n .wrongState 0x008 else if srst then softReset s1 t n else s1
  s2.modPage (pk t n) (fun p => { p with locked := bit v 4 })

/-- A write of PGCTL; `win`: it falls in the unlock window, which any write closes (R42 to R45). -/
def ctlWrite (s : State) (t : PgTy) (n : Nat) (win : Bool) (v : Word) : State :=
  let p := s.page (pk t n)
  if p.locked && !(win && !bit v 4) then rejWr s t n .locked 0x008
  else if win && secured s && !bit v 3 then rejWr s t n .lifecycle 0x008
  else ctlApply (if win then s.modPage (pk t n) (fun p => { p with dbgSafe := bit v 3, locked := false }) else s) t n v

/-- A write of PGKEY (R44). -/
def keyWrite (s : State) (t : PgTy) (n : Nat) (v : Word) : State :=
  let w : Word := 0x6B650000 + (pgid t n >>> 16)
  let key := (s.page (pk t n)).key
  let put (k : KeySt) (s : State) : State := s.modPage (pk t n) (fun p => { p with key := k })
  if key = .first && v = ~~~w then put .window s
  else if key != .first && v = w then put .first s
  else rejWr (put .idle s) t n .locked 0x034

/-- A write of INT_CLR; `ev` are bits whose events fall in the same cycle, which stay set (R62). A line that stays asserted sends
its message again (R66). -/
def intClr (s : State) (t : PgTy) (n : Nat) (w ev : Word) : State :=
  let s1 := s.modPage (pk t n) (fun p => { p with intRaw := (p.intRaw &&& ~~~w) ||| (ev &&& intMask t) })
  let l := irqLine s (pk t n)
  if s.irqOn.getLsbD l && lineOn s1 l then sendMsi s1 l else s1

/-- A write of a selvedge register of a page with power. -/
def selvWrite (s : State) (t : PgTy) (n : Nat) (m : Master) (win : Bool) (off : Nat) (v : Word) : State :=
  match off with
  | 0x008 => ctlWrite s t n win v
  | 0x010 => sendCmd s t n m v
  | 0x01C => commitWrite s t n v
  | 0x024 => s.modPage (pk t n) (fun p => { p with intEn := v &&& intMask t })
  | 0x02C => intClr s t n v 0
  | 0x030 => setInts s t n (v &&& intMask t)
  | 0x034 => keyWrite s t n v
  | _ => s

/-- UNIT and PHASE after a phase of a long operation whose phases end at times the spec does not fix (R312, R337, R353, R371, R393). -/
def nextPhase (t : PgTy) (ph : Nat) : Option (Nat × Nat) :=
  match t, ph with
  | .le, 1 => some (1, 2)
  | .le, 2 => some (1, 3)
  | .rseq, 1 => some (1, 2)
  | .sig, 1 => some (1, 2)
  | .recStore, 1 => some (3, 2)
  | .dlk, 1 => some (1, 2)
  | .dlk, 2 => some (1, 3)
  | _, _ => none

/-- Such an operation may have come to its next phase when PGPROG is read. -/
def progSeen (s : State) (t : PgTy) (n : Nat) : State :=
  if t = .can ∧ (s.page (pk t n)).busy = true then canProg s n else
  match (if (s.page (pk t n)).busy then nextPhase t (opPhase s t n) else none) with
  | some (u, ph) => (if Config.freeBool s.seed then setProg s t n u ph 0 else s).next
  | none => s

/-- A read of a selvedge register of a page with power: the read of PGPOS_LO snapshots PGPOS_HI (R60). -/
def selvRead (s : State) (t : PgTy) (n off : Nat) : State × Word :=
  let p := s.page (pk t n)
  match off with
  | 0x000 => (s, pgid t n)
  | 0x004 => (s, pgcap t)
  | 0x008 => (s, p.ctl)
  | 0x00C => (s, p.stat)
  | 0x010 => (s, p.lastCmd)
  | 0x014 => (progSeen s t n, ((progSeen s t n).page (pk t n)).prog)
  | 0x018 => (s, p.err)
  | 0x020 => (s, p.intRaw)
  | 0x024 => (s, p.intEn)
  | 0x028 => (s, p.intStat)
  | 0x038 => (s.modPage (pk t n) (Page.latch [(0x03C, (p.pos >>> 32).setWidth 32)]), p.pos.setWidth 32)
  | 0x03C => (s, SMap.get (fun _ => 0) p.snap 0x03C)
  | _ => (s, 0)

end Sys2Proof.Machine
end

