-- ==== Sys2Proof/Machine/BaseTick.lean ====
section
/-! DEFINITION. The base tick (R12, R23, R100, R376): what the tick of the grid does in every block, in its order. -/
namespace Sys2Proof.Machine

/-- Whether a base tick edge may fall at an extended time: a multiple of 62,500 steps, or while the grid is slewed the next edge, one
step longer or shorter than a tick (R376). -/
def tickFalls (s : State) (t : Nat) : Bool :=
  let d := tickDev s
  if d = 0 then t % 62500 == 0 && decide (s.tickAt < t)
  else decide ((t : Int) = s.tickAt + 62500 + (if 0 < d then 1 else -1))

/-- Each instance of a page type with power, in ascending order. -/
def eachOf (t : PgTy) (f : State → Nat → State) (s : State) : State :=
  (insts t).foldl (fun s n => if powered s t n then f s n else s) s

/-- Whether a base tick is a boundary of a page: its boundary runs, or a command waits for the tick (R36, R138). -/
def tickBound (s : State) (t : PgTy) (n : Nat) : Bool :=
  boundaryRuns s t n || (cmdWaits s t n && (s.page (pk t n)).cmd.isSome)

/-- The boundary of each instance of a page type that has one at the tick: commit, then command (R36, R52). -/
def boundariesOf (t : PgTy) (s : State) : State := eachOf t (fun s n => if tickBound s t n then boundary s t n else s) s

/-- Feedback and axes: the offsets of a homing apply, the set-points are computed from the signals as they stood, the channels
take what waits for the tick and are sampled (R75), then what follows from their positions (R80, R90, R100, R137). -/
def motionTick (s0 s : State) (t : Nat) : State :=
  let s1 := eachOf .axis (fun s n => homeApply s n t) s
  let s2 := eachOf .axis (fun s n => axisTick s0 s n) s1
  let s3 := eachOf .ssn (fun s m => ssnTick s m t) (eachOf .enc (fun s n => encTick s n t) (boundariesOf .enc s2))
  eachOf .axis axisAfter s3

/-- The tables and the channels take what waits for the tick and compute with it (R165, R167). -/
def stepWork (s : State) (t : Nat) : State :=
  eachOf .step (fun s n => stepTick s n t) (boundariesOf .step (boundariesOf .ustp s))

/-- The loop scheduler at a tick: its commit and command, then a due switch and the releases (R200). -/
def lschTickAll (s : State) : State :=
  if powered s .lsch 0 then lschTickAct (if tickBound s .lsch 0 then boundary s .lsch 0 else s) else s

/-- What the blocks do at a base tick, from the state before it. An axis takes its commits and commands last: they are seen in the
set-point of the next tick (R99). -/
def tickWork (s0 : State) (t : Nat) : State :=
  let s1 := motionTick s0 s0 t
  let s2 := eachOf .cslot (fun s k => cslotTick s k t) (stepWork (eachOf .pcmp pcmpTick s1) t)
  let s3 := eachOf .psp pspTick s2
  let s4 := if stOf s3 .gpio 0 == .run then pubAll s3 .gpio 0 .tick else s3
  let s4 := eachOf .fch (fun s c => fchTick s c t) (eachOf .fcg (fun s g => fcgTick s g t) s4)
  let s5 := eachOf .pwm (fun s n => if stOf s .pwm n == .idle && cmdWaits s .pwm n then cmdBoundary s .pwm n else s) s4
  lschTickAll (boundariesOf .axis s5)

/-- The process image as it reads. -/
def imageOf (s : State) : SMap Slot := s.slots.map (fun e => (e.1, slotView s e.1))

/-- A tick's work, and the process image at its start kept for the axes (R101). -/
def tickDone (s0 s : State) : State := { s with img2 := s.img1, img1 := imageOf s0 }

/-- A base tick edge. -/
def baseTickAt (s : State) (t : Nat) : State :=
  if powered s .time 0 && tickFalls s t then timeShow (tickDone s (raisedTogether s (tickWork { s.at t with tickAt := t } t))) else s

end Sys2Proof.Machine
end

