-- ==== Sys2Proof/Machine/Bus.lean ====
section
/-! DEFINITION. Reads and writes of a page (R2 to R4, R26, R37, R43, R44, R46, R59 to R62) and of the address space (R25, R27). -/
namespace Sys2Proof.Machine

/-! ## Reads -/

/-- A word of a page as it stands now, snapshots apart. -/
def liveWord (s : State) (t : PgTy) (n off : Nat) : Word :=
  match t with
  | .sys => if Reg.SYS.IRQ_PEND ≤ off ∧ off < Reg.SYS.IRQ_PEND + 32 then irqPend s ((off - Reg.SYS.IRQ_PEND) / 4) else rg s t n off
  | .fab => if Reg.FAB.LOG_ADDR_LO ≤ off ∧ off ≤ Reg.FAB.LOG_TS_HI then fabLogWord s off else rg s t n off
  | .flt => if Reg.FLT.LOG_W ≤ off ∧ off < Reg.FLT.LOG_W + 20 then fltLogWord s ((off - Reg.FLT.LOG_W) / 4) else rg s t n off
  | .tamp => if off = Reg.TAMP.LOG_W0 then tampW0 s else if off = Reg.TAMP.LOG_W1 then tampW1 s else rg s t n off
  | .frc => if Reg.FRC.ENT_ID ≤ off then frcRead s off else rg s t n off
  | _ => rg s t n off

/-- The registers a read sets to 0. -/
def readClears (t : PgTy) (off : Nat) : Bool :=
  match t with
  | .lc => off == Reg.LC.LOAD_MAX
  | .ce => off == Reg.CE.QUEUE_MAX
  | .fch => off == Reg.FCH.WAIT_MAX
  | .le => Reg.LE.B_MAX ≤ off && off < Reg.LE.B_MAX + 64 && (off - Reg.LE.B_MAX) % 16 == 0
  | .recStore => off == Reg.REC.HIST_PEAK
  | _ => false

/-- The reads that act: each takes an entry from a queue, advances a window, or measures (R97, R154, R240, R345, R383, R459, R503);
the spec gives no value of `REF_DEV`, `VMON` and the refresh rate the DRAM reports. -/
def actingRead (s : State) (m : Master) (t : PgTy) (n off : Nat) : Option (State × Word) :=
  match t with
  | .ssn => if off = Reg.SSN.CDS_RX then some (ssnCdsRead s n, rg s .ssn n off) else none
  | .cslot =>
    if off = Reg.CSLOT.REP_DATA then
      let s1 := repAccess s n none
      some (s1, rg s1 .cslot n off)
    else none
  | .pcmp => if off = Reg.PCMP.LATCH_POS_LO then some (pcmpLatchRead s n) else none
  | .rseq =>
    if off = Reg.RSEQ.TLOG_ENT then
      let r := tlogRead s n
      some (r.2, r.1)
    else none
  | .ptp => if Reg.PTP.TXQ_KEY ≤ off ∧ (off - Reg.PTP.TXQ_KEY) % 16 = 0 then some (txqRead s ((off - Reg.PTP.TXQ_KEY) / 16)) else none
  | .can => if off = Reg.CAN.OBJ_HDR then some (objHdrRead s n) else none
  | .sec => if Reg.SEC.DERIVED ≤ off then some (s, derivedRead s m off) else none
  | .clk => if off = Reg.CLK.REF_DEV then some (s.next, Config.free32 s.seed) else none
  | .mem => if off = Reg.MEM.STAT then some (s.next, setFld (rg s t n off) 4 3 (fld (Config.free32 s.seed) 0 3)) else none
  | .pwr => if off = Reg.PWR.VMON then some (s.next, Config.free32 s.seed) else none
  | _ => none

/-- A plain read: a snapshot word, or the word now, which latches the words it heads. -/
def plainRead (s : State) (t : PgTy) (n off : Nat) : State × Word :=
  if fromSnap t off then (s, SMap.get (fun _ => 0) (s.page (pk t n)).snap off)
  else
    let l := (latchedBy t off).map (fun o => (o, liveWord s t n o))
    let v := liveWord s t n off
    let s1 := if l.isEmpty then s else s.modPage (pk t n) (Page.latch l)
    (if readClears t off then wr s1 t n off 0 else s1, v)

/-- A read of a block register of a page with power. -/
def blockRead (s0 : State) (m : Master) (t : PgTy) (n off : Nat) : State × Word :=
  match regRowAt t n off with
  | none => (s0, 0)
  | some r =>
    if r.acc = .wo then (s0, 0)
    else
      let s := showOf s0 t n
      match actingRead s m t n off with
      | some x => x
      | none => plainRead s t n off

/-- A read of a page (R26, R37). -/
def pageRead (s : State) (m : Master) (pg : PageId) (off : Nat) : State × Word :=
  if !pg.present then (s, 0)
  else if !powered s pg.ty pg.inst then (s, if off = 0 then pgid pg.ty pg.inst else 0)
  else if off < 0x040 then selvRead s pg.ty pg.inst off
  else blockRead s m pg.ty pg.inst off

/-! ## Writes -/

/-- A W1C register: bits written 1 clear, but those whose events fall in the same cycle stay set (Table 0-3, R62). -/
def w1cWrite (s : State) (t : PgTy) (n off : Nat) (v ev : Word) : State :=
  wr s t n off ((rg s t n off &&& ~~~v) ||| (ev &&& regMask t off))

/-- A live register written by its access code (Table 0-3). -/
def liveWrite (s : State) (t : PgTy) (n off : Nat) (v ev : Word) : State :=
  match regRow t off with
  | some r => if r.acc = .w1c then w1cWrite s t n off v ev else rwStore s t n off v
  | none => s

/-- A write of a CAN register. -/
def canWrite (s : State) (k off : Nat) (v ev : Word) : State :=
  if Reg.CAN.TX_REQ ≤ off ∧ off < Reg.CAN.TX_REQ + 16 then txReqWrite s k ((off - Reg.CAN.TX_REQ) / 4) v
  else if Reg.CAN.TX_CANCEL ≤ off ∧ off < Reg.CAN.TX_CANCEL + 16 then txCancelWrite s k ((off - Reg.CAN.TX_CANCEL) / 4) v none
  else if Reg.CAN.RX_FULL ≤ off ∧ off < Reg.CAN.RX_FULL + 16 then rxFullWrite s k ((off - Reg.CAN.RX_FULL) / 4) v ev
  else if Reg.CAN.OBJ_DATA ≤ off ∧ off < Reg.CAN.OBJ_DATA + 64 then objDataWrite s k off v
  else liveWrite s .can k off v ev

/-- A write of an APC register. -/
def apcWrite (s : State) (m : Master) (off : Nat) (v ev : Word) : State :=
  if off = Reg.APC.READY then readyWrite s m v
  else if off = Reg.APC.MB_RING then mbRing s
  else if off = Reg.APC.MB_ACK then mbAck s (v &&& ~~~ev)
  else if off = Reg.APC.MB_RSP_RING then mbRspRing s m
  else if Reg.APC.MB_REQ ≤ off ∧ off < Reg.APC.MB_RING then mbReqWrite s off v
  else if Reg.APC.MB_RSP ≤ off ∧ off < Reg.APC.MB_RSP_RING then mbRspWrite s m off v
  else liveWrite s .apc 0 off v ev

/-- A write of a SYS register. -/
def sysWrite (s : State) (m : Master) (off : Nat) (v ev : Word) : State :=
  if off = Reg.SYS.STAGE then stageWrite s m v
  else if off = Reg.SYS.IRQ_SEL then irqSelWrite s v
  else if off = Reg.SYS.IRQ_LINE then irqLineWrite s v
  else liveWrite s .sys 0 off v ev

/-- A write of an Ethernet register that is live. -/
def ethWrite (s : State) (p off : Nat) (v ev : Word) : State :=
  if off = Reg.ETH.MDIO then mdioWrite s p v
  else if Reg.ETH.TXR_LO ≤ off ∧ off ≤ Reg.ETH.RXR_TAIL then ringWrite s p off v
  else liveWrite s .eth p off v ev

/-- A write of a live block register (RW, WO, W1C) by its chapter's rules. `ev`: bits of a W1C register whose events fall in
the same cycle. -/
def blockWrite (s : State) (m : Master) (t : PgTy) (n off : Nat) (v ev : Word) : State :=
  match t with
  | .sys => sysWrite s m off v ev
  | .sec => secWrite s m off v
  | .tamp => tampWrite s m off v
  | .dbg => dbgWrite s m off v
  | .flt => if off = Reg.FLT.LOG_IDX then fltLogIdx s v else liveWrite s t n off v ev
  | .fab => if off = Reg.FAB.LOG_IDX then fabLogIdx s v else liveWrite s t n off v ev
  | .time => if off = Reg.TIME.RATE then rateWrite s v else liveWrite s t n off v ev
  | .ssn => if off = Reg.SSN.CDM_TX then ssnCdmWrite s n v else liveWrite s t n off v ev
  | .ustp => if off = Reg.USTP.EDIT_SEL then ustpEditSel s v else liveWrite s t n off v ev
  | .cslot => if off = Reg.CSLOT.REP_DATA then repAccess s n (some v) else liveWrite s t n off v ev
  | .sig => if off = Reg.SIG.ENT_ID then sigEntId s v else liveWrite s t n off v ev
  | .eth => ethWrite s n off v ev
  | .can => canWrite s n off v ev
  | .pcie => if Reg.PCIE.CH_CTRL ≤ off then chWrite s off v else liveWrite s t n off v ev
  | .msp => mspWrite s n off v
  | .apc => apcWrite s m off v ev
  | .gpio => if Reg.GPIO.EDGE_ST ≤ off then w1cWrite s t n off v ev else gpioWrite s off v
  | _ => liveWrite s t n off v ev

/-- A write of an RS register (R46, R50): PD0 never switches, so bit 0 of DOM_EN stages as 1 (R510). -/
def stageWord (s : State) (t : PgTy) (n off : Nat) (v : Word) : State :=
  if commitBusy s t n then rejWr s t n .busy off
  else
    let w := v &&& regMask t off
    let w1 := if t = .pwr ∧ off = Reg.PWR.DOM_EN then w ||| 1 else w
    s.modPage (pk t n) (fun p => { p with staged := SMap.insert (SMap.erase p.staged off) off w1, dirty := true })

/-- The pages that answer LIFECYCLE to outside masters in SECURED (R506). -/
def secPages : List PgTy := [.sec, .tamp, .dbg]

/-- A selvedge write of such a page by such a master. -/
def secSelvWrite (s : State) (t : PgTy) (n : Nat) (m : Master) (win : Bool) (off : Nat) (v : Word) : State :=
  let p := s.page (pk t n)
  match off with
  | 0x008 => rejWr s t n (if p.locked && !(win && !bit v 4) then .locked else .lifecycle) off
  | 0x010 => sendCmd s t n m v
  | 0x01C =>
    match firstOf [(p.locked, .locked), (commitBusy s t n, .busy), (v != stagedCrc s t n, .crcMismatch)] with
    | some c => reject s t n c off 1
    | none => reject s t n .lifecycle off 1
  | 0x024 => rejWr s t n .lifecycle off
  | 0x02C => rejWr s t n .lifecycle off
  | 0x030 => rejWr s t n .lifecycle off
  | 0x034 => rejWr s t n .lifecycle off
  | _ => s

/-- A write of a block register of a page with power: RO and unimplemented offsets ignore it, a lock or a missing window refuses it
(R43, R44), an RS register stages it. -/
def regWrite (s : State) (m : Master) (t : PgTy) (n : Nat) (win : Bool) (off : Nat) (v ev : Word) : State :=
  match regRowAt t n off with
  | none => s
  | some r =>
    if r.acc = .ro then s
    else if (s.page (pk t n)).locked || (r.prot && !win) then rejWr s t n .locked off
    else if r.acc = .rs then
      if secPages.contains t && secRefuses s m then rejWr s t n .lifecycle off else stageWord s t n off v
    else blockWrite s m t n off v ev

/-- A write of a page (R26, R37); any write closes the unlock window (R44). -/
def pageWrite (s : State) (m : Master) (pg : PageId) (off : Nat) (v ev : Word) : State :=
  let t := pg.ty
  let n := pg.inst
  if !answers s pg then s
  else
    let win := (s.page (pk t n)).key = .window
    let s1 := if win && off != 0x034 then s.modPage (pk t n) (fun p => { p with key := .idle }) else s
    if off < 0x040 then
      if secPages.contains t && secRefuses s m then secSelvWrite s1 t n m win off v
      else if off = 0x02C then intClr s1 t n v ev
      else selvWrite s1 t n m win off v
    else regWrite s1 m t n win off v ev

/-! ## The address space (R25, R27) -/

/-- The page of an address: type code in [27:20], instance in [19:12]. -/
def addrPage (a : Nat) : Option PageId := (PgTy.ofCode (a / 0x100000 % 256)).map (fun t => ⟨t, a / 0x1000 % 256⟩)

/-- A line of a flash as it is read where no event brings its bytes: free bytes. -/
def flashLine (s : State) : List Nat := (List.range 64).map (fun i => (Config.free32 (s.seed + i)).toNat % 256)

/-- A word read at an address: the state after it holds the answer in `resp`. `ecc`: the memory errors that reads of this command meet,
of which the word at the address counts and reports its own (R33, R34). -/
def busRead (s0 : State) (m : Master) (a : Nat) (ecc : List (Bool × Nat)) : State :=
  match busEnd s0 m a false with
  | .ok =>
    let s := eccAll s0 (eccAt ecc a)
    if eccFails ecc a then eccError s m a
    else match regionOf a with
    | .pages =>
      match addrPage a with
      | some pg =>
        let r := pageRead s m pg (a % 4096 / 4 * 4)
        { r.1 with resp := ⟨r.2, 0, .ok⟩ }
      | none => { s with resp := ⟨0, 0, .ok⟩ }
    | .xip p => xipRead { s with seed := s.seed + 512 } p m (a % 0x10000000)
      ((List.range 8).map (fun i => flashLine { s with seed := s.seed + 64 * i })) []
    | _ =>
      let r := rangeRead s a
      { r.1 with resp := ⟨r.2, 0, .ok⟩ }
  | _ => busError s0 m a false

/-- Two words read from one island edge (R60): the pair lies in one 64-bit word, whose errors count once. -/
def busRead64 (s : State) (m : Master) (a : Nat) (ecc : List (Bool × Nat)) : State :=
  let s1 := busRead s m a ecc
  if s1.resp.fin = .ok then
    let s2 := busRead s1 m (a + 4) (if a % 8 = 0 then [] else ecc)
    { s2 with resp := ⟨s1.resp.lo, s2.resp.lo, s2.resp.fin⟩ }
  else s1

/-- A word written at an address. -/
def busWrite (s : State) (m : Master) (a : Nat) (v : Word) : State :=
  match busEnd s m a true with
  | .ok =>
    let s1 := match regionOf a with
      | .pages =>
        match addrPage a with
        | some pg => pageWrite s m pg (a % 4096 / 4 * 4) v 0
        | none => s
      | _ => rangeWrite s m a v
    { s1 with resp := ⟨0, 0, .ok⟩ }
  | _ => busError s m a true

end Sys2Proof.Machine
end

