-- ==== Sys2Proof/Machine/HostBus.lean ====
section
/-! DEFINITION. The host paths: requests over PCIe (R428) and frames of the host serial port (R433 to R437). -/
namespace Sys2Proof.Machine

/-! ## PCIe (R428) -/

/-- Where a request of a BAR goes. -/
inductive BarTo where
  | bus (a : Nat)
  | msix (i : Nat)
  | pba (i : Nat)
  | none
  deriving DecidableEq, Repr

/-- The layout of BAR0 (Table 16-2) and of BAR2. -/
def barTo (bar2 : Bool) (off : Nat) : BarTo :=
  if bar2 then (if off < 0x400000000 then .bus (0x800000000 + off) else .none)
  else if off < 0x04000000 then .bus (0x40000000 + off)
  else if off < 0x04400000 then .bus (0x50000000 + (off - 0x04000000))
  else if off < 0x04500000 then .bus (0x50400000 + (off - 0x04400000))
  else if 0x06000000 ≤ off ∧ off < 0x07000000 then .bus (0x10000000 + (off - 0x06000000))
  else if 0x07FF0000 ≤ off ∧ off < 0x07FF0400 then .msix ((off - 0x07FF0000) / 4)
  else if 0x07FF8000 ≤ off ∧ off < 0x07FF8008 then .pba ((off - 0x07FF8000) / 4)
  else .none

/-- A request that no address answers: an Unsupported Request. -/
def unsupported (s : State) : State := { s with resp := ⟨0, 0, .undecoded⟩ }

/-- A pending-bit word of the MSI-X table. -/
def pbaWord (s : State) (i : Nat) : Word := (s.msixPend >>> (32 * i)).setWidth 32

/-- A read of one word, or of two from one edge. -/
def pcieRead (s : State) (bar2 : Bool) (off : Nat) (wide : Bool) (ecc : List (Bool × Nat)) : State :=
  match barTo bar2 off with
  | .bus a => if wide then busRead64 s .pcieHost a ecc else busRead s .pcieHost a ecc
  | .msix i => { s with resp := ⟨msixWord s i, if wide then msixWord s (i + 1) else 0, .ok⟩ }
  | .pba i => { s with resp := ⟨pbaWord s i, if wide then pbaWord s (i + 1) else 0, .ok⟩ }
  | .none => unsupported s

/-- A write of one word. -/
def pcieWrite (s : State) (bar2 : Bool) (off : Nat) (v : Word) : State :=
  match barTo bar2 off with
  | .bus a => busWrite s .pcieHost a v
  | .msix i => { msixWrite s i v with resp := ⟨0, 0, .ok⟩ }
  | .pba _ => { s with resp := ⟨0, 0, .ok⟩ }
  | .none => unsupported s

/-- A request reaches the endpoint: answered only in RUN with the link up (R426). -/
def pcieServe (s : State) (r : PcieReq) : State :=
  if pcieUp s then
    match r with
    | .read bar2 off wide ecc => pcieRead s bar2 off wide ecc
    | .write bar2 off v => pcieWrite s bar2 off v
    | .functionMask on => msixFunction s on
  else s

/-! ## The host serial port (R433 to R437) -/

/-- ALIVE that the port expects (R435). -/
def hspExpect (s : State) : Nat := rf s .hsp 0 Reg.HSP.STAT 8 8

/-- A frame that is not good: counted, and flagged in the next reply. -/
def hspBad (s : State) : State :=
  if stOf s .hsp 0 == .run then
    setInt (incSat { s with hsp := { s.hsp with prev := 2 } } .hsp 0 Reg.HSP.BAD_CNT) .hsp 0 0
  else s

/-- What every good frame does: it sets the expectation, ends a silence and is counted; `seq`: it was not the one expected, or
is a repeat. -/
def hspGood (s : State) (alive : Nat) (seq rep : Bool) (prev : Nat) : State :=
  let s1 : State := { s with hsp := { s.hsp with alive := some alive, at_ := s.lap s.now, prev := prev } }
  let s2 := wf (wb (incWrap s1 .hsp 0 Reg.HSP.FRAME_CNT) .hsp 0 Reg.HSP.STAT 0 false) .hsp 0 Reg.HSP.STAT 8 8 ((alive + 1) % 256)
  let s3 := if seq || rep then incSat s2 .hsp 0 Reg.HSP.SEQ_CNT else s2
  if seq then setInt s3 .hsp 0 1 else s3

/-- The reply of a frame (Table 16-5): `w` holds RSTAT [8:5] and the flags of the previous frame. -/
def hspReply (s : State) (flags alive expect : Nat) (data : List Word) : State :=
  let r : Word := ofN (flags + 65536 * (alive % 256) + 16777216 * expect)
  { s with hsp := { s.hsp with reply := some ⟨r, data, crc16 (wordBytes r ++ toBytes data)⟩ } }

/-- Words read from an address on: the state, the words, whether some lie beyond the 4 KiB page, and whether one met an error. -/
def hspWords (s : State) (a : Nat) (ecc : List (Bool × Nat)) : Nat → State × List Word × Bool × Bool
  | 0 => (s, [], false, false)
  | k + 1 =>
    let r := hspWords s a ecc k
    let x := a + 4 * k
    if x / 4096 != a / 4096 then (r.1, r.2.1 ++ [0], true, r.2.2.2)
    else
      let s1 := busRead r.1 .hsp x ecc
      let ok := s1.resp.fin = .ok
      (s1, r.2.1 ++ [if ok then s1.resp.lo else 0], r.2.2.1, r.2.2.2 || !ok)

/-- Words written from an address on: the state, whether some lie beyond the page, and whether one met an error. -/
def hspStore (s : State) (a0 a : Nat) : List Word → State × Bool × Bool
  | [] => (s, false, false)
  | w :: l =>
    if a / 4096 != a0 / 4096 then (s, true, false)
    else
      let s1 := busWrite s .hsp a w
      let r := hspStore s1 a0 (a + 4) l
      (r.1, r.2.1, r.2.2 || s1.resp.fin != .ok)

/-- The host bytes of a frame before its CRC (Table 16-4), least significant byte of each field first. -/
def hspBytes (op alive len addr : Nat) (data : List Word) : List Nat :=
  [op, alive % 256, len % 256, len / 256 % 256] ++ wordBytes (ofN addr) ++ toBytes data

/-- Whether the CRC of a frame matches its host bytes (R434). -/
def hspCrcOk (op alive len addr : Nat) (data : List Word) (crc : BitVec 16) : Bool :=
  crc16 (hspBytes op alive len addr data) == crc.toNat

/-- A READ frame (R436), with the CRC it carries. `early`: select was released before the end of the reply; `ecc`: the memory errors its
words meet (R33, R34). -/
def hspReadFrame (s0 : State) (t alive len addr : Nat) (crc : BitVec 16) (early : Bool) (ecc : List (Bool × Nat)) : State :=
  let s := s0.at t
  let prev := s.hsp.prev
  let exp := hspExpect s
  if stOf s .hsp 0 != .run then s
  else if len < 1 || 1024 < len || addr % 4 != 0 || 4294967296 ≤ addr then { hspBad s with hsp := { (hspBad s).hsp with reply := none } }
  else if !hspCrcOk 1 alive len addr [] crc then hspReply (hspBad s) (prev + 256) alive exp (List.replicate len 0)
  else
    let seq := alive != exp
    let r := hspWords s addr ecc len
    let s1 := hspGood r.1 alive seq false (if early then 2 else 1)
    let s2 := if r.2.2.1 then setInt s1 .hsp 0 3 else s1
    hspReply s2 (prev + 32 * b2n seq + 64 * b2n r.2.2.1 + 128 * b2n r.2.2.2) alive exp r.2.1

/-- A WRITE frame (R437): it acts at the release of select. `early`: it was released before its end, or carried extra bytes. -/
def hspWriteFrame (s0 : State) (t alive len addr : Nat) (data : List Word) (crc : BitVec 16) (early : Bool) : State :=
  let s1 := s0.at t
  let s : State := { s1 with hsp := { s1.hsp with reply := none } }
  if stOf s .hsp 0 != .run then s1
  else if len < 1 || 1024 < len || addr % 4 != 0 || 4294967296 ≤ addr || data.length != len || !hspCrcOk 2 alive len addr data crc || early then hspBad s
  else if s.hsp.alive == some alive then hspGood s alive false true 16
  else
    let seq := alive != hspExpect s
    let r := hspStore s addr addr data
    let s2 := hspGood r.1 alive seq false (1 + 4 * b2n r.2.1 + 8 * b2n r.2.2)
    if r.2.1 then setInt s2 .hsp 0 3 else s2

/-- A STATUS frame, whose LEN is 0. -/
def hspStatusFrame (s0 : State) (t alive addr : Nat) (crc : BitVec 16) (early : Bool) : State :=
  let s := s0.at t
  let prev := s.hsp.prev
  let exp := hspExpect s
  if stOf s .hsp 0 != .run then s
  else if addr % 4 != 0 || 4294967296 ≤ addr then { hspBad s with hsp := { (hspBad s).hsp with reply := none } }
  else if !hspCrcOk 3 alive 0 addr [] crc then hspReply (hspBad s) (prev + 256) alive exp []
  else
    let seq := alive != exp
    hspReply (hspGood s alive seq false (if early then 2 else 1)) (prev + 32 * b2n seq) alive exp []

/-- No good frame for SILENT_T ms (R435). -/
def hspSilent (s0 : State) (t : Nat) : State :=
  let s := s0.at t
  if stOf s .hsp 0 == .run && !rb s .hsp 0 Reg.HSP.STAT 0 && decide (s.hsp.at_ + 8000000 * (rg s .hsp 0 Reg.HSP.SILENT_T).toNat ≤ s.lap t) then
    setInt (wb s .hsp 0 Reg.HSP.STAT 0 true) .hsp 0 2
  else s

end Sys2Proof.Machine
end

