-- ==== Sys2Proof/Machine/PageExec.lean ====
section
/-! DEFINITION. The meanings of the commands every page takes (chapters 1 and 2): control, locks, staging, commits, the common commands,
interrupts and wide values, the base tick, publication by the host, debug halts, and errors of the fabric and of DRAM. -/
namespace Sys2Proof.Machine

/-! ## Ways to a page -/

/-- A word written to a register of a page, no event in the same cycle. -/
def putReg (s : State) (m : Master) (t : PgTy) (n off : Nat) (v : Word) : State := pageWrite s m ⟨t, n⟩ off v 0

/-- A command word written to a page. -/
def sendCode (s : State) (m : Master) (t : PgTy) (n code : Nat) (chk : BitVec 16) : State :=
  putReg s m t n 0x010 (chk ++ BitVec.ofNat 16 code)

/-- A read of a register of a page, answered in `resp`. -/
def getReg (s : State) (m : Master) (t : PgTy) (n off : Nat) : State :=
  let r := pageRead s m ⟨t, n⟩ off
  { r.1 with resp := ⟨r.2, 0, .ok⟩ }

/-- PGCTL of a page with one of its bits replaced, SRST 0. -/
def ctlWith (s : State) (pg : PageId) (i : Nat) (b : Bool) : Word := setBit (s.page pg.key).ctl i b

/-- The offset of a word of a page. -/
def wordOff (off : Nat) : Nat := off % 4096 / 4 * 4

/-! ## Control and locks (R39 to R45) -/

/-- PAGE_ENABLE (R39): PGCTL with EN set or cleared. -/
def execPageEnable (pg : PageId) (on : Bool) (s : State) : Res := done (pageWrite s .ap0 pg 0x008 (ctlWith s pg 0 on) 0)

/-- SOFT_RESET (R40, R41): PGCTL with SRST. -/
def execSoftReset (pg : PageId) (s : State) : Res := done (pageWrite s .ap0 pg 0x008 (ctlWith s pg 1 true) 0)

/-- FREEZE (R51, R55): PGCTL with FREEZE set or cleared. -/
def execPageFreeze (pg : PageId) (on : Bool) (s : State) : Res := done (pageWrite s .ap0 pg 0x008 (ctlWith s pg 2 on) 0)

/-- LOCK_REQUEST (R43): PGCTL with LOCKREQ. -/
def execLockRequest (pg : PageId) (s : State) : Res := done (pageWrite s .ap0 pg 0x008 (ctlWith s pg 4 true) 0)

/-- UNLOCK_WINDOW (R44): a word written to PGKEY. -/
def execUnlockWindow (pg : PageId) (w : Word) (s : State) : Res := done (pageWrite s .ap0 pg 0x034 w 0)

/-- DBGSAFE_CHANGE (R45): a word written to PGCTL, whose DBGSAFE counts in an unlock window. -/
def execDbgsafeChange (pg : PageId) (w : Word) (s : State) : Res := done (pageWrite s .ap0 pg 0x008 w 0)

/-! ## Commits (R46 to R53) -/

/-- PGCOMMIT_WRITE (R48). -/
def execPgcommitWrite (pg : PageId) (crc : Word) (s : State) : Res := done (pageWrite s .ap0 pg 0x01C crc 0)

/-- COMMIT_VALIDATION_END (R48, R49). -/
def execCommitValidationEnd (pg : PageId) (s : State) : Res := done (if answers s pg then validationEnd s pg.ty pg.inst else s)

/-- Whether the boundary of a page is an event that has a command of its own and does more there (Table 2-1): the sample event of a control
slot, the cycle starts of a logic engine, the clock edge at which a recipe sequencer's step ends, the re-arm of an acquisition unit. While that
event runs, what waits is taken by its command and not by COMMIT_BOUNDARY or COMMAND_BOUNDARY (DESIGN CHOICE, log entry 181). -/
def ownEvent (s : State) (t : PgTy) (n : Nat) : Bool := [PgTy.cslot, .le, .rseq, .acq].contains t && (boundaryRuns s t n || cmdWaits s t n)

/-- The boundary of a page for its commit; a PWM module in HOLD takes none (R255). -/
def takeBoundary (s : State) (t : PgTy) (n : Nat) : State := if t = .pwm ∧ stOf s .pwm n = .hold then s else commitBoundary s t n

/-- COMMIT_BOUNDARY (R49, R51): the commit of a page that has been accepted takes effect. -/
def execCommitBoundary (pg : PageId) (s : State) : Res :=
  done (if answers s pg && !ownEvent s pg.ty pg.inst then takeBoundary s pg.ty pg.inst else s)

/-! ## Common commands (R54, R55, Table 2-8) -/

/-- START (R54, Table 2-8). -/
def execCmdStart (pg : PageId) (m : Master) (chk : BitVec 16) (s : State) : Res := done (sendCode s m pg.ty pg.inst 1 chk)

/-- STOP (R54, Table 2-8). -/
def execCmdStop (pg : PageId) (m : Master) (chk : BitVec 16) (s : State) : Res := done (sendCode s m pg.ty pg.inst 2 chk)

/-- HOLD (R54, Table 2-8). -/
def execCmdHold (pg : PageId) (m : Master) (chk : BitVec 16) (s : State) : Res := done (sendCode s m pg.ty pg.inst 3 chk)

/-- CONTINUE (R54, Table 2-8). -/
def execCmdContinue (pg : PageId) (m : Master) (chk : BitVec 16) (s : State) : Res := done (sendCode s m pg.ty pg.inst 4 chk)

/-- DISCARD (R54, Table 2-8). -/
def execCmdDiscard (pg : PageId) (m : Master) (chk : BitVec 16) (s : State) : Res := done (sendCode s m pg.ty pg.inst 5 chk)

/-- CLEAR_FAULT (R54, Table 2-8). -/
def execCmdClearFault (pg : PageId) (m : Master) (chk : BitVec 16) (s : State) : Res := done (sendCode s m pg.ty pg.inst 6 chk)

/-- ABORT (R54, Table 2-8). -/
def execCmdAbort (pg : PageId) (m : Master) (chk : BitVec 16) (s : State) : Res := done (sendCode s m pg.ty pg.inst 7 chk)

/-- COMMAND_BOUNDARY (R52, R55): an accepted commit of the page first, then its command that waits; then FREEZE. -/
def execCommandBoundary (pg : PageId) (s : State) : Res :=
  done (if answers s pg && !ownEvent s pg.ty pg.inst then freezeStep (cmdBoundary (takeBoundary s pg.ty pg.inst) pg.ty pg.inst) pg.ty pg.inst else s)

/-! ## Interrupts, reads and writes (R59 to R66) -/

/-- INT_CLR_WRITE (R62, R66). -/
def execIntClrWrite (pg : PageId) (w ev : Word) (s : State) : Res := done (pageWrite s .ap0 pg 0x02C w ev)

/-- INT_SET_WRITE (R62). -/
def execIntSetWrite (pg : PageId) (w : Word) (s : State) : Res := done (pageWrite s .ap0 pg 0x030 w 0)

/-- WIDE_READ_SNAPSHOT (R60). -/
def execWideReadSnapshot (pg : PageId) (off : Nat) (s : State) : Res := done (getReg s .ap0 pg.ty pg.inst (wordOff off))

/-- WIDE_WRITE_APPLY (R61): the high word, at which both words apply. -/
def execWideWriteApply (pg : PageId) (off : Nat) (v : Word) (s : State) : Res := done (pageWrite s .ap0 pg (wordOff off) v 0)

/-- REGISTER_WRITE (R2 to R4, R26, R37, R43, R46). -/
def execRegisterWrite (m : Master) (pg : PageId) (off : Nat) (v : Word) (s : State) : Res := done (pageWrite s m pg (wordOff off) v 0)

/-- W1C_STATUS_WRITE (R62). -/
def execW1cStatusWrite (pg : PageId) (off : Nat) (w ev : Word) (s : State) : Res := done (pageWrite s .ap0 pg (wordOff off) w ev)

/-- READ_CLEAR_REGISTER (R222): the read returns the value and sets it to 0. -/
def execReadClearRegister (pg : PageId) (off : Nat) (s : State) : Res := done (getReg s .ap0 pg.ty pg.inst (wordOff off))

/-- BASE_TICK (R376). -/
def execBaseTick (t : Nat) (s : State) : Res := done (baseTickAt s t)

/-- APC_PUBLISH (R19). -/
def execApcPublish (m : Master) (id : BitVec 16) (hi : Bool) (v : Word) (s : State) : Res := done (pubWrite s m id.toNat hi v)

/-- PI_VALUE_READ (R18): VALUE_LO of a slot, which snapshots the words that follow it. `ecc`: the errors its word meets (R33). -/
def execPiValueRead (id : BitVec 16) (ecc : List (Bool × Nat)) (s : State) : Res :=
  done (busRead s .ap0 (0x50000000 + 64 * id.toNat) ecc)

/-! ## Debug (R42) -/

/-- DEBUG_HALT (R42). -/
def execDebugHalt (e : Engine) (s : State) : Res := done (haltEngine s e)

/-- DEBUG_RESUME (R42). -/
def execDebugResume (e : Engine) (s : State) : Res := done (resumeEngine s e)

/-! ## Errors of the fabric and of DRAM (R27, R32 to R35) -/

/-- The bench of an engine whose cycle runs: the highest in progress. -/
def runningBench (s : State) (e : Nat) : Option Nat := benchNos.find? (fun b => ((leOf s e).bench b).run)

/-- What an error response does to the master that met it (R27): a logic engine trips its watchdog with cause 2, its running instance
is open; a loop core takes its bus-error exception at the present bundle. -/
def errorTaken (s : State) (m : Master) : State :=
  match m with
  | .le e =>
    match runningBench s e.val with
    | some b => leTrip s.next e.val b 2 ((Config.free32 s.seed).toNat % 65536)
    | none => s
  | .lc c =>
    let x := lcReady s c.val
    if lcRuns s c.val then lcExcept (setLc s c.val x) c.val x.pc 3 3 else s
  | _ => s

/-- ACCESS_ERROR (R27, R32): an access outside the map or against its access column; another one has no effect here. -/
def execAccessError (m : Master) (addr : Nat) (write : Bool) (s : State) : Res :=
  done (if busEnd s m addr write = .ok then s else errorTaken (busError s m addr write) m)

/-- FAB_LOG_IDX_WRITE (R32). -/
def execFabLogIdxWrite (v : Word) (s : State) : Res := done (putReg s .ap0 .fab 0 Reg.FAB.LOG_IDX v)

/-- FAB_CLEAR_LOG (R33). -/
def execFabClearLog (chk : BitVec 16) (s : State) : Res := done (sendCode s .ap0 .fab 0 0x10 chk)

/-- SCRUB (R35). -/
def execMemScrub (n : Fin 2) (chk : BitVec 16) (s : State) : Res := done (sendCode s .ap0 .mem n.val 0x10 chk)

/-- SCRUB_PASS_END (R35): the commanded pass ends, having met the errors `ecc` (R34). -/
def execScrubPassEnd (n : Fin 2) (ecc : List (Bool × Nat)) (s : State) : Res :=
  done (if powered s .mem n.val && (s.page (pk .mem n.val)).busy then scrubPass s n.val true ecc else s)

/-- SCRUB_TIMER (R35): a background pass ends, having met the errors `ecc` (R34). -/
def execScrubTimer (n : Fin 2) (t : Nat) (ecc : List (Bool × Nat)) (s : State) : Res :=
  done (let s1 := s.at t
    if powered s1 .mem n.val && rb s1 .mem n.val Reg.MEM.CFG 0 then scrubBack s1 n.val t ecc else s1)

end Sys2Proof.Machine
end

