-- ==== Sys2Proof/Machine/ControlExec.lean ====
section
/-! DEFINITION. The meanings of the commands and events of the control engines, PWM modules and converters (chapters 8 to 10). -/
namespace Sys2Proof.Machine

/-! ## Control slots and engines -/

/-- A sample event of a slot whose engine runs, where its trigger falls (R227): skipped when it comes too early, else the slot's boundary and then its output phase
(R225 to R227, R241). -/
def cslotSample (s : State) (k : Fin 64) (t : Nat) : State :=
  if !cslotLive s k.val || halted s (.ce ⟨k.val / 8, by omega⟩) || !csTriggered s k.val t then s
  else if csEarly s k.val t then csSkip (csTake s k.val t) k.val
  else
    let fresh := commitReady s .cslot k.val
    let s1 := boundary (csTake s k.val t) .cslot k.val
    if cslotLive s1 k.val then csOutput s1 k.val t fresh else s1

/-- CSLOT_SAMPLE_EVENT (R223, R225, R227, R241). -/
def execCslotSampleEvent (k : Fin 64) (t : Nat) (s : State) : Res := done (cslotSample (s.at t) k t)

/-- UPDATE_PHASE (R225, R235, R238): the matrix unit serves the next slot that waits. -/
def execUpdatePhase (e : Fin 8) (t : Nat) (err : Option CsErr) (s : State) : Res :=
  done (if halted s (.ce e) then s else ceServe (s.at t) e.val err)

/-- INPUT_WATCHDOG (R242). -/
def execInputWatchdog (k : Fin 64) (t : Nat) (s : State) : Res := done (dogAct (s.at t) k.val t)

/-- RT_EXPIRED (R244). -/
def execRtExpired (k : Fin 64) (t : Nat) (s : State) : Res := done (rtExpire (s.at t) k.val t)

/-- PLAUS_FAULT (R235). -/
def execPlausFault (k : Fin 64) (s : State) : Res := done (plausAct s k.val)

/-- REP_LEARN (R238, R246). -/
def execRepLearn (k : Fin 64) (chk : BitVec 16) (s : State) : Res := done (sendCode s .ap0 .cslot k.val 0x10 chk)

/-- REP_FREEZE (R238, R246). -/
def execRepFreeze (k : Fin 64) (chk : BitVec 16) (s : State) : Res := done (sendCode s .ap0 .cslot k.val 0x11 chk)

/-- REP_CLEAR (R246, Table 8-6). -/
def execRepClear (k : Fin 64) (chk : BitVec 16) (s : State) : Res := done (sendCode s .ap0 .cslot k.val 0x12 chk)

/-- REP_CLEAR_END (R246, Table 8-6). -/
def execRepClearEnd (k : Fin 64) (s : State) : Res := done (if powered s .cslot k.val then repClearDone s k.val else s)

/-- RIDE (R242, Table 8-6). -/
def execCslotRide (k : Fin 64) (chk : BitVec 16) (s : State) : Res := done (sendCode s .ap0 .cslot k.val 0x13 chk)

/-- RESET_STATE (R226, R246). -/
def execResetState (k : Fin 64) (chk : BitVec 16) (s : State) : Res := done (sendCode s .ap0 .cslot k.val 0x14 chk)

/-- REP_DATA_ACCESS (R240): a write of a bin, or a read. -/
def execRepDataAccess (k : Fin 64) (v : Option Word) (s : State) : Res :=
  done (match v with
    | some w => putReg s .ap0 .cslot k.val Reg.CSLOT.REP_DATA w
    | none => getReg s .ap0 .cslot k.val Reg.CSLOT.REP_DATA)

/-- CE_UCODE_LOADED (R248). -/
def execCeUcodeLoaded (e : Fin 8) (t : Nat) (s : State) : Res := done (ceLoaded (s.at t) e.val)

/-! ## PWM modules and fault inputs -/

/-- A module's commit boundary: the commit, unless the module stays in HOLD, then the command and FREEZE (R51, R52, R255). -/
def pwmBoundary (s : State) (n : Nat) : State :=
  let p := s.page (pk .pwm n)
  let resumes := !p.freeze && (p.frozen || (p.cmd.any (fun c => c.code == 4) && !blocked s .pwm n))
  freezeStep (cmdBoundary (if stOf s .pwm n != .hold || resumes then commitBoundary s .pwm n else s) .pwm n) .pwm n

/-- A zero event, a period event, or both at once (R251, R255, R260). -/
def pwmAtEvent (s : State) (n t : Nat) (zero period : Bool) : State :=
  let s1 := if pwmBoundaryAt s n zero period then pwmBoundary s n else s
  if inSt s1 .pwm n [.run, .hold, .safe, .fault] then pwmEvent s1 n t zero period else s1

/-- PWM_ZERO_EVENT (R251 to R262, R273): in up-count mode the period event falls with it. -/
def execPwmZeroEvent (n : Fin 32) (t : Nat) (s : State) : Res :=
  done (if pwmZeroOk s n.val t then pwmAtEvent (s.at t) n.val t true (!pwmUpDown s n.val) else s)

/-- PWM_PERIOD_EVENT (R251 to R262, R273): of an up-down module; in up-count mode it falls with the zero event. -/
def execPwmPeriodEvent (n : Fin 32) (t : Nat) (s : State) : Res :=
  done (if pwmPeriodOk s n.val t then pwmAtEvent (s.at t) n.val t false true else s)

/-- PWM_POSITION_TRIGGER (R260). -/
def execPwmPositionTrigger (n : Fin 32) (k : Fin 4) (t : Nat) (s : State) : Res :=
  done (pwmPosTrigger (s.at t) n.val k.val t)

/-- FORCE_WRITE (R262). -/
def execForceWrite (n : Fin 32) (v : Word) (s : State) : Res := done (putReg s .ap0 .pwm n.val Reg.PWM.FORCE v)

/-- FIN_TRIP (R264, R265): the levels of the fault pins after more than 2 ns. -/
def execFinTrip (raw : BitVec 16) (t : Nat) (s : State) : Res := done (finPins (s.at t) raw t)

/-- FIN_CLEAR (R265). -/
def execFinClear (chk : BitVec 16) (s : State) : Res := done (sendCode s .ap0 .fin 0 0x10 chk)

/-- PWM_CLOCK_LOSS (R266). -/
def execPwmClockLoss (t : Nat) (s : State) : Res := done (pwmLoseClock (s.at t))

/-- PWM_CLOCK_RETURN (R266). -/
def execPwmClockReturn (t : Nat) (s : State) : Res := done (pwmClockBack (s.at t))

/-- PWM_READBACK_MISMATCH (R268). -/
def execPwmReadbackMismatch (n : Fin 32) (out : Fin 6) (held : Nat) (s : State) : Res := done (pwmReadback s n.val out.val held)

/-! ## Fast and precision converters -/

/-- FCH_EFFECTIVE_TRIGGER (R278 to R280): the channel's boundary, then the trigger. -/
def execFchEffectiveTrigger (c : Fin 96) (t : Nat) (s : State) : Res :=
  let s1 := s.at t
  done (if stOf s1 .fch c.val == .run && fchDueAt s1 c.val t then fchTrig (boundary (fchTake s1 c.val t) .fch c.val) c.val t else s1)

/-- FCH_TRIGGER (R294). -/
def execFchTrigger (c : Fin 96) (chk : BitVec 16) (s : State) : Res := done (sendCode s .ap0 .fch c.val 0x10 chk)

/-- CONV_END (R280 to R283, R286). -/
def execConvEnd (c : Fin 96) (t : Nat) (qs other : List (BitVec 16)) (s : State) : Res :=
  done (fchEnd (s.at t) c.val t (qs.map (fun q => q.toInt)) (other.map (fun q => q.toInt)))

/-- FCH_LIMIT (R283). -/
def execFchLimit (c : Fin 96) (s : State) : Res := done (if stOf s .fch c.val == .off then s else fchLimitAct s c.val)

/-- FCG_CAL (R284). -/
def execFcgCal (g : Fin 3) (chk : BitVec 16) (s : State) : Res := done (sendCode s .ap0 .fcg g.val 0x10 chk)

/-- BOBBIN_CAL_END (R284, Table 10-2). -/
def execBobbinCalEnd (g : Fin 3) (t : Nat) (ofs : Int) (gain : Nat) (s : State) : Res := done (bobEnd (s.at t) g.val t ofs gain)

/-- SHADOW_COMPLETE (R286, Table 10-2). -/
def execShadowComplete (g : Fin 3) (t : Nat) (s : State) : Res := done (calCompare (s.at t) g.val 2 t)

/-- CONVERTER_CAL_END (R284, R285). -/
def execConverterCalEnd (g : Fin 3) (t : Nat) (ofs : Int) (gain : Nat) (s : State) : Res :=
  done (convCalEnd (s.at t) g.val t ofs gain)

/-- VERIFY_COMPLETE (R286, Table 10-2). -/
def execVerifyComplete (g : Fin 3) (t : Nat) (s : State) : Res := done (calCompare (s.at t) g.val 4 t)

/-- CAL_TIMEOUT (R287). -/
def execCalTimeout (g : Fin 3) (t : Nat) (s : State) : Res := done (calTimeoutAct (s.at t) g.val t)

/-- CONVERSION_FAILURE (R289). -/
def execConversionFailure (c : Fin 96) (t : Nat) (s : State) : Res := done (convFails (s.at t) c.val t)

/-- AUTO_CAL_TIMER (R290). -/
def execAutoCalTimer (g : Fin 3) (t : Nat) (s : State) : Res := done (autoCal (s.at t) g.val t)

/-- STARTUP_CAL_END (R291). -/
def execStartupCalEnd (g : Fin 3) (t : Nat) (cs : List (Int × Nat)) (s : State) : Res := done (startupEnd (s.at t) g.val t cs)

/-- Whether a converter's next output word is the one given: of the channel being converted when its time has come, or of CAL. -/
def pcvDue (s : State) (k t : Nat) (p : Option (Fin 16)) : Bool :=
  match p with
  | some c => (pcvOf s k).conv == some (c.val, s.lap t)
  | none => pcvCalDue s k

/-- Whether a commit changed what a channel of a converter is converted with (R303). -/
def pcvChanged (s s1 : State) (k p : Nat) : Bool :=
  rg s .pcv k (Reg.PCV.CH_CFG + 4 * p) != rg s1 .pcv k (Reg.PCV.CH_CFG + 4 * p) ||
    rg s .pcv k (Reg.PCV.CH_OSR + 4 * p) != rg s1 .pcv k (Reg.PCV.CH_OSR + 4 * p)

/-- PCV_OUTPUT_WORD (R299 to R303): the word of a channel or of a calibration, then the converter's boundary and its next conversion. -/
def execPcvOutputWord (k : Fin 8) (t : Nat) (p : Option (Fin 16)) (w : Int) (s : State) : Res :=
  let s1 := s.at t
  done (if stOf s1 .pcv k.val == .run && pcvDue s1 k.val t p then
      match p with
      | some c =>
        let s2 := pcvWord s1 k.val t c.val w
        let s3 := boundary s2 .pcv k.val
        if stOf s3 .pcv k.val == .run then pcvMove s3 k.val t c.val (pcvChanged s2 s3 k.val c.val) else s3
      | none =>
        let s2 := boundary s1 .pcv k.val
        if stOf s2 .pcv k.val == .run then pcvCalWord s2 k.val t w else s2
    else s1)

/-- PCV_CAL (R302). -/
def execPcvCal (k : Fin 8) (chk : BitVec 16) (s : State) : Res := done (sendCode s .ap0 .pcv k.val 0x10 chk)

end Sys2Proof.Machine
end

