-- ==== Sys2Proof/Machine/FieldExec.lean ====
section
/-! DEFINITION. The meanings of the commands and events of field inputs and outputs, security, power, clocks, reset and pads (chapters 18
to 21). -/
namespace Sys2Proof.Machine

/-! ## Field inputs and outputs -/

/-- FIELD_REFRESH (R474 to R478): the page's boundary, then the frames. -/
def execFieldRefresh (t : Nat) (a0 a1 : DieAns) (s : State) : Res :=
  let s1 := s.at t
  done (if refreshAt s1 t then fieldRefresh (if boundaryRuns s1 .dio 0 then boundary s1 .dio 0 else s1) t a0 a1 else s1)

/-- DIE_LOST (R473, R475). -/
def execDieLost (d : Fin 2) (t : Nat) (s : State) : Res := done (dieLost s d.val t)

/-- DIO_INPUT_ACCEPT (R479). -/
def execDioInputAccept (i : Fin 32) (level : Bool) (s : State) : Res := done (inputAccept s i.val level)

/-- WIRE_BREAK (R480). -/
def execWireBreak (i : Fin 32) (s : State) : Res := done (wireBreak s i.val)

/-- WIRE_BREAK_CLEAR (R480). -/
def execWireBreakClear (i : Fin 32) (s : State) : Res := done (wireClear s i.val)

/-- OUTPUT_DIAGNOSTIC (R483). -/
def execOutputDiagnostic (o : Fin 16) (kind : Fin 4) (s : State) : Res := done (outputDiag s o.val kind.val)

/-- OC_RETRY (R483). -/
def execOcRetry (o : Fin 16) (holds : Bool) (s : State) : Res := done (ocRetry s o.val holds)

/-- OVER_TEMPERATURE_RECOVERY (R483). -/
def execOverTemperatureRecovery (o : Fin 16) (s : State) : Res := done (otRecover s o.val)

/-- CLEAR_DIAG (R488). -/
def execClearDiag (chk : BitVec 16) (s : State) : Res := done (sendCode s .ap0 .dio 0 0x10 chk)

/-- FIELD_SILENCE (R484, R485). -/
def execFieldSilence (d : Fin 2) (t : Nat) (s : State) : Res := done (fieldSilence s d.val t)

/-- LPLUS_LOW (R474). -/
def execLplusLow (d : Fin 2) (s : State) : Res := done (lplusLow s d.val)

/-- LPLUS_RESTORE (R474). -/
def execLplusRestore (d : Fin 2) (s : State) : Res := done (lplusRestore s d.val)

/-- VISO_IN_LOSS (R473). -/
def execVisoInLoss (s : State) : Res := done (visoLoss s)

/-! ## Security -/

/-- LC_ADVANCE (R492 to R494). -/
def execLcAdvance (m : Master) (chk : BitVec 16) (s : State) : Res := done (sendCode s m .sec 0 0x10 chk)

/-- KEY_LOAD (R503). -/
def execKeyLoad (m : Master) (chk : BitVec 16) (s : State) : Res := done (sendCode s m .sec 0 0x11 chk)

/-- KEY_ERASE (R503). -/
def execKeyErase (m : Master) (chk : BitVec 16) (s : State) : Res := done (sendCode s m .sec 0 0x12 chk)

/-- KEY_ERASE_ALL (R503). -/
def execKeyEraseAll (m : Master) (chk : BitVec 16) (s : State) : Res := done (sendCode s m .sec 0 0x13 chk)

/-- ROLLBACK_SET (R497). -/
def execRollbackSet (m : Master) (chk : BitVec 16) (s : State) : Res := done (sendCode s m .sec 0 0x14 chk)

/-- ROOT_REVOKE (R496, R506). -/
def execRootRevoke (m : Master) (chk : BitVec 16) (s : State) : Res := done (sendCode s m .sec 0 0x15 chk)

/-- DERIVE (R502, R503). -/
def execSecDerive (m : Master) (chk : BitVec 16) (s : State) : Res := done (sendCode s m .sec 0 0x16 chk)

/-- PROVISION (R506). -/
def execSecProvision (m : Master) (chk : BitVec 16) (s : State) : Res := done (sendCode s m .sec 0 0x17 chk)

/-- NEW_CHALLENGE (R500, R501). -/
def execNewChallenge (m : Master) (chk : BitVec 16) (s : State) : Res := done (sendCode s m .dbg 0 0x10 chk)

/-- UNLOCK (R500, R501). -/
def execDbgUnlock (m : Master) (chk : BitVec 16) (s : State) : Res := done (sendCode s m .dbg 0 0x11 chk)

/-- LOCK (R500). -/
def execDbgLock (m : Master) (chk : BitVec 16) (s : State) : Res := done (sendCode s m .dbg 0 0x12 chk)

/-- TAMPER_ALARM (R504, R505). -/
def execTamperAlarm (sensor : Fin 5) (vbat : Bool) (b : BootRes) (s : State) : Res := done (tamper s sensor.val vbat b)

/-- JTAG_INSTRUCTION (R499). -/
def execJtagInstruction (i : JtagInstr) (b : BootRes) (s : State) : Res := done (jtagSelect s i b)

/-- VBAT_LOW (R502, R513). -/
def execVbatLow (s : State) : Res := done (vbatLow s)

/-! ## Power, clocks and reset -/

/-- DOMAIN_ON_COMPLETE (R510). `ecc`: the errors the training of PD12 met (R34). -/
def execDomainOnComplete (d : Fin 14) (ecc : List (Bool × Nat)) (s : State) : Res := done (domainOnDone s d.val ecc)

/-- DOMAIN_OFF_COMPLETE (R510). -/
def execDomainOffComplete (d : Fin 14) (s : State) : Res := done (domainOffDone s d.val)

/-- BROWNOUT (R512). -/
def execBrownout (d : Fin 14) (s : State) : Res := done (brownOut s d.val)

/-- BROWNOUT_RECOVERY (R512). -/
def execBrownoutRecovery (d : Fin 14) (s : State) : Res := done (brownEnd s d.val)

/-- POWER_ON_RESET (R514 to R517, R495). -/
def execPowerOnReset (b : BootRes) (s : State) : Res := done (powerOn s b)

/-- SYSTEM_RESET (R513 to R517). -/
def execSystemReset (cause : Fin 6) (b : BootRes) (s : State) : Res := done (systemReset s cause.val b)

/-- RESET of SYS (R514, R518): a system reset with cause SW, with what the start-up finds. -/
def execSysReset (m : Master) (chk : BitVec 16) (b : BootRes) (s : State) : Res :=
  done (if answers s ⟨.sys, 0⟩ && (cmdRefusal s .sys 0 m (chk ++ 0x0010#16)).isNone then systemReset s 2 b
    else sendCode s m .sys 0 0x10 chk)

/-- STAGE_WRITE (R516, R518). -/
def execStageWrite (m : Master) (v : Word) (s : State) : Res := done (putReg s m .sys 0 Reg.SYS.STAGE v)

/-- IRQ_SEL_WRITE (R519). -/
def execIrqSelWrite (v : Word) (s : State) : Res := done (putReg s .ap0 .sys 0 Reg.SYS.IRQ_SEL v)

/-- IRQ_LINE_WRITE (R519). -/
def execIrqLineWrite (v : Word) (s : State) : Res := done (putReg s .ap0 .sys 0 Reg.SYS.IRQ_LINE v)

/-- REFERENCE_LOSS (R509). -/
def execReferenceLoss (s : State) : Res := done (refLoss s)

/-- REFERENCE_LOCK (R508, R509). -/
def execReferenceLock (s : State) : Res := done (refLock s)

/-- PLL_LOCK_LOSS (R509, R512). -/
def execPllLockLoss (p : Fin 4) (s : State) : Res := done (pllLoss s p.val)

/-! ## Pads -/

/-- GPIO_EDGE (R540). -/
def execGpioEdge (pad : Fin 616) (level : Bool) (s : State) : Res := done (gpioEdge s pad.val level)

/-- GPIO_OUT_SET (R540). -/
def execGpioOutSet (w : Fin 20) (v : Word) (s : State) : Res := done (putReg s .ap0 .gpio 0 (Reg.GPIO.OUT_SET + 4 * w.val) v)

/-- GPIO_OUT_CLR (R540). -/
def execGpioOutClr (w : Fin 20) (v : Word) (s : State) : Res := done (putReg s .ap0 .gpio 0 (Reg.GPIO.OUT_CLR + 4 * w.val) v)

end Sys2Proof.Machine
end

