-- ==== Sys2Proof/Machine/HostExec.lean ====
section
/-! DEFINITION. The meanings of the commands and events of the host paths, serial ports, Ethernet, application cores and CAN (chapters
16 and 17). -/
namespace Sys2Proof.Machine

/-! ## PCI Express and the DMA channels -/

/-- PCIE_REQUEST (R27, R428). -/
def execPcieRequest (r : PcieReq) (s : State) : Res := done (pcieServe s r)

/-- MSIX_UNMASK (R66, R429): a vector unmasked, or the function as a whole. -/
def execMsixUnmask (v : Option (Fin 64)) (s : State) : Res := done (msixUnmask s v)

/-- CH_TAIL_WRITE (R430). -/
def execChTailWrite (c : Fin 16) (v : Word) (s : State) : Res := done (putReg s .ap0 .pcie 0 (chOff c.val Reg.PCIE.CH_TAIL) v)

/-- DMA_DESCRIPTOR (R430, R431). -/
def execDmaDescriptor (c : Fin 16) (desc : List Word) (src : List Nat) (hostErr : Option Nat) (ecc : List (Bool × Nat)) (s : State) : Res :=
  done (dmaStep s c.val desc src hostErr ecc)

/-- PCIE_LINK_RESET (R432): a hot reset, or a function-level reset. -/
def execPcieLinkReset (flr : Bool) (s : State) : Res := done (pcieReset s flr)

/-- PCIE_LINK_UP (R426, R427). -/
def execPcieLinkUp (speed width : Fin 8) (s : State) : Res := done (pcieLink s speed.val width.val)

/-! ## The host serial port -/

/-- HSP_READ (R433 to R436). -/
def execHspRead (t : Nat) (alive : BitVec 8) (len addr : Nat) (crc : BitVec 16) (early : Bool) (ecc : List (Bool × Nat)) (s : State) : Res :=
  done (hspReadFrame s t alive.toNat len addr crc early ecc)

/-- HSP_WRITE (R433 to R437). -/
def execHspWrite (t : Nat) (alive : BitVec 8) (len addr : Nat) (data : List Nat) (crc : BitVec 16) (early : Bool) (s : State) : Res :=
  done (hspWriteFrame s t alive.toNat len addr (data.map ofN) crc early)

/-- HSP_STATUS (R433 to R435). -/
def execHspStatus (t : Nat) (alive : BitVec 8) (addr : Nat) (crc : BitVec 16) (early : Bool) (s : State) : Res :=
  done (hspStatusFrame s t alive.toNat addr crc early)

/-- HSP_SILENT (R435). -/
def execHspSilent (t : Nat) (s : State) : Res := done (hspSilent s t)

/-- HSP_BAD_FRAME (R434, R437). -/
def execHspBadFrame (s : State) : Res := done (if stOf s .hsp 0 == .run then hspBad s else s)

/-! ## Memory and peripheral serial ports -/

/-- XIP_READ (R440). -/
def execXipRead (p : Fin 2) (m : Master) (off : BitVec 28) (fetch : List (List Nat)) (ecc : List (Bool × Nat)) (s : State) : Res :=
  done (xipRead s p.val m off.toNat fetch ecc)

/-- INDIRECT (R441). -/
def execMspIndirect (p : Fin 2) (m : Master) (chk : BitVec 16) (s : State) : Res := done (sendCode s m .msp p.val 0x10 chk)

/-- INDIRECT_DONE (R441): the end of the transaction is the page's boundary (Table 2-1). -/
def execMspIndirectDone (p : Fin 2) (data : List Nat) (s : State) : Res := done (settleCommit (indirectDone s p.val data) .msp p.val)

/-- INDIRECT_TIMEOUT (R441). -/
def execMspIndirectTimeout (p : Fin 2) (t : Nat) (s : State) : Res :=
  done (settleCommit (indirectTimeout s p.val t) .msp p.val)

/-- PSP_FRAME (R442 to R444): the end of the frame is the port's boundary (Table 2-1). -/
def execPspFrame (n : Fin 8) (t : Nat) (rx : List Word) (crc : BitVec 16) (s : State) : Res :=
  let s1 := s.at t
  let s2 := pspEnd s1 n.val t rx crc.toNat
  done (if pspBusy s1 n.val && !pspBusy s2 n.val then boundary s2 .psp n.val else s2)

/-- PSP_TRIGGER (R442). -/
def execPspTrigger (n : Fin 8) (chk : BitVec 16) (s : State) : Res := done (sendCode s .ap0 .psp n.val 0x10 chk)

/-! ## Ethernet -/

/-- ETH_RECEIVE (R382, R385, R445 to R447). -/
def execEthReceive (p : Fin 3) (t : Nat) (frame : List Nat) (good : Bool) (te : Nat) (ecc : List (Bool × Nat)) (s : State) : Res :=
  done (ethReceive s p.val t frame good te ecc)

/-- ETH_TRANSMIT (R383, R384, R447). -/
def execEthTransmit (p : Fin 3) (t : Nat) (ecc : List (Bool × Nat)) (s : State) : Res := done (ethTransmit s p.val t ecc)

/-- ETH_ADDRESS_AGE (R446). -/
def execEthAddressAge (t : Nat) (s : State) : Res := done (ethAge s t)

/-- ETH_LINK_CHANGE (R445). -/
def execEthLinkChange (p : Fin 3) (up : Bool) (speed : Fin 4) (an : Bool) (s : State) : Res := done (ethLink s p.val up speed.val an)

/-- MDIO_ACCESS (R445). -/
def execMdioAccess (p : Fin 3) (v : Word) (s : State) : Res := done (putReg s .ap0 .eth p.val Reg.ETH.MDIO v)

/-- MDIO_DONE (R445). -/
def execMdioDone (data : BitVec 16) (s : State) : Res := done (mdioDone s data.toNat)

/-! ## Application cores -/

/-- RESTART_AP0 (R448). -/
def execRestartAp0 (chk : BitVec 16) (s : State) : Res := done (sendCode s .ap0 .apc 0 0x10 chk)

/-- RESTART_AP1 (R448). -/
def execRestartAp1 (chk : BitVec 16) (s : State) : Res := done (sendCode s .ap0 .apc 0 0x11 chk)

/-- READY_WRITE (R448). -/
def execReadyWrite (m : Master) (v : Word) (s : State) : Res := done (putReg s m .apc 0 Reg.APC.READY v)

/-- RESTART_TIMEOUT (R448). -/
def execRestartTimeout (t : Nat) (s : State) : Res := done (restartTimeout s t)

/-- MB_RING (R449). -/
def execMbRing (m : Master) (v : Word) (s : State) : Res := done (putReg s m .apc 0 Reg.APC.MB_RING v)

/-- MB_RSP_RING (R449). -/
def execMbRspRing (m : Master) (v : Word) (s : State) : Res := done (putReg s m .apc 0 Reg.APC.MB_RSP_RING v)

/-- MB_ACK (R449). -/
def execMbAck (m : Master) (w : Word) (s : State) : Res := done (putReg s m .apc 0 Reg.APC.MB_ACK w)

/-! ## CAN -/

/-- CAN_FRAME_RECEIVE (R457, R458, R463, R464). -/
def execCanFrameReceive (k : Fin 8) (tsof t : Nat) (f : CanFrame) (s : State) : Res := done (canReceive s k.val tsof t f)

/-- TX_REQ (R460). -/
def execTxReq (k : Fin 8) (w : Fin 4) (v : Word) (s : State) : Res :=
  done (putReg s .ap0 .can k.val (Reg.CAN.TX_REQ + 4 * w.val) v)

/-- TX_CANCEL (R461); `onBus`: the object whose frame is on the bus. -/
def execTxCancel (k : Fin 8) (w : Fin 4) (v : Word) (onBus : Option (Fin 128)) (s : State) : Res :=
  let s1 := putReg s .ap0 .can k.val (Reg.CAN.TX_CANCEL + 4 * w.val) 0
  done (if answers s ⟨.can, k.val⟩ && !(s.page (pk .can k.val)).locked then
      txCancelWrite s1 k.val w.val v (onBus.map (fun n => n.val))
    else s1)

/-- CAN_FRAME_SENT (R460 to R463). -/
def execCanFrameSent (k : Fin 8) (tsof t : Nat) (tdc : Fin 128) (s : State) : Res := done (canSent s k.val tsof t tdc.val)

/-- CAN_ARBITRATION_LOST (R462). -/
def execCanArbitrationLost (k : Fin 8) (tsof t : Nat) (s : State) : Res := done (canArbLost s k.val tsof t)

/-- CAN_ERROR (R467). -/
def execCanError (k : Fin 8) (tx : Bool) (inc : Fin 9) (lec : Fin 7) (tsof t : Nat) (s : State) : Res :=
  done (canError s k.val tx inc.val lec.val tsof t)

/-- RX_FULL_WRITE (R458). -/
def execRxFullWrite (k : Fin 8) (w : Fin 4) (v ev : Word) (s : State) : Res :=
  done (pageWrite s .ap0 ⟨.can, k.val⟩ (Reg.CAN.RX_FULL + 4 * w.val) v ev)

/-- OBJ_IDX_WRITE (R459). -/
def execObjIdxWrite (k : Fin 8) (v : Word) (s : State) : Res := done (putReg s .ap0 .can k.val Reg.CAN.OBJ_IDX v)

/-- OBJ_HDR_READ (R459). -/
def execObjHdrRead (k : Fin 8) (s : State) : Res := done (getReg s .ap0 .can k.val Reg.CAN.OBJ_HDR)

/-- CAN_CYCLIC_REQUEST (R465). -/
def execCanCyclicRequest (k : Fin 8) (n : Fin 128) (t : Nat) (s : State) : Res := done (canCyclic s k.val n.val t)

/-- RX_STALE (R465). -/
def execRxStale (k : Fin 8) (h : Fin 128) (t : Nat) (s : State) : Res := done (canStale s k.val h.val t)

/-- TIME_REFERENCE (R466). -/
def execTimeReference (k : Fin 8) (t : Nat) (onBus : Bool) (s : State) : Res := done (canReference s k.val t onBus)

/-- RECOVER of CAN (R468). -/
def execCanRecover (k : Fin 8) (chk : BitVec 16) (s : State) : Res := done (sendCode s .ap0 .can k.val 0x10 chk)

/-- CAN_RECOVERY_END (R468). -/
def execCanRecoveryEnd (k : Fin 8) (s : State) : Res := done (canRecovered s k.val)

/-- CAN_BUS_INTEGRATION (R467, R469). -/
def execCanBusIntegration (k : Fin 8) (s : State) : Res := done (canIntegrated s k.val)

end Sys2Proof.Machine
end

