-- ==== Sys2Proof/Machine/LogicExec.lean ====
section
/-! DEFINITION. The meanings of the commands and events of the logic engines, forces, recipes, signals, acquisition units and the record
store (chapters 1 and 11 to 13). -/
namespace Sys2Proof.Machine

/-! ## Logic engines -/

/-- A release instant in HOLD: CONTINUE, or FREEZE=0 after a HOLD that only FREEZE caused, takes the engine to RUN (Table 11-7). -/
def leResume (s : State) (e : Nat) : State :=
  let p := s.page (pk .le e)
  if stOf s .le e == .hold && !p.freeze then
    if p.frozen then freezeStep s .le e
    else if p.cmd.any (fun c => c.code == 4) then cmdBoundary s .le e
    else s
  else s

/-- BENCH_RELEASE (R313). -/
def execBenchRelease (e : Fin 6) (b : Fin 4) (t : Nat) (s : State) : Res :=
  let s1 := s.at t
  done (if halted s1 (.le e) || !powered s1 .le e.val then s1
    else
      let s2 := if leBenchEn s1 e.val b.val && leReleaseAt s1 e.val b.val (s1.lap t) then leResume s1 e.val else s1
      leRelease s2 e.val b.val t)

/-- A bench that is released starts its cycle: the commit, the command and FREEZE first, then the snapshot (R314, R323). -/
def benchStart (s : State) (e b : Nat) (ecc : List (Bool × Nat)) : State :=
  if leMayStart s e b then
    let s1 := leCycleBoundary s e b
    let s2 := if stOf s1 .le e == .run then freezeStep (cmdBoundary s1 .le e) .le e else s1
    if leMayStart s2 e b then leStart s2 e b ecc else s2
  else s

/-- BENCH_CYCLE_START (R22, R314, R319, R323). -/
def execBenchCycleStart (e : Fin 6) (b : Fin 4) (t : Nat) (ecc : List (Bool × Nat)) (s : State) : Res :=
  let s1 := s.at t
  done (if halted s1 (.le e) then s1 else benchStart s1 e.val b.val ecc)

/-- BENCH_CYCLE_END (R314, R316, R318). -/
def execBenchCycleEnd (e : Fin 6) (b : Fin 4) (t : Nat) (acts : List LeAct) (s : State) : Res :=
  let s1 := s.at t
  done (if halted s1 (.le e) then s1 else leEnd s1 e.val b.val acts)

/-- LE_WATCHDOG_TRIP (R318): a released cycle has gone beyond its budget. -/
def execLeWatchdogTrip (e : Fin 6) (b : Fin 4) (t : Nat) (i : Fin 65536) (s : State) : Res :=
  let s1 := s.at t
  done (if inSt s1 .le e.val [.run, .hold] && !halted s1 (.le e) && leOverdue s1 e.val b.val then leTrip s1 e.val b.val 1 i.val
    else s1)

/-- LOAD of an engine (R312). -/
def execLeLoad (e : Fin 6) (chk : BitVec 16) (s : State) : Res := done (sendCode s .ap0 .le e.val 0x10 chk)

/-- LE_LOAD_END (R312). -/
def execLeLoadEnd (e : Fin 6) (prog : List LeCode) (env : List (Nat × LeCode)) (ecc : List (Bool × Nat)) (s : State) : Res :=
  done (match (leOf s e.val).src with
    | some a =>
      let n := max 64 (imgW s a 4)
      if powered s .le e.val then leLoadEnd (eccRead s (.le e) ecc a n) e.val prog env (eccSpoils ecc a n) else s
    | none => s)

/-- UNLOAD of an engine (R312, R325). -/
def execLeUnload (e : Fin 6) (chk : BitVec 16) (s : State) : Res := done (sendCode s .ap0 .le e.val 0x11 chk)

/-- RESET_INST (R325, Table 11-8). -/
def execResetInst (e : Fin 6) (chk : BitVec 16) (s : State) : Res := done (sendCode s .ap0 .le e.val 0x12 chk)

/-! ## Forces -/

/-- A window operation of FRC: the window staged, the commit with its CRC, and its validation (R328). -/
def frcOp (s : State) (op id : Nat) (v : Option (BitVec 64)) : State :=
  let s1 := putReg s .ap0 .frc 0 Reg.FRC.ENTRY_ID (ofN id)
  let s2 := match v with
    | some w => putReg (putReg s1 .ap0 .frc 0 Reg.FRC.ENTRY_VAL_LO (w.setWidth 32)) .ap0 .frc 0 Reg.FRC.ENTRY_VAL_HI
        ((w >>> 32).setWidth 32)
    | none => s1
  let s3 := putReg s2 .ap0 .frc 0 Reg.FRC.ENTRY_CTRL (ofN op)
  let s4 := putReg s3 .ap0 .frc 0 0x01C (stagedCrc s3 .frc 0)
  if answers s4 ⟨.frc, 0⟩ then validationEnd s4 .frc 0 else s4

/-- FORCE_SET (R328, R329). -/
def execForceSet (id : BitVec 16) (v : BitVec 64) (s : State) : Res := done (frcOp s 1 id.toNat (some v))

/-- FORCE_RELEASE (R328, R329). -/
def execForceRelease (id : BitVec 16) (s : State) : Res := done (frcOp s 2 id.toNat none)

/-- RELEASE_ALL (R332). -/
def execReleaseAll (chk : BitVec 16) (s : State) : Res := done (sendCode s .ap0 .frc 0 0x10 chk)

/-! ## Recipes -/

/-- RSEQ_CLOCK_EDGE (R334). -/
def execRseqClockEdge (r : Fin 8) (t : Nat) (s : State) : Res := done (rseqEdge s r.val t)

/-- RSEQ_STEP_END (R334, R336, R341, R343, R344). -/
def execRseqStepEnd (r : Fin 8) (s : State) : Res := done (if stOf s .rseq r.val == .off then s else rseqStepEnd s r.val)

/-- WAIT_TIMEOUT (R336, R341). -/
def execWaitTimeout (r : Fin 8) (s : State) : Res := done (if stOf s .rseq r.val == .off then s else rseqTimeout s r.val)

/-- RSEQ_PULSE_END (R339). -/
def execRseqPulseEnd (r : Fin 8) (s : State) : Res := done (if stOf s .rseq r.val == .off then s else rseqPulseEnds s r.val)

/-- LOAD of a recipe sequencer (R337). -/
def execRseqLoad (r : Fin 8) (chk : BitVec 16) (s : State) : Res := done (sendCode s .ap0 .rseq r.val 0x10 chk)

/-- RSEQ_LOAD_END (R337). -/
def execRseqLoadEnd (r : Fin 8) (ecc : List (Bool × Nat)) (s : State) : Res :=
  done (match (rseqOf s r.val).src with
    | some (a, _) =>
      let n := max 64 (imgW s a 4)
      if powered s .rseq r.val then rseqLoadEnd (eccRead s .fixedBlock ecc a n) r.val (eccSpoils ecc a n) else s
    | none => s)

/-- UNLOAD of a recipe sequencer (R347, Table 12-6). -/
def execRseqUnload (r : Fin 8) (chk : BitVec 16) (s : State) : Res := done (sendCode s .ap0 .rseq r.val 0x11 chk)

/-- BRANCH_ABORT (R341, Table 12-6). -/
def execBranchAbort (r : Fin 8) (chk : BitVec 16) (s : State) : Res := done (sendCode s .ap0 .rseq r.val 0x12 chk)

/-- TLOG_CLEAR (R347, Table 12-6). -/
def execTlogClear (r : Fin 8) (chk : BitVec 16) (s : State) : Res := done (sendCode s .ap0 .rseq r.val 0x13 chk)

/-- TLOG_ENT_READ (R345). -/
def execTlogEntRead (r : Fin 8) (s : State) : Res := done (getReg s .ap0 .rseq r.val Reg.RSEQ.TLOG_ENT)

/-! ## Signals -/

/-- ENT_ID_WRITE (R350). -/
def execEntIdWrite (v : Word) (s : State) : Res := done (putReg s .ap0 .sig 0 Reg.SIG.ENT_ID v)

/-- SIG_COPY_END (R350). -/
def execSigCopyEnd (s : State) : Res := done (if powered s .sig 0 then sigCopyEnd s else s)

/-- LOAD of the signal table (R353). -/
def execSigLoad (chk : BitVec 16) (s : State) : Res := done (sendCode s .ap0 .sig 0 0x10 chk)

/-- SIG_LOAD_END (R353). -/
def execSigLoadEnd (ecc : List (Bool × Nat)) (s : State) : Res := done (if powered s .sig 0 then sigLoadEnd s ecc else s)

/-! ## Acquisition and the record store -/

/-- HISTORY_APPEND (R357, R359); the words the store reads may be wrong (R34). -/
def execHistoryAppend (t : Nat) (ecc : List (Bool × Nat)) (s : State) : Res := done (eccAll (histAppend (s.at t)) ecc)

/-- ACQ_SAMPLE (R360 to R364). -/
def execAcqSample (u : Fin 16) (t : Nat) (pads : Word) (s : State) : Res := done (acqSample s u.val t pads)

/-- ACQ_TRIGGER (R364, R366): an event that is no sample's. -/
def execAcqTrigger (u : Fin 16) (t : Nat) (s : State) : Res := done (acqTriggerEvent (s.at t) u.val t)

/-- TRIGGER of an acquisition unit (R364, R373). -/
def execAcqTriggerCmd (u : Fin 16) (chk : BitVec 16) (s : State) : Res := done (sendCode s .ap0 .acq u.val 0x10 chk)

/-- REARM (R367, R368, R373). -/
def execAcqRearm (u : Fin 16) (chk : BitVec 16) (s : State) : Res := done (sendCode s .ap0 .acq u.val 0x11 chk)

/-- POST_COMPLETE (R365, R367). -/
def execPostComplete (u : Fin 16) (t : Nat) (s : State) : Res := done (acqPostComplete (s.at t) u.val)

/-- REARM_END (R367). -/
def execAcqRearmEnd (u : Fin 16) (t : Nat) (s : State) : Res := done (acqRearmEnd (s.at t) u.val)

/-- EXPORT (R371, R372). -/
def execRecExport (chk : BitVec 16) (s : State) : Res := done (sendCode s .ap0 .recStore 0 0x10 chk)

/-- EXPORT_END (R371, R372). -/
def execRecExportEnd (lost : Bool) (ues : List Nat) (s : State) : Res := done (if powered s .recStore 0 then expEnd s lost ues else s)

end Sys2Proof.Machine
end

