-- ==== Sys2Proof/Machine/LoopBusExec.lean ====
section
/-! DEFINITION. The loop-core instructions that reach the system bus (R184), the illegal bundle, and the commands of `LSCH` and `LC`. -/
namespace Sys2Proof.Machine

/-- A word stored by STG; one into the core's own X memory is made in the target of a stitch-over too (Table 7-2). -/
def globalStore (s : State) (c : Fin 18) (ad : Nat) (v : Word) : State :=
  let s1 := busWrite s (.lc c) ad v
  if s1.resp.fin = .ok && lcAddr c.val 1 0 ≤ ad && ad < lcAddr c.val 2 0 then lcPut s1 c.val (ad / 4 * 4, v) else s1

/-- The bus-error exception of an LDG or STG, whose bundle RETI issues again (R184, Table 6-8): the stall and the 160 cycles are over. -/
def globalError (s : State) (a : LcAt) (stall : Nat) : State :=
  let c := a.core.val
  let x := lcReady s c
  lcExcept (lcLoadMax (setLc (lcCounted s a) c { x.charge 160 with cyc := x.cyc + 1 + stall }) c) c x.pc 3 3

/-- LDG or STG at G0 or G1 plus 4 × OFS (R184): the core stalls `stall` cycles, and 160 are charged (R206). -/
def lcGlobal (s : State) (a : LcAt) (store g1 : Bool) (reg ofs stall : Nat) (ecc : List (Bool × Nat)) : State :=
  let c := a.core.val
  let x := lcReady s c
  let ad := x.reg (lcCtlKey x.level (if g1 then 8 else 7)) + 4 * ofs
  if lcGoes s a && reg < 32 then
    let s1 := if store then globalStore s a.core ad (lcStored (x.d reg)) else busRead s (.lc a.core) ad ecc
    if s1.resp.fin = .ok then
      lcIssue s1 a 1 false
        (fun _ x => if store then LcEff.none else LcEff.ofWr [x.wrCode reg s1.resp.lo.toNat (stall + 1)])
        (fun y => seqFlow 1 { y.charge 159 with cyc := y.cyc + stall })
    else globalError s1 a stall
  else lcIssue s a 1 false (fun _ _ => LcEff.illegal) (seqFlow 1)

/-- LDG (R184, R198). `ecc`: the errors its word meets (R33, R34). -/
def execLcLdg (a : LcAt) (g1 : Bool) (reg : Fin 64) (ofs : BitVec 17) (stall : Nat) (ecc : List (Bool × Nat)) (s : State) : Res :=
  done (lcGlobal s a false g1 reg.val ofs.toNat stall ecc)

/-- STG (R184, R198). -/
def execLcStg (a : LcAt) (g1 : Bool) (reg : Fin 64) (ofs : BitVec 17) (stall : Nat) (s : State) : Res :=
  done (lcGlobal s a true g1 reg.val ofs.toNat stall [])

/-- ILLEGAL_BUNDLE (R187, R195 to R198): words that spell no instruction take the exception and do nothing else; words that spell one
are no illegal bundle. -/
def execLcIllegalBundle (a : LcAt) (w v : Word) (s : State) : Res :=
  done (if (lcDecode a w v).isNone then lcIssue s a 1 false (fun _ _ => LcEff.illegal) (seqFlow 1) else s)

/-- A switch of a kind of operation at a base tick edge (R212, R215). -/
def switchAt (s : State) (t op : Nat) : State :=
  if powered s .time 0 && powered s .lsch 0 && tickFalls s t then tickSwitch (s.at t) op else s

/-- A switch tick moves the tasks (R212). -/
def execStitchSwitch (t : Nat) (s : State) : Res := done (switchAt s t 1)

/-- A fail-over switches at the first tick after its copy (R215). -/
def execFailoverSwitch (t : Nat) (s : State) : Res := done (switchAt s t 2)

/-- STITCH (R211). -/
def execLschStitch (chk : BitVec 16) (s : State) : Res := done (sendCode s .ap0 .lsch 0 0x10 chk)

/-- RESTART (R218). -/
def execLschRestart (chk : BitVec 16) (s : State) : Res := done (sendCode s .ap0 .lsch 0 0x11 chk)

/-- SELFTEST (R217). -/
def execLcSelftest (c : Fin 18) (chk : BitVec 16) (s : State) : Res := done (sendCode s .ap0 .lc c.val 0x10 chk)

end Sys2Proof.Machine
end

