-- ==== Sys2Proof/Machine/MotionExec.lean ====
section
/-! DEFINITION. The meanings of the commands and events of feedback, axes, profiles, position events and steppers (chapters 3 to 5). -/
namespace Sys2Proof.Machine

/-! ## Encoder channels -/

/-- ENC_EDGE_ACCEPT (R68 to R72, R84). -/
def execEncEdgeAccept (n : Fin 64) (t te : Nat) (a b z : Bool) (s : State) : Res := done (encEdge (s.at t) n.val t te a b z)

/-- ENC_INDEX (R73 to R77). -/
def execEncIndex (n : Fin 64) (t te : Nat) (s : State) : Res := done (encIndex (s.at t) n.val t te)

/-- STANDSTILL (R83). -/
def execStandstill (n : Fin 64) (t : Nat) (s : State) : Res := done (encStandstill (s.at t) n.val t)

/-- SET_POS (R75, R88). -/
def execSetPos (n : Fin 64) (chk : BitVec 16) (s : State) : Res := done (sendCode s .ap0 .enc n.val 0x10 chk)

/-- ARM_INDEX (R74, R88). -/
def execArmIndex (n : Fin 64) (chk : BitVec 16) (s : State) : Res := done (sendCode s .ap0 .enc n.val 0x11 chk)

/-- LEARN_LINES (R77, R88). -/
def execLearnLines (n : Fin 64) (chk : BitVec 16) (s : State) : Res := done (sendCode s .ap0 .enc n.val 0x12 chk)

/-! ## Synchronous serial masters -/

/-- SSN_FRAME_START (R92, R93, R97). -/
def execSsnFrameStart (m : Fin 16) (t : Nat) (s : State) : Res := done (ssnFrameAt (s.at t) m.val t)

/-- The end of a frame of a master, with the boundary that it is (Table 2-6, R96). -/
def ssnFrameOver (s : State) (m : Nat) (f : State → State) : State :=
  if stOf s .ssn m == .run && rb s .ssn m Reg.SSN.STAT 4 then
    let s1 := f s
    if !rb s1 .ssn m Reg.SSN.STAT 4 && boundaryRuns s1 .ssn m then boundary s1 .ssn m else s1
  else s

/-- SSN_FRAME_END (R92 to R97). -/
def execSsnFrameEnd (m : Fin 16) (t : Nat) (sl : Bool) (f : SsnFrame) (s : State) : Res :=
  done (ssnFrameOver (s.at t) m.val (fun s => ssnEnd s m.val t sl f))

/-- SSN_TIMEOUT (R92, R95). -/
def execSsnTimeout (m : Fin 16) (t : Nat) (f : Option SsnFrame) (s : State) : Res :=
  done (ssnFrameOver (s.at t) m.val (fun s => ssnTimeout s m.val t f))

/-- SSN_TRIGGER (R92, R96). -/
def execSsnTrigger (m : Fin 16) (chk : BitVec 16) (s : State) : Res := done (sendCode s .ap0 .ssn m.val 0x10 chk)

/-- CDM_TX_WRITE (R97). -/
def execCdmTxWrite (m : Fin 16) (v : Word) (s : State) : Res := done (putReg s .ap0 .ssn m.val Reg.SSN.CDM_TX v)

/-- CDS_RX_READ (R97). -/
def execCdsRxRead (m : Fin 16) (s : State) : Res := done (getReg s .ap0 .ssn m.val Reg.SSN.CDS_RX)

/-! ## Axes -/

/-- MOVE_ABS (R105, R108). -/
def execMoveAbs (n : Fin 128) (chk : BitVec 16) (s : State) : Res := done (sendCode s .ap0 .axis n.val 0x10 chk)

/-- MOVE_REL (R105, R108). -/
def execMoveRel (n : Fin 128) (chk : BitVec 16) (s : State) : Res := done (sendCode s .ap0 .axis n.val 0x11 chk)

/-- VELOCITY (R109). -/
def execAxisVelocity (n : Fin 128) (chk : BitVec 16) (s : State) : Res := done (sendCode s .ap0 .axis n.val 0x12 chk)

/-- GEAR_IN (R111, R112). -/
def execGearIn (n : Fin 128) (chk : BitVec 16) (s : State) : Res := done (sendCode s .ap0 .axis n.val 0x13 chk)

/-- GEAR_OUT (R113). -/
def execGearOut (n : Fin 128) (chk : BitVec 16) (s : State) : Res := done (sendCode s .ap0 .axis n.val 0x14 chk)

/-- CAM_IN (R117 to R119). -/
def execCamIn (n : Fin 128) (chk : BitVec 16) (s : State) : Res := done (sendCode s .ap0 .axis n.val 0x15 chk)

/-- CAM_OUT (R119). -/
def execCamOut (n : Fin 128) (chk : BitVec 16) (s : State) : Res := done (sendCode s .ap0 .axis n.val 0x16 chk)

/-- PVT_START (R117, R120). -/
def execPvtStart (n : Fin 128) (chk : BitVec 16) (s : State) : Res := done (sendCode s .ap0 .axis n.val 0x17 chk)

/-- FOLLOW_ON (R123). -/
def execFollowOn (n : Fin 128) (chk : BitVec 16) (s : State) : Res := done (sendCode s .ap0 .axis n.val 0x18 chk)

/-- FOLLOW_OFF (R125). -/
def execFollowOff (n : Fin 128) (chk : BitVec 16) (s : State) : Res := done (sendCode s .ap0 .axis n.val 0x19 chk)

/-- HOME (R134 to R137). -/
def execAxisHome (n : Fin 128) (chk : BitVec 16) (s : State) : Res := done (sendCode s .ap0 .axis n.val 0x1A chk)

/-- RESUME (R128). -/
def execAxisResume (n : Fin 128) (chk : BitVec 16) (s : State) : Res := done (sendCode s .ap0 .axis n.val 0x1B chk)

/-- QUICKSTOP (R126). -/
def execQuickstop (n : Fin 128) (chk : BitVec 16) (s : State) : Res := done (sendCode s .ap0 .axis n.val 0x1C chk)

/-- LIMIT_ACCEPT (R131, R133, R135). -/
def execLimitAccept (n : Fin 128) (t : Nat) (neg : Bool) (dt : Nat) (s : State) : Res := done (limitAccept (s.at t) n.val neg dt)

/-- LIMIT_RELEASE (R132, R135). -/
def execLimitRelease (n : Fin 128) (t : Nat) (neg : Bool) (s : State) : Res :=
  done (if stOf s .axis n.val == .off then s else limitRelease (s.at t) n.val neg)

/-- HOME_EDGE_ACCEPT (R135). -/
def execHomeEdgeAccept (n : Fin 128) (t : Nat) (active : Bool) (dt : Nat) (s : State) : Res :=
  done (if stOf s .axis n.val == .off then s else homeEdge (s.at t) n.val active dt)

/-! ## Pricking memory -/

/-- PRK_CHECK (R116, R142). -/
def execPrkCheck (n : Fin 4) (chk : BitVec 16) (s : State) : Res := done (sendCode s .ap0 .prk n.val 0x10 chk)

/-- PRK_CHECK_END (R116, R142). -/
def execPrkCheckEnd (n : Fin 4) (s : State) : Res := done (if powered s .prk n.val then prkCheckEnd s n.val else s)

/-- PRK_POINT_WRITE (R114, R116, R117): a word of a pricking store; an address of another region is no point of one. -/
def execPrkPointWrite (m : Master) (addr : Nat) (v : Word) (s : State) : Res :=
  done (if prkAddr 0 0 ≤ addr && addr < prkAddr 4 0 then busWrite s m addr v else s)

/-! ## Position comparators -/

/-- PCMP_FIRE (R144 to R149). -/
def execPcmpFire (n : Fin 64) (t : Nat) (s : State) : Res := done (pcmpFire (s.at t) n.val t)

/-- PCMP_PULSE_END (R147, R151). -/
def execPcmpPulseEnd (n : Fin 64) (t : Nat) (s : State) : Res :=
  done (if powered s .pcmp n.val then pcmpPulseEnd (s.at t) n.val t else s)

/-- PCMP_LATCH_EDGE (R153, R155). -/
def execPcmpLatchEdge (n : Fin 64) (te : Nat) (rising : Bool) (s : State) : Res := done (pcmpLatch s n.val te rising)

/-- MARK_WINDOW_OPEN (R155). -/
def execMarkWindowOpen (n : Fin 64) (t : Nat) (s : State) : Res := done (pcmpWinOpen (s.at t) n.val t)

/-- MARK_WINDOW_CLOSE (R155). -/
def execMarkWindowClose (n : Fin 64) (t : Nat) (s : State) : Res :=
  done (if powered s .pcmp n.val then pcmpWinClose (s.at t) n.val t else s)

/-- LATCH_QUEUE_READ (R154). -/
def execLatchQueueRead (n : Fin 64) (s : State) : Res := done (getReg s .ap0 .pcmp n.val Reg.PCMP.LATCH_POS_LO)

/-- FLUSH (R157). -/
def execPcmpFlush (n : Fin 64) (chk : BitVec 16) (s : State) : Res := done (sendCode s .ap0 .pcmp n.val 0x10 chk)

/-- LATCH_CLEAR (R157). -/
def execLatchClear (n : Fin 64) (chk : BitVec 16) (s : State) : Res := done (sendCode s .ap0 .pcmp n.val 0x11 chk)

/-! ## Steppers -/

/-- STEP_EMIT (R160, R161). -/
def execStepEmit (n : Fin 64) (t : Nat) (s : State) : Res := done (stepEmit (s.at t) n.val t)

/-- STEP_HOLD_AMP (R162). -/
def execStepHoldAmp (n : Fin 64) (t : Nat) (s : State) : Res := done (stepHoldAmp (s.at t) n.val t)

/-- EDIT_SEL_WRITE (R167). -/
def execEditSelWrite (v : Word) (s : State) : Res := done (putReg s .ap0 .ustp 0 Reg.USTP.EDIT_SEL v)

/-- USTP_COPY_END (R167). -/
def execUstpCopyEnd (s : State) : Res := done (if powered s .ustp 0 then ustpCopyEnd s else s)

end Sys2Proof.Machine
end

