-- ==== Sys2Proof/Machine/TimeExec.lean ====
section
/-! DEFINITION. The meanings of the commands and events of device time, the link and the fault manager (chapters 14 and 15). -/
namespace Sys2Proof.Machine

/-! ## Device time -/

/-- TIME_WRAP (R358, R375). -/
def execTimeWrap (t : Nat) (s : State) : Res := done (timeWrapAt s t)

/-- RATE_WRITE (R377). -/
def execRateWrite (v : Word) (s : State) : Res := done (putReg s .ap0 .time 0 Reg.TIME.RATE v)

/-- STEP (R378). -/
def execTimeStep (chk : BitVec 16) (s : State) : Res := done (sendCode s .ap0 .time 0 0x10 chk)

/-- FORCE_STEP (R378). -/
def execTimeForceStep (chk : BitVec 16) (s : State) : Res := done (sendCode s .ap0 .time 0 0x11 chk)

/-- STEP_APPLY (R376, R379). -/
def execTimeStepApply (t : Nat) (s : State) : Res := done (timeStepApply s t)

/-- HOLDOVER (R380). -/
def execHoldover (t : Nat) (s : State) : Res := done (holdoverAt s t)

/-- JOIN (R391). -/
def execTimeJoin (chk : BitVec 16) (s : State) : Res := done (sendCode s .ap0 .time 0 0x12 chk)

/-- JOIN_TIMEOUT (R391). -/
def execTimeJoinTimeout (t : Nat) (s : State) : Res := done (joinTimeout s t)

/-! ## The link -/

/-- LINK_FRAME_SEND (R388, R395). -/
def execLinkFrameSend (p : Fin 4) (t : Nat) (s : State) : Res := done (linkSend s p.val t)

/-- LINK_FRAME_RECEIVE (R389 to R392, R396): the end of a frame is the port's boundary (Table 2-1). -/
def execLinkFrameReceive (p : Fin 4) (ta t : Nat) (f : LinkFrame) (s : State) : Res :=
  let s1 := linkReceive s p.val ta t f
  done (if boundaryRuns s1 .dlk p.val then boundary s1 .dlk p.val else s1)

/-- LINK_DOWN (R389, R399). -/
def execLinkDown (p : Fin 4) (t : Nat) (s : State) : Res := done (linkDown s p.val t)

/-- NODE_LOST (R396). -/
def execNodeLost (node : Fin 32) (t : Nat) (s : State) : Res := done (nodeLost s node.val t)

/-- CALIBRATE (R393). -/
def execDlkCalibrate (p : Fin 4) (chk : BitVec 16) (s : State) : Res := done (sendCode s .ap0 .dlk p.val 0x10 chk)

/-- DLK_CALIBRATE_END (R393). -/
def execDlkCalibrateEnd (p : Fin 4) (tx rx : Word) (s : State) : Res := done (dlkCalEnd s p.val tx rx)

/-- DLK_FRAME_LOCK (R389, R399). -/
def execDlkFrameLock (p : Fin 4) (t : Nat) (s : State) : Res := done (linkLock s p.val t)

/-- TRIGGER_LINE_CHANGE (R394). -/
def execTriggerLineChange (l : Fin 8) (level : Bool) (t : Nat) (s : State) : Res := done (trgChange s l.val level t)

/-- TRIGGER_EVENT_DUE (R394). -/
def execTriggerEventDue (t : Nat) (s : State) : Res := done (trgDueAt s t)

/-! ## Timestamps of Ethernet -/

/-- TXQ_KEY_READ (R383). -/
def execTxqKeyRead (p : Fin 3) (s : State) : Res := done (getReg s .ap0 .ptp 0 (0x110 + 16 * p.val))

/-- TXQ_FLUSH (R386). -/
def execTxqFlush (chk : BitVec 16) (s : State) : Res := done (sendCode s .ap0 .ptp 0 0x10 chk)

/-! ## The fault manager -/

/-- FAULT_RAISE (R404 to R413): a page that raises a source does so; an uncorrectable error in the memory of a logic engine or a recipe sequencer
also acts on that page (Table 11-7, Table 12-5), whose bank or slot is `sub`; PWM_CLK affects the modules that were counting. -/
def execFaultRaise (src : Fin 64) (pg : PageId) (sub : Nat) (detail : BitVec 16) (s : State) : Res :=
  done (if !answers s pg || !(raisers src.val).contains pg.ty then s
    else
      let counting := (insts .pwm).foldl (fun w n => if pwmCounts s n then w ||| groupsOf s .pwm n else w) (0 : Word)
      let g := if src.val = 0x02 then counting else derivedGroups s src.val pg.ty pg.inst sub
      let s1 := raiseG s src.val pg.ty pg.inst sub detail.toNat g
      if src.val != 0x0A then s1
      else match pg.ty with
        | .le => leUe s1 pg.inst
        | .rseq => rseqUe s1 pg.inst (sub % 2)
        | _ => s1)

/-- FAULT_CONDITION_END (R404, R407): the condition of a level source ends. -/
def execFaultConditionEnd (src : Fin 64) (pg : PageId) (sub : Nat) (s : State) : Res :=
  done (if pg.present then endRaise s src.val pg.ty pg.inst sub else s)

/-- RECOVER (R416). -/
def execFltRecover (chk : BitVec 16) (s : State) : Res := done (sendCode s .ap0 .flt 0 0x10 chk)

/-- RECOVERED (R417). -/
def execFltRecovered (chk : BitVec 16) (s : State) : Res := done (sendCode s .ap0 .flt 0 0x11 chk)

/-- ACK (R419). -/
def execFltAck (chk : BitVec 16) (s : State) : Res := done (sendCode s .ap0 .flt 0 0x12 chk)

/-- CLEAR_LOG of FLT (R419). -/
def execFltClearLog (chk : BitVec 16) (s : State) : Res := done (sendCode s .ap0 .flt 0 0x13 chk)

/-- RAISE (R419). -/
def execFltRaise (chk : BitVec 16) (s : State) : Res := done (sendCode s .ap0 .flt 0 0x14 chk)

/-- RECOVER_TIMEOUT (R417). -/
def execFltRecoverTimeout (g : Fin 32) (s : State) : Res := done (recoverTimeout s g.val)

/-- FLT_LOG_IDX_WRITE (R415). -/
def execFltLogIdxWrite (v : Word) (s : State) : Res := done (putReg s .ap0 .flt 0 Reg.FLT.LOG_IDX v)

end Sys2Proof.Machine
end

