-- ==== Sys2Proof/Machine/Dispatch.lean ====
section
/-! DEFINITION. The dispatch: one arm per command, each one direct call of that command's meaning. -/
namespace Sys2Proof.Machine

/-- What a command does to everything but the queue. -/
def exec (i : Instr) (s : State) : Host.Outcome State Fault Refusal :=
  match i with
  | .pageEnable pg on => Sys2Proof.Machine.execPageEnable pg on s
  | .softReset pg => Sys2Proof.Machine.execSoftReset pg s
  | .pageFreeze pg on => Sys2Proof.Machine.execPageFreeze pg on s
  | .lockRequest pg => Sys2Proof.Machine.execLockRequest pg s
  | .unlockWindow pg w => Sys2Proof.Machine.execUnlockWindow pg w s
  | .dbgsafeChange pg w => Sys2Proof.Machine.execDbgsafeChange pg w s
  | .pgcommitWrite pg crc => Sys2Proof.Machine.execPgcommitWrite pg crc s
  | .commitValidationEnd pg => Sys2Proof.Machine.execCommitValidationEnd pg s
  | .commitBoundary pg => Sys2Proof.Machine.execCommitBoundary pg s
  | .cmdStart pg m chk => Sys2Proof.Machine.execCmdStart pg m chk s
  | .cmdStop pg m chk => Sys2Proof.Machine.execCmdStop pg m chk s
  | .cmdHold pg m chk => Sys2Proof.Machine.execCmdHold pg m chk s
  | .cmdContinue pg m chk => Sys2Proof.Machine.execCmdContinue pg m chk s
  | .cmdDiscard pg m chk => Sys2Proof.Machine.execCmdDiscard pg m chk s
  | .cmdClearFault pg m chk => Sys2Proof.Machine.execCmdClearFault pg m chk s
  | .cmdAbort pg m chk => Sys2Proof.Machine.execCmdAbort pg m chk s
  | .commandBoundary pg => Sys2Proof.Machine.execCommandBoundary pg s
  | .intClrWrite pg w ev => Sys2Proof.Machine.execIntClrWrite pg w ev s
  | .intSetWrite pg w => Sys2Proof.Machine.execIntSetWrite pg w s
  | .wideReadSnapshot pg off => Sys2Proof.Machine.execWideReadSnapshot pg off s
  | .wideWriteApply pg off v => Sys2Proof.Machine.execWideWriteApply pg off v s
  | .registerWrite m pg off v => Sys2Proof.Machine.execRegisterWrite m pg off v s
  | .w1cStatusWrite pg off w ev => Sys2Proof.Machine.execW1cStatusWrite pg off w ev s
  | .readClearRegister pg off => Sys2Proof.Machine.execReadClearRegister pg off s
  | .baseTick t => Sys2Proof.Machine.execBaseTick t s
  | .apcPublish m id hi v => Sys2Proof.Machine.execApcPublish m id hi v s
  | .piValueRead id ecc => Sys2Proof.Machine.execPiValueRead id ecc s
  | .debugHalt e => Sys2Proof.Machine.execDebugHalt e s
  | .accessError m addr write => Sys2Proof.Machine.execAccessError m addr write s
  | .fabLogIdxWrite v => Sys2Proof.Machine.execFabLogIdxWrite v s
  | .fabClearLog chk => Sys2Proof.Machine.execFabClearLog chk s
  | .memScrub n chk => Sys2Proof.Machine.execMemScrub n chk s
  | .scrubPassEnd n ecc => Sys2Proof.Machine.execScrubPassEnd n ecc s
  | .scrubTimer n t ecc => Sys2Proof.Machine.execScrubTimer n t ecc s
  | .encEdgeAccept n t te a b z => Sys2Proof.Machine.execEncEdgeAccept n t te a b z s
  | .encIndex n t te => Sys2Proof.Machine.execEncIndex n t te s
  | .standstill n t => Sys2Proof.Machine.execStandstill n t s
  | .setPos n chk => Sys2Proof.Machine.execSetPos n chk s
  | .armIndex n chk => Sys2Proof.Machine.execArmIndex n chk s
  | .learnLines n chk => Sys2Proof.Machine.execLearnLines n chk s
  | .ssnFrameStart m t => Sys2Proof.Machine.execSsnFrameStart m t s
  | .ssnFrameEnd m t sl f => Sys2Proof.Machine.execSsnFrameEnd m t sl f s
  | .ssnTimeout m t f => Sys2Proof.Machine.execSsnTimeout m t f s
  | .ssnTrigger m chk => Sys2Proof.Machine.execSsnTrigger m chk s
  | .cdmTxWrite m v => Sys2Proof.Machine.execCdmTxWrite m v s
  | .cdsRxRead m => Sys2Proof.Machine.execCdsRxRead m s
  | .moveAbs n chk => Sys2Proof.Machine.execMoveAbs n chk s
  | .moveRel n chk => Sys2Proof.Machine.execMoveRel n chk s
  | .axisVelocity n chk => Sys2Proof.Machine.execAxisVelocity n chk s
  | .gearIn n chk => Sys2Proof.Machine.execGearIn n chk s
  | .gearOut n chk => Sys2Proof.Machine.execGearOut n chk s
  | .camIn n chk => Sys2Proof.Machine.execCamIn n chk s
  | .camOut n chk => Sys2Proof.Machine.execCamOut n chk s
  | .pvtStart n chk => Sys2Proof.Machine.execPvtStart n chk s
  | .followOn n chk => Sys2Proof.Machine.execFollowOn n chk s
  | .followOff n chk => Sys2Proof.Machine.execFollowOff n chk s
  | .axisHome n chk => Sys2Proof.Machine.execAxisHome n chk s
  | .axisResume n chk => Sys2Proof.Machine.execAxisResume n chk s
  | .quickstop n chk => Sys2Proof.Machine.execQuickstop n chk s
  | .limitAccept n t neg dt => Sys2Proof.Machine.execLimitAccept n t neg dt s
  | .limitRelease n t neg => Sys2Proof.Machine.execLimitRelease n t neg s
  | .homeEdgeAccept n t active dt => Sys2Proof.Machine.execHomeEdgeAccept n t active dt s
  | .prkCheck n chk => Sys2Proof.Machine.execPrkCheck n chk s
  | .prkCheckEnd n => Sys2Proof.Machine.execPrkCheckEnd n s
  | .prkPointWrite m addr v => Sys2Proof.Machine.execPrkPointWrite m addr v s
  | .pcmpFire n t => Sys2Proof.Machine.execPcmpFire n t s
  | .pcmpPulseEnd n t => Sys2Proof.Machine.execPcmpPulseEnd n t s
  | .pcmpLatchEdge n te rising => Sys2Proof.Machine.execPcmpLatchEdge n te rising s
  | .markWindowClose n t => Sys2Proof.Machine.execMarkWindowClose n t s
  | .latchQueueRead n => Sys2Proof.Machine.execLatchQueueRead n s
  | .pcmpFlush n chk => Sys2Proof.Machine.execPcmpFlush n chk s
  | .latchClear n chk => Sys2Proof.Machine.execLatchClear n chk s
  | .stepEmit n t => Sys2Proof.Machine.execStepEmit n t s
  | .stepHoldAmp n t => Sys2Proof.Machine.execStepHoldAmp n t s
  | .editSelWrite v => Sys2Proof.Machine.execEditSelWrite v s
  | .ustpCopyEnd => Sys2Proof.Machine.execUstpCopyEnd s
  | .lcNop a wide => Sys2Proof.Machine.execLcNop a wide s
  | .lcMpy a mv an da db => Sys2Proof.Machine.execLcMpy a mv an da db s
  | .lcMac a mv an da db => Sys2Proof.Machine.execLcMac a mv an da db s
  | .lcMsu a mv an da db => Sys2Proof.Machine.execLcMsu a mv an da db s
  | .lcPmac a mv an da db dd => Sys2Proof.Machine.execLcPmac a mv an da db dd s
  | .lcClra a mv an => Sys2Proof.Machine.execLcClra a mv an s
  | .lcLda a mv an da => Sys2Proof.Machine.execLcLda a mv an da s
  | .lcAdda a mv an am => Sys2Proof.Machine.execLcAdda a mv an am s
  | .lcSuba a mv an am => Sys2Proof.Machine.execLcSuba a mv an am s
  | .lcNega a mv an => Sys2Proof.Machine.execLcNega a mv an s
  | .lcAbsa a mv an => Sys2Proof.Machine.execLcAbsa a mv an s
  | .lcShla a mv an k => Sys2Proof.Machine.execLcShla a mv an k s
  | .lcShra a mv an k => Sys2Proof.Machine.execLcShra a mv an k s
  | .lcSata a mv an => Sys2Proof.Machine.execLcSata a mv an s
  | .lcRnda a mv an => Sys2Proof.Machine.execLcRnda a mv an s
  | .lcMova a mv dd an => Sys2Proof.Machine.execLcMova a mv dd an s
  | .lcAdd a mv dd da db => Sys2Proof.Machine.execLcAdd a mv dd da db s
  | .lcSub a mv dd da db => Sys2Proof.Machine.execLcSub a mv dd da db s
  | .lcAdds a mv dd da db => Sys2Proof.Machine.execLcAdds a mv dd da db s
  | .lcSubs a mv dd da db => Sys2Proof.Machine.execLcSubs a mv dd da db s
  | .lcNeg a mv dd da => Sys2Proof.Machine.execLcNeg a mv dd da s
  | .lcAbs a mv dd da => Sys2Proof.Machine.execLcAbs a mv dd da s
  | .lcAnd a mv dd da db => Sys2Proof.Machine.execLcAnd a mv dd da db s
  | .lcOr a mv dd da db => Sys2Proof.Machine.execLcOr a mv dd da db s
  | .lcXor a mv dd da db => Sys2Proof.Machine.execLcXor a mv dd da db s
  | .lcShl a mv dd da k => Sys2Proof.Machine.execLcShl a mv dd da k s
  | .lcShr a mv dd da k => Sys2Proof.Machine.execLcShr a mv dd da k s
  | .lcShrl a mv dd da k => Sys2Proof.Machine.execLcShrl a mv dd da k s
  | .lcMin a mv dd da db => Sys2Proof.Machine.execLcMin a mv dd da db s
  | .lcMax a mv dd da db => Sys2Proof.Machine.execLcMax a mv dd da db s
  | .lcCmp a mv da db => Sys2Proof.Machine.execLcCmp a mv da db s
  | .lcClip a mv dd da db => Sys2Proof.Machine.execLcClip a mv dd da db s
  | .lcMov a rd rs => Sys2Proof.Machine.execLcMov a rd rs s
  | .lcMvcToControl a ctl rs => Sys2Proof.Machine.execLcMvcToControl a ctl rs s
  | .lcMvcFromControl a rd ctl => Sys2Proof.Machine.execLcMvcFromControl a rd ctl s
  | .lcClrf a => Sys2Proof.Machine.execLcClrf a s
  | .lcRot a => Sys2Proof.Machine.execLcRot a s
  | .lcLd a y p am ofs reg => Sys2Proof.Machine.execLcLd a y p am ofs reg s
  | .lcSt a y p am ofs reg => Sys2Proof.Machine.execLcSt a y p am ofs reg s
  | .lcLdp a y p am ofs reg => Sys2Proof.Machine.execLcLdp a y p am ofs reg s
  | .lcStp a y p am ofs reg => Sys2Proof.Machine.execLcStp a y p am ofs reg s
  | .lcMoveSlotLoad a y pair p am d other => Sys2Proof.Machine.execLcMoveSlotLoad a y pair p am d other s
  | .lcMoveSlotStore a y pair p am d other => Sys2Proof.Machine.execLcMoveSlotStore a y pair p am d other s
  | .lcMoveSlotExchange a y p am d other => Sys2Proof.Machine.execLcMoveSlotExchange a y p am d other s
  | .lcIn a reg port => Sys2Proof.Machine.execLcIn a reg port s
  | .lcOut a reg port => Sys2Proof.Machine.execLcOut a reg port s
  | .lcLdg a g1 reg ofs stall ecc => Sys2Proof.Machine.execLcLdg a g1 reg ofs stall ecc s
  | .lcStg a g1 reg ofs stall => Sys2Proof.Machine.execLcStg a g1 reg ofs stall s
  | .lcFtap a clr an px py => Sys2Proof.Machine.execLcFtap a clr an px py s
  | .lcBr a cond tgt => Sys2Proof.Machine.execLcBr a cond tgt s
  | .lcCall a cond tgt => Sys2Proof.Machine.execLcCall a cond tgt s
  | .lcRet a cond => Sys2Proof.Machine.execLcRet a cond s
  | .lcReti a cond => Sys2Proof.Machine.execLcReti a cond s
  | .lcBreak a cond => Sys2Proof.Machine.execLcBreak a cond s
  | .lcTend a cond => Sys2Proof.Machine.execLcTend a cond s
  | .lcTrap a cond n => Sys2Proof.Machine.execLcTrap a cond n s
  | .lcBrep a reg cnt rot last => Sys2Proof.Machine.execLcBrep a reg cnt rot last s
  | .lcBrepLoopEnd c => Sys2Proof.Machine.execLcBrepLoopEnd c s
  | .lcMovi a reg imm => Sys2Proof.Machine.execLcMovi a reg imm s
  | .lcLdi a reg imm => Sys2Proof.Machine.execLcLdi a reg imm s
  | .lcLdc a ctl imm => Sys2Proof.Machine.execLcLdc a ctl imm s
  | .lcInterrupt c v => Sys2Proof.Machine.execLcInterrupt c v s
  | .sampleStart c gap => Sys2Proof.Machine.execSampleStart c gap s
  | .sampleCut c => Sys2Proof.Machine.execSampleCut c s
  | .lschStitch chk => Sys2Proof.Machine.execLschStitch chk s
  | .stitchCopyEnd lost ecc => Sys2Proof.Machine.execStitchCopyEnd lost ecc s
  | .stitchSwitch t => Sys2Proof.Machine.execStitchSwitch t s
  | .stitchTimeout t => Sys2Proof.Machine.execStitchTimeout t s
  | .failoverSwitch t => Sys2Proof.Machine.execFailoverSwitch t s
  | .failoverTimeout t => Sys2Proof.Machine.execFailoverTimeout t s
  | .lschRestart chk => Sys2Proof.Machine.execLschRestart chk s
  | .lschRestartEnd t ecc => Sys2Proof.Machine.execLschRestartEnd t ecc s
  | .lcSelftest c chk => Sys2Proof.Machine.execLcSelftest c chk s
  | .lcSelftestEnd c cause w => Sys2Proof.Machine.execLcSelftestEnd c cause w s
  | .cslotSampleEvent k t => Sys2Proof.Machine.execCslotSampleEvent k t s
  | .updatePhase e t err => Sys2Proof.Machine.execUpdatePhase e t err s
  | .inputWatchdog k t => Sys2Proof.Machine.execInputWatchdog k t s
  | .rtExpired k t => Sys2Proof.Machine.execRtExpired k t s
  | .plausFault k => Sys2Proof.Machine.execPlausFault k s
  | .repLearn k chk => Sys2Proof.Machine.execRepLearn k chk s
  | .repFreeze k chk => Sys2Proof.Machine.execRepFreeze k chk s
  | .repClear k chk => Sys2Proof.Machine.execRepClear k chk s
  | .repClearEnd k => Sys2Proof.Machine.execRepClearEnd k s
  | .cslotRide k chk => Sys2Proof.Machine.execCslotRide k chk s
  | .resetState k chk => Sys2Proof.Machine.execResetState k chk s
  | .repDataAccess k v => Sys2Proof.Machine.execRepDataAccess k v s
  | .ceUcodeLoaded e t => Sys2Proof.Machine.execCeUcodeLoaded e t s
  | .pwmZeroEvent n t => Sys2Proof.Machine.execPwmZeroEvent n t s
  | .pwmPeriodEvent n t => Sys2Proof.Machine.execPwmPeriodEvent n t s
  | .pwmPositionTrigger n k t => Sys2Proof.Machine.execPwmPositionTrigger n k t s
  | .forceWrite n v => Sys2Proof.Machine.execForceWrite n v s
  | .finTrip raw t => Sys2Proof.Machine.execFinTrip raw t s
  | .finClear chk => Sys2Proof.Machine.execFinClear chk s
  | .pwmClockLoss t => Sys2Proof.Machine.execPwmClockLoss t s
  | .pwmClockReturn t => Sys2Proof.Machine.execPwmClockReturn t s
  | .pwmReadbackMismatch n out held => Sys2Proof.Machine.execPwmReadbackMismatch n out held s
  | .fchEffectiveTrigger c t => Sys2Proof.Machine.execFchEffectiveTrigger c t s
  | .fchTrigger c chk => Sys2Proof.Machine.execFchTrigger c chk s
  | .convEnd c t qs other => Sys2Proof.Machine.execConvEnd c t qs other s
  | .fchLimit c => Sys2Proof.Machine.execFchLimit c s
  | .fcgCal g chk => Sys2Proof.Machine.execFcgCal g chk s
  | .bobbinCalEnd g t ofs gain => Sys2Proof.Machine.execBobbinCalEnd g t ofs gain s
  | .shadowComplete g t => Sys2Proof.Machine.execShadowComplete g t s
  | .converterCalEnd g t ofs gain => Sys2Proof.Machine.execConverterCalEnd g t ofs gain s
  | .verifyComplete g t => Sys2Proof.Machine.execVerifyComplete g t s
  | .calTimeout g t => Sys2Proof.Machine.execCalTimeout g t s
  | .conversionFailure c t => Sys2Proof.Machine.execConversionFailure c t s
  | .autoCalTimer g t => Sys2Proof.Machine.execAutoCalTimer g t s
  | .startupCalEnd g t cs => Sys2Proof.Machine.execStartupCalEnd g t cs s
  | .pcvOutputWord k t p w => Sys2Proof.Machine.execPcvOutputWord k t p w s
  | .pcvCal k chk => Sys2Proof.Machine.execPcvCal k chk s
  | .benchRelease e b t => Sys2Proof.Machine.execBenchRelease e b t s
  | .benchCycleStart e b t ecc => Sys2Proof.Machine.execBenchCycleStart e b t ecc s
  | .benchCycleEnd e b t acts => Sys2Proof.Machine.execBenchCycleEnd e b t acts s
  | .leWatchdogTrip e b t inp => Sys2Proof.Machine.execLeWatchdogTrip e b t inp s
  | .leLoad e chk => Sys2Proof.Machine.execLeLoad e chk s
  | .leLoadEnd e prog env ecc => Sys2Proof.Machine.execLeLoadEnd e prog env ecc s
  | .leUnload e chk => Sys2Proof.Machine.execLeUnload e chk s
  | .resetInst e chk => Sys2Proof.Machine.execResetInst e chk s
  | .forceSet id v => Sys2Proof.Machine.execForceSet id v s
  | .forceRelease id => Sys2Proof.Machine.execForceRelease id s
  | .releaseAll chk => Sys2Proof.Machine.execReleaseAll chk s
  | .rseqClockEdge r t => Sys2Proof.Machine.execRseqClockEdge r t s
  | .rseqStepEnd r => Sys2Proof.Machine.execRseqStepEnd r s
  | .waitTimeout r => Sys2Proof.Machine.execWaitTimeout r s
  | .rseqPulseEnd r => Sys2Proof.Machine.execRseqPulseEnd r s
  | .rseqLoad r chk => Sys2Proof.Machine.execRseqLoad r chk s
  | .rseqLoadEnd r ecc => Sys2Proof.Machine.execRseqLoadEnd r ecc s
  | .rseqUnload r chk => Sys2Proof.Machine.execRseqUnload r chk s
  | .branchAbort r chk => Sys2Proof.Machine.execBranchAbort r chk s
  | .tlogClear r chk => Sys2Proof.Machine.execTlogClear r chk s
  | .tlogEntRead r => Sys2Proof.Machine.execTlogEntRead r s
  | .entIdWrite v => Sys2Proof.Machine.execEntIdWrite v s
  | .sigCopyEnd => Sys2Proof.Machine.execSigCopyEnd s
  | .sigLoad chk => Sys2Proof.Machine.execSigLoad chk s
  | .sigLoadEnd ecc => Sys2Proof.Machine.execSigLoadEnd ecc s
  | .historyAppend t ecc => Sys2Proof.Machine.execHistoryAppend t ecc s
  | .acqSample u t pads => Sys2Proof.Machine.execAcqSample u t pads s
  | .acqTrigger u t => Sys2Proof.Machine.execAcqTrigger u t s
  | .acqTriggerCmd u chk => Sys2Proof.Machine.execAcqTriggerCmd u chk s
  | .acqRearm u chk => Sys2Proof.Machine.execAcqRearm u chk s
  | .postComplete u t => Sys2Proof.Machine.execPostComplete u t s
  | .acqRearmEnd u t => Sys2Proof.Machine.execAcqRearmEnd u t s
  | .recExport chk => Sys2Proof.Machine.execRecExport chk s
  | .recExportEnd lost ues => Sys2Proof.Machine.execRecExportEnd lost ues s
  | .timeWrap t => Sys2Proof.Machine.execTimeWrap t s
  | .rateWrite v => Sys2Proof.Machine.execRateWrite v s
  | .timeStep chk => Sys2Proof.Machine.execTimeStep chk s
  | .timeForceStep chk => Sys2Proof.Machine.execTimeForceStep chk s
  | .timeStepApply t => Sys2Proof.Machine.execTimeStepApply t s
  | .holdover t => Sys2Proof.Machine.execHoldover t s
  | .timeJoin chk => Sys2Proof.Machine.execTimeJoin chk s
  | .timeJoinTimeout t => Sys2Proof.Machine.execTimeJoinTimeout t s
  | .linkFrameSend p t => Sys2Proof.Machine.execLinkFrameSend p t s
  | .linkFrameReceive p ta t f => Sys2Proof.Machine.execLinkFrameReceive p ta t f s
  | .linkDown p t => Sys2Proof.Machine.execLinkDown p t s
  | .nodeLost node t => Sys2Proof.Machine.execNodeLost node t s
  | .dlkCalibrate p chk => Sys2Proof.Machine.execDlkCalibrate p chk s
  | .dlkCalibrateEnd p tx rx => Sys2Proof.Machine.execDlkCalibrateEnd p tx rx s
  | .triggerLineChange l level t => Sys2Proof.Machine.execTriggerLineChange l level t s
  | .triggerEventDue t => Sys2Proof.Machine.execTriggerEventDue t s
  | .txqKeyRead p => Sys2Proof.Machine.execTxqKeyRead p s
  | .txqFlush chk => Sys2Proof.Machine.execTxqFlush chk s
  | .faultRaise src pg sub detail => Sys2Proof.Machine.execFaultRaise src pg sub detail s
  | .faultConditionEnd src pg sub => Sys2Proof.Machine.execFaultConditionEnd src pg sub s
  | .fltRecover chk => Sys2Proof.Machine.execFltRecover chk s
  | .fltRecovered chk => Sys2Proof.Machine.execFltRecovered chk s
  | .fltAck chk => Sys2Proof.Machine.execFltAck chk s
  | .fltClearLog chk => Sys2Proof.Machine.execFltClearLog chk s
  | .fltRaise chk => Sys2Proof.Machine.execFltRaise chk s
  | .fltRecoverTimeout g => Sys2Proof.Machine.execFltRecoverTimeout g s
  | .fltLogIdxWrite v => Sys2Proof.Machine.execFltLogIdxWrite v s
  | .pcieRequest r => Sys2Proof.Machine.execPcieRequest r s
  | .msixUnmask v => Sys2Proof.Machine.execMsixUnmask v s
  | .chTailWrite c v => Sys2Proof.Machine.execChTailWrite c v s
  | .dmaDescriptor c desc src hostErr ecc => Sys2Proof.Machine.execDmaDescriptor c desc src hostErr ecc s
  | .pcieLinkReset flr => Sys2Proof.Machine.execPcieLinkReset flr s
  | .hspRead t alive len addr crc early ecc => Sys2Proof.Machine.execHspRead t alive len addr crc early ecc s
  | .hspWrite t alive len addr data crc early => Sys2Proof.Machine.execHspWrite t alive len addr data crc early s
  | .hspStatus t alive addr crc early => Sys2Proof.Machine.execHspStatus t alive addr crc early s
  | .hspSilent t => Sys2Proof.Machine.execHspSilent t s
  | .xipRead p m off fetch ecc => Sys2Proof.Machine.execXipRead p m off fetch ecc s
  | .mspIndirect p m chk => Sys2Proof.Machine.execMspIndirect p m chk s
  | .mspIndirectDone p data => Sys2Proof.Machine.execMspIndirectDone p data s
  | .mspIndirectTimeout p t => Sys2Proof.Machine.execMspIndirectTimeout p t s
  | .pspFrame n t rx crc => Sys2Proof.Machine.execPspFrame n t rx crc s
  | .pspTrigger n chk => Sys2Proof.Machine.execPspTrigger n chk s
  | .ethReceive p t frame good te ecc => Sys2Proof.Machine.execEthReceive p t frame good te ecc s
  | .ethTransmit p t ecc => Sys2Proof.Machine.execEthTransmit p t ecc s
  | .ethAddressAge t => Sys2Proof.Machine.execEthAddressAge t s
  | .mdioAccess p v => Sys2Proof.Machine.execMdioAccess p v s
  | .mdioDone data => Sys2Proof.Machine.execMdioDone data s
  | .restartAp0 chk => Sys2Proof.Machine.execRestartAp0 chk s
  | .restartAp1 chk => Sys2Proof.Machine.execRestartAp1 chk s
  | .readyWrite m v => Sys2Proof.Machine.execReadyWrite m v s
  | .restartTimeout t => Sys2Proof.Machine.execRestartTimeout t s
  | .mbRing m v => Sys2Proof.Machine.execMbRing m v s
  | .mbRspRing m v => Sys2Proof.Machine.execMbRspRing m v s
  | .mbAck m w => Sys2Proof.Machine.execMbAck m w s
  | .canFrameReceive k tsof t f => Sys2Proof.Machine.execCanFrameReceive k tsof t f s
  | .txReq k w v => Sys2Proof.Machine.execTxReq k w v s
  | .txCancel k w v onBus => Sys2Proof.Machine.execTxCancel k w v onBus s
  | .canFrameSent k tsof t tdc => Sys2Proof.Machine.execCanFrameSent k tsof t tdc s
  | .canArbitrationLost k tsof t => Sys2Proof.Machine.execCanArbitrationLost k tsof t s
  | .canError k tx inc lec tsof t => Sys2Proof.Machine.execCanError k tx inc lec tsof t s
  | .rxFullWrite k w v ev => Sys2Proof.Machine.execRxFullWrite k w v ev s
  | .objIdxWrite k v => Sys2Proof.Machine.execObjIdxWrite k v s
  | .objHdrRead k => Sys2Proof.Machine.execObjHdrRead k s
  | .canCyclicRequest k n t => Sys2Proof.Machine.execCanCyclicRequest k n t s
  | .rxStale k h t => Sys2Proof.Machine.execRxStale k h t s
  | .timeReference k t onBus => Sys2Proof.Machine.execTimeReference k t onBus s
  | .canRecover k chk => Sys2Proof.Machine.execCanRecover k chk s
  | .canRecoveryEnd k => Sys2Proof.Machine.execCanRecoveryEnd k s
  | .fieldRefresh t a0 a1 => Sys2Proof.Machine.execFieldRefresh t a0 a1 s
  | .dieLost d t => Sys2Proof.Machine.execDieLost d t s
  | .dioInputAccept inp level => Sys2Proof.Machine.execDioInputAccept inp level s
  | .wireBreak inp => Sys2Proof.Machine.execWireBreak inp s
  | .wireBreakClear inp => Sys2Proof.Machine.execWireBreakClear inp s
  | .outputDiagnostic o kind => Sys2Proof.Machine.execOutputDiagnostic o kind s
  | .ocRetry o holds => Sys2Proof.Machine.execOcRetry o holds s
  | .clearDiag chk => Sys2Proof.Machine.execClearDiag chk s
  | .fieldSilence d t => Sys2Proof.Machine.execFieldSilence d t s
  | .lplusLow d => Sys2Proof.Machine.execLplusLow d s
  | .lplusRestore d => Sys2Proof.Machine.execLplusRestore d s
  | .lcAdvance m chk => Sys2Proof.Machine.execLcAdvance m chk s
  | .keyLoad m chk => Sys2Proof.Machine.execKeyLoad m chk s
  | .keyErase m chk => Sys2Proof.Machine.execKeyErase m chk s
  | .keyEraseAll m chk => Sys2Proof.Machine.execKeyEraseAll m chk s
  | .rollbackSet m chk => Sys2Proof.Machine.execRollbackSet m chk s
  | .rootRevoke m chk => Sys2Proof.Machine.execRootRevoke m chk s
  | .secDerive m chk => Sys2Proof.Machine.execSecDerive m chk s
  | .secProvision m chk => Sys2Proof.Machine.execSecProvision m chk s
  | .newChallenge m chk => Sys2Proof.Machine.execNewChallenge m chk s
  | .dbgUnlock m chk => Sys2Proof.Machine.execDbgUnlock m chk s
  | .dbgLock m chk => Sys2Proof.Machine.execDbgLock m chk s
  | .tamperAlarm sensor vbat b => Sys2Proof.Machine.execTamperAlarm sensor vbat b s
  | .jtagInstruction inp b => Sys2Proof.Machine.execJtagInstruction inp b s
  | .domainOnComplete d ecc => Sys2Proof.Machine.execDomainOnComplete d ecc s
  | .brownout d => Sys2Proof.Machine.execBrownout d s
  | .brownoutRecovery d => Sys2Proof.Machine.execBrownoutRecovery d s
  | .powerOnReset b => Sys2Proof.Machine.execPowerOnReset b s
  | .systemReset cause b => Sys2Proof.Machine.execSystemReset cause b s
  | .sysReset m chk b => Sys2Proof.Machine.execSysReset m chk b s
  | .stageWrite m v => Sys2Proof.Machine.execStageWrite m v s
  | .irqSelWrite v => Sys2Proof.Machine.execIrqSelWrite v s
  | .irqLineWrite v => Sys2Proof.Machine.execIrqLineWrite v s
  | .referenceLoss => Sys2Proof.Machine.execReferenceLoss s
  | .referenceLock => Sys2Proof.Machine.execReferenceLock s
  | .pllLockLoss p => Sys2Proof.Machine.execPllLockLoss p s
  | .gpioEdge pad level => Sys2Proof.Machine.execGpioEdge pad level s
  | .gpioOutSet w v => Sys2Proof.Machine.execGpioOutSet w v s
  | .gpioOutClr w v => Sys2Proof.Machine.execGpioOutClr w v s
  | .dlkFrameLock p t => Sys2Proof.Machine.execDlkFrameLock p t s
  | .ethLinkChange p up speed an => Sys2Proof.Machine.execEthLinkChange p up speed an s
  | .pcieLinkUp speed width => Sys2Proof.Machine.execPcieLinkUp speed width s
  | .canBusIntegration k => Sys2Proof.Machine.execCanBusIntegration k s
  | .hspBadFrame => Sys2Proof.Machine.execHspBadFrame s
  | .lcIllegalBundle a w v => Sys2Proof.Machine.execLcIllegalBundle a w v s
  | .debugResume e => Sys2Proof.Machine.execDebugResume e s
  | .visoInLoss => Sys2Proof.Machine.execVisoInLoss s
  | .vbatLow => Sys2Proof.Machine.execVbatLow s
  | .domainOffComplete d => Sys2Proof.Machine.execDomainOffComplete d s
  | .overTemperatureRecovery o => Sys2Proof.Machine.execOverTemperatureRecovery o s
  | .markWindowOpen n t => Sys2Proof.Machine.execMarkWindowOpen n t s

end Sys2Proof.Machine
end

