-- ==== Sys2Proof/Safety.lean ====
section
/-! DEFINITION. What counts as a safe run of the device: it goes on, and what every state shall satisfy; and the words the statements use: what
a command answers, and when a command word acts at once or waits. -/
namespace Sys2Proof.Machine

/-- A step goes on: it ends in a next state. -/
def StepsOn (s : State) : Prop := ∃ t, step s = .next t

/-- The interrupt lines stand as the enabled, raised interrupts of the pages and the distributor's map say (R63, R64). -/
def LinesFollow (s : State) : Prop := s.irqOn = levels s

/-- No command waits. -/
def Idle (s : State) : Prop := s.pending = []

/-- Every page's staging store names each register once. -/
def StagedOnce (s : State) : Prop := ∀ k, ((s.page k).staged.map Prod.fst).Nodup

/-- The command ends in a next state, and that state satisfies Q. -/
def Gives (c : Instr) (s : State) (Q : State → Prop) : Prop := ∃ t, exec c s = .next t ∧ Q t

/-- Every byte of memory reads as before. -/
def SameMem (s t : State) : Prop := ∀ a, mem8 t a = mem8 s a

/-- Nothing but the pages, the lines they assert and the messages of those lines has changed. -/
def OnlyPages (s t : State) : Prop :=
  t = { s with pages := t.pages, irqOn := t.irqOn, msixPend := t.msixPend, msixSent := t.msixSent }

/-- Every page but one stands as before. -/
def OtherPages (s t : State) (k : Nat) : Prop := ∀ k', k' ≠ k → t.page k' = s.page k'

/-- The page types whose pages a publication may change: it fills the history queue and the records of the links. -/
def pubTypes : List PgTy := [.recStore, .dlk, .time]

/-- Apart from the pages of a list, nothing has changed but what publications change: the slots, the recording counters, the history queue,
the records that wait at the links and the pages that count those. -/
def OnlyPublished (s t : State) (own : List Nat) : Prop :=
  t = { s with pages := t.pages, slots := t.slots, recCnt := t.recCnt, dlks := t.dlks, histQ := t.histQ, histLost := t.histLost,
               irqOn := t.irqOn, msixPend := t.msixPend, msixSent := t.msixSent } ∧
  ∀ ty n, ty ∉ pubTypes → pk ty n ∉ own → t.page (pk ty n) = s.page (pk ty n)

/-- Every register in force of a page but those of a list stands as before. -/
def OtherRegs (s t : State) (ty : PgTy) (n : Nat) (l : List Nat) : Prop := ∀ o, o ∉ l → rg t ty n o = rg s ty n o

/-- The word that PGCMD takes for a code and its check half (R54). -/
def cmdWord (chk : BitVec 16) (code : Nat) : Word := chk ++ BitVec.ofNat 16 code

/-- A command word of a master is accepted by a page (R5, R43, R50, R54, R55): the page answers, no unlock window is open, and no test
of R543 refuses it. -/
def Accepts (s : State) (t : PgTy) (n code : Nat) (m : Master) (chk : BitVec 16) : Prop :=
  answers s ⟨t, n⟩ = true ∧ (s.page (pk t n)).key ≠ .window ∧ cmdRefusal s t n m (cmdWord chk code) = none

/-- An accepted command acts at once (R55): it is immediate or its page's boundary is not running, and FREEZE does not hold it; no
commit is pending. -/
def ActsNow (s : State) (t : PgTy) (n code : Nat) (m : Master) (chk : BitVec 16) : Prop :=
  Accepts s t n code m chk ∧ (s.page (pk t n)).commit = .none ∧
    ∃ r, ruleOf s t n code m = some r ∧ (r.imm = true ∨ cmdWaits s t n = false) ∧
      ((s.page (pk t n)).freeze = false ∨ r.safe = true)

/-- An accepted command waits for its page's boundary (R55). -/
def Waits (s : State) (t : PgTy) (n code : Nat) (m : Master) (chk : BitVec 16) : Prop :=
  Accepts s t n code m chk ∧ ∃ r, ruleOf s t n code m = some r ∧ r.imm = false ∧ cmdWaits s t n = true

/-- The same, with no commit and no FREEZE in its way. -/
def WaitsFree (s : State) (t : PgTy) (n code : Nat) (m : Master) (chk : BitVec 16) : Prop :=
  Waits s t n code m chk ∧ (s.page (pk t n)).commit = .none ∧ (s.page (pk t n)).freeze = false ∧ (s.page (pk t n)).frozen = false

/-- The command ends in a next state in which it waits with CMD_PENDING set, nothing else having changed, and an event performs it: the
state after that satisfies Q (R55). -/
def GivesAfter (c : Instr) (s : State) (t : PgTy) (n code : Nat) (m : Master) (chk : BitVec 16) (e : Instr) (Q : State → Prop) : Prop :=
  Gives c s (fun u => u.page (pk t n) = { s.page (pk t n) with lastCmd := cmdWord chk code, cmd := some ⟨code, m⟩ } ∧ OnlyPages s u ∧
    OtherPages s u (pk t n) ∧ Gives e u Q)

/-- The same, where the event is the boundary of its page that comes next. -/
def GivesLater (c : Instr) (s : State) (t : PgTy) (n code : Nat) (m : Master) (chk : BitVec 16) (Q : State → Prop) : Prop :=
  GivesAfter c s t n code m chk (.commandBoundary ⟨t, n⟩) Q

/-- A sample event of a control slot falls at a time (R227): its trigger does, not too soon after the last, and its engine runs. -/
def SampleFalls (s : State) (k : Fin 64) (t : Nat) : Prop :=
  csTriggered (s.at t) k.val t = true ∧ csEarly (s.at t) k.val t = false ∧ ∀ e : Fin 8, e.val = k.val / 8 → halted s (.ce e) = false

/-- The same, where the event is the slot's sample event at `t`, which performs it before its output phase (R241). -/
def GivesAtSample (c : Instr) (s : State) (k : Fin 64) (t code : Nat) (chk : BitVec 16) (Q : State → Prop) : Prop :=
  GivesAfter c s .cslot k.val code .ap0 chk (.cslotSampleEvent k t) Q

/-- What a command that acted leaves on its page (R55): PGCMD holds the word, none is pending, PGERR is clear and INT_RAW.CMD_DONE is set. -/
def CmdDone (t : State) (k : Nat) (w : Word) : Prop :=
  (t.page k).lastCmd = w ∧ (t.page k).cmd = none ∧ (t.page k).err = 0 ∧ bit (t.page k).intRaw 29 = true

/-- The levels that an ENC channel in RUN accepts make one counted edge, in a direction (`back`: backward; R68, Table 3-1). -/
def EncCounts (s : State) (n : Nat) (a b z back : Bool) : Prop :=
  let inv := rb s .enc n Reg.ENC.CFG 6
  let decode := rf s .enc n Reg.ENC.CFG 4 2
  match rf s .enc n Reg.ENC.CFG 0 3 with
  | 0 => (a ≠ encLevel s n 0 ∧ b = encLevel s n 1 ∧ (decode = 0 ∨ decode = 1 ∨ (decode = 2 ∧ b = false)) ∧ back = ((a == b) != inv)) ∨
      (a = encLevel s n 0 ∧ b ≠ encLevel s n 1 ∧ decode = 0 ∧ back = ((a != b) != inv))
  | 1 => a = true ∧ encLevel s n 0 = false ∧ back = (b != inv)
  | 2 => (a = true ∧ encLevel s n 0 = false ∧ ¬(b = true ∧ encLevel s n 1 = false) ∧ back = inv) ∨
      (b = true ∧ encLevel s n 1 = false ∧ ¬(a = true ∧ encLevel s n 0 = false) ∧ back = !inv)
  | 3 => (a ≠ encLevel s n 0 ∨ b ≠ encLevel s n 1 ∨ z ≠ encLevel s n 2) ∧
      ∃ i j, hallSeq[i]? = some (encOf s n).hall ∧ hallSeq[j]? = some (4 * b2n a + 2 * b2n b + b2n z) ∧
        ((j = (i + 1) % 6 ∧ back = inv) ∨ (i = (j + 1) % 6 ∧ back = !inv))
  | _ => False

/-- The received frame of an SSN channel is a good one (R92 to R95). -/
def SsnGood (s : State) (m : Nat) (sl : Bool) (f : SsnFrame) : Prop :=
  let c := rg s .ssn m Reg.SSN.CRC
  let w := fld c 0 5
  if ssnBiss s m then
    ssnInTime s m f = true ∧ f.ne = true ∧ ssnJump s m ((ssnOf s m).start + 5 * f.delay) f = false ∧
      (w = 0 ∨ ssnCrc w (fld c 16 16) (ssnN (rg s .ssn m Reg.SSN.FORMAT)) f.bits f.ne f.nw =
        if bit c 7 then 2 ^ w - 1 - f.crc.toNat % 2 ^ w else f.crc.toNat % 2 ^ w)
  else sl = true ∧ ssnJump s m ((ssnOf s m).start + 5 * rf s .ssn m Reg.SSN.LINE_DELAY 0 12) f = false

/-- The registers of a compare unit that show its two queues. -/
def pcmpShownRegs : List Nat :=
  [Reg.PCMP.STAT, Reg.PCMP.QCOUNT, Reg.PCMP.HEAD_POS_LO, Reg.PCMP.HEAD_POS_HI, Reg.PCMP.HEAD_REPEAT, Reg.PCMP.LQ_COUNT,
   Reg.PCMP.LATCH_POS_LO, Reg.PCMP.LATCH_POS_HI, Reg.PCMP.LATCH_TS_LO, Reg.PCMP.LATCH_TS_HI]

/-- The registers that show a feedback channel's position, speed and acceleration. -/
def encShownRegs : List Nat :=
  [Reg.ENC.POS_LO, Reg.ENC.POS_HI, Reg.ENC.SPEED_LO, Reg.ENC.SPEED_HI, Reg.ENC.ACCEL_LO, Reg.ENC.ACCEL_HI]

/-! ## Loop cores -/

/-- One list holds what two others hold together. -/
def Joined {α : Type} (p q l : List α) : Prop := ∀ e, e ∈ p ↔ e ∈ q ∨ e ∈ l

/-- A loop core issues a bundle of `len` words that is neither in a delay slot nor at the end of a repeat: `x` is the core with the results
that have landed, no sample is due to be cut, no memory error is met and no trap falls due (R174, R183, R206). -/
def LcIssues (s : State) (a : LcAt) (len : Nat) (x : LcSt) : Prop :=
  lcRuns s a.core.val = true ∧ a.err = none ∧ x = lcReady s a.core.val ∧
  (x.level = 0 → lcDue (setLc s a.core.val x) a.core.val = false) ∧ (∀ d ∈ x.traps, x.cyc + 1 < d) ∧
  x.slot = none ∧ x.lastOfBody len = false

/-- What a bundle leaves of its core and of the others: the results on their way are those of before and those of the bundle, one cycle is over,
the registers stand until a result lands. -/
def LcOver (s u : State) (a : LcAt) (x : LcSt) (l : List LcPend) : Prop :=
  Joined (lcOf u a.core.val).pend x.pend l ∧ (lcOf u a.core.val).regs = x.regs ∧ (lcOf u a.core.val).level = x.level ∧
  (lcOf u a.core.val).cyc = x.cyc + 1 ∧ (lcOf u a.core.val).act = x.act ∧ (lcOf u a.core.val).out = x.out ∧
  ∀ i, i ≠ a.core.val → lcOf u i = lcOf s i

/-- The flow goes on to the next bundle. -/
def LcNext (u : State) (a : LcAt) (x : LcSt) (len : Nat) : Prop :=
  (lcOf u a.core.val).pc = (x.pc + len) % 16384 ∧ (lcOf u a.core.val).reps = x.reps ∧ (lcOf u a.core.val).flow = x.flow

/-- Outside the cores a bundle changes nothing but LOAD_MAX of its page. -/
def LcFrame (s u : State) (a : LcAt) : Prop :=
  OnlyPages { s with lcs := u.lcs, seed := u.seed } u ∧ OtherPages s u (pk .lc a.core.val) ∧
  OtherRegs s u .lc a.core.val [Reg.LC.LOAD_MAX]

/-- Of memory some words have been written, and nothing else. -/
def WroteWords (s u : State) (l : List (Nat × Word)) : Prop :=
  (∀ e ∈ l, mem32 u e.1 = e.2) ∧ ∀ b, (∀ e ∈ l, ¬(e.1 ≤ b ∧ b < e.1 + 4)) → mem8 u b = mem8 s b

/-- A result of a bundle that issues now, visible `lat` cycles later. -/
def LcSt.res (x : LcSt) (lat key val : Nat) : LcPend := ⟨x.cyc + lat, x.cyc, key, val, false, false⟩

/-- The flags N, Z, V and C of a result. -/
def LcSt.resFlags (x : LcSt) (lat : Nat) (n z v c : Bool) : List LcPend :=
  [x.res lat (lcFlagKey x.level 0) (b2n n), x.res lat (lcFlagKey x.level 1) (b2n z), x.res lat (lcFlagKey x.level 2) (b2n v),
   x.res lat (lcFlagKey x.level 3) (b2n c)]

/-- A sticky flag set (R177). -/
def LcSt.resStick (x : LcSt) (lat i : Nat) (b : Bool) : List LcPend :=
  if b then [⟨x.cyc + lat, x.cyc, lcFlagKey x.level i, 1, false, true⟩] else []

/-- An accumulator that takes an exact result: saturated to 56 bits, N and Z of it, V and C 0, AEU, and AOV when it saturated (R172, R173). -/
def LcSt.resAcc (x : LcSt) (i : Nat) (exact : Int) (lat : Nat) (mul : Bool) : List LcPend :=
  let v := clampI (-36028797018963968) 36028797018963967 exact
  ⟨x.cyc + lat, x.cyc, x.key (32 + i), (v % 72057594037927936).toNat, mul, false⟩ ::
    (x.resFlags lat (decide (v < 0)) (decide (v = 0)) false false ++
      x.res lat (lcFlagKey x.level 4) (b2n (decide (v < -140737488355328 ∨ 140737488355327 < v))) :: x.resStick lat 5 (decide (v ≠ exact)))

/-- A data register that takes a result in 24 bits, with its flags (R176). -/
def LcSt.resData (x : LcSt) (dd : Nat) (v : Int) (vf c sov : Bool) : List LcPend :=
  let r := (v % 16777216).toNat
  x.res 1 (x.key dd) r :: (x.resFlags 1 (decide (8388608 ≤ r)) (decide (r = 0)) vf c ++ x.resStick 1 6 sov)

/-- What a move into an accumulator does to AEU (R172). -/
def LcSt.resAeu (x : LcSt) (lat reg : Nat) (v : Int) : List LcPend :=
  if 32 ≤ reg ∧ reg < 36 then [x.res lat (lcFlagKey x.level 4) (b2n (decide (v < -140737488355328 ∨ 140737488355327 < v)))] else []

/-- No AOV trap falls due within some cycles (R174). -/
def LcSt.noTrap (x : LcSt) (k : Nat) : Prop := ∀ d ∈ x.traps, x.cyc + k < d

/-- What an access does to its address register. -/
def LcSt.resP (x : LcSt) (p : Nat) : Option Nat → List LcPend
  | some v => [x.res 1 (x.key (36 + p)) v]
  | none => []

/-- A core has taken an exception or an interrupt into a level: EPC, PLVL and ECAUSE of that level, and its vector (R193, R195). -/
def LcEntered (u : State) (c : Nat) (x : LcSt) (lvl epc cause vec : Nat) : Prop :=
  let y := lcOf u c
  y.level = lvl ∧ y.pc = 2 * vec ∧ y.reg (lcCtlKey lvl 5) = epc % 16384 ∧ y.reg (lcPlvlKey lvl) = x.level ∧
  y.reg (lcCtlKey lvl 6) = cause ∧ ∀ k, k < 128 * lvl ∨ 128 * (lvl + 1) ≤ k → y.reg k = x.reg k

/-! ## Control slots -/

/-- A control outside the DQ frame: rnd of P, the feedthrough of the measured outputs and of the limited inputs `r`, with the correction `corr` added,
saturated to Q1.23 and limited by U_LIM (R225). -/
def csControl (s : State) (k : Nat) (corr r : List Int) (j : Nat) : Int :=
  let lim := sw (rg s .cslot k (Reg.CSLOT.U_LIM + 4 * j))
  let sum := (cslotOf s k).p.getD j 0 + csRow s k Reg.CSLOT.E 4 j (csNY s k) (fun m => if m < 4 then csY s k m else 0) +
    csRow s k Reg.CSLOT.H 4 j (csNI s k) (fun i => r.getD i 0)
  clampI (-lim) lim (clampI (-8388608) 8388607 (csRnd (csShift s k Reg.CSLOT.SHIFT_U j) sum + corr.getD j 0))

/-! ## PWM modules -/

/-- A pair of a module at an event at the elapsed time `l`: a fraction that has arrived stands in its shadow (R255). -/
def pwmPairAt (s : State) (n p l : Nat) : PwmPair := ((pwmOf s n).pair p).absorb l

/-- The on-time of a pair of a module in RUN at an event at the elapsed time `l` that loads it, with T in force (R253, R254): its compare or its
fraction from the register, the fraction of the slot that maps it, or its signal. A pair whose slot is lost keeps the active compare. -/
def pwmOn (s : State) (n p t l : Nat) : Nat :=
  let c := rg s .pwm n (Reg.PWM.PAIR_CFG + 4 * p)
  let v := rf s .pwm n (Reg.PWM.CMP + 4 * p) 0 24
  if fld c 2 2 = 0 then (if rb s .pwm n Reg.PWM.CFG 4 then fracD (v % 65536) t else min v t)
  else if fld c 2 2 = 1 then
    (if (pairSlot s n p).isSome ∧ (pwmPairAt s n p l).fresh = true then fracD (pwmPairAt s n p l).frac t
      else min (rg s .pwm n (Reg.PWM.CMP_ACT + 4 * p)).toNat t)
  else fracD (dutyFrac (sext 24 (sigLo s (fld c 16 16)).toNat)) t

/-- The compare or fraction that a load takes its on-time from (R253, R259): a pair whose slot is lost keeps that of the last load. -/
def pwmRaw (s : State) (n p l : Nat) : Nat :=
  let c := rg s .pwm n (Reg.PWM.PAIR_CFG + 4 * p)
  let v := rf s .pwm n (Reg.PWM.CMP + 4 * p) 0 24
  if fld c 2 2 = 0 then (if rb s .pwm n Reg.PWM.CFG 4 then v + 16777216 else v)
  else if fld c 2 2 = 1 then
    (if (pairSlot s n p).isSome ∧ (pwmPairAt s n p l).fresh = true then (pwmPairAt s n p l).frac else (pwmPairAt s n p l).raw)
  else dutyFrac (sext 24 (sigLo s (fld c 16 16)).toNat)

/-- What a period delivers of a pair whose reference begins with an on-time: short pulses as CFG.SHORT handles them (R257, R258). -/
def pwmDelivers (s : State) (n p t d : Nat) : Deliv :=
  deliver (rf s .pwm n Reg.PWM.CFG 5 2) t (pwmDtH s n + pwmMinp s n) (pwmDtL s n + pwmMinp s n) d ((pwmOf s n).pair p).qh ((pwmOf s n).pair p).ql

/-- No commit, no command and no FREEZE stands at a page. -/
def PageIdle (s : State) (k : Nat) : Prop :=
  (s.page k).commit = .none ∧ (s.page k).cmd = none ∧ (s.page k).freeze = false ∧ (s.page k).frozen = false

/-! ## Faults -/

/-- The groups a source's raise by an instance concerns (R405, Table 15-2). -/
def raiseGroups (s : State) (src : Nat) (ty : PgTy) (n sub : Nat) : List Nat :=
  grpList (derivedGroups s src ty n sub ||| rg s .flt 0 (Reg.FLT.SRC_MASK + 4 * src))

/-- The fault manager takes a raise and logs it, and its strongest reaction leaves every page alone: LOG or WARN (R404, R406, R407). -/
def RaiseLogs (s : State) (src : Nat) (ty : PgTy) (n sub : Nat) : Prop :=
  powered s .flt 0 = true ∧ ¬(levelSources.contains src = true ∧ s.holds.any (fun h => h.src == src && h.pgType == ty.code && h.inst == n && h.sub == sub) = true) ∧
  (∃ g ∈ raiseGroups s src ty n sub, 1 ≤ reaction s src g) ∧ ∀ g ∈ raiseGroups s src ty n sub, reaction s src g < 3

/-- The fault log holds an unacknowledged entry of a source's instance (R412, R413). -/
def Logged (u : State) (src : Nat) (ty : PgTy) (n sub : Nat) : Prop := ∃ e ∈ u.flog, e.of src ty n sub = true ∧ e.ack = false

end Sys2Proof.Machine
end

