-- ==== Sys2Proof/Certificates/Slice0/Obligations.lean ====
section
/-! DEFINITION. The statements about the model: what each command of the device does and leaves alone, by the numbered rules of the
spec. -/
section
open Sys2Proof Sys2Proof.Machine

/-- A step takes the command at the front of the queue and carries it out with the queue's rest; on an empty queue the block idles (the
model's choice, log entry 1). -/
def Obligations.step_runs_front_command : Prop :=
  (∀ (s : State) (c : Instr) (q : List Instr), step { s with pending := c :: q } = exec c { s with pending := q }) ∧
    ∀ s : State, s.pending = [] → step s = .next s

/-- Every step goes on, and leaves the interrupt lines as the pages and the map say (R63, R64). -/
def Obligations.lines_follow_every_step : Prop :=
  ∀ s : State, LinesFollow s → ∃ t, step s = .next t ∧ LinesFollow t

/-- Every step keeps memory in its canonical form: addresses rising, no byte listed that reads as an unlisted one does (log entry 2). -/
def Obligations.memory_form_kept : Prop :=
  ∀ s t : State, Memory.wf s.mem = true → step s = .next t → Memory.wf t.mem = true

/-- Every step leaves the always-on domain PD0 powered: no command, brown-out, switch-off or reset takes it away (R510, R514). -/
def Obligations.always_on_domain_kept : Prop :=
  ∀ s t : State, s.dom.getLsbD 0 = true → step s = .next t → t.dom.getLsbD 0 = true

/-- What reset leaves: PD0 alone has power, so every other page answers OFF; no line is asserted, no command waits, the entry of
every signal is disabled, nothing is forced and nothing logged (Table 20-3, R37, R16). -/
def Obligations.reset_state : Prop :=
  LinesFollow State.reset ∧ Idle State.reset ∧ Memory.wf State.reset.mem = true ∧ State.reset.irqOn = 0 ∧
    (∀ t n, powered State.reset t n = decide (t.domain n = 0)) ∧
    (∀ t n, t.domain n ≠ 0 → stOf State.reset t n = .off) ∧
    (∀ id, (sigEnt State.reset id).en = false) ∧ State.reset.frc = [] ∧ State.reset.flog = [] ∧ State.reset.fabLog = [] ∧
    (∀ t n, (State.reset.page (pk t n)).cmd = none ∧ (State.reset.page (pk t n)).commit = .none ∧
      (State.reset.page (pk t n)).err = 0 ∧ (State.reset.page (pk t n)).intRaw = 0 ∧ (State.reset.page (pk t n)).locked = false)

/-- PGCTL and PGKEY (R39, R40, R43 to R45, R51). EN=1 takes a page type without a start of its own, such as PRK or ETH, from OFF to
IDLE, and EN=0 back to OFF with no command left waiting; SRST clears the interrupts, errors and staged set of such a page; LOCKREQ locks; the
key pair opens the window, in which one write changes DBGSAFE; FREEZE is taken. No other page and no byte of memory changes. -/
def Obligations.page_control : Prop :=
  (∀ (s : State) (n : Nat) (ty : PgTy), ty ∈ [PgTy.enc, .ssn, .axis, .prk, .step, .eth, .psp, .can, .fch, .acq] → answers s ⟨ty, n⟩ = true →
      (s.page (pk ty n)).locked = false → (s.page (pk ty n)).key ≠ .window → (s.page (pk ty n)).en = false →
      Gives (.pageEnable ⟨ty, n⟩ true) s (fun t => (t.page (pk ty n)).en = true ∧ stOf t ty n = .idle ∧ OnlyPages s t ∧
        OtherPages s t (pk ty n) ∧ OtherRegs s t ty n [])) ∧
  (∀ (s : State) (n : Nat) (ty : PgTy), ty ∈ [PgTy.prk, .ptp, .hsp, .gpio] →
      answers s ⟨ty, n⟩ = true → (s.page (pk ty n)).locked = false → (s.page (pk ty n)).key ≠ .window → (s.page (pk ty n)).en = true →
      (s.page (pk ty n)).commit = .none →
      Gives (.pageEnable ⟨ty, n⟩ false) s (fun t => (t.page (pk ty n)).en = false ∧ stOf t ty n = .off ∧
        (t.page (pk ty n)).cmd = none ∧ SameMem s t)) ∧
  (∀ (s : State) (n : Nat), answers s ⟨.prk, n⟩ = true → (s.page (pk .prk n)).locked = false → (s.page (pk .prk n)).key ≠ .window →
      stOf s .prk n = .idle → (s.page (pk .prk n)).en = true →
      Gives (.softReset ⟨.prk, n⟩) s (fun t => stOf t .prk n = .idle ∧ (t.page (pk .prk n)).en = true ∧
        (t.page (pk .prk n)).intRaw = 0 ∧ (t.page (pk .prk n)).err = 0 ∧ (t.page (pk .prk n)).prog = 0 ∧
        (t.page (pk .prk n)).staged = [] ∧ (t.page (pk .prk n)).cmd = none ∧ (t.page (pk .prk n)).commit = .none ∧
        (∀ o, rg t .prk n o = regReset .prk o) ∧ OtherPages s t (pk .prk n) ∧ SameMem s t)) ∧
  (∀ (s : State) (n : Nat) (on : Bool), answers s ⟨.pwm, n⟩ = true → (s.page (pk .pwm n)).locked = false →
      (s.page (pk .pwm n)).key ≠ .window → boundaryRuns s .pwm n = true →
      Gives (.pageFreeze ⟨.pwm, n⟩ on) s (fun t => (t.page (pk .pwm n)).freeze = on ∧ stOf t .pwm n = stOf s .pwm n ∧
        OnlyPages s t ∧ OtherPages s t (pk .pwm n) ∧ OtherRegs s t .pwm n [])) ∧
  (∀ (s : State) (pg : PageId), answers s pg = true → (s.page pg.key).locked = false → (s.page pg.key).key ≠ .window →
      secPages.contains pg.ty = false →
      Gives (.lockRequest pg) s (fun t => (t.page pg.key).locked = true ∧
        (hasFreeze pg.ty = false → t.page pg.key = { s.page pg.key with locked := true } ∧ OnlyPages s t ∧ OtherPages s t pg.key))) ∧
  (∀ (s : State) (pg : PageId) (w : Word), answers s pg = true → secPages.contains pg.ty = false →
      Gives (.unlockWindow pg w) s (fun t =>
        ((s.page pg.key).key = .first → w = ~~~(0x6B650000 + (pgid pg.ty pg.inst >>> 16)) → (t.page pg.key).key = .window) ∧
        ((s.page pg.key).key ≠ .first → w = 0x6B650000 + (pgid pg.ty pg.inst >>> 16) → (t.page pg.key).key = .first) ∧
        (w ≠ ~~~(0x6B650000 + (pgid pg.ty pg.inst >>> 16)) → w ≠ 0x6B650000 + (pgid pg.ty pg.inst >>> 16) →
          (t.page pg.key).key = .idle ∧ (t.page pg.key).err = errWord .locked 0x034 3 ∧ bit (t.page pg.key).intRaw 31 = true) ∧
        OnlyPages s t ∧ OtherPages s t pg.key ∧ OtherRegs s t pg.ty pg.inst [])) ∧
  (∀ (s : State) (n : Nat) (b : Bool), answers s ⟨.enc, n⟩ = true → (s.page (pk .enc n)).key = .window → (secured s = false ∨ b = true) →
      Gives (.dbgsafeChange ⟨.enc, n⟩ (setBit (setBit (s.page (pk .enc n)).ctl 3 b) 4 false)) s (fun t =>
        (t.page (pk .enc n)).dbgSafe = b ∧ (t.page (pk .enc n)).key = .idle ∧ (t.page (pk .enc n)).locked = false ∧
        stOf t .enc n = stOf s .enc n ∧ OnlyPages s t ∧ OtherPages s t (pk .enc n) ∧ OtherRegs s t .enc n []))

/-- Every step keeps the staging stores in their form: each register staged once. -/
def Obligations.staged_once_kept : Prop :=
  ∀ s t : State, StagedOnce s → step s = .next t → StagedOnce t

/-- Commits (R46, R48, R49). The write of PGCOMMIT with the CRC of the staging store sets COMMIT_PENDING and nothing else; with another CRC
it is rejected with CRC_MISMATCH. The end of validation rejects the commit with the first failing register and its code, the staged values kept, or
accepts it. At the boundary every staged value becomes the active one, no other register of the page changes, COMMITTED sets and COMMIT_PENDING,
STAGED_DIRTY and PGERR clear. -/
def Obligations.staged_commits : Prop :=
  (∀ (s : State) (pg : PageId) (crc : Word), answers s pg = true → secPages.contains pg.ty = false → pg.ty ≠ .pwr →
      (s.page pg.key).locked = false → (s.page pg.key).key ≠ .window → commitBusy s pg.ty pg.inst = false →
      Gives (.pgcommitWrite pg crc) s (fun t =>
        (crc = stagedCrc s pg.ty pg.inst → t.page pg.key = { s.page pg.key with commit := .validating }) ∧
        (crc ≠ stagedCrc s pg.ty pg.inst → (t.page pg.key).commit = (s.page pg.key).commit ∧
          (t.page pg.key).err = errWord .crcMismatch 0x01C 1 ∧ bit (t.page pg.key).intRaw 31 = true) ∧
        (t.page pg.key).staged = (s.page pg.key).staged ∧ (t.page pg.key).regs = (s.page pg.key).regs ∧ OnlyPages s t ∧
        OtherPages s t pg.key)) ∧
  (∀ (s : State) (pg : PageId), answers s pg = true → (s.page pg.key).commit = .validating → pg.ty ≠ .frc → pg.ty ≠ .le →
      Gives (.commitValidationEnd pg) s (fun t =>
        (∀ o c, firstFail (validateOf s pg.ty pg.inst) = some (o, c) → (t.page pg.key).commit = .none ∧
          (t.page pg.key).err = errWord c o 1 ∧ bit (t.page pg.key).intRaw 31 = true ∧
          (t.page pg.key).staged = (s.page pg.key).staged ∧ (t.page pg.key).regs = (s.page pg.key).regs ∧ OnlyPages s t ∧
          OtherPages s t pg.key) ∧
        (firstFail (validateOf s pg.ty pg.inst) = none → (s.page pg.key).freeze = true →
          t.page pg.key = { s.page pg.key with commit := .accepted } ∧ OnlyPages s t ∧ OtherPages s t pg.key))) ∧
  (∀ (s : State) (ty : PgTy) (n : Nat), ty ∈ [PgTy.enc, .ssn, .step, .fch, .fcg, .pcv, .psp, .eth, .mem, .dio] → answers s ⟨ty, n⟩ = true →
      (s.page (pk ty n)).commit = .accepted → (s.page (pk ty n)).freeze = false → StagedOnce s →
      Gives (.commitBoundary ⟨ty, n⟩) s (fun t => (∀ o, rg t ty n o = staged s ty n o) ∧ (∀ o, staged t ty n o = staged s ty n o) ∧
        (t.page (pk ty n)).staged = [] ∧ (t.page (pk ty n)).commit = .none ∧ (t.page (pk ty n)).dirty = false ∧
        (t.page (pk ty n)).err = 0 ∧ bit (t.page (pk ty n)).intRaw 30 = true ∧ stOf t ty n = stOf s ty n ∧
        OnlyPages { s with fcgs := t.fcgs } t ∧ (ty ≠ .fcg → t.fcgs = s.fcgs) ∧ OtherPages s t (pk ty n)))

/-- The common commands where they act (Table 2-8, R54, R55): START takes a page from IDLE to RUN, STOP to IDLE, HOLD to HOLD, CONTINUE
to RUN, CLEAR_FAULT from FAULT to IDLE; DISCARD makes the staging store equal the active values; ABORT ends the long operation in PHASE 14. Of a
command that acted PGCMD holds the word, none is pending, PGERR is 0 and CMD_DONE is set; no byte of memory changes. Where the page's
boundary runs, STOP and CLEAR_FAULT wait for it and act there. -/
def Obligations.common_commands : Prop :=
  (∀ (s : State) (ty : PgTy) (n : Nat) (m : Master) (chk : BitVec 16),
      ty ∈ [PgTy.enc, .ssn, .step, .fch, .pcv, .eth, .psp, .dio, .le] →
      ActsNow s ty n 1 m chk →
      Gives (.cmdStart ⟨ty, n⟩ m chk) s (fun t => stOf t ty n = .run ∧ CmdDone t (pk ty n) (cmdWord chk 1) ∧ SameMem s t)) ∧
  (∀ (s : State) (n : Nat) (m : Master) (chk : BitVec 16), ActsNow s .fcg n 1 m chk →
      Gives (.cmdStart ⟨.fcg, n⟩ m chk) s (fun t => stOf t .fcg n = (if (fcgOf s n).carry = none then .run else .update) ∧
        (fcgOf t n).startup = true ∧ ((fcgOf s n).cur = none → (t.page (pk .fcg n)).busy = true) ∧
        CmdDone t (pk .fcg n) (cmdWord chk 1) ∧ SameMem s t)) ∧
  (∀ (s : State) (ty : PgTy) (n : Nat) (m : Master) (chk : BitVec 16),
      ty ∈ [PgTy.cslot, .pcmp, .pwm, .eth, .psp] → ActsNow s ty n 2 m chk →
      Gives (.cmdStop ⟨ty, n⟩ m chk) s (fun t => stOf t ty n = .idle ∧ CmdDone t (pk ty n) (cmdWord chk 2) ∧ SameMem s t)) ∧
  (∀ (s : State) (ty : PgTy) (n : Nat) (m : Master) (chk : BitVec 16), ty ∈ [PgTy.pcmp, .pwm] → ActsNow s ty n 3 m chk →
      Gives (.cmdHold ⟨ty, n⟩ m chk) s (fun t => stOf t ty n = .hold ∧ CmdDone t (pk ty n) (cmdWord chk 3) ∧ OnlyPages s t ∧
        OtherPages s t (pk ty n) ∧ OtherRegs s t ty n [])) ∧
  (∀ (s : State) (ty : PgTy) (n : Nat) (m : Master) (chk : BitVec 16), ty ∈ [PgTy.pwm, .le] → ActsNow s ty n 4 m chk →
      Gives (.cmdContinue ⟨ty, n⟩ m chk) s (fun t => stOf t ty n = .run ∧ CmdDone t (pk ty n) (cmdWord chk 4) ∧ OnlyPages s t ∧
        OtherPages s t (pk ty n) ∧ OtherRegs s t ty n [])) ∧
  (∀ (s : State) (pg : PageId) (m : Master) (chk : BitVec 16), pg.ty ∉ [PgTy.sig, .frc, .ustp] → ActsNow s pg.ty pg.inst 5 m chk →
      Gives (.cmdDiscard pg m chk) s (fun t => (t.page pg.key).staged = [] ∧ (t.page pg.key).dirty = false ∧
        (∀ o, staged t pg.ty pg.inst o = rg s pg.ty pg.inst o) ∧ CmdDone t pg.key (cmdWord chk 5) ∧
        stOf t pg.ty pg.inst = stOf s pg.ty pg.inst ∧ OnlyPages s t ∧ OtherPages s t pg.key ∧ OtherRegs s t pg.ty pg.inst [])) ∧
  (∀ (s : State) (ty : PgTy) (n : Nat) (m : Master) (chk : BitVec 16), ty ∈ [PgTy.ssn, .pcmp, .fch, .cslot, .psp] → ActsNow s ty n 6 m chk →
      Gives (.cmdClearFault ⟨ty, n⟩ m chk) s (fun t => stOf t ty n = .idle ∧ CmdDone t (pk ty n) (cmdWord chk 6) ∧ SameMem s t)) ∧
  (∀ (s : State) (ty : PgTy) (n : Nat) (m : Master) (chk : BitVec 16), ty ∈ [PgTy.mem, .can, .cslot] → ActsNow s ty n 7 m chk →
      Gives (.cmdAbort ⟨ty, n⟩ m chk) s (fun t => (t.page (pk ty n)).busy = false ∧ fld (t.page (pk ty n)).prog 24 4 = 14 ∧
        (t.page (pk ty n)).err = errWord .wrongState 0x010 4 ∧ (t.page (pk ty n)).cmd = none ∧
        bit (t.page (pk ty n)).intRaw 28 = true ∧ bit (t.page (pk ty n)).intRaw 29 = true ∧ OtherPages s t (pk ty n) ∧
        OtherRegs s t ty n [] ∧ SameMem s t)) ∧
  (∀ (s : State) (ty : PgTy) (n : Nat) (m : Master) (chk : BitVec 16), ty ∈ [PgTy.enc, .ssn, .step, .fch] → WaitsFree s ty n 2 m chk →
      GivesLater (.cmdStop ⟨ty, n⟩ m chk) s ty n 2 m chk (fun u => stOf u ty n = .idle ∧ CmdDone u (pk ty n) (cmdWord chk 2) ∧ SameMem s u)) ∧
  (∀ (s : State) (n : Nat) (m : Master) (chk : BitVec 16), WaitsFree s .enc n 6 m chk →
      GivesLater (.cmdClearFault ⟨.enc, n⟩ m chk) s .enc n 6 m chk (fun u => stOf u .enc n = .idle ∧ CmdDone u (pk .enc n) (cmdWord chk 6) ∧
        SameMem s u)) ∧
  (∀ (s : State) (n : Nat) (m : Master), answers s ⟨.enc, n⟩ = true → (s.page (pk .enc n)).cmd = some ⟨5, m⟩ →
      (s.page (pk .enc n)).freeze = false → (s.page (pk .enc n)).commit = .none →
      Gives (.commandBoundary ⟨.enc, n⟩) s (fun t => (t.page (pk .enc n)).cmd = none ∧ (t.page (pk .enc n)).staged = [] ∧
        (t.page (pk .enc n)).dirty = false ∧ (t.page (pk .enc n)).err = 0 ∧ bit (t.page (pk .enc n)).intRaw 29 = true ∧ OnlyPages s t ∧
        OtherPages s t (pk .enc n) ∧ OtherRegs s t .enc n []))

/-- A command word that a test of R543 refuses changes nothing but PGERR, which shows the code with OFFSET 0x010 and SOURCE 2, and INT_RAW.ERR
(R55, R56); one that is accepted while its page's boundary runs waits with CMD_PENDING set and PGCMD holding its word. A wrong check half gives
CMD_CHECK, a locked page LOCKED for a command not marked safe. -/
def Obligations.refused_and_waiting_commands : Prop :=
  (∀ (s : State) (pg : PageId) (m : Master) (chk : BitVec 16) (c : ErrCode), answers s pg = true → (s.page pg.key).key ≠ .window →
      pg.ty ∉ [PgTy.pwm, .time] → cmdRefusal s pg.ty pg.inst m (cmdWord chk 1) = some c →
      Gives (.cmdStart pg m chk) s (fun t => t.page pg.key = { s.page pg.key with err := errWord c 0x010 2, intRaw := (t.page pg.key).intRaw } ∧
        (t.page pg.key).intRaw = (s.page pg.key).intRaw ||| 0x80000000 ∧ OnlyPages s t ∧ OtherPages s t pg.key)) ∧
  (∀ (s : State) (pg : PageId) (m : Master) (chk : BitVec 16), chk ≠ 0xFFFE →
      cmdRefusal s pg.ty pg.inst m (cmdWord chk 1) = some .cmdCheck) ∧
  (∀ (s : State) (n : Nat) (m : Master), (s.page (pk .enc n)).locked = true →
      cmdRefusal s .enc n m (cmdWord 0xFFFE 1) = some .locked) ∧
  (∀ (s : State) (pg : PageId) (m : Master) (chk : BitVec 16), Waits s pg.ty pg.inst 2 m chk →
      Gives (.cmdStop pg m chk) s (fun t => t.page pg.key = { s.page pg.key with lastCmd := cmdWord chk 2, cmd := some ⟨2, m⟩ } ∧
        OnlyPages s t ∧ OtherPages s t pg.key))

/-- Interrupts (R62 to R64). INT_CLR clears the bits written 1 but for those whose events fall in the same cycle, INT_SET sets defined
bits, and nothing else of any page changes; afterwards the lines stand as the enabled, raised interrupts say. -/
def Obligations.interrupt_registers : Prop :=
  (∀ (s : State) (pg : PageId) (w ev : Word), answers s pg = true → (s.page pg.key).key ≠ .window → secPages.contains pg.ty = false →
      Gives (.intClrWrite pg w ev) s (fun t =>
        t.page pg.key = { s.page pg.key with intRaw := ((s.page pg.key).intRaw &&& ~~~w) ||| (ev &&& intMask pg.ty) } ∧ LinesFollow t ∧
        OnlyPages s t ∧ OtherPages s t pg.key)) ∧
  (∀ (s : State) (pg : PageId) (w : Word), answers s pg = true → (s.page pg.key).key ≠ .window → secPages.contains pg.ty = false →
      Gives (.intSetWrite pg w) s (fun t =>
        t.page pg.key = { s.page pg.key with intRaw := (s.page pg.key).intRaw ||| (w &&& intMask pg.ty) } ∧ LinesFollow t ∧
        OnlyPages s t ∧ OtherPages s t pg.key))

/-- Register writes by access code (Table 0-3, R2, R3, R43, R46, R61, R62). An RO register ignores them; a locked page rejects them with LOCKED,
SOURCE 3 and the register's offset; an RW register takes the bits it implements; an RS register stages them, the active value and
every other staged value kept; a W1C register clears the bits written 1 but for those set in the same cycle; the high word of a wide RW
value applies both words. No other register of the page, no other page and no byte of memory changes. -/
def Obligations.register_writes : Prop :=
  (∀ (s : State) (m : Master) (pg : PageId) (off : Nat) (v : Word) (r : RegRow), answers s pg = true → (s.page pg.key).key ≠ .window →
      0x040 ≤ off → off < 4096 → off % 4 = 0 → regRowAt pg.ty pg.inst off = some r → r.acc = .ro →
      Gives (.registerWrite m pg off v) s (fun t => t.page pg.key = s.page pg.key ∧ OnlyPages s t ∧ OtherPages s t pg.key)) ∧
  (∀ (s : State) (m : Master) (pg : PageId) (off : Nat) (v : Word) (r : RegRow), answers s pg = true → (s.page pg.key).key ≠ .window →
      0x040 ≤ off → off < 4096 → off % 4 = 0 → regRowAt pg.ty pg.inst off = some r → r.acc ≠ .ro → (s.page pg.key).locked = true →
      Gives (.registerWrite m pg off v) s (fun t => (t.page pg.key).err = errWord .locked off 3 ∧ bit (t.page pg.key).intRaw 31 = true ∧
        (t.page pg.key).regs = (s.page pg.key).regs ∧ (t.page pg.key).staged = (s.page pg.key).staged ∧ OnlyPages s t ∧
        OtherPages s t pg.key)) ∧
  (∀ (s : State) (m : Master) (ty : PgTy) (n off : Nat) (v : Word) (r : RegRow),
      ty ∈ [PgTy.prk, .pwm, .fin, .fcg, .dio] →
      answers s ⟨ty, n⟩ = true → (s.page (pk ty n)).key ≠ .window → (s.page (pk ty n)).locked = false →
      0x040 ≤ off → off < 4096 → off % 4 = 0 → regRow ty off = some r → r.acc = .rw → r.prot = false →
      Gives (.registerWrite m ⟨ty, n⟩ off v) s (fun t => rg t ty n off = v &&& regMask ty off ∧ OtherRegs s t ty n [off] ∧
        (t.page (pk ty n)).staged = (s.page (pk ty n)).staged ∧ OnlyPages s t ∧ OtherPages s t (pk ty n))) ∧
  (∀ (s : State) (m : Master) (ty : PgTy) (n off : Nat) (v : Word) (r : RegRow), secPages.contains ty = false → ty ≠ .pwr →
      answers s ⟨ty, n⟩ = true → (s.page (pk ty n)).key ≠ .window → (s.page (pk ty n)).locked = false →
      0x040 ≤ off → off < 4096 → off % 4 = 0 → regRowAt ty n off = some r → r.acc = .rs → r.prot = false → commitBusy s ty n = false →
      Gives (.registerWrite m ⟨ty, n⟩ off v) s (fun t => staged t ty n off = v &&& regMask ty off ∧
        (∀ o, o ≠ off → staged t ty n o = staged s ty n o) ∧ (t.page (pk ty n)).dirty = true ∧ OtherRegs s t ty n [] ∧ OnlyPages s t ∧
        OtherPages s t (pk ty n))) ∧
  (∀ (s : State) (ty : PgTy) (n off : Nat) (w ev : Word) (r : RegRow), ty ∈ [PgTy.sys, .can, .gpio] →
      (ty = .can → off < Reg.CAN.RX_FULL) →
      answers s ⟨ty, n⟩ = true → (s.page (pk ty n)).key ≠ .window → (s.page (pk ty n)).locked = false →
      0x040 ≤ off → off < 4096 → off % 4 = 0 → regRow ty off = some r → r.acc = .w1c → r.prot = false →
      Gives (.w1cStatusWrite ⟨ty, n⟩ off w ev) s (fun t => rg t ty n off = (rg s ty n off &&& ~~~w) ||| (ev &&& regMask ty off) ∧
        OtherRegs s t ty n [off] ∧ OnlyPages s t ∧ OtherPages s t (pk ty n))) ∧
  (∀ (s : State) (ty : PgTy) (n lo : Nat) (v : Word) (r : RegRow), ty ∈ [PgTy.le, .rseq, .recStore] → lo ∈ rwLows ty →
      answers s ⟨ty, n⟩ = true → (s.page (pk ty n)).key ≠ .window → (s.page (pk ty n)).locked = false →
      regRow ty (lo + 4) = some r → r.acc = .rw → r.prot = false →
      Gives (.wideWriteApply ⟨ty, n⟩ (lo + 4) v) s (fun t => rg t ty n lo = lowWord s ty n lo ∧
        rg t ty n (lo + 4) = v &&& regMask ty (lo + 4) ∧ OtherRegs s t ty n [lo, lo + 4] ∧ OnlyPages s t ∧ OtherPages s t (pk ty n)))

/-- Reads (R18, R33, R60, R222). Every read of a register of a page completes with the word the page answers there, and leaves device time, the
domains and the queue; every read of a slot completes, leaves memory and meets no error response, whatever ECC errors its word shows. The read of the low
word of a wide value answers it and latches the next word, which a later read of the high offset answers; the read of a maximum register
answers it and sets it to 0; the read of VALUE_LO of a slot answers its value and latches VALUE_HI, TSTAMP and STATUS. No other register and
no byte of memory changes. -/
def Obligations.reads_that_latch_or_clear : Prop :=
  (∀ (s : State) (pg : PageId) (off : Nat), ∃ t, exec (.wideReadSnapshot pg off) s = .next t ∧
      t.resp = ⟨(pageRead s .ap0 pg (off % 4096 / 4 * 4)).2, 0, .ok⟩ ∧ t.now = s.now ∧ t.dom = s.dom ∧ t.pending = s.pending) ∧
  (∀ (s : State) (pg : PageId) (off : Nat), ∃ t, exec (.readClearRegister pg off) s = .next t ∧
      t.resp = ⟨(pageRead s .ap0 pg (off % 4096 / 4 * 4)).2, 0, .ok⟩ ∧ t.now = s.now ∧ t.dom = s.dom ∧ t.pending = s.pending) ∧
  (∀ (s : State) (id : BitVec 16) (ecc : List (Bool × Nat)), ∃ t, exec (.piValueRead id ecc) s = .next t ∧
      t.resp.fin = .ok ∧ t.now = s.now ∧ t.dom = s.dom ∧ t.pending = s.pending ∧ SameMem s t) ∧
  (∀ (s : State) (n off : Nat), off ∈ wideLows .axis → answers s ⟨.axis, n⟩ = true →
      Gives (.wideReadSnapshot ⟨.axis, n⟩ off) s (fun t => t.resp = ⟨rg s .axis n off, 0, .ok⟩ ∧
        pageRead t .ap0 ⟨.axis, n⟩ (off + 4) = (t, rg s .axis n (off + 4)) ∧ OtherRegs s t .axis n [] ∧ OtherPages s t (pk .axis n) ∧
        SameMem s t)) ∧
  (∀ (s : State) (n : Nat) (ty : PgTy) (off : Nat), (ty, off) ∈ [(PgTy.fch, Reg.FCH.WAIT_MAX), (.ce, Reg.CE.QUEUE_MAX)] →
      answers s ⟨ty, n⟩ = true →
      Gives (.readClearRegister ⟨ty, n⟩ off) s (fun t => t.resp = ⟨rg s ty n off, 0, .ok⟩ ∧ rg t ty n off = 0 ∧
        OtherRegs s t ty n [off] ∧ OtherPages s t (pk ty n) ∧ SameMem s t)) ∧
  (∀ (s : State) (id : BitVec 16), Gives (.piValueRead id []) s (fun t => t.resp = ⟨sigLo s id.toNat, 0, .ok⟩ ∧
      (∀ k, t.page k = s.page k) ∧ t.sigs = s.sigs ∧ SameMem s t ∧
      (∀ i, i ≠ id.toNat → slotOf t i = slotOf s i) ∧ (slotOf t id.toNat).value = (slotOf s id.toNat).value ∧
      (slotOf t id.toNat).snapHi = ((slotView s id.toNat).value >>> 32).setWidth 32 ∧
      (slotOf t id.toNat).snapTs = (slotView s id.toNat).ts ∧ (slotOf t id.toNat).snapStatus = (slotView s id.toNat).status))

/-- Publication by software (R17 to R21). A master that may publish an enabled signal sourced from APC writes VALUE_LO: RAW takes the value in the
signal's TYPE, VALUE too unless a force stands, TSTAMP the time now, SAFE and NEVER clear, PUB_CNT counts one; a 48.16 signal publishes at
VALUE_HI with the low word last written. Another signal's slot only shows CONFLICT. No other slot, no signal-table entry and no byte of memory changes. -/
def Obligations.software_publication : Prop :=
  (∀ (s : State) (m : Master) (id : BitVec 16) (v : Word), id ≠ 0 → mayPublish s m id.toNat = true → (sigEnt s id.toNat).en = true →
      sigRun s = true → (sigEnt s id.toNat).typ ≠ 2 →
      Gives (.apcPublish m id false v) s (fun t =>
        (slotOf t id.toNat).raw = typed (sigEnt s id.toNat).typ 0 v 0 ∧
        (slotOf t id.toNat).value = (if (slotOf s id.toNat).forced then (slotOf s id.toNat).value else typed (sigEnt s id.toNat).typ 0 v 0) ∧
        (slotOf t id.toNat).ts = devTime s.now ∧ (slotOf t id.toNat).safe = false ∧ (slotOf t id.toNat).never = false ∧
        (slotOf t id.toNat).pubCnt = (slotOf s id.toNat).pubCnt + 1 ∧
        (∀ i, i ≠ id.toNat → slotOf t i = slotOf s i) ∧ t.sigs = s.sigs ∧ SameMem s t)) ∧
  (∀ (s : State) (m : Master) (id : BitVec 16) (v w : Word), id ≠ 0 → mayPublish s m id.toNat = true → (sigEnt s id.toNat).en = true →
      sigRun s = true → (sigEnt s id.toNat).typ = 2 → (slotOf s id.toNat).lowPart = some w →
      Gives (.apcPublish m id true v) s (fun t => (slotOf t id.toNat).raw = v ++ w ∧ (slotOf t id.toNat).ts = devTime s.now ∧
        (∀ i, i ≠ id.toNat → slotOf t i = slotOf s i) ∧ t.sigs = s.sigs ∧ SameMem s t)) ∧
  (∀ (s : State) (m : Master) (id : BitVec 16) (v : Word) (hi : Bool), id ≠ 0 → powered s .sig 0 = true → mayPublish s m id.toNat = false →
      (sigEnt s id.toNat).en = true →
      Gives (.apcPublish m id hi v) s (fun t => slotOf t id.toNat = { slotOf s id.toNat with conflict := true } ∧
        (∀ i, i ≠ id.toNat → slotOf t i = slotOf s i) ∧ (∀ k, t.page k = s.page k) ∧ t.sigs = s.sigs ∧ SameMem s t))

/-- Debug halts (R42, R267). The halt of an engine that is open to debug and runs is noted; a loop core's page goes to HOLD; a PWM module that
the engine controls, with DBGSAFE=1, enters SAFE. A resume ends the halt, the core's page leaves HOLD, and the module stays in SAFE. -/
def Obligations.debug_halts : Prop :=
  (∀ (s : State) (e : Engine), dbgOpen s e = true → engineUp s e = true →
      Gives (.debugHalt e) s (fun t => e ∈ t.dbgHalt ∧ t.sigs = s.sigs ∧ t.now = s.now ∧ t.dom = s.dom ∧ SameMem s t ∧
        (∀ c, e = .lc c → stOf t .lc c.val = .hold) ∧ (∀ i, e = .ap i → t.apHalt.getLsbD i.val = true) ∧
        ∀ n, n < 32 → stOf s .pwm n = .run → (s.page (pk .pwm n)).dbgSafe = true → controls s e .pwm n = true →
          stOf t .pwm n = .safe ∧ rb t .pwm n Reg.PWM.STAT 6 = true)) ∧
  (∀ (s : State) (c : Fin 18), Engine.lc c ∈ s.dbgHalt → stOf s .lc c.val = .hold → inOp s c.val = false →
      Gives (.debugResume (.lc c)) s (fun t => Engine.lc c ∉ t.dbgHalt ∧ 
        stOf t .lc c.val = (if !(coreTasks s c.val).isEmpty && inSt s .lsch 0 [.run, .update] then .run else .idle) ∧
        (∀ n, t.page (pk .pwm n) = s.page (pk .pwm n)) ∧ SameMem s t)) ∧
  (∀ (s : State) (i : Fin 2), Engine.ap i ∈ s.dbgHalt →
      Gives (.debugResume (.ap i)) s (fun t => Engine.ap i ∉ t.dbgHalt ∧ t.apHalt.getLsbD i.val = false ∧ (∀ k, t.page k = s.page k) ∧
        SameMem s t))

/-- Access errors and their log, and scrubbing (R27, R32, R33, R35). An access that no range of the map allows ends with an error response; the log takes its
address, master, kind, direction and time, and INT_RAW.LOG sets; memory is unchanged. LOG_IDX selects an entry below LOG_COUNT and is rejected with RANGE
beyond; CLEAR_LOG empties the log, zeroes LOG_OVF and clears OVF. SCRUB starts a long operation in PHASE 1; its end counts in SCRUB_CNT, shows PHASE 15 and sets
SCRUB_DONE; a background pass, with
SCRUB_EN=1 and at least SCRUB_HOURS after the one before it, only counts, and before that there is none. A word that a pass corrects counts in CE_CNT with its address in CE_ADDR. -/
def Obligations.fabric_errors_and_scrubbing : Prop :=
  (∀ (s : State) (m : Master) (a : Nat) (w : Bool), (m.isAp || m.isHost) = true → powered s .fab 0 = true → busEnd s m a w ≠ .ok →
      s.fabLog.length < 16 →
      Gives (.accessError m a w) s (fun t =>
        t.fabLog = s.fabLog ++ [⟨a, m.code, if busEnd s m a w = .undecoded then 0 else 1, w, devTime s.now⟩] ∧
        t.resp.fin = busEnd s m a w ∧ bit (t.page (pk .fab 0)).intRaw 0 = true ∧ OtherPages s t (pk .fab 0) ∧
        OtherRegs s t .fab 0 [Reg.FAB.STAT] ∧ SameMem s t)) ∧
  (∀ (s : State) (v : Word), answers s ⟨.fab, 0⟩ = true → (s.page (pk .fab 0)).key ≠ .window → (s.page (pk .fab 0)).locked = false →
      Gives (.fabLogIdxWrite v) s (fun t =>
        (fld v 0 4 < s.fabLog.length → rg t .fab 0 Reg.FAB.LOG_IDX = ofN (fld v 0 4)) ∧
        (s.fabLog.length ≤ fld v 0 4 → rg t .fab 0 Reg.FAB.LOG_IDX = rg s .fab 0 Reg.FAB.LOG_IDX ∧
          (t.page (pk .fab 0)).err = errWord .range Reg.FAB.LOG_IDX 3) ∧
        OtherRegs s t .fab 0 [Reg.FAB.LOG_IDX] ∧ OnlyPages s t ∧ OtherPages s t (pk .fab 0))) ∧
  (∀ (s : State) (chk : BitVec 16), ActsNow s .fab 0 0x10 .ap0 chk →
      Gives (.fabClearLog chk) s (fun t => t.fabLog = [] ∧ rg t .fab 0 Reg.FAB.LOG_OVF = 0 ∧ rb t .fab 0 Reg.FAB.STAT 8 = false ∧
        rf t .fab 0 Reg.FAB.STAT 0 5 = 0 ∧ CmdDone t (pk .fab 0) (cmdWord chk 0x10) ∧ OtherPages s t (pk .fab 0) ∧
        OtherRegs s t .fab 0 [Reg.FAB.LOG_OVF, Reg.FAB.STAT] ∧ SameMem s t)) ∧
  (∀ (s : State) (n : Fin 2) (chk : BitVec 16), ActsNow s .mem n.val 0x10 .ap0 chk →
      Gives (.memScrub n chk) s (fun t => (t.page (pk .mem n.val)).busy = true ∧ (t.page (pk .mem n.val)).prog = progWord 1 1 0 ∧
        CmdDone t (pk .mem n.val) (cmdWord chk 0x10) ∧ OnlyPages s t ∧ OtherPages s t (pk .mem n.val) ∧ OtherRegs s t .mem n.val [])) ∧
  (∀ (s : State) (n : Fin 2), powered s .mem n.val = true → (s.page (pk .mem n.val)).busy = true →
      Gives (.scrubPassEnd n []) s (fun t => rg t .mem n.val Reg.MEM.SCRUB_CNT = rg s .mem n.val Reg.MEM.SCRUB_CNT + 1 ∧
        (t.page (pk .mem n.val)).busy = false ∧ (t.page (pk .mem n.val)).prog = progWord 1 15 10000 ∧
        bit (t.page (pk .mem n.val)).intRaw 2 = true ∧ bit (t.page (pk .mem n.val)).intRaw 28 = true ∧ OnlyPages s t ∧
        OtherPages s t (pk .mem n.val) ∧ OtherRegs s t .mem n.val [Reg.MEM.SCRUB_CNT])) ∧
  (∀ (s : State) (n : Fin 2) (t : Nat) (ecc : List (Bool × Nat)), powered s .mem n.val = true → rb s .mem n.val Reg.MEM.CFG 0 = true →
      (SMap.get (fun _ => 0) s.scrubAt n.val + perS * 3600 * rf s .mem n.val Reg.MEM.CFG 16 16 ≤ s.lap t →
        Gives (.scrubTimer n t []) s (fun u => rg u .mem n.val Reg.MEM.SCRUB_CNT = rg s .mem n.val Reg.MEM.SCRUB_CNT + 1 ∧
          SMap.get (fun _ => 0) u.scrubAt n.val = s.lap t ∧ OnlyPages { s with scrubAt := u.scrubAt, now := max s.now t } u ∧
          OtherPages s u (pk .mem n.val) ∧ OtherRegs s u .mem n.val [Reg.MEM.SCRUB_CNT] ∧
          (u.page (pk .mem n.val)).intRaw = (s.page (pk .mem n.val)).intRaw)) ∧
      (s.lap t < SMap.get (fun _ => 0) s.scrubAt n.val + perS * 3600 * rf s .mem n.val Reg.MEM.CFG 16 16 →
        exec (.scrubTimer n t ecc) s = .next (settle (s.at t)))) ∧
  (∀ (s : State) (n : Fin 2) (a : Nat), powered s .mem n.val = true → (s.page (pk .mem n.val)).busy = true → inDram a 1 = true →
      memCtl a = n.val → regionOf a = .dram →
      Gives (.scrubPassEnd n [(false, a)]) s (fun t => rg t .mem n.val Reg.MEM.SCRUB_CNT = rg s .mem n.val Reg.MEM.SCRUB_CNT + 1 ∧
        rg t .mem n.val Reg.MEM.CE_CNT = satInc (rg s .mem n.val Reg.MEM.CE_CNT) ∧ rg64 t .mem n.val Reg.MEM.CE_ADDR_LO = a ∧
        bit (t.page (pk .mem n.val)).intRaw 0 = true ∧ (t.page (pk .mem n.val)).busy = false ∧ OnlyPages s t ∧ OtherPages s t (pk .mem n.val) ∧
        OtherRegs s t .mem n.val [Reg.MEM.SCRUB_CNT, Reg.MEM.CE_CNT, Reg.MEM.CE_ADDR_LO, Reg.MEM.CE_ADDR_HI]))

/-- A page whose domain is off (R37): it reads PGID, and 0 at every other offset, PGSTAT among them, where STATE is OFF; a write of any
register, a command or a commit changes nothing at all, whichever master makes it. -/
def Obligations.unpowered_pages : Prop :=
  PgState.num .off = 0 ∧
  (∀ (s : State) (pg : PageId), pg.present = true → powered s pg.ty pg.inst = false → stOf s pg.ty pg.inst = .off ∧
      ∀ m off, pageRead s m pg off = (s, if off = 0 then pgid pg.ty pg.inst else 0)) ∧
  (∀ (s : State) (pg : PageId), pg.present = true → powered s pg.ty pg.inst = false → LinesFollow s →
      (∀ off, exec (.readClearRegister pg off) s =
        .next { s with resp := ⟨if wordOff off = 0 then pgid pg.ty pg.inst else 0, 0, .ok⟩ }) ∧
      (∀ m off v, exec (.registerWrite m pg off v) s = .next s) ∧
      (∀ crc, exec (.pgcommitWrite pg crc) s = .next s) ∧
      (∀ m chk, exec (.cmdStart pg m chk) s = .next s ∧ exec (.cmdStop pg m chk) s = .next s))

/-- The complement check (R5): a word written to PGCMD whose bits [31:16] are not the complement of bits [15:0] executes nothing and sets
PGERR to CMD_CHECK, whatever the page and its state; a word with the complement is never refused so. -/
def Obligations.complement_check : Prop :=
  (∀ (s : State) (pg : PageId) (m : Master) (w : Word), answers s pg = true → fld w 16 16 ≠ 0xFFFF - fld w 0 16 →
      Gives (.registerWrite m pg 0x010 w) s (fun t => (t.page pg.key).err = errWord .cmdCheck 0x010 2 ∧
        bit (t.page pg.key).intRaw 31 = true ∧ (t.page pg.key).lastCmd = (s.page pg.key).lastCmd ∧
        (t.page pg.key).cmd = (s.page pg.key).cmd ∧ (t.page pg.key).commit = (s.page pg.key).commit ∧
        (t.page pg.key).staged = (s.page pg.key).staged ∧ (t.page pg.key).prog = (s.page pg.key).prog ∧
        stOf t pg.ty pg.inst = stOf s pg.ty pg.inst ∧ OtherRegs s t pg.ty pg.inst [] ∧ OtherPages s t pg.key ∧
        t.sigs = s.sigs ∧ t.slots = s.slots ∧ SameMem s t)) ∧
  (∀ (s : State) (pg : PageId) (m : Master) (w : Word), fld w 16 16 = 0xFFFF - fld w 0 16 →
      (ruleOf s pg.ty pg.inst (fld w 0 16) m).all (fun r => r.err != some .cmdCheck) = true →
      cmdRefusal s pg.ty pg.inst m w ≠ some .cmdCheck)

/-- FREEZE and commits (R51): while FREEZE=1 an accepted commit waits: its page's boundary leaves it accepted and every register as it
is; with FREEZE=0 the next boundary makes every staged value the active one. -/
def Obligations.frozen_commits : Prop :=
  (∀ (s : State) (pg : PageId), answers s pg = true → pg.ty ≠ .le → (s.page pg.key).commit = .accepted → (s.page pg.key).freeze = true →
      Gives (.commitBoundary pg) s (fun t => t.page pg.key = s.page pg.key ∧ OnlyPages s t ∧ OtherPages s t pg.key)) ∧
  (∀ (s : State) (n : Nat), answers s ⟨.le, n⟩ = true → (s.page (pk .le n)).commit = .accepted → (s.page (pk .le n)).freeze = true →
      Gives (.commitBoundary ⟨.le, n⟩) s (fun t => (t.page (pk .le n)).commit = .accepted ∧ (t.page (pk .le n)).staged = (s.page (pk .le n)).staged)) ∧
  (∀ (s : State) (ty : PgTy) (n : Nat), ty ∈ [PgTy.enc, .ssn, .step, .fch, .fcg, .pcv, .psp, .eth, .mem, .dio] → answers s ⟨ty, n⟩ = true →
      (s.page (pk ty n)).commit = .accepted → (s.page (pk ty n)).freeze = false → StagedOnce s →
      Gives (.commitBoundary ⟨ty, n⟩) s (fun t => (∀ o, rg t ty n o = staged s ty n o) ∧ (t.page (pk ty n)).commit = .none ∧
        (t.page (pk ty n)).staged = [] ∧ OnlyPages { s with fcgs := t.fcgs } t ∧ (ty ≠ .fcg → t.fcgs = s.fcgs) ∧ OtherPages s t (pk ty n)))

/-- Encoder events (R68 to R70, R73, R74, R83). Levels that have not held for FILT change nothing, nor does an index while Z is high or in Hall mode.
In RUN an accepted edge that Table 3-1 counts changes COUNT by one and stamps it; outside RUN only the levels follow; A and B changing together in quadrature are an illegal transition that leaves COUNT. An accepted index latches the position and
time of its edge. STANDSTILL shows STILL. No other register of the channel, no signal-table entry and no byte of memory changes. The position that
an index latches rests on the observer's free values. -/
def Obligations.encoder_events : Prop :=
  (∀ (s : State) (n : Fin 64) (t te : Nat) (a b z back : Bool), stOf s .enc n.val = .run → EncCounts s n.val a b z back →
      encAccepts s n.val t te a b z = true → (z = true → encLevel s n.val 2 = true ∨ encHallMode s n.val = true) →
      (s.page (pk .enc n.val)).busy = false →
      Gives (.encEdgeAccept n t te a b z) s (fun u =>
        (encOf u n.val).cnt = (encOf s n.val).cnt + (if back then -1 else 1) ∧ rg u .enc n.val Reg.ENC.COUNT = ofI (encOf u n.val).cnt ∧
        rg u .enc n.val Reg.ENC.EDGE_TS_LO = tsLo (devTime te) ∧ rg u .enc n.val Reg.ENC.EDGE_TS_HI = tsHi (devTime te) ∧
        rf u .enc n.val Reg.ENC.STAT 7 3 = b2n a + 2 * b2n b + 4 * b2n z ∧ (∀ i, i ≠ n.val → encOf u i = encOf s i) ∧
        OnlyPublished { s with encs := u.encs, now := max s.now t } u [pk .enc n.val] ∧
        OtherRegs s u .enc n.val ([Reg.ENC.COUNT, Reg.ENC.EDGE_TS_LO, Reg.ENC.EDGE_TS_HI, Reg.ENC.STAT] ++ encShownRegs))) ∧
  (∀ (s : State) (n : Fin 64) (t te : Nat) (a b z : Bool), inSt s .enc n.val [.idle, .fault] = true →
      encAccepts s n.val t te a b z = true → (z = true → encLevel s n.val 2 = true ∨ encHallMode s n.val = true) →
      Gives (.encEdgeAccept n t te a b z) s (fun u => rf u .enc n.val Reg.ENC.STAT 7 3 = b2n a + 2 * b2n b + 4 * b2n z ∧
        OnlyPages { s with now := max s.now t } u ∧ OtherPages s u (pk .enc n.val) ∧ OtherRegs s u .enc n.val [Reg.ENC.STAT])) ∧
  (∀ (s : State) (n : Fin 64) (t te : Nat) (a b z : Bool), stOf s .enc n.val = .run → rf s .enc n.val Reg.ENC.CFG 0 3 = 0 →
      a ≠ encLevel s n.val 0 → b ≠ encLevel s n.val 1 → encAccepts s n.val t te a b z = true →
      Gives (.encEdgeAccept n t te a b z) s (fun u =>
        rg u .enc n.val Reg.ENC.EDGE_ERR_CNT = satInc (rg s .enc n.val Reg.ENC.EDGE_ERR_CNT) ∧ rb u .enc n.val Reg.ENC.STAT 6 = true ∧
        bit (u.page (pk .enc n.val)).intRaw 3 = true ∧ rg u .enc n.val Reg.ENC.COUNT = rg s .enc n.val Reg.ENC.COUNT ∧
        (rb s .enc n.val Reg.ENC.CFG 7 = true → stOf u .enc n.val = .fault) ∧ (rb s .enc n.val Reg.ENC.CFG 7 = false → stOf u .enc n.val = .run) ∧
        u.sigs = s.sigs ∧ SameMem s u)) ∧
  (∀ (s : State) (n : Fin 64) (t te : Nat) (a b z : Bool), encAccepts s n.val t te a b (z && (encLevel s n.val 2 || encHallMode s n.val)) = false →
      exec (.encEdgeAccept n t te a b z) s = .next (settle (s.at t))) ∧
  (∀ (s : State) (n : Fin 64) (t te : Nat), encLevel s n.val 2 = true ∨ encHallMode s n.val = true ∨ encHeld s n.val t te 8 = false →
      exec (.encIndex n t te) s = .next (settle (s.at t))) ∧
  (∀ (s : State) (n : Fin 64) (t te : Nat), stOf s .enc n.val = .run → rf s .enc n.val Reg.ENC.CFG 0 3 ≠ 3 → encLevel s n.val 2 = false →
      encHeld s n.val t te 8 = true →
      (rb s .enc n.val Reg.ENC.INDEX 6 = true → rb s .enc n.val Reg.ENC.INDEX 5 = encLevel s n.val 0 ∧
        rb s .enc n.val Reg.ENC.INDEX 4 = encLevel s n.val 1) →
      Gives (.encIndex n t te) s (fun u =>
        rg u .enc n.val Reg.ENC.IDX_POS_LO = lo32 (encPos s n.val te) ∧ rg u .enc n.val Reg.ENC.IDX_POS_HI = hi32 (encPos s n.val te) ∧
        rg u .enc n.val Reg.ENC.IDX_TS_LO = tsLo (devTime te) ∧ rg u .enc n.val Reg.ENC.IDX_TS_HI = tsHi (devTime te) ∧
        rb u .enc n.val Reg.ENC.STAT 4 = true ∧ bit (u.page (pk .enc n.val)).intRaw 0 = true ∧ u.sigs = s.sigs ∧ SameMem s u ∧
        (rf s .enc n.val Reg.ENC.INDEX 0 2 = 0 → rg s .enc n.val Reg.ENC.LINES = 0 → (s.page (pk .enc n.val)).busy = false →
          OnlyPages { s with encs := u.encs, now := max s.now t } u ∧ OtherPages s u (pk .enc n.val) ∧
          OtherRegs s u .enc n.val [Reg.ENC.IDX_POS_LO, Reg.ENC.IDX_POS_HI, Reg.ENC.IDX_TS_LO, Reg.ENC.IDX_TS_HI, Reg.ENC.STAT]) ∧
        (rf s .enc n.val Reg.ENC.INDEX 0 2 = 1 → bit (u.page (pk .enc n.val)).intRaw 1 = true ∧ rb u .enc n.val Reg.ENC.STAT 3 = false))) ∧
  (∀ (s : State) (n : Fin 64) (t : Nat), stOf s .enc n.val = .run → rb s .enc n.val Reg.ENC.STAT 0 = false →
      (encOf s n.val).tEdge + 8000 * (rg s .enc n.val Reg.ENC.STANDSTILL_T).toNat ≤ s.lap t →
      Gives (.standstill n t) s (fun u => rb u .enc n.val Reg.ENC.STAT 0 = true ∧ bit (u.page (pk .enc n.val)).intRaw 4 = true ∧
        rg u .enc n.val Reg.ENC.SPEED_LO = 0 ∧ rg u .enc n.val Reg.ENC.SPEED_HI = 0 ∧ rg u .enc n.val Reg.ENC.ACCEL_LO = 0 ∧
        rg u .enc n.val Reg.ENC.ACCEL_HI = 0 ∧ OnlyPages { s with encs := u.encs, now := max s.now t } u ∧
        OtherPages s u (pk .enc n.val) ∧ OtherRegs s u .enc n.val (Reg.ENC.STAT :: encShownRegs)))

/-- Encoder commands (R74, R75, R77, R88). SET_POS makes the position equal PRESET, at once in IDLE and at the boundary that comes next in RUN,
and sets POS_SET, unless an index reset falls in the same cycle; ARM_INDEX, which acts at once, sets ARMED; LEARN_LINES starts in PHASE 1. -/
def Obligations.encoder_commands : Prop :=
  (∀ (s : State) (n : Fin 64) (chk : BitVec 16), ActsNow s .enc n.val 0x10 .ap0 chk → (encOf s n.val).rstCyc ≠ some (s.now / 10) →
      Gives (.setPos n chk) s (fun u => rg u .enc n.val Reg.ENC.POS_LO = rg s .enc n.val Reg.ENC.PRESET_LO ∧
        rg u .enc n.val Reg.ENC.POS_HI = rg s .enc n.val Reg.ENC.PRESET_HI ∧ bit (u.page (pk .enc n.val)).intRaw 8 = true ∧
        CmdDone u (pk .enc n.val) (cmdWord chk 0x10) ∧ stOf u .enc n.val = stOf s .enc n.val ∧ u.sigs = s.sigs ∧ SameMem s u ∧
        OtherRegs s u .enc n.val ([Reg.ENC.COUNT, Reg.ENC.SHIFT_LO, Reg.ENC.SHIFT_HI] ++ encShownRegs))) ∧
  (∀ (s : State) (n : Fin 64) (chk : BitVec 16), stOf s .enc n.val = .run → WaitsFree s .enc n.val 0x10 .ap0 chk →
      (encOf s n.val).rstCyc ≠ some (s.now / 10) →
      GivesLater (.setPos n chk) s .enc n.val 0x10 .ap0 chk (fun u => rg u .enc n.val Reg.ENC.POS_LO = rg s .enc n.val Reg.ENC.PRESET_LO ∧
        rg u .enc n.val Reg.ENC.POS_HI = rg s .enc n.val Reg.ENC.PRESET_HI ∧ bit (u.page (pk .enc n.val)).intRaw 8 = true ∧
        CmdDone u (pk .enc n.val) (cmdWord chk 0x10) ∧ stOf u .enc n.val = .run ∧ u.sigs = s.sigs ∧ SameMem s u ∧
        OtherRegs s u .enc n.val ([Reg.ENC.COUNT, Reg.ENC.SHIFT_LO, Reg.ENC.SHIFT_HI] ++ encShownRegs))) ∧
  (∀ (s : State) (n : Fin 64) (chk : BitVec 16), ActsNow s .enc n.val 0x11 .ap0 chk →
      Gives (.armIndex n chk) s (fun u => rb u .enc n.val Reg.ENC.STAT 3 = true ∧ CmdDone u (pk .enc n.val) (cmdWord chk 0x11) ∧
        OnlyPages s u ∧ OtherPages s u (pk .enc n.val) ∧ OtherRegs s u .enc n.val [Reg.ENC.STAT])) ∧
  (∀ (s : State) (n : Fin 64) (chk : BitVec 16), ActsNow s .enc n.val 0x12 .ap0 chk →
      Gives (.learnLines n chk) s (fun u => (u.page (pk .enc n.val)).busy = true ∧ (u.page (pk .enc n.val)).prog = progWord 1 1 0 ∧
        (encOf u n.val).learnN = 0 ∧ CmdDone u (pk .enc n.val) (cmdWord chk 0x12) ∧ OnlyPages { s with encs := u.encs } u ∧
        OtherPages s u (pk .enc n.val) ∧ OtherRegs s u .enc n.val []))

/-- Serial sensor frames (R92 to R97). The trigger that CFG selects starts a frame, with the next bit of CDM_TX in BiSS, or is
counted in SKIP_CNT while one runs or an SSI wait lasts; without it nothing starts; a good frame shows its bits, VALID and no
BAD and sets FRAME; a frame without acknowledge, or whose start bit or line release is missing, counts in BAD_CNT and sets NO_ACK, and where its
start bit came DELAY_MEAS shows when; a write of CDM_TX
restarts its bits; a read of CDS_RX answers it and restarts the count. -/
def Obligations.serial_frames : Prop :=
  (∀ (s : State) (m : Fin 16) (t : Nat), ssnTriggered s m.val t = false → exec (.ssnFrameStart m t) s = .next (settle (s.at t))) ∧
  (∀ (s : State) (m : Fin 16) (t : Nat), stOf s .ssn m.val = .run → ssnTriggered s m.val t = true →
      Gives (.ssnFrameStart m t) s (fun u =>
        (rb s .ssn m.val Reg.SSN.STAT 4 = false → (ssnOf s m.val).free ≤ s.lap t → rb u .ssn m.val Reg.SSN.STAT 4 = true ∧
          (ssnOf u m.val).start = t ∧ (ssnBiss s m.val = true → ssnCdmBit u m.val = ssnCdmNext s m.val) ∧ OtherRegs s u .ssn m.val [Reg.SSN.STAT]) ∧
        (rb s .ssn m.val Reg.SSN.STAT 4 = true ∨ s.lap t < (ssnOf s m.val).free →
          rg u .ssn m.val Reg.SSN.SKIP_CNT = satInc (rg s .ssn m.val Reg.SSN.SKIP_CNT) ∧ bit (u.page (pk .ssn m.val)).intRaw 6 = true ∧
          (ssnOf u m.val).start = (ssnOf s m.val).start ∧ OtherRegs s u .ssn m.val [Reg.SSN.SKIP_CNT]) ∧
        OnlyPages { s with ssns := u.ssns, now := max s.now t } u ∧ OtherPages s u (pk .ssn m.val))) ∧
  (∀ (s : State) (m : Fin 16) (t : Nat) (sl : Bool) (f : SsnFrame), stOf s .ssn m.val = .run → rb s .ssn m.val Reg.SSN.STAT 4 = true →
      SsnGood s m.val sl f → (s.page (pk .ssn m.val)).cmd = none → (s.page (pk .ssn m.val)).commit = .none →
      (s.page (pk .ssn m.val)).freeze = false → (s.page (pk .ssn m.val)).frozen = false →
      Gives (.ssnFrameEnd m t sl f) s (fun u =>
        rg u .ssn m.val Reg.SSN.RAW_LO = f.bits.setWidth 32 ∧ rg u .ssn m.val Reg.SSN.RAW_HI = (f.bits >>> 32).setWidth 32 ∧
        rb u .ssn m.val Reg.SSN.STAT 0 = true ∧ rb u .ssn m.val Reg.SSN.STAT 1 = false ∧ rb u .ssn m.val Reg.SSN.STAT 4 = false ∧
        bit (u.page (pk .ssn m.val)).intRaw 0 = true ∧ (ssnOf u m.val).bad = 0 ∧
        OnlyPublished { s with ssns := u.ssns, now := max s.now t } u [pk .ssn m.val] ∧
        OtherRegs s u .ssn m.val ([Reg.SSN.RAW_LO, Reg.SSN.RAW_HI, Reg.SSN.LATCH_TS_LO, Reg.SSN.LATCH_TS_HI, Reg.SSN.STAT,
          Reg.SSN.DELAY_MEAS, Reg.SSN.CDS_RX] ++ encShownRegs))) ∧
  (∀ (s : State) (m : Fin 16) (t : Nat) (f : SsnFrame), stOf s .ssn m.val = .run → rb s .ssn m.val Reg.SSN.STAT 4 = true →
      ssnBiss s m.val = false → (ssnOf s m.val).bad + 1 < rf s .ssn m.val Reg.SSN.LIMITS 0 8 →
      (s.page (pk .ssn m.val)).cmd = none → (s.page (pk .ssn m.val)).commit = .none → (s.page (pk .ssn m.val)).freeze = false →
      (s.page (pk .ssn m.val)).frozen = false →
      Gives (.ssnFrameEnd m t false f) s (fun u => rg u .ssn m.val Reg.SSN.BAD_CNT = satInc (rg s .ssn m.val Reg.SSN.BAD_CNT) ∧
        rb u .ssn m.val Reg.SSN.STAT 1 = true ∧ rb u .ssn m.val Reg.SSN.STAT 4 = false ∧ bit (u.page (pk .ssn m.val)).intRaw 2 = true ∧
        (ssnOf u m.val).bad = (ssnOf s m.val).bad + 1 ∧ OnlyPages { s with ssns := u.ssns, now := max s.now t } u ∧
        OtherPages s u (pk .ssn m.val) ∧ OtherRegs s u .ssn m.val [Reg.SSN.BAD_CNT, Reg.SSN.STAT])) ∧
  (∀ (s : State) (m : Fin 16) (t : Nat) (f : Option SsnFrame), stOf s .ssn m.val = .run → rb s .ssn m.val Reg.SSN.STAT 4 = true →
      ssnBiss s m.val = true → (ssnOf s m.val).start + ssnTmo s m.val ≤ t → (ssnOf s m.val).bad + 1 < rf s .ssn m.val Reg.SSN.LIMITS 0 8 →
      (s.page (pk .ssn m.val)).cmd = none → (s.page (pk .ssn m.val)).commit = .none → (s.page (pk .ssn m.val)).freeze = false →
      (s.page (pk .ssn m.val)).frozen = false →
      Gives (.ssnTimeout m t f) s (fun u => rg u .ssn m.val Reg.SSN.BAD_CNT = satInc (rg s .ssn m.val Reg.SSN.BAD_CNT) ∧
        rb u .ssn m.val Reg.SSN.STAT 1 = true ∧ rb u .ssn m.val Reg.SSN.STAT 4 = false ∧ bit (u.page (pk .ssn m.val)).intRaw 2 = true ∧
        (f = none → rg u .ssn m.val Reg.SSN.DELAY_MEAS = rg s .ssn m.val Reg.SSN.DELAY_MEAS ∧
          rg u .ssn m.val Reg.SSN.CDS_RX = rg s .ssn m.val Reg.SSN.CDS_RX) ∧
        (∀ w, f = some w → ssnInTime s m.val w = true → rg u .ssn m.val Reg.SSN.DELAY_MEAS = ofN w.delay) ∧
        OnlyPages { s with ssns := u.ssns, now := max s.now t } u ∧ OtherPages s u (pk .ssn m.val) ∧
        OtherRegs s u .ssn m.val [Reg.SSN.BAD_CNT, Reg.SSN.STAT, Reg.SSN.DELAY_MEAS, Reg.SSN.CDS_RX])) ∧
  (∀ (s : State) (m : Fin 16) (chk : BitVec 16), ActsNow s .ssn m.val 0x10 .ap0 chk → rb s .ssn m.val Reg.SSN.STAT 4 = false →
      (ssnOf s m.val).free ≤ s.lap s.now → Gives (.ssnTrigger m chk) s (fun u => rb u .ssn m.val Reg.SSN.STAT 4 = true ∧ (ssnOf u m.val).start = s.now ∧
        CmdDone u (pk .ssn m.val) (cmdWord chk 0x10) ∧ OnlyPages { s with ssns := u.ssns } u ∧ OtherPages s u (pk .ssn m.val) ∧
        OtherRegs s u .ssn m.val [Reg.SSN.STAT])) ∧
  (∀ (s : State) (m : Fin 16) (v : Word), answers s ⟨.ssn, m.val⟩ = true → (s.page (pk .ssn m.val)).key ≠ .window →
      (s.page (pk .ssn m.val)).locked = false →
      Gives (.cdmTxWrite m v) s (fun u => rg u .ssn m.val Reg.SSN.CDM_TX = v ∧ (ssnOf u m.val).cdm = 0 ∧
        OnlyPages { s with ssns := u.ssns } u ∧ OtherPages s u (pk .ssn m.val) ∧ OtherRegs s u .ssn m.val [Reg.SSN.CDM_TX])) ∧
  (∀ (s : State) (m : Fin 16), answers s ⟨.ssn, m.val⟩ = true →
      Gives (.cdsRxRead m) s (fun u => u.resp = ⟨rg s .ssn m.val Reg.SSN.CDS_RX, 0, .ok⟩ ∧ (ssnOf u m.val).cds = 0 ∧
        SameMem s u ∧ OtherPages s u (pk .ssn m.val)))

/-- Motion commands of an axis (R105 to R125, R127, R135 to R139, Table 4-5). Each waits for the base tick; the boundary that comes next performs it: a
move, a resumed move and a velocity take their motion and target, engagements take theirs with IN_SYNC clear (those that engage at once also
SYNC_OVER and MASTER_LOST), a
disengagement brings the set-point to rest, HOME starts its search. The set-point itself moves at the ticks that follow. -/
def Obligations.axis_commands : Prop :=
  (∀ (s : State) (n : Fin 128) (chk : BitVec 16) (c : Instr) (code : Nat) (g : Int),
      (c, code, g) ∈ [(Instr.moveAbs n chk, 0x10, moveTarget s n.val false), (.moveRel n chk, 0x11, moveTarget s n.val true),
        (.axisResume n chk, 0x1B, ax s n.val Reg.AXIS.TARGET_ACT_LO)] →
      WaitsFree s .axis n.val code .ap0 chk →
      GivesLater c s .axis n.val code .ap0 chk (fun u => motion u n.val = 1 ∧
        rg u .axis n.val Reg.AXIS.TARGET_ACT_LO = lo32 g ∧ rg u .axis n.val Reg.AXIS.TARGET_ACT_HI = hi32 g ∧
        rg u .axis n.val Reg.AXIS.REMAIN_LO = lo32 (g - ax s n.val Reg.AXIS.SETP_LO) ∧
        rg u .axis n.val Reg.AXIS.REMAIN_HI = hi32 (g - ax s n.val Reg.AXIS.SETP_LO) ∧ axSt u n.val 5 = false ∧
        CmdDone u (pk .axis n.val) (cmdWord chk code) ∧ OnlyPages { s with axes := u.axes } u ∧
        OtherRegs s u .axis n.val [Reg.AXIS.TARGET_ACT_LO, Reg.AXIS.TARGET_ACT_HI, Reg.AXIS.REMAIN_LO, Reg.AXIS.REMAIN_HI, Reg.AXIS.STAT])) ∧
  (∀ (s : State) (n : Fin 128) (chk : BitVec 16) (c : Instr) (code mo : Nat),
      (c, code, mo) ∈ [(Instr.axisVelocity n chk, 0x12, 2), (.gearIn n chk, 0x13, 3), (.camIn n chk, 0x15, 4), (.pvtStart n chk, 0x17, 5),
        (.followOn n chk, 0x18, 6)] →
      WaitsFree s .axis n.val code .ap0 chk →
      GivesLater c s .axis n.val code .ap0 chk (fun u => motion u n.val = mo ∧ axSt u n.val 11 = false ∧ axSt u n.val 5 = false ∧
        rg u .axis n.val Reg.AXIS.REMAIN_LO = 0 ∧ rg u .axis n.val Reg.AXIS.REMAIN_HI = 0 ∧
        (if mo = 3 ∨ mo = 5 then axSt u n.val 12 = false ∧ axSt u n.val 15 = false
          else axSt u n.val 12 = axSt s n.val 12 ∧ axSt u n.val 15 = axSt s n.val 15) ∧ (axSt u n.val 16 = true ↔ mo = 4) ∧
        (mo = 3 → (axisOf u n.val).mBase = masterNow s n.val ∧ (axisOf u n.val).pBase = ax s n.val Reg.AXIS.SETP_LO) ∧
        (mo = 4 ∨ mo = 5 → (axisOf u n.val).tbl = rf s .axis n.val Reg.AXIS.SYNC_CFG 4 4) ∧
        CmdDone u (pk .axis n.val) (cmdWord chk code) ∧ OnlyPages { s with axes := u.axes } u ∧
        OtherRegs s u .axis n.val ([Reg.AXIS.REMAIN_LO, Reg.AXIS.REMAIN_HI, Reg.AXIS.STAT] ++
          if mo = 5 then [Reg.AXIS.SYNC_OFS_LO, Reg.AXIS.SYNC_OFS_HI] else []))) ∧
  (∀ (s : State) (n : Fin 128) (chk : BitVec 16) (c : Instr) (code : Nat),
      (c, code) ∈ [(Instr.gearOut n chk, 0x14), (.camOut n chk, 0x16), (.followOff n chk, 0x19)] →
      (code = 0x16 → prkCyclic s (n.val / 32) (axisOf s n.val).tbl = false ∨ axSt s n.val 16 = true) →
      WaitsFree s .axis n.val code .ap0 chk →
      GivesLater c s .axis n.val code .ap0 chk (fun u => motion u n.val = 8 ∧ axSt u n.val 11 = false ∧ axSt u n.val 16 = false ∧
        CmdDone u (pk .axis n.val) (cmdWord chk code) ∧ OnlyPages { s with axes := u.axes } u ∧
        OtherRegs s u .axis n.val [Reg.AXIS.STAT])) ∧
  (∀ (s : State) (n : Fin 128) (chk : BitVec 16), prkCyclic s (n.val / 32) (axisOf s n.val).tbl = true → axSt s n.val 16 = false →
      WaitsFree s .axis n.val 0x16 .ap0 chk →
      GivesLater (.camOut n chk) s .axis n.val 0x16 .ap0 chk (fun u => axisOf u n.val = { axisOf s n.val with camOut := true } ∧
        motion u n.val = 4 ∧ CmdDone u (pk .axis n.val) (cmdWord chk 0x16) ∧ OnlyPages { s with axes := u.axes } u ∧
        OtherRegs s u .axis n.val [])) ∧
  (∀ (s : State) (n : Fin 128) (chk : BitVec 16), WaitsFree s .axis n.val 0x1A .ap0 chk →
      GivesLater (.axisHome n chk) s .axis n.val 0x1A .ap0 chk (fun u => motion u n.val = 7 ∧ axSt u n.val 14 = false ∧
        (u.page (pk .axis n.val)).busy = true ∧ (u.page (pk .axis n.val)).prog = progWord 2 (if homeMethod s n.val = 0 then 6 else 1) 0 ∧
        CmdDone u (pk .axis n.val) (cmdWord chk 0x1A) ∧ OnlyPages { s with axes := u.axes } u ∧
        OtherRegs s u .axis n.val [Reg.AXIS.REMAIN_LO, Reg.AXIS.REMAIN_HI, Reg.AXIS.STAT])) ∧
  (∀ (s : State) (n : Fin 128) (chk : BitVec 16), WaitsFree s .axis n.val 0x1C .ap0 chk →
      GivesLater (.quickstop n chk) s .axis n.val 0x1C .ap0 chk (fun u => stOf u .axis n.val = .safe ∧
        motion u n.val = (if motion s n.val = 0 then 0 else 8) ∧ (motion s n.val ≠ 0 → (axisOf u n.val).quick = true) ∧
        u.sigs = s.sigs ∧ SameMem s u ∧ OtherRegs s u .axis n.val [Reg.AXIS.STAT]))

/-- Limits, the home input and pricking tables (R116, R131 to R135, R142). A hard limit whose input has held its active level for DEBOUNCE.LIM latches the actual position, sets its flag and
LIMIT and brings motion into it to rest at QDEC; while the input has held the inactive level the flag clears once the axis is LIM_CLEAR away;
an input that has held neither level changes nothing. A home edge moves the search on.
CHECK scans a table and ends with VALID, or with BAD_POINT and RANGE. A point of a table in use is kept, any other write lands and clears VALID. -/
def Obligations.limits_and_prickings : Prop :=
  (∀ (s : State) (n : Fin 128) (t : Nat) (neg : Bool) (dt : Nat), rb s .axis n.val Reg.AXIS.CFG 8 = true →
      axSt s n.val (if neg then 8 else 7) = false → stOf s .axis n.val ≠ .off → motion s n.val ≠ 7 → limHeld (s.at t) n.val neg true = true →
      sinceEdge (s.at t) (rf s .axis n.val Reg.AXIS.LIMCFG (if neg then 16 else 0) 16) dt = true →
      Gives (.limitAccept n t neg dt) s (fun u => axSt u n.val (if neg then 8 else 7) = true ∧ bit (u.page (pk .axis n.val)).intRaw 2 = true ∧
        rg u .axis n.val Reg.AXIS.LATCH_LO = rg s .axis n.val Reg.AXIS.ACT_LO ∧
        rg u .axis n.val Reg.AXIS.LATCH_HI = rg s .axis n.val Reg.AXIS.ACT_HI ∧
        (stOf s .axis n.val = .run → (if neg then ax s n.val Reg.AXIS.SETV_LO < 0 else 0 < ax s n.val Reg.AXIS.SETV_LO) →
          motion u n.val = 8 ∧ (axisOf u n.val).quick = true) ∧
        OtherRegs s u .axis n.val [Reg.AXIS.LATCH_LO, Reg.AXIS.LATCH_HI, Reg.AXIS.STAT] ∧ u.sigs = s.sigs ∧ SameMem s u)) ∧
  (∀ (s : State) (n : Fin 128) (t : Nat) (neg : Bool), limHeld (s.at t) n.val neg true = false → limHeld (s.at t) n.val neg false = false →
      stOf s .axis n.val ≠ .off → ∀ dt, exec (.limitAccept n t neg dt) s = .next (settle (s.at t)) ∧
        exec (.limitRelease n t neg) s = .next (settle (s.at t))) ∧
  (∀ (s : State) (n : Fin 128) (t : Nat) (neg : Bool), stOf s .axis n.val ≠ .off → axSt s n.val (if neg then 8 else 7) = true →
      limHeld (s.at t) n.val neg false = true → motion s n.val ≠ 7 →
      Gives (.limitRelease n t neg) s (fun u => (axSt u n.val (if neg then 8 else 7) = false ↔
          (rg s .axis n.val Reg.AXIS.LIM_CLEAR).toNat * 65536 ≤ (ax s n.val Reg.AXIS.ACT_LO - ax s n.val Reg.AXIS.LATCH_LO).natAbs) ∧
        OnlyPages { s with axes := u.axes, now := max s.now t } u ∧ OtherPages s u (pk .axis n.val) ∧ OtherRegs s u .axis n.val [Reg.AXIS.STAT])) ∧
  (∀ (s : State) (n : Fin 128) (act : Bool) (t dt ph : Nat), stOf s .axis n.val ≠ .off → motion s n.val = 7 →
      sigHeld (s.at t) (rf s .axis n.val Reg.AXIS.HOMECFG 16 16) (act != rb s .axis n.val Reg.AXIS.CFG 10)
        (rf s .axis n.val Reg.AXIS.DEBOUNCE 16 16) = true →
      sinceEdge (s.at t) (rf s .axis n.val Reg.AXIS.HOMECFG 16 16) dt = true →
      (act = true → (axisOf s n.val).hAt ≤ (slotOf s (rf s .axis n.val Reg.AXIS.HOMECFG 16 16)).chg + 8000 * rf s .axis n.val Reg.AXIS.DEBOUNCE 16 16) →
      (homeMethod s n.val, act, homePhase s n.val, ph) ∈ [(2, true, 1, 3), (2, true, 2, 3), (2, true, 4, 6), (3, true, 1, 3), (3, true, 2, 3),
        (3, true, 4, 5), (2, false, 3, 3), (3, false, 3, 3)] →
      Gives (.homeEdgeAccept n t act dt) s (fun u => homePhase u n.val = ph ∧ (act = false → (axisOf u n.val).hBack = true) ∧
        OnlyPages { s with axes := u.axes, now := max s.now t } u ∧ OtherPages s u (pk .axis n.val) ∧ OtherRegs s u .axis n.val [])) ∧
  (∀ (s : State) (n : Fin 4) (chk : BitVec 16), ActsNow s .prk n.val 0x10 .ap0 chk →
      Gives (.prkCheck n chk) s (fun u => (u.page (pk .prk n.val)).busy = true ∧ (u.page (pk .prk n.val)).prog = progWord 1 1 0 ∧
        CmdDone u (pk .prk n.val) (cmdWord chk 0x10) ∧ OnlyPages { s with prkSel := u.prkSel } u ∧ OtherPages s u (pk .prk n.val) ∧
        OtherRegs s u .prk n.val [])) ∧
  (∀ (s : State) (n : Fin 4) (k : Nat), powered s .prk n.val = true → (s.page (pk .prk n.val)).busy = true → k < 16 →
      SMap.get (fun _ => 0) s.prkSel n.val = k →
      Gives (.prkCheckEnd n) s (fun u => (u.page (pk .prk n.val)).busy = false ∧ bit (u.page (pk .prk n.val)).intRaw 28 = true ∧
        (prkScan s n.val k = none → prkValid u n.val k = true ∧ (u.page (pk .prk n.val)).prog = progWord 1 15 10000 ∧
          bit (u.page (pk .prk n.val)).intRaw 0 = true ∧ OtherRegs s u .prk n.val [Reg.PRK.VALID]) ∧
        (∀ i c, prkScan s n.val k = some (i, c) → prkValid u n.val k = false ∧ rg u .prk n.val Reg.PRK.BAD_POINT = ofN (i + 65536 * c) ∧
          (u.page (pk .prk n.val)).err = errWord .range 0x010 4 ∧ bit (u.page (pk .prk n.val)).intRaw 1 = true ∧
          OtherRegs s u .prk n.val [Reg.PRK.VALID, Reg.PRK.BAD_POINT]) ∧
        OnlyPages { s with seed := u.seed } u ∧ OtherPages s u (pk .prk n.val))) ∧
  (∀ (s : State) (m : Master) (a : Nat) (v : Word), prkAddr 0 0 ≤ a → a < prkAddr 4 0 → busEnd s m a true = .ok →
      (prkCovers s ((a - 0x60000000) / 0x80000) ((a - 0x60000000) % 0x80000 / 32)).any
        (fun k => (prkInUse s ((a - 0x60000000) / 0x80000)).getLsbD k) = false →
      Gives (.prkPointWrite m a v) s (fun u => mem32 u (a / 4 * 4) = v ∧ (∀ b, ¬(a / 4 * 4 ≤ b ∧ b < a / 4 * 4 + 4) → mem8 u b = mem8 s b) ∧
        (∀ k ∈ prkCovers s ((a - 0x60000000) / 0x80000) ((a - 0x60000000) % 0x80000 / 32),
          prkValid u ((a - 0x60000000) / 0x80000) k = false) ∧
        OtherRegs s u .prk ((a - 0x60000000) / 0x80000) [Reg.PRK.VALID] ∧ OtherPages s u (pk .prk ((a - 0x60000000) / 0x80000)))) ∧
  (∀ (s : State) (m : Master) (a : Nat) (v : Word), prkAddr 0 0 ≤ a → a < prkAddr 4 0 → busEnd s m a true = .ok →
      (prkCovers s ((a - 0x60000000) / 0x80000) ((a - 0x60000000) % 0x80000 / 32)).any
        (fun k => (prkInUse s ((a - 0x60000000) / 0x80000)).getLsbD k) = true →
      Gives (.prkPointWrite m a v) s (fun u =>
        rg u .prk ((a - 0x60000000) / 0x80000) Reg.PRK.REJ_CNT = satInc (rg s .prk ((a - 0x60000000) / 0x80000) Reg.PRK.REJ_CNT) ∧
        rg u .prk ((a - 0x60000000) / 0x80000) Reg.PRK.REJ_POINT = ofN ((a - 0x60000000) % 0x80000 / 32) ∧
        (u.page (pk .prk ((a - 0x60000000) / 0x80000))).err = errWord .conflict Reg.PRK.REJ_POINT 3 ∧ SameMem s u ∧
        OtherRegs s u .prk ((a - 0x60000000) / 0x80000) [Reg.PRK.REJ_CNT, Reg.PRK.REJ_POINT]))

/-- Position compare events (R144 to R155). A fire takes its entry's action at the pin 16 ns later, counts, and removes the entry or advances it; a
pulse's end takes the output inactive until the next one begins; an accepted latch edge queues position, time and level, or sets the overrun flag; a window opens at its
start and, closing without a mark, counts one missed; a queue read answers and removes the oldest entry. FLUSH and LATCH_CLEAR empty the queues. -/
def Obligations.compare_events : Prop :=
  (∀ (s : State) (n : Fin 64) (t : Nat) (e : PcmpEnt) (rest q : List PcmpEnt), stOf s .pcmp n.val = .run →
      (pcmpOf s n.val).q = e :: rest → q = (if e.rep = 0 then rest else e.advance :: rest) → pcmpReached (s.at t) n.val t = true →
      (∀ h, q.head? = some h → pcmpBehind s n.val t (pcmpAim s n.val h) = false) → (pcmpOf s n.val).next = none →
      Gives (.pcmpFire n t) s (fun u => (pcmpOf u n.val).q = (match q with | [] => [] | h :: r => pcmpAim s n.val h :: r) ∧
        rg u .pcmp n.val Reg.PCMP.FIRE_CNT = rg s .pcmp n.val Reg.PCMP.FIRE_CNT + 1 ∧
        rg u .pcmp n.val Reg.PCMP.FIRE_TS_LO = tsLo (devTime (t + 128)) ∧ rg u .pcmp n.val Reg.PCMP.FIRE_TS_HI = tsHi (devTime (t + 128)) ∧
        (e.fireInt = true → bit (u.page (pk .pcmp n.val)).intRaw 0 = true) ∧ (e.rep = 0 → bit (u.page (pk .pcmp n.val)).intRaw 1 = true) ∧
        (e.action = 0 → if (pcmpOf s n.val).pulse.all (fun b => decide (t + 128 < b)) then
            (pcmpOf u n.val).pulse = some (t + 128 + e.width) ∧ rb u .pcmp n.val Reg.PCMP.STAT 0 =
              ((pcmpOf s n.val).pulse.isNone || rb s .pcmp n.val Reg.PCMP.STAT 0)
          else (pcmpOf u n.val).pulse = (pcmpOf s n.val).pulse ∧ (pcmpOf u n.val).next = some (t + 128, t + 128 + e.width)) ∧ (e.action = 1 → rb u .pcmp n.val Reg.PCMP.STAT 0 = true) ∧
        (e.action = 2 → rb u .pcmp n.val Reg.PCMP.STAT 0 = false) ∧
        OnlyPublished { s with pcmps := u.pcmps, now := max s.now t } u [pk .pcmp n.val] ∧
        OtherRegs s u .pcmp n.val ([Reg.PCMP.FIRE_CNT, Reg.PCMP.FIRE_TS_LO, Reg.PCMP.FIRE_TS_HI] ++ pcmpShownRegs))) ∧
  (∀ (s : State) (n : Fin 64) (t e a b : Nat), powered s .pcmp n.val = true → (pcmpOf s n.val).pulse = some e → e ≤ t →
      (pcmpOf s n.val).next = some (a, b) → a ≤ t →
      Gives (.pcmpPulseEnd n t) s (fun u => rb u .pcmp n.val Reg.PCMP.STAT 0 = true ∧
        pcmpOf u n.val = { pcmpOf s n.val with pulse := some b, next := none } ∧
        OnlyPages { s with pcmps := u.pcmps, now := max s.now t } u ∧ OtherPages s u (pk .pcmp n.val) ∧
        OtherRegs s u .pcmp n.val [Reg.PCMP.STAT])) ∧
  (∀ (s : State) (n : Fin 64) (t e : Nat), powered s .pcmp n.val = true → (pcmpOf s n.val).pulse = some e → e ≤ t →
      (pcmpOf s n.val).next = none →
      Gives (.pcmpPulseEnd n t) s (fun u => rb u .pcmp n.val Reg.PCMP.STAT 0 = false ∧ pcmpOf u n.val = { pcmpOf s n.val with pulse := none } ∧
        OnlyPages { s with pcmps := u.pcmps, now := max s.now t } u ∧ OtherPages s u (pk .pcmp n.val) ∧
        OtherRegs s u .pcmp n.val [Reg.PCMP.STAT])) ∧
  (∀ (s : State) (n : Fin 64) (te : Nat) (up : Bool), stOf s .pcmp n.val = .run →
      bit (rg s .pcmp n.val Reg.PCMP.LATCH_CFG) (if up then 0 else 1) = true →
      (rb s .pcmp n.val Reg.PCMP.LATCH_CFG 2 = true → s.trgSeen.getLsbD (rf s .pcmp n.val Reg.PCMP.LATCH_CFG 4 3) = up ∧
        SMap.get (fun _ => 0) s.trgAt (rf s .pcmp n.val Reg.PCMP.LATCH_CFG 4 3) = te) →
      Gives (.pcmpLatchEdge n te up) s (fun u =>
        ((pcmpOf s n.val).lq.length < 8 → bit (u.page (pk .pcmp n.val)).intRaw 6 = true ∧
          (∃ mk, (pcmpOf u n.val).lq = (pcmpOf s n.val).lq ++ [⟨BitVec.ofInt 64 (if pcmpKind s n.val = 1 then
            encPos s (pcmpSrc s n.val) te else 0), devTime te, up, mk⟩]) ∧
          rg u .pcmp n.val Reg.PCMP.LQ_COUNT = ofN ((pcmpOf s n.val).lq.length + 1)) ∧
        (8 ≤ (pcmpOf s n.val).lq.length → rb u .pcmp n.val Reg.PCMP.STAT 5 = true ∧ bit (u.page (pk .pcmp n.val)).intRaw 7 = true ∧
          pcmpOf u n.val = pcmpOf s n.val) ∧
        OnlyPublished { s with pcmps := u.pcmps, now := max s.now (te + 10 * rf s .pcmp n.val Reg.PCMP.LATCH_CFG 8 8) } u [pk .pcmp n.val] ∧
        OtherRegs s u .pcmp n.val ([Reg.PCMP.MARK_POS_LO, Reg.PCMP.MARK_POS_HI, Reg.PCMP.MARK_DEV_LO, Reg.PCMP.MARK_DEV_HI,
          Reg.PCMP.MARK_CNT] ++ pcmpShownRegs))) ∧
  (∀ (s : State) (n : Fin 64) (t : Nat), stOf s .pcmp n.val = .run → rb s .pcmp n.val Reg.PCMP.LATCH_CFG 16 = true → pcmpKind s n.val = 1 →
      encBack s (pcmpSrc s n.val) = false → (rgU64 s .pcmp n.val Reg.PCMP.WIN_PITCH_LO ≠ 0 ∨ (pcmpOf s n.val).winNext = 0) →
      (pcmpOf s n.val).win = none →
      (pcmpWindow s n.val (pcmpOf s n.val).winNext).1 ≤ encPos (s.at t) (pcmpSrc s n.val) t →
      Gives (.markWindowOpen n t) s (fun u => rb u .pcmp n.val Reg.PCMP.STAT 6 = true ∧
        (pcmpOf u n.val).win = some ((pcmpWindow s n.val (pcmpOf s n.val).winNext).1, (pcmpWindow s n.val (pcmpOf s n.val).winNext).2, false) ∧
        (pcmpOf u n.val).winNext = (pcmpOf s n.val).winNext + 1 ∧ OnlyPages { s with pcmps := u.pcmps, now := max s.now t } u ∧
        OtherPages s u (pk .pcmp n.val) ∧ OtherRegs s u .pcmp n.val [Reg.PCMP.STAT])) ∧
  (∀ (s : State) (n : Fin 64) (t : Nat) (w e : Int) (got : Bool), powered s .pcmp n.val = true → (pcmpOf s n.val).win = some (w, e, got) →
      e ≤ encPos (s.at t) (pcmpSrc s n.val) t →
      Gives (.markWindowClose n t) s (fun u => rb u .pcmp n.val Reg.PCMP.STAT 6 = false ∧ pcmpOf u n.val = { pcmpOf s n.val with win := none } ∧
        rg u .pcmp n.val Reg.PCMP.MARK_MISS_CNT = (if got then rg s .pcmp n.val Reg.PCMP.MARK_MISS_CNT else
          satInc (rg s .pcmp n.val Reg.PCMP.MARK_MISS_CNT)) ∧ (got = false → bit (u.page (pk .pcmp n.val)).intRaw 9 = true) ∧
        OnlyPublished { s with pcmps := u.pcmps, now := max s.now t } u [pk .pcmp n.val] ∧
        OtherRegs s u .pcmp n.val [Reg.PCMP.STAT, Reg.PCMP.MARK_MISS_CNT])) ∧
  (∀ (s : State) (n : Fin 64), answers s ⟨.pcmp, n.val⟩ = true →
      Gives (.latchQueueRead n) s (fun u => ((pcmpOf s n.val).lq = [] → u.resp = ⟨0, 0, .ok⟩ ∧ pcmpOf u n.val = pcmpOf s n.val) ∧
        (∀ l q, (pcmpOf s n.val).lq = l :: q → u.resp = ⟨l.pos.setWidth 32, 0, .ok⟩ ∧ pcmpOf u n.val = { pcmpOf s n.val with lq := q } ∧
          rg u .pcmp n.val Reg.PCMP.LQ_COUNT = ofN q.length) ∧
        OtherRegs s u .pcmp n.val pcmpShownRegs ∧ OtherPages s u (pk .pcmp n.val) ∧ SameMem s u)) ∧
  (∀ (s : State) (n : Fin 64) (chk : BitVec 16), ActsNow s .pcmp n.val 0x10 .ap0 chk →
      Gives (.pcmpFlush n chk) s (fun u => pcmpOf u n.val = { pcmpOf s n.val with q := [] } ∧ rg u .pcmp n.val Reg.PCMP.QCOUNT = 0 ∧
        rb u .pcmp n.val Reg.PCMP.STAT 1 = true ∧ CmdDone u (pk .pcmp n.val) (cmdWord chk 0x10) ∧ OnlyPages { s with pcmps := u.pcmps } u ∧
        OtherPages s u (pk .pcmp n.val) ∧ OtherRegs s u .pcmp n.val pcmpShownRegs)) ∧
  (∀ (s : State) (n : Fin 64) (chk : BitVec 16), ActsNow s .pcmp n.val 0x11 .ap0 chk →
      Gives (.latchClear n chk) s (fun u => pcmpOf u n.val = { pcmpOf s n.val with lq := [] } ∧ rg u .pcmp n.val Reg.PCMP.LQ_COUNT = 0 ∧
        rb u .pcmp n.val Reg.PCMP.STAT 5 = false ∧ CmdDone u (pk .pcmp n.val) (cmdWord chk 0x11) ∧ OnlyPages { s with pcmps := u.pcmps } u ∧
        OtherPages s u (pk .pcmp n.val) ∧ OtherRegs s u .pcmp n.val pcmpShownRegs))

/-- Step channels and microstep tables (R160 to R162, R167). An emitted step moves STEPS by one towards the interpolated set-point and shows the steps
still owed; one that the minima hold back stands in LAG; the hold amplitude acts once the axis stands; a write of EDIT_SEL starts the copy of the table it names, unless a staged table waits;
its end puts the table into the staging store. -/
def Obligations.stepper_events : Prop :=
  (∀ (s : State) (n : Fin 64) (t : Nat) (c d : Int), stOf s .step n.val = .run → rf s .step n.val Reg.STEP.CFG 0 2 = 0 →
      c = rg64 s .step n.val Reg.STEP.STEPS_LO → d = stepPlaced s n.val t → c ≠ d → stepFree (s.at t) n.val t (decide (d < c)) = true →
      (rf s .step n.val Reg.STEP.LAG_LIM 0 16 = 0 ∨ (d - (if c < d then c + 1 else c - 1)).natAbs ≤ rf s .step n.val Reg.STEP.LAG_LIM 0 16) →
      Gives (.stepEmit n t) s (fun u => rg u .step n.val Reg.STEP.STEPS_LO = lo32 (if c < d then c + 1 else c - 1) ∧
        rg u .step n.val Reg.STEP.STEPS_HI = hi32 (if c < d then c + 1 else c - 1) ∧ rb u .step n.val Reg.STEP.STAT 0 = decide (d < c) ∧
        rg u .step n.val Reg.STEP.LAG = satI32 (d - (if c < d then c + 1 else c - 1)) ∧
        OnlyPages { s with steps := u.steps, now := max s.now t } u ∧ OtherPages s u (pk .step n.val) ∧
        OtherRegs s u .step n.val [Reg.STEP.STEPS_LO, Reg.STEP.STEPS_HI, Reg.STEP.STAT, Reg.STEP.LAG])) ∧
  (∀ (s : State) (n : Fin 64) (t : Nat) (c d : Int), stOf s .step n.val = .run → rf s .step n.val Reg.STEP.CFG 0 2 = 0 →
      c = rg64 s .step n.val Reg.STEP.STEPS_LO → d = stepPlaced s n.val t → c ≠ d → stepFree (s.at t) n.val t (decide (d < c)) = false →
      (rf s .step n.val Reg.STEP.LAG_LIM 0 16 = 0 ∨ (d - c).natAbs ≤ rf s .step n.val Reg.STEP.LAG_LIM 0 16) →
      Gives (.stepEmit n t) s (fun u => rg u .step n.val Reg.STEP.LAG = satI32 (d - c) ∧ rb u .step n.val Reg.STEP.STAT 1 = true ∧
        (rg s .step n.val Reg.STEP.LAG = 0 → bit (u.page (pk .step n.val)).intRaw 0 = true) ∧
        OnlyPages { s with steps := u.steps, now := max s.now t } u ∧ OtherPages s u (pk .step n.val) ∧
        OtherRegs s u .step n.val [Reg.STEP.STAT, Reg.STEP.LAG])) ∧
  (∀ (s : State) (n : Fin 64) (t : Nat), stOf s .step n.val = .run → rf s .step n.val Reg.STEP.CFG 0 2 = 1 →
      stepStands (s.at t) n.val t = true →
      Gives (.stepHoldAmp n t) s (fun u => rb u .step n.val Reg.STEP.STAT 2 = true ∧
        (∀ e : Int × Int, rg64 s .step n.val Reg.STEP.STEPS_LO / 2 ^ rf s .step n.val Reg.STEP.CFG 16 4 % 4 = 0 →
          e = stepEntry s (rf s .step n.val Reg.STEP.CFG 12 3) (rg64 s .step n.val Reg.STEP.STEPS_LO % 2 ^ rf s .step n.val Reg.STEP.CFG 16 4 *
            256 / 2 ^ rf s .step n.val Reg.STEP.CFG 16 4).toNat →
          rg u .step n.val Reg.STEP.PHASE_A = q23 (fq (sw (rg s .step n.val Reg.STEP.AMP_HOLD) * e.1) 8388608) ∧
          rg u .step n.val Reg.STEP.PHASE_B = q23 (fq (sw (rg s .step n.val Reg.STEP.AMP_HOLD) * e.2) 8388608)) ∧
        OnlyPages { s with now := max s.now t } u ∧ OtherPages s u (pk .step n.val) ∧
        OtherRegs s u .step n.val [Reg.STEP.PHASE_A, Reg.STEP.PHASE_B, Reg.STEP.STAT, Reg.STEP.ELEC])) ∧
  (∀ (s : State) (v : Word), answers s ⟨.ustp, 0⟩ = true → (s.page (pk .ustp 0)).key ≠ .window → (s.page (pk .ustp 0)).locked = false →
      Gives (.editSelWrite v) s (fun u =>
        ((s.page (pk .ustp 0)).dirty = false → (s.page (pk .ustp 0)).commit = .none → rg u .ustp 0 Reg.USTP.EDIT_SEL = ofN (fld v 0 2) ∧
          (u.page (pk .ustp 0)).busy = true ∧ OtherRegs s u .ustp 0 [Reg.USTP.EDIT_SEL]) ∧
        ((s.page (pk .ustp 0)).dirty = true ∨ (s.page (pk .ustp 0)).commit ≠ .none →
          (u.page (pk .ustp 0)).err = errWord .conflict Reg.USTP.EDIT_SEL 3 ∧ OtherRegs s u .ustp 0 []) ∧
        OnlyPages s u ∧ OtherPages s u (pk .ustp 0))) ∧
  (∀ s : State, powered s .ustp 0 = true → (s.page (pk .ustp 0)).busy = true →
      Gives .ustpCopyEnd s (fun u => (∀ w, w < 512 → rg u .ustp 0 (Reg.USTP.TBL_DATA + 4 * w) = ustpWord s (ustpSel s) w) ∧
        (∀ w, w < 512 → staged u .ustp 0 (Reg.USTP.TBL_DATA + 4 * w) = ustpWord s (ustpSel s) w) ∧
        (u.page (pk .ustp 0)).busy = false ∧ (u.page (pk .ustp 0)).dirty = false ∧ OnlyPages s u ∧ OtherPages s u (pk .ustp 0) ∧
        OtherRegs s u .ustp 0 ((List.range 512).map (fun w => Reg.USTP.TBL_DATA + 4 * w))))

/-- Multiplies and accumulators (R171 to R175, R186, R198). Each instruction's accumulator takes the exact result saturated to 56 bits, with N, Z and
AEU of it, V and C 0, and AOV set if it saturated; multiplier results are visible from c + 3 and read accumulators forwarded, the others from
c + 1. LDA and SATA never overflow; PMAC writes two accumulators; MOVA rounds by MR.RND and saturates to 24 bits with SOV. The flow goes on to the
next bundle and nothing else changes. -/
def Obligations.loop_accumulators : Prop :=
  (∀ (s : State) (a : LcAt) (mv : Option LcSlots) (len : Nat) (x : LcSt) (an am : Fin 4) (da db : Fin 32) (k : Fin 16) (c : Instr) (e : Int)
      (lat : Nat) (mul : Bool), (mv = none ∧ len = 1) ∨ (mv = some ⟨0, 0⟩ ∧ len = 2) → LcIssues s a len x →
      (c, e, lat, mul) ∈ [(Instr.lcMpy a mv an da db, 2 * x.ds da * x.ds db, 3, true),
        (.lcMac a mv an da db, x.aFwd an + 2 * x.ds da * x.ds db, 3, true), (.lcMsu a mv an da db, x.aFwd an - 2 * x.ds da * x.ds db, 3, true),
        (.lcClra a mv an, 0, 1, false), (.lcAdda a mv an am, x.a an + x.a am, 1, false), (.lcSuba a mv an am, x.a an - x.a am, 1, false),
        (.lcNega a mv an, -x.a an, 1, false), (.lcAbsa a mv an, (x.a an).natAbs, 1, false), (.lcShla a mv an k, x.a an * 2 ^ k.val, 1, false),
        (.lcShra a mv an k, x.a an / 2 ^ k.val, 1, false), (.lcRnda a mv an, roundAcc x.rnd (x.a an) * 16777216, 1, false)] →
      (clampI (-36028797018963968) 36028797018963967 e ≠ e → x.reg (lcCtlKey x.level 1) / 4 % 2 = 0) →
      Gives c s (fun u => LcOver s u a x (x.resAcc an e lat mul) ∧ LcNext u a x len ∧ LcFrame s u a)) ∧
  (∀ (s : State) (a : LcAt) (mv : Option LcSlots) (len : Nat) (x : LcSt) (an : Fin 4) (da : Fin 32) (c : Instr) (v : Int) (sat : Bool),
      (mv = none ∧ len = 1) ∨ (mv = some ⟨0, 0⟩ ∧ len = 2) → LcIssues s a len x →
      (c, v, sat) ∈ [(Instr.lcLda a mv an da, x.ds da * 16777216, false),
        (.lcSata a mv an, clampI (-140737488355328) 140737488355327 (x.a an), decide (clampI (-140737488355328) 140737488355327 (x.a an) ≠ x.a an))] →
      Gives c s (fun u => LcOver s u a x (x.res 1 (x.key (32 + an.val)) (v % 72057594037927936).toNat ::
          (x.resFlags 1 (decide (v < 0)) (decide (v = 0)) false false ++ x.res 1 (lcFlagKey x.level 4) 0 :: x.resStick 1 6 sat)) ∧
        LcNext u a x len ∧ LcFrame s u a)) ∧
  (∀ (s : State) (a : LcAt) (x : LcSt) (an : Fin 4) (da db dd : Fin 32) (e f : Int), LcIssues s a 1 x →
      e = x.aFwd an + 2 * x.ds da * x.ds db → f = x.aFwd (Nat.xor an.val 1) + 2 * x.ds da * x.ds dd → accOver e = false → accOver f = false →
      Gives (.lcPmac a none an da db dd) s (fun u =>
        LcOver s u a x (⟨x.cyc + 3, x.cyc, x.key (32 + an.val), (e % 72057594037927936).toNat, true, false⟩ ::
          ⟨x.cyc + 3, x.cyc, x.key (32 + Nat.xor an.val 1), (f % 72057594037927936).toNat, true, false⟩ ::
          (x.resFlags 3 (decide (e < 0)) (decide (e = 0)) false false ++ [x.res 3 (lcFlagKey x.level 4) (b2n (accAeu e || accAeu f))])) ∧
        LcNext u a x 1 ∧ LcFrame s u a)) ∧
  (∀ (s : State) (a : LcAt) (mv : Option LcSlots) (len : Nat) (x : LcSt) (an : Fin 4) (dd : Fin 32) (r : Int),
      (mv = none ∧ len = 1) ∨ (mv = some ⟨0, 0⟩ ∧ len = 2) → LcIssues s a len x → r = roundAcc x.rnd (x.a an) →
      Gives (.lcMova a mv dd an) s (fun u =>
        LcOver s u a x (x.resData dd (clampI (-8388608) 8388607 r) false false (decide (r < -8388608 ∨ 8388607 < r))) ∧
        LcNext u a x len ∧ LcFrame s u a)) ∧
  (∀ (s : State) (a : LcAt) (x : LcSt) (an : Fin 4) (k : Fin 16), LcIssues s a 1 x → x.level < 2 → accOver (x.a an * 2 ^ k.val) = true →
      x.reg (lcCtlKey x.level 1) / 4 % 2 = 1 → x.pend = [] → x.traps = [] →
      Gives (.lcShla a none an k) s (fun u => (lcOf u a.core.val).level = 2 ∧ (lcOf u a.core.val).pc = 4 ∧
        (lcOf u a.core.val).reg (lcCtlKey 2 5) = (x.pc + 1) % 16384 ∧ (lcOf u a.core.val).reg (lcCtlKey 2 6) = 2 ∧
        (lcOf u a.core.val).reg (lcPlvlKey 2) = x.level ∧ SameMem s u))

/-- Data operations (R176, R198). ADD, SUB and NEG wrap and set V; ADDS, SUBS and ABS saturate with SOV; shifts, logic, MIN, MAX and CLIP; CMP writes the
flags of the wrapping difference alone. The C that a shift by 0 leaves is a free value. Results are visible from c + 1; the flow goes on to the
next bundle and nothing else changes. -/
def Obligations.loop_data_operations : Prop :=
  (∀ (s : State) (a : LcAt) (mv : Option LcSlots) (len : Nat) (x : LcSt) (dd da db : Fin 32) (k : Fin 16) (c : Instr) (v : Int) (vf cf sov : Bool),
      (mv = none ∧ len = 1) ∨ (mv = some ⟨0, 0⟩ ∧ len = 2) → LcIssues s a len x → k.val ≠ 0 →
      (c, v, vf, cf, sov) ∈ [
        (Instr.lcAdd a mv dd da db, x.ds da + x.ds db, d24Over (x.ds da + x.ds db), decide (16777216 ≤ x.d da + x.d db), false),
        (.lcSub a mv dd da db, x.ds da - x.ds db, d24Over (x.ds da - x.ds db), decide (x.d db ≤ x.d da), false),
        (.lcAdds a mv dd da db, clampI (-8388608) 8388607 (x.ds da + x.ds db), false, decide (16777216 ≤ x.d da + x.d db),
          d24Over (x.ds da + x.ds db)),
        (.lcSubs a mv dd da db, clampI (-8388608) 8388607 (x.ds da - x.ds db), false, decide (x.d db ≤ x.d da), d24Over (x.ds da - x.ds db)),
        (.lcNeg a mv dd da, -x.ds da, d24Over (-x.ds da), false, false),
        (.lcAbs a mv dd da, min ((x.ds da).natAbs : Int) 8388607, false, false, decide (x.ds da = -8388608)),
        (.lcAnd a mv dd da db, (Nat.land (x.d da) (x.d db) : Nat), false, false, false),
        (.lcOr a mv dd da db, (Nat.lor (x.d da) (x.d db) : Nat), false, false, false),
        (.lcXor a mv dd da db, (Nat.xor (x.d da) (x.d db) : Nat), false, false, false),
        (.lcMin a mv dd da db, min (x.ds da) (x.ds db), false, false, false),
        (.lcMax a mv dd da db, max (x.ds da) (x.ds db), false, false, false),
        (.lcClip a mv dd da db, clampI (-(absClip (x.ds db))) (absClip (x.ds db)) (x.ds da), false,
          decide (clampI (-(absClip (x.ds db))) (absClip (x.ds db)) (x.ds da) ≠ x.ds da), false),
        (.lcShl a mv dd da k, x.ds da * 2 ^ k.val, d24Over (x.ds da * 2 ^ k.val), decide (x.d da / 2 ^ (24 - k.val) % 2 = 1), false),
        (.lcShr a mv dd da k, x.ds da / 2 ^ k.val, false, decide (x.d da / 2 ^ (k.val - 1) % 2 = 1), false),
        (.lcShrl a mv dd da k, (x.d da / 2 ^ k.val : Nat), false, decide (x.d da / 2 ^ (k.val - 1) % 2 = 1), false)] →
      Gives c s (fun u => LcOver s u a x (x.resData dd v vf cf sov) ∧ LcNext u a x len ∧ LcFrame s u a)) ∧
  (∀ (s : State) (a : LcAt) (x : LcSt) (dd da : Fin 32) (c : Instr), LcIssues s a 1 x →
      c ∈ [Instr.lcShl a none dd da 0, .lcShr a none dd da 0, .lcShrl a none dd da 0] →
      Gives c s (fun u => (LcOver s u a x (x.resData dd (x.ds da) false false false) ∨ LcOver s u a x (x.resData dd (x.ds da) false true false)) ∧
        LcNext u a x 1 ∧ LcFrame s u a)) ∧
  (∀ (s : State) (a : LcAt) (mv : Option LcSlots) (len : Nat) (x : LcSt) (da db : Fin 32) (r : Nat),
      (mv = none ∧ len = 1) ∨ (mv = some ⟨0, 0⟩ ∧ len = 2) → LcIssues s a len x → r = ((x.ds da - x.ds db) % 16777216).toNat →
      Gives (.lcCmp a mv da db) s (fun u =>
        LcOver s u a x (x.resFlags 1 (decide (8388608 ≤ r)) (decide (r = 0)) (d24Over (x.ds da - x.ds db)) (decide (x.d db ≤ x.d da))) ∧
        LcNext u a x len ∧ LcFrame s u a))

/-- Moves, immediates and control registers (R169, R170, R177, R189, R198, Table 6-2). MOV and the immediates land in the register's width; MVC and LDC
write the bits of a control register, MVC reads one; CLRF clears the sticky flags, ROT takes 1 from RRB, NOP does nothing. A reserved register code
makes the bundle illegal: exception 1, with no other effect. -/
def Obligations.loop_moves : Prop :=
  (∀ (s : State) (a : LcAt) (x : LcSt), LcIssues s a 1 x →
      Gives (.lcNop a false) s (fun u => LcOver s u a x [] ∧ LcNext u a x 1 ∧ LcFrame s u a) ∧
      Gives (.lcClrf a) s (fun u => LcOver s u a x [x.res 1 (lcFlagKey x.level 5) 0, x.res 1 (lcFlagKey x.level 6) 0] ∧ LcNext u a x 1 ∧
        LcFrame s u a) ∧
      Gives (.lcRot a) s (fun u => LcOver s u a x [x.res 1 (lcCtlKey x.level 2) ((x.rrb + 15) % 16)] ∧ LcNext u a x 1 ∧ LcFrame s u a)) ∧
  (∀ (s : State) (a : LcAt) (x : LcSt), LcIssues s a 2 x →
      Gives (.lcNop a true) s (fun u => LcOver s u a x [] ∧ LcNext u a x 2 ∧ LcFrame s u a)) ∧
  (∀ (s : State) (a : LcAt) (x : LcSt) (rd rs : Fin 64) (imm : BitVec 20) (c : Instr) (v : Nat), LcIssues s a 1 x → rd.val < 60 →
      ¬(32 ≤ rd.val ∧ rd.val < 36) → rs.val < 60 → ¬(32 ≤ rs.val ∧ rs.val < 36) →
      (c, v) ∈ [(Instr.lcMov a rd rs, x.value24 rs), (.lcMovi a rd imm, (imm.toInt % 16777216).toNat)] →
      Gives c s (fun u => LcOver s u a x [x.res (if rd.val < 32 then 1 else 2) (x.key rd) (v % 2 ^ lcWidth rd)] ∧ LcNext u a x 1 ∧ LcFrame s u a)) ∧
  (∀ (s : State) (a : LcAt) (x : LcSt) (rd : Fin 64) (imm : Word), LcIssues s a 2 x → rd.val < 60 →
      Gives (.lcLdi a rd imm) s (fun u => LcOver s u a x (x.res (if rd.val < 36 then 1 else 2) (x.key rd)
          (if 32 ≤ rd.val ∧ rd.val < 36 then ((imm.toInt * 16777216) % 72057594037927936).toNat else imm.toNat % 2 ^ lcWidth rd) ::
            x.resAeu 1 rd (imm.toInt * 16777216)) ∧
        LcNext u a x 2 ∧ LcFrame s u a)) ∧
  (∀ (s : State) (a : LcAt) (x : LcSt) (ctl rs : Fin 64) (imm : Word) (w : Nat), (ctl.val, w) ∈ [(2, 4), (3, 24), (4, 14), (5, 14), (6, 16), (7, 32), (8, 32)] →
      (LcIssues s a 1 x → rs.val < 60 → ¬(32 ≤ rs.val ∧ rs.val < 36) →
        Gives (.lcMvcToControl a ctl rs) s (fun u => LcOver s u a x [x.res 1 (lcCtlKey x.level ctl) (x.value24 rs % 2 ^ w)] ∧ LcNext u a x 1 ∧
          LcFrame s u a)) ∧
      (LcIssues s a 1 x → rs.val < 60 → ¬(32 ≤ rs.val ∧ rs.val < 36) →
        Gives (.lcMvcFromControl a rs ctl) s (fun u => LcOver s u a x [x.res 1 (x.key rs) (x.reg (lcCtlKey x.level ctl) % 2 ^ lcWidth rs)] ∧
          LcNext u a x 1 ∧ LcFrame s u a)) ∧
      (LcIssues s a 2 x → Gives (.lcLdc a ctl imm) s (fun u => LcOver s u a x [x.res 1 (lcCtlKey x.level ctl) (imm.toNat % 2 ^ w)] ∧
        LcNext u a x 2 ∧ LcFrame s u a))) ∧
  (∀ (s : State) (a : LcAt) (x : LcSt) (rs : Fin 64) (w v : Word) (c : Instr), LcIssues s a 1 x → x.level < 2 → 60 ≤ rs.val → x.noTrap 4 →
      lcDecode a w v = none →
      c ∈ [Instr.lcMov a rs 0, .lcMov a 0 rs, .lcMovi a rs 0, .lcMvcToControl a 2 rs, .lcIllegalBundle a w v] →
      Gives c s (fun u => LcEntered u a.core.val x 2 x.pc 1 1 ∧ (lcOf u a.core.val).pend = x.pend ∧ SameMem s u ∧ (∀ k, u.page k = s.page k)))

/-- Memory instructions (R178 to R181, R196, R197, R199). Loads are visible from c + 2, address registers from c + 1; stores write the register
sign-extended to the word their address form gives, pairs two words at an even address, STP and LDP all bits of an accumulator; an exchange slot loads
and stores one word; FTAP shifts its delay line and accumulates. The address is the one the access form gives (Table 6-5); no other byte changes. -/
def Obligations.loop_memory : Prop :=
  (∀ (s : State) (a : LcAt) (x : LcSt) (y : Bool) (p am : Fin 8) (ofs : BitVec 11) (reg : Fin 64) (w : Nat) (q : Option Nat), LcIssues s a 1 x →
      x.access p am ofs.toInt false = some (w, q) → reg.val < 60 →
      Gives (.lcLd a y p am ofs reg) s (fun u => LcOver s u a x (x.res 2 (x.key reg) (if 32 ≤ reg.val ∧ reg.val < 36 then
          accNat (sext 24 (lcMem s a.core (if y then 2 else 1) w).toNat * 16777216) else
          (lcMem s a.core (if y then 2 else 1) w).toNat % 2 ^ lcWidth reg) :: (x.resAeu 2 reg 0 ++ x.resP p q)) ∧ LcNext u a x 1 ∧
          LcFrame s u a) ∧
      (s.lschOp = none → ¬(32 ≤ reg.val ∧ reg.val < 36) → Gives (.lcSt a y p am ofs reg) s (fun u =>
        WroteWords s u [(lcAddr a.core (if y then 2 else 1) w, ofI (sext 24 (x.value24 reg)))] ∧ LcOver s u a x (x.resP p q) ∧
        LcNext u a x 1 ∧ LcFrame { s with mem := u.mem } u a))) ∧
  (∀ (s : State) (a : LcAt) (x : LcSt) (y : Bool) (p am : Fin 8) (ofs : BitVec 11) (reg : Fin 64) (w : Nat) (q : Option Nat), LcIssues s a 1 x →
      s.lschOp = none → x.access p am ofs.toInt false = some (w, q) → 32 ≤ reg.val → reg.val < 36 →
      Gives (.lcSt a y p am ofs reg) s (fun u =>
        WroteWords s u [(lcAddr a.core (if y then 2 else 1) w, ofI (clampI (-8388608) 8388607 (roundAcc x.rnd (x.a (reg.val - 32)))))] ∧
        LcOver s u a x (x.resP p q ++ x.resStick 1 6 (d24Over (roundAcc x.rnd (x.a (reg.val - 32))))) ∧ LcNext u a x 1 ∧
        LcFrame { s with mem := u.mem } u a)) ∧
  (∀ (s : State) (a : LcAt) (x : LcSt) (y : Bool) (p am : Fin 8) (ofs : BitVec 11) (reg : Fin 64) (w r : Nat) (q : Option Nat), LcIssues s a 1 x →
      x.access p am ofs.toInt true = some (w, q) → reg.val < 60 → ¬(32 ≤ reg.val ∧ reg.val < 36) → pairNext reg = some r →
      Gives (.lcLdp a y p am ofs reg) s (fun u => LcOver s u a x
          (x.res 2 (x.key reg) ((lcMem s a.core (if y then 2 else 1) w).toNat % 2 ^ lcWidth reg) ::
            x.res 2 (x.key r) ((lcMem s a.core (if y then 2 else 1) (w + 1)).toNat % 2 ^ lcWidth r) :: x.resP p q) ∧
        LcNext u a x 1 ∧ LcFrame s u a) ∧
      (s.lschOp = none → Gives (.lcStp a y p am ofs reg) s (fun u =>
        WroteWords s u [(lcAddr a.core (if y then 2 else 1) w, ofI (sext 24 (x.value24 reg))),
          (lcAddr a.core (if y then 2 else 1) (w + 1), ofI (sext 24 (x.value24 r)))] ∧ LcOver s u a x (x.resP p q) ∧
        LcNext u a x 1 ∧ LcFrame { s with mem := u.mem } u a))) ∧
  (∀ (s : State) (a : LcAt) (x : LcSt) (y : Bool) (p am : Fin 8) (ofs : BitVec 11) (i : Fin 4) (w : Nat) (q : Option Nat), LcIssues s a 1 x →
      x.access p am ofs.toInt true = some (w, q) →
      Gives (.lcLdp a y p am ofs ⟨32 + i.val, by omega⟩) s (fun u => LcOver s u a x (x.res 2 (x.key (32 + i.val))
          (((lcMem s a.core (if y then 2 else 1) w).toNat + 4294967296 * (lcMem s a.core (if y then 2 else 1) (w + 1)).toNat) % 2 ^ 56) ::
            (x.resAeu 2 (32 + i.val) (sext 56 ((lcMem s a.core (if y then 2 else 1) w).toNat +
              4294967296 * (lcMem s a.core (if y then 2 else 1) (w + 1)).toNat)) ++ x.resP p q)) ∧ LcNext u a x 1 ∧ LcFrame s u a) ∧
      (s.lschOp = none → Gives (.lcStp a y p am ofs ⟨32 + i.val, by omega⟩) s (fun u =>
        WroteWords s u [(lcAddr a.core (if y then 2 else 1) w, lo32 (x.a i)), (lcAddr a.core (if y then 2 else 1) (w + 1), hi32 (x.a i))] ∧
        LcOver s u a x (x.resP p q) ∧ LcNext u a x 1 ∧ LcFrame { s with mem := u.mem } u a))) ∧
  (∀ (s : State) (a : LcAt) (x : LcSt) (y : Bool) (p : Fin 8) (am : Fin 4) (d : Fin 32) (w : Nat) (q : Option Nat), LcIssues s a 2 x →
      x.access p am 0 false = some (w, q) →
      Gives (.lcMoveSlotLoad a y false p am d 0) s (fun u =>
        LcOver s u a x (x.res 2 (x.key d) ((lcMem s a.core (if y then 2 else 1) w).toNat % 16777216) :: x.resP p q) ∧ LcNext u a x 2 ∧
        LcFrame s u a) ∧
      (s.lschOp = none → Gives (.lcMoveSlotStore a y false p am d 0) s (fun u =>
        WroteWords s u [(lcAddr a.core (if y then 2 else 1) w, ofI (sext 24 (x.d d)))] ∧ LcOver s u a x (x.resP p q) ∧ LcNext u a x 2 ∧
        LcFrame { s with mem := u.mem } u a)) ∧
      (s.lschOp = none → Gives (.lcMoveSlotExchange a y p am d 0) s (fun u =>
        WroteWords s u [(lcAddr a.core (if y then 2 else 1) w, ofI (sext 24 (x.d d)))] ∧
        LcOver s u a x (x.res 2 (x.key d) ((lcMem s a.core (if y then 2 else 1) w).toNat % 16777216) :: x.resP p q) ∧ LcNext u a x 2 ∧
        LcFrame { s with mem := u.mem } u a))) ∧
  (∀ (s : State) (a : LcAt) (x : LcSt) (clr : Bool) (an : Fin 4) (px py : Fin 8) (wx wy : Nat) (e : Int), LcIssues s a 1 x → s.lschOp = none →
      lKind (x.code (52 + px.val)) = 0 → lKind (x.code (52 + py.val)) = 0 → px ≠ py →
      wx = x.code (36 + px.val) / 2 * 2 → wy = x.code (36 + py.val) / 2 * 2 →
      e = 2 * sext 24 (x.reg (lcCtlKey x.level 3)) * sext 24 (lcMem s a.core 2 wy).toNat +
        2 * sext 24 (lcMem s a.core 1 wx).toNat * sext 24 (lcMem s a.core 2 (wy + 1)).toNat + (if clr then 0 else x.aFwd an) →
      accOver e = false →
      Gives (.lcFtap a clr an px py) s (fun u =>
        WroteWords s u [(lcAddr a.core 1 wx, ofI (sext 24 (x.reg (lcCtlKey x.level 3)))),
          (lcAddr a.core 1 (wx + 1), ofI (sext 24 ((lcMem s a.core 1 wx).toNat % 16777216)))] ∧
        LcOver s u a x (x.resAcc an e 3 true ++ [x.res 1 (lcCtlKey x.level 3) ((lcMem s a.core 1 (wx + 1)).toNat % 16777216),
          x.res 1 (x.key (36 + px.val)) ((x.code (36 + px.val) + 2) % 16384), x.res 1 (x.key (36 + py.val)) ((x.code (36 + py.val) + 2) % 16384)]) ∧
        LcNext u a x 1 ∧ LcFrame { s with mem := u.mem } u a))

/-- Flow (R188, R190, R191, R193 to R195). Branches, calls, returns and BREAK whose condition holds take the flow after their delay slot, others go on; a
delay slot's bundle goes to the target, a call's with LINK behind it; the last bundle of a repeat's body counts and goes back to its first; BREP starts
one, or skips the body at count 0; RETI returns to PLVL at EPC 3 cycles on; TRAP and a fifth repeat take their exceptions. -/
def Obligations.loop_flow : Prop :=
  (∀ (s : State) (a : LcAt) (x : LcSt) (cond : Fin 16) (tgt : BitVec 14) (c : Instr) (f : LcFlow), LcIssues s a 1 x → cond.val ≠ 15 →
      (c, f) ∈ [(Instr.lcBr a cond tgt, .jump tgt.toNat), (.lcCall a cond tgt, .call tgt.toNat x.cyc),
        (.lcRet a cond, .jump (x.reg (lcCtlKey x.level 4))), (.lcBreak a cond, .brk)] →
      Gives c s (fun u => LcOver s u a x [] ∧ (lcOf u a.core.val).pc = (x.pc + 1) % 16384 ∧ (lcOf u a.core.val).reps = x.reps ∧
        (x.cond cond = true → (lcOf u a.core.val).slot = some f) ∧ (x.cond cond = false → (lcOf u a.core.val).slot = some .stay) ∧ LcFrame s u a)) ∧
  (∀ (s : State) (a : LcAt) (x : LcSt) (t iss : Nat), lcRuns s a.core.val = true → a.err = none →
      x = lcReady s a.core.val → (x.level = 0 → lcDue (setLc s a.core.val x) a.core.val = false) →
      (∀ d ∈ x.traps, x.cyc + 1 < d) → x.stack = [] →
      (x.slot = some (.jump t) → Gives (.lcNop a false) s (fun u => LcOver s u a x [] ∧ (lcOf u a.core.val).pc = t ∧ (lcOf u a.core.val).slot = none ∧
        LcFrame s u a)) ∧
      (x.slot = some (.call t iss) → Gives (.lcNop a false) s (fun u =>
        LcOver s u a x [⟨x.cyc + 1, iss, lcCtlKey x.level 4, (x.pc + 1) % 16384, false, false⟩] ∧ (lcOf u a.core.val).pc = t ∧
        (lcOf u a.core.val).slot = none ∧ LcFrame s u a)) ∧
      (x.slot = some .stay → Gives (.lcNop a false) s (fun u => LcOver s u a x [] ∧ (lcOf u a.core.val).pc = (x.pc + 1) % 16384 ∧
        (lcOf u a.core.val).slot = none ∧ LcFrame s u a)) ∧
      (x.slot = some .brk → Gives (.lcNop a false) s (fun u => LcOver s u a x [] ∧ (lcOf u a.core.val).pc = (x.pc + 1) % 16384 ∧
        (lcOf u a.core.val).slot = none ∧ LcFrame s u a))) ∧
  (∀ (s : State) (a : LcAt) (x : LcSt) (r : LcRep) (l : List LcRep), lcRuns s a.core.val = true → a.err = none →
      x = lcReady s a.core.val → (x.level = 0 → lcDue (setLc s a.core.val x) a.core.val = false) →
      (∀ d ∈ x.traps, x.cyc + 1 < d) → x.slot = none → x.stack = r :: l → r.last = x.pc → r.rot = false →
      Gives (.lcNop a false) s (fun u => LcOver s u a x [] ∧ (lcOf u a.core.val).stack = { r with cnt := r.cnt - 1 } :: l ∧
        (lcOf u a.core.val).pc = (if r.cnt ≤ 1 then r.last + 1 else r.first) ∧ LcFrame s u a)) ∧
  (∀ (s : State) (a : LcAt) (x : LcSt) (reg : Option (Fin 32)) (cnt : BitVec 16) (rot : Bool) (last : BitVec 8) (k : Nat), LcIssues s a 1 x →
      last ≠ 0 → k = (match reg with | some r => x.d r % 65536 | none => cnt.toNat) →
      (k = 0 → Gives (.lcBrep a reg cnt rot last) s (fun u => LcOver s u a x [] ∧ (lcOf u a.core.val).pc = (x.pc + last.toNat + 1) % 16384 ∧
        (lcOf u a.core.val).stack = x.stack ∧ LcFrame s u a)) ∧
      (k ≠ 0 → x.stack.length < 4 → Gives (.lcBrep a reg cnt rot last) s (fun u => LcOver s u a x [] ∧
        (lcOf u a.core.val).pc = (x.pc + 1) % 16384 ∧ (lcOf u a.core.val).stack = ⟨x.pc + 1, x.pc + last.toNat, k, rot⟩ :: x.stack ∧
        LcFrame s u a)) ∧
      (k ≠ 0 → 4 ≤ x.stack.length → x.level < 2 → x.noTrap 5 → Gives (.lcBrep a reg cnt rot last) s (fun u =>
        LcEntered u a.core.val x 2 x.pc 4 4 ∧ LcFrame s u a))) ∧
  (∀ (s : State) (c : Fin 18) (r : LcRep), lcRuns s c.val = true → (lcOf s c.val).stack = [r] → r.cnt = 0 →
      Gives (.lcBrepLoopEnd c) s (fun u => (lcOf u c.val).stack = [] ∧ (lcOf u c.val).pc = (lcOf s c.val).pc ∧
        (lcOf u c.val).regs = (lcOf s c.val).regs ∧ (lcOf u c.val).pend = (lcOf s c.val).pend ∧ OnlyPages { s with lcs := u.lcs } u ∧
        ∀ k, u.page k = s.page k)) ∧
  (∀ (s : State) (a : LcAt) (x : LcSt) (cond : Fin 16), LcIssues s a 1 x → cond.val ≠ 15 → x.level ≠ 0 →
      x.noTrap 3 → Gives (.lcReti a cond) s (fun u => (lcOf u a.core.val).pend = x.pend ∧ (lcOf u a.core.val).regs = x.regs ∧
        (x.cond cond = true → (lcOf u a.core.val).pc = x.reg (lcCtlKey x.level 5) ∧ (lcOf u a.core.val).level = x.reg (lcPlvlKey x.level) % 4 ∧
          (lcOf u a.core.val).cyc = x.cyc + 3) ∧
        (x.cond cond = false → (lcOf u a.core.val).pc = (x.pc + 1) % 16384 ∧ (lcOf u a.core.val).level = x.level ∧
          (lcOf u a.core.val).cyc = x.cyc + 1) ∧ LcFrame s u a)) ∧
  (∀ (s : State) (a : LcAt) (x : LcSt) (cond n : Fin 16), LcIssues s a 1 x → cond.val ≠ 15 → x.level < 2 →
      x.noTrap 5 → Gives (.lcTrap a cond n) s (fun u => (x.cond cond = true → LcEntered u a.core.val x 2 ((x.pc + 1) % 16384) (5 + 256 * n.val) 5) ∧
        (x.cond cond = false → LcOver s u a x [] ∧ LcNext u a x 1) ∧ LcFrame s u a))

/-- Ports, the bus, interrupts and samples (R184, R192, R193, R200 to R206). IN reads a port, a reserved one as 0 with PORT_ERR; OUT waits for TEND, which
ends the sample and releases the outputs; LDG and STG reach shared SRAM and stall; an interrupt that is asserted, enabled and above the present
level enters its level; a released sample starts at its entry word with its tick; a sample at its budget is cut and counts an overrun. -/
def Obligations.loop_ports_and_samples : Prop :=
  (∀ (s : State) (a : LcAt) (x : LcSt) (reg : Fin 64) (port : Fin 2048), LcIssues s a 1 x → reg.val < 32 →
      (∀ v, portIn s a.core.val x port.val = some v → Gives (.lcIn a reg port) s (fun u =>
        LcOver s u a x [x.res 2 (x.key reg) (v % 16777216)] ∧ LcNext u a x 1 ∧ LcFrame s u a)) ∧
      (portIn s a.core.val x port.val = none → Gives (.lcIn a reg port) s (fun u =>
        LcOver s u a x [x.res 2 (x.key reg) 0] ∧ LcNext u a x 1 ∧ rb u .lc a.core.val Reg.LC.STAT 7 = true ∧
        bit (u.page (pk .lc a.core.val)).intRaw 2 = true ∧ SameMem s u)) ∧
      portIn s a.core.val x 0x581 = some (SMap.get (fun _ => 0) x.ports 0x581) ∧ portIn s a.core.val x 0x580 = some x.flags) ∧
  (∀ (s : State) (a : LcAt) (x : LcSt) (reg : Fin 64) (port : Fin 2048), LcIssues s a 1 x → reg.val < 32 → portOutOk port.val = true →
      Gives (.lcOut a reg port) s (fun u => SMap.get (fun _ => 0) (lcOf u a.core.val).out port.val = x.d reg ∧
        (lcOf u a.core.val).pend = x.pend ∧ (lcOf u a.core.val).regs = x.regs ∧ LcNext u a x 1 ∧ LcFrame s u a)) ∧
  (∀ (s : State) (a : LcAt) (x : LcSt) (t w v : Nat), LcIssues s a 1 x → x.level = 0 → x.act = .sample t → w < 64 → x.out = [(0x540 + w, v)] →
      Gives (.lcTend a 0) s (fun u => (lcOf u a.core.val).act = .idle ∧ (lcOf u a.core.val).out = [] ∧
        rg u .lc a.core.val (Reg.LC.OUTW + 4 * w) = ofI (sext 24 v) ∧
        rg u .lsch 0 (Reg.LSCH.TCFG + 16 * t + 12) = ofN (min (x.charged + 1) 16777215) ∧
        OnlyPublished { s with lcs := u.lcs } u [pk .lc a.core.val, pk .lsch 0] ∧
        OtherRegs s u .lc a.core.val [Reg.LC.OUTW + 4 * w, Reg.LC.LOAD_MAX] ∧ OtherRegs s u .lsch 0 [Reg.LSCH.TCFG + 16 * t + 12])) ∧
  (∀ (s : State) (a : LcAt) (x : LcSt) (g1 : Bool) (reg : Fin 64) (ofs : BitVec 17) (stall ad : Nat), LcIssues s a 1 x → reg.val < 32 →
      ad = x.reg (lcCtlKey x.level (if g1 then 8 else 7)) + 4 * ofs.toNat → ad % 4 = 0 → regionOf ad = .sram →
      x.noTrap (1 + stall) → Gives (.lcLdg a g1 reg ofs stall []) s (fun u =>
        Joined (lcOf u a.core.val).pend x.pend [x.res (stall + 1) (x.key reg) ((mem32 s ad).toNat % 16777216)] ∧
        (lcOf u a.core.val).cyc = x.cyc + 1 + stall ∧ (lcOf u a.core.val).regs = x.regs ∧ LcNext u a x 1 ∧
        LcFrame { s with resp := u.resp } u a) ∧
      Gives (.lcStg a g1 reg ofs stall) s (fun u => WroteWords s u [(ad, ofI (sext 24 (x.d reg)))] ∧ (lcOf u a.core.val).pend = x.pend ∧
        (lcOf u a.core.val).cyc = x.cyc + 1 + stall ∧ LcNext u a x 1 ∧ LcFrame { s with resp := u.resp, mem := u.mem } u a)) ∧
  (∀ (s : State) (c : Fin 18) (v : Fin 32) (x : LcSt) (lvl : Nat), x = lcReady s c.val →
      lvl = irqvLevel s c.val v.val → lcUp s c.val = true → irqvEn s c.val v.val = true →
      s.irqOn.getLsbD (irqvLine s c.val v.val) = true → x.level < lvl → x.reg (lcFlagKey x.level (9 + lvl)) % 2 = 1 → x.slot = none →
      irqRouted s c.val (irqvLine s c.val v.val) = true → x.noTrap 4 →
      Gives (.lcInterrupt c v) s (fun u => LcEntered u c.val x lvl x.pc (0x80 + v.val) v.val ∧ (∀ i, i ≠ c.val → lcOf u i = lcOf s i) ∧
        OnlyPages { s with lcs := u.lcs, seed := u.seed } u ∧ ∀ k, u.page k = s.page k)) ∧
  (∀ (s : State) (c : Fin 18) (gap : Nat) (r : LcRel) (q : List LcRel), lcUp s c.val = true → (lcOf s c.val).level = 0 → (lcOf s c.val).act = .idle →
      firstRel (lcOf s c.val).waiting = some r → q = (lcOf s c.val).waiting.erase r → (lcOf s c.val).noTrap (gap + 24) →
      Gives (.sampleStart c gap) s (fun u => (lcOf u c.val).act = .sample r.task ∧ (lcOf u c.val).waiting = q ∧ (lcOf u c.val).tick = r.tick ∧
        (lcOf u c.val).pc = rf s .lsch 0 (taskReg r.task 1) 0 14 ∧ (lcOf u c.val).cyc = (lcOf s c.val).cyc + gap + 24 ∧
        (lcOf u c.val).out = [] ∧ (lcOf u c.val).charged = 0 ∧ rb u .lsch 0 (taskReg r.task 3) 28 = true ∧
        (∀ i, i ≠ c.val → lcOf u i = lcOf s i) ∧ OnlyPages { s with lcs := u.lcs, taskFlags := u.taskFlags } u ∧
        rf u .lc c.val Reg.LC.STAT 9 7 = r.task % 128 ∧ (∀ k, k ≠ pk .lsch 0 → k ≠ pk .lc c.val → u.page k = s.page k) ∧
        OtherRegs s u .lsch 0 [taskReg r.task 3] ∧ OtherRegs s u .lc c.val [Reg.LC.STAT])) ∧
  (∀ (s : State) (c : Fin 18) (t : Nat), (lcOf s c.val).level = 0 → (lcOf s c.val).act = .sample t → lcDue s c.val = true → t < 128 →
      min (rf s .lsch 0 (taskReg t 3) 24 4 + 1) 15 ≠ rf s .lsch 0 Reg.LSCH.OVR_LIMIT 0 4 →
      Gives (.sampleCut c) s (fun u => (lcOf u c.val).act = .idle ∧ (lcOf u c.val).out = [] ∧
        rg u .lsch 0 (Reg.LSCH.OVR_CNT + 4 * t) = satInc (rg s .lsch 0 (Reg.LSCH.OVR_CNT + 4 * t)) ∧
        rf u .lsch 0 (taskReg t 3) 24 4 = min (rf s .lsch 0 (taskReg t 3) 24 4 + 1) 15 ∧ rb u .lsch 0 (taskReg t 3) 28 = false ∧
        bit (u.page (pk .lsch 0)).intRaw 0 = true ∧ (∀ i, i ≠ c.val → lcOf u i = lcOf s i) ∧
        OnlyPages { s with lcs := u.lcs, taskFlags := u.taskFlags } u ∧ OtherPages s u (pk .lsch 0) ∧
        OtherRegs s u .lsch 0 [taskReg t 3, Reg.LSCH.OVR_CNT + 4 * t, Reg.LSCH.STAT]))

/-- Stitch-over, fail-over, restart and self-test (R210 to R218). STITCH and RESTART start their operation in phase 1 with their cores in UPDATE; a
copy phase leaves program, Y and X of the source in the target; at the switch the tasks move to the target and the operation is done; a switch that does
not come ends it with WRONG_STATE; the end of the reload of a RESTART leaves the cores that took no part in it; a self-test ends with its result. -/
def Obligations.loop_scheduler_operations : Prop :=
  (∀ (s : State) (chk : BitVec 16), WaitsFree s .lsch 0 0x10 .ap0 chk →
      GivesLater (.lschStitch chk) s .lsch 0 0x10 .ap0 chk (fun u => u.lschOp.map (fun o => (o.op, o.src, o.dst, o.phase)) =
          some (1, rf s .lsch 0 Reg.LSCH.STITCH 0 5, rf s .lsch 0 Reg.LSCH.STITCH 8 5, 1) ∧
        (u.page (pk .lsch 0)).busy = true ∧ (u.page (pk .lsch 0)).prog = progWord 3 1 0 ∧ rf u .lsch 0 Reg.LSCH.STAT 0 2 = 1 ∧
        stOf u .lc (rf s .lsch 0 Reg.LSCH.STITCH 8 5) = .update ∧ CmdDone u (pk .lsch 0) (cmdWord chk 0x10) ∧
        OnlyPages { s with lschOp := u.lschOp } u ∧ OtherRegs s u .lsch 0 [Reg.LSCH.STAT])) ∧
  (∀ (s : State) (chk : BitVec 16), WaitsFree s .lsch 0 0x11 .ap0 chk →
      GivesLater (.lschRestart chk) s .lsch 0 0x11 .ap0 chk (fun u => u.lschOp.map (fun o => (o.op, o.phase)) = some (3, 1) ∧ (u.page (pk .lsch 0)).busy = true ∧
        (u.page (pk .lsch 0)).prog = progWord 3 1 0 ∧ rf u .lsch 0 Reg.LSCH.STAT 0 2 = 3 ∧ CmdDone u (pk .lsch 0) (cmdWord chk 0x11) ∧
        u.sigs = s.sigs ∧ u.now = s.now)) ∧
  (∀ (s : State) (c : Fin 18) (chk : BitVec 16), ActsNow s .lc c.val 0x10 .ap0 chk →
      Gives (.lcSelftest c chk) s (fun u => stOf u .lc c.val = .update ∧ (u.page (pk .lc c.val)).busy = true ∧
        (u.page (pk .lc c.val)).prog = progWord 1 1 0 ∧ CmdDone u (pk .lc c.val) (cmdWord chk 0x10) ∧ OnlyPages s u ∧
        OtherPages s u (pk .lc c.val) ∧ OtherRegs s u .lc c.val [])) ∧
  (∀ (s : State) (lost : List (Fin 8192)) (ecc : List (Bool × Nat)) (o : LschOp), Memory.wf s.mem = true → s.lschOp = some o → o.op = 1 →
      o.phase = 1 → o.img = false → o.src < 18 → o.dst < 18 → o.src ≠ o.dst →
      Gives (.stitchCopyEnd lost ecc) s (fun u => u.lschOp = some { o with phase := 2 } ∧ (u.page (pk .lsch 0)).prog = progWord 3 2 32 ∧
        (∀ m w, m < 3 → w < 16384 → lcMem u o.dst m w = lcMem s o.src m w) ∧
        (∀ b, ¬(lcAddr o.dst 0 0 ≤ b ∧ b < lcAddr o.dst 0 0 + 0x30000) → mem8 u b = mem8 s b) ∧
        OnlyPages { s with mem := u.mem, lschOp := u.lschOp } u ∧ OtherPages s u (pk .lsch 0) ∧ OtherRegs s u .lsch 0 [])) ∧
  (∀ (s : State) (lost : List (Fin 8192)) (ecc : List (Bool × Nat)) (o : LschOp), s.lschOp = some o → o.op = 1 → o.phase = 2 →
      (o.img = true → ecc = []) →
      Gives (.stitchCopyEnd lost ecc) s (fun u => u.lschOp = some { o with phase := 3, lost := 0 } ∧ (u.page (pk .lsch 0)).prog = progWord 0 3 0 ∧
        SameMem s u ∧ OtherPages s u (pk .lsch 0) ∧ OtherRegs s u .lsch 0 [])) ∧
  (∀ (s : State) (t op : Nat) (o : LschOp) (c : Instr), (c, op) ∈ [(Instr.stitchSwitch t, 1), (.failoverSwitch t, 2)] → s.lschOp = some o →
      powered s .time 0 = true → powered s .lsch 0 = true → tickFalls s t = true →
      o.op = op → o.phase = 3 → o.src < 18 → o.dst < 18 → (op = 1 → (lcOf s o.src).act = .idle ∧ (lcOf s o.src).waiting = []) → s.lschFoQ = [] →
      Gives c s (fun u => u.lschOp = none ∧ (∀ k, k < 128 → taskCore u k = (if taskCore s k = o.src then o.dst else taskCore s k)) ∧
        (u.page (pk .lsch 0)).busy = false ∧ (u.page (pk .lsch 0)).prog = progWord 1 15 10000 ∧
        bit (u.page (pk .lsch 0)).intRaw (if op = 1 then 2 else 3) = true ∧ standby u o.dst = standby s o.src ∧
        (op = 2 → rg u .lsch 0 Reg.LSCH.FO_CNT = satInc (rg s .lsch 0 Reg.LSCH.FO_CNT)) ∧ SameMem s u)) ∧
  (∀ (s : State) (t : Nat) (o : LschOp), s.lschOp = some o → o.op = 1 → o.phase = 3 → rf s .lsch 0 Reg.LSCH.CFG 16 16 ≤ o.wait → s.lschFoQ = [] →
      Gives (.stitchTimeout t) s (fun u => u.lschOp = none ∧ (u.page (pk .lsch 0)).busy = false ∧ fld (u.page (pk .lsch 0)).prog 24 4 = 14 ∧
        (u.page (pk .lsch 0)).err = errWord .wrongState 0x010 4 ∧ (∀ k, taskCore u k = taskCore s k) ∧ u.sigs = s.sigs ∧ SameMem s u)) ∧
  (∀ (s : State) (t : Nat) (o : LschOp), s.lschOp = some o → o.op = 2 → rf s .lsch 0 Reg.LSCH.CFG 8 8 ≤ o.wait → s.lschFoQ = [] →
      Gives (.failoverTimeout t) s (fun u => u.lschOp = none ∧ (u.page (pk .lsch 0)).busy = false ∧ fld (u.page (pk .lsch 0)).prog 24 4 = 14 ∧
        bit (u.page (pk .lsch 0)).intRaw 4 = true ∧ (∀ k, taskCore u k = taskCore s k) ∧ u.sigs = s.sigs ∧ SameMem s u)) ∧
  (∀ (s : State) (t : Nat) (c : Instr), tickFalls s t = false → c ∈ [Instr.stitchSwitch t, .failoverSwitch t] → exec c s = .next (settle s)) ∧
  (∀ (s : State) (t : Nat) (o : LschOp), s.lschOp = some o → o.op = 3 → o.phase = 1 →
      Gives (.lschRestartEnd t []) s (fun u => (∃ b, u.lschOp = some { o with phase := 2, bad := b }) ∧ u.now = max s.now t ∧ u.sigs = s.sigs ∧
        ∀ c, c < 18 → restarts s c = false → lcOf u c = lcOf s c)) ∧
  (∀ (s : State) (t : Nat) (lost : List (Fin 8192)) (ecc : List (Bool × Nat)),
      Gives (.stitchCopyEnd lost ecc) s (fun u => u.now = s.now) ∧ Gives (.lschRestartEnd t ecc) s (fun u => u.now = max s.now t)) ∧
  (∀ (s : State) (c : Fin 18) (cause : Fin 9) (w : Fin 16384), powered s .lc c.val = true → selfTesting s c.val = true →
      Gives (.lcSelftestEnd c cause w) s (fun u =>
        rg u .lc c.val Reg.LC.ST_RESULT = ofN (cause.val + (if 1 ≤ cause.val ∧ cause.val ≤ 4 then 16 * w.val else 0)) ∧
        (u.page (pk .lc c.val)).busy = false ∧
        (cause.val = 0 → stOf u .lc c.val = .idle ∧ (u.page (pk .lc c.val)).prog = progWord 1 15 10000) ∧
        (cause.val ≠ 0 → stOf u .lc c.val = .fault ∧ (lcOf u c.val).halt = 4 ∧ standby u c.val = false ∧
          (u.page (pk .lc c.val)).err = errWord .notPresent 0x010 4) ∧
        (∀ b, ¬(lcAddr c.val 0 0 ≤ b ∧ b < lcAddr c.val 0 0 + 0x30000) → mem8 u b = mem8 s b) ∧ OtherRegs s u .lc c.val [Reg.LC.ST_RESULT])) ∧
  (∀ (s : State) (chk : BitVec 16), WaitsFree s .lsch 0 0x10 .ap0 chk →
      GivesLater (.lschStitch chk) s .lsch 0 0x10 .ap0 chk (fun u => u.lschOp.map (fun o => (o.op, o.src, o.dst, o.phase)) =
          some (1, rf s .lsch 0 Reg.LSCH.STITCH 0 5, rf s .lsch 0 Reg.LSCH.STITCH 8 5, 1) ∧ (u.page (pk .lsch 0)).prog = progWord 3 1 0 ∧
        CmdDone u (pk .lsch 0) (cmdWord chk 0x10)))

/-- Sample events of control slots (R223, R225, R227, R228, R234, R235, R241). An accepted event limits the inputs, shows the measured outputs, computes
the controls from P, E, H, the shift and the correction, limits them, sends mapped controls to their compare shadows, where they arrive as R231 has it, and queues the update phase; in the DQ frame the
measured outputs are transformed and the controls limited as a vector. An event too soon is skipped and counted; one where the trigger of the slot does not fall is none. -/
def Obligations.control_samples : Prop :=
  (∀ (s : State) (k : Fin 64) (t : Nat) (e : Fin 8) (corr : List Int), stOf s .cslot k.val = .run → e.val = k.val / 8 → halted s (.ce e) = false →
      csTriggered (s.at t) k.val t = true → csEarly (s.at t) k.val t = false → corr = csCorr s k.val (repSample (s.at t) k.val t).2.2.2 →
      PageIdle s (pk .cslot k.val) → rf s .cslot k.val Reg.CSLOT.MISC 0 8 = 0 →
      Gives (.cslotSampleEvent k t) s (fun u =>
        rg u .cslot k.val Reg.CSLOT.SAMPLES = rg s .cslot k.val Reg.CSLOT.SAMPLES + 1 ∧
        ceQueue u (k.val / 8) = (ceQueue s (k.val / 8)).filter (fun j => j != k.val) ++ [k.val] ∧
        (∀ i, i < 4 → (cslotOf u k.val).rLim.getD i 0 = csSlew (sext 24 (rg s .cslot k.val (Reg.CSLOT.IN_SLEW + 4 * i)).toNat)
            ((cslotOf s k.val).rLim.getD i 0) (csRaw s k.val i) ∧
          rg u .cslot k.val (Reg.CSLOT.IN_LAG + 4 * i) = ofI (csRaw s k.val i - (cslotOf u k.val).rLim.getD i 0)) ∧
        (csDq s k.val = false →
          (∀ m, m < csNY s k.val → m < 4 → rg u .cslot k.val (Reg.CSLOT.Y_IN + 4 * m) = q23 (csY s k.val m)) ∧
          (∀ j, j < csNU s k.val → j < 4 → ∀ v, v = csControl s k.val corr (cslotOf u k.val).rLim j →
            rg u .cslot k.val (Reg.CSLOT.U_OUT + 4 * j) = ofI v ∧
            (rf s .cslot k.val (Reg.CSLOT.U_MAP + 4 * j) 0 2 = 1 →
              (∀ i, i < 4 → i ≠ j → ¬(rf s .cslot k.val (Reg.CSLOT.U_MAP + 4 * i) 0 2 = 1 ∧
                rf s .cslot k.val (Reg.CSLOT.U_MAP + 4 * i) 2 5 = rf s .cslot k.val (Reg.CSLOT.U_MAP + 4 * j) 2 5)) →
              (pwmOf u (rf s .cslot k.val (Reg.CSLOT.U_MAP + 4 * j) 2 5)).pairs =
                (pwmOf s (rf s .cslot k.val (Reg.CSLOT.U_MAP + 4 * j) 2 5)).pairs.set (rf s .cslot k.val (Reg.CSLOT.U_MAP + 4 * j) 8 2)
                { ((pwmOf s (rf s .cslot k.val (Reg.CSLOT.U_MAP + 4 * j) 2 5)).pair
                    (rf s .cslot k.val (Reg.CSLOT.U_MAP + 4 * j) 8 2)).absorb (s.lap (max s.now t))
                  with inc := some (csArrive s k.val t, dutyFrac v) }))) ∧
        (csDq s k.val = true → ∀ a, a = (if 0 < csNY s k.val then csY s k.val 0 else 0) →
          ∀ b, b = (if 1 < csNY s k.val then csY s k.val 1 else 0) → ∀ c, c = (if rf s .cslot k.val (Reg.CSLOT.Y_SRC + 8) 0 2 = 0 then -a - b else
            if 2 < csNY s k.val then csY s k.val 2 else 0) →
          ∀ y, y = [(dqForward a b c (csAngle (s.at t) k.val t).1).1, (dqForward a b c (csAngle (s.at t) k.val t).1).2, fq (a + b + c) 3,
            if 3 < csNY s k.val then csY s k.val 3 else 0] →
          ∀ m, m < 4 → rg u .cslot k.val (Reg.CSLOT.Y_IN + 4 * m) = q23 (y.getD m 0) ∧
            rg u .cslot k.val (Reg.CSLOT.U_OUT + 4 * m) = ofI ((csControls s k.val corr y (cslotOf u k.val).rLim).1.getD m 0)) ∧
        OnlyPages { s with cslots := u.cslots, pwms := u.pwms, ceQ := u.ceQ, now := max s.now t } u ∧
        (∀ i, i ≠ pk .cslot k.val → i ≠ pk .ce (k.val / 8) → u.page i = s.page i) ∧
        OtherRegs s u .cslot k.val ([Reg.CSLOT.SAMPLES, Reg.CSLOT.STAT, Reg.CSLOT.ANGLE_E, Reg.CSLOT.ANGLE_M] ++
          (List.range 4).map (fun i => Reg.CSLOT.IN_LAG + 4 * i) ++ (List.range 4).map (fun i => Reg.CSLOT.Y_IN + 4 * i) ++
          (List.range 4).map (fun i => Reg.CSLOT.U_OUT + 4 * i)) ∧
        OtherRegs s u .ce (k.val / 8) [Reg.CE.QUEUE_MAX])) ∧
  (∀ (s : State) (k : Fin 64) (t : Nat) (e : Fin 8), inSt s .cslot k.val [.run, .update] = true → e.val = k.val / 8 → halted s (.ce e) = false →
      csTriggered (s.at t) k.val t = true → csEarly (s.at t) k.val t = true →
      Gives (.cslotSampleEvent k t) s (fun u => rg u .cslot k.val Reg.CSLOT.SKIP_CNT = satInc (rg s .cslot k.val Reg.CSLOT.SKIP_CNT) ∧
        bit (u.page (pk .cslot k.val)).intRaw 0 = true ∧ cslotOf u k.val = { cslotOf s k.val with trg := none, took := some t } ∧
        OnlyPages { s with cslots := u.cslots, now := max s.now t } u ∧ OtherPages s u (pk .cslot k.val) ∧
        OtherRegs s u .cslot k.val [Reg.CSLOT.SKIP_CNT])) ∧
  (∀ (s : State) (k : Fin 64) (t : Nat), csTriggered (s.at t) k.val t = false → exec (.cslotSampleEvent k t) s = .next (settle (s.at t)))

/-- Update phases of control slots (R223, R225, R235, R238). The engine serves the slot at the front of its queue: RESID, the next state of every row
saturated to 32 bits, P and ŷ of it; a learning channel updates the bin of its angle. A count of implausible samples at PLAUS.CNT raises the fault once;
the watchdog and RT_MAX raise theirs; the watchdog with a fallback enters it. -/
def Obligations.control_updates : Prop :=
  (∀ (s : State) (e : Fin 8) (t k : Nat) (q : List Nat) (w : CsWork), halted s (.ce e) = false → ceQueue s e.val = k :: q →
      (cslotOf s k).work = some w → inSt s .cslot k [.run, .update] = true → w.fresh = false → rf s .cslot k Reg.CSLOT.PLAUS 0 8 = 0 →
      csNS s k ≤ 8 → csNY s k ≤ 4 →
      Gives (.updatePhase e t none) s (fun u => ceQueue u e.val = q ∧ (cslotOf u k).work = none ∧
        (∀ m, m < csNY s k → rg u .cslot k (Reg.CSLOT.RESID + 4 * m) = satI32 (w.y.getD m 0 - (cslotOf s k).yhat.getD m 0)) ∧
        (∀ r, r < csNS s k → rg u .cslot k (Reg.CSLOT.XHAT + 4 * r) = satI32 (csNext s k w r)) ∧
        (cslotOf u k).p = csP u k ∧ (cslotOf u k).yhat = csYhat u k ∧
        OnlyPublished { s with cslots := u.cslots, ceQ := u.ceQ, now := max s.now t } u [pk .cslot k] ∧
        OtherRegs s u .cslot k ([Reg.CSLOT.PLAUS_CNT, Reg.CSLOT.STAT] ++ (List.range 4).map (fun m => Reg.CSLOT.RESID + 4 * m) ++
          (List.range (csNS s k)).map (fun r => Reg.CSLOT.XHAT + 4 * r)))) ∧
  (∀ (s : State) (e : Fin 8) (t k c b : Nat) (q : List Nat) (w : CsWork), halted s (.ce e) = false → ceQueue s e.val = k :: q →
      (cslotOf s k).work = some w → inSt s .cslot k [.run, .update] = true → w.fresh = false → rf s .cslot k Reg.CSLOT.PLAUS 0 8 = 0 →
      w.repOn = true → (s.page (pk .cslot k)).busy = false → c < 4 → (∀ i, i < 4 → rb s .cslot k Reg.CSLOT.STAT i = decide (i = c)) →
      rb s .cslot k Reg.CSLOT.REP_CFG 4 = false → w.lim / 2 ^ rf s .cslot k (Reg.CSLOT.REP_CH + 4 * c) 8 2 % 2 = 0 → b = 4096 * w.theta / repDen s k →
      Gives (.updatePhase e t none) s (fun u =>
        repBin (cslotOf u k) c b = clampI (-8388608) 8388607 (fq (sext 24 (rg s .cslot k (Reg.CSLOT.REP_FORGET + 4 * c)).toNat * repBin (cslotOf s k) c b +
          sext 24 (rg s .cslot k (Reg.CSLOT.REP_GAIN + 4 * c)).toNat * (w.r.getD (rf s .cslot k (Reg.CSLOT.REP_CH + 4 * c) 0 2) 0 -
            w.y.getD (rf s .cslot k (Reg.CSLOT.REP_CH + 4 * c) 4 2) 0)) 8388608) ∧
        (∀ c' b', 4096 * c' + b' % 4096 ≠ 4096 * c + b % 4096 → repBin (cslotOf u k) c' b' = repBin (cslotOf s k) c' b') ∧ SameMem s u)) ∧
  (∀ (s : State) (k : Fin 64) (t : Nat), stOf s .cslot k.val = .run → rf s .cslot k.val Reg.CSLOT.MISC 0 8 ≠ 0 →
      (cslotOf s k.val).dog = rf s .cslot k.val Reg.CSLOT.MISC 0 8 →
      (rb s .cslot k.val Reg.CSLOT.FB_CFG 0 = true → Gives (.inputWatchdog k t) s (fun u => stOf u .cslot k.val = .update ∧
        rb u .cslot k.val Reg.CSLOT.STAT 12 = true ∧ bit (u.page (pk .cslot k.val)).intRaw 5 = true ∧ (cslotOf u k.val).rtFrom = (s.at t).lap t ∧
        (cslotOf u k.val).fbI = (cslotOf s k.val).rLim.getD (rf s .cslot k.val Reg.CSLOT.FB_CFG 1 2) 0 * 8388608 ∧
        OnlyPages { s with cslots := u.cslots, now := max s.now t } u ∧ (∀ i, i ≠ pk .cslot k.val → i ≠ pk .ce (k.val / 8) → u.page i = s.page i) ∧
        OtherRegs s u .cslot k.val [Reg.CSLOT.STAT])) ∧
      (rb s .cslot k.val Reg.CSLOT.FB_CFG 0 = false → (cslotOf s k.val).dogSaid < rf s .cslot k.val Reg.CSLOT.MISC 0 8 → RaiseLogs (s.at t) 0x05 .cslot k.val 0 → Gives (.inputWatchdog k t) s (fun u =>
        bit (u.page (pk .cslot k.val)).intRaw 10 = true ∧ (cslotOf u k.val).dogSaid = (cslotOf s k.val).dog ∧ stOf u .cslot k.val = .run ∧ Logged u 0x05 .cslot k.val 0 ∧
        OnlyPages { s with cslots := u.cslots, flog := u.flog, now := max s.now t } u ∧
        (∀ i, i ≠ pk .cslot k.val → i ≠ pk .flt 0 → u.page i = s.page i) ∧ OtherRegs s u .cslot k.val []))) ∧
  (∀ (s : State) (k : Fin 64) (t : Nat), stOf s .cslot k.val = .update → (cslotOf s k.val).expired = false →
      (cslotOf s k.val).rtFrom + 8000000 * (rg s .cslot k.val Reg.CSLOT.RT_MAX).toNat ≤ (s.at t).lap t → RaiseLogs (s.at t) 0x06 .cslot k.val 0 →
      Gives (.rtExpired k t) s (fun u => (cslotOf u k.val).expired = true ∧ bit (u.page (pk .cslot k.val)).intRaw 7 = true ∧
        stOf u .cslot k.val = .update ∧ Logged u 0x06 .cslot k.val 0 ∧ OnlyPages { s with cslots := u.cslots, flog := u.flog, now := max s.now t } u ∧
        (∀ i, i ≠ pk .cslot k.val → i ≠ pk .flt 0 → u.page i = s.page i) ∧ OtherRegs s u .cslot k.val [])) ∧
  (∀ (s : State) (k : Fin 64), inSt s .cslot k.val [.run, .update] = true → rf s .cslot k.val Reg.CSLOT.PLAUS 0 8 ≠ 0 →
      rf s .cslot k.val Reg.CSLOT.PLAUS 0 8 ≤ (rg s .cslot k.val Reg.CSLOT.PLAUS_CNT).toNat → (cslotOf s k.val).told = false →
      (∀ m, RaiseLogs s 0x04 .cslot k.val m) →
      Gives (.plausFault k) s (fun u => bit (u.page (pk .cslot k.val)).intRaw 4 = true ∧ (∃ m, Logged u 0x04 .cslot k.val m) ∧
        (rb s .cslot k.val Reg.CSLOT.PLAUS 8 = false → stOf u .cslot k.val = stOf s .cslot k.val ∧ rb u .cslot k.val Reg.CSLOT.STAT 15 = true ∧
          (cslotOf u k.val).told = true ∧ OnlyPages { s with cslots := u.cslots, flog := u.flog } u ∧
          (∀ i, i ≠ pk .cslot k.val → i ≠ pk .flt 0 → u.page i = s.page i) ∧ OtherRegs s u .cslot k.val [Reg.CSLOT.STAT]) ∧
        (rb s .cslot k.val Reg.CSLOT.PLAUS 8 = true → stOf u .cslot k.val = .fault ∧
          (∀ j, j < 4 → rg u .cslot k.val (Reg.CSLOT.U_OUT + 4 * j) = 0) ∧ SameMem s u)))

/-- Commands of control slots and engines (R226, R238, R240, R242, R246, R248, Table 8-6). REP_LEARN starts the enabled channels of a running slot at its next
sample event, REP_FREEZE stops them, REP_CLEAR clears the tables as a long operation, RIDE enters the fallback, RESET_STATE takes x̂ to X_INIT; the table
window writes and reads a bin; an engine with its microcode enters RUN and its enabled slots IDLE. -/
def Obligations.control_commands : Prop :=
  (∀ (s : State) (k : Fin 64) (t : Nat) (chk : BitVec 16), WaitsFree s .cslot k.val 0x10 .ap0 chk → SampleFalls s k t →
      rf s .cslot k.val Reg.CSLOT.MISC 0 8 = 0 →
      GivesAtSample (.repLearn k chk) s k t 0x10 chk (fun u =>
        (∀ c, c < 4 → rb u .cslot k.val Reg.CSLOT.STAT c = (rb s .cslot k.val Reg.CSLOT.STAT c || rb s .cslot k.val Reg.CSLOT.REP_CFG c)) ∧
        CmdDone u (pk .cslot k.val) (cmdWord chk 0x10) ∧ (∀ i, i ≠ pk .cslot k.val → i ≠ pk .ce (k.val / 8) → u.page i = s.page i) ∧
        u.sigs = s.sigs ∧ SameMem s u)) ∧
  (∀ (s : State) (k : Fin 64) (chk : BitVec 16), ActsNow s .cslot k.val 0x11 .ap0 chk →
      Gives (.repFreeze k chk) s (fun u => rf u .cslot k.val Reg.CSLOT.STAT 0 4 = 0 ∧ CmdDone u (pk .cslot k.val) (cmdWord chk 0x11) ∧ OnlyPages s u ∧
        OtherPages s u (pk .cslot k.val) ∧ OtherRegs s u .cslot k.val [Reg.CSLOT.STAT])) ∧
  (∀ (s : State) (k : Fin 64) (t : Nat) (chk : BitVec 16), WaitsFree s .cslot k.val 0x11 .ap0 chk → SampleFalls s k t →
      rf s .cslot k.val Reg.CSLOT.MISC 0 8 = 0 →
      GivesAtSample (.repFreeze k chk) s k t 0x11 chk (fun u => rf u .cslot k.val Reg.CSLOT.STAT 0 4 = 0 ∧
        CmdDone u (pk .cslot k.val) (cmdWord chk 0x11) ∧ (∀ i, i ≠ pk .cslot k.val → i ≠ pk .ce (k.val / 8) → u.page i = s.page i) ∧
        u.sigs = s.sigs ∧ SameMem s u)) ∧
  (∀ (s : State) (k : Fin 64) (chk : BitVec 16), ActsNow s .cslot k.val 0x12 .ap0 chk →
      Gives (.repClear k chk) s (fun u => (u.page (pk .cslot k.val)).busy = true ∧ (u.page (pk .cslot k.val)).prog = progWord 1 1 0 ∧
        cslotOf u k.val = { cslotOf s k.val with corr := [0, 0, 0, 0] } ∧ CmdDone u (pk .cslot k.val) (cmdWord chk 0x12) ∧
        OnlyPages { s with cslots := u.cslots } u ∧ OtherPages s u (pk .cslot k.val) ∧ OtherRegs s u .cslot k.val [])) ∧
  (∀ (s : State) (k : Fin 64), powered s .cslot k.val = true → (s.page (pk .cslot k.val)).busy = true →
      Gives (.repClearEnd k) s (fun u => (∀ c b, repBin (cslotOf u k.val) c b = 0) ∧ (u.page (pk .cslot k.val)).busy = false ∧
        (u.page (pk .cslot k.val)).prog = progWord 1 15 10000 ∧ bit (u.page (pk .cslot k.val)).intRaw 28 = true ∧
        OnlyPages { s with cslots := u.cslots } u ∧ OtherPages s u (pk .cslot k.val) ∧ OtherRegs s u .cslot k.val [])) ∧
  (∀ (s : State) (k : Fin 64) (t : Nat) (chk : BitVec 16), WaitsFree s .cslot k.val 0x13 .ap0 chk → SampleFalls s k t →
      (cslotOf s k.val).written / 2 ^ rf s .cslot k.val Reg.CSLOT.FB_CFG 1 2 % 2 = 0 →
      GivesAtSample (.cslotRide k chk) s k t 0x13 chk (fun u => stOf u .cslot k.val = .update ∧ rb u .cslot k.val Reg.CSLOT.STAT 12 = true ∧
        bit (u.page (pk .cslot k.val)).intRaw 5 = true ∧ (cslotOf u k.val).rtFrom = s.lap (max s.now t) ∧
        (cslotOf u k.val).fbI = (cslotOf s k.val).rLim.getD (rf s .cslot k.val Reg.CSLOT.FB_CFG 1 2) 0 * 8388608 ∧
        CmdDone u (pk .cslot k.val) (cmdWord chk 0x13) ∧ (∀ i, i ≠ pk .cslot k.val → i ≠ pk .ce (k.val / 8) → u.page i = s.page i) ∧
        u.sigs = s.sigs ∧ SameMem s u)) ∧
  (∀ (s : State) (k : Fin 64) (chk : BitVec 16), ActsNow s .cslot k.val 0x14 .ap0 chk →
      Gives (.resetState k chk) s (fun u =>
        (∀ r, r < 8 → rg u .cslot k.val (Reg.CSLOT.XHAT + 4 * r) = (if r < csNS s k.val then rg s .cslot k.val (Reg.CSLOT.X_INIT + 4 * r) else 0)) ∧
        (cslotOf u k.val).p = csP u k.val ∧ (cslotOf u k.val).yhat = csYhat u k.val ∧ CmdDone u (pk .cslot k.val) (cmdWord chk 0x14) ∧
        OnlyPages { s with cslots := u.cslots } u ∧ OtherPages s u (pk .cslot k.val) ∧
        OtherRegs s u .cslot k.val ((List.range 8).map (fun r => Reg.CSLOT.XHAT + 4 * r)))) ∧
  (∀ (s : State) (k : Fin 64) (t : Nat) (chk : BitVec 16), WaitsFree s .cslot k.val 0x14 .ap0 chk → SampleFalls s k t →
      rf s .cslot k.val Reg.CSLOT.MISC 0 8 = 0 →
      GivesAtSample (.resetState k chk) s k t 0x14 chk (fun u =>
        (∀ r, r < 8 → rg u .cslot k.val (Reg.CSLOT.XHAT + 4 * r) = (if r < csNS s k.val then rg s .cslot k.val (Reg.CSLOT.X_INIT + 4 * r) else 0)) ∧
        CmdDone u (pk .cslot k.val) (cmdWord chk 0x14) ∧ (∀ i, i ≠ pk .cslot k.val → i ≠ pk .ce (k.val / 8) → u.page i = s.page i) ∧
        u.sigs = s.sigs ∧ SameMem s u)) ∧
  (∀ (s : State) (k : Fin 64) (v : Word) (c b : Nat), answers s ⟨.cslot, k.val⟩ = true → (s.page (pk .cslot k.val)).key ≠ .window →
      (s.page (pk .cslot k.val)).locked = false → c = rf s .cslot k.val Reg.CSLOT.REP_IDX 12 2 → b = rf s .cslot k.val Reg.CSLOT.REP_IDX 0 12 →
      (rb s .cslot k.val Reg.CSLOT.STAT c = false → Gives (.repDataAccess k (some v)) s (fun u => repBin (cslotOf u k.val) c b = sext 24 v.toNat ∧
        (∀ c' b', 4096 * c' + b' % 4096 ≠ 4096 * c + b → repBin (cslotOf u k.val) c' b' = repBin (cslotOf s k.val) c' b') ∧
        rf u .cslot k.val Reg.CSLOT.REP_IDX 0 12 = (if rb s .cslot k.val Reg.CSLOT.REP_IDX 15 then (b + 1) % 4096 else b) ∧
        OnlyPages { s with cslots := u.cslots } u ∧ OtherPages s u (pk .cslot k.val) ∧ OtherRegs s u .cslot k.val [Reg.CSLOT.REP_IDX])) ∧
      (rb s .cslot k.val Reg.CSLOT.STAT c = true → Gives (.repDataAccess k (some v)) s (fun u =>
        (u.page (pk .cslot k.val)).err = errWord .conflict Reg.CSLOT.REP_DATA 3 ∧ cslotOf u k.val = cslotOf s k.val ∧ OnlyPages s u)) ∧
      Gives (.repDataAccess k none) s (fun u => u.resp = ⟨ofI (repBin (cslotOf s k.val) c b), 0, .ok⟩ ∧
        rf u .cslot k.val Reg.CSLOT.REP_IDX 0 12 = (if rb s .cslot k.val Reg.CSLOT.REP_IDX 15 then (b + 1) % 4096 else b) ∧
        OnlyPages { s with resp := u.resp } u ∧ OtherPages s u (pk .cslot k.val) ∧ OtherRegs s u .cslot k.val [Reg.CSLOT.REP_IDX, Reg.CSLOT.REP_DATA])) ∧
  (∀ (s : State) (e : Fin 8) (t : Nat), powered s .ce e.val = true → (s.page (pk .ce e.val)).en = true → stOf s .ce e.val = .off →
      Gives (.ceUcodeLoaded e t) s (fun u => stOf u .ce e.val = .run ∧
        (∀ k, k / 8 = e.val → (s.page (pk .cslot k)).en = true → inSt s .cslot k [.off, .fault] = true → stOf u .cslot k = .idle) ∧
        OnlyPages { s with now := max s.now t } u ∧
        (∀ i, i ≠ pk .ce e.val → (∀ j, j < 8 → i ≠ pk .cslot (8 * e.val + j)) → u.page i = s.page i)))

/-- Periods of PWM modules (R251 to R260, R262, R273). The zero event of a running module counts the period, stamps it, takes T and, where CFG.LOAD names
it, loads each pair: its on-time, the delivery of short periods with their accumulators, the clamp and the force. The period event of an up-down
module turns the counter. A trigger output fires on the event its SKEW names. Nothing else changes but what is published. An event
at no instant of its module changes nothing. -/
def Obligations.pwm_periods : Prop :=
  (∀ (s : State) (n : Fin 32) (t tt : Nat), stOf s .pwm n.val = .run → s.pwmClkLost = false → pwmNextZero s n.val = some t →
      PageIdle s (pk .pwm n.val) → tt = pwmT s n.val →
      Gives (.pwmZeroEvent n t) s (fun u =>
        rg u .pwm n.val Reg.PWM.PERIOD_CNT = rg s .pwm n.val Reg.PWM.PERIOD_CNT + 1 ∧ (pwmOf u n.val).run = true ∧ (pwmOf u n.val).zero = t ∧
        (pwmOf u n.val).per = tt ∧ rg u .pwm n.val Reg.PWM.PERIOD_ACT = ofN tt ∧ rg u .pwm n.val Reg.PWM.ZERO_TS_LO = tsLo (devTime t) ∧
        rg u .pwm n.val Reg.PWM.ZERO_TS_HI = tsHi (devTime t) ∧ bit (u.page (pk .pwm n.val)).intRaw 0 = true ∧
        (pwmUpDown s n.val = false → bit (u.page (pk .pwm n.val)).intRaw 1 = true) ∧
        (rf s .pwm n.val Reg.PWM.CFG 2 2 = 0 ∨ rf s .pwm n.val Reg.PWM.CFG 2 2 = 2 → ∀ p, p < 3 → ∀ d, d = pwmOn s n.val p tt (s.lap t) →
          ∀ r, r = pwmDelivers s n.val p tt d →
          rg u .pwm n.val (Reg.PWM.CMP_ACT + 4 * p) = ofN d ∧ ((pwmOf u n.val).pair p).d1 = r.d ∧ ((pwmOf u n.val).pair p).d2 = r.d ∧
          ((pwmOf u n.val).pair p).qh = r.qh ∧ ((pwmOf u n.val).pair p).ql = r.ql ∧ rb u .pwm n.val Reg.PWM.STAT (19 + p) = r.short ∧
          rg u .pwm n.val (Reg.PWM.CARRY_ACC + 4 * p) = ofN (r.qh % 65536 + 65536 * (r.ql % 65536)) ∧
          (rf s .pwm n.val (Reg.PWM.PAIR_CFG + 4 * p) 2 2 = 0 → rb u .pwm n.val Reg.PWM.STAT (16 + p) =
            (!rb s .pwm n.val Reg.PWM.CFG 4 && decide (tt < rf s .pwm n.val (Reg.PWM.CMP + 4 * p) 0 24))) ∧
          ((pwmOf u n.val).pair p).force = rf s .pwm n.val Reg.PWM.FORCE (2 * p) 2) ∧
        ((∀ k, k < 4 → rb s .pwm n.val (Reg.PWM.TRG_CFG + 4 * k) 2 = false) →
          OnlyPublished { s with pwms := u.pwms, now := max s.now t } u [pk .pwm n.val] ∧ (∀ i, i ≠ n.val → pwmOf u i = pwmOf s i)) ∧
        OtherRegs s u .pwm n.val ([Reg.PWM.PERIOD_CNT, Reg.PWM.PERIOD_ACT, Reg.PWM.ZERO_TS_LO, Reg.PWM.ZERO_TS_HI, Reg.PWM.COUNT, Reg.PWM.STAT, Reg.PWM.SYNC_DEV,
          Reg.PWM.SHORT_CNT] ++ (List.range 3).map (fun p => Reg.PWM.CMP_ACT + 4 * p) ++ (List.range 3).map (fun p => Reg.PWM.CARRY_ACC + 4 * p)))) ∧
  (∀ (s : State) (n : Fin 32) (t tt : Nat), stOf s .pwm n.val = .run → s.pwmClkLost = false → PageIdle s (pk .pwm n.val) → (pwmOf s n.val).run = true →
      pwmUpDown s n.val = true → (pwmOf s n.val).mid = none → t = (pwmOf s n.val).zero + (pwmOf s n.val).per / 2 → tt = pwmT s n.val →
      Gives (.pwmPeriodEvent n t) s (fun u => (pwmOf u n.val).mid = some t ∧ (pwmOf u n.val).zero = (pwmOf s n.val).zero ∧
        rb u .pwm n.val Reg.PWM.STAT 0 = true ∧ bit (u.page (pk .pwm n.val)).intRaw 1 = true ∧ rg u .pwm n.val Reg.PWM.PERIOD_ACT = ofN tt ∧
        (rf s .pwm n.val Reg.PWM.CFG 2 2 = 1 ∨ rf s .pwm n.val Reg.PWM.CFG 2 2 = 2 → ∀ p, p < 3 →
          rg u .pwm n.val (Reg.PWM.CMP_ACT + 4 * p) = ofN (pwmOn s n.val p tt (s.lap t))) ∧
        (∀ p, p < 3 → p < (pwmOf s n.val).pairs.length → ∀ y z r d, y = (pwmOf s n.val).pair p → z = (pwmOf u n.val).pair p →
          d = pwmOn s n.val p tt (s.lap t) → r = pwmDelivers s n.val p tt d → z.d1 = y.d1 ∧
          (rf s .pwm n.val Reg.PWM.CFG 2 2 = 1 → rf s .pwm n.val (Reg.PWM.PAIR_CFG + 4 * p) 2 2 ≠ 0 → z.d2 = r.d ∧ z.qh = r.qh ∧ z.ql = r.ql) ∧
          (rf s .pwm n.val Reg.PWM.CFG 2 2 = 2 ∨ (rf s .pwm n.val Reg.PWM.CFG 2 2 = 1 ∧ rf s .pwm n.val (Reg.PWM.PAIR_CFG + 4 * p) 2 2 = 0) →
            z.d2 = (if pwmRaw s n.val p (s.lap t) = y.raw then
              deliverKept (pwmOf s n.val).per tt (rg s .pwm n.val (Reg.PWM.CMP_ACT + 4 * p)).toNat d y.d2 else d) ∧ z.qh = y.qh ∧ z.ql = y.ql)) ∧
        ((∀ k, k < 4 → rb s .pwm n.val (Reg.PWM.TRG_CFG + 4 * k) 2 = false) →
          OnlyPublished { s with pwms := u.pwms, now := max s.now t } u [pk .pwm n.val] ∧ (∀ i, i ≠ n.val → pwmOf u i = pwmOf s i)) ∧
        OtherRegs s u .pwm n.val ([Reg.PWM.PERIOD_ACT, Reg.PWM.COUNT, Reg.PWM.STAT, Reg.PWM.SHORT_CNT] ++ (List.range 3).map (fun p => Reg.PWM.CMP_ACT + 4 * p) ++
          (List.range 3).map (fun p => Reg.PWM.CARRY_ACC + 4 * p)))) ∧
  (∀ (s : State) (n : Fin 32) (k : Fin 4) (t e : Nat), pwmCounts s n.val = true → rb s .pwm n.val (Reg.PWM.TRG_CFG + 4 * k.val) 2 = true →
      rf s .pwm n.val (Reg.PWM.TRG_CFG + 4 * k.val) 0 2 = 3 → rf s .pwm n.val (Reg.PWM.TRG_POS + 4 * k.val) 0 24 < (pwmOf s n.val).per →
      t = (pwmOf s n.val).zero + rf s .pwm n.val (Reg.PWM.TRG_POS + 4 * k.val) 0 24 → e = (pwmOf s n.val).evts.getD k.val 0 →
      Gives (.pwmPositionTrigger n k t) s (fun u => (pwmOf u n.val).evts = (pwmOf s n.val).evts.set k.val (e + 1) ∧
        (pwmOf u n.val).fired = (if e % (rf s .pwm n.val (Reg.PWM.TRG_CFG + 4 * k.val) 4 4 + 1) = rf s .pwm n.val (Reg.PWM.TRG_CFG + 4 * k.val) 8 4
          then (pwmOf s n.val).fired.set k.val ((pwmOf s n.val).fired.getD k.val 0 + 1) else (pwmOf s n.val).fired) ∧
        (e % (rf s .pwm n.val (Reg.PWM.TRG_CFG + 4 * k.val) 4 4 + 1) ≠ rf s .pwm n.val (Reg.PWM.TRG_CFG + 4 * k.val) 8 4 →
          OnlyPages { s with pwms := u.pwms, now := max s.now t } u ∧ ∀ i, u.page i = s.page i))) ∧
  (∀ (s : State) (n : Fin 32) (v : Word), answers s ⟨.pwm, n.val⟩ = true → (s.page (pk .pwm n.val)).key ≠ .window →
      (s.page (pk .pwm n.val)).locked = false →
      Gives (.forceWrite n v) s (fun u => rg u .pwm n.val Reg.PWM.FORCE = v &&& 0x3F ∧ pwmOf u n.val = pwmOf s n.val ∧ OnlyPages s u ∧
        OtherPages s u (pk .pwm n.val) ∧ OtherRegs s u .pwm n.val [Reg.PWM.FORCE])) ∧
  (∀ (s : State) (n : Fin 32) (t : Nat), (pwmNextZero s n.val ≠ some t → exec (.pwmZeroEvent n t) s = .next (settle s)) ∧
      (t ≠ (pwmOf s n.val).zero + (pwmOf s n.val).per / 2 ∨ (pwmOf s n.val).mid.isSome = true → exec (.pwmPeriodEvent n t) s = .next (settle s)))

/-- Fault inputs and what else stops a PWM module (R263 to R266, R268, Table 9-4). A pin that is enabled and active latches in RUN; its mapped modules in
RUN or HOLD go SAFE and their outputs with inactive safe levels are inactive at every later time. CLEAR clears the latches of CLR_MASK. The loss of
the island clock is raised and its return takes counting modules to FAULT. A readback mismatch counts, shows its output and is raised. -/
def Obligations.pwm_stops : Prop :=
  (∀ (s : State) (raw : BitVec 16) (t : Nat) (p : Fin 16), stOf s .fin 0 = .run → rb s .fin 0 Reg.FIN.CFG (16 + p.val) = true →
      (∀ i, i < 16 → ((finEnabled s i = true ∧ raw.getLsbD i ≠ rb s .fin 0 Reg.FIN.CFG i ∧ rb s .fin 0 Reg.FIN.LATCH i = false) ↔ i = p.val)) →
      Gives (.finTrip raw t) s (fun u => u.finRaw = raw ∧ rb u .fin 0 Reg.FIN.LATCH p.val = true ∧ bit (u.page (pk .fin 0)).intRaw p.val = true ∧
        (∀ i, i < 16 → rb u .fin 0 Reg.FIN.LEVEL i = (raw.getLsbD i != rb s .fin 0 Reg.FIN.CFG i)) ∧
        (rg s .fin 0 Reg.FIN.LATCH = 0 → rg u .fin 0 Reg.FIN.FIRST = ofN (p.val + 256) ∧ ∃ d, d < 21 ∧
          rg u .fin 0 Reg.FIN.TRIP_TS_LO = tsLo (devTime (t + d - 10)) ∧ rg u .fin 0 Reg.FIN.TRIP_TS_HI = tsHi (devTime (t + d - 10))) ∧
        (rg s .fin 0 Reg.FIN.LATCH ≠ 0 → rg u .fin 0 Reg.FIN.FIRST = rg s .fin 0 Reg.FIN.FIRST) ∧
        (∀ n, n < 32 → rb s .fin 0 (Reg.FIN.MAP + 4 * p.val) n = true →
          (inSt s .pwm n [.run, .hold] = true → stOf u .pwm n = .safe ∧ rb u .pwm n Reg.PWM.STAT 4 = true) ∧
          ∀ q, q < 3 → fld (pairPads s n q) 6 2 = 0 → ∀ t', pwmOut u n q t' = (false, false)) ∧
        (RaiseLogs s 0x01 .fin 0 p.val → Logged u 0x01 .fin 0 p.val ∧
          OnlyPages { s with finRaw := raw, pwms := u.pwms, flog := u.flog, holds := u.holds, seed := u.seed, now := max s.now t } u ∧
          (∀ i, i ≠ pk .fin 0 → i ≠ pk .flt 0 → (∀ n, n < 32 → rb s .fin 0 (Reg.FIN.MAP + 4 * p.val) n = true → i ≠ pk .pwm n) → u.page i = s.page i) ∧
          OtherRegs s u .fin 0 [Reg.FIN.LATCH, Reg.FIN.FIRST, Reg.FIN.TRIP_TS_LO, Reg.FIN.TRIP_TS_HI, Reg.FIN.LEVEL]))) ∧
  (∀ (s : State) (raw : BitVec 16) (t : Nat), stOf s .fin 0 = .run →
      (∀ i, i < 16 → ¬(finEnabled s i = true ∧ raw.getLsbD i ≠ rb s .fin 0 Reg.FIN.CFG i ∧ rb s .fin 0 Reg.FIN.LATCH i = false)) →
      Gives (.finTrip raw t) s (fun u => (∀ i, i < 16 → rb u .fin 0 Reg.FIN.LEVEL i = (raw.getLsbD i != rb s .fin 0 Reg.FIN.CFG i)) ∧
        OnlyPages { s with finRaw := raw, now := max s.now t } u ∧ OtherPages s u (pk .fin 0) ∧ OtherRegs s u .fin 0 [Reg.FIN.LEVEL])) ∧
  (∀ (s : State) (chk : BitVec 16), ActsNow s .fin 0 0x10 .ap0 chk →
      Gives (.finClear chk) s (fun u => (∀ p, p < 16 → rb u .fin 0 Reg.FIN.LATCH p = (rb s .fin 0 Reg.FIN.LATCH p && !rb s .fin 0 Reg.FIN.CLR_MASK p)) ∧
        CmdDone u (pk .fin 0) (cmdWord chk 0x10) ∧ OnlyPages { s with flog := u.flog, holds := u.holds } u ∧
        (∀ i, i ≠ pk .fin 0 → i ≠ pk .flt 0 → u.page i = s.page i) ∧ OtherRegs s u .fin 0 [Reg.FIN.LATCH])) ∧
  (∀ (s : State) (t : Nat), s.pwmClkLost = false →
      Gives (.pwmClockLoss t) s (fun u => u.pwmClkLost = true ∧ (∀ n, n < 32 → ∀ q, q < 3 → fld (SMap.get (fun _ => 0) s.pwmPads (4 * n + q)) 6 2 = 0 →
          ∀ t', pwmOut u n q t' = (false, false)) ∧
        ((∀ g, g < 32 → reaction s 0x02 g < 3) → (∀ n, (pwmOf u n).run = (pwmOf s n).run ∧ (pwmOf u n).zero = (pwmOf s n).zero) ∧
          (∀ n, n < 32 → pwmCounts s n = true → rb u .pwm n Reg.PWM.STAT 1 = false ∧ OtherRegs s u .pwm n [Reg.PWM.STAT]) ∧
          OnlyPages { s with pwmClkLost := true, pwms := u.pwms, flog := u.flog, holds := u.holds, seed := u.seed, now := max s.now t } u ∧
          (∀ i, i ≠ pk .flt 0 → (∀ n, n < 32 → pwmCounts s n = true → i ≠ pk .pwm n) → u.page i = s.page i)))) ∧
  (∀ (s : State) (t : Nat), s.pwmClkLost = true →
      Gives (.pwmClockReturn t) s (fun u => u.pwmClkLost = false ∧ (∀ n, n < 32 → (pwmOf s n).run = true → inSt s .pwm n [.run, .hold, .safe, .fault] = true →
          stOf u .pwm n = .fault ∧ rb u .pwm n Reg.PWM.STAT 7 = true) ∧
        OnlyPages { s with pwmClkLost := false, pwms := u.pwms, flog := u.flog, holds := u.holds, seed := u.seed, now := max s.now t } u ∧
        (∀ i, i ≠ pk .flt 0 → (∀ n, n < 32 → (pwmOf s n).run = true → i ≠ pk .pwm n) → u.page i = s.page i))) ∧
  (∀ (s : State) (n : Fin 32) (out : Fin 6) (held : Nat), 10 * rf s .pwm n.val Reg.PWM.RB_T 0 8 ≤ held → stOf s .pwm n.val ≠ .off →
      Gives (.pwmReadbackMismatch n out held) s (fun u => rb u .pwm n.val Reg.PWM.STAT (24 + out.val) = true ∧
        rg u .pwm n.val Reg.PWM.RB_CNT = satInc (rg s .pwm n.val Reg.PWM.RB_CNT) ∧ bit (u.page (pk .pwm n.val)).intRaw 5 = true ∧
        (rb s .pwm n.val Reg.PWM.CFG 15 = true → stOf u .pwm n.val = .fault) ∧
        (RaiseLogs s 0x03 .pwm n.val 0 → Logged u 0x03 .pwm n.val 0 ∧
          (rb s .pwm n.val Reg.PWM.CFG 15 = false → stOf u .pwm n.val = stOf s .pwm n.val ∧ OnlyPages { s with flog := u.flog } u ∧
            OtherRegs s u .pwm n.val [Reg.PWM.STAT, Reg.PWM.RB_CNT]) ∧
          (∀ i, i ≠ pk .pwm n.val → i ≠ pk .flt 0 → u.page i = s.page i))))

/-- Fast conversions (R277 to R283, R294). An effective trigger of an idle channel in RUN waits for its converter and occupies it; one that meets a trigger is
lost and counted; an INTERVAL opens with its first. A conversion's end shows the mean of its codes, corrected by the serving converter's coefficients, the
last code, their number and the sampling time, and publishes; limits count results outside and raise at LIM_N, and a result within them ends LIM_FAULT whatever LIM_EN says. TRIGGER triggers after DELAY. A trigger not due and
an end that has not come change nothing. -/
def Obligations.fast_conversions : Prop :=
  (∀ (s : State) (c : Fin 96) (t g v f : Nat) (chk : BitVec 16), stOf s .fch c.val = .run → rf s .fch c.val Reg.FCH.CFG 0 2 ≠ 2 →
      (fchOf s c.val).trig = none → g = chGroup c.val → (fcgOf s g).cur = none → (fcgOf s g).back = none → (fcgOf s g).toPark = none →
      v = chServer s c.val → f = SMap.get (fun _ => 0) (fcgOf s g).free v → convJobs s g v = [] →
      (PageIdle s (pk .fch c.val) → fchDueAt s c.val t = true → Gives (.fchEffectiveTrigger c t) s (fun u =>
        fchOf u c.val = { fchTake s c.val t |> (fchOf · c.val) with
          trig := some (s.lap t), start := max (s.lap t) f, by_ := v, latch := (fchOf u c.val).latch } ∧
        (∀ i, i ≠ c.val → fchOf u i = fchOf s i) ∧
        OnlyPages { s with fchs := u.fchs, now := max s.now t } u ∧ ∀ k, u.page k = s.page k)) ∧
      (ActsNow s .fch c.val 0x10 .ap0 chk → t = s.now → Gives (.fchTrigger c chk) s (fun u =>
        (rf s .fch c.val Reg.FCH.DELAY 0 16 = 0 →
          fchOf u c.val = { fchTake s c.val t |> (fchOf · c.val) with
          trig := some (s.lap t), start := max (s.lap t) f, by_ := v, latch := (fchOf u c.val).latch }) ∧
        (rf s .fch c.val Reg.FCH.DELAY 0 16 ≠ 0 →
          fchOf u c.val = { fchOf s c.val with due := (fchOf s c.val).due ++ [s.lap t + 10 * rf s .fch c.val Reg.FCH.DELAY 0 16] }) ∧
        CmdDone u (pk .fch c.val) (cmdWord chk 0x10) ∧ OnlyPages { s with fchs := u.fchs } u ∧
        OtherPages s u (pk .fch c.val) ∧ OtherRegs s u .fch c.val []))) ∧
  (∀ (s : State) (c : Fin 96) (t : Nat), stOf s .fch c.val = .run → PageIdle s (pk .fch c.val) → fchDueAt s c.val t = true →
      (fchOf s c.val).trig.isSome = true → (rf s .fch c.val Reg.FCH.CFG 0 2 = 2 → (fchOf s c.val).isOpen = true) →
      Gives (.fchEffectiveTrigger c t) s (fun u => rg u .fch c.val Reg.FCH.TRIG_LOST_CNT = satInc (rg s .fch c.val Reg.FCH.TRIG_LOST_CNT) ∧
        bit (u.page (pk .fch c.val)).intRaw 1 = true ∧ fchOf u c.val = fchOf (fchTake s c.val t) c.val ∧
        OnlyPages { s with fchs := u.fchs, now := max s.now t } u ∧ OtherPages s u (pk .fch c.val) ∧
        OtherRegs s u .fch c.val [Reg.FCH.TRIG_LOST_CNT])) ∧
  (∀ (s : State) (c : Fin 96) (t : Nat), stOf s .fch c.val = .run → PageIdle s (pk .fch c.val) → fchDueAt s c.val t = true →
      rf s .fch c.val Reg.FCH.CFG 0 2 = 2 → (fchOf s c.val).isOpen = false →
      Gives (.fchEffectiveTrigger c t) s (fun u => fchOf u c.val = { fchTake s c.val t |> (fchOf · c.val) with
          isOpen := true, prev := s.lap t, latch := (fchOf u c.val).latch } ∧
        OnlyPages { s with fchs := u.fchs, now := max s.now t } u ∧ ∀ k, u.page k = s.page k)) ∧
  (∀ (s : State) (c : Fin 96) (t tr w : Nat) (qs : List (BitVec 16)) (l : List Int) (r : Int), stOf s .fch c.val = .run →
      (fchOf s c.val).trig = some tr → fchEndAt s c.val t = true → qs ≠ [] → qs.length = chCodes s c.val → l = qs.map (fun q => q.toInt) →
      r = corrected s (chGroup c.val) (fchOf s c.val).by_ (codeMean l) → rb s .fch c.val Reg.FCH.CFG 7 = false →
      w = (fq (((fchOf s c.val).start - tr : Nat) : Int) 8).toNat →
      Gives (.convEnd c t qs []) s (fun u => rg u .fch c.val Reg.FCH.RESULT = ofI r ∧ rg u .fch c.val Reg.FCH.RAW = ofN (l.getLastD 0 % 65536).toNat ∧
        rg u .fch c.val Reg.FCH.COUNT = ofN qs.length ∧ rb u .fch c.val Reg.FCH.STAT 0 = true ∧
        rb u .fch c.val Reg.FCH.STAT 3 = l.any (fun q => q == -32768 || q == 32767) ∧
        (rf s .fch c.val Reg.FCH.CFG 0 2 = 0 →
          rg u .fch c.val Reg.FCH.TS_LO = tsLo (devTime (s.ext ((fchOf s c.val).start + convSmp (chLp s c.val)))) ∧
          rg u .fch c.val Reg.FCH.TS_HI = tsHi (devTime (s.ext ((fchOf s c.val).start + convSmp (chLp s c.val))))) ∧
        fchOf u c.val = { fchOf s c.val with
          trig := none, prev := tr, seq := (fchOf s c.val).seq + 1, outN := 0, endAt := some (s.lap t), endLatch := (fchOf s c.val).latch } ∧
        (rf s .fch c.val Reg.FCH.CFG 0 2 ≠ 2 → rb u .fch c.val Reg.FCH.STAT 2 = decide (tr < (fchOf s c.val).start) ∧
          rg u .fch c.val Reg.FCH.WAIT_MAX =
            (if (rg s .fch c.val Reg.FCH.WAIT_MAX).toNat < w then ofN w else rg s .fch c.val Reg.FCH.WAIT_MAX) ∧
          (fchOf s c.val).start + chOcc s c.val ≤ SMap.get (fun _ => 0) (fcgOf u (chGroup c.val)).free (fchOf s c.val).by_) ∧
        (rb s .fch c.val Reg.FCH.CFG 6 = true → bit (u.page (pk .fch c.val)).intRaw 0 = true) ∧
        OnlyPublished { s with fchs := u.fchs, fcgs := u.fcgs, seed := u.seed, now := max s.now t } u [pk .fch c.val] ∧
        OtherRegs s u .fch c.val [Reg.FCH.RESULT, Reg.FCH.RAW, Reg.FCH.COUNT, Reg.FCH.STAT, Reg.FCH.TS_LO, Reg.FCH.TS_HI, Reg.FCH.WAIT_MAX])) ∧
  (∀ (s : State) (c : Fin 96) (t : Nat) (q : BitVec 16) (r : Int), stOf s .fch c.val = .run → (fchOf s c.val).trig.isSome = true →
      fchEndAt s c.val t = true → rf s .fch c.val Reg.FCH.CFG 0 2 = 0 → r = corrected s (chGroup c.val) (fchOf s c.val).by_ (256 * q.toInt) →
      rb s .fch c.val Reg.FCH.CFG 7 = true → (fchOf s c.val).outN + 1 < rf s .fch c.val Reg.FCH.LIM_N 0 8 →
      Gives (.convEnd c t [q] []) s (fun u => rg u .fch c.val Reg.FCH.RESULT = ofI r ∧ (fchOf u c.val).outN =
        (if r < sw (rg s .fch c.val Reg.FCH.LIM_LO) ∨ sw (rg s .fch c.val Reg.FCH.LIM_HI) < r then (fchOf s c.val).outN + 1 else 0) ∧ SameMem s u)) ∧
  (∀ (s : State) (c : Fin 96) (t : Nat) (q : BitVec 16) (r : Int), stOf s .fch c.val = .run → (fchOf s c.val).trig.isSome = true →
      fchEndAt s c.val t = true → rf s .fch c.val Reg.FCH.CFG 0 2 = 0 → r = corrected s (chGroup c.val) (fchOf s c.val).by_ (256 * q.toInt) →
      sw (rg s .fch c.val Reg.FCH.LIM_LO) ≤ r → r ≤ sw (rg s .fch c.val Reg.FCH.LIM_HI) →
      Gives (.convEnd c t [q] []) s (fun u => rg u .fch c.val Reg.FCH.RESULT = ofI r ∧ (fchOf u c.val).outN = 0 ∧
        rb u .fch c.val Reg.FCH.STAT 4 = false ∧ SameMem s u)) ∧
  (∀ (s : State) (c : Fin 96), stOf s .fch c.val ≠ .off → rb s .fch c.val Reg.FCH.CFG 7 = true → rf s .fch c.val Reg.FCH.LIM_N 0 8 ≠ 0 →
      rf s .fch c.val Reg.FCH.LIM_N 0 8 ≤ (fchOf s c.val).outN → rb s .fch c.val Reg.FCH.STAT 4 = false → RaiseLogs s 0x16 .fch c.val 0 →
      Gives (.fchLimit c) s (fun u => rb u .fch c.val Reg.FCH.STAT 4 = true ∧ bit (u.page (pk .fch c.val)).intRaw 2 = true ∧
        Logged u 0x16 .fch c.val 0 ∧ OnlyPages { s with flog := u.flog } u ∧ (∀ k, k ≠ pk .fch c.val → k ≠ pk .flt 0 → u.page k = s.page k) ∧
        OtherRegs s u .fch c.val [Reg.FCH.STAT])) ∧
  (∀ (s : State) (c : Fin 96) (t : Nat) (qs other : List (BitVec 16)),
      (fchDueAt s c.val t = false → exec (.fchEffectiveTrigger c t) s = .next (settle (s.at t))) ∧
      (fchEndAt s c.val t = false → exec (.convEnd c t qs other) s = .next (settle (s.at t))))

/-- Calibrations of converter groups (R284 to R291, Table 10-2). CAL starts at the phase its converter needs, or is queued; the bobbin, the comparison, the working
copy and the verification end their phases within their limits; a comparison outside TOL or a time-out ends it in PHASE 14 with the cause in CAL_RESULT; a
failed converter is parked, and its channels fault when the bobbin is taken; AUTO takes the converters in turn; START's calibration gives nine coefficients. -/
def Obligations.converter_calibrations : Prop :=
  (∀ (s : State) (g : Fin 3) (chk : BitVec 16) (v : Nat), ActsNow s .fcg g.val 0x10 .ap0 chk → v = rf s .fcg g.val Reg.FCG.CAL_SEL 0 4 →
      (stOf s .fcg g.val ≠ .off → (fcgOf s g.val).cur = none → (fcgOf s g.val).queue = [] → (fcgOf s g.val).back = none →
        (fcgOf s g.val).toPark = none → (fcgOf s g.val).startup = false → Gives (.fcgCal g chk) s (fun u =>
        (fcgOf u g.val).cur = some v ∧ (fcgOf u g.val).queue = [] ∧ (u.page (pk .fcg g.val)).busy = true ∧ rf u .fcg g.val Reg.FCG.STAT 0 4 = v ∧
        (u.page (pk .fcg g.val)).prog = progWord 1 (if v < 8 ∧ fcgParked s g.val = some v then 3 else if v = 8 ∨ bobYoung s g.val s.now = false then 1 else
          if v < 8 ∧ inSt s .fcg g.val [.run, .update] = true ∧ convUsed s g.val v = true then 2 else 3) 0 ∧
        CmdDone u (pk .fcg g.val) (cmdWord chk 0x10) ∧ OnlyPages { s with fcgs := u.fcgs } u ∧ OtherPages s u (pk .fcg g.val) ∧
        OtherRegs s u .fcg g.val ([Reg.FCG.STAT, Reg.FCG.CAL_Q] ++ (List.range 9).map (fun i => Reg.FCG.CAL_STAT + 4 * i)))) ∧
      (stOf s .fcg g.val ≠ .off → (fcgOf s g.val).cur ≠ none → Gives (.fcgCal g chk) s (fun u =>
        (fcgOf u g.val).queue = (fcgOf s g.val).queue ++ [v] ∧
        (fcgOf u g.val).cur = (fcgOf s g.val).cur ∧ (u.page (pk .fcg g.val)).prog = (s.page (pk .fcg g.val)).prog ∧
        CmdDone u (pk .fcg g.val) (cmdWord chk 0x10) ∧ OnlyPages { s with fcgs := u.fcgs } u ∧ OtherPages s u (pk .fcg g.val))) ∧
      (stOf s .fcg g.val ≠ .off → (fcgOf s g.val).cur = none → (fcgOf s g.val).queue = [] → (fcgOf s g.val).startup = false →
        ((fcgOf s g.val).back ≠ none ∨ (fcgOf s g.val).toPark ≠ none) → Gives (.fcgCal g chk) s (fun u =>
        (fcgOf u g.val).queue = [v] ∧ (fcgOf u g.val).cur = none ∧ (u.page (pk .fcg g.val)).busy = true ∧
        (u.page (pk .fcg g.val)).prog = progWord 0 0 1 ∧
        CmdDone u (pk .fcg g.val) (cmdWord chk 0x10) ∧ OnlyPages { s with fcgs := u.fcgs } u ∧ OtherPages s u (pk .fcg g.val))) ∧
      (stOf s .fcg g.val = .off → Gives (.fcgCal g chk) s (fun u => (u.page (pk .fcg g.val)).prog = (s.page (pk .fcg g.val)).prog ∧
        CmdDone u (pk .fcg g.val) (cmdWord chk 0x10) ∧ OnlyPages s u ∧ OtherPages s u (pk .fcg g.val) ∧ OtherRegs s u .fcg g.val []))) ∧
  (∀ (s : State) (g : Fin 3) (t v : Nat) (ofs : Int) (gain : Nat), (fcgOf s g.val).cur = some v → opPhase s .fcg g.val = 1 →
      (fcgOf s g.val).startup = false → coefOk ofs gain = true →
      (v = 8 → (fcgOf s g.val).queue = [] → Gives (.bobbinCalEnd g t ofs gain) s (fun u =>
        rg u .fcg g.val (Reg.FCG.CAL_OFS + 32) = q23 ofs ∧ rg u .fcg g.val (Reg.FCG.CAL_GAIN + 32) = ofN gain ∧ (fcgOf u g.val).cur = none ∧
        rg u .fcg g.val Reg.FCG.CAL_CNT = rg s .fcg g.val Reg.FCG.CAL_CNT + 1 ∧ rb u .fcg g.val Reg.FCG.STAT 5 = false ∧
        (u.page (pk .fcg g.val)).prog = progWord 1 15 10000 ∧ (u.page (pk .fcg g.val)).busy = false ∧ bit (u.page (pk .fcg g.val)).intRaw 0 = true ∧
        OnlyPages { s with fcgs := u.fcgs, now := max s.now t } u ∧ OtherPages s u (pk .fcg g.val))) ∧
      (v < 8 → Gives (.bobbinCalEnd g t ofs gain) s (fun u => rg u .fcg g.val (Reg.FCG.CAL_OFS + 32) = q23 ofs ∧
        rg u .fcg g.val (Reg.FCG.CAL_GAIN + 32) = ofN gain ∧ (fcgOf u g.val).cur = some v ∧
        (u.page (pk .fcg g.val)).prog = progWord 1 (if (fcgOf s g.val).take then 2 else 3) 0 ∧
        OnlyPages { s with fcgs := u.fcgs, now := max s.now t } u ∧ OtherPages s u (pk .fcg g.val) ∧
        OtherRegs s u .fcg g.val [Reg.FCG.CAL_OFS + 32, Reg.FCG.CAL_GAIN + 32]))) ∧
  (∀ (s : State) (g : Fin 3) (t v ph : Nat) (c : Instr), (ph, c) ∈ [(2, Instr.shadowComplete g t), (4, .verifyComplete g t)] → v < 8 →
      (fcgOf s g.val).cur = some v → opPhase s .fcg g.val = ph → (fcgOf s g.val).passed = false →
      rf s .fcg g.val Reg.FCG.CAL_CFG 4 11 ≤ (fcgOf s g.val).pairs →
      ((fcgOf s g.val).diff.natAbs ≤ 256 * rf s .fcg g.val Reg.FCG.CAL_CFG 16 8 * (fcgOf s g.val).pairs → Gives c s (fun u =>
        fcgOf u g.val = { fcgOf s g.val with passed := true } ∧ (ph = 4 → (u.page (pk .fcg g.val)).prog = progWord 1 5 0) ∧
        rg u .fcg g.val Reg.FCG.CAL_RESULT = ofN (v + 65536 * (calDiff (fcgOf s g.val) % 65536).toNat) ∧
        OnlyPages { s with fcgs := u.fcgs, now := max s.now t } u ∧ OtherPages s u (pk .fcg g.val) ∧ OtherRegs s u .fcg g.val [Reg.FCG.CAL_RESULT])) ∧
      (¬(fcgOf s g.val).diff.natAbs ≤ 256 * rf s .fcg g.val Reg.FCG.CAL_CFG 16 8 * (fcgOf s g.val).pairs → (fcgOf s g.val).queue = [] →
        (fcgOf s g.val).startup = false → RaiseLogs (s.at t) 0x17 .fcg g.val v → Gives c s (fun u => (fcgOf u g.val).cur = none ∧ (u.page (pk .fcg g.val)).busy = false ∧
        fld (u.page (pk .fcg g.val)).prog 24 4 = 14 ∧ (u.page (pk .fcg g.val)).err = errWord .range 0x010 4 ∧
        bit (u.page (pk .fcg g.val)).intRaw 1 = true ∧ rf u .fcg g.val Reg.FCG.CAL_RESULT 0 8 = v + 16 * (if ph = 2 then 1 else 2) ∧
        Logged u 0x17 .fcg g.val v ∧ SameMem s u))) ∧
  (∀ (s : State) (g : Fin 3) (t v : Nat) (ofs : Int) (gain : Nat), (fcgOf s g.val).cur = some v → v < 8 → opPhase s .fcg g.val = 3 →
      coefOk ofs gain = true →
      ((fcgOf s g.val).take = true → Gives (.converterCalEnd g t ofs gain) s (fun u => (fcgOf u g.val).copy = (ofs, gain) ∧
        (fcgOf u g.val).cur = some v ∧ (u.page (pk .fcg g.val)).prog = progWord 1 4 0 ∧
        OnlyPages { s with fcgs := u.fcgs, now := max s.now t } u ∧ OtherPages s u (pk .fcg g.val) ∧ OtherRegs s u .fcg g.val [])) ∧
      ((fcgOf s g.val).take = false → (fcgOf s g.val).queue = [] → (fcgOf s g.val).startup = false → fcgParked s g.val ≠ some v → Gives (.converterCalEnd g t ofs gain) s (fun u =>
        rg u .fcg g.val (Reg.FCG.CAL_OFS + 4 * v) = q23 ofs ∧ rg u .fcg g.val (Reg.FCG.CAL_GAIN + 4 * v) = ofN gain ∧ (fcgOf u g.val).cur = none ∧
        rg u .fcg g.val Reg.FCG.CAL_CNT = rg s .fcg g.val Reg.FCG.CAL_CNT + 1 ∧ (u.page (pk .fcg g.val)).prog = progWord 1 15 10000 ∧
        OnlyPages { s with fcgs := u.fcgs, now := max s.now t } u ∧ OtherPages s u (pk .fcg g.val)))) ∧
  (∀ (s : State) (g : Fin 3) (t v : Nat), (fcgOf s g.val).cur = some v → (opPhase s .fcg g.val = 2 ∨ opPhase s .fcg g.val = 4) →
      (fcgOf s g.val).passed = false → (fcgOf s g.val).queue = [] → (fcgOf s g.val).startup = false →
      (fcgOf s g.val).since + 8000000 * (rg s .fcg g.val Reg.FCG.CAL_TMO).toNat ≤ (s.at t).lap t →
      Gives (.calTimeout g t) s (fun u => (fcgOf u g.val).cur = none ∧ (u.page (pk .fcg g.val)).busy = false ∧
        fld (u.page (pk .fcg g.val)).prog 24 4 = 14 ∧ (u.page (pk .fcg g.val)).err = errWord .wrongState 0x010 4 ∧
        bit (u.page (pk .fcg g.val)).intRaw 1 = true ∧ rf u .fcg g.val Reg.FCG.CAL_RESULT 4 4 = 4 ∧
        OnlyPages { s with fcgs := u.fcgs, seed := u.seed, now := max s.now t } u ∧ OtherPages s u (pk .fcg g.val))) ∧
  (∀ (s : State) (c : Fin 96) (t k g : Nat), stOf s .fch c.val = .run → (fchOf s c.val).trig.isSome = true → (fchOf s c.val).start + chOcc s c.val ≤ s.lap t →
      g = chGroup c.val → k = chConv c.val → RaiseLogs (s.at t) 0x17 .fcg g k →
      (∀ v, (fcgOf s g).cur = some v → v < 9 → (fcgOf s g).queue = [] → (fcgOf s g).startup = false → fcgParked s g = none →
        Gives (.conversionFailure c t) s (fun u => rb u .fch c.val Reg.FCH.STAT 5 = true ∧ (fcgOf u g).toPark = some k ∧ (fcgOf u g).cur = none ∧
          (u.page (pk .fcg g)).busy = false ∧ fld (u.page (pk .fcg g)).prog 24 4 = 14 ∧ rf u .fcg g Reg.FCG.CAL_RESULT 0 8 = v + 16 * 5 ∧
          Logged u 0x17 .fcg g k ∧ SameMem s u)) ∧
      ((fcgOf s g).cur = none → (fcgOf s g).startup = false → fcgParked s g = none → Gives (.conversionFailure c t) s (fun u => rb u .fch c.val Reg.FCH.STAT 5 = true ∧ (fchOf u c.val).trig = none ∧
        (fcgOf u g).toPark = some k ∧ Logged u 0x17 .fcg g k ∧ stOf u .fch c.val = .run ∧
        OnlyPages { s with fchs := u.fchs, fcgs := u.fcgs, flog := u.flog, now := max s.now t } u ∧
        (∀ i, i ≠ pk .fch c.val → i ≠ pk .flt 0 → u.page i = s.page i) ∧ OtherRegs s u .fch c.val [Reg.FCH.STAT])) ∧
      (fcgParked s g ≠ none → Gives (.conversionFailure c t) s (fun u => rb u .fch c.val Reg.FCH.STAT 5 = true ∧ rb u .fcg g Reg.FCG.STAT (16 + k) = true ∧
        (∀ i, i ∈ convChans g k → stOf s .fch i = .run → stOf u .fch i = .fault) ∧ Logged u 0x17 .fcg g k ∧ u.sigs = s.sigs ∧ SameMem s u))) ∧
  (∀ (s : State) (g : Fin 3) (t v : Nat), rb s .fcg g.val Reg.FCG.CAL_CFG 0 = true → inSt s .fcg g.val [.idle, .run, .update] = true →
      (fcgOf s g.val).cur = none → (fcgOf s g.val).queue = [] → (fcgOf s g.val).back = none → (fcgOf s g.val).toPark = none → fcgParked s g.val = none →
      rb s .fcg g.val Reg.FCG.STAT 5 = false → (fcgOf s g.val).startup = false → v = (fcgOf s g.val).auto % 8 →
      (fcgOf s g.val).autoAt + perS * (rg s .fcg g.val Reg.FCG.CAL_PERIOD).toNat ≤ (s.at t).lap t →
      Gives (.autoCalTimer g t) s (fun u => (fcgOf u g.val).cur = some v ∧ (fcgOf u g.val).auto = (v + 1) % 8 ∧ (u.page (pk .fcg g.val)).busy = true ∧
        OnlyPages { s with fcgs := u.fcgs, now := max s.now t } u ∧ OtherPages s u (pk .fcg g.val) ∧
        OtherRegs s u .fcg g.val ([Reg.FCG.STAT, Reg.FCG.CAL_Q] ++ (List.range 9).map (fun i => Reg.FCG.CAL_STAT + 4 * i)))) ∧
  (∀ (s : State) (g : Fin 3) (t : Nat) (cs : List (Int × Nat)), (fcgOf s g.val).startup = true → (fcgOf s g.val).cur = none →
      (fcgOf s g.val).queue = [] → cs.length = 9 →
      ((∀ e ∈ cs, coefOk e.1 e.2 = true) → fcgParked s g.val = none → Gives (.startupCalEnd g t cs) s (fun u => (∀ i, i < 9 → ∀ e, cs[i]? = some e → rg u .fcg g.val (Reg.FCG.CAL_OFS + 4 * i) = q23 e.1 ∧
          rg u .fcg g.val (Reg.FCG.CAL_GAIN + 4 * i) = ofN e.2) ∧ (fcgOf u g.val).startup = false ∧ (u.page (pk .fcg g.val)).busy = false ∧
        (u.page (pk .fcg g.val)).prog = progWord 1 15 10000 ∧ bit (u.page (pk .fcg g.val)).intRaw 0 = true ∧
        OnlyPages { s with fcgs := u.fcgs, now := max s.now t } u ∧ OtherPages s u (pk .fcg g.val))) ∧
      (∀ v e, cs[v]? = some e → coefOk e.1 e.2 = false → (∀ w f, w < v → cs[w]? = some f → coefOk f.1 f.2 = true) →
        Gives (.startupCalEnd g t cs) s (fun u => (fcgOf u g.val).startup = false ∧ (fcgOf u g.val).cur = none ∧
          (u.page (pk .fcg g.val)).busy = false ∧ fld (u.page (pk .fcg g.val)).prog 24 4 = 14 ∧
          (u.page (pk .fcg g.val)).err = errWord .range 0x010 4 ∧ rf u .fcg g.val Reg.FCG.CAL_RESULT 0 8 = v + 16 * 3)))

/-- Precision converters (R299 to R302). A settled word of a scanned channel is corrected by its gain's coefficients, saturated and shown, and published unless the
wire is open; the last of a scan counts it; an open-wire hit opens the channel. CAL runs the zero and the reference conversion of each gain in use; the
last one writes OFS_CAL and GAIN_CAL, and a conversion outside its limits ends it in PHASE 14 with RANGE. The correction's rounding is a free value. A word that is not due changes nothing. -/
def Obligations.precision_scans : Prop :=
  (∀ (s : State) (k : Fin 8) (t : Nat) (p : Fin 16) (w v : Int), stOf s .pcv k.val = .run → PageIdle s (pk .pcv k.val) →
      (pcvOf s k.val).conv = some (p.val, s.lap t) → rf s .pcv k.val Reg.PCV.CFG 8 2 = 0 →
      v = pcvCorrect s k.val (rf s .pcv k.val (Reg.PCV.CH_CFG + 4 * p.val) 10 3) w →
      Gives (.pcvOutputWord k t (some p) w) s (fun u => rg u .pcv k.val (Reg.PCV.RESULT + 4 * p.val) = ofI (clampI (-8388607) 8388607 v) ∧
        rb u .pcv k.val Reg.PCV.OVER p.val = decide (v < -8388607 ∨ 8388607 < v) ∧
        (∀ c, (pcvScan s k.val).find? (fun c => decide (p.val < c)) = some c →
          pcvOf u k.val = { pcvOf s k.val with conv := some (c, s.lap t + pcvTime s k.val c true) } ∧
          OtherRegs s u .pcv k.val [Reg.PCV.RESULT + 4 * p.val, Reg.PCV.OVER]) ∧
        ((∀ c ∈ pcvScan s k.val, c ≤ p.val) → (pcvOf s k.val).cal = [] → (pcvOf u k.val).scans = (pcvOf s k.val).scans + 1 ∧
          (pcvOf u k.val).conv = (pcvScan s k.val).head?.map (fun c => (c, s.lap t + pcvTime s k.val c (decide (c ≠ p.val)))) ∧
          rg u .pcv k.val Reg.PCV.SCAN_CNT = rg s .pcv k.val Reg.PCV.SCAN_CNT + 1 ∧ bit (u.page (pk .pcv k.val)).intRaw 0 = true) ∧
        OnlyPublished { s with pcvs := u.pcvs, now := max s.now t } u [pk .pcv k.val])) ∧
  (∀ (s : State) (k : Fin 8) (t : Nat) (p : Fin 16) (w v : Int), stOf s .pcv k.val = .run → PageIdle s (pk .pcv k.val) →
      (pcvOf s k.val).conv = some (p.val, s.lap t) → rf s .pcv k.val Reg.PCV.CFG 8 2 = 1 → rb s .pcv k.val Reg.PCV.OPEN p.val = false →
      v = clampI (-8388607) 8388607 (pcvCorrect s k.val (rf s .pcv k.val (Reg.PCV.CH_CFG + 4 * p.val) 10 3) w) →
      (if rb s .pcv k.val Reg.PCV.CFG 12 then v ≤ -sw (rg s .pcv k.val Reg.PCV.OW_LIM) else sw (rg s .pcv k.val Reg.PCV.OW_LIM) ≤ v) →
      Gives (.pcvOutputWord k t (some p) w) s (fun u => rg u .pcv k.val (Reg.PCV.RESULT + 4 * p.val) = ofI v ∧
        rb u .pcv k.val Reg.PCV.OPEN p.val = true ∧ bit (u.page (pk .pcv k.val)).intRaw 1 = true ∧
        (RaiseLogs s 0x18 .pcv k.val 0 → Logged u 0x18 .pcv k.val 0) ∧ SameMem s u)) ∧
  (∀ (s : State) (k : Fin 8) (t g : Nat) (ref : Bool) (l : List (Nat × Bool)) (w z : Int), stOf s .pcv k.val = .run → PageIdle s (pk .pcv k.val) →
      (pcvOf s k.val).first = true → (pcvOf s k.val).conv = none → (pcvOf s k.val).cal = (g, ref) :: l → g < 8 →
      z = SMap.get (fun _ => 0) (pcvOf s k.val).zero g →
      (ref = false → w.natAbs ≤ 32768 → l ≠ [] → Gives (.pcvOutputWord k t none w) s (fun u =>
        pcvOf u k.val = { pcvOf s k.val with cal := l, zero := SMap.set (fun _ => 0) (pcvOf s k.val).zero g w } ∧
        OnlyPages { s with pcvs := u.pcvs, now := max s.now t } u ∧ ∀ i, u.page i = s.page i)) ∧
      (ref = true → (w - 4194304).natAbs ≤ 65536 → l = [] → (pcvOf s k.val).next = [] → Gives (.pcvOutputWord k t none w) s (fun u =>
        rg u .pcv k.val (Reg.PCV.OFS_CAL + 4 * g) = q23 z ∧
        rg u .pcv k.val (Reg.PCV.GAIN_CAL + 4 * g) = ofI (fq (4194304 * 4194304) (w - z).toNat) ∧ (pcvOf u k.val).first = false ∧
        (u.page (pk .pcv k.val)).busy = false ∧ (u.page (pk .pcv k.val)).prog = progWord 1 15 10000 ∧
        OnlyPages { s with pcvs := u.pcvs, now := max s.now t } u ∧ OtherPages s u (pk .pcv k.val) ∧
        OtherRegs s u .pcv k.val [Reg.PCV.OFS_CAL + 4 * g, Reg.PCV.GAIN_CAL + 4 * g])) ∧
      (ref = false → 32768 < w.natAbs → RaiseLogs (s.at t) 0x19 .pcv k.val 0 → Gives (.pcvOutputWord k t none w) s (fun u =>
        (pcvOf u k.val).cal = [] ∧ (u.page (pk .pcv k.val)).busy = false ∧ fld (u.page (pk .pcv k.val)).prog 24 4 = 14 ∧
        (u.page (pk .pcv k.val)).err = errWord .range 0x010 4 ∧ Logged u 0x19 .pcv k.val 0 ∧
        (∀ i, i ≠ pk .pcv k.val → i ≠ pk .flt 0 → u.page i = s.page i)))) ∧
  (∀ (s : State) (k : Fin 8) (chk : BitVec 16), ActsNow s .pcv k.val 0x10 .ap0 chk →
      Gives (.pcvCal k chk) s (fun u => pcvOf u k.val = { pcvOf s k.val with cal := pcvCals s k.val } ∧ (u.page (pk .pcv k.val)).busy = true ∧
        (u.page (pk .pcv k.val)).prog = progWord 1 1 0 ∧ CmdDone u (pk .pcv k.val) (cmdWord chk 0x10) ∧ OnlyPages { s with pcvs := u.pcvs } u ∧
        OtherPages s u (pk .pcv k.val) ∧ OtherRegs s u .pcv k.val [])) ∧
  (∀ (s : State) (k : Fin 8) (t : Nat) (p : Option (Fin 16)) (w : Int), pcvDue s k.val t p = false →
      exec (.pcvOutputWord k t p w) s = .next (settle (s.at t)))

/-- Benches of logic engines (R22, R313, R314, R316, R318). A release instant of an enabled bench in RUN releases it once; a cycle starts with the snapshot of
its signals when no higher bench is released; its end runs its code on that snapshot at the release instant, publishes its writes, sets ARITH where an operation of it
did, frees the bench and shows its response; none ends while a higher bench runs; a write of a foreign signal is a conflict. A cycle beyond its budget trips the watchdog: the engine goes SAFE and the trip is raised. -/
def Obligations.logic_benches : Prop :=
  (∀ (s : State) (e : Fin 6) (b : Fin 4) (t u : Nat), stOf s .le e.val = .run → halted s (.le e) = false → powered s .le e.val = true →
      leBenchEn s e.val b.val = true → u = (s.at t).lap t → leReleaseAt s e.val b.val u = true → ((leOf s e.val).bench b.val).last ≠ some u →
      Gives (.benchRelease e b t) s (fun v => leOf v e.val = (leOf s e.val).setBench b.val
          { (leOf s e.val).bench b.val with rel := ((leOf s e.val).bench b.val).rel.or (some u), last := some u } ∧
        OnlyPages { s with les := v.les, now := max s.now t } v ∧ ∀ k, v.page k = s.page k)) ∧
  (∀ (s : State) (e : Fin 6) (b : Fin 4) (t : Nat), stOf s .le e.val = .run → halted s (.le e) = false → PageIdle s (pk .le e.val) →
      leMayStart s e.val b.val = true →
      Gives (.benchCycleStart e b t []) s (fun v => leOf v e.val = (leOf s e.val).setBench b.val
          { (leOf s e.val).bench b.val with run := true, snap := (leReads s e.val b.val).map (fun i => (i, sigVal s i)) } ∧
        OnlyPages { s with les := v.les, now := max s.now t } v ∧ OtherPages s v (pk .le e.val) ∧ OtherRegs s v .le e.val [Reg.LE.STAT])) ∧
  (∀ (s : State) (e : Fin 6) (b : Fin 4) (t : Nat) (ecc : List (Bool × Nat)),
      Gives (.benchCycleStart e b t ecc) s (fun v => v.now = max s.now t)) ∧
  (∀ (s : State) (e : Fin 6) (b : Fin 4) (t u n k : Nat) (acts : List LeAct) (snap : List (Nat × BitVec 64)), halted s (.le e) = false →
      ((leOf s e.val).bench b.val).run = true → (∀ h, h < b.val → ((leOf s e.val).bench h).run = false) →
      ((leOf s e.val).bench b.val).rel = some u → leTooLate (s.at t) e.val b.val = false →
      n = ((s.at t).lap (s.at t).now - u) / 20 → k = leSlotAct s e.val b.val → snap = ((leOf s e.val).bench b.val).snap →
      Gives (.benchCycleEnd e b t acts) s (fun v =>
        rg v .le e.val (Reg.LE.B_CNT + 16 * b.val) = rg s .le e.val (Reg.LE.B_CNT + 16 * b.val) + 1 ∧
        rg v .le e.val (Reg.LE.B_LAST + 16 * b.val) = ofN n ∧
        rg v .le e.val (Reg.LE.B_MAX + 16 * b.val) = (if (rg s .le e.val (Reg.LE.B_MAX + 16 * b.val)).toNat < n then ofN n else
          rg s .le e.val (Reg.LE.B_MAX + 16 * b.val)) ∧
        (leOf v e.val).benches = ((leOf s e.val).setBench b.val { (leOf s e.val).bench b.val with rel := none, run := false, snap := [] }).benches ∧
        (leOf v e.val).slot k = ((leOf s e.val).slot k).map (fun y => (leCycle b.val (u / 8000) snap acts y).slot) ∧
        (leOf v e.val).slot (1 - k) = (leOf s e.val).slot (1 - k) ∧
        (∀ y, (leOf s e.val).slot k = some y → (leCycle b.val (u / 8000) snap acts y).arith = true →
          rb v .le e.val Reg.LE.STAT 10 = true ∧ bit (v.page (pk .le e.val)).intRaw 6 = true) ∧
        OnlyPublished { s with les := v.les, now := max s.now t } v [pk .le e.val] ∧
        OtherRegs s v .le e.val [Reg.LE.B_CNT + 16 * b.val, Reg.LE.B_LAST + 16 * b.val, Reg.LE.B_MAX + 16 * b.val, Reg.LE.STAT])) ∧
  (∀ (s : State) (e : Fin 6) (b h : Fin 4) (t : Nat) (acts : List LeAct), h < b → ((leOf s e.val).bench h.val).run = true →
      exec (.benchCycleEnd e b t acts) s = .next (settle (s.at t))) ∧
  (∀ (s : State) (e : Fin 6) (b : Fin 4) (t u : Nat) (id : BitVec 16) (acts : List LeAct) (y : LeSlot) (w : BitVec 64),
      halted s (.le e) = false → ((leOf s e.val).bench b.val).run = true → (∀ h, h < b.val → ((leOf s e.val).bench h).run = false) →
      ((leOf s e.val).bench b.val).rel = some u → leTooLate (s.at t) e.val b.val = false → (sigEnt s id.toNat).en = true →
      (leOf s e.val).slot (leSlotAct s e.val b.val) = some y →
      (leCycle b.val (u / 8000) ((leOf s e.val).bench b.val).snap acts y).held = [(id, w)] →
      (leOwns e.val b.val (sigEnt s id.toNat) = true → id ≠ 0 → sigRun s = true → Gives (.benchCycleEnd e b t acts) s (fun v =>
        (slotOf v id.toNat).raw = typed (sigEnt s id.toNat).typ 0 (w.setWidth 32) ((w >>> 32).setWidth 32) ∧
        ((slotOf s id.toNat).forced = false → (slotOf v id.toNat).value = (slotOf v id.toNat).raw) ∧
        (slotOf v id.toNat).ts = devTime (max s.now t) ∧ ∀ i, i ≠ id.toNat → slotOf v i = slotOf s i)) ∧
      (leOwns e.val b.val (sigEnt s id.toNat) = false → Gives (.benchCycleEnd e b t acts) s (fun v =>
        slotOf v id.toNat = { slotOf s id.toNat with conflict := true } ∧ bit (v.page (pk .le e.val)).intRaw 5 = true ∧
        ∀ i, i ≠ id.toNat → slotOf v i = slotOf s i))) ∧
  (∀ (s : State) (e : Fin 6) (b : Fin 4) (t : Nat) (i : Fin 65536), inSt s .le e.val [.run, .hold] = true → halted s (.le e) = false →
      leOverdue (s.at t) e.val b.val = true →
      Gives (.leWatchdogTrip e b t i) s (fun v => stOf v .le e.val = .safe ∧ rg v .le e.val Reg.LE.WDOG_INFO = ofN (b.val + 16 + 65536 * i.val) ∧
        bit (v.page (pk .le e.val)).intRaw 0 = true ∧
        (RaiseLogs (s.at t) 0x1A .le e.val 0 → (s.page (pk .le e.val)).commit = .none → Logged v 0x1A .le e.val 0 ∧ (∀ x, ((leOf v e.val).bench x).run = false ∧ ((leOf v e.val).bench x).rel = none) ∧
          OnlyPublished { s with les := v.les, flog := v.flog, now := max s.now t } v [pk .le e.val, pk .flt 0]) ∧ SameMem s v))

/-- Programs and forces (R312, R325, R328, R329, R332). LOAD frees the standby slot and starts; a good image ends in the standby slot with its counts and costs, an
image whose header fails in PHASE 14 with RANGE and LOAD_ERR; UNLOAD frees the standby slot; RESET_INST gives the instances their initial data. SET puts a value
into an entry and its slot, RELEASE frees the entry, RELEASE_ALL every entry. -/
def Obligations.programs_and_forces : Prop :=
  (∀ (s : State) (e : Fin 6) (chk : BitVec 16), ActsNow s .le e.val 0x10 .ap0 chk →
      Gives (.leLoad e chk) s (fun v => leOf v e.val = { (leOf s e.val).setSlot (1 - leRunning s e.val) none with src := some (rgU64 s .le e.val Reg.LE.LOAD_SRC_LO) } ∧
        rb v .le e.val Reg.LE.STAT 8 = false ∧ (v.page (pk .le e.val)).busy = true ∧ (v.page (pk .le e.val)).prog = progWord 3 1 0 ∧
        CmdDone v (pk .le e.val) (cmdWord chk 0x10) ∧ OnlyPages { s with les := v.les } v)) ∧
  (∀ (s : State) (e : Fin 6) (prog : List LeCode) (env : List (Nat × LeCode)) (a : Nat) (y : LeSlot), powered s .le e.val = true → (leOf s e.val).src = some a →
      (leLoad (setLe s e.val { leOf s e.val with src := none }) e.val a prog env false).toOption = some y →
      Gives (.leLoadEnd e prog env []) s (fun v => leOf v e.val = ({ leOf s e.val with src := none } : LeSt).setSlot (1 - leRunning s e.val) (some y) ∧
        rb v .le e.val Reg.LE.STAT 8 = true ∧ (∀ b, b < 4 → rg v .le e.val (Reg.LE.COST + 16 * (1 - leRunning s e.val) + 4 * b) = ofN (y.cost b)) ∧
        rg v .le e.val Reg.LE.INST_NEW = ofN (leCounts (oldInsts ((leOf s e.val).slot (leRunning s e.val))) y.insts).2.1 ∧
        (v.page (pk .le e.val)).busy = false ∧ (v.page (pk .le e.val)).prog = progWord 1 15 10000 ∧ bit (v.page (pk .le e.val)).intRaw 1 = true ∧
        OnlyPages { s with les := v.les } v)) ∧
  (∀ (s : State) (e : Fin 6) (prog : List LeCode) (env : List (Nat × LeCode)) (a o : Nat), powered s .le e.val = true → (leOf s e.val).src = some a → leHeaderBad s a = some o →
      Gives (.leLoadEnd e prog env []) s (fun v => leOf v e.val = { leOf s e.val with src := none } ∧ (v.page (pk .le e.val)).busy = false ∧
        fld (v.page (pk .le e.val)).prog 24 4 = 14 ∧ (v.page (pk .le e.val)).err = errWord .range 0x010 4 ∧
        rg v .le e.val Reg.LE.LOAD_ERR = ofN (16777216 + o) ∧ bit (v.page (pk .le e.val)).intRaw 2 = true ∧
        OnlyPages { s with les := v.les, seed := v.seed } v ∧ OtherPages s v (pk .le e.val) ∧ OtherRegs s v .le e.val [Reg.LE.LOAD_ERR])) ∧
  (∀ (s : State) (e : Fin 6) (prog : List LeCode) (env : List (Nat × LeCode)) (ecc : List (Bool × Nat)),
      Gives (.leLoadEnd e prog env ecc) s (fun v => v.now = s.now)) ∧
  (∀ (s : State) (e : Fin 6) (chk : BitVec 16), ActsNow s .le e.val 0x11 .ap0 chk →
      Gives (.leUnload e chk) s (fun v => leOf v e.val = (leOf s e.val).setSlot (1 - leRunning s e.val) none ∧ rb v .le e.val Reg.LE.STAT 8 = false ∧
        CmdDone v (pk .le e.val) (cmdWord chk 0x11) ∧ OnlyPages { s with les := v.les } v)) ∧
  (∀ (s : State) (e : Fin 6) (chk : BitVec 16), ActsNow s .le e.val 0x12 .ap0 chk →
      Gives (.resetInst e chk) s (fun v => leOf v e.val = (leOf s e.val).setSlot (leRunning s e.val)
          (((leOf s e.val).slot (leRunning s e.val)).map
            (leInitial s (rgU64 s .le e.val Reg.LE.LOAD_SRC_LO))) ∧ CmdDone v (pk .le e.val) (cmdWord chk 0x12) ∧
        OnlyPages { s with les := v.les } v ∧ OtherPages s v (pk .le e.val) ∧ OtherRegs s v .le e.val [])) ∧
  (∀ (s : State) (id : BitVec 16) (v : BitVec 64) (i : Nat), answers s ⟨.frc, 0⟩ = true → (s.page (pk .frc 0)).key ≠ .window →
      (s.page (pk .frc 0)).locked = false → PageIdle s (pk .frc 0) → StagedOnce s → stOf s .frc 0 ≠ .off → id ≠ 0 → (sigEnt s id.toNat).en = true →
      forceBad (sigEnt s id.toNat).typ (v.setWidth 32) ((v >>> 32).setWidth 32) = none → (frcFind s id.toNat).or (frcFree s) = some i →
      Gives (.forceSet id v) s (fun u => frcEnt u i = ⟨id.toNat, v, (sigEnt s id.toNat).typ, frcOrphan s id.toNat⟩ ∧
        (slotOf u id.toNat).value = v ∧ (slotOf u id.toNat).forced = true ∧ (slotOf u id.toNat).raw = (slotOf s id.toNat).raw ∧
        rg u .frc 0 Reg.FRC.LAST_ENTRY = ofN i ∧ rg u .frc 0 Reg.FRC.SET_CNT = rg s .frc 0 Reg.FRC.SET_CNT + 1 ∧ bit (u.page (pk .frc 0)).intRaw 0 = true ∧
        (∀ j, j ≠ i → frcEnt u j = frcEnt s j) ∧ (∀ j, j ≠ id.toNat → slotOf u j = slotOf s j) ∧
        OnlyPublished { s with frc := u.frc, frcKeep := u.frcKeep } u [pk .frc 0])) ∧
  (∀ (s : State) (id : BitVec 16) (i : Nat), answers s ⟨.frc, 0⟩ = true → (s.page (pk .frc 0)).key ≠ .window →
      (s.page (pk .frc 0)).locked = false → PageIdle s (pk .frc 0) → StagedOnce s → id ≠ 0 → frcFind s id.toNat = some i → (frcEnt s i).id = id.toNat →
      Gives (.forceRelease id) s (fun u => frcEnt u i = ForceEnt.none ∧ (slotOf u id.toNat).forced = false ∧
        (slotOf u id.toNat).value = (if (slotOf s id.toNat).safe && !(sigEnt s id.toNat).holds then safeValue (sigEnt s id.toNat) else (slotOf s id.toNat).raw) ∧
        bit (u.page (pk .frc 0)).intRaw 1 = true ∧ (∀ j, j ≠ i → frcEnt u j = frcEnt s j) ∧ (∀ j, j ≠ id.toNat → slotOf u j = slotOf s j) ∧
        OnlyPublished { s with frc := u.frc, frcKeep := u.frcKeep } u [pk .frc 0])) ∧
  (∀ (s : State) (chk : BitVec 16), ActsNow s .frc 0 0x10 .ap0 chk →
      Gives (.releaseAll chk) s (fun u => (∀ i, frcEnt u i = ForceEnt.none) ∧
        (∀ i, (frcEnt s i).id ≠ 0 → (slotOf u (frcEnt s i).id).forced = false) ∧
        bit (u.page (pk .frc 0)).intRaw 1 = true ∧ CmdDone u (pk .frc 0) (cmdWord chk 0x10) ∧
        OnlyPublished { s with frc := u.frc, frcKeep := u.frcKeep } u [pk .frc 0]))

/-- The clock of a recipe stepper (R333, R334, R336, R339 to R341, R345). At a clock edge in RUN with nothing due the step's elapsed clocks count and Table
12-3 decides how it ends; a running ramp publishes its start plus the truncated share of its way. The end of a step enters the next one, whose
SET action publishes with the edge's time, counts it and logs it, the oldest of 64 entries making room; the end of a job counts it and goes
to IDLE, aborted as well on the abort path; a REST step rests; both are logged. A timeout requests a hold; a pulse ends with its end value. -/
def Obligations.recipe_clock : Prop :=
  (∀ (s : State) (r : Fin 8) (t : Nat) (x : RseqSt) (y : RBank) (st : RStep) (c : Bool), stOf s .rseq r.val = .run → PageIdle s (pk .rseq r.val) →
      x = rseqOf s r.val → x.ending = none → x.timeout = false → x.runs = [] → x.holdReq = none → x.abortReq = none → rseqRecipe s r.val = some y →
      y.steps[x.cur]? = some st → st.kind < 4 → rseqEdgeAt s r.val ((s.at t).lap t) = true → c = rCond s st →
      Gives (.rseqClockEdge r t) s (fun u => (rseqOf u r.val).el = x.el + 1 ∧ (rseqOf u r.val).edge = devTime t ∧
        (rseqOf u r.val).last = some ((s.at t).lap t) ∧
        rg u .rseq r.val Reg.RSEQ.STEP_ELAPSED = ofN ((x.el + 1) % 16777216) ∧
        (rseqOf u r.val).ending = (match st.kind with
          | 0 => if st.dur ≤ x.el + 1 then some (.next (x.cur + 1) 0) else none
          | 1 => if st.dur ≤ x.el + 1 ∧ c = true then some (.next (x.cur + 1) 1) else none
          | 2 => if st.dur ≤ x.el + 1 then some (if c then .next st.nxt 1 else .next (x.cur + 1) 0) else none
          | _ => if c then some (.next st.nxt 1) else if st.dur ≤ x.el + 1 then some (.next (x.cur + 1) 0) else none) ∧
        ((rseqOf u r.val).timeout = true ↔ st.kind = 1 ∧ st.arg ≠ 0 ∧ x.el + 1 = st.dur + st.arg ∧ c = false) ∧
        (rseqOf u r.val).cur = x.cur ∧ (rseqOf u r.val).log = x.log ∧ stOf u .rseq r.val = .run ∧
        OnlyPages { s with rseqs := u.rseqs, now := max s.now t } u ∧ OtherPages s u (pk .rseq r.val))) ∧
  (∀ (s : State) (r : Fin 8) (t : Nat) (x : RseqSt) (y : RBank) (a : RRun), stOf s .rseq r.val = .run → PageIdle s (pk .rseq r.val) →
      x = rseqOf s r.val → x.ending = none → x.timeout = false → x.runs = [a] → a.pulse = false → rseqRecipe s r.val = some y → a.sig ≠ 0 →
      (sigEnt s a.sig).en = true → sigRun s = true → rseqOwns r.val (sigEnt s a.sig) = true → (sigEnt s a.sig).typ = 1 → a.j < a.n →
      -2147483648 ≤ a.s → a.s < 2147483648 → -2147483648 ≤ a.g → a.g < 2147483648 →
      rseqEdgeAt s r.val ((s.at t).lap t) = true →
      Gives (.rseqClockEdge r t) s (fun u =>
        (slotOf u a.sig).raw = BitVec.ofInt 64 (if a.j + 1 = a.n then a.g else a.s + Int.tdiv ((a.g - a.s) * (a.j + 1)) a.n) ∧
        (slotOf u a.sig).ts = devTime t ∧ (rseqOf u r.val).runs = (if a.j + 1 < a.n then [{ a with j := a.j + 1 }] else []) ∧
        (∀ i, i ≠ a.sig → slotOf u i = slotOf s i) ∧
        OnlyPublished { s with rseqs := u.rseqs, now := max s.now t } u [pk .rseq r.val])) ∧
  (∀ (s : State) (r : Fin 8) (x : RseqSt) (y : RBank) (st : RStep) (d c : Nat) (a : RAct), stOf s .rseq r.val = .run → PageIdle s (pk .rseq r.val) →
      x = rseqOf s r.val → x.ending = some (.next d c) → rseqRecipe s r.val = some y → y.steps[x.cur]? = some st → st.fin = false → st.rest = false →
      x.runs = [] → y.actsOf d = [a] → a.kind = 0 → a.sig ≠ 0 → (sigEnt s a.sig).en = true → sigRun s = true → rseqOwns r.val (sigEnt s a.sig) = true →
      Gives (.rseqStepEnd r) s (fun u => (rseqOf u r.val).cur = d ∧ (rseqOf u r.val).el = 0 ∧ (rseqOf u r.val).ending = none ∧
        (rseqOf u r.val).bank = rseqActive s r.val ∧
        (slotOf u a.sig).raw = typed (sigEnt s a.sig).typ 0 (a.val.setWidth 32) ((a.val >>> 32).setWidth 32) ∧ (slotOf u a.sig).ts = x.edge ∧
        rg u .rseq r.val Reg.RSEQ.STEP_CNT = rg s .rseq r.val Reg.RSEQ.STEP_CNT + 1 ∧ bit (u.page (pk .rseq r.val)).intRaw 0 = true ∧
        (rseqOf u r.val).log = (if x.log.length < 64 then x.log else x.log.drop 1) ++
          [⟨tlogWord x.cur d c x.path (rseqActive s r.val) x.bank, x.edge⟩] ∧
        rg u .rseq r.val Reg.RSEQ.TLOG_OVF = (if x.log.length < 64 then rg s .rseq r.val Reg.RSEQ.TLOG_OVF
          else if rg s .rseq r.val Reg.RSEQ.TLOG_OVF = 0xFFFFFFFF then 0xFFFFFFFF else rg s .rseq r.val Reg.RSEQ.TLOG_OVF + 1) ∧
        rg u .rseq r.val Reg.RSEQ.STEP_NOW = ofN (d + 8192 * x.path + 32768 * rseqActive s r.val) ∧
        stOf u .rseq r.val = .run ∧ OnlyPublished { s with rseqs := u.rseqs } u [pk .rseq r.val])) ∧
  (∀ (s : State) (r : Fin 8) (x : RseqSt) (y : RBank) (st : RStep) (d c : Nat), stOf s .rseq r.val = .run → PageIdle s (pk .rseq r.val) →
      x = rseqOf s r.val → x.ending = some (.next d c) → rseqRecipe s r.val = some y → y.steps[x.cur]? = some st → st.fin = true → x.runs = [] →
      Gives (.rseqStepEnd r) s (fun u => stOf u .rseq r.val = .idle ∧
        rg u .rseq r.val Reg.RSEQ.JOB_CNT = rg s .rseq r.val Reg.RSEQ.JOB_CNT + 1 ∧ bit (u.page (pk .rseq r.val)).intRaw 1 = true ∧
        (rseqOf u r.val).log = (if x.log.length < 64 then x.log else x.log.drop 1) ++ [⟨tlogWord x.cur x.cur 10 x.path x.bank x.bank, x.edge⟩] ∧
        (x.path = 2 → bit (u.page (pk .rseq r.val)).intRaw 6 = true) ∧
        OnlyPages { s with rseqs := u.rseqs } u ∧ OtherPages s u (pk .rseq r.val))) ∧
  (∀ (s : State) (r : Fin 8) (x : RseqSt) (y : RBank) (st : RStep) (d c : Nat), stOf s .rseq r.val = .run → PageIdle s (pk .rseq r.val) →
      x = rseqOf s r.val → x.ending = some (.next d c) → rseqRecipe s r.val = some y → y.steps[x.cur]? = some st → st.fin = false → st.rest = true →
      x.path ≠ 2 → x.runs = [] →
      Gives (.rseqStepEnd r) s (fun u => stOf u .rseq r.val = .hold ∧ bit (u.page (pk .rseq r.val)).intRaw 4 = true ∧
        rseqOf u r.val = { x with ending := none, log := (if x.log.length < 64 then x.log else x.log.drop 1) ++
          [⟨tlogWord x.cur x.cur c x.path x.bank x.bank, x.edge⟩] } ∧
        OnlyPages { s with rseqs := u.rseqs } u ∧ OtherPages s u (pk .rseq r.val))) ∧
  (∀ (s : State) (r : Fin 8), inSt s .rseq r.val [.run, .hold] = true → (rseqOf s r.val).timeout = true →
      Gives (.waitTimeout r) s (fun u => rseqOf u r.val = { rseqOf s r.val with timeout := false, holdReq := (rseqOf s r.val).holdReq.or (some 5) } ∧
        bit (u.page (pk .rseq r.val)).intRaw 7 = true ∧ OnlyPages { s with rseqs := u.rseqs } u ∧ OtherPages s u (pk .rseq r.val) ∧
        OtherRegs s u .rseq r.val [])) ∧
  (∀ (s : State) (r : Fin 8) (a : RRun), stOf s .rseq r.val ≠ .off → (rseqOf s r.val).runs = [a] → a.pulse = true → a.n = 0 → a.sig ≠ 0 →
      (sigEnt s a.sig).en = true → sigRun s = true → rseqOwns r.val (sigEnt s a.sig) = true → (sigEnt s a.sig).typ = 3 → 0 ≤ a.g → a.g ≤ 1 →
      Gives (.rseqPulseEnd r) s (fun u => (slotOf u a.sig).raw = BitVec.ofInt 64 a.g ∧ (slotOf u a.sig).ts = (rseqOf s r.val).edge ∧
        rseqOf u r.val = { rseqOf s r.val with runs := [] } ∧ (∀ i, i ≠ a.sig → slotOf u i = slotOf s i) ∧
        OnlyPublished { s with rseqs := u.rseqs } u []))

/-- Programs of a recipe stepper and its log (R337, R341, R345, R347, Table 12-6). LOAD makes the bank that is not active invalid and starts; a good
image ends in that bank and shows there; an image whose header fails ends in PHASE 14 with its code and LOAD_ERR. UNLOAD makes that bank invalid; BRANCH_ABORT waits
for the next edge, where the abort branch is requested, or in HOLD entered; TLOG_CLEAR empties the log. A read of TLOG_ENT answers the oldest entry, removes it and
latches its time; of an empty log 0. -/
def Obligations.recipe_programs : Prop :=
  (∀ (s : State) (r : Fin 8) (chk : BitVec 16) (k : Nat), ActsNow s .rseq r.val 0x10 .ap0 chk → k = 1 - rseqActive s r.val →
      Gives (.rseqLoad r chk) s (fun u => rseqOf u r.val = { (rseqOf s r.val).setBank k none with src := some (rgU64 s .rseq r.val Reg.RSEQ.LOAD_SRC_LO, k) } ∧
        rb u .rseq r.val (Reg.RSEQ.BANK_STAT + 4 * k) 0 = false ∧ (u.page (pk .rseq r.val)).busy = true ∧
        (u.page (pk .rseq r.val)).prog = progWord 3 1 0 ∧ CmdDone u (pk .rseq r.val) (cmdWord chk 0x10) ∧ OnlyPages { s with rseqs := u.rseqs } u ∧
        OtherPages s u (pk .rseq r.val))) ∧
  (∀ (s : State) (r : Fin 8) (a k : Nat) (y : RBank), powered s .rseq r.val = true → (rseqOf s r.val).src = some (a, k) → k ≤ 1 →
      (rLoad s r.val a false).toOption = some y →
      Gives (.rseqLoadEnd r []) s (fun u => rseqOf u r.val = { (rseqOf s r.val).setBank k (some y) with src := none } ∧
        rg u .rseq r.val (Reg.RSEQ.BANK_STAT + 4 * k) = ofN (1 + 65536 * y.steps.length) ∧
        rg u .rseq r.val (Reg.RSEQ.BANK_ID + 4 * k) = y.id ∧ rg u .rseq r.val (Reg.RSEQ.BANK_CRC + 4 * k) = y.crc ∧
        rg u .rseq r.val Reg.RSEQ.LOAD_ERR = 0 ∧ (u.page (pk .rseq r.val)).busy = false ∧
        (u.page (pk .rseq r.val)).prog = progWord 1 15 10000 ∧ bit (u.page (pk .rseq r.val)).intRaw 9 = true ∧
        OnlyPages { s with rseqs := u.rseqs } u ∧ OtherPages s u (pk .rseq r.val))) ∧
  (∀ (s : State) (r : Fin 8) (a k : Nat) (c : ErrCode) (kind item : Nat), powered s .rseq r.val = true → (rseqOf s r.val).src = some (a, k) →
      rHeaderBad s a false = some (c, kind, item) →
      Gives (.rseqLoadEnd r []) s (fun u => rseqOf u r.val = { rseqOf s r.val with src := none } ∧
        rg u .rseq r.val Reg.RSEQ.LOAD_ERR = ofN (kind * 16777216 + item % 16777216) ∧ (u.page (pk .rseq r.val)).busy = false ∧
        fld (u.page (pk .rseq r.val)).prog 24 4 = 14 ∧ (u.page (pk .rseq r.val)).err = errWord c 0x010 4 ∧
        bit (u.page (pk .rseq r.val)).intRaw 10 = true ∧ OnlyPages { s with rseqs := u.rseqs, seed := u.seed } u ∧
        OtherPages s u (pk .rseq r.val) ∧ OtherRegs s u .rseq r.val [Reg.RSEQ.LOAD_ERR])) ∧
  (∀ (s : State) (r : Fin 8) (ecc : List (Bool × Nat)), Gives (.rseqLoadEnd r ecc) s (fun u => u.now = s.now)) ∧
  (∀ (s : State) (r : Fin 8) (chk : BitVec 16), ActsNow s .rseq r.val 0x11 .ap0 chk →
      Gives (.rseqUnload r chk) s (fun u => rseqOf u r.val = (rseqOf s r.val).setBank (1 - rseqActive s r.val) none ∧
        rb u .rseq r.val (Reg.RSEQ.BANK_STAT + 4 * (1 - rseqActive s r.val)) 0 = false ∧ CmdDone u (pk .rseq r.val) (cmdWord chk 0x11) ∧
        OnlyPages { s with rseqs := u.rseqs } u ∧ OtherPages s u (pk .rseq r.val) ∧
        OtherRegs s u .rseq r.val [Reg.RSEQ.BANK_STAT + 4 * (1 - rseqActive s r.val)])) ∧
  (∀ (s : State) (r : Fin 8) (chk : BitVec 16) (t : Nat) (x : RseqSt) (y : RBank), WaitsFree s .rseq r.val 0x12 .ap0 chk → x = rseqOf s r.val →
      x.ending = none → x.timeout = false → x.runs = [] → x.abortReq = none → rseqRecipe s r.val = some y →
      rseqEdgeAt s r.val ((s.at t).lap t) = true →
      (stOf s .rseq r.val = .run → x.path ≠ 2 →
        GivesAfter (.branchAbort r chk) s .rseq r.val 0x12 .ap0 chk (.rseqClockEdge r t) (fun u =>
          (rseqOf u r.val).ending = some (.abort 4) ∧ (rseqOf u r.val).cur = x.cur ∧ (rseqOf u r.val).el = x.el + 1 ∧ stOf u .rseq r.val = .run ∧
          CmdDone u (pk .rseq r.val) (cmdWord chk 0x12) ∧ OnlyPages { s with rseqs := u.rseqs, now := max s.now t } u)) ∧
      (stOf s .rseq r.val = .hold → y.abort ≠ 0xFFFF →
        GivesAfter (.branchAbort r chk) s .rseq r.val 0x12 .ap0 chk (.rseqClockEdge r t) (fun u =>
          stOf u .rseq r.val = .run ∧ (rseqOf u r.val).cur = y.abort ∧ (rseqOf u r.val).path = 2 ∧ (rseqOf u r.val).el = 0 ∧
          bit (u.page (pk .rseq r.val)).intRaw 5 = true ∧ CmdDone u (pk .rseq r.val) (cmdWord chk 0x12) ∧ SameMem s u)) ∧
      (stOf s .rseq r.val = .hold → y.abort = 0xFFFF →
        GivesAfter (.branchAbort r chk) s .rseq r.val 0x12 .ap0 chk (.rseqClockEdge r t) (fun u =>
          stOf u .rseq r.val = .idle ∧ bit (u.page (pk .rseq r.val)).intRaw 6 = true ∧
          CmdDone u (pk .rseq r.val) (cmdWord chk 0x12) ∧ SameMem s u))) ∧
  (∀ (s : State) (r : Fin 8) (chk : BitVec 16), ActsNow s .rseq r.val 0x13 .ap0 chk →
      Gives (.tlogClear r chk) s (fun u => rseqOf u r.val = { rseqOf s r.val with log := [] } ∧ rg u .rseq r.val Reg.RSEQ.TLOG_OVF = 0 ∧
        rg u .rseq r.val Reg.RSEQ.TLOG_COUNT = 0 ∧ CmdDone u (pk .rseq r.val) (cmdWord chk 0x13) ∧ OnlyPages { s with rseqs := u.rseqs } u ∧
        OtherPages s u (pk .rseq r.val))) ∧
  (∀ (s : State) (r : Fin 8), answers s ⟨.rseq, r.val⟩ = true →
      Gives (.tlogEntRead r) s (fun u =>
        (∀ e l, (rseqOf s r.val).log = e :: l → u.resp = ⟨e.word, 0, .ok⟩ ∧ rseqOf u r.val = { rseqOf s r.val with log := l } ∧
          rg u .rseq r.val Reg.RSEQ.TLOG_TS_LO = tsLo e.ts ∧ rg u .rseq r.val Reg.RSEQ.TLOG_TS_HI = tsHi e.ts ∧
          rg u .rseq r.val Reg.RSEQ.TLOG_COUNT = ofN l.length) ∧
        ((rseqOf s r.val).log = [] → u.resp = ⟨0, 0, .ok⟩ ∧ rseqOf u r.val = rseqOf s r.val) ∧
        OnlyPages { s with rseqs := u.rseqs, resp := u.resp } u ∧ OtherPages s u (pk .rseq r.val)))

/-- The signal table and its history (R350, R352, R353, R357, R358). A write of ENT_ID copies the entry into the window, which then shows its words with nothing
staged; with a staged window it is refused. LOAD takes its operands; at its end every entry becomes active together and CHG_CNT counts each, or on a
wrong CRC or a refused entry none. The oldest queued entry of the history is stored at the next place of the ring. -/
def Obligations.signals_and_history : Prop :=
  (∀ (s : State) (v : Word), answers s ⟨.sig, 0⟩ = true → (s.page (pk .sig 0)).key ≠ .window → (s.page (pk .sig 0)).locked = false →
      Gives (.entIdWrite v) s (fun u =>
        ((s.page (pk .sig 0)).dirty = false → (s.page (pk .sig 0)).commit = .none → u.sigCopy = some (fld v 0 16) ∧
          rg u .sig 0 Reg.SIG.ENT_ID = v &&& 0xFFFF ∧ (u.page (pk .sig 0)).busy = true ∧ OtherRegs s u .sig 0 [Reg.SIG.ENT_ID]) ∧
        ((s.page (pk .sig 0)).dirty = true → u.sigCopy = s.sigCopy ∧ (u.page (pk .sig 0)).err = errWord .conflict Reg.SIG.ENT_ID 3 ∧
          OtherRegs s u .sig 0 []) ∧
        OnlyPages { s with sigCopy := u.sigCopy } u ∧ OtherPages s u (pk .sig 0))) ∧
  (∀ (s : State) (id : Nat), powered s .sig 0 = true → s.sigCopy = some id →
      Gives .sigCopyEnd s (fun u => rg u .sig 0 Reg.SIG.ENT_W = (sigEnt s id).w0 ∧ rg u .sig 0 (Reg.SIG.ENT_W + 4) = (sigEnt s id).w1 ∧
        rg u .sig 0 (Reg.SIG.ENT_W + 8) = (sigEnt s id).w2 ∧ rg u .sig 0 (Reg.SIG.ENT_W + 12) = (sigEnt s id).w3 ∧
        (u.page (pk .sig 0)).staged = [] ∧ (u.page (pk .sig 0)).dirty = false ∧ (u.page (pk .sig 0)).busy = s.sigLoad.isSome ∧ u.sigCopy = none ∧
        OnlyPages { s with sigCopy := none } u ∧ OtherPages s u (pk .sig 0) ∧
        OtherRegs s u .sig 0 [Reg.SIG.ENT_W, Reg.SIG.ENT_W + 4, Reg.SIG.ENT_W + 8, Reg.SIG.ENT_W + 12])) ∧
  (∀ (s : State) (chk : BitVec 16), ActsNow s .sig 0 0x10 .ap0 chk →
      Gives (.sigLoad chk) s (fun u => u.sigLoad = some ⟨rgU64 s .sig 0 Reg.SIG.LOAD_SRC_LO, rf s .sig 0 Reg.SIG.LOAD_FIRST 0 16,
          rf s .sig 0 Reg.SIG.LOAD_N 0 17, rg s .sig 0 Reg.SIG.LOAD_CRC⟩ ∧ (u.page (pk .sig 0)).busy = true ∧
        (u.page (pk .sig 0)).prog = progWord 3 1 0 ∧ CmdDone u (pk .sig 0) (cmdWord chk 0x10) ∧ OnlyPages { s with sigLoad := u.sigLoad } u ∧
        OtherPages s u (pk .sig 0) ∧ OtherRegs s u .sig 0 [])) ∧
  (∀ (s : State) (l : SigLoad), powered s .sig 0 = true → s.sigLoad = some l → crc32c (memBytes s l.src (16 * l.n)) = l.crc →
      loadBad { s with sigLoad := none } l l.n = none →
      Gives (.sigLoadEnd []) s (fun u => (∀ i, i < l.n → sigEnt u (l.first + i) = loadEntry s l.src i) ∧
        (∀ id, id < l.first ∨ l.first + l.n ≤ id → sigEnt u id = sigEnt s id) ∧ rg u .sig 0 Reg.SIG.CHG_CNT = rg s .sig 0 Reg.SIG.CHG_CNT + ofN l.n ∧
        rg u .sig 0 Reg.SIG.LOAD_ERR = 0 ∧ u.sigLoad = none ∧ (u.page (pk .sig 0)).busy = false ∧
        (u.page (pk .sig 0)).prog = progWord 1 15 10000 ∧ bit (u.page (pk .sig 0)).intRaw 0 = true ∧ u.slots = s.slots ∧ SameMem s u)) ∧
  (∀ (s : State) (l : SigLoad), powered s .sig 0 = true → s.sigLoad = some l → crc32c (memBytes s l.src (16 * l.n)) ≠ l.crc →
      Gives (.sigLoadEnd []) s (fun u => u.sigs = s.sigs ∧ rf u .sig 0 Reg.SIG.LOAD_ERR 24 8 = 1 ∧ (u.page (pk .sig 0)).err = errWord .crcMismatch 0x01C 4 ∧
        fld (u.page (pk .sig 0)).prog 24 4 = 14 ∧ (u.page (pk .sig 0)).busy = false ∧ bit (u.page (pk .sig 0)).intRaw 1 = true ∧
        OnlyPages { s with sigLoad := none, seed := u.seed } u ∧ OtherPages s u (pk .sig 0) ∧ OtherRegs s u .sig 0 [Reg.SIG.LOAD_ERR])) ∧
  (∀ (s : State) (l : SigLoad) (id : Nat) (c : ErrCode), powered s .sig 0 = true → s.sigLoad = some l →
      crc32c (memBytes s l.src (16 * l.n)) = l.crc → loadBad { s with sigLoad := none } l l.n = some (id, c) →
      Gives (.sigLoadEnd []) s (fun u => u.sigs = s.sigs ∧ rg u .sig 0 Reg.SIG.LOAD_ERR = ofN (id + 16777216 * (if c = .range then 2 else 3)) ∧
        (u.page (pk .sig 0)).err = errWord c 0x010 4 ∧ fld (u.page (pk .sig 0)).prog 24 4 = 14 ∧ (u.page (pk .sig 0)).busy = false ∧
        OnlyPages { s with sigLoad := none, seed := u.seed } u ∧ OtherPages s u (pk .sig 0) ∧ OtherRegs s u .sig 0 [Reg.SIG.LOAD_ERR])) ∧
  (∀ (s : State) (ecc : List (Bool × Nat)), Gives (.sigLoadEnd ecc) s (fun u => u.now = s.now)) ∧
  (∀ (s : State) (t : Nat) (e : HistEnt) (q : List HistEnt), stOf s .recStore 0 = .run → histCap s ≠ 0 → s.histQ = e :: q → s.histLost = none →
      s.histCnt < histCap s → s.recExp = none →
      Gives (.historyAppend t []) s (fun u => u.histQ = q ∧ u.histCnt = s.histCnt + 1 ∧ u.histPos = (s.histPos + 1) % histCap s ∧
        WroteWords s u ((e.words.zipIdx).map (fun w => (histAddr s s.histPos + 4 * w.2, w.1))) ∧
        OnlyPages { s with mem := u.mem, histQ := q, histCnt := u.histCnt, histPos := u.histPos, histSec := u.histSec, now := max s.now t } u ∧
        OtherPages s u (pk .recStore 0)))

/-- Acquisition and exports (R362 to R368, R370 to R373). START waits for the next sample instant, where the unit enters RUN and its record begins. A
sample of one analog source is a frame, stored in the ring before the trigger and in order after it. A
trigger takes an armed unit to POST with its time, later ones are counted; POST complete takes it to REARM; at the end of REARM the record counts in REC_SEQ with
its address in LAST_REC, unless the region has no slot, and the unit is IDLE or waits for its next record; the REARM command starts a record anew. EXPORT takes its operands; its end writes the copy within its room,
or fails where the record has gone. -/
def Obligations.acquisition_records : Prop :=
  (∀ (s : State) (u : Fin 16) (t i a : Nat) (w pads : Word) (x : AcqSt), stOf s .acq u.val = .run → (acqInstant (s.at t) u.val ((s.at t).lap t)).1 = true →
      acqDigital (acqReg s u.val) = false → acqEvent (acqReg s u.val) = false → acqK (acqReg s u.val) = 0 → rf s .acq u.val Reg.ACQ.TRIG 0 3 = 0 →
      acqSources (acqReg s u.val) = [(i, w)] → fld w 0 2 = 1 → (sigEnt s (fld w 16 16)).typ < 2 → x = acqOf s u.val → x.grp = [] → x.toBegin = false →
      acqSlot s u.val = some a → s.recExp = none →
      (x.trig = false → acqPhase s u.val ≠ 3 → x.pre.length < acqPre (acqReg s u.val) → Gives (.acqSample u t pads) s (fun v =>
        (acqOf v u.val).pre = x.pre ++ [⟨t, [sigLo s (fld w 16 16)]⟩] ∧ (acqOf v u.val).ring = (x.ring + 1) % acqPre (acqReg s u.val) ∧
        acqPhase v u.val = (if x.pre.length + 1 = acqPre (acqReg s u.val) then 1 else acqPhase s u.val) ∧
        WroteWords s v [(a + 512 + 4 * x.ring, sigLo s (fld w 16 16))] ∧
        OnlyPages { s with acqs := v.acqs, mem := v.mem, now := max s.now t } v ∧ OtherPages s v (pk .acq u.val) ∧
        OtherRegs s v .acq u.val [Reg.ACQ.STAT])) ∧
      (x.trig = true → acqPhase s u.val = 2 → x.post.length < acqPost (acqReg s u.val) → Gives (.acqSample u t pads) s (fun v =>
        (acqOf v u.val).post = x.post ++ [⟨t, [sigLo s (fld w 16 16)]⟩] ∧ (acqOf v u.val).trigAt = x.trigAt.or (some t) ∧
        WroteWords s v [(a + 512 + 4 * (acqPre (acqReg s u.val) + x.post.length), sigLo s (fld w 16 16))] ∧
        OnlyPages { s with acqs := v.acqs, mem := v.mem, now := max s.now t } v ∧ OtherPages s v (pk .acq u.val) ∧ OtherRegs s v .acq u.val []))) ∧
  (∀ (s : State) (u : Nat) (m : Master) (chk : BitVec 16), ActsNow s .acq u 1 m chk →
      Gives (.cmdStart ⟨.acq, u⟩ m chk) s (fun v => stOf v .acq u = .idle ∧ (acqOf v u).toBegin = true ∧ (acqOf v u).pre = [] ∧ (acqOf v u).trig = false ∧
        (∀ o ∈ [Reg.ACQ.REC_SEQ, Reg.ACQ.TRIG_IGNORED, Reg.ACQ.EVT_SKIP, Reg.ACQ.GAP_CNT], rg v .acq u o = 0) ∧
        CmdDone v (pk .acq u) (cmdWord chk 1) ∧ OnlyPages { s with acqs := v.acqs } v)) ∧
  (∀ (s : State) (u : Fin 16) (t i a : Nat) (w pads : Word), (acqOf s u.val).toBegin = true →
      (stOf s .acq u.val = .idle ∨ stOf s .acq u.val = .run ∧ acqPhase s u.val = 3) → (acqInstant (s.at t) u.val ((s.at t).lap t)).1 = true →
      acqDigital (acqReg s u.val) = false → acqEvent (acqReg s u.val) = false → acqK (acqReg s u.val) = 0 → rf s .acq u.val Reg.ACQ.TRIG 0 3 = 0 →
      acqSources (acqReg s u.val) = [(i, w)] → fld w 0 2 = 1 → (sigEnt s (fld w 16 16)).typ < 2 → acqSlot s u.val = some a → s.recExp = none →
      2 ≤ acqPre (acqReg s u.val) →
      Gives (.acqSample u t pads) s (fun v => stOf v .acq u.val = .run ∧ acqPhase v u.val = 0 ∧ (acqOf v u.val).toBegin = false ∧
        (acqOf v u.val).pre = [⟨t, [sigLo s (fld w 16 16)]⟩] ∧ (acqOf v u.val).trig = false ∧ (acqOf v u.val).grid = (acqOf s u.val).grid ∧
        WroteWords s v [(a + 512, sigLo s (fld w 16 16))] ∧
        OnlyPages { s with acqs := v.acqs, mem := v.mem, now := max s.now t } v ∧
        (∀ k, k ≠ pk .acq u.val → k ≠ pk .recStore 0 → v.page k = s.page k))) ∧
  (∀ (s : State) (u : Fin 16) (chk : BitVec 16), ActsNow s .acq u.val 0x10 .ap0 chk → acqFollowers s u.val = [] →
      Gives (.acqTriggerCmd u chk) s (fun v =>
        (acqPhase s u.val = 1 ∨ acqPhase s u.val = 0 ∧ rb s .acq u.val Reg.ACQ.CFG 4 = false → acqPhase v u.val = 2 ∧ (acqOf v u.val).trig = true ∧
          rgU64 v .acq u.val Reg.ACQ.TRIG_TIME_LO = s.now % 18446744073709551616 ∧ bit (v.page (pk .acq u.val)).intRaw 0 = true ∧
          (acqPhase s u.val = 0 → bit (v.page (pk .acq u.val)).intRaw 4 = true)) ∧
        (2 ≤ acqPhase s u.val → rg v .acq u.val Reg.ACQ.TRIG_IGNORED = (if rg s .acq u.val Reg.ACQ.TRIG_IGNORED = 0xFFFFFFFF then 0xFFFFFFFF else
            rg s .acq u.val Reg.ACQ.TRIG_IGNORED + 1) ∧ bit (v.page (pk .acq u.val)).intRaw 2 = true ∧ acqPhase v u.val = acqPhase s u.val) ∧
        CmdDone v (pk .acq u.val) (cmdWord chk 0x10) ∧ OnlyPages { s with acqs := v.acqs } v ∧ OtherPages s v (pk .acq u.val))) ∧
  (∀ (s : State) (u : Fin 16) (t : Nat), stOf s .acq u.val = .run → acqEventDue s u.val = true → acqPhase s u.val = 1 → acqFollowers s u.val = [] →
      Gives (.acqTrigger u t) s (fun v => acqPhase v u.val = 2 ∧ (acqOf v u.val).trig = true ∧ (acqOf v u.val).busDue = false ∧
        rgU64 v .acq u.val Reg.ACQ.TRIG_TIME_LO = t % 18446744073709551616 ∧ bit (v.page (pk .acq u.val)).intRaw 0 = true ∧
        OnlyPages { s with acqs := v.acqs, now := max s.now t } v ∧ OtherPages s v (pk .acq u.val) ∧
        OtherRegs s v .acq u.val [Reg.ACQ.STAT, Reg.ACQ.TRIG_TIME_LO, Reg.ACQ.TRIG_TIME_LO + 4])) ∧
  (∀ (s : State) (u : Fin 16) (chk : BitVec 16), ActsNow s .acq u.val 0x11 .ap0 chk →
      Gives (.acqRearm u chk) s (fun v => (acqOf v u.val).pre = [] ∧ (acqOf v u.val).post = [] ∧ (acqOf v u.val).marks = [] ∧
        (acqOf v u.val).trig = false ∧ (acqOf v u.val).grid = (acqOf s u.val).grid ∧
        acqPhase v u.val = (if acqPre (acqReg s u.val) = 0 then 1 else 0) ∧ rg v .acq u.val Reg.ACQ.REC_SEQ = rg s .acq u.val Reg.ACQ.REC_SEQ ∧
        CmdDone v (pk .acq u.val) (cmdWord chk 0x11) ∧ OnlyPages { s with acqs := v.acqs } v ∧ OtherPages s v (pk .acq u.val) ∧
        OtherRegs s v .acq u.val [Reg.ACQ.STAT])) ∧
  (∀ (s : State) (u : Fin 16) (t : Nat), stOf s .acq u.val = .run → acqPhase s u.val = 2 →
      acqPost (acqReg s u.val) ≤ (acqOf s u.val).post.length → acqCome (s.at t) (acqRearmAt s u.val) = true →
      Gives (.postComplete u t) s (fun v => acqPhase v u.val = 3 ∧ acqOf v u.val = { acqOf s u.val with grp := [], drive := false } ∧
        OnlyPages { s with acqs := v.acqs, now := max s.now t } v ∧ OtherPages s v (pk .acq u.val) ∧ OtherRegs s v .acq u.val [Reg.ACQ.STAT])) ∧
  (∀ (s : State) (u : Fin 16) (t a b : Nat), stOf s .acq u.val = .run → acqPhase s u.val = 3 → acqSlot s u.val = some a → (acqOf s u.val).pubs = [] →
      (acqOf s u.val).marks.length ≤ 64 → s.recExp = none → (s.page (pk .acq u.val)).commit = .none → rf s .acq u.val Reg.ACQ.CFG 2 2 ∈ [0, 2] →
      (acqOf s u.val).toBegin = false →
      b = acqSlotBytes s (acqReg s u.val) → acqCome (s.at t) (acqRearmDue s u.val) = true →
      Gives (.acqRearmEnd u t) s (fun v =>
        (rf s .acq u.val Reg.ACQ.CFG 2 2 = 0 → stOf v .acq u.val = .idle ∧ (acqOf v u.val).toBegin = false) ∧
        (rf s .acq u.val Reg.ACQ.CFG 2 2 = 2 → stOf v .acq u.val = .run ∧ acqPhase v u.val = 3 ∧ (acqOf v u.val).toBegin = true) ∧
        rg v .acq u.val Reg.ACQ.REC_SEQ = rg s .acq u.val Reg.ACQ.REC_SEQ + 1 ∧ rgU64 v .acq u.val Reg.ACQ.LAST_REC_LO = a % 18446744073709551616 ∧
        bit (v.page (pk .acq u.val)).intRaw 1 = true ∧ mem32 v a = 0x41430001 ∧ mem32 v (a + 8) = rg s .acq u.val Reg.ACQ.REC_SEQ + 1 ∧
        (∀ c, c < a ∨ a + b ≤ c → mem8 v c = mem8 s c) ∧
        OnlyPages { s with acqs := v.acqs, mem := v.mem, now := max s.now t } v)) ∧
  (∀ (s : State) (u : Fin 16) (t : Nat), stOf s .acq u.val = .run → acqPhase s u.val = 3 → acqSlot s u.val = none → (acqOf s u.val).pubs = [] →
      (s.page (pk .acq u.val)).commit = .none → rf s .acq u.val Reg.ACQ.CFG 2 2 = 0 → (acqOf s u.val).toBegin = false →
      acqCome (s.at t) (acqRearmDue s u.val) = true →
      Gives (.acqRearmEnd u t) s (fun v => stOf v .acq u.val = .idle ∧ rg v .acq u.val Reg.ACQ.REC_SEQ = rg s .acq u.val Reg.ACQ.REC_SEQ ∧
        OnlyPages { s with acqs := v.acqs, now := max s.now t } v)) ∧
  (∀ (s : State) (chk : BitVec 16), ActsNow s .recStore 0 0x10 .ap0 chk →
      Gives (.recExport chk) s (fun v => (∃ x, v.recExp = some x ∧ x.kind = rf s .recStore 0 Reg.REC.EXP_CTL 0 2 ∧ x.seq = rg s .recStore 0 Reg.REC.EXP_SEQ ∧
          x.dst = rgU64 s .recStore 0 Reg.REC.EXP_DST_LO ∧ x.hit = false ∧
          (x.found = true ↔ (x.kind = 0 → ∃ a, expSlot s x.unit x.seq = some a ∧ mem32 s (a + 8) = x.seq)) ∧
          (x.kind = 0 → x.src = (expSlot s x.unit x.seq).getD 0)) ∧ rgU64 v .recStore 0 Reg.REC.EXP_LEN_LO = 0 ∧
        rg v .recStore 0 Reg.REC.EXP_UE = 0 ∧ (v.page (pk .recStore 0)).busy = true ∧ (v.page (pk .recStore 0)).prog = progWord 0 1 0 ∧
        CmdDone v (pk .recStore 0) (cmdWord chk 0x10) ∧ OnlyPages { s with recExp := v.recExp } v ∧ OtherPages s v (pk .recStore 0))) ∧
  (∀ (s : State) (x : RecExp) (ws : List Word), powered s .recStore 0 = true → s.recExp = some x →
      x.found = true → ws = ((expCopy s x []).1).take (x.limit / 4) →
      Gives (.recExportEnd false []) s (fun v => WroteWords s v (ws.zipIdx.map (fun e => (x.dst + 4 * e.2, e.1))) ∧
        rgU64 v .recStore 0 Reg.REC.EXP_LEN_LO = 4 * ws.length % 18446744073709551616 ∧ v.recExp = none ∧ (v.page (pk .recStore 0)).busy = false ∧
        (v.page (pk .recStore 0)).prog = progWord 1 15 10000 ∧ OnlyPages { s with recExp := none, mem := v.mem } v ∧
        OtherPages s v (pk .recStore 0))) ∧
  (∀ (s : State) (x : RecExp) (lost : Bool), powered s .recStore 0 = true → s.recExp = some x → x.found = false → (lost = true → x.hit = false) →
      Gives (.recExportEnd lost []) s (fun v => v.recExp = none ∧ (v.page (pk .recStore 0)).err = errWord .range 0x010 4 ∧
        fld (v.page (pk .recStore 0)).prog 24 4 = 14 ∧ SameMem s v ∧
        OnlyPages { s with recExp := none, seed := v.seed } v ∧ OtherPages s v (pk .recStore 0))) ∧
  (∀ (s : State) (x : RecExp), powered s .recStore 0 = true → s.recExp = some x → x.hit = true →
      Gives (.recExportEnd true []) s (fun v => v.recExp = none ∧ (v.page (pk .recStore 0)).err = errWord .conflict 0x010 4 ∧
        fld (v.page (pk .recStore 0)).prog 24 4 = 14 ∧ bit (v.page (pk .recStore 0)).intRaw 0 = true ∧ SameMem s v ∧
        OnlyPages { s with recExp := none, seed := v.seed } v ∧ OtherPages s v (pk .recStore 0)))

/-- Device time (R374 to R380, R391). A wrap brings extended time there, shows WRAP and marks the history. A RATE in its range is taken outside role SLAVE
and adjusts time, beyond it RANGE refuses it. STEP and FORCE_STEP make STEP_VAL wait, in role MASTER for its announced instant; the step, when it
applies, moves extended time, shows in STEP_LAST and TICK_DEV and marks the history. No adjustment for HOLDOVER_T raises TIME_HOLDOVER;
JOIN opens PHASE 1 with its time-out, which ends it in PHASE 14. A base tick edge that falls at t brings extended time to t and is the last edge; it changes
neither elapsed time nor which domains have power nor the queue; at another instant there is no edge. -/
def Obligations.device_time : Prop :=
  (∀ (s : State) (t : Nat), t % 34359738368 = 0 → s.now < t →
      Gives (.timeWrap t) s (fun u => u.now = t ∧ bit (u.page (pk .time 0)).intRaw 0 = true ∧
        u.histQ = (if histOn s then s.histQ ++ [⟨1, 0, false, false, 0, BitVec.ofNat 64 (t / 34359738368)⟩] else s.histQ) ∧
        OnlyPages { s with now := t, histQ := u.histQ } u ∧ OtherPages s u (pk .time 0) ∧ OtherRegs s u .time 0 [])) ∧
  (∀ (s : State) (v : Word), answers s ⟨.time, 0⟩ = true → (s.page (pk .time 0)).key ≠ .window → (s.page (pk .time 0)).locked = false →
      Gives (.rateWrite v) s (fun u =>
        ((sw v).natAbs ≤ 549755813 → timeRole s ≠ 2 → rg u .time 0 Reg.TIME.RATE = v ∧ u.adjAt = some (s.lap s.now) ∧
          rb u .time 0 Reg.TIME.STAT 0 = false ∧ (∀ h ∈ u.holds, ¬(h.src = 0x1B ∧ h.pgType = PgTy.time.code ∧ h.inst = 0 ∧ h.sub = 0)) ∧
          OtherRegs s u .time 0 [Reg.TIME.RATE, Reg.TIME.STAT] ∧ (∀ k, k ≠ pk .time 0 → k ≠ pk .flt 0 → u.page k = s.page k) ∧
          OnlyPages { s with adjAt := u.adjAt, holds := u.holds, flog := u.flog } u) ∧
        (549755813 < (sw v).natAbs → (u.page (pk .time 0)).err = errWord .range Reg.TIME.RATE 3 ∧ OtherRegs s u .time 0 [] ∧ OnlyPages s u ∧
          OtherPages s u (pk .time 0)) ∧
        ((sw v).natAbs ≤ 549755813 → timeRole s = 2 → (u.page (pk .time 0)).err = errWord .wrongState Reg.TIME.RATE 3 ∧ OtherRegs s u .time 0 [] ∧
          OnlyPages s u ∧ OtherPages s u (pk .time 0)))) ∧
  (∀ (s : State) (chk : BitVec 16), ActsNow s .time 0 0x10 .ap0 chk →
      Gives (.timeStep chk) s (fun u => u.timeStep = some ⟨rg64 s .time 0 Reg.TIME.STEP_VAL_LO,
          if timeRole s = 1 then some ((s.now / 8000 + 1 + rf s .time 0 Reg.TIME.TRG_DELAY 0 8) * 8000) else none, false⟩ ∧
        u.now = s.now ∧ u.adjAt = some (s.lap s.now) ∧ rb u .time 0 Reg.TIME.STAT 4 = true ∧ rb u .time 0 Reg.TIME.STAT 0 = false ∧
        CmdDone u (pk .time 0) (cmdWord chk 0x10) ∧ (∀ k, k ≠ pk .time 0 → k ≠ pk .flt 0 → u.page k = s.page k) ∧
        OnlyPages { s with timeStep := u.timeStep, adjAt := u.adjAt, holds := u.holds, flog := u.flog } u)) ∧
  (∀ (s : State) (chk : BitVec 16), answers s ⟨.time, 0⟩ = true → (s.page (pk .time 0)).key ≠ .window →
      cmdRefusal s .time 0 .ap0 (cmdWord chk 0x10) = some .range →
      Gives (.timeStep chk) s (fun u => rb u .time 0 Reg.TIME.STAT 1 = true ∧ bit (u.page (pk .time 0)).intRaw 2 = true ∧
        (u.page (pk .time 0)).err = errWord .range 0x010 2 ∧ OtherRegs s u .time 0 [Reg.TIME.STAT] ∧ OnlyPages s u ∧ OtherPages s u (pk .time 0))) ∧
  (∀ (s : State) (chk : BitVec 16), ActsNow s .time 0 0x11 .ap0 chk →
      Gives (.timeForceStep chk) s (fun u => u.timeStep = some ⟨rg64 s .time 0 Reg.TIME.STEP_VAL_LO,
          if timeRole s = 1 then some ((s.now / 8000 + 1 + rf s .time 0 Reg.TIME.TRG_DELAY 0 8) * 8000) else none, false⟩ ∧
        u.now = s.now ∧ u.adjAt = some (s.lap s.now) ∧ rb u .time 0 Reg.TIME.STAT 4 = true ∧ rb u .time 0 Reg.TIME.STAT 0 = false ∧
        CmdDone u (pk .time 0) (cmdWord chk 0x11) ∧ (∀ k, k ≠ pk .time 0 → k ≠ pk .flt 0 → u.page k = s.page k) ∧
        OnlyPages { s with timeStep := u.timeStep, adjAt := u.adjAt, holds := u.holds, flog := u.flog } u)) ∧
  (∀ (s : State) (t : Nat) (x : TimeStep), s.timeStep = some x → x.at_.getD 0 ≤ t → x.late = false →
      Gives (.timeStepApply t) s (fun u => (u.now : Int) = ((max s.now t : Nat) + x.steps) % 18446744073709551616 ∧
        u.stepSum = s.stepSum + (u.now - (max s.now t : Nat)) ∧ u.timeStep = none ∧ u.tickAt = s.tickAt + (u.now - (max s.now t : Nat)) ∧
        u.lastStep = (s.lap (max s.now t), (u.now - (max s.now t : Nat) : Int)) ∧
        rg64 u .time 0 Reg.TIME.STEP_LAST_LO = (BitVec.ofInt 64 x.steps).toInt ∧ bit (u.page (pk .time 0)).intRaw 1 = true ∧
        rb u .time 0 Reg.TIME.STAT 1 = false ∧ rb u .time 0 Reg.TIME.STAT 4 = false ∧ rg u .time 0 Reg.TIME.TICK_DEV = ofI (tickDev u) ∧
        rb u .time 0 Reg.TIME.STAT 3 = (tickDev u != 0) ∧
        (max s.now t / 34359738368 ≠ u.now / 34359738368 → bit (u.page (pk .time 0)).intRaw 0 = true) ∧
        ((∀ n ∈ insts .pcmp, (pcmpOf s n).q = []) → (∀ n ∈ insts .acq, acqInRecord s n = false) →
          u.histQ = (if histOn s then s.histQ ++ ⟨2, 0, false, false, devTime u.now, BitVec.ofInt 64 x.steps⟩ ::
            (if max s.now t / 34359738368 = u.now / 34359738368 then [] else [⟨1, 0, false, false, 0, BitVec.ofNat 64 (u.now / 34359738368)⟩])
            else s.histQ) ∧
          OnlyPages { s with
            now := u.now, stepSum := u.stepSum, lastStep := u.lastStep, tickAt := u.tickAt, timeStep := none, histQ := u.histQ, ssns := u.ssns,
            pcmps := u.pcmps, steps := u.steps, cslots := u.cslots, pwms := u.pwms } u ∧
          OtherPages s u (pk .time 0)))) ∧
  (∀ (s : State) (t a : Nat), s.adjAt = some a → a + 8000000 * rf s .time 0 Reg.TIME.HOLDOVER_T 0 16 ≤ (s.at t).lap (max s.now t) → max s.now t = t →
      rb s .time 0 Reg.TIME.STAT 0 = false → RaiseLogs s 0x1B .time 0 0 →
      Gives (.holdover t) s (fun u => rb u .time 0 Reg.TIME.STAT 0 = true ∧ bit (u.page (pk .time 0)).intRaw 3 = true ∧ Logged u 0x1B .time 0 0 ∧
        OtherRegs s u .time 0 [Reg.TIME.STAT] ∧ (∀ k, k ≠ pk .time 0 → k ≠ pk .flt 0 → u.page k = s.page k) ∧
        OnlyPages { s with now := t, holds := u.holds, flog := u.flog } u)) ∧
  (∀ (s : State) (chk : BitVec 16), ActsNow s .time 0 0x12 .ap0 chk →
      Gives (.timeJoin chk) s (fun u => u.joinDue = some (s.lap s.now + 8000000 * rf s .time 0 Reg.TIME.JOIN_TMO 0 16) ∧
        (u.page (pk .time 0)).busy = true ∧ (u.page (pk .time 0)).prog = progWord 0 1 0 ∧ rb u .time 0 Reg.TIME.STAT 2 = false ∧
        CmdDone u (pk .time 0) (cmdWord chk 0x12) ∧ OtherRegs s u .time 0 [Reg.TIME.STAT] ∧ OtherPages s u (pk .time 0) ∧
        OnlyPages { s with joinDue := u.joinDue, joinCnt := 0, joinOk := false } u)) ∧
  (∀ (s : State) (t d : Nat), s.joinDue = some d → d ≤ (s.at t).lap t →
      Gives (.timeJoinTimeout t) s (fun u => u.joinDue = none ∧ (u.page (pk .time 0)).busy = false ∧ fld (u.page (pk .time 0)).prog 24 4 = 14 ∧
        (u.page (pk .time 0)).err = errWord .wrongState 0x010 4 ∧ bit (u.page (pk .time 0)).intRaw 28 = true ∧ OtherRegs s u .time 0 [] ∧
        OtherPages s u (pk .time 0) ∧ OnlyPages { s with joinDue := none, joinOk := false, seed := u.seed, now := max s.now t } u)) ∧
  (∀ (s : State) (t : Nat), powered s .time 0 = true → tickFalls s t = true →
      Gives (.baseTick t) s (fun u => u.tickAt = t ∧ u.now = max s.now t ∧ u.stepSum = s.stepSum ∧ u.dom = s.dom ∧
        u.pending = s.pending)) ∧
  (∀ (s : State) (t : Nat), tickFalls s t = false →
      Gives (.baseTick t) s (fun u => (∀ k, u.page k = s.page k) ∧ u.now = s.now ∧ u.tickAt = s.tickAt ∧ u.slots = s.slots ∧ SameMem s u)) ∧
  (∀ (s : State) (t : Nat), tickDev s = 0 → (tickFalls s t = true ↔ t % 62500 = 0 ∧ s.tickAt < t))

/-- Frames of the link (R388, R389, R392, R395, R399). At a whole microsecond a port sends a frame with the words of Table 14-2, its records leaving the queue and each
event going into two frames. A bad frame counts in CRC_CNT; a good one shows its peer, measures a round trip for HOP_DELAY, forwards a record and
publishes it with its own time. Frame lock shows and clears in UP; four frames without raise DLK_DOWN; CALIBRATE shows UPDATE and ends with the delays measured. -/
def Obligations.link_frames : Prop :=
  (∀ (s : State) (p : Fin 4) (t : Nat) (x : DlkSt) (c : Bool) (st : Int × Nat), inSt s .dlk p.val [.run, .update, .fault] = true → t % 8000 = 0 →
      x = dlkOf s p.val → c = dlkCarries s p.val →
      st = (match s.timeStep with | some ⟨n, some a, false⟩ => if t ≤ a ∧ n ≠ 0 ∧ stOf s .dlk p.val ≠ .fault ∧ isUp s p.val = false then (n, a) else (0, 0) | _ => (0, 0)) →
      Gives (.linkFrameSend p t) s (fun u =>
        (∀ f : LinkFrame, f =
            { crc := 0
              ver := 1
              node := rf s .time 0 Reg.TIME.DOMAIN 8 5
              up := isUp s p.val
              masterOk := timeRole s == 1 || (timeRole s == 2 && rb s .time 0 Reg.TIME.STAT 2)
              fseq := x.fseq
              time := t
              rate := rg s .time 0 Reg.TIME.RATE
              step := st.1
              stepAt := st.2
              echo := (x.rx.map Prod.fst).getD 0
              turn := (x.rx.map (fun r => (s.lap t - r.2) % 4294967296)).getD 0
              nodes := (1#32 <<< timeNode s) ||| nodesBeyond s p.val
              evs := if c then (x.evs.take 8).map Prod.fst else []
              recs := if c then x.recs.take 55 else [] } →
          (dlkOf u p.val).tx = some { f with crc := linkCrc f }) ∧
        (dlkOf u p.val).fseq = (x.fseq + 1) % 65536 ∧ (dlkOf u p.val).recs = (if c then x.recs.drop 55 else x.recs) ∧
        (dlkOf u p.val).evs = (if c then ((x.evs.take 8).filter (fun e => e.2 != 1)).map (fun e => (e.1, 1)) ++ x.evs.drop 8 else x.evs) ∧
        rg u .dlk p.val Reg.DLK.REC_TX = rg s .dlk p.val Reg.DLK.REC_TX + (if c then ofN (x.recs.take 55).length else 0) ∧
        rg u .dlk p.val Reg.DLK.BACKLOG = ofN (dlkOf u p.val).recs.length ∧
        OtherRegs s u .dlk p.val [Reg.DLK.REC_TX, Reg.DLK.BACKLOG] ∧ OtherPages s u (pk .dlk p.val) ∧
        OnlyPages { s with dlks := u.dlks, now := max s.now t } u)) ∧
  (∀ (s : State) (p : Fin 4) (ta t : Nat) (f : LinkFrame), inSt s .dlk p.val [.run, .update, .fault] = true → dlkUp s p.val = true →
      PageIdle s (pk .dlk p.val) → (linkGood f = false ∨ f.ver ≠ 1) →
      Gives (.linkFrameReceive p ta t f) s (fun u => rg u .dlk p.val Reg.DLK.CRC_CNT = (if rg s .dlk p.val Reg.DLK.CRC_CNT = 0xFFFFFFFF then 0xFFFFFFFF
          else rg s .dlk p.val Reg.DLK.CRC_CNT + 1) ∧ bit (u.page (pk .dlk p.val)).intRaw 2 = true ∧
        OtherRegs s u .dlk p.val [Reg.DLK.CRC_CNT] ∧ OtherPages s u (pk .dlk p.val) ∧ OnlyPages { s with now := max s.now t } u)) ∧
  (∀ (s : State) (p : Fin 4) (ta t : Nat) (f : LinkFrame) (rts : List Int), inSt s .dlk p.val [.run, .update] = true → dlkUp s p.val = true →
      PageIdle s (pk .dlk p.val) → isUp s p.val = false → linkGood f = true → f.ver = 1 → dlkCause s p.val f.node f.nodes = 0 → f.evs = [] → f.recs = [] →
      rts = (match (dlkOf s p.val).sent.find? (fun e => e.1 == f.echo) with
        | some e => ((((sofLap (s.at t) ta : Nat) : Int) - e.2 - f.turn) :: (dlkOf s p.val).rts).take 64
        | none => (dlkOf s p.val).rts) →
      Gives (.linkFrameReceive p ta t f) s (fun u => rg u .dlk p.val Reg.DLK.FRAME_CNT = rg s .dlk p.val Reg.DLK.FRAME_CNT + 1 ∧
        rg u .dlk p.val Reg.DLK.PEER_NODES = f.nodes ∧ rb u .dlk p.val Reg.DLK.STAT 3 = f.masterOk ∧
        rf u .dlk p.val Reg.DLK.STAT 8 5 = f.node % 32 ∧ (dlkOf u p.val).rx = some (f.fseq, sofLap (s.at t) ta) ∧ (dlkOf u p.val).rts = rts ∧
        rb u .dlk p.val Reg.DLK.STAT 4 = decide (64 ≤ rts.length) ∧
        (64 ≤ rts.length → rb s .dlk p.val Reg.DLK.STAT 1 = false →
          (125 * rts.foldl (· + ·) 0 + 64 * sext 16 (rg s .dlk p.val Reg.DLK.ASYM).toNat) % 1000 = 0 →
          rg u .dlk p.val Reg.DLK.HOP_DELAY = ofI ((125 * rts.foldl (· + ·) 0 + 64 * sext 16 (rg s .dlk p.val Reg.DLK.ASYM).toNat) / 1000)) ∧
        rg u .time 0 Reg.TIME.NODES = rg s .time 0 Reg.TIME.NODES ||| f.nodes ∧ OtherRegs s u .time 0 [Reg.TIME.NODES] ∧
        (∀ k, k ≠ pk .dlk p.val → k ≠ pk .time 0 → u.page k = s.page k) ∧
        OnlyPages { s with dlks := u.dlks, nodeGap := u.nodeGap, now := max s.now t } u)) ∧
  (∀ (s : State) (p : Fin 4) (ta t id : Nat) (f : LinkFrame) (r : LinkRec) (e : SigEntry), inSt s .dlk p.val [.run, .update] = true →
      dlkUp s p.val = true → PageIdle s (pk .dlk p.val) → isUp s p.val = false → linkGood f = true → f.ver = 1 → dlkCause s p.val f.node f.nodes = 0 →
      f.evs = [] → f.recs = [r] → r.node ≠ timeNode s → s.sigs = [(id, e)] → id ≠ 0 → e.en = true → sigRun s = true → e.from .dlk r.node = true →
      e.word = r.exp →
      Gives (.linkFrameReceive p ta t f) s (fun u =>
        (e.typ = r.typ → (slotOf u id).raw = r.hi ++ r.lo ∧ (slotOf u id).ts = nearTs (max s.now t) r.ts ∧
          (slotOf u id).pubCnt = (slotOf s id).pubCnt + 1) ∧
        (e.typ ≠ r.typ → slotOf u id = slotOf s id ∧ rg u .time 0 Reg.TIME.TYPE_ERR = (if rg s .time 0 Reg.TIME.TYPE_ERR = 0xFFFFFFFF then 0xFFFFFFFF
          else rg s .time 0 Reg.TIME.TYPE_ERR + 1) ∧ bit (u.page (pk .time 0)).intRaw 9 = true) ∧
        (∀ q ∈ insts .dlk, q ≠ p.val → stOf s .dlk q = .run → r ∈ (dlkOf u q).recs) ∧ u.sigs = s.sigs ∧ SameMem s u)) ∧
  (∀ (s : State) (p : Fin 4) (t : Nat), inSt s .dlk p.val [.run, .update, .fault] = true → dlkUp s p.val = false →
      Gives (.dlkFrameLock p t) s (fun u => rb u .dlk p.val Reg.DLK.STAT 0 = true ∧ bit (u.page (pk .dlk p.val)).intRaw 0 = true ∧
        (∀ h ∈ u.holds, ¬(h.src = 0x1E ∧ h.pgType = PgTy.dlk.code ∧ h.inst = p.val ∧ h.sub = 0)) ∧
        OtherRegs s u .dlk p.val [Reg.DLK.STAT] ∧ (∀ k, k ≠ pk .dlk p.val → k ≠ pk .flt 0 → u.page k = s.page k) ∧
        OnlyPages { s with holds := u.holds, flog := u.flog, now := max s.now t } u)) ∧
  (∀ (s : State) (p : Fin 4) (t : Nat), inSt s .dlk p.val [.run, .update] = true → dlkUp s p.val = true → RaiseLogs s 0x1E .dlk p.val 0 →
      Gives (.linkDown p t) s (fun u => rb u .dlk p.val Reg.DLK.STAT 0 = false ∧ bit (u.page (pk .dlk p.val)).intRaw 1 = true ∧
        stOf u .dlk p.val = stOf s .dlk p.val ∧ Logged u 0x1E .dlk p.val 0 ∧
        (isUp s p.val = true → rb u .time 0 Reg.TIME.STAT 2 = false ∧ rb u .time 0 Reg.TIME.STAT 5 = true) ∧
        rg u .time 0 Reg.TIME.RATE = rg s .time 0 Reg.TIME.RATE ∧ OtherRegs s u .dlk p.val [Reg.DLK.STAT] ∧ OtherRegs s u .time 0 [Reg.TIME.STAT] ∧
        (∀ k, k ≠ pk .dlk p.val → k ≠ pk .time 0 → k ≠ pk .flt 0 → u.page k = s.page k) ∧
        OnlyPages { s with dlks := u.dlks, joinCnt := u.joinCnt, holds := u.holds, flog := u.flog, now := max s.now t } u)) ∧
  (∀ (s : State) (p : Fin 4) (chk : BitVec 16), ActsNow s .dlk p.val 0x10 .ap0 chk →
      Gives (.dlkCalibrate p chk) s (fun u => stOf u .dlk p.val = .update ∧ (u.page (pk .dlk p.val)).busy = true ∧
        (u.page (pk .dlk p.val)).prog = progWord 1 1 0 ∧ CmdDone u (pk .dlk p.val) (cmdWord chk 0x10) ∧ OtherRegs s u .dlk p.val [] ∧
        OtherPages s u (pk .dlk p.val) ∧ OnlyPages s u)) ∧
  (∀ (s : State) (p : Fin 4) (tx rx : Word), stOf s .dlk p.val = .update →
      Gives (.dlkCalibrateEnd p tx rx) s (fun u => stOf u .dlk p.val = .run ∧ rb u .dlk p.val Reg.DLK.STAT 1 = true ∧
        rg u .dlk p.val Reg.DLK.INT_TX = tx ∧ rg u .dlk p.val Reg.DLK.INT_RX = rx ∧ bit (u.page (pk .dlk p.val)).intRaw 3 = true ∧
        (u.page (pk .dlk p.val)).busy = false ∧ (u.page (pk .dlk p.val)).prog = progWord 1 15 10000 ∧
        OtherRegs s u .dlk p.val [Reg.DLK.STAT, Reg.DLK.INT_TX, Reg.DLK.INT_RX, Reg.DLK.HOP_DELAY] ∧ OtherPages s u (pk .dlk p.val) ∧ OnlyPages s u))

/-- A device in its link domain (R387, R389 to R391, R396). A frame whose NODES or NODE shows a loop or the device's own node takes the port to FAULT. Of a slave's
upstream port a frame gives RATE and LINK_ERR; in PHASE 1 of JOIN it steps time by −e, in PHASE 2 the 64th frame in a row with a small e gives
lock; beyond JUMP_LIMIT a locked slave unlocks and raises DLK_ALIGN; an announced step waits for its instant, one that came too late for the
device's next frame. A node absent for 8 frames is lost: its signals go safe and DLK_NODE is raised. -/
def Obligations.link_domain : Prop :=
  (∀ (s : State) (p : Fin 4) (ta t c : Nat) (f : LinkFrame), inSt s .dlk p.val [.run, .update] = true → dlkUp s p.val = true →
      linkGood f = true → f.ver = 1 → c ≠ 0 → c = (if f.nodes &&& nodesBeyond s p.val ≠ 0 then 1
        else if f.node = timeNode s ∨ f.nodes.getLsbD (timeNode s) = true then 2 else 0) →
      Gives (.linkFrameReceive p ta t f) s (fun u => stOf u .dlk p.val = .fault ∧ rf u .dlk p.val Reg.DLK.STAT 16 2 = c ∧
        rb u .dlk p.val Reg.DLK.STAT 2 = (c == 1) ∧ bit (u.page (pk .dlk p.val)).intRaw (3 + c) = true ∧ (dlkOf u p.val).recs = [] ∧
        (dlkOf u p.val).evs = [] ∧ (u.page (pk .dlk p.val)).busy = false ∧ OtherPages s u (pk .dlk p.val) ∧
        OnlyPages { s with dlks := u.dlks, seed := u.seed, now := max s.now t } u)) ∧
  (∀ (s : State) (p : Fin 4) (ta t : Nat) (f : LinkFrame), inSt s .dlk p.val [.run, .update] = true → dlkUp s p.val = true →
      PageIdle s (pk .dlk p.val) → isUp s p.val = true → linkGood f = true → f.ver = 1 → dlkCause s p.val f.node f.nodes = 0 → f.evs = [] → f.recs = [] →
      f.step = 0 → (s.page (pk .time 0)).busy = true → fld (s.page (pk .time 0)).prog 24 4 = 2 → rb s .time 0 Reg.TIME.STAT 5 = false →
      Gives (.linkFrameReceive p ta t f) s (fun u => rg u .time 0 Reg.TIME.RATE = f.rate ∧
        linkErr u p.val ta f = 16 * ((ta : Int) - f.time) - sw (rg u .dlk p.val Reg.DLK.HOP_DELAY) ∧
        rg u .time 0 Reg.TIME.LINK_ERR = satI32 (linkErr u p.val ta f) ∧
        (f.masterOk = true → u.adjAt = some ((s.at t).lap (max s.now t)) ∧ rb u .time 0 Reg.TIME.STAT 0 = false) ∧
        ((linkErr u p.val ta f).natAbs ≤ 32 → 63 ≤ s.joinCnt → rb u .time 0 Reg.TIME.STAT 2 = true ∧ bit (u.page (pk .time 0)).intRaw 4 = true ∧
          (u.page (pk .time 0)).busy = false ∧ fld (u.page (pk .time 0)).prog 24 4 = 15 ∧ u.joinDue = none) ∧
        ((linkErr u p.val ta f).natAbs ≤ 32 → s.joinCnt < 63 → u.joinCnt = s.joinCnt + 1 ∧ u.joinDue = s.joinDue) ∧
        (32 < (linkErr u p.val ta f).natAbs → u.joinCnt = 0 ∧ u.joinDue = s.joinDue) ∧
        u.timeStep = s.timeStep ∧ u.now = max s.now t ∧ (∀ k, k ≠ pk .dlk p.val → k ≠ pk .time 0 → k ≠ pk .flt 0 → u.page k = s.page k) ∧
        OnlyPages { s with dlks := u.dlks, nodeGap := u.nodeGap, now := max s.now t, adjAt := u.adjAt, joinCnt := u.joinCnt, joinDue := u.joinDue, holds := u.holds, flog := u.flog } u)) ∧
  (∀ (s : State) (p : Fin 4) (ta t : Nat) (f : LinkFrame), inSt s .dlk p.val [.run, .update] = true → dlkUp s p.val = true →
      PageIdle s (pk .dlk p.val) → isUp s p.val = true → linkGood f = true → f.ver = 1 → dlkCause s p.val f.node f.nodes = 0 → f.evs = [] → f.recs = [] →
      f.step = 0 → f.masterOk = true → (s.page (pk .time 0)).busy = true → fld (s.page (pk .time 0)).prog 24 4 = 1 →
      64 ≤ (dlkOf s p.val).rts.length →
      Gives (.linkFrameReceive p ta t f) s (fun u => (linkErr u p.val ta f % 16 = 0 →
          (u.now : Int) = ((max s.now t : Nat) - linkErr u p.val ta f / 16) % 18446744073709551616 ∧
          rg64 u .time 0 Reg.TIME.STEP_LAST_LO = (BitVec.ofInt 64 (-(linkErr u p.val ta f / 16))).toInt) ∧
        bit (u.page (pk .time 0)).intRaw 1 = true ∧ rg u .time 0 Reg.TIME.TICK_DEV = ofI (tickDev u) ∧
        (u.page (pk .time 0)).prog = progWord 0 2 0 ∧ (u.page (pk .time 0)).busy = true ∧ u.joinCnt = 0 ∧ rg u .time 0 Reg.TIME.RATE = f.rate)) ∧
  (∀ (s : State) (p : Fin 4) (ta t : Nat) (f : LinkFrame), inSt s .dlk p.val [.run, .update] = true → dlkUp s p.val = true →
      PageIdle s (pk .dlk p.val) → isUp s p.val = true → linkGood f = true → f.ver = 1 → dlkCause s p.val f.node f.nodes = 0 → f.evs = [] → f.recs = [] →
      f.step = 0 → (s.page (pk .time 0)).busy = false → rb s .time 0 Reg.TIME.STAT 5 = false → rb s .time 0 Reg.TIME.STAT 2 = true →
      RaiseLogs s 0x1C .time 0 0 →
      Gives (.linkFrameReceive p ta t f) s (fun u => rg u .time 0 Reg.TIME.RATE = f.rate ∧ u.now = max s.now t ∧
        (128 * (rg s .time 0 Reg.TIME.JUMP_LIMIT).toNat < (linkErr u p.val ta f).natAbs → rb u .time 0 Reg.TIME.STAT 1 = true ∧
          rb u .time 0 Reg.TIME.STAT 2 = false ∧ bit (u.page (pk .time 0)).intRaw 5 = true ∧ Logged u 0x1C .time 0 0) ∧
        ((linkErr u p.val ta f).natAbs ≤ 128 * (rg s .time 0 Reg.TIME.JUMP_LIMIT).toNat → rb u .time 0 Reg.TIME.STAT 2 = true))) ∧
  (∀ (s : State) (p : Fin 4) (ta t : Nat) (f : LinkFrame), inSt s .dlk p.val [.run, .update] = true → dlkUp s p.val = true →
      PageIdle s (pk .dlk p.val) → isUp s p.val = true → linkGood f = true → f.ver = 1 → dlkCause s p.val f.node f.nodes = 0 → f.evs = [] → f.recs = [] →
      f.step ≠ 0 → s.stepDone ≠ some (f.step, f.stepAt) → (s.page (pk .time 0)).busy = false → rb s .time 0 Reg.TIME.STAT 5 = false →
      rb s .time 0 Reg.TIME.STAT 2 = false →
      Gives (.linkFrameReceive p ta t f) s (fun u =>
        u.timeStep = some (if max s.now t ≤ f.stepAt then ⟨f.step, some f.stepAt, false⟩ else ⟨f.step, some ((max s.now t / 8000 + 1) * 8000), true⟩) ∧
        u.stepDone = some (f.step, f.stepAt) ∧ rb u .time 0 Reg.TIME.STAT 4 = true ∧ u.now = max s.now t)) ∧
  (∀ (s : State) (n : Fin 32) (t id : Nat) (e : SigEntry), (rg s .time 0 Reg.TIME.NODES).getLsbD n.val = true →
      SMap.get (fun _ => 0) s.nodeGap n.val + 64000 ≤ (s.at t).lap t → s.sigs = [(id, e)] → e.en = true → e.from .dlk n.val = true →
      RaiseLogs s 0x1F .time 0 0 →
      Gives (.nodeLost n t) s (fun u => rg u .time 0 Reg.TIME.NODES = rg s .time 0 Reg.TIME.NODES &&& ~~~(1#32 <<< n.val) ∧
        bit (u.page (pk .time 0)).intRaw 8 = true ∧ Logged u 0x1F .time 0 0 ∧ (slotOf u id).safe = true ∧
        (slotOf u id).value = (if (slotOf s id).forced || e.holds then (slotOf s id).value else safeValue e) ∧
        (∀ i, i ≠ id → slotOf u i = slotOf s i) ∧ OtherRegs s u .time 0 [Reg.TIME.NODES] ∧
        OnlyPublished { s with now := max s.now t, nodeGap := u.nodeGap, holds := u.holds, flog := u.flog } u [pk .flt 0]))

/-- The trigger bus and the timestamps of Ethernet (R383, R386, R394). A change of the local level of a line in LOCAL mode is seen at once, and an acquisition unit that
waits for its rise is told; on the owner of a DOMAIN line it becomes an event due TRG_DELAY later that every running port sends twice, lost where 32 wait;
consumers see the level at its due time, events in the order of due times. A read of TXQ_KEY takes the oldest entry with its time; TXQ_FLUSH empties the queues. -/
def Obligations.triggers_and_timestamps : Prop :=
  (∀ (s : State) (l : Fin 8) (level b : Bool) (t : Nat), trgDomain s l.val = false → b = trgLevel { s with trgPin := setLine s.trgPin l.val level } l.val →
      Gives (.triggerLineChange l level t) s (fun u =>
        (∀ i : Fin 8, u.trgSeen.getLsbD i.val = if i = l then b else s.trgSeen.getLsbD i.val) ∧
        (∀ i : Fin 8, u.trgLocal.getLsbD i.val = if i = l then b else s.trgLocal.getLsbD i.val) ∧
        (∀ i : Fin 8, u.trgPin.getLsbD i.val = if i = l then level else s.trgPin.getLsbD i.val) ∧
        (fld (trgCfg s l.val) 1 2 = 1 → level = true → b = true) ∧
        (∀ a ∈ insts .acq, acqOf u a = (if s.trgSeen.getLsbD l.val = false ∧ b = true ∧ rf s .acq a Reg.ACQ.TRIG 0 3 = 4 ∧
          rf s .acq a Reg.ACQ.TRIG 12 3 = l.val ∧ stOf s .acq a = .run then { acqOf s a with busDue := true } else acqOf s a)) ∧
        (∀ k, u.page k = s.page k) ∧
        (∀ c ∈ insts .fch, fchOf u c = (if s.trgSeen.getLsbD l.val = false ∧ b = true ∧ rf s .fch c Reg.FCH.TRIG 0 3 = 4 ∧
          rf s .fch c Reg.FCH.TRIG 20 3 = l.val ∧ stOf s .fch c = .run then
            { fchOf s c with due := (fchOf s c).due ++ [s.lap (max s.now t) + 10 * rf s .fch c Reg.FCH.DELAY 0 16] } else fchOf s c)) ∧
        OnlyPages { s with trgPin := u.trgPin, trgLocal := u.trgLocal, trgSeen := u.trgSeen, trgAt := u.trgAt, fchs := u.fchs, acqs := u.acqs, now := max s.now t } u)) ∧
  (∀ (s : State) (l : Fin 8) (level b : Bool) (t : Nat) (ev : TrgEv), trgDomain s l.val = true → fld (trgCfg s l.val) 8 5 = timeNode s →
      b = trgLevel { s with trgPin := setLine s.trgPin l.val level } l.val → s.trgLocal.getLsbD l.val ≠ b →
      ev = ⟨timeNode s, l.val, b, max s.now t + 8000 * rf s .time 0 Reg.TIME.TRG_DELAY 0 8⟩ →
      (trgWaiting s < 32 → Gives (.triggerLineChange l level t) s (fun u => u.trgQ = s.trgQ ++ [ev] ∧ u.trgSeen = s.trgSeen ∧
        (∀ i : Fin 8, u.trgLocal.getLsbD i.val = if i = l then b else s.trgLocal.getLsbD i.val) ∧
        (∀ p ∈ insts .dlk, dlkOf u p = (if inSt s .dlk p [.run, .update] = true ∧ dlkUp s p = true then { dlkOf s p with evs := (dlkOf s p).evs ++ [(ev, 2)] } else dlkOf s p)) ∧
        (∀ k, u.page k = s.page k) ∧
        OnlyPages { s with trgPin := u.trgPin, trgLocal := u.trgLocal, trgQ := u.trgQ, dlks := u.dlks, now := max s.now t } u)) ∧
      (32 ≤ trgWaiting s → RaiseLogs s 0x1D .time 0 0 → Gives (.triggerLineChange l level t) s (fun u =>
        rg u .time 0 Reg.TIME.TRG_LOST = (if rg s .time 0 Reg.TIME.TRG_LOST = 0xFFFFFFFF then 0xFFFFFFFF else rg s .time 0 Reg.TIME.TRG_LOST + 1) ∧
        bit (u.page (pk .time 0)).intRaw 7 = true ∧ Logged u 0x1D .time 0 0 ∧ u.trgQ = s.trgQ ∧ u.dlks = s.dlks ∧ u.trgSeen = s.trgSeen ∧
        OtherRegs s u .time 0 [Reg.TIME.TRG_LOST]))) ∧
  (∀ (s : State) (t : Nat) (a b : TrgEv), s.trgQ = [a, b] → b.due < a.due → a.due ≤ t → a.line < 8 → b.line = a.line → trgDomain s a.line = true →
      fld (trgCfg s a.line) 8 5 = a.node → b.node = a.node →
      Gives (.triggerEventDue t) s (fun u => u.trgQ = [] ∧ u.trgSeen.getLsbD a.line = a.level ∧
        (∀ i : Fin 8, i.val ≠ a.line → u.trgSeen.getLsbD i.val = s.trgSeen.getLsbD i.val) ∧ a ∈ u.trgDone ∧ b ∈ u.trgDone ∧ (∀ k, u.page k = s.page k) ∧
        OnlyPages { s with trgQ := [], trgDone := u.trgDone, trgSeen := u.trgSeen, trgAt := u.trgAt, fchs := u.fchs, acqs := u.acqs, now := max s.now t } u)) ∧
  (∀ (s : State) (t : Nat), Gives (.triggerEventDue t) s (fun u => u.trgQ = s.trgQ.filter (fun e => t < e.due) ∧
        (s.trgQ.all (fun e => t < e.due) = true → u.trgSeen = s.trgSeen ∧ OnlyPages { s with now := max s.now t } u))) ∧
  (∀ (s : State) (p : Fin 4) (ta t : Nat) (f : LinkFrame) (e ev : TrgEv), inSt s .dlk p.val [.run, .update] = true → dlkUp s p.val = true →
      PageIdle s (pk .dlk p.val) → isUp s p.val = false → linkGood f = true → f.ver = 1 → dlkCause s p.val f.node f.nodes = 0 → f.evs = [e] → f.recs = [] →
      ev = { e with due := near32 (max s.now t) e.due } → ev ∉ s.trgQ → ev ∉ s.trgDone → e.node ≠ timeNode s → trgWaiting s < 32 → e.line < 8 →
      Gives (.linkFrameReceive p ta t f) s (fun u => (max s.now t ≤ ev.due → u.trgQ = s.trgQ ++ [ev] ∧ u.trgSeen = s.trgSeen ∧
          ∀ q ∈ insts .dlk, q ≠ p.val → inSt s .dlk q [.run, .update] = true → dlkUp s q = true → (ev, 2) ∈ (dlkOf u q).evs) ∧
        (ev.due < max s.now t → u.trgQ = s.trgQ ∧ ev ∈ u.trgDone ∧ bit (u.page (pk .time 0)).intRaw 6 = true ∧
          rg u .time 0 Reg.TIME.TRG_LATE = (if rg s .time 0 Reg.TIME.TRG_LATE = 0xFFFFFFFF then 0xFFFFFFFF else rg s .time 0 Reg.TIME.TRG_LATE + 1) ∧
          (trgDomain s e.line = true → fld (trgCfg s e.line) 8 5 = e.node → u.trgSeen.getLsbD e.line = e.level)))) ∧
  (∀ (s : State) (p : Fin 3) (e : TxqEnt) (q : List TxqEnt), powered s .ptp 0 = true → txqOf s p.val = e :: q →
      Gives (.txqKeyRead p) s (fun u => u.resp = ⟨ofN ((if e.nonPtp then 16777216 else e.seq + 65536 * e.msg + 1048576 * p.val) + 2147483648), 0, .ok⟩ ∧
          txqOf u p.val = q ∧ rg u .ptp 0 (0x114 + 16 * p.val) = tsLo e.ts ∧ rg u .ptp 0 (0x118 + 16 * p.val) = tsHi e.ts ∧
          (q.length < 16 → rf u .ptp 0 Reg.PTP.STAT (4 * p.val) 4 = q.length) ∧
          OtherRegs s u .ptp 0 [Reg.PTP.STAT, 0x114 + 16 * p.val, 0x118 + 16 * p.val] ∧ (∀ i, i ≠ p.val → txqOf u i = txqOf s i) ∧
          OtherPages s u (pk .ptp 0) ∧ OnlyPages { s with txq := u.txq, resp := u.resp } u)) ∧
  (∀ (s : State) (p : Fin 3), powered s .ptp 0 = true → txqOf s p.val = [] →
      Gives (.txqKeyRead p) s (fun u => u.resp = ⟨0, 0, .ok⟩ ∧ (∀ k, u.page k = s.page k) ∧ OnlyPages { s with resp := u.resp } u)) ∧
  (∀ (s : State) (chk : BitVec 16), ActsNow s .ptp 0 0x10 .ap0 chk →
      Gives (.txqFlush chk) s (fun u => (∀ p : Fin 3, txqOf u p.val = [] ∧ rg u .ptp 0 (0x11C + 16 * p.val) = 0 ∧
          rf u .ptp 0 Reg.PTP.STAT (4 * p.val) 4 = 0) ∧ rf u .ptp 0 Reg.PTP.STAT 16 3 = 0 ∧
        OtherRegs s u .ptp 0 [Reg.PTP.STAT, 0x11C, 0x12C, 0x13C] ∧ CmdDone u (pk .ptp 0) (cmdWord chk 0x10) ∧ OtherPages s u (pk .ptp 0) ∧
        OnlyPages { s with txq := u.txq } u))

/-- The fault manager (R404 to R407, R412 to R417, R419). A raise whose reactions warn at most takes each group it concerns to the greater level and is logged; one whose
entry stands unacknowledged counts there; in a full log the weakest oldest entry makes room. A raise of HOLD or above reaches the group's axes. The end of
a condition frees the source. RECOVER opens recovery of the masked groups and RECOVERED ends it with their levels NONE; its time-out keeps them;
ACK acknowledges all entries, CLEAR_LOG drops those no longer active, RAISE raises SW_FAULT, LOG_IDX selects. PWM_CLK concerns the groups of the
modules that were counting; a page that does not raise a source, or gives no answer, raises nothing. -/
def Obligations.fault_manager : Prop :=
  (∀ (s : State) (src : Fin 64) (pg : PageId) (sub top : Nat) (detail : BitVec 16) (e : FltEnt), answers s pg = true → (raisers src.val).contains pg.ty = true →
      src.val ≠ 0x0A → src.val ≠ 0x02 →
      RaiseLogs s src.val pg.ty pg.inst sub → (∀ g ∈ raiseGroups s src.val pg.ty pg.inst sub, reaction s src.val g ≤ top) →
      (∃ g ∈ raiseGroups s src.val pg.ty pg.inst sub, reaction s src.val g = top) → (∀ x ∈ s.flog, x.of src.val pg.ty pg.inst sub = true → x.ack = true) →
      e = ⟨rf s .flt 0 Reg.FLT.LOG_SEQ 0 16, src.val, top, false, levelSources.contains src.val, false, pg.ty.code, pg.inst, sub, detail.toNat,
        derivedGroups s src.val pg.ty pg.inst sub ||| rg s .flt 0 (Reg.FLT.SRC_MASK + 4 * src.val), devTime s.now, s.now / 34359738368 % 8192, 0⟩ →
      Gives (.faultRaise src pg sub detail) s (fun u =>
        (∀ g : Fin 32, grpLevel u g.val = if g.val ∈ raiseGroups s src.val pg.ty pg.inst sub then max (grpLevel s g.val) (reaction s src.val g.val)
          else grpLevel s g.val) ∧
        (s.flog.length < 256 → u.flog = s.flog ++ [e]) ∧
        (s.flog.length = 256 → (∀ y ∈ s.flog.tail, (s.flog.headD e).react ≤ y.react) → (s.flog.headD e).react ≤ 7 → u.flog = s.flog.tail ++ [e] ∧
          bit (u.page (pk .flt 0)).intRaw 6 = true) ∧
        rg u .flt 0 Reg.FLT.LOG_COUNT = ofN u.flog.length ∧ rf u .flt 0 Reg.FLT.LOG_SEQ 0 16 = (e.seq + 1) % 65536 ∧
        bit (u.page (pk .flt 0)).intRaw 0 = true ∧ (2 ≤ top → bit (u.page (pk .flt 0)).intRaw 1 = true) ∧
        (levelSources.contains src.val = true → u.holds = s.holds ++ [⟨src.val, pg.ty.code, pg.inst, sub, e.groups⟩]) ∧
        OtherPages s u (pk .flt 0) ∧ OnlyPages { s with flog := u.flog, holds := u.holds } u)) ∧
  (∀ (s : State) (src : Fin 64) (pg : PageId) (sub : Nat) (detail : BitVec 16) (l : List FltEnt) (x : FltEnt), answers s pg = true → (raisers src.val).contains pg.ty = true →
      src.val ≠ 0x0A → src.val ≠ 0x02 →
      RaiseLogs s src.val pg.ty pg.inst sub → s.flog = l ++ [x] → x.of src.val pg.ty pg.inst sub = true → x.ack = false →
      Gives (.faultRaise src pg sub detail) s (fun u =>
        u.flog = l ++ [{ x with rpt := min (x.rpt + 1) 65535, active := x.active || levelSources.contains src.val }] ∧
        rg u .flt 0 Reg.FLT.LOG_SEQ = rg s .flt 0 Reg.FLT.LOG_SEQ ∧ OtherPages s u (pk .flt 0) ∧
        OnlyPages { s with flog := u.flog, holds := u.holds } u)) ∧
  (∀ (s : State) (src : Fin 64) (pg : PageId) (sub : Nat) (detail : BitVec 16) (g : Fin 32), answers s pg = true → (raisers src.val).contains pg.ty = true →
      src.val ≠ 0x0A → src.val ≠ 0x02 → powered s .flt 0 = true →
      levelSources.contains src.val = false → recovering s = 0 → g.val ∈ raiseGroups s src.val pg.ty pg.inst sub → 3 ≤ reaction s src.val g.val →
      grpLevel s g.val < reaction s src.val g.val →
      Gives (.faultRaise src pg sub detail) s (fun u => bit (u.page (pk .flt 0)).intRaw 2 = true ∧
        ∀ n ∈ insts .axis, stOf s .axis n ≠ .off → (axisGroups s n).getLsbD g.val = true → reaction s src.val g.val ≤ (axisOf u n).req)) ∧
  (∀ (s : State) (src : Fin 64) (pg : PageId) (sub : Nat) (l : List FltEnt) (x : FltEnt) (h : Hold), pg.present = true → s.holds = [h] →
      h.src = src.val → h.pgType = pg.ty.code → h.inst = pg.inst → h.sub = sub → s.flog = l ++ [x] → x.of src.val pg.ty pg.inst sub = true →
      Gives (.faultConditionEnd src pg sub) s (fun u => u.holds = [] ∧ u.flog = l ++ [{ x with active := false }] ∧
        rgU64 u .flt 0 Reg.FLT.SRC_ACTIVE_LO = 0 ∧ bit (u.page (pk .flt 0)).intRaw 7 = true ∧ (∀ g : Fin 32, grpLevel u g.val = grpLevel s g.val) ∧
        OtherRegs s u .flt 0 [Reg.FLT.SRC_ACTIVE_LO, Reg.FLT.SRC_ACTIVE_HI] ∧ OtherPages s u (pk .flt 0) ∧
        OnlyPages { s with holds := [], flog := u.flog } u)) ∧
  (∀ (s : State) (chk : BitVec 16), ActsNow s .flt 0 0x10 .ap0 chk →
      Gives (.fltRecover chk) s (fun u =>
        (∀ g : Fin 32, (recovering u).getLsbD g.val =
          ((recovering s).getLsbD g.val || ((rg s .flt 0 Reg.FLT.RECOVER_MASK).getLsbD g.val && decide (grpLevel s g.val ≠ 0)))) ∧
        (∀ g : Fin 32, (rg s .flt 0 Reg.FLT.RECOVER_MASK).getLsbD g.val = true → grpLevel s g.val ≠ 0 →
          SMap.get (fun _ => 0) u.recDue g.val = s.lap s.now + 8000000 * rf s .flt 0 Reg.FLT.CFG 0 16) ∧
        CmdDone u (pk .flt 0) (cmdWord chk 0x10) ∧ OtherRegs s u .flt 0 [Reg.FLT.GRP_RECOVERING] ∧ OtherPages s u (pk .flt 0) ∧
        OnlyPages { s with recDue := u.recDue } u)) ∧
  (∀ (s : State) (chk : BitVec 16), ActsNow s .flt 0 0x11 .ap0 chk →
      Gives (.fltRecovered chk) s (fun u =>
        (∀ g : Fin 32, if (recovering s).getLsbD g.val && (rg s .flt 0 Reg.FLT.RECOVER_MASK).getLsbD g.val then
          (recovering u).getLsbD g.val = false ∧ grpLevel u g.val = 0
          else (recovering u).getLsbD g.val = (recovering s).getLsbD g.val ∧ grpLevel u g.val = grpLevel s g.val) ∧
        bit (u.page (pk .flt 0)).intRaw 3 = true ∧ CmdDone u (pk .flt 0) (cmdWord chk 0x11) ∧ OtherPages s u (pk .flt 0) ∧
        OnlyPages { s with recDue := u.recDue } u)) ∧
  (∀ (s : State) (chk : BitVec 16), ActsNow s .flt 0 0x12 .ap0 chk →
      Gives (.fltAck chk) s (fun u => u.flog = s.flog.map (fun e => { e with ack := true }) ∧ CmdDone u (pk .flt 0) (cmdWord chk 0x12) ∧
        OtherRegs s u .flt 0 [] ∧ OtherPages s u (pk .flt 0) ∧ OnlyPages { s with flog := u.flog } u)) ∧
  (∀ (s : State) (chk : BitVec 16), ActsNow s .flt 0 0x13 .ap0 chk →
      Gives (.fltClearLog chk) s (fun u => u.flog = s.flog.filter (fun e => !e.ack || e.active) ∧ rg u .flt 0 Reg.FLT.LOG_COUNT = ofN u.flog.length ∧
        CmdDone u (pk .flt 0) (cmdWord chk 0x13) ∧ OtherRegs s u .flt 0 [Reg.FLT.LOG_COUNT] ∧ OtherPages s u (pk .flt 0) ∧
        OnlyPages { s with flog := u.flog } u)) ∧
  (∀ (s : State) (chk : BitVec 16), ActsNow s .flt 0 0x14 .ap0 chk → RaiseLogs s 0x24 .flt 0 0 →
      Gives (.fltRaise chk) s (fun u => Logged u 0x24 .flt 0 0 ∧ CmdDone u (pk .flt 0) (cmdWord chk 0x14) ∧
        (∀ g : Fin 32, grpLevel u g.val = if (rg s .flt 0 Reg.FLT.RAISE_MASK ||| rg s .flt 0 (Reg.FLT.SRC_MASK + 4 * 0x24)).getLsbD g.val then
          max (grpLevel s g.val) (reaction s 0x24 g.val) else grpLevel s g.val) ∧
        ((∀ x ∈ s.flog, x.of 0x24 .flt 0 0 = true → x.ack = true) → (u.flog.getLast?).map FltEnt.detail = some (rf s .flt 0 Reg.FLT.RAISE_DETAIL 0 16)) ∧
        OtherPages s u (pk .flt 0) ∧ OnlyPages { s with flog := u.flog, holds := u.holds } u)) ∧
  (∀ (s : State) (g : Fin 32), (recovering s).getLsbD g.val = true → SMap.get (fun _ => 0) s.recDue g.val ≤ s.lap s.now →
      Gives (.fltRecoverTimeout g) s (fun u => (∀ i : Fin 32, (recovering u).getLsbD i.val = ((recovering s).getLsbD i.val && i != g)) ∧
        bit (u.page (pk .flt 0)).intRaw 5 = true ∧ (∀ i : Fin 32, grpLevel u i.val = grpLevel s i.val) ∧
        OtherRegs s u .flt 0 [Reg.FLT.GRP_RECOVERING] ∧ OtherPages s u (pk .flt 0) ∧ OnlyPages { s with recDue := u.recDue } u)) ∧
  (∀ (s : State) (v : Word), answers s ⟨.flt, 0⟩ = true → (s.page (pk .flt 0)).key ≠ .window → (s.page (pk .flt 0)).locked = false →
      Gives (.fltLogIdxWrite v) s (fun u =>
        (fld v 0 8 < s.flog.length → rg u .flt 0 Reg.FLT.LOG_IDX = ofN (fld v 0 8) ∧ OtherRegs s u .flt 0 [Reg.FLT.LOG_IDX]) ∧
        (s.flog.length ≤ fld v 0 8 → (u.page (pk .flt 0)).err = errWord .range Reg.FLT.LOG_IDX 3 ∧ OtherRegs s u .flt 0 []) ∧
        OtherPages s u (pk .flt 0) ∧ OnlyPages s u)) ∧
  (∀ (s : State) (n : Fin 32) (sub : Nat) (detail : BitVec 16), powered s .pwm n.val = true → powered s .flt 0 = true →
      (∀ h ∈ s.holds, h.src ≠ 2) → (∀ g : Fin 32, reaction s 2 g.val < 3) →
      Gives (.faultRaise 2 ⟨.pwm, n.val⟩ sub detail) s (fun u => ∀ g : Fin 32, grpLevel u g.val =
        if (∃ m ∈ insts .pwm, pwmCounts s m = true ∧ (groupsOf s .pwm m).getLsbD g.val = true) ∨ (rg s .flt 0 (Reg.FLT.SRC_MASK + 8)).getLsbD g.val = true then
          max (grpLevel s g.val) (reaction s 2 g.val) else grpLevel s g.val)) ∧
  (∀ (s : State) (src : Fin 64) (pg : PageId) (sub : Nat) (detail : BitVec 16), answers s pg = false ∨ (raisers src.val).contains pg.ty = false →
      Gives (.faultRaise src pg sub detail) s (fun u => (∀ k, u.page k = s.page k) ∧ OnlyPages s u))

/-- The PCIe endpoint (R426, R428 to R432). With the link up BAR0 reads and writes shared SRAM, an offset that it leaves unassigned is an Unsupported Request, and with the
link down nothing is answered. A vector unmasked sends its pending message when its line still stands. CH_TAIL takes a place in its ring; a
descriptor moves its bytes, is written back and passed by CH_HEAD; a bad LEN or OWN moves nothing and stops the channel with RANGE, an
error of the host stops it after the bytes moved. A reset of the link stops the channels; training shows in STAT. -/
def Obligations.host_pcie : Prop :=
  (∀ (s : State) (off : Nat), pcieUp s = true → 0x06000000 ≤ off → off < 0x07000000 → off % 4 = 0 →
      Gives (.pcieRequest (.read false off false [])) s (fun u => u.resp = ⟨mem32 s (0x10000000 + (off - 0x06000000)), 0, .ok⟩ ∧ (∀ k, u.page k = s.page k) ∧
        OnlyPages { s with resp := u.resp } u)) ∧
  (∀ (s : State) (off : Nat) (v : Word), pcieUp s = true → 0x06000000 ≤ off → off < 0x07000000 → off % 4 = 0 →
      Gives (.pcieRequest (.write false off v)) s (fun u => u.resp.fin = .ok ∧ WroteWords s u [(0x10000000 + (off - 0x06000000), v)] ∧
        (∀ k, u.page k = s.page k) ∧ OnlyPages { s with resp := u.resp, mem := u.mem } u)) ∧
  (∀ (s : State) (off : Nat) (wide : Bool), pcieUp s = true → 0x04500000 ≤ off → off < 0x06000000 →
      Gives (.pcieRequest (.read false off wide [])) s (fun u => u.resp.fin = .undecoded ∧ (∀ k, u.page k = s.page k) ∧
        OnlyPages { s with resp := u.resp } u)) ∧
  (∀ (s : State) (r : PcieReq), pcieUp s = false → Gives (.pcieRequest r) s (fun u => (∀ k, u.page k = s.page k) ∧ OnlyPages s u)) ∧
  (∀ (s : State) (v : Fin 64) (l : Fin 256), LinesFollow s → s.msixMask = false → s.msixPend.getLsbD v.val = true →
      bit (rg s .sys 0 (Reg.SYS.IRQ_ROUTE_V + 8 * l.val)) 8 = true → fld (rg s .sys 0 (Reg.SYS.IRQ_ROUTE_V + 8 * l.val)) 0 6 = v.val →
      (∀ i : Fin 256, i ≠ l → bit (rg s .sys 0 (Reg.SYS.IRQ_ROUTE_V + 8 * i.val)) 8 = false) →
      Gives (.msixUnmask (some v)) s (fun u => u.msixSent = (if lineOn s l.val then v.val :: s.msixSent else s.msixSent) ∧
        u.msixPend.getLsbD v.val = false ∧ (∀ i : Fin 64, i ≠ v → u.msixPend.getLsbD i.val = s.msixPend.getLsbD i.val) ∧
        msixMasked u v.val = false ∧ (∀ i : Fin 64, i ≠ v → msixMasked u i.val = msixMasked s i.val) ∧
        u = { s with msixTbl := u.msixTbl, msixPend := u.msixPend, msixSent := u.msixSent })) ∧
  (∀ (s : State), LinesFollow s → Gives (.msixUnmask none) s (fun u => u.msixMask = false ∧ u.msixTbl = s.msixTbl ∧
        (∀ v : Fin 64, u.msixPend.getLsbD v.val = (s.msixPend.getLsbD v.val && bit (msixWord s (4 * v.val + 3)) 0)) ∧
        u = { s with msixMask := false, msixPend := u.msixPend, msixSent := u.msixSent })) ∧
  (∀ (s : State) (c : Fin 16) (v : Word), answers s ⟨.pcie, 0⟩ = true → (s.page (pk .pcie 0)).key ≠ .window → (s.page (pk .pcie 0)).locked = false →
      Gives (.chTailWrite c v) s (fun u =>
        (fld v 0 12 < (chRg s c.val Reg.PCIE.CH_SIZE).toNat → chRg u c.val Reg.PCIE.CH_TAIL = ofN (fld v 0 12) ∧
          rb u .pcie 0 (chOff c.val Reg.PCIE.CH_STAT) 0 = (bit (chRg s c.val Reg.PCIE.CH_CTRL) 0 && chRg s c.val Reg.PCIE.CH_HEAD != ofN (fld v 0 12)) ∧
          OtherRegs s u .pcie 0 [chOff c.val Reg.PCIE.CH_TAIL, chOff c.val Reg.PCIE.CH_STAT]) ∧
        ((chRg s c.val Reg.PCIE.CH_SIZE).toNat ≤ fld v 0 12 → (u.page (pk .pcie 0)).err = errWord .range (chOff c.val Reg.PCIE.CH_TAIL) 3 ∧
          OtherRegs s u .pcie 0 []) ∧ OtherPages s u (pk .pcie 0) ∧ OnlyPages s u)) ∧
  (∀ (s : State) (c : Fin 16) (d : List Word) (a : Nat) (src : List Nat) (hostErr : Option Nat), pcieUp s = true → bit (chRg s c.val Reg.PCIE.CH_CTRL) 0 = true →
      chRg s c.val Reg.PCIE.CH_HEAD ≠ chRg s c.val Reg.PCIE.CH_TAIL → bit (chRg s c.val Reg.PCIE.CH_CTRL) 1 = false →
      a = joinN (chRg s c.val Reg.PCIE.CH_RING_LO) (chRg s c.val Reg.PCIE.CH_RING_HI) + 32 * (chRg s c.val Reg.PCIE.CH_HEAD).toNat →
      inSram a 32 = true → d = (List.range 8).map (fun i => mem32 s (a + 4 * i)) →
      ((dFlag d 31 = false ∨ dLen d < 4 ∨ 16777216 < dLen d ∨ dLen d % 4 ≠ 0) → Gives (.dmaDescriptor c [] src hostErr []) s (fun u =>
        WroteWords s u [(a + 24, 4)] ∧ bit (chRg u c.val Reg.PCIE.CH_CTRL) 0 = false ∧ rf u .pcie 0 (chOff c.val Reg.PCIE.CH_STAT) 1 3 = 2 ∧
        chRg u c.val Reg.PCIE.CH_HEAD = chRg s c.val Reg.PCIE.CH_HEAD ∧ bit (u.page (pk .pcie 0)).intRaw 18 = true ∧ u.hostOut = s.hostOut ∧
        OtherRegs s u .pcie 0 [chOff c.val Reg.PCIE.CH_CTRL, chOff c.val Reg.PCIE.CH_STAT] ∧ OtherPages s u (pk .pcie 0) ∧
        OnlyPages { s with mem := u.mem } u)) ∧
      (dFlag d 31 = true → 4 ≤ dLen d → dLen d ≤ 16777216 → dLen d % 4 = 0 → dFlag d 0 = true → dFlag d 1 = false → inSram (dDst d) (dLen d) = true →
        dLen d ≤ src.length → (dDst d + dLen d ≤ a ∨ a + 32 ≤ dDst d) → hostErr = none → Gives (.dmaDescriptor c [] src none []) s (fun u =>
          (∀ i, i < dLen d → mem8 u (dDst d + i) = BitVec.ofNat 8 (src.getD i 0)) ∧ mem32 u (a + 24) = 1 ∧
          (∀ b, ¬(dDst d ≤ b ∧ b < dDst d + dLen d) → ¬(a + 24 ≤ b ∧ b < a + 28) → mem8 u b = mem8 s b) ∧
          chRg u c.val Reg.PCIE.CH_HEAD = (if (chRg s c.val Reg.PCIE.CH_SIZE).toNat ≤ (chRg s c.val Reg.PCIE.CH_HEAD).toNat + 1 then 0
            else chRg s c.val Reg.PCIE.CH_HEAD + 1) ∧
          (dFlag d 2 = true → bit (u.page (pk .pcie 0)).intRaw c.val = true) ∧
          OtherRegs s u .pcie 0 [chOff c.val Reg.PCIE.CH_HEAD, chOff c.val Reg.PCIE.CH_STAT] ∧ OtherPages s u (pk .pcie 0) ∧
          OnlyPages { s with mem := u.mem } u)) ∧
      (dFlag d 31 = true → 4 ≤ dLen d → dLen d ≤ 16777216 → dLen d % 4 = 0 → dFlag d 0 = false → dFlag d 1 = true → inSram (dSrc d) (dLen d) = true →
        Gives (.dmaDescriptor c [] src hostErr []) s (fun u => WroteWords s u [(a + 24, if hostErr.isSome then 6 else 1)] ∧
          (hostErr = none → u.hostOut = ⟨dDst d, memBytes s (dSrc d) (dLen d)⟩ :: s.hostOut) ∧
          (hostErr = some 4 → u.hostOut = ⟨dDst d, (memBytes s (dSrc d) (dLen d)).take 4⟩ :: s.hostOut) ∧
          (hostErr.isSome = true → bit (chRg u c.val Reg.PCIE.CH_CTRL) 0 = false ∧ rf u .pcie 0 (chOff c.val Reg.PCIE.CH_STAT) 1 3 = 3 ∧
            chRg u c.val Reg.PCIE.CH_HEAD = chRg s c.val Reg.PCIE.CH_HEAD ∧ bit (u.page (pk .pcie 0)).intRaw 18 = true) ∧
          OtherPages s u (pk .pcie 0) ∧ OnlyPages { s with mem := u.mem, hostOut := u.hostOut } u))) ∧
  (∀ (s : State) (flr : Bool), stOf s .pcie 0 = .run →
      Gives (.pcieLinkReset flr) s (fun u => (∀ c : Fin 16, bit (chRg u c.val Reg.PCIE.CH_CTRL) 0 = false) ∧
        (flr = false → bit (u.page (pk .pcie 0)).intRaw 16 = true ∧ rb u .pcie 0 Reg.PCIE.STAT 0 = false ∧
          (∀ c : Fin 16, chRg u c.val Reg.PCIE.CH_HEAD = chRg s c.val Reg.PCIE.CH_HEAD) ∧ u.msixTbl = s.msixTbl) ∧
        (flr = true → bit (u.page (pk .pcie 0)).intRaw 17 = true ∧ u.msixTbl = [] ∧
          ∀ c : Fin 16, chRg u c.val Reg.PCIE.CH_HEAD = 0 ∧ chRg u c.val Reg.PCIE.CH_TAIL = 0) ∧
        SameMem s u ∧ OtherPages s u (pk .pcie 0))) ∧
  (∀ (s : State) (speed width : Fin 8), stOf s .pcie 0 = .run → 1 ≤ speed.val → speed.val ≤ pcieGen s → width.val ∈ [1, 2, 4] →
      Gives (.pcieLinkUp speed width) s (fun u => rb u .pcie 0 Reg.PCIE.STAT 0 = true ∧ rf u .pcie 0 Reg.PCIE.STAT 1 3 = speed.val ∧
        rf u .pcie 0 Reg.PCIE.STAT 4 3 = width.val ∧ OtherRegs s u .pcie 0 [Reg.PCIE.STAT] ∧ OtherPages s u (pk .pcie 0) ∧ OnlyPages s u))

/-- The host serial port (R434 to R437). A good READ returns its words in ascending order, those beyond the page as 0 with ADDR_END, under Table 16-5; its
ALIVE sets the expectation, an unexpected one counts and shows SEQ_ERR. A wrong header CRC reads nothing. A good WRITE writes its words in order,
a repeat or a bad frame nothing; STATUS answers without data. No good frame for SILENT_T shows SILENT. -/
def Obligations.host_serial : Prop :=
  (∀ (s : State) (t len addr : Nat) (alive : BitVec 8) (crc : BitVec 16) (early seq cut : Bool), stOf s .hsp 0 = .run → 1 ≤ len → len ≤ 1024 → addr % 4 = 0 →
      crc.toNat = crc16 ([1, alive.toNat, len % 256, len / 256] ++ wordBytes (ofN addr)) →
      inSram addr 4096 = true → seq = (alive.toNat != rf s .hsp 0 Reg.HSP.STAT 8 8) → cut = decide (4096 < addr % 4096 + 4 * len) →
      Gives (.hspRead t alive len addr crc early []) s (fun u =>
        u.hsp.reply.map HspReply.data = some ((List.range len).map (fun i => if addr % 4096 + 4 * i < 4096 then mem32 s (addr + 4 * i) else 0)) ∧
        u.hsp.reply.map HspReply.rstat = some (ofN (s.hsp.prev + 32 * b2n seq + 64 * b2n cut + 65536 * alive.toNat +
          16777216 * rf s .hsp 0 Reg.HSP.STAT 8 8)) ∧
        u.hsp.prev = (if early then 2 else 1) ∧ u.hsp.alive = some alive.toNat ∧ u.hsp.at_ = (s.at t).lap (max s.now t) ∧
        rf u .hsp 0 Reg.HSP.STAT 8 8 = (alive.toNat + 1) % 256 ∧ rb u .hsp 0 Reg.HSP.STAT 0 = false ∧
        rg u .hsp 0 Reg.HSP.FRAME_CNT = rg s .hsp 0 Reg.HSP.FRAME_CNT + 1 ∧
        (seq = true → bit (u.page (pk .hsp 0)).intRaw 1 = true) ∧ (cut = true → bit (u.page (pk .hsp 0)).intRaw 3 = true) ∧
        OtherRegs s u .hsp 0 [Reg.HSP.STAT, Reg.HSP.FRAME_CNT, Reg.HSP.SEQ_CNT] ∧ OtherPages s u (pk .hsp 0) ∧
        OnlyPages { s with hsp := u.hsp, resp := u.resp, now := max s.now t } u)) ∧
  (∀ (s : State) (t len addr : Nat) (alive : BitVec 8) (crc : BitVec 16) (early : Bool), stOf s .hsp 0 = .run → 1 ≤ len → len ≤ 1024 → addr % 4 = 0 →
      addr < 4294967296 → crc.toNat ≠ crc16 ([1, alive.toNat, len % 256, len / 256] ++ wordBytes (ofN addr)) →
      Gives (.hspRead t alive len addr crc early []) s (fun u => u.hsp.reply.map HspReply.data = some (List.replicate len 0) ∧
        u.hsp.reply.map HspReply.rstat = some (ofN (s.hsp.prev + 256 + 65536 * alive.toNat + 16777216 * rf s .hsp 0 Reg.HSP.STAT 8 8)) ∧
        u.hsp.prev = 2 ∧ u.hsp.alive = s.hsp.alive ∧ bit (u.page (pk .hsp 0)).intRaw 0 = true ∧
        OtherRegs s u .hsp 0 [Reg.HSP.BAD_CNT] ∧ OtherPages s u (pk .hsp 0) ∧ OnlyPages { s with hsp := u.hsp, now := max s.now t } u)) ∧
  (∀ (s : State) (t len addr : Nat) (alive : BitVec 8) (data : List Nat) (crc : BitVec 16), stOf s .hsp 0 = .run → 1 ≤ len → len ≤ 1024 → addr % 4 = 0 →
      crc.toNat = crc16 ([2, alive.toNat, len % 256, len / 256] ++ wordBytes (ofN addr) ++ toBytes (data.map ofN)) →
      inSram addr 4096 = true → data.length = len → addr % 4096 + 4 * len ≤ 4096 →
      (s.hsp.alive ≠ some alive.toNat → Gives (.hspWrite t alive len addr data crc false) s (fun u =>
        WroteWords s u ((List.range len).map (fun i => (addr + 4 * i, ofN (data.getD i 0)))) ∧ u.hsp.prev = 1 ∧ u.hsp.alive = some alive.toNat ∧
        u.hsp.reply = none ∧ rf u .hsp 0 Reg.HSP.STAT 8 8 = (alive.toNat + 1) % 256 ∧
        OtherRegs s u .hsp 0 [Reg.HSP.STAT, Reg.HSP.FRAME_CNT, Reg.HSP.SEQ_CNT] ∧ OtherPages s u (pk .hsp 0) ∧
        OnlyPages { s with hsp := u.hsp, resp := u.resp, mem := u.mem, now := max s.now t } u)) ∧
      (s.hsp.alive = some alive.toNat → Gives (.hspWrite t alive len addr data crc false) s (fun u => u.hsp.prev = 16 ∧
        rg u .hsp 0 Reg.HSP.SEQ_CNT = (if rg s .hsp 0 Reg.HSP.SEQ_CNT = 0xFFFFFFFF then 0xFFFFFFFF else rg s .hsp 0 Reg.HSP.SEQ_CNT + 1) ∧
        SameMem s u ∧ OtherPages s u (pk .hsp 0) ∧ OnlyPages { s with hsp := u.hsp, now := max s.now t } u))) ∧
  (∀ (s : State) (t len addr : Nat) (alive : BitVec 8) (data : List Nat) (crc : BitVec 16) (early : Bool), stOf s .hsp 0 = .run →
      (crc.toNat ≠ crc16 ([2, alive.toNat, len % 256, len / 256 % 256] ++ wordBytes (ofN addr) ++ toBytes (data.map ofN)) ∨ early = true) →
      Gives (.hspWrite t alive len addr data crc early) s (fun u => u.hsp.prev = 2 ∧ u.hsp.alive = s.hsp.alive ∧ SameMem s u ∧
        rg u .hsp 0 Reg.HSP.BAD_CNT = (if rg s .hsp 0 Reg.HSP.BAD_CNT = 0xFFFFFFFF then 0xFFFFFFFF else rg s .hsp 0 Reg.HSP.BAD_CNT + 1) ∧
        OtherRegs s u .hsp 0 [Reg.HSP.BAD_CNT] ∧ OtherPages s u (pk .hsp 0) ∧ OnlyPages { s with hsp := u.hsp, now := max s.now t } u)) ∧
  (∀ (s : State) (t addr : Nat) (alive : BitVec 8) (crc : BitVec 16) (early : Bool), stOf s .hsp 0 = .run → addr % 4 = 0 → addr < 4294967296 →
      crc.toNat = crc16 ([3, alive.toNat, 0, 0] ++ wordBytes (ofN addr)) →
      Gives (.hspStatus t alive addr crc early) s (fun u => u.hsp.reply.map HspReply.data = some [] ∧
        u.hsp.reply.map HspReply.rstat = some (ofN (s.hsp.prev + (if alive.toNat = rf s .hsp 0 Reg.HSP.STAT 8 8 then 0 else 32) + 65536 * alive.toNat +
          16777216 * rf s .hsp 0 Reg.HSP.STAT 8 8)) ∧
        u.hsp.alive = some alive.toNat ∧ rf u .hsp 0 Reg.HSP.STAT 8 8 = (alive.toNat + 1) % 256 ∧ rb u .hsp 0 Reg.HSP.STAT 0 = false ∧
        OtherRegs s u .hsp 0 [Reg.HSP.STAT, Reg.HSP.FRAME_CNT, Reg.HSP.SEQ_CNT] ∧ OtherPages s u (pk .hsp 0) ∧
        OnlyPages { s with hsp := u.hsp, now := max s.now t } u)) ∧
  (∀ (s : State) (t : Nat), stOf s .hsp 0 = .run → rb s .hsp 0 Reg.HSP.STAT 0 = false →
      s.hsp.at_ + 8000000 * (rg s .hsp 0 Reg.HSP.SILENT_T).toNat ≤ (s.at t).lap t →
      Gives (.hspSilent t) s (fun u => rb u .hsp 0 Reg.HSP.STAT 0 = true ∧ bit (u.page (pk .hsp 0)).intRaw 2 = true ∧
        OtherRegs s u .hsp 0 [Reg.HSP.STAT] ∧ OtherPages s u (pk .hsp 0) ∧ OnlyPages { s with now := max s.now t } u)) ∧
  (∀ (s : State), stOf s .hsp 0 = .run →
      Gives .hspBadFrame s (fun u => u.hsp = { s.hsp with prev := 2 } ∧ bit (u.page (pk .hsp 0)).intRaw 0 = true ∧
        rg u .hsp 0 Reg.HSP.BAD_CNT = (if rg s .hsp 0 Reg.HSP.BAD_CNT = 0xFFFFFFFF then 0xFFFFFFFF else rg s .hsp 0 Reg.HSP.BAD_CNT + 1) ∧
        OtherRegs s u .hsp 0 [Reg.HSP.BAD_CNT] ∧ OtherPages s u (pk .hsp 0) ∧ OnlyPages { s with hsp := u.hsp } u))

/-- Memory and peripheral serial ports (R440 to R444). A read of a flash window is answered from its cache and counts a hit, or fetches its line and counts a miss; while an
indirect operation runs a miss ends with an error and counts. INDIRECT takes the page to UPDATE; its end shows the bytes read, its time-out PHASE 14.
TRIGGER starts a frame with the words of TX, or is skipped during one; at the frame's end RX takes the words, a bad SMART frame counts, and
ERR_LIMIT of them in a row take the port to FAULT. -/
def Obligations.memory_and_peripheral_ports : Prop :=
  (∀ (s : State) (p : Fin 2) (m : Master) (off : BitVec 28) (fetch : List (List Nat)) (b : List Nat), inSt s .msp p.val [.run, .update] = true →
      (mspOf s p.val).lines.find? (fun e => e.1 == off.toNat / 64) = some (off.toNat / 64, b) →
      Gives (.xipRead p m off fetch []) s (fun u => u.resp = ⟨lineWord b (off.toNat % 64), 0, .ok⟩ ∧
        rg u .msp p.val Reg.MSP.HIT_CNT = rg s .msp p.val Reg.MSP.HIT_CNT + 1 ∧ OtherRegs s u .msp p.val [Reg.MSP.HIT_CNT] ∧
        mspOf u p.val = { mspOf s p.val with last := some (off.toNat / 64) } ∧ (∀ i, i ≠ p.val → mspOf u i = mspOf s i) ∧
        OtherPages s u (pk .msp p.val) ∧ OnlyPages { s with resp := u.resp, msps := u.msps } u)) ∧
  (∀ (s : State) (p : Fin 2) (m : Master) (off : BitVec 28) (b : List Nat) (fetch : List (List Nat)), stOf s .msp p.val = .run →
      (mspOf s p.val).lines.find? (fun e => e.1 == off.toNat / 64) = none →
      (cacheSet (mspOf s p.val) (off.toNat / 64)).length < 4 →
      (off.toNat < 64 ∨ (mspOf s p.val).last ≠ some (off.toNat / 64 - 1) ∨ rf s .msp p.val Reg.MSP.CFG 2 3 = 0) →
      Gives (.xipRead p m off (b :: fetch) []) s (fun u => u.resp = ⟨lineWord b (off.toNat % 64), 0, .ok⟩ ∧
        mspOf u p.val = { mspOf s p.val with lines := (off.toNat / 64, b) :: (mspOf s p.val).lines, last := some (off.toNat / 64) } ∧
        rg u .msp p.val Reg.MSP.MISS_CNT = rg s .msp p.val Reg.MSP.MISS_CNT + 1 ∧
        (rb s .msp p.val Reg.MSP.CFG 1 = true → rb u .msp p.val Reg.MSP.STAT 0 = true) ∧
        OtherRegs s u .msp p.val [Reg.MSP.MISS_CNT, Reg.MSP.STAT] ∧ OtherPages s u (pk .msp p.val) ∧
        OnlyPages { s with msps := u.msps, resp := u.resp } u)) ∧
  (∀ (s : State) (p : Fin 2) (m : Master) (off : BitVec 28) (fetch : List (List Nat)), stOf s .msp p.val = .update →
      (mspOf s p.val).lines.find? (fun e => e.1 == off.toNat / 64) = none →
      Gives (.xipRead p m off fetch []) s (fun u => u.resp.fin = .denied ∧ u.msps = s.msps ∧
        rg u .msp p.val Reg.MSP.MISS_CNT = rg s .msp p.val Reg.MSP.MISS_CNT + 1 ∧
        rg u .msp p.val Reg.MSP.BLOCK_CNT = (if rg s .msp p.val Reg.MSP.BLOCK_CNT = 0xFFFFFFFF then 0xFFFFFFFF else rg s .msp p.val Reg.MSP.BLOCK_CNT + 1) ∧
        bit (u.page (pk .msp p.val)).intRaw 1 = true ∧ OtherRegs s u .msp p.val [Reg.MSP.MISS_CNT, Reg.MSP.BLOCK_CNT] ∧
        (∀ k, k ≠ pk .msp p.val → k ≠ pk .fab 0 → u.page k = s.page k) ∧ OnlyPages { s with resp := u.resp, fabLog := u.fabLog } u)) ∧
  (∀ (s : State) (p : Fin 2) (m : Master) (chk : BitVec 16), ActsNow s .msp p.val 0x10 m chk →
      Gives (.mspIndirect p m chk) s (fun u => stOf u .msp p.val = .update ∧ (u.page (pk .msp p.val)).busy = true ∧
        (u.page (pk .msp p.val)).prog = progWord 0 1 0 ∧ rb u .msp p.val Reg.MSP.STAT 1 = true ∧ rb u .msp p.val Reg.MSP.STAT 0 = false ∧
        (mspOf u p.val).since = s.lap s.now ∧ (mspOf u p.val).lines = (mspOf s p.val).lines ∧ CmdDone u (pk .msp p.val) (cmdWord chk 0x10) ∧
        OtherRegs s u .msp p.val [Reg.MSP.STAT] ∧ OtherPages s u (pk .msp p.val) ∧ OnlyPages { s with msps := u.msps } u)) ∧
  (∀ (s : State) (p : Fin 2) (data : List Nat), stOf s .msp p.val = .update → (s.page (pk .msp p.val)).commit = .none →
      bit (rg s .msp p.val Reg.MSP.IND_CMD) 25 = true →
      Gives (.mspIndirectDone p data) s (fun u =>
        (∀ i : Fin 256, i.val < fld (rg s .msp p.val Reg.MSP.IND_CMD) 16 9 →
          rf u .msp p.val (Reg.MSP.IND_DATA + i.val / 4 * 4) (8 * (i.val % 4)) 8 = data.getD i.val 0 % 256) ∧
        stOf u .msp p.val = .run ∧ rb u .msp p.val Reg.MSP.STAT 1 = false ∧ (u.page (pk .msp p.val)).busy = false ∧
        (u.page (pk .msp p.val)).prog = progWord 1 15 10000 ∧ bit (u.page (pk .msp p.val)).intRaw 0 = true ∧ OtherPages s u (pk .msp p.val) ∧
        OnlyPages s u)) ∧
  (∀ (s : State) (p : Fin 2) (t : Nat), stOf s .msp p.val = .update → (s.page (pk .msp p.val)).commit = .none →
      rf s .msp p.val Reg.MSP.IND_POLL 16 16 ≠ 0 →
      (mspOf s p.val).since + 8000000 * rf s .msp p.val Reg.MSP.IND_POLL 16 16 ≤ (s.at t).lap t →
      Gives (.mspIndirectTimeout p t) s (fun u => stOf u .msp p.val = .run ∧ rb u .msp p.val Reg.MSP.STAT 1 = false ∧
        (u.page (pk .msp p.val)).busy = false ∧ fld (u.page (pk .msp p.val)).prog 24 4 = 14 ∧
        (u.page (pk .msp p.val)).err = errWord .wrongState 0x010 4 ∧ bit (u.page (pk .msp p.val)).intRaw 2 = true ∧
        OtherRegs s u .msp p.val [Reg.MSP.STAT] ∧ OtherPages s u (pk .msp p.val) ∧ OnlyPages { s with seed := u.seed, now := max s.now t } u)) ∧
  (∀ (s : State) (n : Fin 8) (chk : BitVec 16) (w k : Nat), ActsNow s .psp n.val 0x10 .ap0 chk → k = rf s .psp n.val Reg.PSP.CFG 8 7 →
      w = (if rf s .psp n.val Reg.PSP.CFG 3 5 = 0 then 32 else rf s .psp n.val Reg.PSP.CFG 3 5) →
      Gives (.pspTrigger n chk) s (fun u =>
        ((pspOf s n.val).trig = false → (pspOf u n.val).trig = true ∧ (pspOf u n.val).sending = (pspOf s n.val).safe ∧
          (pspOf u n.val).until_ = s.lap s.now + (k * w + (if rb s .psp n.val Reg.PSP.CFG 0 then 16 else 0)) * 80 * (rf s .psp n.val Reg.PSP.CLKDIV 0 8 + 1) ∧
          ((pspOf s n.val).safe = false → ∀ i : Fin 64, i.val < k →
            (rb s .psp n.val (Reg.PSP.TX + 4 * i.val) 31 = false → (pspOf u n.val).tx.getD i.val 0 = ofN (rf s .psp n.val (Reg.PSP.TX + 4 * i.val) 0 31 % 2 ^ w)) ∧
            (rb s .psp n.val (Reg.PSP.TX + 4 * i.val) 31 = true → (sigEnt s (rf s .psp n.val (Reg.PSP.TX + 4 * i.val) 0 16)).typ = 1 →
              (pspOf u n.val).tx.getD i.val 0 = ofN ((sigLo s (rf s .psp n.val (Reg.PSP.TX + 4 * i.val) 0 16)).toNat % 2 ^ w))) ∧
          OtherRegs s u .psp n.val []) ∧
        ((pspOf s n.val).trig = true → u.psps = s.psps ∧ bit (u.page (pk .psp n.val)).intRaw 2 = true ∧
          rg u .psp n.val Reg.PSP.SKIP_CNT = (if rg s .psp n.val Reg.PSP.SKIP_CNT = 0xFFFFFFFF then 0xFFFFFFFF else rg s .psp n.val Reg.PSP.SKIP_CNT + 1)) ∧
        CmdDone u (pk .psp n.val) (cmdWord chk 0x10) ∧ OtherPages s u (pk .psp n.val) ∧ OnlyPages { s with psps := u.psps, seed := u.seed } u)) ∧
  (∀ (s : State) (n : Fin 8) (t w : Nat) (rx : List Word) (crc : BitVec 16) (good : Bool), stOf s .psp n.val = .run → (pspOf s n.val).trig = true →
      (pspOf s n.val).sending = false → PageIdle s (pk .psp n.val) → (pspOf s n.val).until_ ≤ (s.at t).lap (max s.now t) → max s.now t = t →
      rx.length = rf s .psp n.val Reg.PSP.CFG 8 7 → rx.length ≤ 64 →
      w = (if rf s .psp n.val Reg.PSP.CFG 3 5 = 0 then 32 else rf s .psp n.val Reg.PSP.CFG 3 5) →
      good = (!rb s .psp n.val Reg.PSP.CFG 0 || wordCrc w rx == crc.toNat) →
      Gives (.pspFrame n t rx crc) s (fun u =>
        (∀ i : Fin 64, i.val < rx.length → rg u .psp n.val (Reg.PSP.RX + 4 * i.val) = ofI (sext w (rx.getD i.val 0).toNat)) ∧
        rg u .psp n.val Reg.PSP.FRAME_CNT = rg s .psp n.val Reg.PSP.FRAME_CNT + 1 ∧ bit (u.page (pk .psp n.val)).intRaw 0 = true ∧
        (pspOf u n.val).trig = false ∧ (pspOf u n.val).bad = (if good then 0 else (pspOf s n.val).bad + 1) ∧
        (good = false → bit (u.page (pk .psp n.val)).intRaw 1 = true ∧
          rg u .psp n.val Reg.PSP.ERR_CNT = (if rg s .psp n.val Reg.PSP.ERR_CNT = 0xFFFFFFFF then 0xFFFFFFFF else rg s .psp n.val Reg.PSP.ERR_CNT + 1)) ∧
        stOf u .psp n.val = (if good = false ∧ rf s .psp n.val Reg.PSP.ERR_LIMIT 0 8 ≤ (pspOf s n.val).bad + 1 then .fault else .run) ∧
        OnlyPublished { s with psps := u.psps, now := t } u [pk .psp n.val])) ∧
  (∀ (s : State) (n : Fin 8) (t id : Nat) (e : SigEntry) (r : Word), stOf s .psp n.val = .run → (pspOf s n.val).trig = true →
      (pspOf s n.val).sending = false → PageIdle s (pk .psp n.val) → (pspOf s n.val).until_ ≤ (s.at t).lap (max s.now t) →
      rf s .psp n.val Reg.PSP.CFG 8 7 = 1 → rb s .psp n.val Reg.PSP.CFG 0 = false → rf s .psp n.val Reg.PSP.CFG 3 5 = 16 → s.sigs = [(id, e)] → id ≠ 0 →
      e.en = true → sigRun s = true → e.from .psp n.val = true → e.upd = UpdEv.frame.num → 4 * e.word = Reg.PSP.RX → e.typ = 0 →
      Gives (.pspFrame n t [r] 0) s (fun u => (slotOf u id).raw = BitVec.ofInt 64 (256 * sext 16 r.toNat) ∧ (slotOf u id).ts = devTime (max s.now t)))

/-- Ethernet, its switch and the application cores (R384, R385, R445 to R449). A good frame for a port is put into the buffer of its receive descriptor with its
timestamp, or dropped and counted without one; a line port's frame for a learned address leaves by the other port, a Sync under E2E with its residence
time added; a descriptor's frame leaves its port; addresses age, MDIO transfers and link changes show. RESTART restarts one core, which ends
it by READY or in PHASE 14; the mailbox rings and clears its flags. -/
def Obligations.ethernet_and_cores : Prop :=
  (∀ (s : State) (t te d b n : Nat) (f : List Nat), ethUp s 2 = true → 60 ≤ f.length → (fb16 f 12 ≠ 0x8808 ∨ rb s .eth 2 Reg.ETH.CFG 3 = false) →
      f.length + 4 ≤ ethMax s 2 → ethDst f = ethMac s 2 → ringReady s 2 Reg.ETH.RXR_LO = true →
      d = rgU64 s .eth 2 Reg.ETH.RXR_LO + 32 * (rg s .eth 2 (Reg.ETH.RXR_LO + 16)).toNat → b = joinN (mem32 s d) (mem32 s (d + 4)) →
      n = fld (mem32 s (d + 8)) 0 14 → inSram b n = true → f.length ≤ n → (b + n ≤ d ∨ d + 32 ≤ b) →
      Gives (.ethReceive 2 t f true te []) s (fun u => (∀ i, i < f.length → mem8 u (b + i) = BitVec.ofNat 8 (f.getD i 0)) ∧
        mem32 u (d + 12) = ofN (1 + 65536 * f.length) ∧ mem32 u (d + 16) = tsLo (rxTs s 2 t) ∧ mem32 u (d + 20) = tsHi (rxTs s 2 t) ∧
        (∀ a, ¬(b ≤ a ∧ a < b + f.length) → ¬(d + 12 ≤ a ∧ a < d + 24) → mem8 u a = mem8 s a) ∧
        rg u .eth 2 Reg.ETH.RX_FRAMES = rg s .eth 2 Reg.ETH.RX_FRAMES + 1 ∧
        rg u .eth 2 (Reg.ETH.RXR_LO + 16) = (if (rg s .eth 2 (Reg.ETH.RXR_LO + 8)).toNat ≤ (rg s .eth 2 (Reg.ETH.RXR_LO + 16)).toNat + 1 then 0
          else rg s .eth 2 (Reg.ETH.RXR_LO + 16) + 1) ∧
        (bit (mem32 s (d + 8)) 19 = true → bit (u.page (pk .eth 2)).intRaw 1 = true) ∧
        OtherRegs s u .eth 2 [Reg.ETH.RX_FRAMES, Reg.ETH.RXR_LO + 16] ∧ OtherPages s u (pk .eth 2) ∧
        OnlyPages { s with mem := u.mem, now := max s.now t } u)) ∧
  (∀ (s : State) (t te : Nat) (f : List Nat), ethUp s 2 = true → 60 ≤ f.length → (fb16 f 12 ≠ 0x8808 ∨ rb s .eth 2 Reg.ETH.CFG 3 = false) →
      f.length + 4 ≤ ethMax s 2 → ethDst f = ethMac s 2 → ringReady s 2 Reg.ETH.RXR_LO = false →
      Gives (.ethReceive 2 t f true te []) s (fun u => rg u .eth 2 Reg.ETH.RX_DROP = rg s .eth 2 Reg.ETH.RX_DROP + 1 ∧
        bit (u.page (pk .eth 2)).intRaw 2 = true ∧ OtherRegs s u .eth 2 [Reg.ETH.RX_DROP] ∧ OtherPages s u (pk .eth 2) ∧
        OnlyPages { s with now := max s.now t } u)) ∧
  (∀ (s : State) (p q : Fin 3) (t te : Nat) (f : List Nat) (l : List EthAddr), p.val < 2 → q.val = 1 - p.val → ethUp s p.val = true → ethUp s q.val = true →
      60 ≤ f.length → fb16 f 12 ≠ 0x8808 → f.length + 4 ≤ ethMax s p.val → ethDst f ≠ ethMac s 0 → ethDst f ≠ ethMac s 1 → ethGroup (ethDst f) = false →
      ethGroup (ethSrc f) = false → rb s .eth 0 Reg.ETH.SW_CFG 1 = true → l = s.ethTbl.filter (fun x => x.mac != ethSrc f) → l.length < 1024 →
      (l.find? (fun x => x.mac == ethDst f)).map EthAddr.port = some q.val →
      (rf s .ptp 0 Reg.PTP.CFG 0 2 = 0 ∨ ptpOf s p.val f = none) → ptpOf s q.val f = none →
      Gives (.ethReceive p t f true te []) s (fun u =>
        u.ethOut = ⟨q.val, rf s .eth q.val Reg.ETH.QMAP (2 * ethPcp f) 2, f, devTime te⟩ :: s.ethOut ∧
        u.ethTbl = l ++ [⟨ethSrc f, p.val, (s.at t).lap (max s.now t)⟩] ∧ rg u .eth q.val Reg.ETH.TX_FRAMES = rg s .eth q.val Reg.ETH.TX_FRAMES + 1 ∧
        OtherRegs s u .eth q.val [Reg.ETH.TX_FRAMES] ∧ OtherPages s u (pk .eth q.val) ∧
        OnlyPages { s with ethOut := u.ethOut, ethTbl := u.ethTbl, now := max s.now t } u)) ∧
  (∀ (s : State) (p q : Fin 3) (t te o : Nat) (f : List Nat), p.val < 2 → q.val = 1 - p.val → ethUp s p.val = true → ethUp s q.val = true →
      60 ≤ f.length → fb16 f 12 ≠ 0x8808 → f.length + 4 ≤ ethMax s p.val → ethDst f ≠ ethMac s 0 → ethDst f ≠ ethMac s 1 → ethGroup (ethDst f) = true →
      rf s .ptp 0 Reg.PTP.CFG 0 2 = 1 → ptpOf s p.val f = some (o, .l2) → ptpType f o = 0 → o + 16 ≤ f.length →
      ringReady s p.val Reg.ETH.RXR_LO = false → rb s .eth 0 Reg.ETH.SW_CFG 1 = false →
      Gives (.ethReceive p t f true te []) s (fun u => (u.ethOut.map EthOut.port).head? = some q.val ∧ (u.ethOut.map EthOut.ts).head? = some (devTime te) ∧
        ((u.ethOut.map (fun e => fbN e.bytes (o + 8) 8)).head? = some (((fbN f (o + 8) 8 : Int) + 8192 * (txTs s q.val te - rxTs s p.val t).toInt) %
          18446744073709551616).toNat) ∧
        u.ethOut.tail = s.ethOut)) ∧
  (∀ (s : State) (p : Fin 3) (t d b n : Nat), ethUp s p.val = true → ringReady s p.val Reg.ETH.TXR_LO = true →
      d = rgU64 s .eth p.val Reg.ETH.TXR_LO + 32 * (rg s .eth p.val (Reg.ETH.TXR_LO + 16)).toNat → b = joinN (mem32 s d) (mem32 s (d + 4)) →
      n = fld (mem32 s (d + 8)) 0 14 → inSram b n = true → n + 4 ≤ ethMax s p.val → bit (mem32 s (d + 8)) 18 = false →
      Gives (.ethTransmit p t []) s (fun u =>
        u.ethOut = ⟨p.val, ethQueue s p.val (memBytes s b n), memBytes s b n, devTime t⟩ :: s.ethOut ∧
        WroteWords s u [(d + 12, ofN (1 + 65536 * n))] ∧ rg u .eth p.val Reg.ETH.TX_FRAMES = rg s .eth p.val Reg.ETH.TX_FRAMES + 1 ∧
        rg u .eth p.val (Reg.ETH.TXR_LO + 16) = (if (rg s .eth p.val (Reg.ETH.TXR_LO + 8)).toNat ≤ (rg s .eth p.val (Reg.ETH.TXR_LO + 16)).toNat + 1 then 0
          else rg s .eth p.val (Reg.ETH.TXR_LO + 16) + 1) ∧
        (bit (mem32 s (d + 8)) 19 = true → bit (u.page (pk .eth p.val)).intRaw 0 = true) ∧
        (bit (mem32 s (d + 8)) 17 = false → u.txq = s.txq) ∧
        (bit (mem32 s (d + 8)) 17 = true → stOf s .ptp 0 = .run → (txqOf s p.val).length < 8 →
          (txqOf u p.val).dropLast = txqOf s p.val ∧ (txqOf u p.val).getLast?.map TxqEnt.ts = some (txTs s p.val t) ∧
          bit (u.page (pk .ptp 0)).intRaw p.val = true) ∧
        (∀ k, k ≠ pk .eth p.val → k ≠ pk .ptp 0 → u.page k = s.page k) ∧
        OnlyPages { s with ethOut := u.ethOut, txq := u.txq, mem := u.mem, now := max s.now t } u)) ∧
  (∀ (s : State) (p : Fin 3) (t te : Nat) (f : List Nat) (good : Bool) (ecc : List (Bool × Nat)),
      Gives (.ethReceive p t f good te ecc) s (fun u => u.now = max s.now t)) ∧
  (∀ (s : State) (t : Nat), rf s .eth 0 Reg.ETH.SW_CFG 16 16 ≠ 0 →
      Gives (.ethAddressAge t) s (fun u =>
        u.ethTbl = s.ethTbl.filter (fun x => decide ((s.at t).lap t < x.seen + 8000000000 * rf s .eth 0 Reg.ETH.SW_CFG 16 16)) ∧
        (∀ k, u.page k = s.page k) ∧ OnlyPages { s with ethTbl := u.ethTbl, now := max s.now t } u)) ∧
  (∀ (s : State) (p : Fin 3) (v : Word), answers s ⟨.eth, p.val⟩ = true → (s.page (pk .eth p.val)).key ≠ .window → (s.page (pk .eth p.val)).locked = false →
      Gives (.mdioAccess p v) s (fun u =>
        (p.val = 2 → rb s .eth 2 Reg.ETH.MDIO 12 = false → rg u .eth 2 Reg.ETH.MDIO = v &&& regMask .eth Reg.ETH.MDIO) ∧
        (p.val = 2 → rb s .eth 2 Reg.ETH.MDIO 12 = true → rg u .eth 2 Reg.ETH.MDIO = rg s .eth 2 Reg.ETH.MDIO ∧
          (u.page (pk .eth 2)).err = errWord .busy Reg.ETH.MDIO 3) ∧
        (p.val < 2 → (u.page (pk .eth p.val)).err = errWord .notPresent Reg.ETH.MDIO 3 ∧ OtherRegs s u .eth p.val []) ∧
        OtherRegs s u .eth p.val [Reg.ETH.MDIO] ∧ OtherPages s u (pk .eth p.val) ∧ OnlyPages s u)) ∧
  (∀ (s : State) (data : BitVec 16), powered s .eth 2 = true → rb s .eth 2 Reg.ETH.MDIO 12 = true →
      Gives (.mdioDone data) s (fun u => rb u .eth 2 Reg.ETH.MDIO 12 = false ∧
        (rb s .eth 2 Reg.ETH.MDIO 11 = true → rf u .eth 2 Reg.ETH.MDIO 16 16 = data.toNat) ∧ bit (u.page (pk .eth 2)).intRaw 4 = true ∧
        OtherRegs s u .eth 2 [Reg.ETH.MDIO] ∧ OtherPages s u (pk .eth 2) ∧ OnlyPages s u)) ∧
  (∀ (s : State) (p : Fin 3) (up : Bool) (speed : Fin 4) (an : Bool), inSt s .eth p.val [.idle, .run] = true →
      Gives (.ethLinkChange p up speed an) s (fun u => rb u .eth p.val Reg.ETH.STAT 0 = up ∧
        (up = true → rf u .eth p.val Reg.ETH.STAT 1 2 = speed.val ∧ rb u .eth p.val Reg.ETH.STAT 3 = an) ∧
        bit (u.page (pk .eth p.val)).intRaw 3 = true ∧ OtherRegs s u .eth p.val [Reg.ETH.STAT] ∧ OtherPages s u (pk .eth p.val) ∧ OnlyPages s u)) ∧
  (∀ (s : State) (chk : BitVec 16), ActsNow s .apc 0 0x10 .ap0 chk →
      Gives (.restartAp0 chk) s (fun u => u.apRestart = some (0, s.lap s.now + 960000000) ∧ rb u .apc 0 Reg.APC.READY 0 = false ∧
        rb u .apc 0 Reg.APC.READY 1 = rb s .apc 0 Reg.APC.READY 1 ∧ u.apHalt.getLsbD 0 = false ∧ u.apHalt.getLsbD 1 = s.apHalt.getLsbD 1 ∧
        rf u .apc 0 Reg.APC.RESTART_CNT 0 16 = (rf s .apc 0 Reg.APC.RESTART_CNT 0 16 + 1) % 65536 ∧
        (u.page (pk .apc 0)).prog = progWord 0 1 0 ∧ (u.page (pk .apc 0)).busy = true ∧ CmdDone u (pk .apc 0) (cmdWord chk 0x10) ∧
        OtherRegs s u .apc 0 [Reg.APC.READY, Reg.APC.RESTART_CNT] ∧ OtherPages s u (pk .apc 0) ∧
        OnlyPages { s with apRestart := u.apRestart, apHalt := u.apHalt, dbgHalt := u.dbgHalt } u)) ∧
  (∀ (s : State) (chk : BitVec 16), ActsNow s .apc 0 0x11 .ap0 chk →
      Gives (.restartAp1 chk) s (fun u => u.apRestart = some (1, s.lap s.now + 960000000) ∧ rb u .apc 0 Reg.APC.READY 1 = false ∧
        rb u .apc 0 Reg.APC.READY 0 = rb s .apc 0 Reg.APC.READY 0 ∧ u.apHalt.getLsbD 1 = false ∧ u.apHalt.getLsbD 0 = s.apHalt.getLsbD 0 ∧
        rf u .apc 0 Reg.APC.RESTART_CNT 16 16 = (rf s .apc 0 Reg.APC.RESTART_CNT 16 16 + 1) % 65536 ∧
        (u.page (pk .apc 0)).prog = progWord 0 1 0 ∧ (u.page (pk .apc 0)).busy = true ∧ CmdDone u (pk .apc 0) (cmdWord chk 0x11) ∧
        OtherRegs s u .apc 0 [Reg.APC.READY, Reg.APC.RESTART_CNT] ∧ OtherPages s u (pk .apc 0) ∧
        OnlyPages { s with apRestart := u.apRestart, apHalt := u.apHalt, dbgHalt := u.dbgHalt } u)) ∧
  (∀ (s : State) (m : Master) (v : Word) (i : Fin 2), m = (if i.val = 0 then .ap0 else .ap1) → answers s ⟨.apc, 0⟩ = true →
      (s.page (pk .apc 0)).key ≠ .window → (s.page (pk .apc 0)).locked = false →
      Gives (.readyWrite m v) s (fun u => rb u .apc 0 Reg.APC.READY i.val = bit v i.val ∧
        rb u .apc 0 Reg.APC.READY (1 - i.val) = rb s .apc 0 Reg.APC.READY (1 - i.val) ∧
        (bit v i.val = true → s.apRestart.map Prod.fst = some i.val → u.apRestart = none ∧ (u.page (pk .apc 0)).prog = progWord 1 15 10000 ∧
          (u.page (pk .apc 0)).busy = false ∧ bit (u.page (pk .apc 0)).intRaw 2 = true) ∧
        OtherRegs s u .apc 0 [Reg.APC.READY] ∧ OtherPages s u (pk .apc 0) ∧ OnlyPages { s with apRestart := u.apRestart } u)) ∧
  (∀ (s : State) (m : Master) (v : Word), m ≠ .ap0 → m ≠ .ap1 → answers s ⟨.apc, 0⟩ = true → (s.page (pk .apc 0)).key ≠ .window →
      (s.page (pk .apc 0)).locked = false →
      Gives (.readyWrite m v) s (fun u => (∀ k, u.page k = s.page k) ∧ OnlyPages s u)) ∧
  (∀ (s : State) (t i due : Nat), s.apRestart = some (i, due) → due ≤ (s.at t).lap t →
      Gives (.restartTimeout t) s (fun u => u.apRestart = none ∧ fld (u.page (pk .apc 0)).prog 24 4 = 14 ∧ (u.page (pk .apc 0)).busy = false ∧
        (u.page (pk .apc 0)).err = errWord .wrongState 0x010 4 ∧ bit (u.page (pk .apc 0)).intRaw 3 = true ∧ OtherRegs s u .apc 0 [] ∧
        OtherPages s u (pk .apc 0) ∧ OnlyPages { s with apRestart := none, seed := u.seed, now := max s.now t } u)) ∧
  (∀ (s : State) (m : Master) (v : Word), answers s ⟨.apc, 0⟩ = true → (s.page (pk .apc 0)).key ≠ .window → (s.page (pk .apc 0)).locked = false →
      Gives (.mbRing m v) s (fun u => rb u .apc 0 Reg.APC.MB_STAT 0 = true ∧
        (rb s .apc 0 Reg.APC.MB_STAT 0 = false → bit (u.page (pk .apc 0)).intRaw 0 = true) ∧
        (rb s .apc 0 Reg.APC.MB_STAT 0 = true → (u.page (pk .apc 0)).err = errWord .busy Reg.APC.MB_RING 3) ∧
        OtherRegs s u .apc 0 [Reg.APC.MB_STAT] ∧ OtherPages s u (pk .apc 0) ∧ OnlyPages s u) ∧
      Gives (.mbRspRing m v) s (fun u =>
        (m.isAp = true → rb u .apc 0 Reg.APC.MB_STAT 1 = true ∧ bit (u.page (pk .apc 0)).intRaw 1 = true) ∧
        (m.isAp = false → u.page (pk .apc 0) = s.page (pk .apc 0)) ∧
        OtherRegs s u .apc 0 [Reg.APC.MB_STAT] ∧ OtherPages s u (pk .apc 0) ∧ OnlyPages s u) ∧
      Gives (.mbAck m v) s (fun u => rb u .apc 0 Reg.APC.MB_STAT 0 = (rb s .apc 0 Reg.APC.MB_STAT 0 && !bit v 0) ∧
        rb u .apc 0 Reg.APC.MB_STAT 1 = (rb s .apc 0 Reg.APC.MB_STAT 1 && !bit v 1) ∧
        OtherRegs s u .apc 0 [Reg.APC.MB_STAT] ∧ OtherPages s u (pk .apc 0) ∧ OnlyPages s u))

/-- The CAN controllers (R457 to R468). A frame goes to the matching head of lowest number and into the next object of its queue, or is lost where that is full; its mapped
signal publishes with the frame's time. TX_REQ reads an object's signals and makes it pending; TX_CANCEL ends a request at once unless its frame is on the bus. The
pending object of lowest identifier is sent; attempts beyond a limit are abandoned. Errors count to error-passive and bus-off. RX_FULL returns an
object; a read of OBJ_HDR snapshots one; cyclic requests, stale queues and references follow their times; recovery ends in RUN. -/
def Obligations.can_controllers : Prop :=
  (∀ (s : State) (k : Fin 8) (tsof t h n : Nat) (f : CanFrame), canLive s k.val = true → (canOf s k.val).rxErr = 0 →
      (List.range 128).find? (fun i => canMatch s k.val i f) = some h → n = h + SMap.get (fun _ => 0) (canOf s k.val).ring h → n < 128 →
      (objBit s k.val Reg.CAN.RX_FULL n = false ∨ bit (objCfg s k.val h) 9 = true) → s.sigs = [] →
      Gives (.canFrameReceive k tsof t f) s (fun u =>
        (canObj u k.val n).data = (if f.rtr then [] else f.data.take (dlcLen f.fdf f.dlc.val)) ∧
        (canObj u k.val n).hdr = ofN (f.id.toNat + 536870912 * b2n f.ide + 1073741824 * b2n f.fdf + 2147483648 * b2n f.brs) ∧
        (canObj u k.val n).ts = devTime tsof ∧ bit (canObj u k.val n).info 0 = objBit s k.val Reg.CAN.RX_FULL n ∧
        (∀ i : Fin 128, objBit u k.val Reg.CAN.RX_FULL i.val = if i.val = n then true else objBit s k.val Reg.CAN.RX_FULL i.val) ∧
        (∀ i : Fin 128, i.val ≠ n → canObj u k.val i.val = canObj s k.val i.val) ∧
        SMap.get (fun _ => 0) (canOf u k.val).ring h = (n - h + 1) % max 1 (cfgQlen (objCfg s k.val h)) ∧
        objBit u k.val Reg.CAN.RX_STALE h = false ∧ (bit (objCfg s k.val n) 10 = true → bit (u.page (pk .can k.val)).intRaw 0 = true) ∧
        OtherPages s u (pk .can k.val) ∧ OnlyPages { s with cans := u.cans, now := max s.now t } u)) ∧
  (∀ (s : State) (k : Fin 8) (tsof t h n : Nat) (f : CanFrame), canLive s k.val = true → (canOf s k.val).rxErr = 0 →
      (List.range 128).find? (fun i => canMatch s k.val i f) = some h → n = h + SMap.get (fun _ => 0) (canOf s k.val).ring h → n < 128 →
      objBit s k.val Reg.CAN.RX_FULL n = true → bit (objCfg s k.val h) 9 = false →
      Gives (.canFrameReceive k tsof t f) s (fun u => (∀ i : Fin 128, canObj u k.val i.val = canObj s k.val i.val) ∧
        rg u .can k.val Reg.CAN.RX_LOST = (if rg s .can k.val Reg.CAN.RX_LOST = 0xFFFFFFFF then 0xFFFFFFFF else rg s .can k.val Reg.CAN.RX_LOST + 1) ∧
        bit (u.page (pk .can k.val)).intRaw 3 = true ∧ OtherPages s u (pk .can k.val) ∧ OnlyPages { s with cans := u.cans, now := max s.now t } u)) ∧
  (∀ (s : State) (k : Fin 8) (tsof t h n id : Nat) (f : CanFrame) (e : SigEntry), canLive s k.val = true → (canOf s k.val).rxErr = 0 →
      (List.range 128).find? (fun i => canMatch s k.val i f) = some h → n = h + SMap.get (fun _ => 0) (canOf s k.val).ring h → n < 128 →
      objBit s k.val Reg.CAN.RX_FULL n = false → s.sigs = [(id, e)] → id ≠ 0 → e.en = true → sigRun s = true → e.from .can k.val = true →
      e.upd = UpdEv.frame.num → e.word < 64 → fld (canMap s k.val e.word) 16 7 = n → e.typ = 1 → f.rtr = false →
      Gives (.canFrameReceive k tsof t f) s (fun u =>
        (slotOf u id).raw = sx64 (ofN (leBytes (f.data.take (dlcLen f.fdf f.dlc.val)) (fld (canMap s k.val e.word) 26 6) 4)) ∧
        (slotOf u id).ts = devTime tsof ∧ (slotOf u id).pubCnt = (slotOf s id).pubCnt + 1)) ∧
  (∀ (s : State) (k : Fin 8) (w : Fin 4) (b : Fin 32) (n : Nat), answers s ⟨.can, k.val⟩ = true → (s.page (pk .can k.val)).key ≠ .window →
      (s.page (pk .can k.val)).locked = false → n = 32 * w.val + b.val →
      Gives (.txReq k w (1#32 <<< b.val)) s (fun u =>
        (fld (objCfg s k.val n) 0 2 ≠ 1 → (u.page (pk .can k.val)).err = errWord .conflict (Reg.CAN.TX_REQ + 4 * w.val) 3 ∧ u.cans = s.cans ∧
          OtherRegs s u .can k.val []) ∧
        (fld (objCfg s k.val n) 0 2 = 1 → (∀ i : Fin 128, objBit u k.val Reg.CAN.TX_PEND i.val = if i.val = n then true else objBit s k.val Reg.CAN.TX_PEND i.val) ∧
          (objBit s k.val Reg.CAN.TX_PEND n = false → (canObj u k.val n).arb = 0 ∧ (canObj u k.val n).errs = 0 ∧ (canObj u k.val n).reqAt = s.lap s.now ∧
            ((∀ i : Fin 64, fld (canMap s k.val i.val) 16 7 = n → fld (canMap s k.val i.val) 0 16 = 0) → (canObj u k.val n).data = pad64 (canObj s k.val n).data)) ∧
          (objBit s k.val Reg.CAN.TX_PEND n = true → u.cans = s.cans) ∧
          OtherRegs s u .can k.val [Reg.CAN.TX_PEND + 4 * w.val]) ∧
        (∀ i : Fin 128, i.val ≠ n → canObj u k.val i.val = canObj s k.val i.val) ∧ OtherPages s u (pk .can k.val) ∧ OnlyPages { s with cans := u.cans } u)) ∧
  (∀ (s : State) (k : Fin 8) (w : Fin 4) (b : Fin 32) (i : Fin 64) (n id : Nat), answers s ⟨.can, k.val⟩ = true → (s.page (pk .can k.val)).key ≠ .window →
      (s.page (pk .can k.val)).locked = false → n = 32 * w.val + b.val → fld (objCfg s k.val n) 0 2 = 1 → objBit s k.val Reg.CAN.TX_PEND n = false →
      fld (canMap s k.val i.val) 16 7 = n → id = fld (canMap s k.val i.val) 0 16 → id ≠ 0 → (sigEnt s id).typ = 1 → fld (canMap s k.val i.val) 26 6 ≤ 60 →
      (∀ j : Fin 64, j ≠ i → fld (canMap s k.val j.val) 16 7 ≠ n) →
      Gives (.txReq k w (1#32 <<< b.val)) s (fun u =>
        leBytes (canObj u k.val n).data (fld (canMap s k.val i.val) 26 6) 4 = (sigVal s id).toNat % 4294967296)) ∧
  (∀ (s : State) (k : Fin 8) (w : Fin 4) (b : Fin 32) (n : Nat) (onBus : Option (Fin 128)), answers s ⟨.can, k.val⟩ = true →
      (s.page (pk .can k.val)).key ≠ .window → (s.page (pk .can k.val)).locked = false → n = 32 * w.val + b.val → objBit s k.val Reg.CAN.TX_PEND n = true →
      (canObj s k.val n).again = false →
      Gives (.txCancel k w (1#32 <<< b.val) onBus) s (fun u =>
        objBit u k.val Reg.CAN.TX_PEND n = decide (onBus.map Fin.val = some n) ∧ (canObj u k.val n).cancel = decide (onBus.map Fin.val = some n) ∧
        (∀ i : Fin 128, i.val ≠ n → objBit u k.val Reg.CAN.TX_PEND i.val = objBit s k.val Reg.CAN.TX_PEND i.val ∧ canObj u k.val i.val = canObj s k.val i.val) ∧
        OtherRegs s u .can k.val [Reg.CAN.TX_PEND + 4 * w.val] ∧ OtherPages s u (pk .can k.val) ∧ OnlyPages { s with cans := u.cans } u)) ∧
  (∀ (s : State) (k : Fin 8) (tsof t n m : Nat) (tdc : Fin 128), canSends s k.val = true → rf s .can k.val Reg.CAN.CFG 0 2 = 0 → n < 128 → m < 128 →
      rb s .can k.val Reg.CAN.CFG 2 = false → (∀ i : Fin 128, objBit s k.val Reg.CAN.TX_PEND i.val = decide (i.val = n ∨ i.val = m)) →
      (canObj s k.val n).reqAt ≤ s.lap tsof → (n = m ∨ (rb s .can k.val (Reg.CAN.FILT_ID + 4 * n) 29 = false ∧ rb s .can k.val (Reg.CAN.FILT_ID + 4 * m) 29 = false ∧
        rf s .can k.val (Reg.CAN.FILT_ID + 4 * n) 0 11 < rf s .can k.val (Reg.CAN.FILT_ID + 4 * m) 0 11)) →
      (canObj s k.val n).again = false → (canOf s k.val).txErr = 0 →
      Gives (.canFrameSent k tsof t tdc) s (fun u => objBit u k.val Reg.CAN.TX_DONE n = true ∧ objBit u k.val Reg.CAN.TX_PEND n = false ∧
        (m ≠ n → objBit u k.val Reg.CAN.TX_PEND m = true) ∧ (canObj u k.val n).ts = devTime tsof ∧
        (canOf u k.val).sent.map CanFrame.dlc = some (Fin.ofNat 16 (fld (objCfg s k.val n) 28 4)) ∧
        (rb s .can k.val (Reg.CAN.FILT_ID + 4 * n) 29 = false → (canOf u k.val).sent.map (fun f => f.id.toNat) = some (rf s .can k.val (Reg.CAN.FILT_ID + 4 * n) 0 11)) ∧
        (rb s .can k.val Reg.CAN.TIMEREF 0 = false → bit (objCfg s k.val n) 24 = false →
          (canOf u k.val).sent.map CanFrame.data = some ((pad64 (canObj s k.val n).data).take (cfgLen (objCfg s k.val n)))) ∧
        (rb s .can k.val Reg.CAN.TIMEREF 0 = true → rf s .can k.val Reg.CAN.TIMEREF 8 7 = n → bit (objCfg s k.val n) 24 = false → 8 ≤ cfgLen (objCfg s k.val n) →
          (canOf u k.val).sent.map (fun f => leBytes f.data 0 8) = some (tsof % 18446744073709551616)) ∧
        (bit (objCfg s k.val n) 10 = true → bit (u.page (pk .can k.val)).intRaw 1 = true) ∧ OtherPages s u (pk .can k.val) ∧
        OnlyPages { s with cans := u.cans, now := max s.now t } u)) ∧
  (∀ (s : State) (k : Fin 8) (tsof t n : Nat), canSends s k.val = true → canChosen s k.val tsof = some n → (canObj s k.val n).cancel = false →
      (canObj s k.val n).again = false →
      Gives (.canArbitrationLost k tsof t) s (fun u => (canObj u k.val n).arb = (canObj s k.val n).arb + 1 ∧
        (if rb s .can k.val Reg.CAN.RETRY 4 = false ∧ rf s .can k.val Reg.CAN.RETRY 0 4 < (canObj s k.val n).arb + 1 then
          objBit u k.val Reg.CAN.TX_PEND n = false ∧ objBit u k.val Reg.CAN.TX_ABANDON n = true ∧ bit (u.page (pk .can k.val)).intRaw 2 = true
          else objBit u k.val Reg.CAN.TX_PEND n = true ∧ OtherRegs s u .can k.val []) ∧
        OtherPages s u (pk .can k.val) ∧ OnlyPages { s with cans := u.cans, now := max s.now t } u)) ∧
  (∀ (s : State) (k : Fin 8) (inc : Fin 9) (lec : Fin 7) (tsof t : Nat), canLive s k.val = true →
      Gives (.canError k false inc lec tsof t) s (fun u => (canOf u k.val).rxErr = (canOf s k.val).rxErr + inc.val ∧ (canOf u k.val).txErr = (canOf s k.val).txErr ∧
        rg u .can k.val Reg.CAN.ERR_CNT = rg s .can k.val Reg.CAN.ERR_CNT + 1 ∧ rf u .can k.val Reg.CAN.ECR 20 3 = lec.val ∧
        rf u .can k.val Reg.CAN.ECR 8 7 = min ((canOf s k.val).rxErr + inc.val) 127 ∧
        ((canOf s k.val).txErr ≤ 255 → rf u .can k.val Reg.CAN.ECR 16 2 = (if 128 ≤ (canOf s k.val).txErr ∨ 128 ≤ (canOf s k.val).rxErr + inc.val then 1 else 0) ∧
          OnlyPages { s with cans := u.cans, now := max s.now t } u ∧ OtherPages s u (pk .can k.val) ∧
          OtherRegs s u .can k.val [Reg.CAN.ERR_CNT, Reg.CAN.ECR]) ∧
        ((canOf s k.val).txErr < 96 → (canOf s k.val).rxErr < 96 → 96 ≤ (canOf s k.val).rxErr + inc.val → bit (u.page (pk .can k.val)).intRaw 5 = true))) ∧
  (∀ (s : State) (k : Fin 8) (inc : Fin 9) (lec : Fin 7) (tsof t : Nat), canLive s k.val = true → canChosen s k.val tsof = none →
      255 < (canOf s k.val).txErr + inc.val → RaiseLogs s 0x20 .can k.val 0 →
      Gives (.canError k true inc lec tsof t) s (fun u => stOf u .can k.val = .fault ∧ rf u .can k.val Reg.CAN.ECR 16 2 = 2 ∧
        bit (u.page (pk .can k.val)).intRaw 7 = true ∧ Logged u 0x20 .can k.val 0 ∧
        (∀ i : Fin 128, objBit u k.val Reg.CAN.TX_PEND i.val = objBit s k.val Reg.CAN.TX_PEND i.val) ∧ u.sigs = s.sigs)) ∧
  (∀ (s : State) (k : Fin 8) (w : Fin 4) (b : Fin 32) (n : Nat) (ev : Word), answers s ⟨.can, k.val⟩ = true → (s.page (pk .can k.val)).key ≠ .window →
      (s.page (pk .can k.val)).locked = false → n = 32 * w.val + b.val →
      Gives (.rxFullWrite k w (1#32 <<< b.val) ev) s (fun u =>
        (∀ i : Fin 128, objBit u k.val Reg.CAN.RX_FULL i.val = (objBit s k.val Reg.CAN.RX_FULL i.val && (i.val != n || bit ev b.val))) ∧
        OtherRegs s u .can k.val [Reg.CAN.RX_FULL + 4 * w.val] ∧ OtherPages s u (pk .can k.val) ∧ OnlyPages { s with cans := u.cans } u)) ∧
  (∀ (s : State) (k : Fin 8) (v : Word), answers s ⟨.can, k.val⟩ = true → (s.page (pk .can k.val)).key ≠ .window → (s.page (pk .can k.val)).locked = false →
      Gives (.objIdxWrite k v) s (fun u => rg u .can k.val Reg.CAN.OBJ_IDX = v &&& 0x7F ∧ OtherRegs s u .can k.val [Reg.CAN.OBJ_IDX] ∧
        OtherPages s u (pk .can k.val) ∧ OnlyPages s u)) ∧
  (∀ (s : State) (k : Fin 8) (o : CanObj), powered s .can k.val = true → o = canObj s k.val (rf s .can k.val Reg.CAN.OBJ_IDX 0 7) →
      Gives (.objHdrRead k) s (fun u => u.resp = ⟨o.hdr, 0, .ok⟩ ∧ SMap.get (fun _ => 0) (u.page (pk .can k.val)).snap Reg.CAN.OBJ_TS_LO = tsLo o.ts ∧
        SMap.get (fun _ => 0) (u.page (pk .can k.val)).snap Reg.CAN.OBJ_INFO = o.info ∧
        (∀ i : Fin 16, SMap.get (fun _ => 0) (u.page (pk .can k.val)).snap (Reg.CAN.OBJ_DATA + 4 * i.val) = ofN (leBytes (pad64 o.data) (4 * i.val) 4)) ∧
        OtherRegs s u .can k.val [] ∧ OtherPages s u (pk .can k.val) ∧ OnlyPages { s with resp := u.resp } u)) ∧
  (∀ (s : State) (k : Fin 8) (n : Fin 128) (t : Nat), inSt s .can k.val [.run, .safe] = true → fld (objCfg s k.val n.val) 0 2 = 1 →
      fld (objCfg s k.val n.val) 12 12 ≠ 0 → t % (8000000 * fld (objCfg s k.val n.val) 12 12) = 0 →
      Gives (.canCyclicRequest k n t) s (fun u => objBit u k.val Reg.CAN.TX_PEND n.val = true ∧
        (objBit s k.val Reg.CAN.TX_PEND n.val = true → rb u .can k.val Reg.CAN.STAT 2 = true ∧ u.cans = s.cans) ∧
        (objBit s k.val Reg.CAN.TX_PEND n.val = false → (canObj u k.val n.val).arb = 0 ∧ rg u .can k.val Reg.CAN.STAT = rg s .can k.val Reg.CAN.STAT) ∧
        OtherPages s u (pk .can k.val) ∧ OnlyPages { s with cans := u.cans, now := max s.now t } u)) ∧
  (∀ (s : State) (k : Fin 8) (h : Fin 128) (t id : Nat) (e : SigEntry), inSt s .can k.val [.run, .safe] = true → cfgHead (objCfg s k.val h.val) = true →
      fld (objCfg s k.val h.val) 12 12 ≠ 0 → objBit s k.val Reg.CAN.RX_STALE h.val = false →
      SMap.get (fun _ => 0) (canOf s k.val).seen h.val + 8000000 * fld (objCfg s k.val h.val) 12 12 ≤ (s.at t).lap t → s.sigs = [(id, e)] → e.en = true →
      e.from .can k.val = true → e.word < 64 → headOf s k.val (fld (canMap s k.val e.word) 16 7) = some h.val →
      Gives (.rxStale k h t) s (fun u => objBit u k.val Reg.CAN.RX_STALE h.val = true ∧ bit (u.page (pk .can k.val)).intRaw 4 = true ∧
        (slotOf u id).safe = true ∧ (slotOf u id).value = (if (slotOf s id).forced || e.holds then (slotOf s id).value else safeValue e) ∧
        OnlyPublished { s with now := max s.now t } u [pk .can k.val])) ∧
  (∀ (s : State) (k : Fin 8) (t n : Nat) (onBus : Bool), stOf s .can k.val = .run → rb s .can k.val Reg.CAN.TIMEREF 0 = true →
      n = rf s .can k.val Reg.CAN.TIMEREF 8 7 → t % (8000 * (rg s .can k.val Reg.CAN.REF_PERIOD).toNat) = 0 →
      Gives (.timeReference k t onBus) s (fun u => objBit u k.val Reg.CAN.TX_PEND n = true ∧
        (objBit s k.val Reg.CAN.TX_PEND n = true → bit (u.page (pk .can k.val)).intRaw 8 = true ∧
          rg u .can k.val Reg.CAN.REF_MISS = (if rg s .can k.val Reg.CAN.REF_MISS = 0xFFFFFFFF then 0xFFFFFFFF else rg s .can k.val Reg.CAN.REF_MISS + 1) ∧
          (onBus = true → (canObj u k.val n).cancel = true ∧ (canObj u k.val n).again = true)) ∧
        (objBit s k.val Reg.CAN.TX_PEND n = false ∨ onBus = false → (canObj u k.val n).reqAt = (s.at t).lap (max s.now t)) ∧
        OtherPages s u (pk .can k.val) ∧ OnlyPages { s with cans := u.cans, now := max s.now t } u)) ∧
  (∀ (s : State) (k : Fin 8) (chk : BitVec 16), ActsNow s .can k.val 0x10 .ap0 chk →
      Gives (.canRecover k chk) s (fun u => (u.page (pk .can k.val)).busy = true ∧ (u.page (pk .can k.val)).prog = progWord 1 1 0 ∧
        stOf u .can k.val = .fault ∧ CmdDone u (pk .can k.val) (cmdWord chk 0x10) ∧ canOf u k.val = { canOf s k.val with recAt := s.lap s.now, occ := 0 } ∧
        OtherRegs s u .can k.val [] ∧ OtherPages s u (pk .can k.val) ∧ OnlyPages { s with cans := u.cans } u)) ∧
  (∀ (s : State) (k : Fin 8), stOf s .can k.val = .fault → (s.page (pk .can k.val)).busy = true →
      Gives (.canRecoveryEnd k) s (fun u => stOf u .can k.val = .run ∧ (canOf u k.val).txErr = 0 ∧ (canOf u k.val).rxErr = 0 ∧
        rf u .can k.val Reg.CAN.ECR 0 8 = 0 ∧ rf u .can k.val Reg.CAN.ECR 8 7 = 0 ∧ rf u .can k.val Reg.CAN.ECR 16 2 = 0 ∧
        (u.page (pk .can k.val)).busy = false ∧ (u.page (pk .can k.val)).prog = progWord 1 15 10000 ∧ bit (u.page (pk .can k.val)).intRaw 28 = true ∧
        OtherRegs s u .can k.val [Reg.CAN.ECR] ∧ OtherPages s u (pk .can k.val) ∧ OnlyPages { s with cans := u.cans } u)) ∧
  (∀ (s : State) (k : Fin 8), inSt s .can k.val [.run, .safe] = true →
      Gives (.canBusIntegration k) s (fun u => rb u .can k.val Reg.CAN.STAT 0 = false ∧ OtherRegs s u .can k.val [Reg.CAN.STAT] ∧
        OtherPages s u (pk .can k.val) ∧ OnlyPages s u))

/-- The field inputs and outputs (R473 to R489). A refresh takes the commands of OUT_SRC and the frames of both dies: levels, measurements and read-back
publish at its end, a bad frame counts, SAFE_HELD takes the page to SAFE; 3 refreshes or 20 ms without a good frame to FAULT. Accepted levels,
wire breaks, output diagnostics and L+ act as reported; a group acts as one. CLEAR_DIAG, retries that hold and recovery end diagnostics. Silence
makes a die hold its safe outputs; without VISO_IN it drives nothing. -/
def Obligations.field_io : Prop :=
  (∀ (s : State) (t : Nat) (p0 p1 ol0 ol1 sh0 sh1 : BitVec 8) (l0 l1 : Nat) (v0 v1 c0 c1 : List Nat), refreshAt (s.at t) t = true → dioLegacy s = false →
      PageIdle s (pk .dio 0) → s.dio.power = true → s.dio.die0.overdue ((s.at t).lap t) = false → s.dio.die1.overdue ((s.at t).lap t) = false →
      s.dio.die0.held = false → s.dio.die1.held = false → s.sigs = [] → s.holds = [] → s.dio.rb = [] → rg s .dio 0 Reg.DIO.PAR = 0 →
      Gives (.fieldRefresh t (.good p0 ol0 sh0 l0 v0 c0) (.good p1 ol1 sh1 l1 v1 c1)) s (fun u =>
        stOf u .dio 0 = (if stOf s .dio 0 = .off then .idle else stOf s .dio 0) ∧ rf u .dio 0 Reg.DIO.STAT 0 2 = 3 ∧
        (∀ o : Fin 16, rb u .dio 0 Reg.DIO.OUT_CMD o.val = (if stOf s .dio 0 ≠ .run then rb s .dio 0 Reg.DIO.SAFE_VAL o.val
          else if rf s .dio 0 (Reg.DIO.OUT_SRC + 4 * o.val) 0 2 = 1 then sigBit s (rf s .dio 0 (Reg.DIO.OUT_SRC + 4 * o.val) 16 16)
          else rb s .dio 0 Reg.DIO.OUT_VAL o.val)) ∧
        (∀ i : Fin 32, rb u .dio 0 Reg.DIO.IN_STATE i.val = (s.dio.acc.getLsbD i.val != rb s .dio 0 (Reg.DIO.IN_CFG + 4 * i.val) 3)) ∧
        rf u .dio 0 Reg.DIO.OUT_STATE 0 8 = p0.toNat ∧ rf u .dio 0 Reg.DIO.OUT_STATE 8 8 = p1.toNat ∧
        rf u .dio 0 Reg.DIO.LPLUS 0 10 = l0 % 1024 ∧ rf u .dio 0 Reg.DIO.LPLUS 16 10 = l1 % 1024 ∧
        (∀ i : Fin 32, rf u .dio 0 (Reg.DIO.IN_VOLT + i.val / 4 * 4) (8 * (i.val % 4)) 8 = (if i.val < 16 then v0 else v1).getD (i.val % 16) 0 % 256) ∧
        (∀ o : Fin 16, rf u .dio 0 (Reg.DIO.OUT_CUR + o.val / 2 * 4) (16 * (o.val % 2)) 16 = (if o.val < 8 then c0 else c1).getD (o.val % 8) 0 % 65536) ∧
        (∀ o : Fin 16, rb u .dio 0 Reg.DIO.DIAG_OL_SH o.val = (rb s .dio 0 Reg.DIO.DIAG_OL_SH o.val && (if o.val < 8 then ol0 else ol1).getLsbD (o.val % 8)) ∧
          rb u .dio 0 Reg.DIO.DIAG_OL_SH (16 + o.val) = (rb s .dio 0 Reg.DIO.DIAG_OL_SH (16 + o.val) && (if o.val < 8 then sh0 else sh1).getLsbD (o.val % 8))) ∧
        u.dio.off = (if s.dio.clear then 0 else s.dio.off) ∧ u.dio.clear = false ∧
        u.dio.die0.cmd = (rg u .dio 0 Reg.DIO.OUT_CMD).extractLsb' 0 8 ∧ u.dio.die1.cmd = (rg u .dio 0 Reg.DIO.OUT_CMD).extractLsb' 8 8 ∧
        u.dio.die0.safe = (rg s .dio 0 Reg.DIO.SAFE_VAL).extractLsb' 0 8 ∧ u.dio.die1.safe = (rg s .dio 0 Reg.DIO.SAFE_VAL).extractLsb' 8 8 ∧
        u.dio.die0.frame = (s.at t).lap t ∧ u.dio.die0.safeT = rf s .dio 0 Reg.DIO.SAFE_T 0 16 ∧ u.dio.die0.miss = 0 ∧
        OtherRegs s u .dio 0 ([Reg.DIO.STAT, Reg.DIO.IN_STATE, Reg.DIO.OUT_CMD, Reg.DIO.OUT_STATE, Reg.DIO.DIAG_OL_SH, Reg.DIO.LPLUS] ++
          (List.range 8).map (fun i => Reg.DIO.IN_VOLT + 4 * i) ++ (List.range 8).map (fun i => Reg.DIO.OUT_CUR + 4 * i)) ∧
        OtherPages s u (pk .dio 0) ∧ OnlyPages { s with dio := u.dio, now := max s.now t } u)) ∧
  (∀ (s : State) (t : Nat), refreshAt (s.at t) t = true → dioLegacy s = false → PageIdle s (pk .dio 0) → s.holds = [] → stOf s .dio 0 ≠ .off →
      s.dio.power = true → (rb s .dio 0 Reg.DIO.STAT 0 = true → s.dio.die0.miss < 2) → (rb s .dio 0 Reg.DIO.STAT 1 = true → s.dio.die1.miss < 2) →
      Gives (.fieldRefresh t .bad .silent) s (fun u => u.dio.die0.miss = s.dio.die0.miss + 1 ∧ u.dio.die1.miss = s.dio.die1.miss + 1 ∧
        u.dio.die0.cmd = (rg u .dio 0 Reg.DIO.OUT_CMD).extractLsb' 0 8 ∧ u.dio.die0.frame = (s.at t).lap t ∧ u.dio.die1.cmd = s.dio.die1.cmd ∧ u.dio.die1.frame = s.dio.die1.frame ∧ stOf u .dio 0 = stOf s .dio 0 ∧
        rg u .dio 0 Reg.DIO.FRAME_ERR = (if rg s .dio 0 Reg.DIO.FRAME_ERR = 0xFFFFFFFF then 0xFFFFFFFF else rg s .dio 0 Reg.DIO.FRAME_ERR + 1) ∧
        bit (u.page (pk .dio 0)).intRaw 6 = true ∧ OtherRegs s u .dio 0 [Reg.DIO.OUT_CMD, Reg.DIO.FRAME_ERR] ∧
        OtherPages s u (pk .dio 0) ∧ OnlyPages { s with dio := u.dio, now := max s.now t } u)) ∧
  (∀ (s : State) (t : Nat) (p0 p1 ol0 ol1 sh0 sh1 : BitVec 8) (l0 l1 : Nat) (v0 v1 c0 c1 : List Nat), refreshAt (s.at t) t = true → dioLegacy s = false →
      PageIdle s (pk .dio 0) → s.dio.power = true → s.dio.die1.overdue ((s.at t).lap t) = false →
      s.dio.die0.held = true → s.dio.release = false → rb s .dio 0 Reg.DIO.STAT 4 = false → s.dio.die1.held = false →
      s.sigs = [] → s.dio.rb = [] → inSt s .dio 0 [.off, .idle, .run] = true → RaiseLogs s 0x21 .dio 0 0 →
      Gives (.fieldRefresh t (.good p0 ol0 sh0 l0 v0 c0) (.good p1 ol1 sh1 l1 v1 c1)) s (fun u =>
        stOf u .dio 0 = .safe ∧ rf u .dio 0 Reg.DIO.STAT 8 3 = 3 ∧ rf u .dio 0 Reg.DIO.STAT 4 2 = 1 ∧ bit (u.page (pk .dio 0)).intRaw 4 = true ∧
        rg u .dio 0 Reg.DIO.SILENT_CNT = (if rg s .dio 0 Reg.DIO.SILENT_CNT = 0xFFFFFFFF then 0xFFFFFFFF else rg s .dio 0 Reg.DIO.SILENT_CNT + 1) ∧
        u.dio.die0.held = true ∧ Logged u 0x21 .dio 0 0 ∧ (∀ k, k ≠ pk .dio 0 → k ≠ pk .flt 0 → u.page k = s.page k) ∧
        OnlyPages { s with dio := u.dio, holds := u.holds, flog := u.flog, now := max s.now t } u)) ∧
  (∀ (s : State) (t id k : Nat) (e : SigEntry) (p0 p1 ol0 ol1 sh0 sh1 : BitVec 8) (l0 l1 : Nat) (v0 v1 c0 c1 : List Nat),
      refreshAt (s.at t) t = true → dioLegacy s = false → PageIdle s (pk .dio 0) → s.dio.power = true → s.dio.die0.overdue ((s.at t).lap t) = false → s.dio.die1.overdue ((s.at t).lap t) = false →
      s.dio.die0.held = false → s.dio.die1.held = false → s.dio.rb = [] →
      s.holds = [] → s.sigs = [(id, e)] → id ≠ 0 → e.en = true → sigRun s = true → e.from .dio 0 = true → e.upd = UpdEv.frame.num → e.typ = 3 →
      e.word = Reg.DIO.IN_STATE / 4 → e.lsb = k → k < 32 →
      Gives (.fieldRefresh t (.good p0 ol0 sh0 l0 v0 c0) (.good p1 ol1 sh1 l1 v1 c1)) s (fun u =>
        (rb s .dio 0 Reg.DIO.IN_WB k = false → (slotOf u id).raw = BitVec.ofNat 64 (b2n (s.dio.acc.getLsbD k != rb s .dio 0 (Reg.DIO.IN_CFG + 4 * k) 3)) ∧
          (slotOf u id).ts = devTime t ∧ (slotOf u id).pubCnt = (slotOf s id).pubCnt + 1) ∧
        (rb s .dio 0 Reg.DIO.IN_WB k = true → slotOf u id = slotOf s id) ∧
        OnlyPublished { s with dio := u.dio, now := max s.now t } u [pk .dio 0])) ∧
  (∀ (s : State) (d : Fin 2) (t id : Nat) (e : SigEntry), dioOn s = true → dioLegacy s = false → s.sigs = [(id, e)] → e.en = true → e.from .dio 0 = true →
      e.word = Reg.DIO.IN_STATE / 4 → e.lsb / 16 = d.val → RaiseLogs s 0x21 .dio 0 0 →
      ((rb s .dio 0 Reg.DIO.STAT d.val = true ∧ 3 ≤ (s.dio.die d.val).miss) ∨
        (rb s .dio 0 Reg.DIO.STAT d.val = false ∧ stOf s .dio 0 = .off ∧ s.dio.enAt + 160000000 ≤ (s.at t).lap t)) →
      Gives (.dieLost d t) s (fun u => stOf u .dio 0 = .fault ∧ rf u .dio 0 Reg.DIO.STAT 8 3 = 4 ∧ rb u .dio 0 Reg.DIO.STAT d.val = false ∧
        bit (u.page (pk .dio 0)).intRaw 5 = true ∧ (slotOf u id).safe = true ∧ Logged u 0x21 .dio 0 0 ∧ OtherRegs s u .dio 0 [Reg.DIO.STAT] ∧
        OnlyPublished { s with holds := u.holds, flog := u.flog, now := max s.now t } u [pk .dio 0, pk .flt 0])) ∧
  (∀ (s : State) (i : Fin 32) (level : Bool), dioOn s = true → s.dio.power = true →
      Gives (.dioInputAccept i level) s (fun u => (∀ k : Fin 32, u.dio.acc.getLsbD k.val = if k = i then level else s.dio.acc.getLsbD k.val) ∧
        u = { s with dio := { s.dio with acc := u.dio.acc } })) ∧
  (∀ (s : State) (i : Fin 32) (id : Nat) (e : SigEntry), dieReports s = true → rb s .dio 0 (Reg.DIO.IN_CFG + 4 * i.val) 2 = true →
      rb s .dio 0 Reg.DIO.IN_WB i.val = false → s.sigs = [(id, e)] → e.en = true → e.from .dio 0 = true → e.word = Reg.DIO.IN_STATE / 4 →
      RaiseLogs s 0x21 .dio 0 0 →
      Gives (.wireBreak i) s (fun u => rg u .dio 0 Reg.DIO.IN_WB = rg s .dio 0 Reg.DIO.IN_WB ||| (1#32 <<< i.val) ∧
        bit (u.page (pk .dio 0)).intRaw 0 = true ∧ (e.lsb = i.val → (slotOf u id).safe = true) ∧ (e.lsb ≠ i.val → slotOf u id = slotOf s id) ∧
        Logged u 0x21 .dio 0 0 ∧ (∃ h ∈ u.holds, h.src = 0x21) ∧ OtherRegs s u .dio 0 [Reg.DIO.IN_WB] ∧
        OnlyPublished { s with holds := u.holds, flog := u.flog } u [pk .dio 0, pk .flt 0])) ∧
  (∀ (s : State) (i : Fin 32), dieReports s = true → rb s .dio 0 Reg.DIO.IN_WB i.val = true →
      Gives (.wireBreakClear i) s (fun u => rg u .dio 0 Reg.DIO.IN_WB = rg s .dio 0 Reg.DIO.IN_WB &&& ~~~(1#32 <<< i.val) ∧
        bit (u.page (pk .dio 0)).intRaw 1 = true ∧
        (rg s .dio 0 Reg.DIO.IN_WB ≠ 1#32 <<< i.val → u.holds = s.holds ∧ u.flog = s.flog) ∧
        (rg s .dio 0 Reg.DIO.IN_WB = 1#32 <<< i.val → rg s .dio 0 Reg.DIO.DIAG_OC_OT = 0 → rg s .dio 0 Reg.DIO.DIAG_OL_SH = 0 →
          rg s .dio 0 Reg.DIO.DIAG_RB = 0 → rf s .dio 0 Reg.DIO.STAT 2 4 = 0 → stOf s .dio 0 ≠ .fault →
          ∀ h ∈ u.holds, ¬(h.src = 0x21 ∧ h.pgType = PgTy.dio.code ∧ h.inst = 0 ∧ h.sub = 0)) ∧
        OtherRegs s u .dio 0 [Reg.DIO.IN_WB] ∧ (∀ k, k ≠ pk .dio 0 → k ≠ pk .flt 0 → u.page k = s.page k) ∧
        OnlyPages { s with holds := u.holds, flog := u.flog } u)) ∧
  (∀ (s : State) (o : Fin 16) (kind : Fin 4) (p r b : Nat), dieReports s = true → RaiseLogs s 0x21 .dio 0 0 →
      p = rf s .dio 0 Reg.DIO.PAR (2 * (o.val / 4)) 2 → r = (if kind.val < 2 then Reg.DIO.DIAG_OC_OT else Reg.DIO.DIAG_OL_SH) →
      (kind.val = 2 → rb s .dio 0 Reg.DIO.OUT_CMD o.val = true) → (kind.val = 3 → rb s .dio 0 Reg.DIO.OUT_CMD o.val = false) →
      b = (if kind.val % 2 = 0 then o.val else 16 + o.val) →
      Gives (.outputDiagnostic o kind) s (fun u => rg u .dio 0 r = rg s .dio 0 r ||| (1#32 <<< b) ∧ bit (u.page (pk .dio 0)).intRaw 2 = true ∧
        (∀ q : Fin 16, u.dio.off.getLsbD q.val = (s.dio.off.getLsbD q.val ||
          decide (kind.val < 2 ∧ ((p = 1 ∧ q.val / 2 = o.val / 2) ∨ (p = 2 ∧ q.val / 4 = o.val / 4) ∨ q = o)))) ∧
        Logged u 0x21 .dio 0 0 ∧ (∃ h ∈ u.holds, h.src = 0x21) ∧ OtherRegs s u .dio 0 [r] ∧
        (∀ k, k ≠ pk .dio 0 → k ≠ pk .flt 0 → u.page k = s.page k) ∧
        OnlyPages { s with dio := { s.dio with off := u.dio.off }, holds := u.holds, flog := u.flog } u)) ∧
  (∀ (s : State) (o : Fin 16) (p : Nat), dieReports s = true → rb s .dio 0 Reg.DIO.CFG 24 = true → rb s .dio 0 Reg.DIO.DIAG_OC_OT o.val = true →
      rb s .dio 0 Reg.DIO.OUT_CMD o.val = true → p = rf s .dio 0 Reg.DIO.PAR (2 * (o.val / 4)) 2 →
      Gives (.ocRetry o true) s (fun u => rg u .dio 0 Reg.DIO.DIAG_OC_OT = rg s .dio 0 Reg.DIO.DIAG_OC_OT &&& ~~~(1#32 <<< o.val) ∧
        (∀ q : Fin 16, u.dio.off.getLsbD q.val = (s.dio.off.getLsbD q.val &&
          !decide (((p = 1 ∧ q.val / 2 = o.val / 2) ∨ (p = 2 ∧ q.val / 4 = o.val / 4) ∨ q = o) ∧
            ∀ x : Fin 16, (p = 1 ∧ x.val / 2 = o.val / 2) ∨ (p = 2 ∧ x.val / 4 = o.val / 4) ∨ x = o →
              rb u .dio 0 Reg.DIO.DIAG_OC_OT x.val = false ∧ rb u .dio 0 Reg.DIO.DIAG_OC_OT (16 + x.val) = false))) ∧
        OtherRegs s u .dio 0 [Reg.DIO.DIAG_OC_OT] ∧ (∀ k, k ≠ pk .dio 0 → k ≠ pk .flt 0 → u.page k = s.page k) ∧
        OnlyPages { s with dio := { s.dio with off := u.dio.off }, holds := u.holds, flog := u.flog } u)) ∧
  (∀ (s : State) (o : Fin 16) (p : Nat), dieReports s = true → rb s .dio 0 Reg.DIO.CFG 24 = true → rb s .dio 0 Reg.DIO.DIAG_OC_OT (16 + o.val) = true →
      p = rf s .dio 0 Reg.DIO.PAR (2 * (o.val / 4)) 2 →
      Gives (.overTemperatureRecovery o) s (fun u => rg u .dio 0 Reg.DIO.DIAG_OC_OT = rg s .dio 0 Reg.DIO.DIAG_OC_OT &&& ~~~(1#32 <<< (16 + o.val)) ∧
        (∀ q : Fin 16, u.dio.off.getLsbD q.val = (s.dio.off.getLsbD q.val &&
          !decide (((p = 1 ∧ q.val / 2 = o.val / 2) ∨ (p = 2 ∧ q.val / 4 = o.val / 4) ∨ q = o) ∧
            ∀ x : Fin 16, (p = 1 ∧ x.val / 2 = o.val / 2) ∨ (p = 2 ∧ x.val / 4 = o.val / 4) ∨ x = o →
              rb u .dio 0 Reg.DIO.DIAG_OC_OT x.val = false ∧ rb u .dio 0 Reg.DIO.DIAG_OC_OT (16 + x.val) = false))) ∧
        OtherRegs s u .dio 0 [Reg.DIO.DIAG_OC_OT] ∧ (∀ k, k ≠ pk .dio 0 → k ≠ pk .flt 0 → u.page k = s.page k) ∧
        OnlyPages { s with dio := { s.dio with off := u.dio.off }, holds := u.holds, flog := u.flog } u)) ∧
  (∀ (s : State) (chk : BitVec 16), ActsNow s .dio 0 0x10 .ap0 chk →
      Gives (.clearDiag chk) s (fun u => rg u .dio 0 Reg.DIO.DIAG_OC_OT = 0 ∧ rg u .dio 0 Reg.DIO.DIAG_RB = 0 ∧ u.dio = { s.dio with clear := true, rb := [] } ∧
        CmdDone u (pk .dio 0) (cmdWord chk 0x10) ∧ OtherRegs s u .dio 0 [Reg.DIO.DIAG_OC_OT, Reg.DIO.DIAG_RB] ∧
        (∀ k, k ≠ pk .dio 0 → k ≠ pk .flt 0 → u.page k = s.page k) ∧ OnlyPages { s with dio := u.dio, holds := u.holds, flog := u.flog } u)) ∧
  (∀ (s : State) (d : Fin 2) (t : Nat), s.dio.power = true → (s.dio.die d.val).frame + 8000000 * (s.dio.die d.val).safeT ≤ (s.at t).lap t →
      Gives (.fieldSilence d t) s (fun u => u.dio.die d.val = { s.dio.die d.val with held := true } ∧ (∀ i : Fin 2, i ≠ d → u.dio.die i.val = s.dio.die i.val) ∧
        (rb s .dio 0 Reg.DIO.STAT (2 + d.val) = false → dieDrive u d.val = (s.dio.die d.val).safe &&& ~~~(s.dio.off.extractLsb' (8 * d.val) 8)) ∧
        u.pages = s.pages ∧ OnlyPages { s with dio := u.dio, now := max s.now t } u)) ∧
  (∀ (s : State) (d : Fin 2), dieReports s = true → rb s .dio 0 Reg.DIO.STAT (2 + d.val) = false → RaiseLogs s 0x21 .dio 0 0 →
      Gives (.lplusLow d) s (fun u => rg u .dio 0 Reg.DIO.STAT = rg s .dio 0 Reg.DIO.STAT ||| (1#32 <<< (2 + d.val)) ∧
        bit (u.page (pk .dio 0)).intRaw 3 = true ∧ dieDrive u d.val = 0 ∧ Logged u 0x21 .dio 0 0 ∧ OtherRegs s u .dio 0 [Reg.DIO.STAT] ∧
        (∀ k, k ≠ pk .dio 0 → k ≠ pk .flt 0 → u.page k = s.page k) ∧ OnlyPages { s with holds := u.holds, flog := u.flog } u)) ∧
  (∀ (s : State) (d : Fin 2), dieReports s = true → rb s .dio 0 Reg.DIO.STAT (2 + d.val) = true →
      Gives (.lplusRestore d) s (fun u => rg u .dio 0 Reg.DIO.STAT = rg s .dio 0 Reg.DIO.STAT &&& ~~~(1#32 <<< (2 + d.val)) ∧
        ((s.dio.die d.val).held = false → s.dio.off = 0 → dieDrive u d.val = (s.dio.die d.val).cmd) ∧ OtherRegs s u .dio 0 [Reg.DIO.STAT] ∧
        (∀ k, k ≠ pk .dio 0 → k ≠ pk .flt 0 → u.page k = s.page k) ∧ OnlyPages { s with holds := u.holds, flog := u.flog } u)) ∧
  (∀ (s : State), Gives .visoInLoss s (fun u => u.dio.power = false ∧ u.dio.drive = s.dio.drive ∧ (∀ d : Fin 2, dieDrive u d.val = 0) ∧
      u = { s with dio := u.dio }))

/-- Life cycle, keys, debug access and tamper (R491 to R506). LC_ADVANCE burns its target, which applies at the next power-on reset; RETURN first erases the keys; a
token not of this part or without a good root is refused. Keys load from KEY_DATA in OPEN and erase singly or all; MIN_VER only rises; roots
burn and are revoked but for the last. A failed UNLOCK consumes the challenge and locks NEW_CHALLENGE out. Tamper alarms log, erase and reset
by their level; scan instructions decode by state. -/
def Obligations.security : Prop :=
  (∀ (s : State) (m : Master) (chk : BitVec 16) (a b : Nat), ActsNow s .sec 0 0x10 m chk → a = lifeCycle s → b = rf s .sec 0 Reg.SEC.TRANSITION 0 3 →
      (a = 2 ∧ b = 3) ∨ (b = 5 ∧ a ≠ 3) →
      Gives (.lcAdvance m chk) s (fun u => u.otp = { s.otp with lc := b } ∧ lifeCycle u = a ∧ rf u .sec 0 Reg.SEC.STAT 4 3 = b ∧
        (u.page (pk .sec 0)).prog = progWord 1 15 10000 ∧ (u.page (pk .sec 0)).busy = false ∧ bit (u.page (pk .sec 0)).intRaw 0 = true ∧
        CmdDone u (pk .sec 0) (cmdWord chk 0x10) ∧ OtherRegs s u .sec 0 [Reg.SEC.STAT] ∧ OtherPages s u (pk .sec 0) ∧
        OnlyPages { s with otp := u.otp } u)) ∧
  (∀ (s : State) (m : Master) (chk : BitVec 16), ActsNow s .sec 0 0x10 m chk → lifeCycle s = 2 → rf s .sec 0 Reg.SEC.TRANSITION 0 3 = 4 →
      s.otp.roots = [] → rg s .sec 0 Reg.SEC.TOKEN = 0x52544E01 →
      (∀ i : Fin 4, rg s .sec 0 (Reg.SEC.TOKEN + 4 + 4 * i.val) = rg s .sec 0 (Reg.SEC.ID + 4 * i.val)) →
      Gives (.lcAdvance m chk) s (fun u => u.otp = { s.otp with lc := 4, revoked := 0xF, dbgKey := [] } ∧ u.keys = [] ∧ rg u .sec 0 Reg.SEC.KEY_STAT = 0 ∧
        rf u .sec 0 Reg.SEC.ROOT_STAT 8 4 = 15 ∧ rb u .sec 0 Reg.SEC.ROOT_STAT 16 = false ∧ lifeCycle u = 2 ∧ rf u .sec 0 Reg.SEC.STAT 4 3 = 4 ∧
        (u.page (pk .sec 0)).prog = progWord 1 15 10000 ∧ bit (u.page (pk .sec 0)).intRaw 0 = true ∧ OtherPages s u (pk .sec 0) ∧
        OnlyPages { s with otp := u.otp, keys := [] } u)) ∧
  (∀ (s : State) (m : Master) (chk : BitVec 16) (b : Nat), ActsNow s .sec 0 0x10 m chk → b = rf s .sec 0 Reg.SEC.TRANSITION 0 3 →
      b = 4 ∨ (b = 5 ∧ lifeCycle s = 3) →
      (∃ i : Fin 4, rg s .sec 0 (Reg.SEC.TOKEN + 4 + 4 * i.val) ≠ rg s .sec 0 (Reg.SEC.ID + 4 * i.val)) ∨ rg s .sec 0 Reg.SEC.TOKEN ≠ 0x52544E01 ∨
        (lifeCycle s = 3 ∧ ∀ e ∈ s.otp.roots, s.otp.revoked.getLsbD e.1 = true) →
      Gives (.lcAdvance m chk) s (fun u => (u.page (pk .sec 0)).err = errWord .crcMismatch 0x01C 4 ∧ fld (u.page (pk .sec 0)).prog 24 4 = 14 ∧
        u.otp = s.otp ∧ u.keys = s.keys ∧ OtherRegs s u .sec 0 [] ∧ OtherPages s u (pk .sec 0) ∧ OnlyPages { s with seed := u.seed } u)) ∧
  (∀ (s : State) (m : Master) (chk : BitVec 16) (k : Nat), ActsNow s .sec 0 0x11 m chk → lifeCycle s = 2 → k = rf s .sec 0 Reg.SEC.KEY_IDX 0 4 →
      Gives (.keyLoad m chk) s (fun u => SMap.get (fun _ => KeySlot.reset) u.keys k = ⟨rf s .sec 0 Reg.SEC.KEY_ATTR 0 2, rb s .sec 0 Reg.SEC.KEY_ATTR 4,
          (List.range 8).flatMap (fun i => wordBytes (rg s .sec 0 (Reg.SEC.KEY_DATA + 4 * i)))⟩ ∧
        (∀ i : Fin 16, i.val ≠ k → SMap.get (fun _ => KeySlot.reset) u.keys i.val = SMap.get (fun _ => KeySlot.reset) s.keys i.val) ∧
        (s.keys = [] → rg u .sec 0 Reg.SEC.KEY_STAT = ofN (2 ^ k + (if rb s .sec 0 Reg.SEC.KEY_ATTR 4 then 2 ^ (16 + k) else 0))) ∧
        bit (u.page (pk .sec 0)).intRaw 1 = true ∧ CmdDone u (pk .sec 0) (cmdWord chk 0x11) ∧ OtherRegs s u .sec 0 [Reg.SEC.KEY_STAT] ∧
        OtherPages s u (pk .sec 0) ∧ OnlyPages { s with keys := u.keys } u)) ∧
  (∀ (s : State) (m : Master) (chk : BitVec 16) (k : Nat), ActsNow s .sec 0 0x12 m chk → k = rf s .sec 0 Reg.SEC.KEY_IDX 0 4 →
      Gives (.keyErase m chk) s (fun u => SMap.get (fun _ => KeySlot.reset) u.keys k = KeySlot.reset ∧
        (∀ i : Fin 16, i.val ≠ k → SMap.get (fun _ => KeySlot.reset) u.keys i.val = SMap.get (fun _ => KeySlot.reset) s.keys i.val) ∧
        (u.page (pk .sec 0)).prog = progWord 1 15 10000 ∧ bit (u.page (pk .sec 0)).intRaw 1 = true ∧ CmdDone u (pk .sec 0) (cmdWord chk 0x12) ∧
        OtherRegs s u .sec 0 [Reg.SEC.KEY_STAT] ∧ OtherPages s u (pk .sec 0) ∧ OnlyPages { s with keys := u.keys } u)) ∧
  (∀ (s : State) (m : Master) (chk : BitVec 16), ActsNow s .sec 0 0x13 m chk →
      Gives (.keyEraseAll m chk) s (fun u => u.keys = [] ∧ rg u .sec 0 Reg.SEC.KEY_STAT = 0 ∧ (u.page (pk .sec 0)).prog = progWord 1 15 10000 ∧
        bit (u.page (pk .sec 0)).intRaw 1 = true ∧ CmdDone u (pk .sec 0) (cmdWord chk 0x13) ∧
        OtherRegs s u .sec 0 [Reg.SEC.KEY_STAT] ∧ OtherPages s u (pk .sec 0) ∧ OnlyPages { s with keys := [] } u)) ∧
  (∀ (s : State) (m : Master) (chk : BitVec 16) (k v : Nat), ActsNow s .sec 0 0x14 m chk → k = rf s .sec 0 Reg.SEC.KIND_SEL 0 8 →
      v = max (SMap.get (fun _ => 0) s.otp.minVer k) (SMap.get (fun _ => 0) s.runVer k) →
      Gives (.rollbackSet m chk) s (fun u => u.otp = { s.otp with minVer := u.otp.minVer } ∧ SMap.get (fun _ => 0) u.otp.minVer k = v ∧
        (∀ i : Fin 8, i.val ≠ k → SMap.get (fun _ => 0) u.otp.minVer i.val = SMap.get (fun _ => 0) s.otp.minVer i.val) ∧
        rg u .sec 0 (Reg.SEC.MIN_VER - 4 + 4 * k) = ofN v ∧ CmdDone u (pk .sec 0) (cmdWord chk 0x14) ∧
        OtherRegs s u .sec 0 (Reg.SEC.ROOT_STAT :: (List.range 7).map (fun i => Reg.SEC.MIN_VER + 4 * i)) ∧ OtherPages s u (pk .sec 0) ∧
        OnlyPages { s with otp := u.otp } u)) ∧
  (∀ (s : State) (m : Master) (chk : BitVec 16) (i : Fin 4), rf s .sec 0 Reg.SEC.PROV_SEL 0 3 = i.val →
      (ActsNow s .sec 0 0x15 m chk → Gives (.rootRevoke m chk) s (fun u => u.otp = { s.otp with revoked := s.otp.revoked ||| (1#4 <<< i.val) } ∧
        rf u .sec 0 Reg.SEC.ROOT_STAT 8 4 = u.otp.revoked.toNat ∧ CmdDone u (pk .sec 0) (cmdWord chk 0x15) ∧
        OtherRegs s u .sec 0 (Reg.SEC.ROOT_STAT :: (List.range 7).map (fun i => Reg.SEC.MIN_VER + 4 * i)) ∧ OtherPages s u (pk .sec 0) ∧
        OnlyPages { s with otp := u.otp } u)) ∧
      (answers s ⟨.sec, 0⟩ = true → (s.page (pk .sec 0)).key ≠ .window → chk = 0xFFEA → (s.page (pk .sec 0)).locked = false → (s.page (pk .sec 0)).cmd = none →
        (s.page (pk .sec 0)).busy = false → rootProv s.otp i.val = true → s.otp.revoked.getLsbD i.val = false →
        (∀ j : Fin 4, j ≠ i → rootProv s.otp j.val = false ∨ s.otp.revoked.getLsbD j.val = true) →
        Gives (.rootRevoke m chk) s (fun u => (u.page (pk .sec 0)).err = errWord .wrongState 0x010 2 ∧ u.otp = s.otp ∧ OtherRegs s u .sec 0 [] ∧
          OtherPages s u (pk .sec 0) ∧ OnlyPages s u))) ∧
  (∀ (s : State) (m : Master) (chk : BitVec 16) (k : List Nat) (l : Word), ActsNow s .sec 0 0x16 m chk →
      k = (SMap.get (fun _ => KeySlot.reset) s.keys (rf s .sec 0 Reg.SEC.KEY_IDX 0 4)).value → l = rg s .sec 0 Reg.SEC.DERIVE_LABEL →
      Gives (.secDerive m chk) s (fun u => (∀ j : Fin 8, wordBytes (rg u .sec 0 (Reg.SEC.DERIVED + 4 * j.val)) =
          (List.range 4).map (fun i => (Config.hkdf k l).getD (4 * j.val + i) 0 % 256)) ∧
        CmdDone u (pk .sec 0) (cmdWord chk 0x16) ∧ OtherRegs s u .sec 0 ((List.range 8).map (fun j => Reg.SEC.DERIVED + 4 * j)) ∧
        OtherPages s u (pk .sec 0) ∧ OnlyPages s u)) ∧
  (∀ (s : State) (m : Master) (chk : BitVec 16) (i : Nat) (h : List Nat), ActsNow s .sec 0 0x17 m chk → i = rf s .sec 0 Reg.SEC.PROV_SEL 0 3 →
      h = (List.range 12).flatMap (fun j => wordBytes (rg s .sec 0 (Reg.SEC.TOKEN + 4 * j))) →
      Gives (.secProvision m chk) s (fun u =>
        (i < 4 → SMap.get (fun _ => []) s.otp.roots i = [] → u.otp = { s.otp with roots := u.otp.roots } ∧ SMap.get (fun _ => []) u.otp.roots i = h ∧
          rb u .sec 0 Reg.SEC.ROOT_STAT i = true) ∧
        (i = 4 → s.otp.dbgKey = [] → u.otp = { s.otp with dbgKey := h } ∧ rb u .sec 0 Reg.SEC.ROOT_STAT 16 = true) ∧
        (∀ j : Fin 4, j.val ≠ i → SMap.get (fun _ => []) u.otp.roots j.val = SMap.get (fun _ => []) s.otp.roots j.val) ∧
        CmdDone u (pk .sec 0) (cmdWord chk 0x17) ∧
        OtherRegs s u .sec 0 (Reg.SEC.ROOT_STAT :: (List.range 7).map (fun i => Reg.SEC.MIN_VER + 4 * i)) ∧ OtherPages s u (pk .sec 0) ∧
        OnlyPages { s with otp := u.otp, seed := u.seed } u)) ∧
  (∀ (s : State) (m : Master) (chk : BitVec 16), ActsNow s .dbg 0 0x10 m chk →
      Gives (.newChallenge m chk) s (fun u => (∀ i : Fin 8, rg u .dbg 0 (Reg.DBG.CHALLENGE + 4 * i.val) = Config.free32 (s.seed + i.val)) ∧
        u.seed = s.seed + 8 ∧ CmdDone u (pk .dbg 0) (cmdWord chk 0x10) ∧
        OtherRegs s u .dbg 0 ((List.range 8).map (fun i => Reg.DBG.CHALLENGE + 4 * i)) ∧ OtherPages s u (pk .dbg 0) ∧
        OnlyPages { s with seed := u.seed } u)) ∧
  (∀ (s : State) (m : Master) (chk : BitVec 16) (n : Nat), answers s ⟨.dbg, 0⟩ = true → (s.page (pk .dbg 0)).key ≠ .window → chk = 0xFFEF →
      (s.page (pk .dbg 0)).locked = false → (s.page (pk .dbg 0)).cmd = none → n = rf s .dbg 0 Reg.DBG.STAT 16 8 → n ≠ 0 →
      s.lap s.now < s.failAt + 8000000000 * min 1024 (2 ^ (n - 1)) →
      Gives (.newChallenge m chk) s (fun u => (u.page (pk .dbg 0)).err = errWord .wrongState 0x010 2 ∧ OtherRegs s u .dbg 0 [] ∧
        OtherPages s u (pk .dbg 0) ∧ OnlyPages s u)) ∧
  (∀ (s : State) (m : Master) (chk : BitVec 16), ActsNow s .dbg 0 0x11 m chk →
      Gives (.dbgUnlock m chk) s (fun u => (∀ i : Fin 8, rg u .dbg 0 (Reg.DBG.CHALLENGE + 4 * i.val) = 0) ∧
        (unlockOk s = true → rf u .dbg 0 Reg.DBG.STAT 0 6 = rf s .dbg 0 Reg.DBG.REQ 0 6 ∧ rb u .dbg 0 Reg.DBG.STAT 8 = true ∧
          rb u .dbg 0 Reg.DBG.STAT 9 = decide (lifeCycle s = 4) ∧ bit (u.page (pk .dbg 0)).intRaw 0 = true ∧ u.failAt = s.failAt) ∧
        (unlockOk s = false → rf u .dbg 0 Reg.DBG.STAT 0 16 = rf s .dbg 0 Reg.DBG.STAT 0 16 ∧
          rf u .dbg 0 Reg.DBG.STAT 16 8 = min 255 (rf s .dbg 0 Reg.DBG.STAT 16 8 + 1) ∧ u.failAt = s.lap s.now ∧
          bit (u.page (pk .dbg 0)).intRaw 1 = true ∧ (u.page (pk .dbg 0)).err = errWord .crcMismatch 0x010 2) ∧
        OtherRegs s u .dbg 0 (Reg.DBG.STAT :: (List.range 8).map (fun i => Reg.DBG.CHALLENGE + 4 * i)) ∧ OtherPages s u (pk .dbg 0) ∧
        OnlyPages { s with failAt := u.failAt } u)) ∧
  (∀ (s : State) (m : Master) (chk : BitVec 16), ActsNow s .dbg 0 0x12 m chk →
      Gives (.dbgLock m chk) s (fun u => rf u .dbg 0 Reg.DBG.STAT 0 6 = 0 ∧ rf u .dbg 0 Reg.DBG.STAT 8 2 = 0 ∧
        rf u .dbg 0 Reg.DBG.STAT 16 8 = rf s .dbg 0 Reg.DBG.STAT 16 8 ∧ CmdDone u (pk .dbg 0) (cmdWord chk 0x12) ∧
        OtherRegs s u .dbg 0 [Reg.DBG.STAT] ∧ OtherPages s u (pk .dbg 0) ∧ OnlyPages s u)) ∧
  (∀ (s : State) (i : Fin 5) (b : BootRes), RaiseLogs s 0x22 .tamp 0 0 → rf s .tamp 0 Reg.TAMP.CFG (2 * i.val) 2 = 1 →
      Gives (.tamperAlarm i false b) s (fun u =>
        u.tampLog = (if 16 ≤ s.tampLog.length then s.tampLog.drop 1 else s.tampLog) ++ [⟨i.val, 1, vbatTime s % 4294967296⟩] ∧
        rb u .tamp 0 Reg.TAMP.STAT i.val = true ∧ bit (u.page (pk .tamp 0)).intRaw i.val = true ∧ Logged u 0x22 .tamp 0 0 ∧ u.keys = s.keys ∧
        (∀ k, k ≠ pk .tamp 0 → k ≠ pk .flt 0 → u.page k = s.page k) ∧ OnlyPages { s with tampLog := u.tampLog, flog := u.flog } u)) ∧
  (∀ (s : State) (i : Fin 5) (b : BootRes), rf s .tamp 0 Reg.TAMP.CFG (2 * i.val) 2 = 3 → RaiseLogs s 0x22 .tamp 0 0 →
      Gives (.tamperAlarm i false b) s (fun u => u.keys = [] ∧ rg u .sec 0 Reg.SEC.KEY_STAT = 0 ∧ rb u .sys 0 Reg.SYS.RST_CAUSE 3 = true ∧
        rf u .dbg 0 Reg.DBG.STAT 0 6 = 0 ∧ rb u .dbg 0 Reg.DBG.STAT 8 = false ∧ bit (u.page (pk .tamp 0)).intRaw 5 = true ∧
        rg u .tamp 0 Reg.TAMP.ERASE_CNT = (if rg s .tamp 0 Reg.TAMP.ERASE_CNT = 0xFFFFFFFF then 0xFFFFFFFF else rg s .tamp 0 Reg.TAMP.ERASE_CNT + 1) ∧
        u.tampLog = (if 16 ≤ s.tampLog.length then s.tampLog.drop 1 else s.tampLog) ++ [⟨i.val, 3, vbatTime s % 4294967296⟩] ∧ u.otp = s.otp)) ∧
  (∀ (s : State) (i : Fin 5) (b : BootRes), rf s .tamp 0 Reg.TAMP.CFG (2 * i.val) 2 = 3 → 3 ≤ i.val →
      Gives (.tamperAlarm i true b) s (fun u => u.keys = [] ∧ rg u .sec 0 Reg.SEC.KEY_STAT = 0 ∧ u.tampLog.getLast? = some ⟨i.val, 3, vbatTime s % 4294967296⟩ ∧
        OtherRegs s u .tamp 0 [Reg.TAMP.ERASE_CNT] ∧ OtherRegs s u .sec 0 [Reg.SEC.KEY_STAT] ∧
        (∀ k, k ≠ pk .tamp 0 → k ≠ pk .sec 0 → u.page k = s.page k) ∧ OnlyPages { s with keys := [], tampLog := u.tampLog } u)) ∧
  (∀ (s : State) (i : Fin 5) (vbat : Bool) (b : BootRes), rf s .tamp 0 Reg.TAMP.CFG (2 * i.val) 2 = 0 ∨ (vbat = true ∧ i.val < 3) →
      Gives (.tamperAlarm i vbat b) s (fun u => u = s)) ∧
  (∀ (s : State) (i : JtagInstr) (b : BootRes), s.jtag ≠ .extest → s.jtag ≠ .clamp → s.jtag ≠ .intest →
      ((lifeCycle s = 1 ∨ lifeCycle s = 2) ∧ i ∈ [.extest, .clamp, .intest] → Gives (.jtagInstruction i b) s (fun u => u.jtag = i ∧ u.dom = 1 ∧
        rb u .sys 0 Reg.SYS.RST_CAUSE 5 = true ∧ u.keys = s.keys ∧ u.otp = s.otp ∧ u.padIn = s.padIn)) ∧
      ((lifeCycle s = 1 ∨ lifeCycle s = 2) ∧ i ∈ [.idcode, .bypass, .samplePreload, .other] → Gives (.jtagInstruction i b) s (fun u => u = { s with jtag := i })) ∧
      ((lifeCycle s = 5 ∨ ((lifeCycle s = 3 ∨ lifeCycle s = 4) ∧ (rb s .dbg 0 Reg.DBG.STAT 8 = false ∨ rb s .dbg 0 Reg.DBG.STAT 5 = false))) ∧
          i ∈ [.extest, .clamp, .intest, .other] → Gives (.jtagInstruction i b) s (fun u => u = { s with jtag := .bypass }))) ∧
  (∀ (s : State), Gives .vbatLow s (fun u => rb u .tamp 0 Reg.TAMP.STAT 8 = false ∧ bit (u.page (pk .tamp 0)).intRaw 6 = true ∧
      OtherRegs s u .tamp 0 [Reg.TAMP.STAT] ∧ OtherPages s u (pk .tamp 0) ∧ OnlyPages s u))

/-- Power domains, clocks, resets and pads (R495, R496, R508 to R519, R540). A domain that goes off leaves its pages at reset values and its signals safe, one that comes on
answers; the last ends the operation. A brown-out switches its domain off, clears its bit, takes a slave's upstream port with PD11 and raises PWR_BROWNOUT
until the rail recovers. Power-on and system resets clear and keep what Table 20-2 says and start up to STAGE: a firmware image that fails a test
holds the start in STAGE 5, a good one is the source in STAGE 6. References and PLLs show holdover and loss. STAGE and the interrupt
map are written; pads show levels, edges and what OUT drives. -/
def Obligations.power_resets_and_pads : Prop :=
  (∀ (s : State) (d : Fin 14) (l : List Nat) (ecc : List (Bool × Nat)), s.swOff = [] → s.swOn = d.val :: l → s.dom.getLsbD d.val = false →
      d.val ≠ 12 ∨ ecc = [] →
      Gives (.domainOnComplete d ecc) s (fun u => u.dom = s.dom ||| (1#14 <<< d.val) ∧ u.swOn = l ∧ rf u .pwr 0 Reg.PWR.STAT 0 14 = u.dom.toNat ∧
        rb u .pwr 0 Reg.PWR.STAT 16 = decide (l ≠ []) ∧
        (l = [] → (u.page (pk .pwr 0)).prog = progWord 1 15 10000 ∧ (u.page (pk .pwr 0)).busy = false ∧ bit (u.page (pk .pwr 0)).intRaw 0 = true) ∧
        (l ≠ [] → fld (u.page (pk .pwr 0)).prog 24 4 = 2) ∧ (d.val = 13 → u.dio = { s.dio with power := s.dio.drive }) ∧
        (d.val = 12 → u.trained = true ∧ rb u .mem 0 Reg.MEM.STAT 0 = true ∧ rb u .mem 1 Reg.MEM.STAT 0 = true) ∧
        (d.val ∉ [1, 7, 12, 13] → OtherRegs s u .pwr 0 [Reg.PWR.STAT] ∧ OtherPages s u (pk .pwr 0) ∧ OnlyPages { s with dom := u.dom, swOn := l } u))) ∧
  (∀ (s : State) (d : Fin 14) (l : List Nat) (id : Nat) (e : SigEntry), s.swOff = d.val :: l → d.val ≠ 0 → s.dom.getLsbD d.val = true → s.sigs = [(id, e)] →
      e.en = true → keyDomain (256 * e.pageType + e.inst) = d.val →
      Gives (.domainOffComplete d) s (fun u => u.dom = s.dom &&& ~~~(1#14 <<< d.val) ∧ u.swOff = l ∧ u.swOn = s.swOn ∧
        rf u .pwr 0 Reg.PWR.STAT 0 14 = u.dom.toNat ∧ (l = [] → bit (u.page (pk .pwr 0)).intRaw 1 = true) ∧
        (l = [] → s.swOn = [] → (u.page (pk .pwr 0)).prog = progWord 1 15 10000 ∧ (u.page (pk .pwr 0)).busy = false) ∧
        (l = [] → s.swOn ≠ [] → fld (u.page (pk .pwr 0)).prog 24 4 = 2) ∧ (d.val ≠ 7 → (slotOf u id).safe = true) ∧
        (∀ (ty : PgTy) (n : Fin 64), ty.domain n.val = d.val → ty ≠ .frc → u.page (pk ty n.val) = Page.reset (pk ty n.val)) ∧
        rg u .frc 0 Reg.FRC.SET_CNT = rg s .frc 0 Reg.FRC.SET_CNT ∧ u.frcKeep = s.frcKeep ∧ u.otp = s.otp ∧ u.keys = s.keys ∧
        (∀ (ty : PgTy) (n : Fin 64), ty.domain n.val ≠ d.val → ty ∉ [.pwr, .flt, .recStore, .dlk, .time] → (ty = .cslot → d.val ≠ 8) → u.page (pk ty n.val) = s.page (pk ty n.val)) ∧
        (∀ a : Nat, 0x800000000 ≤ a → mem8 u a = mem8 s a))) ∧
  (∀ (s : State) (d : Fin 14), d.val ≠ 0 → d.val ≠ 1 → s.dom.getLsbD d.val = true → s.sigs = [] → RaiseLogs s 0x23 .pwr 0 0 →
      Gives (.brownout d) s (fun u => u.dom = s.dom &&& ~~~(1#14 <<< d.val) ∧ rb u .pwr 0 Reg.PWR.BOR_STAT d.val = true ∧
        rb u .pwr 0 Reg.PWR.DOM_EN d.val = false ∧ bit (staged u .pwr 0 Reg.PWR.DOM_EN) d.val = false ∧ bit (u.page (pk .pwr 0)).intRaw 2 = true ∧
        rg u .pwr 0 Reg.PWR.BOR_CNT = (if rg s .pwr 0 Reg.PWR.BOR_CNT = 0xFFFFFFFF then 0xFFFFFFFF else rg s .pwr 0 Reg.PWR.BOR_CNT + 1) ∧
        d.val ∉ u.swOff ∧ d.val ∉ u.swOn ∧ Logged u 0x23 .pwr 0 0 ∧ (∃ h ∈ u.holds, h.src = 0x23 ∧ h.pgType = PgTy.pwr.code ∧ h.sub = 0) ∧
        (∀ (ty : PgTy) (n : Fin 64), ty.domain n.val = d.val → ty ≠ .frc → u.page (pk ty n.val) = Page.reset (pk ty n.val)) ∧
        (d.val = 11 → timeRole s = 2 → dlkUp s (timeUpPort s) = true → rb u .time 0 Reg.TIME.STAT 2 = false ∧ rb u .time 0 Reg.TIME.STAT 5 = true) ∧
        (∀ (ty : PgTy) (n : Fin 64), ty.domain n.val ≠ d.val → ty ∉ [.pwr, .flt] → (ty = .cslot → d.val ≠ 8) → (ty = .time → d.val ≠ 11) →
          u.page (pk ty n.val) = s.page (pk ty n.val)))) ∧
  (∀ (s : State) (d : Fin 14), rb s .pwr 0 Reg.PWR.BOR_STAT d.val = true →
      Gives (.brownoutRecovery d) s (fun u => rg u .pwr 0 Reg.PWR.BOR_STAT = rg s .pwr 0 Reg.PWR.BOR_STAT &&& ~~~(1#32 <<< d.val) ∧
        (rg s .pwr 0 Reg.PWR.BOR_STAT = 1#32 <<< d.val → ∀ h ∈ u.holds, ¬(h.src = 0x23 ∧ h.pgType = PgTy.pwr.code ∧ h.inst = 0 ∧ h.sub = 0)) ∧
        (rg s .pwr 0 Reg.PWR.BOR_STAT ≠ 1#32 <<< d.val → u.holds = s.holds ∧ u.flog = s.flog ∧ OtherPages s u (pk .pwr 0)) ∧ u.dom = s.dom ∧
        OtherRegs s u .pwr 0 [Reg.PWR.BOR_STAT] ∧ (∀ k, k ≠ pk .pwr 0 → k ≠ pk .flt 0 → u.page k = s.page k) ∧
        OnlyPages { s with holds := u.holds, flog := u.flog } u)) ∧
  (∀ (s : State) (b : BootRes) (r : BootEnd), r = bootFind (secShow (porAssert s) b.ksOk) b → r.cfg = none →
      Gives (.powerOnReset b) s (fun u => u.dom = (if r.fail.getLsbD 2 then 0x1803 else 0x1807) ∧
        rg u .sys 0 Reg.SYS.STAGE = (if r.fail.getLsbD 2 then 5 else 6) ∧ rg u .sys 0 Reg.SYS.RST_CAUSE = 1 ∧ lifeCycle u = otpState s.otp ∧
        rb u .sec 0 Reg.SEC.STAT 12 = !b.ksOk ∧ rb u .sec 0 Reg.SEC.STAT 19 = true ∧ rf u .sec 0 Reg.SEC.STAT 8 2 = r.src % 4 ∧
        u.part = ⟨12288, 3584, 512, false⟩ ∧ rf u .sys 0 Reg.SYS.BOOT_CFG 0 7 = 0x41 ∧ rf u .pwr 0 Reg.PWR.STAT 0 14 = u.dom.toNat ∧
        u.otp = s.otp ∧ u.keys = s.keys ∧ u.tampLog = s.tampLog ∧ u.vbatBase = vbatTime s ∧ u.now = 0 ∧ u.flog = [] ∧ u.mem = [] ∧ u.frcKeep = [] ∧
        rg u .tamp 0 Reg.TAMP.ERASE_CNT = rg s .tamp 0 Reg.TAMP.ERASE_CNT ∧ u.dio.power = false ∧ u.pending = s.pending)) ∧
  (∀ (s : State) (cause : Fin 6) (b : BootRes) (r : BootEnd), rf s .pwr 0 Reg.PWR.BOR_STAT 1 13 = 0 → s.jtag ∉ [.extest, .clamp, .intest] →
      r = bootFind (sysAssert s cause.val) b →
      Gives (.systemReset cause b) s (fun u => u.dom = (if r.fail.getLsbD 2 then 0x1803 else 0x1807) ∧
        rg u .sys 0 Reg.SYS.STAGE = (if r.fail.getLsbD 2 then 5 else 6) ∧
        rg u .sys 0 Reg.SYS.RST_CAUSE = rg s .sys 0 Reg.SYS.RST_CAUSE ||| (1#32 <<< cause.val) ∧
        u.now = 0 ∧ u.stepSum = 0 ∧ u.otp = s.otp ∧ u.keys = s.keys ∧ u.tampLog = s.tampLog ∧ u.part = s.part ∧ u.frcKeep = s.frcKeep ∧
        rg u .frc 0 Reg.FRC.SET_CNT = rg s .frc 0 Reg.FRC.SET_CNT ∧ u.flog = s.flog.map (fun e => { e with active := false }) ∧ u.holds = [] ∧
        u.sigs = [] ∧ u.slots = [] ∧ u.lcs = [] ∧ u.dio.drive = s.dio.drive ∧ u.dio.power = s.dio.power ∧ u.dio.off = 0 ∧
        rf u .dbg 0 Reg.DBG.STAT 0 6 = 0 ∧ rb u .dbg 0 Reg.DBG.STAT 8 = false ∧ rg u .dbg 0 Reg.DBG.STAT &&& 0xFF0000 = rg s .dbg 0 Reg.DBG.STAT &&& 0xFF0000 ∧
        u.page (pk .tamp 0) = s.page (pk .tamp 0) ∧ (∀ a : Nat, mem8 u a = if 0x800000000 ≤ a then mem8 s a else mem8 State.reset a) ∧
        vbatTime u = vbatTime s ∧ u.pending = s.pending)) ∧
  (∀ (s : State) (cause : Fin 6) (b : BootRes) (e : BootEntry), rf s .pwr 0 Reg.PWR.BOR_STAT 1 13 = 0 → s.jtag ∉ [.extest, .clamp, .intest] →
      b.tab0 = some [e] → e.kind.val = 2 →
      (hdrWord e.img 0 ≠ 0x4B494D47 ∨ hdrWord e.img 4 ≠ 1 ∨ hdrWord e.img 8 ≠ 2 ∨ e.img.body.length ≠ hdrWord e.img 0x020 ∨
        (e.img.hdr.drop 0x060).take 48 ≠ (Config.sha384 e.img.body).toList ∨ 127 < hdrWord e.img 0x00C ∨
        hdrWord e.img 0x00C < SMap.get (fun _ => 0) s.otp.minVer 2 ∨
        (lifeCycle s = 3 ∧ (3 < hdrWord e.img 0x024 / 65536 % 256 ∨ (∀ x ∈ s.otp.roots, x.1 ≠ hdrWord e.img 0x024 / 65536 % 256) ∨
          s.otp.revoked.getLsbD (hdrWord e.img 0x024 / 65536 % 256) = true ∨
          Config.ecdsaOk ((e.img.hdr.drop 0x090).take 96) (Config.sha384 (e.img.hdr.take 0x0F0)).toList ((e.img.hdr.drop 0x0F0).take 96) = false))) →
      Gives (.systemReset cause b) s (fun u => u.dom = 0x1803 ∧ rg u .sys 0 Reg.SYS.STAGE = 5 ∧ rb u .sec 0 Reg.SEC.STAT 18 = true)) ∧
  (∀ (s : State) (cause : Fin 6) (b : BootRes) (e : BootEntry), rf s .pwr 0 Reg.PWR.BOR_STAT 1 13 = 0 → s.jtag ∉ [.extest, .clamp, .intest] →
      b.tab0 = some [e] → e.kind.val = 2 →
      hdrWord e.img 0 = 0x4B494D47 → hdrWord e.img 4 = 1 → hdrWord e.img 8 = 2 → e.img.body.length = hdrWord e.img 0x020 →
      (e.img.hdr.drop 0x060).take 48 = (Config.sha384 e.img.body).toList → hdrWord e.img 0x00C ≤ 127 →
      SMap.get (fun _ => 0) s.otp.minVer 2 ≤ hdrWord e.img 0x00C → hdrWord e.img 0x024 % 2 = 0 →
      lifeCycle s = 2 → rb s .sec 0 Reg.SEC.CFG 0 = false → s.otp.roots = [] → hdrWord e.img 0x024 / 65536 % 256 = 255 →
      Gives (.systemReset cause b) s (fun u => u.dom = 0x1807 ∧ rg u .sys 0 Reg.SYS.STAGE = 6 ∧ rb u .sec 0 Reg.SEC.STAT 18 = false ∧
        rf u .sec 0 Reg.SEC.STAT 8 2 = b2n e.entryB ∧ rg u .apc 0 Reg.APC.AP0_BOOT_LO = ofN (hdrWord e.img 0x018) ∧
        SMap.get (fun _ => 0) u.runVer 2 = hdrWord e.img 0x00C)) ∧
  (∀ (s : State) (cause : Fin 6) (b : BootRes), s.jtag ∈ [.extest, .clamp, .intest] →
      Gives (.systemReset cause b) s (fun u => u.dom = 1 ∧ rb u .sys 0 Reg.SYS.RST_CAUSE cause.val = true ∧ rg u .sys 0 Reg.SYS.STAGE = 0 ∧
        u.jtag = s.jtag ∧ u.keys = s.keys ∧ u.otp = s.otp)) ∧
  (∀ (s : State) (m : Master) (chk : BitVec 16) (b : BootRes), Accepts s .sys 0 0x10 m chk →
      Gives (.sysReset m chk b) s (fun u => rb u .sys 0 Reg.SYS.RST_CAUSE 2 = true ∧ Gives (.systemReset 2 b) s (fun v => u = v))) ∧
  (∀ (s : State) (m : Master) (chk : BitVec 16) (b : BootRes), answers s ⟨.sys, 0⟩ = true → (s.page (pk .sys 0)).key ≠ .window → chk = 0xFFEF →
      (s.page (pk .sys 0)).locked = false → (s.page (pk .sys 0)).cmd = none → lifeCycle s = 3 → m ∈ [.pcieHost, .pcieDma, .hsp] →
      Gives (.sysReset m chk b) s (fun u => (u.page (pk .sys 0)).err = errWord .lifecycle 0x010 2 ∧ OtherRegs s u .sys 0 [] ∧ OtherPages s u (pk .sys 0) ∧
        OnlyPages s u)) ∧
  (∀ (s : State) (m : Master) (v : Word), answers s ⟨.sys, 0⟩ = true → (s.page (pk .sys 0)).key ≠ .window → (s.page (pk .sys 0)).locked = false →
      Gives (.stageWrite m v) s (fun u => rg u .sys 0 Reg.SYS.STAGE = (if (m = .ap0 ∨ m = .ap1 ∨ m = .sc) ∧ ¬(7 ≤ v.toNat % 16 ∧ v.toNat % 16 ≤ 14) then v &&& 15
          else rg s .sys 0 Reg.SYS.STAGE) ∧
        OtherRegs s u .sys 0 [Reg.SYS.STAGE] ∧ OtherPages s u (pk .sys 0) ∧ OnlyPages s u)) ∧
  (∀ (s : State) (v : Word) (p : PageId), answers s ⟨.sys, 0⟩ = true → (s.page (pk .sys 0)).key ≠ .window → (s.page (pk .sys 0)).locked = false →
      (p.present = true → v &&& 0xFFFF = ofN p.key → Gives (.irqSelWrite v) s (fun u => rg u .sys 0 Reg.SYS.IRQ_SEL = v &&& 0xFFFF ∧
        rg u .sys 0 Reg.SYS.IRQ_LINE = ofN (irqLine s p.key) ∧ OtherRegs s u .sys 0 [Reg.SYS.IRQ_SEL, Reg.SYS.IRQ_LINE] ∧
        OtherPages s u (pk .sys 0) ∧ OnlyPages s u)) ∧
      (PgTy.ofCode (v.toNat % 65536 / 256) = none → Gives (.irqSelWrite v) s (fun u => rg u .sys 0 Reg.SYS.IRQ_SEL = v &&& 0xFFFF ∧
        rg u .sys 0 Reg.SYS.IRQ_LINE = 0 ∧ OtherPages s u (pk .sys 0) ∧ OnlyPages s u))) ∧
  (∀ (s : State) (v : Word) (p : PageId), answers s ⟨.sys, 0⟩ = true → (s.page (pk .sys 0)).key ≠ .window → (s.page (pk .sys 0)).locked = false →
      (p.present = true → rg s .sys 0 Reg.SYS.IRQ_SEL = ofN p.key → Gives (.irqLineWrite v) s (fun u => irqLine u p.key = v.toNat % 256 ∧
        (∀ k, k ≠ p.key → irqLine u k = irqLine s k) ∧ rg u .sys 0 Reg.SYS.IRQ_LINE = v &&& 0xFF ∧ OtherRegs s u .sys 0 [Reg.SYS.IRQ_LINE] ∧
        OtherPages s u (pk .sys 0) ∧ OnlyPages { s with irqMap := u.irqMap } u)) ∧
      (PgTy.ofCode (rf s .sys 0 Reg.SYS.IRQ_SEL 8 8) = none → Gives (.irqLineWrite v) s (fun u => (u.page (pk .sys 0)).err = errWord .range Reg.SYS.IRQ_LINE 3 ∧
        OtherRegs s u .sys 0 [] ∧ OtherPages s u (pk .sys 0) ∧ OnlyPages s u))) ∧
  (∀ (s : State), powered s .clk 0 = true →
      Gives .referenceLoss s (fun u => rg u .clk 0 Reg.CLK.STAT = rg s .clk 0 Reg.CLK.STAT ||| 0x300 ∧ bit (u.page (pk .clk 0)).intRaw 1 = true ∧
        OtherRegs s u .clk 0 [Reg.CLK.STAT] ∧ OtherPages s u (pk .clk 0) ∧ OnlyPages s u)) ∧
  (∀ (s : State), powered s .clk 0 = true → rb s .clk 0 Reg.CLK.STAT 9 = true →
      Gives .referenceLock s (fun u => rf u .clk 0 Reg.CLK.STAT 0 4 = 15 ∧ rf u .clk 0 Reg.CLK.STAT 8 2 = 0 ∧
        (rf s .clk 0 Reg.CLK.CFG 0 2 = 1 → rf u .clk 0 Reg.CLK.STAT 4 2 = 1) ∧ (rf s .clk 0 Reg.CLK.CFG 0 2 = 2 → rf u .clk 0 Reg.CLK.STAT 4 2 = 2) ∧
        (rf s .clk 0 Reg.CLK.CFG 0 2 = 0 → rf u .clk 0 Reg.CLK.STAT 4 2 = (if timeRole s = 2 then 2 else 1)) ∧
        bit (u.page (pk .clk 0)).intRaw 2 = true ∧ OtherRegs s u .clk 0 [Reg.CLK.STAT] ∧ OtherPages s u (pk .clk 0) ∧ OnlyPages s u)) ∧
  (∀ (s : State) (p : Fin 4) (w : BitVec 14), powered s .clk 0 = true → w = [0x38BE#14, 0x942#14, 0x600#14, 0x1000#14].getD p.val 0 →
      Gives (.pllLockLoss p) s (fun u => u.dom = s.dom &&& ~~~w ∧
        (∀ d : Fin 14, w.getLsbD d.val = true → s.dom.getLsbD d.val = true → rb u .pwr 0 Reg.PWR.BOR_STAT d.val = true ∧
          rb u .pwr 0 Reg.PWR.DOM_EN d.val = false) ∧
        (2 ≤ p.val → rb u .clk 0 Reg.CLK.STAT p.val = false ∧ bit (u.page (pk .clk 0)).intRaw 0 = true ∧ OtherRegs s u .clk 0 [Reg.CLK.STAT]))) ∧
  (∀ (s : State) (p : Fin 616) (level : Bool) (id : Nat) (e : SigEntry) (en : Bool), padDriven s p.val = false → powered s .gpio 0 = true →
      s.padIn.getLsbD p.val = !level → s.sigs = [(id, e)] → id ≠ 0 → e.en = true → sigRun s = true → e.from .gpio 0 = true → e.upd = UpdEv.edge.num → e.typ = 3 →
      e.word = 320 + p.val / 32 → e.lsb = p.val % 32 →
      en = (stOf s .gpio 0 == .run && rb s .gpio 0 ((if level then Reg.GPIO.RISE_EN else Reg.GPIO.FALL_EN) + 4 * (p.val / 32)) (p.val % 32)) →
      Gives (.gpioEdge p level) s (fun u => (∀ q : Fin 616, u.padIn.getLsbD q.val = if q = p then level else s.padIn.getLsbD q.val) ∧
        rb u .gpio 0 (Reg.GPIO.IN + 4 * (p.val / 32)) (p.val % 32) = level ∧
        (en = true → rb u .gpio 0 (Reg.GPIO.EDGE_ST + 4 * (p.val / 32)) (p.val % 32) = true ∧ bit (u.page (pk .gpio 0)).intRaw 0 = true ∧
          (slotOf u id).raw = BitVec.ofNat 64 (b2n level) ∧ (slotOf u id).pubCnt = (slotOf s id).pubCnt + 1) ∧
        (en = false → slotOf u id = slotOf s id ∧ OtherRegs s u .gpio 0 [Reg.GPIO.IN + 4 * (p.val / 32)]) ∧
        OtherRegs s u .gpio 0 [Reg.GPIO.IN + 4 * (p.val / 32), Reg.GPIO.EDGE_ST + 4 * (p.val / 32)] ∧
        OnlyPublished { s with padIn := u.padIn } u [pk .gpio 0])) ∧
  (∀ (s : State) (w : Fin 20) (v x : Word), answers s ⟨.gpio, 0⟩ = true → (s.page (pk .gpio 0)).key ≠ .window → (s.page (pk .gpio 0)).locked = false →
      s.sigs = [] → x = (if w.val = 19 then v &&& 0xFF else v) →
      Gives (.gpioOutSet w v) s (fun u =>
        rg u .gpio 0 (Reg.GPIO.OUT + 4 * w.val) = rg s .gpio 0 (Reg.GPIO.OUT + 4 * w.val) ||| x ∧
        (∀ i : Fin 20, i ≠ w → rg u .gpio 0 (Reg.GPIO.OUT + 4 * i.val) = rg s .gpio 0 (Reg.GPIO.OUT + 4 * i.val)) ∧
        (∀ p : Fin 616, u.padIn.getLsbD p.val = if stOf s .gpio 0 = .run ∧ rf s .gpio 0 (Reg.GPIO.MUX + 4 * (p.val / 8)) (4 * (p.val % 8)) 2 = 0 ∧
            rb s .gpio 0 (Reg.GPIO.DIR + 4 * (p.val / 32)) (p.val % 32) = true then rb u .gpio 0 (Reg.GPIO.OUT + 4 * (p.val / 32)) (p.val % 32)
          else s.padIn.getLsbD p.val) ∧
        OtherRegs s u .gpio 0 ((Reg.GPIO.OUT + 4 * w.val) :: (List.range 20).map (fun i => Reg.GPIO.IN + 4 * i) ++
          (List.range 20).map (fun i => Reg.GPIO.EDGE_ST + 4 * i)) ∧
        OtherPages s u (pk .gpio 0) ∧ OnlyPages { s with padIn := u.padIn } u)) ∧
  (∀ (s : State) (w : Fin 20) (v x : Word), answers s ⟨.gpio, 0⟩ = true → (s.page (pk .gpio 0)).key ≠ .window → (s.page (pk .gpio 0)).locked = false →
      s.sigs = [] → x = (if w.val = 19 then v &&& 0xFF else v) →
      Gives (.gpioOutClr w v) s (fun u =>
        rg u .gpio 0 (Reg.GPIO.OUT + 4 * w.val) = rg s .gpio 0 (Reg.GPIO.OUT + 4 * w.val) &&& ~~~x ∧
        (∀ i : Fin 20, i ≠ w → rg u .gpio 0 (Reg.GPIO.OUT + 4 * i.val) = rg s .gpio 0 (Reg.GPIO.OUT + 4 * i.val)) ∧
        (∀ p : Fin 616, u.padIn.getLsbD p.val = if stOf s .gpio 0 = .run ∧ rf s .gpio 0 (Reg.GPIO.MUX + 4 * (p.val / 8)) (4 * (p.val % 8)) 2 = 0 ∧
            rb s .gpio 0 (Reg.GPIO.DIR + 4 * (p.val / 32)) (p.val % 32) = true then rb u .gpio 0 (Reg.GPIO.OUT + 4 * (p.val / 32)) (p.val % 32)
          else s.padIn.getLsbD p.val) ∧
        OtherRegs s u .gpio 0 ((Reg.GPIO.OUT + 4 * w.val) :: (List.range 20).map (fun i => Reg.GPIO.IN + 4 * i) ++
          (List.range 20).map (fun i => Reg.GPIO.EDGE_ST + 4 * i)) ∧
        OtherPages s u (pk .gpio 0) ∧ OnlyPages { s with padIn := u.padIn } u))

end
end

