-- ==== Sys2Proof/Laws/Bits.lean ====
section
/-! SUPPORT. Reading a field or a bit of a word after another was replaced. -/
namespace Sys2Proof.Machine

@[simp] theorem bit_or (v w : Word) (i : Nat) : bit (v ||| w) i = (bit v i || bit w i) := by simp [bit]
@[simp] theorem bit_and (v w : Word) (i : Nat) : bit (v &&& w) i = (bit v i && bit w i) := by simp [bit]

theorem fld_lt (w : Word) (lo len : Nat) : fld w lo len < 2 ^ len := Nat.mod_lt _ (Nat.two_pow_pos len)

/-- A bit of a field as a number. -/
theorem testBit_fld (w : Word) (lo len i : Nat) : (fld w lo len).testBit i = (decide (i < len) && bit w (lo + i)) := by
  unfold fld bit
  rw [Nat.testBit_mod_two_pow, Nat.testBit_shiftRight, BitVec.getLsbD]

/-- A word with a field replaced, as a number. -/
theorem toNat_setFld (w : Word) (lo len v : Nat) (h : lo + len ≤ 32) :
    (setFld w lo len v).toNat =
      2 ^ (lo + len) * (w.toNat / 2 ^ (lo + len)) + (2 ^ lo * (v % 2 ^ len) + w.toNat % 2 ^ lo) := by
  have hw := w.isLt
  have e1 : w.toNat / 2 ^ lo = 2 ^ len * (w.toNat / 2 ^ (lo + len)) + fld w lo len := by
    unfold fld
    rw [Nat.shiftRight_eq_div_pow, Nat.pow_add, ← Nat.div_div_eq_div_mul]
    exact (Nat.div_add_mod _ _).symm
  have e2 : w.toNat = 2 ^ (lo + len) * (w.toNat / 2 ^ (lo + len)) + (2 ^ lo * fld w lo len + w.toNat % 2 ^ lo) := by
    conv => lhs; rw [← Nat.div_add_mod w.toNat (2 ^ lo), e1]
    rw [Nat.pow_add, Nat.mul_add, Nat.mul_assoc, Nat.add_assoc]
  have hv : v % 2 ^ len < 2 ^ len := Nat.mod_lt _ (Nat.two_pow_pos len)
  have hl : w.toNat % 2 ^ lo < 2 ^ lo := Nat.mod_lt _ (Nat.two_pow_pos lo)
  have hb : 2 ^ lo * (v % 2 ^ len) + w.toNat % 2 ^ lo < 2 ^ (lo + len) := by
    have := Nat.mul_le_mul_left (2 ^ lo) (show v % 2 ^ len + 1 ≤ 2 ^ len from hv)
    rw [Nat.mul_add, Nat.mul_one, ← Nat.pow_add] at this
    omega
  have hq : w.toNat / 2 ^ (lo + len) < 2 ^ (32 - (lo + len)) := by
    rw [Nat.div_lt_iff_lt_mul (Nat.two_pow_pos _), ← Nat.pow_add]
    have : 32 - (lo + len) + (lo + len) = 32 := by omega
    rw [this]; exact hw
  have ht : 2 ^ (lo + len) * (w.toNat / 2 ^ (lo + len)) + (2 ^ lo * (v % 2 ^ len) + w.toNat % 2 ^ lo) < 2 ^ 32 := by
    have h1 := Nat.mul_le_mul_left (2 ^ (lo + len)) (show w.toNat / 2 ^ (lo + len) + 1 ≤ 2 ^ (32 - (lo + len)) from hq)
    rw [Nat.mul_add, Nat.mul_one, ← Nat.pow_add] at h1
    have : lo + len + (32 - (lo + len)) = 32 := by omega
    rw [this] at h1
    omega
  unfold setFld
  rw [BitVec.toNat_ofNat]
  have h3 : w.toNat - fld w lo len * 2 ^ lo + v % 2 ^ len * 2 ^ lo =
      2 ^ (lo + len) * (w.toNat / 2 ^ (lo + len)) + (2 ^ lo * (v % 2 ^ len) + w.toNat % 2 ^ lo) := by
    rw [Nat.mul_comm (fld w lo len), Nat.mul_comm (v % 2 ^ len)]
    omega
  rw [h3]
  exact Nat.mod_eq_of_lt ht

/-- A bit of a word with a field replaced. -/
theorem bit_setFld (w : Word) (lo len v i : Nat) (h : lo + len ≤ 32) :
    bit (setFld w lo len v) i = if lo ≤ i ∧ i < lo + len then v.testBit (i - lo) else bit w i := by
  have hv : v % 2 ^ len < 2 ^ len := Nat.mod_lt _ (Nat.two_pow_pos len)
  have hl : w.toNat % 2 ^ lo < 2 ^ lo := Nat.mod_lt _ (Nat.two_pow_pos lo)
  have hb : 2 ^ lo * (v % 2 ^ len) + w.toNat % 2 ^ lo < 2 ^ (lo + len) := by
    have := Nat.mul_le_mul_left (2 ^ lo) (show v % 2 ^ len + 1 ≤ 2 ^ len from hv)
    rw [Nat.mul_add, Nat.mul_one, ← Nat.pow_add] at this
    omega
  unfold bit BitVec.getLsbD
  rw [toNat_setFld w lo len v h, Nat.testBit_two_pow_mul_add _ hb]
  by_cases h1 : i < lo + len
  · rw [if_pos h1, Nat.testBit_two_pow_mul_add _ hl]
    by_cases h2 : i < lo
    · rw [if_pos h2, if_neg (by omega), Nat.testBit_mod_two_pow]
      simp [h2]
    · rw [if_neg h2, if_pos (by omega), Nat.testBit_mod_two_pow]
      simp [show i - lo < len by omega]
  · rw [if_neg h1, if_neg (by omega), Nat.testBit_div_two_pow]
    rw [show i - (lo + len) + (lo + len) = i by omega]

/-- A bit of a word with one bit replaced. -/
theorem bit_setBit (w : Word) (i j : Nat) (b : Bool) (h : i < 32) : bit (setBit w i b) j = if j = i then b else bit w j := by
  unfold setBit
  rw [bit_setFld w i 1 _ j (by omega)]
  by_cases hj : j = i
  · subst hj
    rw [if_pos (by omega), if_pos rfl, Nat.sub_self]
    cases b <;> rfl
  · rw [if_neg (by omega), if_neg hj]

/-- A field of a word with the same field replaced. -/
theorem fld_setFld_same (w : Word) (lo len v : Nat) (h : lo + len ≤ 32) : fld (setFld w lo len v) lo len = v % 2 ^ len := by
  apply Nat.eq_of_testBit_eq
  intro i
  rw [testBit_fld, bit_setFld w lo len v _ h, Nat.testBit_mod_two_pow]
  by_cases hi : i < len
  · rw [if_pos (by omega)]; simp [hi]
  · simp [hi]

/-- A field of a word with a field beside it replaced. -/
theorem fld_setFld_apart (w : Word) (lo len v lo' len' : Nat) (h : lo + len ≤ 32) (hd : lo' + len' ≤ lo ∨ lo + len ≤ lo') :
    fld (setFld w lo len v) lo' len' = fld w lo' len' := by
  apply Nat.eq_of_testBit_eq
  intro i
  rw [testBit_fld, testBit_fld, bit_setFld w lo len v _ h]
  by_cases hi : i < len'
  · rw [if_neg (by omega)]
  · simp [hi]

/-- A field of a word with one bit outside it replaced. -/
theorem fld_setBit_apart (w : Word) (i lo len : Nat) (b : Bool) (h : i < 32) (hd : i < lo ∨ lo + len ≤ i) :
    fld (setBit w i b) lo len = fld w lo len :=
  fld_setFld_apart w i 1 _ lo len (by omega) (by omega)

/-- A bit of a word with a field beside it replaced. -/
theorem bit_setFld_apart (w : Word) (lo len v i : Nat) (h : lo + len ≤ 32) (hd : i < lo ∨ lo + len ≤ i) :
    bit (setFld w lo len v) i = bit w i := by
  rw [bit_setFld w lo len v i h, if_neg (by omega)]

/-! ## The words of single bits -/

@[simp] theorem bit_word0 : bit 1#32 0 = true := by decide
@[simp] theorem bit_word1 : bit 2#32 1 = true := by decide
@[simp] theorem bit_word2 : bit 4#32 2 = true := by decide
@[simp] theorem bit_word3 : bit 8#32 3 = true := by decide
@[simp] theorem bit_word4 : bit 16#32 4 = true := by decide
@[simp] theorem bit_word5 : bit 32#32 5 = true := by decide
@[simp] theorem bit_word6 : bit 64#32 6 = true := by decide
@[simp] theorem bit_word7 : bit 128#32 7 = true := by decide
@[simp] theorem bit_word8 : bit 256#32 8 = true := by decide
@[simp] theorem bit_word9 : bit 512#32 9 = true := by decide
@[simp] theorem bit_word10 : bit 1024#32 10 = true := by decide
@[simp] theorem bit_word11 : bit 2048#32 11 = true := by decide
@[simp] theorem bit_word12 : bit 4096#32 12 = true := by decide
@[simp] theorem bit_word13 : bit 8192#32 13 = true := by decide
@[simp] theorem bit_word14 : bit 16384#32 14 = true := by decide
@[simp] theorem bit_word15 : bit 32768#32 15 = true := by decide
@[simp] theorem bit_word16 : bit 65536#32 16 = true := by decide
@[simp] theorem bit_word17 : bit 131072#32 17 = true := by decide
@[simp] theorem bit_word18 : bit 262144#32 18 = true := by decide
@[simp] theorem bit_word19 : bit 524288#32 19 = true := by decide
@[simp] theorem bit_word20 : bit 1048576#32 20 = true := by decide
@[simp] theorem bit_word21 : bit 2097152#32 21 = true := by decide
@[simp] theorem bit_word22 : bit 4194304#32 22 = true := by decide
@[simp] theorem bit_word23 : bit 8388608#32 23 = true := by decide
@[simp] theorem bit_word24 : bit 16777216#32 24 = true := by decide
@[simp] theorem bit_word25 : bit 33554432#32 25 = true := by decide
@[simp] theorem bit_word26 : bit 67108864#32 26 = true := by decide
@[simp] theorem bit_word27 : bit 134217728#32 27 = true := by decide
@[simp] theorem bit_word28 : bit 268435456#32 28 = true := by decide
@[simp] theorem bit_word29 : bit 536870912#32 29 = true := by decide
@[simp] theorem bit_word30 : bit 1073741824#32 30 = true := by decide
@[simp] theorem bit_word31 : bit 2147483648#32 31 = true := by decide

end Sys2Proof.Machine
end

