-- ==== Sys2Proof/Laws/Maps.lean ====
section
/-! SUPPORT. The laws of sparse maps: what a read gives after a write, and that every write keeps the canonical form. -/
namespace Sys2Proof.Machine

variable {β : Type}

/-! ## Reading -/

theorem SMap.get_erase (d : Nat → β) (m : SMap β) (k k' : Nat) :
    SMap.get d (SMap.erase m k) k' = if k' = k then d k else SMap.get d m k' := by
  induction m with
  | nil => simp only [SMap.erase, SMap.get]; split <;> simp_all
  | cons e m ih =>
    obtain ⟨a, v⟩ := e
    by_cases h : k = a
    · subst h
      simp only [SMap.erase, if_true, ih, SMap.get]
      split <;> rfl
    · by_cases h' : k' = a
      · subst h'
        simp [SMap.erase, SMap.get, h, Ne.symm h]
      · simp [SMap.erase, SMap.get, h, h', ih]

theorem SMap.get_insert (d : Nat → β) (m : SMap β) (k k' : Nat) (v : β) (h : ∀ e ∈ m, e.1 ≠ k) :
    SMap.get d (SMap.insert m k v) k' = if k' = k then v else SMap.get d m k' := by
  induction m with
  | nil => simp [SMap.insert, SMap.get]
  | cons e m ih =>
    obtain ⟨a, w⟩ := e
    have ha : a ≠ k := h (a, w) (by simp)
    have hm : ∀ e ∈ m, e.1 ≠ k := fun e he => h e (by simp [he])
    by_cases hk : k < a
    · simp only [SMap.insert, hk, if_true, SMap.get]
    · by_cases h' : k' = a
      · subst h'
        simp [SMap.insert, SMap.get, hk, ha]
      · simp [SMap.insert, SMap.get, hk, h', ih hm]

theorem SMap.erase_ne (m : SMap β) (k : Nat) : ∀ e ∈ SMap.erase m k, e.1 ≠ k := by
  induction m with
  | nil => simp [SMap.erase]
  | cons e m ih =>
    obtain ⟨a, w⟩ := e
    by_cases h : k = a
    · rw [SMap.erase, if_pos h]; exact ih
    · intro e he
      rw [SMap.erase, if_neg h] at he
      rcases List.mem_cons.1 he with rfl | he
      · exact Ne.symm h
      · exact ih e he

/-- A read after a write: the value written at the key, everything else as before. -/
@[simp] theorem SMap.get_set [DecidableEq β] (d : Nat → β) (m : SMap β) (k k' : Nat) (v : β) :
    SMap.get d (SMap.set d m k v) k' = if k' = k then v else SMap.get d m k' := by
  unfold SMap.set
  split
  · rename_i h; rw [SMap.get_erase, h]
  · rw [SMap.get_insert d _ k k' v (SMap.erase_ne m k), SMap.get_erase]
    split <;> rfl

@[simp] theorem SMap.get_nil (d : Nat → β) (k : Nat) : SMap.get d [] k = d k := rfl

/-! ## The canonical form -/

/-- The canonical form as two facts: keys rising, and no entry equal to its default. -/
theorem SMap.wf_iff [DecidableEq β] (d : Nat → β) (m : SMap β) :
    SMap.wf d m = true ↔ List.Pairwise (fun a b : Nat × β => a.1 < b.1) m ∧ ∀ e ∈ m, e.2 ≠ d e.1 := by
  have hs : ∀ m : SMap β, SMap.sorted m = true ↔ List.Pairwise (fun a b : Nat × β => a.1 < b.1) m := by
    intro m
    induction m with
    | nil => simp [SMap.sorted]
    | cons e m ih =>
      obtain ⟨a, w⟩ := e
      simp [SMap.sorted, ih]
  simp [SMap.wf, hs]

theorem SMap.mem_erase (m : SMap β) (k : Nat) (e : Nat × β) : e ∈ SMap.erase m k ↔ e ∈ m ∧ e.1 ≠ k := by
  induction m with
  | nil => simp [SMap.erase]
  | cons a m ih =>
    obtain ⟨x, w⟩ := a
    by_cases h : k = x
    · subst h
      simp only [SMap.erase, if_true, ih, List.mem_cons]
      constructor
      · rintro ⟨h1, h2⟩; exact ⟨Or.inr h1, h2⟩
      · rintro ⟨h1 | h1, h2⟩
        · subst h1; exact absurd rfl h2
        · exact ⟨h1, h2⟩
    · rw [SMap.erase, if_neg h, List.mem_cons, ih, List.mem_cons]
      constructor
      · rintro (rfl | ⟨h1, h2⟩)
        · exact ⟨Or.inl rfl, Ne.symm h⟩
        · exact ⟨Or.inr h1, h2⟩
      · rintro ⟨h1 | h1, h2⟩
        · exact Or.inl h1
        · exact Or.inr ⟨h1, h2⟩

theorem SMap.erase_sorted (m : SMap β) (k : Nat) (h : List.Pairwise (fun a b : Nat × β => a.1 < b.1) m) :
    List.Pairwise (fun a b : Nat × β => a.1 < b.1) (SMap.erase m k) := by
  induction m with
  | nil => simp [SMap.erase]
  | cons e m ih =>
    obtain ⟨a, w⟩ := e
    rw [List.pairwise_cons] at h
    by_cases hk : k = a
    · rw [SMap.erase, if_pos hk]; exact ih h.2
    · rw [SMap.erase, if_neg hk, List.pairwise_cons]
      exact ⟨fun e he => h.1 e ((SMap.mem_erase m k e).1 he).1, ih h.2⟩

theorem SMap.mem_insert (m : SMap β) (k : Nat) (v : β) (e : Nat × β) :
    e ∈ SMap.insert m k v ↔ e = (k, v) ∨ e ∈ m := by
  induction m with
  | nil => simp [SMap.insert]
  | cons a m ih =>
    obtain ⟨x, w⟩ := a
    unfold SMap.insert
    split
    · simp
    · simp only [List.mem_cons, ih, or_left_comm]

theorem SMap.insert_sorted (m : SMap β) (k : Nat) (v : β) (h : List.Pairwise (fun a b : Nat × β => a.1 < b.1) m)
    (hk : ∀ e ∈ m, e.1 ≠ k) : List.Pairwise (fun a b : Nat × β => a.1 < b.1) (SMap.insert m k v) := by
  induction m with
  | nil => simp [SMap.insert]
  | cons e m ih =>
    obtain ⟨a, w⟩ := e
    have ha : a ≠ k := hk (a, w) (by simp)
    rw [List.pairwise_cons] at h
    unfold SMap.insert
    split
    · rename_i hlt
      rw [List.pairwise_cons, List.pairwise_cons]
      refine ⟨fun e he => ?_, h⟩
      rcases List.mem_cons.1 he with rfl | he
      · exact hlt
      · exact Nat.lt_trans hlt (h.1 e he)
    · rw [List.pairwise_cons]
      refine ⟨fun e he => ?_, ih h.2 (fun e he => hk e (by simp [he]))⟩
      rcases (SMap.mem_insert m k v e).1 he with rfl | he
      · show a < k; omega
      · exact h.1 e he

/-- Every write keeps the canonical form. -/
theorem SMap.set_wf [DecidableEq β] (d : Nat → β) (m : SMap β) (k : Nat) (v : β) (h : SMap.wf d m = true) :
    SMap.wf d (SMap.set d m k v) = true := by
  rw [SMap.wf_iff] at h ⊢
  unfold SMap.set
  split
  · exact ⟨SMap.erase_sorted m k h.1, fun e he => h.2 e ((SMap.mem_erase m k e).1 he).1⟩
  · rename_i hv
    refine ⟨SMap.insert_sorted _ k v (SMap.erase_sorted m k h.1) (SMap.erase_ne m k), fun e he => ?_⟩
    rcases (SMap.mem_insert _ k v e).1 he with rfl | he
    · exact hv
    · exact h.2 e ((SMap.mem_erase m k e).1 he).1

@[simp] theorem SMap.wf_nil [DecidableEq β] (d : Nat → β) : SMap.wf d [] = true := rfl

end Sys2Proof.Machine
end

