-- ==== Sys2Proof/Laws/State.lean ====
section
/-! SUPPORT. The state's small lemmas: what each named update leaves of each field, and what a read of a page or of a block's record
gives after it. -/
namespace Sys2Proof.Machine

section
variable (s : State) (k k' n n' t : Nat) (p : Page) (f : Page → Page)

/-! ## Pages -/

/-- A page after one page was replaced. -/
@[simp] theorem State.setPage_page : (s.setPage k p).page k' = if k' = k then p else s.page k' := by
  simp [State.page, State.setPage]

/-- A page after one page was changed. -/
@[simp] theorem State.modPage_page : (s.modPage k f).page k' = if k' = k then f (s.page k) else s.page k' := by
  simp [State.modPage]

theorem State.page_of_pages {s r : State} (h : s.pages = r.pages) (k : Nat) : s.page k = r.page k := by simp [State.page, h]

/-! ## What `setPage` and `modPage` leave -/

@[simp] theorem State.setPage_now : (s.setPage k p).now = s.now := rfl
@[simp] theorem State.setPage_stepSum : (s.setPage k p).stepSum = s.stepSum := rfl
@[simp] theorem State.setPage_lastStep : (s.setPage k p).lastStep = s.lastStep := rfl
@[simp] theorem State.setPage_dom : (s.setPage k p).dom = s.dom := rfl
@[simp] theorem State.setPage_sigs : (s.setPage k p).sigs = s.sigs := rfl
@[simp] theorem State.setPage_slots : (s.setPage k p).slots = s.slots := rfl
@[simp] theorem State.setPage_recCnt : (s.setPage k p).recCnt = s.recCnt := rfl
@[simp] theorem State.setPage_mem : (s.setPage k p).mem = s.mem := rfl
@[simp] theorem State.setPage_frc : (s.setPage k p).frc = s.frc := rfl
@[simp] theorem State.setPage_frcKeep : (s.setPage k p).frcKeep = s.frcKeep := rfl
@[simp] theorem State.setPage_flog : (s.setPage k p).flog = s.flog := rfl
@[simp] theorem State.setPage_holds : (s.setPage k p).holds = s.holds := rfl
@[simp] theorem State.setPage_recDue : (s.setPage k p).recDue = s.recDue := rfl
@[simp] theorem State.setPage_fabLog : (s.setPage k p).fabLog = s.fabLog := rfl
@[simp] theorem State.setPage_irqMap : (s.setPage k p).irqMap = s.irqMap := rfl
@[simp] theorem State.setPage_irqOn : (s.setPage k p).irqOn = s.irqOn := rfl
@[simp] theorem State.setPage_msixTbl : (s.setPage k p).msixTbl = s.msixTbl := rfl
@[simp] theorem State.setPage_msixPend : (s.setPage k p).msixPend = s.msixPend := rfl
@[simp] theorem State.setPage_msixMask : (s.setPage k p).msixMask = s.msixMask := rfl
@[simp] theorem State.setPage_msixSent : (s.setPage k p).msixSent = s.msixSent := rfl
@[simp] theorem State.setPage_encs : (s.setPage k p).encs = s.encs := rfl
@[simp] theorem State.setPage_ssns : (s.setPage k p).ssns = s.ssns := rfl
@[simp] theorem State.setPage_pcmps : (s.setPage k p).pcmps = s.pcmps := rfl
@[simp] theorem State.setPage_steps : (s.setPage k p).steps = s.steps := rfl
@[simp] theorem State.setPage_axes : (s.setPage k p).axes = s.axes := rfl
@[simp] theorem State.setPage_prkSel : (s.setPage k p).prkSel = s.prkSel := rfl
@[simp] theorem State.setPage_scrubAt : (s.setPage k p).scrubAt = s.scrubAt := rfl
@[simp] theorem State.setPage_img1 : (s.setPage k p).img1 = s.img1 := rfl
@[simp] theorem State.setPage_img2 : (s.setPage k p).img2 = s.img2 := rfl
@[simp] theorem State.setPage_ustp : (s.setPage k p).ustp = s.ustp := rfl
@[simp] theorem State.setPage_lcs : (s.setPage k p).lcs = s.lcs := rfl
@[simp] theorem State.setPage_lschTick : (s.setPage k p).lschTick = s.lschTick := rfl
@[simp] theorem State.setPage_lschT0 : (s.setPage k p).lschT0 = s.lschT0 := rfl
@[simp] theorem State.setPage_lschZero : (s.setPage k p).lschZero = s.lschZero := rfl
@[simp] theorem State.setPage_taskFlags : (s.setPage k p).taskFlags = s.taskFlags := rfl
@[simp] theorem State.setPage_lschOp : (s.setPage k p).lschOp = s.lschOp := rfl
@[simp] theorem State.setPage_lschFoQ : (s.setPage k p).lschFoQ = s.lschFoQ := rfl
@[simp] theorem State.setPage_cslots : (s.setPage k p).cslots = s.cslots := rfl
@[simp] theorem State.setPage_ceQ : (s.setPage k p).ceQ = s.ceQ := rfl
@[simp] theorem State.setPage_pwms : (s.setPage k p).pwms = s.pwms := rfl
@[simp] theorem State.setPage_finRaw : (s.setPage k p).finRaw = s.finRaw := rfl
@[simp] theorem State.setPage_pwmClkLost : (s.setPage k p).pwmClkLost = s.pwmClkLost := rfl
@[simp] theorem State.setPage_pwmPads : (s.setPage k p).pwmPads = s.pwmPads := rfl
@[simp] theorem State.setPage_fchs : (s.setPage k p).fchs = s.fchs := rfl
@[simp] theorem State.setPage_fcgs : (s.setPage k p).fcgs = s.fcgs := rfl
@[simp] theorem State.setPage_pcvs : (s.setPage k p).pcvs = s.pcvs := rfl
@[simp] theorem State.setPage_les : (s.setPage k p).les = s.les := rfl
@[simp] theorem State.setPage_rseqs : (s.setPage k p).rseqs = s.rseqs := rfl
@[simp] theorem State.setPage_acqs : (s.setPage k p).acqs = s.acqs := rfl
@[simp] theorem State.setPage_sigCopy : (s.setPage k p).sigCopy = s.sigCopy := rfl
@[simp] theorem State.setPage_sigLoad : (s.setPage k p).sigLoad = s.sigLoad := rfl
@[simp] theorem State.setPage_histPos : (s.setPage k p).histPos = s.histPos := rfl
@[simp] theorem State.setPage_histCnt : (s.setPage k p).histCnt = s.histCnt := rfl
@[simp] theorem State.setPage_histWrap : (s.setPage k p).histWrap = s.histWrap := rfl
@[simp] theorem State.setPage_histSec : (s.setPage k p).histSec = s.histSec := rfl
@[simp] theorem State.setPage_recExp : (s.setPage k p).recExp = s.recExp := rfl
@[simp] theorem State.setPage_part : (s.setPage k p).part = s.part := rfl
@[simp] theorem State.setPage_tickAt : (s.setPage k p).tickAt = s.tickAt := rfl
@[simp] theorem State.setPage_timeStep : (s.setPage k p).timeStep = s.timeStep := rfl
@[simp] theorem State.setPage_stepDone : (s.setPage k p).stepDone = s.stepDone := rfl
@[simp] theorem State.setPage_adjAt : (s.setPage k p).adjAt = s.adjAt := rfl
@[simp] theorem State.setPage_joinDue : (s.setPage k p).joinDue = s.joinDue := rfl
@[simp] theorem State.setPage_joinCnt : (s.setPage k p).joinCnt = s.joinCnt := rfl
@[simp] theorem State.setPage_joinOk : (s.setPage k p).joinOk = s.joinOk := rfl
@[simp] theorem State.setPage_trgPin : (s.setPage k p).trgPin = s.trgPin := rfl
@[simp] theorem State.setPage_trgLocal : (s.setPage k p).trgLocal = s.trgLocal := rfl
@[simp] theorem State.setPage_trgSeen : (s.setPage k p).trgSeen = s.trgSeen := rfl
@[simp] theorem State.setPage_trgAt : (s.setPage k p).trgAt = s.trgAt := rfl
@[simp] theorem State.setPage_trgQ : (s.setPage k p).trgQ = s.trgQ := rfl
@[simp] theorem State.setPage_trgDone : (s.setPage k p).trgDone = s.trgDone := rfl
@[simp] theorem State.setPage_nodeGap : (s.setPage k p).nodeGap = s.nodeGap := rfl
@[simp] theorem State.setPage_dlks : (s.setPage k p).dlks = s.dlks := rfl
@[simp] theorem State.setPage_txq : (s.setPage k p).txq = s.txq := rfl
@[simp] theorem State.setPage_hostOut : (s.setPage k p).hostOut = s.hostOut := rfl
@[simp] theorem State.setPage_hsp : (s.setPage k p).hsp = s.hsp := rfl
@[simp] theorem State.setPage_msps : (s.setPage k p).msps = s.msps := rfl
@[simp] theorem State.setPage_psps : (s.setPage k p).psps = s.psps := rfl
@[simp] theorem State.setPage_ethTbl : (s.setPage k p).ethTbl = s.ethTbl := rfl
@[simp] theorem State.setPage_ethOut : (s.setPage k p).ethOut = s.ethOut := rfl
@[simp] theorem State.setPage_apRestart : (s.setPage k p).apRestart = s.apRestart := rfl
@[simp] theorem State.setPage_apHalt : (s.setPage k p).apHalt = s.apHalt := rfl
@[simp] theorem State.setPage_dbgHalt : (s.setPage k p).dbgHalt = s.dbgHalt := rfl
@[simp] theorem State.setPage_cans : (s.setPage k p).cans = s.cans := rfl
@[simp] theorem State.setPage_dio : (s.setPage k p).dio = s.dio := rfl
@[simp] theorem State.setPage_otp : (s.setPage k p).otp = s.otp := rfl
@[simp] theorem State.setPage_keys : (s.setPage k p).keys = s.keys := rfl
@[simp] theorem State.setPage_runVer : (s.setPage k p).runVer = s.runVer := rfl
@[simp] theorem State.setPage_failAt : (s.setPage k p).failAt = s.failAt := rfl
@[simp] theorem State.setPage_tampLog : (s.setPage k p).tampLog = s.tampLog := rfl
@[simp] theorem State.setPage_vbatBase : (s.setPage k p).vbatBase = s.vbatBase := rfl
@[simp] theorem State.setPage_jtag : (s.setPage k p).jtag = s.jtag := rfl
@[simp] theorem State.setPage_swOff : (s.setPage k p).swOff = s.swOff := rfl
@[simp] theorem State.setPage_swOn : (s.setPage k p).swOn = s.swOn := rfl
@[simp] theorem State.setPage_trained : (s.setPage k p).trained = s.trained := rfl
@[simp] theorem State.setPage_padIn : (s.setPage k p).padIn = s.padIn := rfl
@[simp] theorem State.setPage_histQ : (s.setPage k p).histQ = s.histQ := rfl
@[simp] theorem State.setPage_histLost : (s.setPage k p).histLost = s.histLost := rfl
@[simp] theorem State.setPage_resp : (s.setPage k p).resp = s.resp := rfl
@[simp] theorem State.setPage_seed : (s.setPage k p).seed = s.seed := rfl
@[simp] theorem State.setPage_pending : (s.setPage k p).pending = s.pending := rfl

@[simp] theorem State.modPage_now : (s.modPage k f).now = s.now := rfl
@[simp] theorem State.modPage_stepSum : (s.modPage k f).stepSum = s.stepSum := rfl
@[simp] theorem State.modPage_lastStep : (s.modPage k f).lastStep = s.lastStep := rfl
@[simp] theorem State.modPage_dom : (s.modPage k f).dom = s.dom := rfl
@[simp] theorem State.modPage_sigs : (s.modPage k f).sigs = s.sigs := rfl
@[simp] theorem State.modPage_slots : (s.modPage k f).slots = s.slots := rfl
@[simp] theorem State.modPage_recCnt : (s.modPage k f).recCnt = s.recCnt := rfl
@[simp] theorem State.modPage_mem : (s.modPage k f).mem = s.mem := rfl
@[simp] theorem State.modPage_frc : (s.modPage k f).frc = s.frc := rfl
@[simp] theorem State.modPage_frcKeep : (s.modPage k f).frcKeep = s.frcKeep := rfl
@[simp] theorem State.modPage_flog : (s.modPage k f).flog = s.flog := rfl
@[simp] theorem State.modPage_holds : (s.modPage k f).holds = s.holds := rfl
@[simp] theorem State.modPage_recDue : (s.modPage k f).recDue = s.recDue := rfl
@[simp] theorem State.modPage_fabLog : (s.modPage k f).fabLog = s.fabLog := rfl
@[simp] theorem State.modPage_irqMap : (s.modPage k f).irqMap = s.irqMap := rfl
@[simp] theorem State.modPage_irqOn : (s.modPage k f).irqOn = s.irqOn := rfl
@[simp] theorem State.modPage_msixTbl : (s.modPage k f).msixTbl = s.msixTbl := rfl
@[simp] theorem State.modPage_msixPend : (s.modPage k f).msixPend = s.msixPend := rfl
@[simp] theorem State.modPage_msixMask : (s.modPage k f).msixMask = s.msixMask := rfl
@[simp] theorem State.modPage_msixSent : (s.modPage k f).msixSent = s.msixSent := rfl
@[simp] theorem State.modPage_encs : (s.modPage k f).encs = s.encs := rfl
@[simp] theorem State.modPage_ssns : (s.modPage k f).ssns = s.ssns := rfl
@[simp] theorem State.modPage_pcmps : (s.modPage k f).pcmps = s.pcmps := rfl
@[simp] theorem State.modPage_steps : (s.modPage k f).steps = s.steps := rfl
@[simp] theorem State.modPage_axes : (s.modPage k f).axes = s.axes := rfl
@[simp] theorem State.modPage_prkSel : (s.modPage k f).prkSel = s.prkSel := rfl
@[simp] theorem State.modPage_scrubAt : (s.modPage k f).scrubAt = s.scrubAt := rfl
@[simp] theorem State.modPage_img1 : (s.modPage k f).img1 = s.img1 := rfl
@[simp] theorem State.modPage_img2 : (s.modPage k f).img2 = s.img2 := rfl
@[simp] theorem State.modPage_ustp : (s.modPage k f).ustp = s.ustp := rfl
@[simp] theorem State.modPage_lcs : (s.modPage k f).lcs = s.lcs := rfl
@[simp] theorem State.modPage_lschTick : (s.modPage k f).lschTick = s.lschTick := rfl
@[simp] theorem State.modPage_lschT0 : (s.modPage k f).lschT0 = s.lschT0 := rfl
@[simp] theorem State.modPage_lschZero : (s.modPage k f).lschZero = s.lschZero := rfl
@[simp] theorem State.modPage_taskFlags : (s.modPage k f).taskFlags = s.taskFlags := rfl
@[simp] theorem State.modPage_lschOp : (s.modPage k f).lschOp = s.lschOp := rfl
@[simp] theorem State.modPage_lschFoQ : (s.modPage k f).lschFoQ = s.lschFoQ := rfl
@[simp] theorem State.modPage_cslots : (s.modPage k f).cslots = s.cslots := rfl
@[simp] theorem State.modPage_ceQ : (s.modPage k f).ceQ = s.ceQ := rfl
@[simp] theorem State.modPage_pwms : (s.modPage k f).pwms = s.pwms := rfl
@[simp] theorem State.modPage_finRaw : (s.modPage k f).finRaw = s.finRaw := rfl
@[simp] theorem State.modPage_pwmClkLost : (s.modPage k f).pwmClkLost = s.pwmClkLost := rfl
@[simp] theorem State.modPage_pwmPads : (s.modPage k f).pwmPads = s.pwmPads := rfl
@[simp] theorem State.modPage_fchs : (s.modPage k f).fchs = s.fchs := rfl
@[simp] theorem State.modPage_fcgs : (s.modPage k f).fcgs = s.fcgs := rfl
@[simp] theorem State.modPage_pcvs : (s.modPage k f).pcvs = s.pcvs := rfl
@[simp] theorem State.modPage_les : (s.modPage k f).les = s.les := rfl
@[simp] theorem State.modPage_rseqs : (s.modPage k f).rseqs = s.rseqs := rfl
@[simp] theorem State.modPage_acqs : (s.modPage k f).acqs = s.acqs := rfl
@[simp] theorem State.modPage_sigCopy : (s.modPage k f).sigCopy = s.sigCopy := rfl
@[simp] theorem State.modPage_sigLoad : (s.modPage k f).sigLoad = s.sigLoad := rfl
@[simp] theorem State.modPage_histPos : (s.modPage k f).histPos = s.histPos := rfl
@[simp] theorem State.modPage_histCnt : (s.modPage k f).histCnt = s.histCnt := rfl
@[simp] theorem State.modPage_histWrap : (s.modPage k f).histWrap = s.histWrap := rfl
@[simp] theorem State.modPage_histSec : (s.modPage k f).histSec = s.histSec := rfl
@[simp] theorem State.modPage_recExp : (s.modPage k f).recExp = s.recExp := rfl
@[simp] theorem State.modPage_part : (s.modPage k f).part = s.part := rfl
@[simp] theorem State.modPage_tickAt : (s.modPage k f).tickAt = s.tickAt := rfl
@[simp] theorem State.modPage_timeStep : (s.modPage k f).timeStep = s.timeStep := rfl
@[simp] theorem State.modPage_stepDone : (s.modPage k f).stepDone = s.stepDone := rfl
@[simp] theorem State.modPage_adjAt : (s.modPage k f).adjAt = s.adjAt := rfl
@[simp] theorem State.modPage_joinDue : (s.modPage k f).joinDue = s.joinDue := rfl
@[simp] theorem State.modPage_joinCnt : (s.modPage k f).joinCnt = s.joinCnt := rfl
@[simp] theorem State.modPage_joinOk : (s.modPage k f).joinOk = s.joinOk := rfl
@[simp] theorem State.modPage_trgPin : (s.modPage k f).trgPin = s.trgPin := rfl
@[simp] theorem State.modPage_trgLocal : (s.modPage k f).trgLocal = s.trgLocal := rfl
@[simp] theorem State.modPage_trgSeen : (s.modPage k f).trgSeen = s.trgSeen := rfl
@[simp] theorem State.modPage_trgAt : (s.modPage k f).trgAt = s.trgAt := rfl
@[simp] theorem State.modPage_trgQ : (s.modPage k f).trgQ = s.trgQ := rfl
@[simp] theorem State.modPage_trgDone : (s.modPage k f).trgDone = s.trgDone := rfl
@[simp] theorem State.modPage_nodeGap : (s.modPage k f).nodeGap = s.nodeGap := rfl
@[simp] theorem State.modPage_dlks : (s.modPage k f).dlks = s.dlks := rfl
@[simp] theorem State.modPage_txq : (s.modPage k f).txq = s.txq := rfl
@[simp] theorem State.modPage_hostOut : (s.modPage k f).hostOut = s.hostOut := rfl
@[simp] theorem State.modPage_hsp : (s.modPage k f).hsp = s.hsp := rfl
@[simp] theorem State.modPage_msps : (s.modPage k f).msps = s.msps := rfl
@[simp] theorem State.modPage_psps : (s.modPage k f).psps = s.psps := rfl
@[simp] theorem State.modPage_ethTbl : (s.modPage k f).ethTbl = s.ethTbl := rfl
@[simp] theorem State.modPage_ethOut : (s.modPage k f).ethOut = s.ethOut := rfl
@[simp] theorem State.modPage_apRestart : (s.modPage k f).apRestart = s.apRestart := rfl
@[simp] theorem State.modPage_apHalt : (s.modPage k f).apHalt = s.apHalt := rfl
@[simp] theorem State.modPage_dbgHalt : (s.modPage k f).dbgHalt = s.dbgHalt := rfl
@[simp] theorem State.modPage_cans : (s.modPage k f).cans = s.cans := rfl
@[simp] theorem State.modPage_dio : (s.modPage k f).dio = s.dio := rfl
@[simp] theorem State.modPage_otp : (s.modPage k f).otp = s.otp := rfl
@[simp] theorem State.modPage_keys : (s.modPage k f).keys = s.keys := rfl
@[simp] theorem State.modPage_runVer : (s.modPage k f).runVer = s.runVer := rfl
@[simp] theorem State.modPage_failAt : (s.modPage k f).failAt = s.failAt := rfl
@[simp] theorem State.modPage_tampLog : (s.modPage k f).tampLog = s.tampLog := rfl
@[simp] theorem State.modPage_vbatBase : (s.modPage k f).vbatBase = s.vbatBase := rfl
@[simp] theorem State.modPage_jtag : (s.modPage k f).jtag = s.jtag := rfl
@[simp] theorem State.modPage_swOff : (s.modPage k f).swOff = s.swOff := rfl
@[simp] theorem State.modPage_swOn : (s.modPage k f).swOn = s.swOn := rfl
@[simp] theorem State.modPage_trained : (s.modPage k f).trained = s.trained := rfl
@[simp] theorem State.modPage_padIn : (s.modPage k f).padIn = s.padIn := rfl
@[simp] theorem State.modPage_histQ : (s.modPage k f).histQ = s.histQ := rfl
@[simp] theorem State.modPage_histLost : (s.modPage k f).histLost = s.histLost := rfl
@[simp] theorem State.modPage_resp : (s.modPage k f).resp = s.resp := rfl
@[simp] theorem State.modPage_seed : (s.modPage k f).seed = s.seed := rfl
@[simp] theorem State.modPage_pending : (s.modPage k f).pending = s.pending := rfl

/-! ## What the passing of time and a free value leave -/

@[simp] theorem State.at_now : (s.at t).now = max s.now t := rfl
@[simp] theorem State.at_stepSum : (s.at t).stepSum = s.stepSum := rfl
@[simp] theorem State.at_lastStep : (s.at t).lastStep = s.lastStep := rfl
@[simp] theorem State.at_dom : (s.at t).dom = s.dom := rfl
@[simp] theorem State.at_pages : (s.at t).pages = s.pages := rfl
@[simp] theorem State.at_sigs : (s.at t).sigs = s.sigs := rfl
@[simp] theorem State.at_slots : (s.at t).slots = s.slots := rfl
@[simp] theorem State.at_recCnt : (s.at t).recCnt = s.recCnt := rfl
@[simp] theorem State.at_mem : (s.at t).mem = s.mem := rfl
@[simp] theorem State.at_frc : (s.at t).frc = s.frc := rfl
@[simp] theorem State.at_frcKeep : (s.at t).frcKeep = s.frcKeep := rfl
@[simp] theorem State.at_flog : (s.at t).flog = s.flog := rfl
@[simp] theorem State.at_holds : (s.at t).holds = s.holds := rfl
@[simp] theorem State.at_recDue : (s.at t).recDue = s.recDue := rfl
@[simp] theorem State.at_fabLog : (s.at t).fabLog = s.fabLog := rfl
@[simp] theorem State.at_irqMap : (s.at t).irqMap = s.irqMap := rfl
@[simp] theorem State.at_irqOn : (s.at t).irqOn = s.irqOn := rfl
@[simp] theorem State.at_msixTbl : (s.at t).msixTbl = s.msixTbl := rfl
@[simp] theorem State.at_msixPend : (s.at t).msixPend = s.msixPend := rfl
@[simp] theorem State.at_msixMask : (s.at t).msixMask = s.msixMask := rfl
@[simp] theorem State.at_msixSent : (s.at t).msixSent = s.msixSent := rfl
@[simp] theorem State.at_encs : (s.at t).encs = s.encs := rfl
@[simp] theorem State.at_ssns : (s.at t).ssns = s.ssns := rfl
@[simp] theorem State.at_pcmps : (s.at t).pcmps = s.pcmps := rfl
@[simp] theorem State.at_steps : (s.at t).steps = s.steps := rfl
@[simp] theorem State.at_axes : (s.at t).axes = s.axes := rfl
@[simp] theorem State.at_prkSel : (s.at t).prkSel = s.prkSel := rfl
@[simp] theorem State.at_scrubAt : (s.at t).scrubAt = s.scrubAt := rfl
@[simp] theorem State.at_img1 : (s.at t).img1 = s.img1 := rfl
@[simp] theorem State.at_img2 : (s.at t).img2 = s.img2 := rfl
@[simp] theorem State.at_ustp : (s.at t).ustp = s.ustp := rfl
@[simp] theorem State.at_lcs : (s.at t).lcs = s.lcs := rfl
@[simp] theorem State.at_lschTick : (s.at t).lschTick = s.lschTick := rfl
@[simp] theorem State.at_lschT0 : (s.at t).lschT0 = s.lschT0 := rfl
@[simp] theorem State.at_lschZero : (s.at t).lschZero = s.lschZero := rfl
@[simp] theorem State.at_taskFlags : (s.at t).taskFlags = s.taskFlags := rfl
@[simp] theorem State.at_lschOp : (s.at t).lschOp = s.lschOp := rfl
@[simp] theorem State.at_lschFoQ : (s.at t).lschFoQ = s.lschFoQ := rfl
@[simp] theorem State.at_cslots : (s.at t).cslots = s.cslots := rfl
@[simp] theorem State.at_ceQ : (s.at t).ceQ = s.ceQ := rfl
@[simp] theorem State.at_pwms : (s.at t).pwms = s.pwms := rfl
@[simp] theorem State.at_finRaw : (s.at t).finRaw = s.finRaw := rfl
@[simp] theorem State.at_pwmClkLost : (s.at t).pwmClkLost = s.pwmClkLost := rfl
@[simp] theorem State.at_pwmPads : (s.at t).pwmPads = s.pwmPads := rfl
@[simp] theorem State.at_fchs : (s.at t).fchs = s.fchs := rfl
@[simp] theorem State.at_fcgs : (s.at t).fcgs = s.fcgs := rfl
@[simp] theorem State.at_pcvs : (s.at t).pcvs = s.pcvs := rfl
@[simp] theorem State.at_les : (s.at t).les = s.les := rfl
@[simp] theorem State.at_rseqs : (s.at t).rseqs = s.rseqs := rfl
@[simp] theorem State.at_acqs : (s.at t).acqs = s.acqs := rfl
@[simp] theorem State.at_sigCopy : (s.at t).sigCopy = s.sigCopy := rfl
@[simp] theorem State.at_sigLoad : (s.at t).sigLoad = s.sigLoad := rfl
@[simp] theorem State.at_histPos : (s.at t).histPos = s.histPos := rfl
@[simp] theorem State.at_histCnt : (s.at t).histCnt = s.histCnt := rfl
@[simp] theorem State.at_histWrap : (s.at t).histWrap = s.histWrap := rfl
@[simp] theorem State.at_histSec : (s.at t).histSec = s.histSec := rfl
@[simp] theorem State.at_recExp : (s.at t).recExp = s.recExp := rfl
@[simp] theorem State.at_part : (s.at t).part = s.part := rfl
@[simp] theorem State.at_tickAt : (s.at t).tickAt = s.tickAt := rfl
@[simp] theorem State.at_timeStep : (s.at t).timeStep = s.timeStep := rfl
@[simp] theorem State.at_stepDone : (s.at t).stepDone = s.stepDone := rfl
@[simp] theorem State.at_adjAt : (s.at t).adjAt = s.adjAt := rfl
@[simp] theorem State.at_joinDue : (s.at t).joinDue = s.joinDue := rfl
@[simp] theorem State.at_joinCnt : (s.at t).joinCnt = s.joinCnt := rfl
@[simp] theorem State.at_joinOk : (s.at t).joinOk = s.joinOk := rfl
@[simp] theorem State.at_trgPin : (s.at t).trgPin = s.trgPin := rfl
@[simp] theorem State.at_trgLocal : (s.at t).trgLocal = s.trgLocal := rfl
@[simp] theorem State.at_trgSeen : (s.at t).trgSeen = s.trgSeen := rfl
@[simp] theorem State.at_trgAt : (s.at t).trgAt = s.trgAt := rfl
@[simp] theorem State.at_trgQ : (s.at t).trgQ = s.trgQ := rfl
@[simp] theorem State.at_trgDone : (s.at t).trgDone = s.trgDone := rfl
@[simp] theorem State.at_nodeGap : (s.at t).nodeGap = s.nodeGap := rfl
@[simp] theorem State.at_dlks : (s.at t).dlks = s.dlks := rfl
@[simp] theorem State.at_txq : (s.at t).txq = s.txq := rfl
@[simp] theorem State.at_hostOut : (s.at t).hostOut = s.hostOut := rfl
@[simp] theorem State.at_hsp : (s.at t).hsp = s.hsp := rfl
@[simp] theorem State.at_msps : (s.at t).msps = s.msps := rfl
@[simp] theorem State.at_psps : (s.at t).psps = s.psps := rfl
@[simp] theorem State.at_ethTbl : (s.at t).ethTbl = s.ethTbl := rfl
@[simp] theorem State.at_ethOut : (s.at t).ethOut = s.ethOut := rfl
@[simp] theorem State.at_apRestart : (s.at t).apRestart = s.apRestart := rfl
@[simp] theorem State.at_apHalt : (s.at t).apHalt = s.apHalt := rfl
@[simp] theorem State.at_dbgHalt : (s.at t).dbgHalt = s.dbgHalt := rfl
@[simp] theorem State.at_cans : (s.at t).cans = s.cans := rfl
@[simp] theorem State.at_dio : (s.at t).dio = s.dio := rfl
@[simp] theorem State.at_otp : (s.at t).otp = s.otp := rfl
@[simp] theorem State.at_keys : (s.at t).keys = s.keys := rfl
@[simp] theorem State.at_runVer : (s.at t).runVer = s.runVer := rfl
@[simp] theorem State.at_failAt : (s.at t).failAt = s.failAt := rfl
@[simp] theorem State.at_tampLog : (s.at t).tampLog = s.tampLog := rfl
@[simp] theorem State.at_vbatBase : (s.at t).vbatBase = s.vbatBase := rfl
@[simp] theorem State.at_jtag : (s.at t).jtag = s.jtag := rfl
@[simp] theorem State.at_swOff : (s.at t).swOff = s.swOff := rfl
@[simp] theorem State.at_swOn : (s.at t).swOn = s.swOn := rfl
@[simp] theorem State.at_trained : (s.at t).trained = s.trained := rfl
@[simp] theorem State.at_padIn : (s.at t).padIn = s.padIn := rfl
@[simp] theorem State.at_histQ : (s.at t).histQ = s.histQ := rfl
@[simp] theorem State.at_histLost : (s.at t).histLost = s.histLost := rfl
@[simp] theorem State.at_resp : (s.at t).resp = s.resp := rfl
@[simp] theorem State.at_seed : (s.at t).seed = s.seed := rfl
@[simp] theorem State.at_pending : (s.at t).pending = s.pending := rfl
@[simp] theorem State.at_page : (s.at t).page k = s.page k := rfl

@[simp] theorem State.next_now : (s.next).now = s.now := rfl
@[simp] theorem State.next_stepSum : (s.next).stepSum = s.stepSum := rfl
@[simp] theorem State.next_lastStep : (s.next).lastStep = s.lastStep := rfl
@[simp] theorem State.next_dom : (s.next).dom = s.dom := rfl
@[simp] theorem State.next_pages : (s.next).pages = s.pages := rfl
@[simp] theorem State.next_sigs : (s.next).sigs = s.sigs := rfl
@[simp] theorem State.next_slots : (s.next).slots = s.slots := rfl
@[simp] theorem State.next_recCnt : (s.next).recCnt = s.recCnt := rfl
@[simp] theorem State.next_mem : (s.next).mem = s.mem := rfl
@[simp] theorem State.next_frc : (s.next).frc = s.frc := rfl
@[simp] theorem State.next_frcKeep : (s.next).frcKeep = s.frcKeep := rfl
@[simp] theorem State.next_flog : (s.next).flog = s.flog := rfl
@[simp] theorem State.next_holds : (s.next).holds = s.holds := rfl
@[simp] theorem State.next_recDue : (s.next).recDue = s.recDue := rfl
@[simp] theorem State.next_fabLog : (s.next).fabLog = s.fabLog := rfl
@[simp] theorem State.next_irqMap : (s.next).irqMap = s.irqMap := rfl
@[simp] theorem State.next_irqOn : (s.next).irqOn = s.irqOn := rfl
@[simp] theorem State.next_msixTbl : (s.next).msixTbl = s.msixTbl := rfl
@[simp] theorem State.next_msixPend : (s.next).msixPend = s.msixPend := rfl
@[simp] theorem State.next_msixMask : (s.next).msixMask = s.msixMask := rfl
@[simp] theorem State.next_msixSent : (s.next).msixSent = s.msixSent := rfl
@[simp] theorem State.next_encs : (s.next).encs = s.encs := rfl
@[simp] theorem State.next_ssns : (s.next).ssns = s.ssns := rfl
@[simp] theorem State.next_pcmps : (s.next).pcmps = s.pcmps := rfl
@[simp] theorem State.next_steps : (s.next).steps = s.steps := rfl
@[simp] theorem State.next_axes : (s.next).axes = s.axes := rfl
@[simp] theorem State.next_prkSel : (s.next).prkSel = s.prkSel := rfl
@[simp] theorem State.next_scrubAt : (s.next).scrubAt = s.scrubAt := rfl
@[simp] theorem State.next_img1 : (s.next).img1 = s.img1 := rfl
@[simp] theorem State.next_img2 : (s.next).img2 = s.img2 := rfl
@[simp] theorem State.next_ustp : (s.next).ustp = s.ustp := rfl
@[simp] theorem State.next_lcs : (s.next).lcs = s.lcs := rfl
@[simp] theorem State.next_lschTick : (s.next).lschTick = s.lschTick := rfl
@[simp] theorem State.next_lschT0 : (s.next).lschT0 = s.lschT0 := rfl
@[simp] theorem State.next_lschZero : (s.next).lschZero = s.lschZero := rfl
@[simp] theorem State.next_taskFlags : (s.next).taskFlags = s.taskFlags := rfl
@[simp] theorem State.next_lschOp : (s.next).lschOp = s.lschOp := rfl
@[simp] theorem State.next_lschFoQ : (s.next).lschFoQ = s.lschFoQ := rfl
@[simp] theorem State.next_cslots : (s.next).cslots = s.cslots := rfl
@[simp] theorem State.next_ceQ : (s.next).ceQ = s.ceQ := rfl
@[simp] theorem State.next_pwms : (s.next).pwms = s.pwms := rfl
@[simp] theorem State.next_finRaw : (s.next).finRaw = s.finRaw := rfl
@[simp] theorem State.next_pwmClkLost : (s.next).pwmClkLost = s.pwmClkLost := rfl
@[simp] theorem State.next_pwmPads : (s.next).pwmPads = s.pwmPads := rfl
@[simp] theorem State.next_fchs : (s.next).fchs = s.fchs := rfl
@[simp] theorem State.next_fcgs : (s.next).fcgs = s.fcgs := rfl
@[simp] theorem State.next_pcvs : (s.next).pcvs = s.pcvs := rfl
@[simp] theorem State.next_les : (s.next).les = s.les := rfl
@[simp] theorem State.next_rseqs : (s.next).rseqs = s.rseqs := rfl
@[simp] theorem State.next_acqs : (s.next).acqs = s.acqs := rfl
@[simp] theorem State.next_sigCopy : (s.next).sigCopy = s.sigCopy := rfl
@[simp] theorem State.next_sigLoad : (s.next).sigLoad = s.sigLoad := rfl
@[simp] theorem State.next_histPos : (s.next).histPos = s.histPos := rfl
@[simp] theorem State.next_histCnt : (s.next).histCnt = s.histCnt := rfl
@[simp] theorem State.next_histWrap : (s.next).histWrap = s.histWrap := rfl
@[simp] theorem State.next_histSec : (s.next).histSec = s.histSec := rfl
@[simp] theorem State.next_recExp : (s.next).recExp = s.recExp := rfl
@[simp] theorem State.next_part : (s.next).part = s.part := rfl
@[simp] theorem State.next_tickAt : (s.next).tickAt = s.tickAt := rfl
@[simp] theorem State.next_timeStep : (s.next).timeStep = s.timeStep := rfl
@[simp] theorem State.next_stepDone : (s.next).stepDone = s.stepDone := rfl
@[simp] theorem State.next_adjAt : (s.next).adjAt = s.adjAt := rfl
@[simp] theorem State.next_joinDue : (s.next).joinDue = s.joinDue := rfl
@[simp] theorem State.next_joinCnt : (s.next).joinCnt = s.joinCnt := rfl
@[simp] theorem State.next_joinOk : (s.next).joinOk = s.joinOk := rfl
@[simp] theorem State.next_trgPin : (s.next).trgPin = s.trgPin := rfl
@[simp] theorem State.next_trgLocal : (s.next).trgLocal = s.trgLocal := rfl
@[simp] theorem State.next_trgSeen : (s.next).trgSeen = s.trgSeen := rfl
@[simp] theorem State.next_trgAt : (s.next).trgAt = s.trgAt := rfl
@[simp] theorem State.next_trgQ : (s.next).trgQ = s.trgQ := rfl
@[simp] theorem State.next_trgDone : (s.next).trgDone = s.trgDone := rfl
@[simp] theorem State.next_nodeGap : (s.next).nodeGap = s.nodeGap := rfl
@[simp] theorem State.next_dlks : (s.next).dlks = s.dlks := rfl
@[simp] theorem State.next_txq : (s.next).txq = s.txq := rfl
@[simp] theorem State.next_hostOut : (s.next).hostOut = s.hostOut := rfl
@[simp] theorem State.next_hsp : (s.next).hsp = s.hsp := rfl
@[simp] theorem State.next_msps : (s.next).msps = s.msps := rfl
@[simp] theorem State.next_psps : (s.next).psps = s.psps := rfl
@[simp] theorem State.next_ethTbl : (s.next).ethTbl = s.ethTbl := rfl
@[simp] theorem State.next_ethOut : (s.next).ethOut = s.ethOut := rfl
@[simp] theorem State.next_apRestart : (s.next).apRestart = s.apRestart := rfl
@[simp] theorem State.next_apHalt : (s.next).apHalt = s.apHalt := rfl
@[simp] theorem State.next_dbgHalt : (s.next).dbgHalt = s.dbgHalt := rfl
@[simp] theorem State.next_cans : (s.next).cans = s.cans := rfl
@[simp] theorem State.next_dio : (s.next).dio = s.dio := rfl
@[simp] theorem State.next_otp : (s.next).otp = s.otp := rfl
@[simp] theorem State.next_keys : (s.next).keys = s.keys := rfl
@[simp] theorem State.next_runVer : (s.next).runVer = s.runVer := rfl
@[simp] theorem State.next_failAt : (s.next).failAt = s.failAt := rfl
@[simp] theorem State.next_tampLog : (s.next).tampLog = s.tampLog := rfl
@[simp] theorem State.next_vbatBase : (s.next).vbatBase = s.vbatBase := rfl
@[simp] theorem State.next_jtag : (s.next).jtag = s.jtag := rfl
@[simp] theorem State.next_swOff : (s.next).swOff = s.swOff := rfl
@[simp] theorem State.next_swOn : (s.next).swOn = s.swOn := rfl
@[simp] theorem State.next_trained : (s.next).trained = s.trained := rfl
@[simp] theorem State.next_padIn : (s.next).padIn = s.padIn := rfl
@[simp] theorem State.next_histQ : (s.next).histQ = s.histQ := rfl
@[simp] theorem State.next_histLost : (s.next).histLost = s.histLost := rfl
@[simp] theorem State.next_resp : (s.next).resp = s.resp := rfl
@[simp] theorem State.next_seed : (s.next).seed = s.seed + 1 := rfl
@[simp] theorem State.next_pending : (s.next).pending = s.pending := rfl
@[simp] theorem State.next_page : (s.next).page k = s.page k := rfl

end

/-! ## `setEnc` -/

section
variable (s : State) (n n' k : Nat) (e : EncSt) (p : Page) (f : Page → Page)

/-- What a record reads after one was replaced. -/
@[simp] theorem encOf_setEnc : encOf (setEnc s n e) n' = if n' = n then e else encOf s n' := by
  simp [encOf, setEnc]

@[simp] theorem setEnc_page : (setEnc s n e).page k = s.page k := rfl
@[simp] theorem encOf_setPage : encOf (s.setPage k p) n = encOf s n := rfl
@[simp] theorem encOf_modPage : encOf (s.modPage k f) n = encOf s n := rfl
@[simp] theorem encOf_at : encOf (s.at k) n = encOf s n := rfl
@[simp] theorem encOf_next : encOf s.next n = encOf s n := rfl
@[simp] theorem setEnc_now : (setEnc s n e).now = s.now := rfl
@[simp] theorem setEnc_stepSum : (setEnc s n e).stepSum = s.stepSum := rfl
@[simp] theorem setEnc_lastStep : (setEnc s n e).lastStep = s.lastStep := rfl
@[simp] theorem setEnc_dom : (setEnc s n e).dom = s.dom := rfl
@[simp] theorem setEnc_pages : (setEnc s n e).pages = s.pages := rfl
@[simp] theorem setEnc_sigs : (setEnc s n e).sigs = s.sigs := rfl
@[simp] theorem setEnc_slots : (setEnc s n e).slots = s.slots := rfl
@[simp] theorem setEnc_mem : (setEnc s n e).mem = s.mem := rfl
@[simp] theorem setEnc_irqMap : (setEnc s n e).irqMap = s.irqMap := rfl
@[simp] theorem setEnc_irqOn : (setEnc s n e).irqOn = s.irqOn := rfl
@[simp] theorem setEnc_msixSent : (setEnc s n e).msixSent = s.msixSent := rfl
@[simp] theorem setEnc_seed : (setEnc s n e).seed = s.seed := rfl
@[simp] theorem setEnc_pending : (setEnc s n e).pending = s.pending := rfl
@[simp] theorem setEnc_resp : (setEnc s n e).resp = s.resp := rfl
@[simp] theorem setEnc_holds : (setEnc s n e).holds = s.holds := rfl
@[simp] theorem setEnc_flog : (setEnc s n e).flog = s.flog := rfl
@[simp] theorem setEnc_frc : (setEnc s n e).frc = s.frc := rfl

end

/-! ## `setSsn` -/

section
variable (s : State) (n n' k : Nat) (e : SsnSt) (p : Page) (f : Page → Page)

/-- What a record reads after one was replaced. -/
@[simp] theorem ssnOf_setSsn : ssnOf (setSsn s n e) n' = if n' = n then e else ssnOf s n' := by
  simp [ssnOf, setSsn]

@[simp] theorem setSsn_page : (setSsn s n e).page k = s.page k := rfl
@[simp] theorem ssnOf_setPage : ssnOf (s.setPage k p) n = ssnOf s n := rfl
@[simp] theorem ssnOf_modPage : ssnOf (s.modPage k f) n = ssnOf s n := rfl
@[simp] theorem ssnOf_at : ssnOf (s.at k) n = ssnOf s n := rfl
@[simp] theorem ssnOf_next : ssnOf s.next n = ssnOf s n := rfl
@[simp] theorem setSsn_now : (setSsn s n e).now = s.now := rfl
@[simp] theorem setSsn_stepSum : (setSsn s n e).stepSum = s.stepSum := rfl
@[simp] theorem setSsn_lastStep : (setSsn s n e).lastStep = s.lastStep := rfl
@[simp] theorem setSsn_dom : (setSsn s n e).dom = s.dom := rfl
@[simp] theorem setSsn_pages : (setSsn s n e).pages = s.pages := rfl
@[simp] theorem setSsn_sigs : (setSsn s n e).sigs = s.sigs := rfl
@[simp] theorem setSsn_slots : (setSsn s n e).slots = s.slots := rfl
@[simp] theorem setSsn_mem : (setSsn s n e).mem = s.mem := rfl
@[simp] theorem setSsn_irqMap : (setSsn s n e).irqMap = s.irqMap := rfl
@[simp] theorem setSsn_irqOn : (setSsn s n e).irqOn = s.irqOn := rfl
@[simp] theorem setSsn_msixSent : (setSsn s n e).msixSent = s.msixSent := rfl
@[simp] theorem setSsn_seed : (setSsn s n e).seed = s.seed := rfl
@[simp] theorem setSsn_pending : (setSsn s n e).pending = s.pending := rfl
@[simp] theorem setSsn_resp : (setSsn s n e).resp = s.resp := rfl
@[simp] theorem setSsn_holds : (setSsn s n e).holds = s.holds := rfl
@[simp] theorem setSsn_flog : (setSsn s n e).flog = s.flog := rfl
@[simp] theorem setSsn_frc : (setSsn s n e).frc = s.frc := rfl

end

/-! ## `setPcmp` -/

section
variable (s : State) (n n' k : Nat) (e : PcmpSt) (p : Page) (f : Page → Page)

/-- What a record reads after one was replaced. -/
@[simp] theorem pcmpOf_setPcmp : pcmpOf (setPcmp s n e) n' = if n' = n then e else pcmpOf s n' := by
  simp [pcmpOf, setPcmp]

@[simp] theorem setPcmp_page : (setPcmp s n e).page k = s.page k := rfl
@[simp] theorem pcmpOf_setPage : pcmpOf (s.setPage k p) n = pcmpOf s n := rfl
@[simp] theorem pcmpOf_modPage : pcmpOf (s.modPage k f) n = pcmpOf s n := rfl
@[simp] theorem pcmpOf_at : pcmpOf (s.at k) n = pcmpOf s n := rfl
@[simp] theorem pcmpOf_next : pcmpOf s.next n = pcmpOf s n := rfl
@[simp] theorem setPcmp_now : (setPcmp s n e).now = s.now := rfl
@[simp] theorem setPcmp_stepSum : (setPcmp s n e).stepSum = s.stepSum := rfl
@[simp] theorem setPcmp_lastStep : (setPcmp s n e).lastStep = s.lastStep := rfl
@[simp] theorem setPcmp_dom : (setPcmp s n e).dom = s.dom := rfl
@[simp] theorem setPcmp_pages : (setPcmp s n e).pages = s.pages := rfl
@[simp] theorem setPcmp_sigs : (setPcmp s n e).sigs = s.sigs := rfl
@[simp] theorem setPcmp_slots : (setPcmp s n e).slots = s.slots := rfl
@[simp] theorem setPcmp_mem : (setPcmp s n e).mem = s.mem := rfl
@[simp] theorem setPcmp_irqMap : (setPcmp s n e).irqMap = s.irqMap := rfl
@[simp] theorem setPcmp_irqOn : (setPcmp s n e).irqOn = s.irqOn := rfl
@[simp] theorem setPcmp_msixSent : (setPcmp s n e).msixSent = s.msixSent := rfl
@[simp] theorem setPcmp_seed : (setPcmp s n e).seed = s.seed := rfl
@[simp] theorem setPcmp_pending : (setPcmp s n e).pending = s.pending := rfl
@[simp] theorem setPcmp_resp : (setPcmp s n e).resp = s.resp := rfl
@[simp] theorem setPcmp_holds : (setPcmp s n e).holds = s.holds := rfl
@[simp] theorem setPcmp_flog : (setPcmp s n e).flog = s.flog := rfl
@[simp] theorem setPcmp_frc : (setPcmp s n e).frc = s.frc := rfl

end

/-! ## `setStep` -/

section
variable (s : State) (n n' k : Nat) (e : StepSt) (p : Page) (f : Page → Page)

/-- What a record reads after one was replaced. -/
@[simp] theorem stepOf_setStep : stepOf (setStep s n e) n' = if n' = n then e else stepOf s n' := by
  simp [stepOf, setStep]

@[simp] theorem setStep_page : (setStep s n e).page k = s.page k := rfl
@[simp] theorem stepOf_setPage : stepOf (s.setPage k p) n = stepOf s n := rfl
@[simp] theorem stepOf_modPage : stepOf (s.modPage k f) n = stepOf s n := rfl
@[simp] theorem stepOf_at : stepOf (s.at k) n = stepOf s n := rfl
@[simp] theorem stepOf_next : stepOf s.next n = stepOf s n := rfl
@[simp] theorem setStep_now : (setStep s n e).now = s.now := rfl
@[simp] theorem setStep_stepSum : (setStep s n e).stepSum = s.stepSum := rfl
@[simp] theorem setStep_lastStep : (setStep s n e).lastStep = s.lastStep := rfl
@[simp] theorem setStep_dom : (setStep s n e).dom = s.dom := rfl
@[simp] theorem setStep_pages : (setStep s n e).pages = s.pages := rfl
@[simp] theorem setStep_sigs : (setStep s n e).sigs = s.sigs := rfl
@[simp] theorem setStep_slots : (setStep s n e).slots = s.slots := rfl
@[simp] theorem setStep_mem : (setStep s n e).mem = s.mem := rfl
@[simp] theorem setStep_irqMap : (setStep s n e).irqMap = s.irqMap := rfl
@[simp] theorem setStep_irqOn : (setStep s n e).irqOn = s.irqOn := rfl
@[simp] theorem setStep_msixSent : (setStep s n e).msixSent = s.msixSent := rfl
@[simp] theorem setStep_seed : (setStep s n e).seed = s.seed := rfl
@[simp] theorem setStep_pending : (setStep s n e).pending = s.pending := rfl
@[simp] theorem setStep_resp : (setStep s n e).resp = s.resp := rfl
@[simp] theorem setStep_holds : (setStep s n e).holds = s.holds := rfl
@[simp] theorem setStep_flog : (setStep s n e).flog = s.flog := rfl
@[simp] theorem setStep_frc : (setStep s n e).frc = s.frc := rfl

end

/-! ## `setAxis` -/

section
variable (s : State) (n n' k : Nat) (e : AxisSt) (p : Page) (f : Page → Page)

/-- What a record reads after one was replaced. -/
@[simp] theorem axisOf_setAxis : axisOf (setAxis s n e) n' = if n' = n then e else axisOf s n' := by
  simp [axisOf, setAxis]

@[simp] theorem setAxis_page : (setAxis s n e).page k = s.page k := rfl
@[simp] theorem axisOf_setPage : axisOf (s.setPage k p) n = axisOf s n := rfl
@[simp] theorem axisOf_modPage : axisOf (s.modPage k f) n = axisOf s n := rfl
@[simp] theorem axisOf_at : axisOf (s.at k) n = axisOf s n := rfl
@[simp] theorem axisOf_next : axisOf s.next n = axisOf s n := rfl
@[simp] theorem setAxis_now : (setAxis s n e).now = s.now := rfl
@[simp] theorem setAxis_stepSum : (setAxis s n e).stepSum = s.stepSum := rfl
@[simp] theorem setAxis_lastStep : (setAxis s n e).lastStep = s.lastStep := rfl
@[simp] theorem setAxis_dom : (setAxis s n e).dom = s.dom := rfl
@[simp] theorem setAxis_pages : (setAxis s n e).pages = s.pages := rfl
@[simp] theorem setAxis_sigs : (setAxis s n e).sigs = s.sigs := rfl
@[simp] theorem setAxis_slots : (setAxis s n e).slots = s.slots := rfl
@[simp] theorem setAxis_mem : (setAxis s n e).mem = s.mem := rfl
@[simp] theorem setAxis_irqMap : (setAxis s n e).irqMap = s.irqMap := rfl
@[simp] theorem setAxis_irqOn : (setAxis s n e).irqOn = s.irqOn := rfl
@[simp] theorem setAxis_msixSent : (setAxis s n e).msixSent = s.msixSent := rfl
@[simp] theorem setAxis_seed : (setAxis s n e).seed = s.seed := rfl
@[simp] theorem setAxis_pending : (setAxis s n e).pending = s.pending := rfl
@[simp] theorem setAxis_resp : (setAxis s n e).resp = s.resp := rfl
@[simp] theorem setAxis_holds : (setAxis s n e).holds = s.holds := rfl
@[simp] theorem setAxis_flog : (setAxis s n e).flog = s.flog := rfl
@[simp] theorem setAxis_frc : (setAxis s n e).frc = s.frc := rfl

end

/-! ## `setLc` -/

section
variable (s : State) (n n' k : Nat) (e : LcSt) (p : Page) (f : Page → Page)

/-- What a record reads after one was replaced. -/
@[simp] theorem lcOf_setLc : lcOf (setLc s n e) n' = if n' = n then e else lcOf s n' := by
  simp [lcOf, setLc]

@[simp] theorem setLc_page : (setLc s n e).page k = s.page k := rfl
@[simp] theorem lcOf_setPage : lcOf (s.setPage k p) n = lcOf s n := rfl
@[simp] theorem lcOf_modPage : lcOf (s.modPage k f) n = lcOf s n := rfl
@[simp] theorem lcOf_at : lcOf (s.at k) n = lcOf s n := rfl
@[simp] theorem lcOf_next : lcOf s.next n = lcOf s n := rfl
@[simp] theorem setLc_now : (setLc s n e).now = s.now := rfl
@[simp] theorem setLc_stepSum : (setLc s n e).stepSum = s.stepSum := rfl
@[simp] theorem setLc_lastStep : (setLc s n e).lastStep = s.lastStep := rfl
@[simp] theorem setLc_dom : (setLc s n e).dom = s.dom := rfl
@[simp] theorem setLc_pages : (setLc s n e).pages = s.pages := rfl
@[simp] theorem setLc_sigs : (setLc s n e).sigs = s.sigs := rfl
@[simp] theorem setLc_slots : (setLc s n e).slots = s.slots := rfl
@[simp] theorem setLc_mem : (setLc s n e).mem = s.mem := rfl
@[simp] theorem setLc_irqMap : (setLc s n e).irqMap = s.irqMap := rfl
@[simp] theorem setLc_irqOn : (setLc s n e).irqOn = s.irqOn := rfl
@[simp] theorem setLc_msixSent : (setLc s n e).msixSent = s.msixSent := rfl
@[simp] theorem setLc_seed : (setLc s n e).seed = s.seed := rfl
@[simp] theorem setLc_pending : (setLc s n e).pending = s.pending := rfl
@[simp] theorem setLc_resp : (setLc s n e).resp = s.resp := rfl
@[simp] theorem setLc_holds : (setLc s n e).holds = s.holds := rfl
@[simp] theorem setLc_flog : (setLc s n e).flog = s.flog := rfl
@[simp] theorem setLc_frc : (setLc s n e).frc = s.frc := rfl

end

/-! ## `setCslot` -/

section
variable (s : State) (n n' k : Nat) (e : CslotSt) (p : Page) (f : Page → Page)

/-- What a record reads after one was replaced. -/
@[simp] theorem cslotOf_setCslot : cslotOf (setCslot s n e) n' = if n' = n then e else cslotOf s n' := by
  simp [cslotOf, setCslot]

@[simp] theorem setCslot_page : (setCslot s n e).page k = s.page k := rfl
@[simp] theorem cslotOf_setPage : cslotOf (s.setPage k p) n = cslotOf s n := rfl
@[simp] theorem cslotOf_modPage : cslotOf (s.modPage k f) n = cslotOf s n := rfl
@[simp] theorem cslotOf_at : cslotOf (s.at k) n = cslotOf s n := rfl
@[simp] theorem cslotOf_next : cslotOf s.next n = cslotOf s n := rfl
@[simp] theorem setCslot_now : (setCslot s n e).now = s.now := rfl
@[simp] theorem setCslot_stepSum : (setCslot s n e).stepSum = s.stepSum := rfl
@[simp] theorem setCslot_lastStep : (setCslot s n e).lastStep = s.lastStep := rfl
@[simp] theorem setCslot_dom : (setCslot s n e).dom = s.dom := rfl
@[simp] theorem setCslot_pages : (setCslot s n e).pages = s.pages := rfl
@[simp] theorem setCslot_sigs : (setCslot s n e).sigs = s.sigs := rfl
@[simp] theorem setCslot_slots : (setCslot s n e).slots = s.slots := rfl
@[simp] theorem setCslot_mem : (setCslot s n e).mem = s.mem := rfl
@[simp] theorem setCslot_irqMap : (setCslot s n e).irqMap = s.irqMap := rfl
@[simp] theorem setCslot_irqOn : (setCslot s n e).irqOn = s.irqOn := rfl
@[simp] theorem setCslot_msixSent : (setCslot s n e).msixSent = s.msixSent := rfl
@[simp] theorem setCslot_seed : (setCslot s n e).seed = s.seed := rfl
@[simp] theorem setCslot_pending : (setCslot s n e).pending = s.pending := rfl
@[simp] theorem setCslot_resp : (setCslot s n e).resp = s.resp := rfl
@[simp] theorem setCslot_holds : (setCslot s n e).holds = s.holds := rfl
@[simp] theorem setCslot_flog : (setCslot s n e).flog = s.flog := rfl
@[simp] theorem setCslot_frc : (setCslot s n e).frc = s.frc := rfl

end

/-! ## `setPwm` -/

section
variable (s : State) (n n' k : Nat) (e : PwmSt) (p : Page) (f : Page → Page)

/-- What a record reads after one was replaced. -/
@[simp] theorem pwmOf_setPwm : pwmOf (setPwm s n e) n' = if n' = n then e else pwmOf s n' := by
  simp [pwmOf, setPwm]

@[simp] theorem setPwm_page : (setPwm s n e).page k = s.page k := rfl
@[simp] theorem pwmOf_setPage : pwmOf (s.setPage k p) n = pwmOf s n := rfl
@[simp] theorem pwmOf_modPage : pwmOf (s.modPage k f) n = pwmOf s n := rfl
@[simp] theorem pwmOf_at : pwmOf (s.at k) n = pwmOf s n := rfl
@[simp] theorem pwmOf_next : pwmOf s.next n = pwmOf s n := rfl
@[simp] theorem setPwm_now : (setPwm s n e).now = s.now := rfl
@[simp] theorem setPwm_stepSum : (setPwm s n e).stepSum = s.stepSum := rfl
@[simp] theorem setPwm_lastStep : (setPwm s n e).lastStep = s.lastStep := rfl
@[simp] theorem setPwm_dom : (setPwm s n e).dom = s.dom := rfl
@[simp] theorem setPwm_pages : (setPwm s n e).pages = s.pages := rfl
@[simp] theorem setPwm_sigs : (setPwm s n e).sigs = s.sigs := rfl
@[simp] theorem setPwm_slots : (setPwm s n e).slots = s.slots := rfl
@[simp] theorem setPwm_mem : (setPwm s n e).mem = s.mem := rfl
@[simp] theorem setPwm_irqMap : (setPwm s n e).irqMap = s.irqMap := rfl
@[simp] theorem setPwm_irqOn : (setPwm s n e).irqOn = s.irqOn := rfl
@[simp] theorem setPwm_msixSent : (setPwm s n e).msixSent = s.msixSent := rfl
@[simp] theorem setPwm_seed : (setPwm s n e).seed = s.seed := rfl
@[simp] theorem setPwm_pending : (setPwm s n e).pending = s.pending := rfl
@[simp] theorem setPwm_resp : (setPwm s n e).resp = s.resp := rfl
@[simp] theorem setPwm_holds : (setPwm s n e).holds = s.holds := rfl
@[simp] theorem setPwm_flog : (setPwm s n e).flog = s.flog := rfl
@[simp] theorem setPwm_frc : (setPwm s n e).frc = s.frc := rfl

end

/-! ## `setFch` -/

section
variable (s : State) (n n' k : Nat) (e : FchSt) (p : Page) (f : Page → Page)

/-- What a record reads after one was replaced. -/
@[simp] theorem fchOf_setFch : fchOf (setFch s n e) n' = if n' = n then e else fchOf s n' := by
  simp [fchOf, setFch]

@[simp] theorem setFch_page : (setFch s n e).page k = s.page k := rfl
@[simp] theorem fchOf_setPage : fchOf (s.setPage k p) n = fchOf s n := rfl
@[simp] theorem fchOf_modPage : fchOf (s.modPage k f) n = fchOf s n := rfl
@[simp] theorem fchOf_at : fchOf (s.at k) n = fchOf s n := rfl
@[simp] theorem fchOf_next : fchOf s.next n = fchOf s n := rfl
@[simp] theorem setFch_now : (setFch s n e).now = s.now := rfl
@[simp] theorem setFch_stepSum : (setFch s n e).stepSum = s.stepSum := rfl
@[simp] theorem setFch_lastStep : (setFch s n e).lastStep = s.lastStep := rfl
@[simp] theorem setFch_dom : (setFch s n e).dom = s.dom := rfl
@[simp] theorem setFch_pages : (setFch s n e).pages = s.pages := rfl
@[simp] theorem setFch_sigs : (setFch s n e).sigs = s.sigs := rfl
@[simp] theorem setFch_slots : (setFch s n e).slots = s.slots := rfl
@[simp] theorem setFch_mem : (setFch s n e).mem = s.mem := rfl
@[simp] theorem setFch_irqMap : (setFch s n e).irqMap = s.irqMap := rfl
@[simp] theorem setFch_irqOn : (setFch s n e).irqOn = s.irqOn := rfl
@[simp] theorem setFch_msixSent : (setFch s n e).msixSent = s.msixSent := rfl
@[simp] theorem setFch_seed : (setFch s n e).seed = s.seed := rfl
@[simp] theorem setFch_pending : (setFch s n e).pending = s.pending := rfl
@[simp] theorem setFch_resp : (setFch s n e).resp = s.resp := rfl
@[simp] theorem setFch_holds : (setFch s n e).holds = s.holds := rfl
@[simp] theorem setFch_flog : (setFch s n e).flog = s.flog := rfl
@[simp] theorem setFch_frc : (setFch s n e).frc = s.frc := rfl

end

/-! ## `setFcg` -/

section
variable (s : State) (n n' k : Nat) (e : FcgSt) (p : Page) (f : Page → Page)

/-- What a record reads after one was replaced. -/
@[simp] theorem fcgOf_setFcg : fcgOf (setFcg s n e) n' = if n' = n then e else fcgOf s n' := by
  simp [fcgOf, setFcg]

@[simp] theorem setFcg_page : (setFcg s n e).page k = s.page k := rfl
@[simp] theorem fcgOf_setPage : fcgOf (s.setPage k p) n = fcgOf s n := rfl
@[simp] theorem fcgOf_modPage : fcgOf (s.modPage k f) n = fcgOf s n := rfl
@[simp] theorem fcgOf_at : fcgOf (s.at k) n = fcgOf s n := rfl
@[simp] theorem fcgOf_next : fcgOf s.next n = fcgOf s n := rfl
@[simp] theorem setFcg_now : (setFcg s n e).now = s.now := rfl
@[simp] theorem setFcg_stepSum : (setFcg s n e).stepSum = s.stepSum := rfl
@[simp] theorem setFcg_lastStep : (setFcg s n e).lastStep = s.lastStep := rfl
@[simp] theorem setFcg_dom : (setFcg s n e).dom = s.dom := rfl
@[simp] theorem setFcg_pages : (setFcg s n e).pages = s.pages := rfl
@[simp] theorem setFcg_sigs : (setFcg s n e).sigs = s.sigs := rfl
@[simp] theorem setFcg_slots : (setFcg s n e).slots = s.slots := rfl
@[simp] theorem setFcg_mem : (setFcg s n e).mem = s.mem := rfl
@[simp] theorem setFcg_irqMap : (setFcg s n e).irqMap = s.irqMap := rfl
@[simp] theorem setFcg_irqOn : (setFcg s n e).irqOn = s.irqOn := rfl
@[simp] theorem setFcg_msixSent : (setFcg s n e).msixSent = s.msixSent := rfl
@[simp] theorem setFcg_seed : (setFcg s n e).seed = s.seed := rfl
@[simp] theorem setFcg_pending : (setFcg s n e).pending = s.pending := rfl
@[simp] theorem setFcg_resp : (setFcg s n e).resp = s.resp := rfl
@[simp] theorem setFcg_holds : (setFcg s n e).holds = s.holds := rfl
@[simp] theorem setFcg_flog : (setFcg s n e).flog = s.flog := rfl
@[simp] theorem setFcg_frc : (setFcg s n e).frc = s.frc := rfl

end

/-! ## `setPcv` -/

section
variable (s : State) (n n' k : Nat) (e : PcvSt) (p : Page) (f : Page → Page)

/-- What a record reads after one was replaced. -/
@[simp] theorem pcvOf_setPcv : pcvOf (setPcv s n e) n' = if n' = n then e else pcvOf s n' := by
  simp [pcvOf, setPcv]

@[simp] theorem setPcv_page : (setPcv s n e).page k = s.page k := rfl
@[simp] theorem pcvOf_setPage : pcvOf (s.setPage k p) n = pcvOf s n := rfl
@[simp] theorem pcvOf_modPage : pcvOf (s.modPage k f) n = pcvOf s n := rfl
@[simp] theorem pcvOf_at : pcvOf (s.at k) n = pcvOf s n := rfl
@[simp] theorem pcvOf_next : pcvOf s.next n = pcvOf s n := rfl
@[simp] theorem setPcv_now : (setPcv s n e).now = s.now := rfl
@[simp] theorem setPcv_stepSum : (setPcv s n e).stepSum = s.stepSum := rfl
@[simp] theorem setPcv_lastStep : (setPcv s n e).lastStep = s.lastStep := rfl
@[simp] theorem setPcv_dom : (setPcv s n e).dom = s.dom := rfl
@[simp] theorem setPcv_pages : (setPcv s n e).pages = s.pages := rfl
@[simp] theorem setPcv_sigs : (setPcv s n e).sigs = s.sigs := rfl
@[simp] theorem setPcv_slots : (setPcv s n e).slots = s.slots := rfl
@[simp] theorem setPcv_mem : (setPcv s n e).mem = s.mem := rfl
@[simp] theorem setPcv_irqMap : (setPcv s n e).irqMap = s.irqMap := rfl
@[simp] theorem setPcv_irqOn : (setPcv s n e).irqOn = s.irqOn := rfl
@[simp] theorem setPcv_msixSent : (setPcv s n e).msixSent = s.msixSent := rfl
@[simp] theorem setPcv_seed : (setPcv s n e).seed = s.seed := rfl
@[simp] theorem setPcv_pending : (setPcv s n e).pending = s.pending := rfl
@[simp] theorem setPcv_resp : (setPcv s n e).resp = s.resp := rfl
@[simp] theorem setPcv_holds : (setPcv s n e).holds = s.holds := rfl
@[simp] theorem setPcv_flog : (setPcv s n e).flog = s.flog := rfl
@[simp] theorem setPcv_frc : (setPcv s n e).frc = s.frc := rfl

end

/-! ## `setLe` -/

section
variable (s : State) (n n' k : Nat) (e : LeSt) (p : Page) (f : Page → Page)

/-- What a record reads after one was replaced. -/
@[simp] theorem leOf_setLe : leOf (setLe s n e) n' = if n' = n then e else leOf s n' := by
  simp [leOf, setLe]

@[simp] theorem setLe_page : (setLe s n e).page k = s.page k := rfl
@[simp] theorem leOf_setPage : leOf (s.setPage k p) n = leOf s n := rfl
@[simp] theorem leOf_modPage : leOf (s.modPage k f) n = leOf s n := rfl
@[simp] theorem leOf_at : leOf (s.at k) n = leOf s n := rfl
@[simp] theorem leOf_next : leOf s.next n = leOf s n := rfl
@[simp] theorem setLe_now : (setLe s n e).now = s.now := rfl
@[simp] theorem setLe_stepSum : (setLe s n e).stepSum = s.stepSum := rfl
@[simp] theorem setLe_lastStep : (setLe s n e).lastStep = s.lastStep := rfl
@[simp] theorem setLe_dom : (setLe s n e).dom = s.dom := rfl
@[simp] theorem setLe_pages : (setLe s n e).pages = s.pages := rfl
@[simp] theorem setLe_sigs : (setLe s n e).sigs = s.sigs := rfl
@[simp] theorem setLe_slots : (setLe s n e).slots = s.slots := rfl
@[simp] theorem setLe_mem : (setLe s n e).mem = s.mem := rfl
@[simp] theorem setLe_irqMap : (setLe s n e).irqMap = s.irqMap := rfl
@[simp] theorem setLe_irqOn : (setLe s n e).irqOn = s.irqOn := rfl
@[simp] theorem setLe_msixSent : (setLe s n e).msixSent = s.msixSent := rfl
@[simp] theorem setLe_seed : (setLe s n e).seed = s.seed := rfl
@[simp] theorem setLe_pending : (setLe s n e).pending = s.pending := rfl
@[simp] theorem setLe_resp : (setLe s n e).resp = s.resp := rfl
@[simp] theorem setLe_holds : (setLe s n e).holds = s.holds := rfl
@[simp] theorem setLe_flog : (setLe s n e).flog = s.flog := rfl
@[simp] theorem setLe_frc : (setLe s n e).frc = s.frc := rfl

end

/-! ## `setRseq` -/

section
variable (s : State) (n n' k : Nat) (e : RseqSt) (p : Page) (f : Page → Page)

/-- What a record reads after one was replaced. -/
@[simp] theorem rseqOf_setRseq : rseqOf (setRseq s n e) n' = if n' = n then e else rseqOf s n' := by
  simp [rseqOf, setRseq]

@[simp] theorem setRseq_page : (setRseq s n e).page k = s.page k := rfl
@[simp] theorem rseqOf_setPage : rseqOf (s.setPage k p) n = rseqOf s n := rfl
@[simp] theorem rseqOf_modPage : rseqOf (s.modPage k f) n = rseqOf s n := rfl
@[simp] theorem rseqOf_at : rseqOf (s.at k) n = rseqOf s n := rfl
@[simp] theorem rseqOf_next : rseqOf s.next n = rseqOf s n := rfl
@[simp] theorem setRseq_now : (setRseq s n e).now = s.now := rfl
@[simp] theorem setRseq_stepSum : (setRseq s n e).stepSum = s.stepSum := rfl
@[simp] theorem setRseq_lastStep : (setRseq s n e).lastStep = s.lastStep := rfl
@[simp] theorem setRseq_dom : (setRseq s n e).dom = s.dom := rfl
@[simp] theorem setRseq_pages : (setRseq s n e).pages = s.pages := rfl
@[simp] theorem setRseq_sigs : (setRseq s n e).sigs = s.sigs := rfl
@[simp] theorem setRseq_slots : (setRseq s n e).slots = s.slots := rfl
@[simp] theorem setRseq_mem : (setRseq s n e).mem = s.mem := rfl
@[simp] theorem setRseq_irqMap : (setRseq s n e).irqMap = s.irqMap := rfl
@[simp] theorem setRseq_irqOn : (setRseq s n e).irqOn = s.irqOn := rfl
@[simp] theorem setRseq_msixSent : (setRseq s n e).msixSent = s.msixSent := rfl
@[simp] theorem setRseq_seed : (setRseq s n e).seed = s.seed := rfl
@[simp] theorem setRseq_pending : (setRseq s n e).pending = s.pending := rfl
@[simp] theorem setRseq_resp : (setRseq s n e).resp = s.resp := rfl
@[simp] theorem setRseq_holds : (setRseq s n e).holds = s.holds := rfl
@[simp] theorem setRseq_flog : (setRseq s n e).flog = s.flog := rfl
@[simp] theorem setRseq_frc : (setRseq s n e).frc = s.frc := rfl

end

/-! ## `setAcq` -/

section
variable (s : State) (n n' k : Nat) (e : AcqSt) (p : Page) (f : Page → Page)

/-- What a record reads after one was replaced. -/
@[simp] theorem acqOf_setAcq : acqOf (setAcq s n e) n' = if n' = n then e else acqOf s n' := by
  simp [acqOf, setAcq]

@[simp] theorem setAcq_page : (setAcq s n e).page k = s.page k := rfl
@[simp] theorem acqOf_setPage : acqOf (s.setPage k p) n = acqOf s n := rfl
@[simp] theorem acqOf_modPage : acqOf (s.modPage k f) n = acqOf s n := rfl
@[simp] theorem acqOf_at : acqOf (s.at k) n = acqOf s n := rfl
@[simp] theorem acqOf_next : acqOf s.next n = acqOf s n := rfl
@[simp] theorem setAcq_now : (setAcq s n e).now = s.now := rfl
@[simp] theorem setAcq_stepSum : (setAcq s n e).stepSum = s.stepSum := rfl
@[simp] theorem setAcq_lastStep : (setAcq s n e).lastStep = s.lastStep := rfl
@[simp] theorem setAcq_dom : (setAcq s n e).dom = s.dom := rfl
@[simp] theorem setAcq_pages : (setAcq s n e).pages = s.pages := rfl
@[simp] theorem setAcq_sigs : (setAcq s n e).sigs = s.sigs := rfl
@[simp] theorem setAcq_slots : (setAcq s n e).slots = s.slots := rfl
@[simp] theorem setAcq_mem : (setAcq s n e).mem = s.mem := rfl
@[simp] theorem setAcq_irqMap : (setAcq s n e).irqMap = s.irqMap := rfl
@[simp] theorem setAcq_irqOn : (setAcq s n e).irqOn = s.irqOn := rfl
@[simp] theorem setAcq_msixSent : (setAcq s n e).msixSent = s.msixSent := rfl
@[simp] theorem setAcq_seed : (setAcq s n e).seed = s.seed := rfl
@[simp] theorem setAcq_pending : (setAcq s n e).pending = s.pending := rfl
@[simp] theorem setAcq_resp : (setAcq s n e).resp = s.resp := rfl
@[simp] theorem setAcq_holds : (setAcq s n e).holds = s.holds := rfl
@[simp] theorem setAcq_flog : (setAcq s n e).flog = s.flog := rfl
@[simp] theorem setAcq_frc : (setAcq s n e).frc = s.frc := rfl

end

/-! ## `setDlk` -/

section
variable (s : State) (n n' k : Nat) (e : DlkSt) (p : Page) (f : Page → Page)

/-- What a record reads after one was replaced. -/
@[simp] theorem dlkOf_setDlk : dlkOf (setDlk s n e) n' = if n' = n then e else dlkOf s n' := by
  simp [dlkOf, setDlk]

@[simp] theorem setDlk_page : (setDlk s n e).page k = s.page k := rfl
@[simp] theorem dlkOf_setPage : dlkOf (s.setPage k p) n = dlkOf s n := rfl
@[simp] theorem dlkOf_modPage : dlkOf (s.modPage k f) n = dlkOf s n := rfl
@[simp] theorem dlkOf_at : dlkOf (s.at k) n = dlkOf s n := rfl
@[simp] theorem dlkOf_next : dlkOf s.next n = dlkOf s n := rfl
@[simp] theorem setDlk_now : (setDlk s n e).now = s.now := rfl
@[simp] theorem setDlk_stepSum : (setDlk s n e).stepSum = s.stepSum := rfl
@[simp] theorem setDlk_lastStep : (setDlk s n e).lastStep = s.lastStep := rfl
@[simp] theorem setDlk_dom : (setDlk s n e).dom = s.dom := rfl
@[simp] theorem setDlk_pages : (setDlk s n e).pages = s.pages := rfl
@[simp] theorem setDlk_sigs : (setDlk s n e).sigs = s.sigs := rfl
@[simp] theorem setDlk_slots : (setDlk s n e).slots = s.slots := rfl
@[simp] theorem setDlk_mem : (setDlk s n e).mem = s.mem := rfl
@[simp] theorem setDlk_irqMap : (setDlk s n e).irqMap = s.irqMap := rfl
@[simp] theorem setDlk_irqOn : (setDlk s n e).irqOn = s.irqOn := rfl
@[simp] theorem setDlk_msixSent : (setDlk s n e).msixSent = s.msixSent := rfl
@[simp] theorem setDlk_seed : (setDlk s n e).seed = s.seed := rfl
@[simp] theorem setDlk_pending : (setDlk s n e).pending = s.pending := rfl
@[simp] theorem setDlk_resp : (setDlk s n e).resp = s.resp := rfl
@[simp] theorem setDlk_holds : (setDlk s n e).holds = s.holds := rfl
@[simp] theorem setDlk_flog : (setDlk s n e).flog = s.flog := rfl
@[simp] theorem setDlk_frc : (setDlk s n e).frc = s.frc := rfl

end

/-! ## `setMsp` -/

section
variable (s : State) (n n' k : Nat) (e : MspSt) (p : Page) (f : Page → Page)

/-- What a record reads after one was replaced. -/
@[simp] theorem mspOf_setMsp : mspOf (setMsp s n e) n' = if n' = n then e else mspOf s n' := by
  simp [mspOf, setMsp]

@[simp] theorem setMsp_page : (setMsp s n e).page k = s.page k := rfl
@[simp] theorem mspOf_setPage : mspOf (s.setPage k p) n = mspOf s n := rfl
@[simp] theorem mspOf_modPage : mspOf (s.modPage k f) n = mspOf s n := rfl
@[simp] theorem mspOf_at : mspOf (s.at k) n = mspOf s n := rfl
@[simp] theorem mspOf_next : mspOf s.next n = mspOf s n := rfl
@[simp] theorem setMsp_now : (setMsp s n e).now = s.now := rfl
@[simp] theorem setMsp_stepSum : (setMsp s n e).stepSum = s.stepSum := rfl
@[simp] theorem setMsp_lastStep : (setMsp s n e).lastStep = s.lastStep := rfl
@[simp] theorem setMsp_dom : (setMsp s n e).dom = s.dom := rfl
@[simp] theorem setMsp_pages : (setMsp s n e).pages = s.pages := rfl
@[simp] theorem setMsp_sigs : (setMsp s n e).sigs = s.sigs := rfl
@[simp] theorem setMsp_slots : (setMsp s n e).slots = s.slots := rfl
@[simp] theorem setMsp_mem : (setMsp s n e).mem = s.mem := rfl
@[simp] theorem setMsp_irqMap : (setMsp s n e).irqMap = s.irqMap := rfl
@[simp] theorem setMsp_irqOn : (setMsp s n e).irqOn = s.irqOn := rfl
@[simp] theorem setMsp_msixSent : (setMsp s n e).msixSent = s.msixSent := rfl
@[simp] theorem setMsp_seed : (setMsp s n e).seed = s.seed := rfl
@[simp] theorem setMsp_pending : (setMsp s n e).pending = s.pending := rfl
@[simp] theorem setMsp_resp : (setMsp s n e).resp = s.resp := rfl
@[simp] theorem setMsp_holds : (setMsp s n e).holds = s.holds := rfl
@[simp] theorem setMsp_flog : (setMsp s n e).flog = s.flog := rfl
@[simp] theorem setMsp_frc : (setMsp s n e).frc = s.frc := rfl

end

/-! ## `setPsp` -/

section
variable (s : State) (n n' k : Nat) (e : PspSt) (p : Page) (f : Page → Page)

/-- What a record reads after one was replaced. -/
@[simp] theorem pspOf_setPsp : pspOf (setPsp s n e) n' = if n' = n then e else pspOf s n' := by
  simp [pspOf, setPsp]

@[simp] theorem setPsp_page : (setPsp s n e).page k = s.page k := rfl
@[simp] theorem pspOf_setPage : pspOf (s.setPage k p) n = pspOf s n := rfl
@[simp] theorem pspOf_modPage : pspOf (s.modPage k f) n = pspOf s n := rfl
@[simp] theorem pspOf_at : pspOf (s.at k) n = pspOf s n := rfl
@[simp] theorem pspOf_next : pspOf s.next n = pspOf s n := rfl
@[simp] theorem setPsp_now : (setPsp s n e).now = s.now := rfl
@[simp] theorem setPsp_stepSum : (setPsp s n e).stepSum = s.stepSum := rfl
@[simp] theorem setPsp_lastStep : (setPsp s n e).lastStep = s.lastStep := rfl
@[simp] theorem setPsp_dom : (setPsp s n e).dom = s.dom := rfl
@[simp] theorem setPsp_pages : (setPsp s n e).pages = s.pages := rfl
@[simp] theorem setPsp_sigs : (setPsp s n e).sigs = s.sigs := rfl
@[simp] theorem setPsp_slots : (setPsp s n e).slots = s.slots := rfl
@[simp] theorem setPsp_mem : (setPsp s n e).mem = s.mem := rfl
@[simp] theorem setPsp_irqMap : (setPsp s n e).irqMap = s.irqMap := rfl
@[simp] theorem setPsp_irqOn : (setPsp s n e).irqOn = s.irqOn := rfl
@[simp] theorem setPsp_msixSent : (setPsp s n e).msixSent = s.msixSent := rfl
@[simp] theorem setPsp_seed : (setPsp s n e).seed = s.seed := rfl
@[simp] theorem setPsp_pending : (setPsp s n e).pending = s.pending := rfl
@[simp] theorem setPsp_resp : (setPsp s n e).resp = s.resp := rfl
@[simp] theorem setPsp_holds : (setPsp s n e).holds = s.holds := rfl
@[simp] theorem setPsp_flog : (setPsp s n e).flog = s.flog := rfl
@[simp] theorem setPsp_frc : (setPsp s n e).frc = s.frc := rfl

end

/-! ## `setCan` -/

section
variable (s : State) (n n' k : Nat) (e : CanSt) (p : Page) (f : Page → Page)

/-- What a record reads after one was replaced. -/
@[simp] theorem canOf_setCan : canOf (setCan s n e) n' = if n' = n then e else canOf s n' := by
  simp [canOf, setCan]

@[simp] theorem setCan_page : (setCan s n e).page k = s.page k := rfl
@[simp] theorem canOf_setPage : canOf (s.setPage k p) n = canOf s n := rfl
@[simp] theorem canOf_modPage : canOf (s.modPage k f) n = canOf s n := rfl
@[simp] theorem canOf_at : canOf (s.at k) n = canOf s n := rfl
@[simp] theorem canOf_next : canOf s.next n = canOf s n := rfl
@[simp] theorem setCan_now : (setCan s n e).now = s.now := rfl
@[simp] theorem setCan_stepSum : (setCan s n e).stepSum = s.stepSum := rfl
@[simp] theorem setCan_lastStep : (setCan s n e).lastStep = s.lastStep := rfl
@[simp] theorem setCan_dom : (setCan s n e).dom = s.dom := rfl
@[simp] theorem setCan_pages : (setCan s n e).pages = s.pages := rfl
@[simp] theorem setCan_sigs : (setCan s n e).sigs = s.sigs := rfl
@[simp] theorem setCan_slots : (setCan s n e).slots = s.slots := rfl
@[simp] theorem setCan_mem : (setCan s n e).mem = s.mem := rfl
@[simp] theorem setCan_irqMap : (setCan s n e).irqMap = s.irqMap := rfl
@[simp] theorem setCan_irqOn : (setCan s n e).irqOn = s.irqOn := rfl
@[simp] theorem setCan_msixSent : (setCan s n e).msixSent = s.msixSent := rfl
@[simp] theorem setCan_seed : (setCan s n e).seed = s.seed := rfl
@[simp] theorem setCan_pending : (setCan s n e).pending = s.pending := rfl
@[simp] theorem setCan_resp : (setCan s n e).resp = s.resp := rfl
@[simp] theorem setCan_holds : (setCan s n e).holds = s.holds := rfl
@[simp] theorem setCan_flog : (setCan s n e).flog = s.flog := rfl
@[simp] theorem setCan_frc : (setCan s n e).frc = s.frc := rfl

end

/-! ## `setSlot` -/

section
variable (s : State) (n n' k : Nat) (e : Slot) (p : Page) (f : Page → Page)

/-- What a record reads after one was replaced. -/
@[simp] theorem slotOf_setSlot : slotOf (setSlot s n e) n' = if n' = n then e else slotOf s n' := by
  simp [slotOf, setSlot]

@[simp] theorem setSlot_page : (setSlot s n e).page k = s.page k := rfl
@[simp] theorem slotOf_setPage : slotOf (s.setPage k p) n = slotOf s n := rfl
@[simp] theorem slotOf_modPage : slotOf (s.modPage k f) n = slotOf s n := rfl
@[simp] theorem slotOf_at : slotOf (s.at k) n = slotOf s n := rfl
@[simp] theorem slotOf_next : slotOf s.next n = slotOf s n := rfl
@[simp] theorem setSlot_now : (setSlot s n e).now = s.now := rfl
@[simp] theorem setSlot_stepSum : (setSlot s n e).stepSum = s.stepSum := rfl
@[simp] theorem setSlot_lastStep : (setSlot s n e).lastStep = s.lastStep := rfl
@[simp] theorem setSlot_dom : (setSlot s n e).dom = s.dom := rfl
@[simp] theorem setSlot_pages : (setSlot s n e).pages = s.pages := rfl
@[simp] theorem setSlot_sigs : (setSlot s n e).sigs = s.sigs := rfl
@[simp] theorem setSlot_mem : (setSlot s n e).mem = s.mem := rfl
@[simp] theorem setSlot_irqMap : (setSlot s n e).irqMap = s.irqMap := rfl
@[simp] theorem setSlot_irqOn : (setSlot s n e).irqOn = s.irqOn := rfl
@[simp] theorem setSlot_msixSent : (setSlot s n e).msixSent = s.msixSent := rfl
@[simp] theorem setSlot_seed : (setSlot s n e).seed = s.seed := rfl
@[simp] theorem setSlot_pending : (setSlot s n e).pending = s.pending := rfl
@[simp] theorem setSlot_resp : (setSlot s n e).resp = s.resp := rfl
@[simp] theorem setSlot_holds : (setSlot s n e).holds = s.holds := rfl
@[simp] theorem setSlot_flog : (setSlot s n e).flog = s.flog := rfl
@[simp] theorem setSlot_frc : (setSlot s n e).frc = s.frc := rfl

end

end Sys2Proof.Machine
end

