-- ==== Sys2Proof/Laws/Ops.lean ====
section
/-! SUPPORT. What the shared operations over pages, registers, interrupts and memory do: each is said once here. -/
namespace Sys2Proof.Machine

/-! ## Page keys -/

/-- Two page types have different codes. -/
theorem PgTy.code_inj {t t' : PgTy} (h : t.code = t'.code) : t = t' := by
  revert h; cases t <;> cases t' <;> first | (intro _; rfl) | (intro h; exact absurd h (by decide))

/-- Pages have one key when they have one type and one instance. -/
theorem pk_eq {t t' : PgTy} {n n' : Nat} : pk t n = pk t' n' ↔ t = t' ∧ n % 256 = n' % 256 := by
  unfold pk
  constructor
  · intro e
    exact ⟨PgTy.code_inj (by omega), by omega⟩
  · rintro ⟨rfl, e⟩
    omega

/-- Pages of different types have different keys. -/
theorem pk_ne {t t' : PgTy} (n n' : Nat) (ht : t ≠ t') : pk t n ≠ pk t' n' := fun e => ht (pk_eq.1 e).1

/-! ## Registers (R3) -/

/-- A register after one register of the same page was replaced. -/
theorem rg_wr (s : State) (t : PgTy) (n off off' : Nat) (v : Word) :
    rg (wr s t n off v) t n off' = if off' = off then v else rg s t n off' := by
  simp [rg, wr, Page.wr]

@[simp] theorem rg_wr_same (s : State) (t : PgTy) (n off : Nat) (v : Word) : rg (wr s t n off v) t n off = v := by
  simp [rg_wr]

/-- A register of another page is not touched. -/
theorem rg_wr_page (s : State) {t t' : PgTy} {n n' : Nat} (off off' : Nat) (v : Word) (h : pk t' n' ≠ pk t n) :
    rg (wr s t n off v) t' n' off' = rg s t' n' off' := by
  simp [rg, wr, h]

/-- A page whose key is another's is not touched by a register write. -/
@[simp] theorem wr_page (s : State) (t : PgTy) (n off k : Nat) (v : Word) :
    (wr s t n off v).page k = if k = pk t n then Page.wr t off v (s.page (pk t n)) else s.page k := by
  simp [wr]

/-! ## Interrupt lines (R64 to R66) -/

/-- A message of a line changes the MSI-X pending bits or the messages sent, and nothing else. -/
theorem sendMsi_frame (s : State) (l : Nat) :
    sendMsi s l = { s with msixPend := (sendMsi s l).msixPend, msixSent := (sendMsi s l).msixSent } := by
  unfold sendMsi
  dsimp only
  split
  · split <;> rfl
  · rfl

/-- Settling sets the lines the distributor sees, and sends messages; it changes nothing else. -/
theorem settle_frame (s : State) :
    settle s = { s with irqOn := levels s, msixPend := (settle s).msixPend, msixSent := (settle s).msixSent } := by
  have key : ∀ (l : List Nat) (w : BitVec 256) (r : State),
      l.foldl (fun s l => if w.getLsbD l then sendMsi s l else s) r =
        { r with msixPend := (l.foldl (fun s l => if w.getLsbD l then sendMsi s l else s) r).msixPend,
                 msixSent := (l.foldl (fun s l => if w.getLsbD l then sendMsi s l else s) r).msixSent } := by
    intro l w
    induction l with
    | nil => intro r; rfl
    | cons a l ih =>
      intro r
      simp only [List.foldl_cons]
      by_cases h : w.getLsbD a = true
      · simp only [h, if_true]
        rw [ih (sendMsi r a), sendMsi_frame r a]
      · simp only [h]
        exact ih r
  unfold settle
  dsimp only
  rw [key]

/-- What answers: a meaning that completes gives the settled state. -/
@[simp] theorem done_eq (s : State) : done s = .next (settle s) := rfl

@[simp] theorem settle_irqOn (s : State) : (settle s).irqOn = levels s := by rw [settle_frame]

end Sys2Proof.Machine
end

