-- ==== Sys2Proof/Laws/Settle.lean ====
section
/-! SUPPORT. What settling the interrupt lines leaves of the state: everything but the lines and the messages. -/
namespace Sys2Proof.Machine

section
variable (s : State) (k n : Nat) (t : PgTy)

@[simp] theorem settle_now : (settle s).now = s.now := by rw [settle_frame]
@[simp] theorem settle_stepSum : (settle s).stepSum = s.stepSum := by rw [settle_frame]
@[simp] theorem settle_lastStep : (settle s).lastStep = s.lastStep := by rw [settle_frame]
@[simp] theorem settle_dom : (settle s).dom = s.dom := by rw [settle_frame]
@[simp] theorem settle_pages : (settle s).pages = s.pages := by rw [settle_frame]
@[simp] theorem settle_sigs : (settle s).sigs = s.sigs := by rw [settle_frame]
@[simp] theorem settle_slots : (settle s).slots = s.slots := by rw [settle_frame]
@[simp] theorem settle_recCnt : (settle s).recCnt = s.recCnt := by rw [settle_frame]
@[simp] theorem settle_mem : (settle s).mem = s.mem := by rw [settle_frame]
@[simp] theorem settle_frc : (settle s).frc = s.frc := by rw [settle_frame]
@[simp] theorem settle_frcKeep : (settle s).frcKeep = s.frcKeep := by rw [settle_frame]
@[simp] theorem settle_flog : (settle s).flog = s.flog := by rw [settle_frame]
@[simp] theorem settle_holds : (settle s).holds = s.holds := by rw [settle_frame]
@[simp] theorem settle_recDue : (settle s).recDue = s.recDue := by rw [settle_frame]
@[simp] theorem settle_fabLog : (settle s).fabLog = s.fabLog := by rw [settle_frame]
@[simp] theorem settle_irqMap : (settle s).irqMap = s.irqMap := by rw [settle_frame]
@[simp] theorem settle_msixTbl : (settle s).msixTbl = s.msixTbl := by rw [settle_frame]
@[simp] theorem settle_msixMask : (settle s).msixMask = s.msixMask := by rw [settle_frame]
@[simp] theorem settle_encs : (settle s).encs = s.encs := by rw [settle_frame]
@[simp] theorem settle_ssns : (settle s).ssns = s.ssns := by rw [settle_frame]
@[simp] theorem settle_pcmps : (settle s).pcmps = s.pcmps := by rw [settle_frame]
@[simp] theorem settle_steps : (settle s).steps = s.steps := by rw [settle_frame]
@[simp] theorem settle_axes : (settle s).axes = s.axes := by rw [settle_frame]
@[simp] theorem settle_prkSel : (settle s).prkSel = s.prkSel := by rw [settle_frame]
@[simp] theorem settle_scrubAt : (settle s).scrubAt = s.scrubAt := by rw [settle_frame]
@[simp] theorem settle_img1 : (settle s).img1 = s.img1 := by rw [settle_frame]
@[simp] theorem settle_img2 : (settle s).img2 = s.img2 := by rw [settle_frame]
@[simp] theorem settle_ustp : (settle s).ustp = s.ustp := by rw [settle_frame]
@[simp] theorem settle_lcs : (settle s).lcs = s.lcs := by rw [settle_frame]
@[simp] theorem settle_lschTick : (settle s).lschTick = s.lschTick := by rw [settle_frame]
@[simp] theorem settle_lschT0 : (settle s).lschT0 = s.lschT0 := by rw [settle_frame]
@[simp] theorem settle_lschZero : (settle s).lschZero = s.lschZero := by rw [settle_frame]
@[simp] theorem settle_taskFlags : (settle s).taskFlags = s.taskFlags := by rw [settle_frame]
@[simp] theorem settle_lschOp : (settle s).lschOp = s.lschOp := by rw [settle_frame]
@[simp] theorem settle_lschFoQ : (settle s).lschFoQ = s.lschFoQ := by rw [settle_frame]
@[simp] theorem settle_cslots : (settle s).cslots = s.cslots := by rw [settle_frame]
@[simp] theorem settle_ceQ : (settle s).ceQ = s.ceQ := by rw [settle_frame]
@[simp] theorem settle_pwms : (settle s).pwms = s.pwms := by rw [settle_frame]
@[simp] theorem settle_finRaw : (settle s).finRaw = s.finRaw := by rw [settle_frame]
@[simp] theorem settle_pwmClkLost : (settle s).pwmClkLost = s.pwmClkLost := by rw [settle_frame]
@[simp] theorem settle_pwmPads : (settle s).pwmPads = s.pwmPads := by rw [settle_frame]
@[simp] theorem settle_fchs : (settle s).fchs = s.fchs := by rw [settle_frame]
@[simp] theorem settle_fcgs : (settle s).fcgs = s.fcgs := by rw [settle_frame]
@[simp] theorem settle_pcvs : (settle s).pcvs = s.pcvs := by rw [settle_frame]
@[simp] theorem settle_les : (settle s).les = s.les := by rw [settle_frame]
@[simp] theorem settle_rseqs : (settle s).rseqs = s.rseqs := by rw [settle_frame]
@[simp] theorem settle_acqs : (settle s).acqs = s.acqs := by rw [settle_frame]
@[simp] theorem settle_sigCopy : (settle s).sigCopy = s.sigCopy := by rw [settle_frame]
@[simp] theorem settle_sigLoad : (settle s).sigLoad = s.sigLoad := by rw [settle_frame]
@[simp] theorem settle_histPos : (settle s).histPos = s.histPos := by rw [settle_frame]
@[simp] theorem settle_histCnt : (settle s).histCnt = s.histCnt := by rw [settle_frame]
@[simp] theorem settle_histWrap : (settle s).histWrap = s.histWrap := by rw [settle_frame]
@[simp] theorem settle_histSec : (settle s).histSec = s.histSec := by rw [settle_frame]
@[simp] theorem settle_recExp : (settle s).recExp = s.recExp := by rw [settle_frame]
@[simp] theorem settle_part : (settle s).part = s.part := by rw [settle_frame]
@[simp] theorem settle_tickAt : (settle s).tickAt = s.tickAt := by rw [settle_frame]
@[simp] theorem settle_timeStep : (settle s).timeStep = s.timeStep := by rw [settle_frame]
@[simp] theorem settle_stepDone : (settle s).stepDone = s.stepDone := by rw [settle_frame]
@[simp] theorem settle_adjAt : (settle s).adjAt = s.adjAt := by rw [settle_frame]
@[simp] theorem settle_joinDue : (settle s).joinDue = s.joinDue := by rw [settle_frame]
@[simp] theorem settle_joinCnt : (settle s).joinCnt = s.joinCnt := by rw [settle_frame]
@[simp] theorem settle_joinOk : (settle s).joinOk = s.joinOk := by rw [settle_frame]
@[simp] theorem settle_trgPin : (settle s).trgPin = s.trgPin := by rw [settle_frame]
@[simp] theorem settle_trgLocal : (settle s).trgLocal = s.trgLocal := by rw [settle_frame]
@[simp] theorem settle_trgSeen : (settle s).trgSeen = s.trgSeen := by rw [settle_frame]
@[simp] theorem settle_trgAt : (settle s).trgAt = s.trgAt := by rw [settle_frame]
@[simp] theorem settle_trgQ : (settle s).trgQ = s.trgQ := by rw [settle_frame]
@[simp] theorem settle_trgDone : (settle s).trgDone = s.trgDone := by rw [settle_frame]
@[simp] theorem settle_nodeGap : (settle s).nodeGap = s.nodeGap := by rw [settle_frame]
@[simp] theorem settle_dlks : (settle s).dlks = s.dlks := by rw [settle_frame]
@[simp] theorem settle_txq : (settle s).txq = s.txq := by rw [settle_frame]
@[simp] theorem settle_hostOut : (settle s).hostOut = s.hostOut := by rw [settle_frame]
@[simp] theorem settle_hsp : (settle s).hsp = s.hsp := by rw [settle_frame]
@[simp] theorem settle_msps : (settle s).msps = s.msps := by rw [settle_frame]
@[simp] theorem settle_psps : (settle s).psps = s.psps := by rw [settle_frame]
@[simp] theorem settle_ethTbl : (settle s).ethTbl = s.ethTbl := by rw [settle_frame]
@[simp] theorem settle_ethOut : (settle s).ethOut = s.ethOut := by rw [settle_frame]
@[simp] theorem settle_apRestart : (settle s).apRestart = s.apRestart := by rw [settle_frame]
@[simp] theorem settle_apHalt : (settle s).apHalt = s.apHalt := by rw [settle_frame]
@[simp] theorem settle_dbgHalt : (settle s).dbgHalt = s.dbgHalt := by rw [settle_frame]
@[simp] theorem settle_cans : (settle s).cans = s.cans := by rw [settle_frame]
@[simp] theorem settle_dio : (settle s).dio = s.dio := by rw [settle_frame]
@[simp] theorem settle_otp : (settle s).otp = s.otp := by rw [settle_frame]
@[simp] theorem settle_keys : (settle s).keys = s.keys := by rw [settle_frame]
@[simp] theorem settle_runVer : (settle s).runVer = s.runVer := by rw [settle_frame]
@[simp] theorem settle_failAt : (settle s).failAt = s.failAt := by rw [settle_frame]
@[simp] theorem settle_tampLog : (settle s).tampLog = s.tampLog := by rw [settle_frame]
@[simp] theorem settle_vbatBase : (settle s).vbatBase = s.vbatBase := by rw [settle_frame]
@[simp] theorem settle_jtag : (settle s).jtag = s.jtag := by rw [settle_frame]
@[simp] theorem settle_swOff : (settle s).swOff = s.swOff := by rw [settle_frame]
@[simp] theorem settle_swOn : (settle s).swOn = s.swOn := by rw [settle_frame]
@[simp] theorem settle_trained : (settle s).trained = s.trained := by rw [settle_frame]
@[simp] theorem settle_padIn : (settle s).padIn = s.padIn := by rw [settle_frame]
@[simp] theorem settle_histQ : (settle s).histQ = s.histQ := by rw [settle_frame]
@[simp] theorem settle_histLost : (settle s).histLost = s.histLost := by rw [settle_frame]
@[simp] theorem settle_resp : (settle s).resp = s.resp := by rw [settle_frame]
@[simp] theorem settle_seed : (settle s).seed = s.seed := by rw [settle_frame]
@[simp] theorem settle_pending : (settle s).pending = s.pending := by rw [settle_frame]

@[simp] theorem settle_page : (settle s).page k = s.page k := State.page_of_pages (settle_pages s) k
@[simp] theorem settle_rg (off : Nat) : rg (settle s) t n off = rg s t n off := by simp [rg]
@[simp] theorem settle_powered : powered (settle s) t n = powered s t n := by simp [powered]
@[simp] theorem settle_stOf : stOf (settle s) t n = stOf s t n := by unfold stOf; rw [settle_powered, settle_page]
@[simp] theorem settle_mem8 (a : Nat) : mem8 (settle s) a = mem8 s a := by simp [mem8]

@[simp] theorem settle_encOf : encOf (settle s) n = encOf s n := by simp [encOf]
@[simp] theorem settle_ssnOf : ssnOf (settle s) n = ssnOf s n := by simp [ssnOf]
@[simp] theorem settle_pcmpOf : pcmpOf (settle s) n = pcmpOf s n := by simp [pcmpOf]
@[simp] theorem settle_stepOf : stepOf (settle s) n = stepOf s n := by simp [stepOf]
@[simp] theorem settle_axisOf : axisOf (settle s) n = axisOf s n := by simp [axisOf]
@[simp] theorem settle_lcOf : lcOf (settle s) n = lcOf s n := by simp [lcOf]
@[simp] theorem settle_cslotOf : cslotOf (settle s) n = cslotOf s n := by simp [cslotOf]
@[simp] theorem settle_pwmOf : pwmOf (settle s) n = pwmOf s n := by simp [pwmOf]
@[simp] theorem settle_fchOf : fchOf (settle s) n = fchOf s n := by simp [fchOf]
@[simp] theorem settle_fcgOf : fcgOf (settle s) n = fcgOf s n := by simp [fcgOf]
@[simp] theorem settle_pcvOf : pcvOf (settle s) n = pcvOf s n := by simp [pcvOf]
@[simp] theorem settle_leOf : leOf (settle s) n = leOf s n := by simp [leOf]
@[simp] theorem settle_rseqOf : rseqOf (settle s) n = rseqOf s n := by simp [rseqOf]
@[simp] theorem settle_acqOf : acqOf (settle s) n = acqOf s n := by simp [acqOf]
@[simp] theorem settle_dlkOf : dlkOf (settle s) n = dlkOf s n := by simp [dlkOf]
@[simp] theorem settle_mspOf : mspOf (settle s) n = mspOf s n := by simp [mspOf]
@[simp] theorem settle_pspOf : pspOf (settle s) n = pspOf s n := by simp [pspOf]
@[simp] theorem settle_canOf : canOf (settle s) n = canOf s n := by simp [canOf]
@[simp] theorem settle_slotOf : slotOf (settle s) n = slotOf s n := by simp [slotOf]

/-- Settled lines follow the pages (R63, R64). -/
theorem levels_settle : levels (settle s) = levels s := by simp [levels, irqLine]

end

end Sys2Proof.Machine
end

