-- ==== Sys2Proof/Laws/Pages.lean ====
section
/-! SUPPORT. What a register write leaves of a page and of the state, and what the usual changes of a page leave. -/
namespace Sys2Proof.Machine

section
variable (p : Page) (t : PgTy) (off : Nat) (v : Word)

@[simp] theorem Page.wr_staged : (Page.wr t off v p).staged = p.staged := rfl
@[simp] theorem Page.wr_st : (Page.wr t off v p).st = p.st := rfl
@[simp] theorem Page.wr_en : (Page.wr t off v p).en = p.en := rfl
@[simp] theorem Page.wr_freeze : (Page.wr t off v p).freeze = p.freeze := rfl
@[simp] theorem Page.wr_dbgSafe : (Page.wr t off v p).dbgSafe = p.dbgSafe := rfl
@[simp] theorem Page.wr_locked : (Page.wr t off v p).locked = p.locked := rfl
@[simp] theorem Page.wr_key : (Page.wr t off v p).key = p.key := rfl
@[simp] theorem Page.wr_lastCmd : (Page.wr t off v p).lastCmd = p.lastCmd := rfl
@[simp] theorem Page.wr_cmd : (Page.wr t off v p).cmd = p.cmd := rfl
@[simp] theorem Page.wr_commit : (Page.wr t off v p).commit = p.commit := rfl
@[simp] theorem Page.wr_dirty : (Page.wr t off v p).dirty = p.dirty := rfl
@[simp] theorem Page.wr_busy : (Page.wr t off v p).busy = p.busy := rfl
@[simp] theorem Page.wr_prog : (Page.wr t off v p).prog = p.prog := rfl
@[simp] theorem Page.wr_err : (Page.wr t off v p).err = p.err := rfl
@[simp] theorem Page.wr_intRaw : (Page.wr t off v p).intRaw = p.intRaw := rfl
@[simp] theorem Page.wr_intEn : (Page.wr t off v p).intEn = p.intEn := rfl
@[simp] theorem Page.wr_pos : (Page.wr t off v p).pos = p.pos := rfl
@[simp] theorem Page.wr_frozen : (Page.wr t off v p).frozen = p.frozen := rfl
@[simp] theorem Page.wr_snap : (Page.wr t off v p).snap = p.snap := rfl
@[simp] theorem Page.wr_wlow : (Page.wr t off v p).wlow = p.wlow := rfl
end

section
variable (s : State) (t : PgTy) (n off k i lo len x : Nat) (v w : Word) (b : Bool) (z : Int) (ts : BitVec 35)

@[simp] theorem wr_now : (wr s t n off v).now = s.now := rfl
@[simp] theorem wr_stepSum : (wr s t n off v).stepSum = s.stepSum := rfl
@[simp] theorem wr_lastStep : (wr s t n off v).lastStep = s.lastStep := rfl
@[simp] theorem wr_dom : (wr s t n off v).dom = s.dom := rfl
@[simp] theorem wr_sigs : (wr s t n off v).sigs = s.sigs := rfl
@[simp] theorem wr_slots : (wr s t n off v).slots = s.slots := rfl
@[simp] theorem wr_recCnt : (wr s t n off v).recCnt = s.recCnt := rfl
@[simp] theorem wr_mem : (wr s t n off v).mem = s.mem := rfl
@[simp] theorem wr_frc : (wr s t n off v).frc = s.frc := rfl
@[simp] theorem wr_frcKeep : (wr s t n off v).frcKeep = s.frcKeep := rfl
@[simp] theorem wr_flog : (wr s t n off v).flog = s.flog := rfl
@[simp] theorem wr_holds : (wr s t n off v).holds = s.holds := rfl
@[simp] theorem wr_recDue : (wr s t n off v).recDue = s.recDue := rfl
@[simp] theorem wr_fabLog : (wr s t n off v).fabLog = s.fabLog := rfl
@[simp] theorem wr_irqMap : (wr s t n off v).irqMap = s.irqMap := rfl
@[simp] theorem wr_irqOn : (wr s t n off v).irqOn = s.irqOn := rfl
@[simp] theorem wr_msixTbl : (wr s t n off v).msixTbl = s.msixTbl := rfl
@[simp] theorem wr_msixPend : (wr s t n off v).msixPend = s.msixPend := rfl
@[simp] theorem wr_msixMask : (wr s t n off v).msixMask = s.msixMask := rfl
@[simp] theorem wr_msixSent : (wr s t n off v).msixSent = s.msixSent := rfl
@[simp] theorem wr_encs : (wr s t n off v).encs = s.encs := rfl
@[simp] theorem wr_ssns : (wr s t n off v).ssns = s.ssns := rfl
@[simp] theorem wr_pcmps : (wr s t n off v).pcmps = s.pcmps := rfl
@[simp] theorem wr_steps : (wr s t n off v).steps = s.steps := rfl
@[simp] theorem wr_axes : (wr s t n off v).axes = s.axes := rfl
@[simp] theorem wr_prkSel : (wr s t n off v).prkSel = s.prkSel := rfl
@[simp] theorem wr_scrubAt : (wr s t n off v).scrubAt = s.scrubAt := rfl
@[simp] theorem wr_img1 : (wr s t n off v).img1 = s.img1 := rfl
@[simp] theorem wr_img2 : (wr s t n off v).img2 = s.img2 := rfl
@[simp] theorem wr_ustp : (wr s t n off v).ustp = s.ustp := rfl
@[simp] theorem wr_lcs : (wr s t n off v).lcs = s.lcs := rfl
@[simp] theorem wr_lschTick : (wr s t n off v).lschTick = s.lschTick := rfl
@[simp] theorem wr_lschT0 : (wr s t n off v).lschT0 = s.lschT0 := rfl
@[simp] theorem wr_lschZero : (wr s t n off v).lschZero = s.lschZero := rfl
@[simp] theorem wr_taskFlags : (wr s t n off v).taskFlags = s.taskFlags := rfl
@[simp] theorem wr_lschOp : (wr s t n off v).lschOp = s.lschOp := rfl
@[simp] theorem wr_lschFoQ : (wr s t n off v).lschFoQ = s.lschFoQ := rfl
@[simp] theorem wr_cslots : (wr s t n off v).cslots = s.cslots := rfl
@[simp] theorem wr_ceQ : (wr s t n off v).ceQ = s.ceQ := rfl
@[simp] theorem wr_pwms : (wr s t n off v).pwms = s.pwms := rfl
@[simp] theorem wr_finRaw : (wr s t n off v).finRaw = s.finRaw := rfl
@[simp] theorem wr_pwmClkLost : (wr s t n off v).pwmClkLost = s.pwmClkLost := rfl
@[simp] theorem wr_pwmPads : (wr s t n off v).pwmPads = s.pwmPads := rfl
@[simp] theorem wr_fchs : (wr s t n off v).fchs = s.fchs := rfl
@[simp] theorem wr_fcgs : (wr s t n off v).fcgs = s.fcgs := rfl
@[simp] theorem wr_pcvs : (wr s t n off v).pcvs = s.pcvs := rfl
@[simp] theorem wr_les : (wr s t n off v).les = s.les := rfl
@[simp] theorem wr_rseqs : (wr s t n off v).rseqs = s.rseqs := rfl
@[simp] theorem wr_acqs : (wr s t n off v).acqs = s.acqs := rfl
@[simp] theorem wr_sigCopy : (wr s t n off v).sigCopy = s.sigCopy := rfl
@[simp] theorem wr_sigLoad : (wr s t n off v).sigLoad = s.sigLoad := rfl
@[simp] theorem wr_histPos : (wr s t n off v).histPos = s.histPos := rfl
@[simp] theorem wr_histCnt : (wr s t n off v).histCnt = s.histCnt := rfl
@[simp] theorem wr_histWrap : (wr s t n off v).histWrap = s.histWrap := rfl
@[simp] theorem wr_histSec : (wr s t n off v).histSec = s.histSec := rfl
@[simp] theorem wr_recExp : (wr s t n off v).recExp = s.recExp := rfl
@[simp] theorem wr_part : (wr s t n off v).part = s.part := rfl
@[simp] theorem wr_tickAt : (wr s t n off v).tickAt = s.tickAt := rfl
@[simp] theorem wr_timeStep : (wr s t n off v).timeStep = s.timeStep := rfl
@[simp] theorem wr_stepDone : (wr s t n off v).stepDone = s.stepDone := rfl
@[simp] theorem wr_adjAt : (wr s t n off v).adjAt = s.adjAt := rfl
@[simp] theorem wr_joinDue : (wr s t n off v).joinDue = s.joinDue := rfl
@[simp] theorem wr_joinCnt : (wr s t n off v).joinCnt = s.joinCnt := rfl
@[simp] theorem wr_joinOk : (wr s t n off v).joinOk = s.joinOk := rfl
@[simp] theorem wr_trgPin : (wr s t n off v).trgPin = s.trgPin := rfl
@[simp] theorem wr_trgLocal : (wr s t n off v).trgLocal = s.trgLocal := rfl
@[simp] theorem wr_trgSeen : (wr s t n off v).trgSeen = s.trgSeen := rfl
@[simp] theorem wr_trgAt : (wr s t n off v).trgAt = s.trgAt := rfl
@[simp] theorem wr_trgQ : (wr s t n off v).trgQ = s.trgQ := rfl
@[simp] theorem wr_trgDone : (wr s t n off v).trgDone = s.trgDone := rfl
@[simp] theorem wr_nodeGap : (wr s t n off v).nodeGap = s.nodeGap := rfl
@[simp] theorem wr_dlks : (wr s t n off v).dlks = s.dlks := rfl
@[simp] theorem wr_txq : (wr s t n off v).txq = s.txq := rfl
@[simp] theorem wr_hostOut : (wr s t n off v).hostOut = s.hostOut := rfl
@[simp] theorem wr_hsp : (wr s t n off v).hsp = s.hsp := rfl
@[simp] theorem wr_msps : (wr s t n off v).msps = s.msps := rfl
@[simp] theorem wr_psps : (wr s t n off v).psps = s.psps := rfl
@[simp] theorem wr_ethTbl : (wr s t n off v).ethTbl = s.ethTbl := rfl
@[simp] theorem wr_ethOut : (wr s t n off v).ethOut = s.ethOut := rfl
@[simp] theorem wr_apRestart : (wr s t n off v).apRestart = s.apRestart := rfl
@[simp] theorem wr_apHalt : (wr s t n off v).apHalt = s.apHalt := rfl
@[simp] theorem wr_dbgHalt : (wr s t n off v).dbgHalt = s.dbgHalt := rfl
@[simp] theorem wr_cans : (wr s t n off v).cans = s.cans := rfl
@[simp] theorem wr_dio : (wr s t n off v).dio = s.dio := rfl
@[simp] theorem wr_otp : (wr s t n off v).otp = s.otp := rfl
@[simp] theorem wr_keys : (wr s t n off v).keys = s.keys := rfl
@[simp] theorem wr_runVer : (wr s t n off v).runVer = s.runVer := rfl
@[simp] theorem wr_failAt : (wr s t n off v).failAt = s.failAt := rfl
@[simp] theorem wr_tampLog : (wr s t n off v).tampLog = s.tampLog := rfl
@[simp] theorem wr_vbatBase : (wr s t n off v).vbatBase = s.vbatBase := rfl
@[simp] theorem wr_jtag : (wr s t n off v).jtag = s.jtag := rfl
@[simp] theorem wr_swOff : (wr s t n off v).swOff = s.swOff := rfl
@[simp] theorem wr_swOn : (wr s t n off v).swOn = s.swOn := rfl
@[simp] theorem wr_trained : (wr s t n off v).trained = s.trained := rfl
@[simp] theorem wr_padIn : (wr s t n off v).padIn = s.padIn := rfl
@[simp] theorem wr_histQ : (wr s t n off v).histQ = s.histQ := rfl
@[simp] theorem wr_histLost : (wr s t n off v).histLost = s.histLost := rfl
@[simp] theorem wr_resp : (wr s t n off v).resp = s.resp := rfl
@[simp] theorem wr_seed : (wr s t n off v).seed = s.seed := rfl
@[simp] theorem wr_pending : (wr s t n off v).pending = s.pending := rfl
@[simp] theorem wf_now : (wf s t n off lo len x).now = s.now := rfl
@[simp] theorem wf_stepSum : (wf s t n off lo len x).stepSum = s.stepSum := rfl
@[simp] theorem wf_lastStep : (wf s t n off lo len x).lastStep = s.lastStep := rfl
@[simp] theorem wf_dom : (wf s t n off lo len x).dom = s.dom := rfl
@[simp] theorem wf_sigs : (wf s t n off lo len x).sigs = s.sigs := rfl
@[simp] theorem wf_slots : (wf s t n off lo len x).slots = s.slots := rfl
@[simp] theorem wf_recCnt : (wf s t n off lo len x).recCnt = s.recCnt := rfl
@[simp] theorem wf_mem : (wf s t n off lo len x).mem = s.mem := rfl
@[simp] theorem wf_frc : (wf s t n off lo len x).frc = s.frc := rfl
@[simp] theorem wf_frcKeep : (wf s t n off lo len x).frcKeep = s.frcKeep := rfl
@[simp] theorem wf_flog : (wf s t n off lo len x).flog = s.flog := rfl
@[simp] theorem wf_holds : (wf s t n off lo len x).holds = s.holds := rfl
@[simp] theorem wf_recDue : (wf s t n off lo len x).recDue = s.recDue := rfl
@[simp] theorem wf_fabLog : (wf s t n off lo len x).fabLog = s.fabLog := rfl
@[simp] theorem wf_irqMap : (wf s t n off lo len x).irqMap = s.irqMap := rfl
@[simp] theorem wf_irqOn : (wf s t n off lo len x).irqOn = s.irqOn := rfl
@[simp] theorem wf_msixTbl : (wf s t n off lo len x).msixTbl = s.msixTbl := rfl
@[simp] theorem wf_msixPend : (wf s t n off lo len x).msixPend = s.msixPend := rfl
@[simp] theorem wf_msixMask : (wf s t n off lo len x).msixMask = s.msixMask := rfl
@[simp] theorem wf_msixSent : (wf s t n off lo len x).msixSent = s.msixSent := rfl
@[simp] theorem wf_encs : (wf s t n off lo len x).encs = s.encs := rfl
@[simp] theorem wf_ssns : (wf s t n off lo len x).ssns = s.ssns := rfl
@[simp] theorem wf_pcmps : (wf s t n off lo len x).pcmps = s.pcmps := rfl
@[simp] theorem wf_steps : (wf s t n off lo len x).steps = s.steps := rfl
@[simp] theorem wf_axes : (wf s t n off lo len x).axes = s.axes := rfl
@[simp] theorem wf_prkSel : (wf s t n off lo len x).prkSel = s.prkSel := rfl
@[simp] theorem wf_scrubAt : (wf s t n off lo len x).scrubAt = s.scrubAt := rfl
@[simp] theorem wf_img1 : (wf s t n off lo len x).img1 = s.img1 := rfl
@[simp] theorem wf_img2 : (wf s t n off lo len x).img2 = s.img2 := rfl
@[simp] theorem wf_ustp : (wf s t n off lo len x).ustp = s.ustp := rfl
@[simp] theorem wf_lcs : (wf s t n off lo len x).lcs = s.lcs := rfl
@[simp] theorem wf_lschTick : (wf s t n off lo len x).lschTick = s.lschTick := rfl
@[simp] theorem wf_lschT0 : (wf s t n off lo len x).lschT0 = s.lschT0 := rfl
@[simp] theorem wf_lschZero : (wf s t n off lo len x).lschZero = s.lschZero := rfl
@[simp] theorem wf_taskFlags : (wf s t n off lo len x).taskFlags = s.taskFlags := rfl
@[simp] theorem wf_lschOp : (wf s t n off lo len x).lschOp = s.lschOp := rfl
@[simp] theorem wf_lschFoQ : (wf s t n off lo len x).lschFoQ = s.lschFoQ := rfl
@[simp] theorem wf_cslots : (wf s t n off lo len x).cslots = s.cslots := rfl
@[simp] theorem wf_ceQ : (wf s t n off lo len x).ceQ = s.ceQ := rfl
@[simp] theorem wf_pwms : (wf s t n off lo len x).pwms = s.pwms := rfl
@[simp] theorem wf_finRaw : (wf s t n off lo len x).finRaw = s.finRaw := rfl
@[simp] theorem wf_pwmClkLost : (wf s t n off lo len x).pwmClkLost = s.pwmClkLost := rfl
@[simp] theorem wf_pwmPads : (wf s t n off lo len x).pwmPads = s.pwmPads := rfl
@[simp] theorem wf_fchs : (wf s t n off lo len x).fchs = s.fchs := rfl
@[simp] theorem wf_fcgs : (wf s t n off lo len x).fcgs = s.fcgs := rfl
@[simp] theorem wf_pcvs : (wf s t n off lo len x).pcvs = s.pcvs := rfl
@[simp] theorem wf_les : (wf s t n off lo len x).les = s.les := rfl
@[simp] theorem wf_rseqs : (wf s t n off lo len x).rseqs = s.rseqs := rfl
@[simp] theorem wf_acqs : (wf s t n off lo len x).acqs = s.acqs := rfl
@[simp] theorem wf_sigCopy : (wf s t n off lo len x).sigCopy = s.sigCopy := rfl
@[simp] theorem wf_sigLoad : (wf s t n off lo len x).sigLoad = s.sigLoad := rfl
@[simp] theorem wf_histPos : (wf s t n off lo len x).histPos = s.histPos := rfl
@[simp] theorem wf_histCnt : (wf s t n off lo len x).histCnt = s.histCnt := rfl
@[simp] theorem wf_histWrap : (wf s t n off lo len x).histWrap = s.histWrap := rfl
@[simp] theorem wf_histSec : (wf s t n off lo len x).histSec = s.histSec := rfl
@[simp] theorem wf_recExp : (wf s t n off lo len x).recExp = s.recExp := rfl
@[simp] theorem wf_part : (wf s t n off lo len x).part = s.part := rfl
@[simp] theorem wf_tickAt : (wf s t n off lo len x).tickAt = s.tickAt := rfl
@[simp] theorem wf_timeStep : (wf s t n off lo len x).timeStep = s.timeStep := rfl
@[simp] theorem wf_stepDone : (wf s t n off lo len x).stepDone = s.stepDone := rfl
@[simp] theorem wf_adjAt : (wf s t n off lo len x).adjAt = s.adjAt := rfl
@[simp] theorem wf_joinDue : (wf s t n off lo len x).joinDue = s.joinDue := rfl
@[simp] theorem wf_joinCnt : (wf s t n off lo len x).joinCnt = s.joinCnt := rfl
@[simp] theorem wf_joinOk : (wf s t n off lo len x).joinOk = s.joinOk := rfl
@[simp] theorem wf_trgPin : (wf s t n off lo len x).trgPin = s.trgPin := rfl
@[simp] theorem wf_trgLocal : (wf s t n off lo len x).trgLocal = s.trgLocal := rfl
@[simp] theorem wf_trgSeen : (wf s t n off lo len x).trgSeen = s.trgSeen := rfl
@[simp] theorem wf_trgAt : (wf s t n off lo len x).trgAt = s.trgAt := rfl
@[simp] theorem wf_trgQ : (wf s t n off lo len x).trgQ = s.trgQ := rfl
@[simp] theorem wf_trgDone : (wf s t n off lo len x).trgDone = s.trgDone := rfl
@[simp] theorem wf_nodeGap : (wf s t n off lo len x).nodeGap = s.nodeGap := rfl
@[simp] theorem wf_dlks : (wf s t n off lo len x).dlks = s.dlks := rfl
@[simp] theorem wf_txq : (wf s t n off lo len x).txq = s.txq := rfl
@[simp] theorem wf_hostOut : (wf s t n off lo len x).hostOut = s.hostOut := rfl
@[simp] theorem wf_hsp : (wf s t n off lo len x).hsp = s.hsp := rfl
@[simp] theorem wf_msps : (wf s t n off lo len x).msps = s.msps := rfl
@[simp] theorem wf_psps : (wf s t n off lo len x).psps = s.psps := rfl
@[simp] theorem wf_ethTbl : (wf s t n off lo len x).ethTbl = s.ethTbl := rfl
@[simp] theorem wf_ethOut : (wf s t n off lo len x).ethOut = s.ethOut := rfl
@[simp] theorem wf_apRestart : (wf s t n off lo len x).apRestart = s.apRestart := rfl
@[simp] theorem wf_apHalt : (wf s t n off lo len x).apHalt = s.apHalt := rfl
@[simp] theorem wf_dbgHalt : (wf s t n off lo len x).dbgHalt = s.dbgHalt := rfl
@[simp] theorem wf_cans : (wf s t n off lo len x).cans = s.cans := rfl
@[simp] theorem wf_dio : (wf s t n off lo len x).dio = s.dio := rfl
@[simp] theorem wf_otp : (wf s t n off lo len x).otp = s.otp := rfl
@[simp] theorem wf_keys : (wf s t n off lo len x).keys = s.keys := rfl
@[simp] theorem wf_runVer : (wf s t n off lo len x).runVer = s.runVer := rfl
@[simp] theorem wf_failAt : (wf s t n off lo len x).failAt = s.failAt := rfl
@[simp] theorem wf_tampLog : (wf s t n off lo len x).tampLog = s.tampLog := rfl
@[simp] theorem wf_vbatBase : (wf s t n off lo len x).vbatBase = s.vbatBase := rfl
@[simp] theorem wf_jtag : (wf s t n off lo len x).jtag = s.jtag := rfl
@[simp] theorem wf_swOff : (wf s t n off lo len x).swOff = s.swOff := rfl
@[simp] theorem wf_swOn : (wf s t n off lo len x).swOn = s.swOn := rfl
@[simp] theorem wf_trained : (wf s t n off lo len x).trained = s.trained := rfl
@[simp] theorem wf_padIn : (wf s t n off lo len x).padIn = s.padIn := rfl
@[simp] theorem wf_histQ : (wf s t n off lo len x).histQ = s.histQ := rfl
@[simp] theorem wf_histLost : (wf s t n off lo len x).histLost = s.histLost := rfl
@[simp] theorem wf_resp : (wf s t n off lo len x).resp = s.resp := rfl
@[simp] theorem wf_seed : (wf s t n off lo len x).seed = s.seed := rfl
@[simp] theorem wf_pending : (wf s t n off lo len x).pending = s.pending := rfl
@[simp] theorem wb_now : (wb s t n off i b).now = s.now := rfl
@[simp] theorem wb_stepSum : (wb s t n off i b).stepSum = s.stepSum := rfl
@[simp] theorem wb_lastStep : (wb s t n off i b).lastStep = s.lastStep := rfl
@[simp] theorem wb_dom : (wb s t n off i b).dom = s.dom := rfl
@[simp] theorem wb_sigs : (wb s t n off i b).sigs = s.sigs := rfl
@[simp] theorem wb_slots : (wb s t n off i b).slots = s.slots := rfl
@[simp] theorem wb_recCnt : (wb s t n off i b).recCnt = s.recCnt := rfl
@[simp] theorem wb_mem : (wb s t n off i b).mem = s.mem := rfl
@[simp] theorem wb_frc : (wb s t n off i b).frc = s.frc := rfl
@[simp] theorem wb_frcKeep : (wb s t n off i b).frcKeep = s.frcKeep := rfl
@[simp] theorem wb_flog : (wb s t n off i b).flog = s.flog := rfl
@[simp] theorem wb_holds : (wb s t n off i b).holds = s.holds := rfl
@[simp] theorem wb_recDue : (wb s t n off i b).recDue = s.recDue := rfl
@[simp] theorem wb_fabLog : (wb s t n off i b).fabLog = s.fabLog := rfl
@[simp] theorem wb_irqMap : (wb s t n off i b).irqMap = s.irqMap := rfl
@[simp] theorem wb_irqOn : (wb s t n off i b).irqOn = s.irqOn := rfl
@[simp] theorem wb_msixTbl : (wb s t n off i b).msixTbl = s.msixTbl := rfl
@[simp] theorem wb_msixPend : (wb s t n off i b).msixPend = s.msixPend := rfl
@[simp] theorem wb_msixMask : (wb s t n off i b).msixMask = s.msixMask := rfl
@[simp] theorem wb_msixSent : (wb s t n off i b).msixSent = s.msixSent := rfl
@[simp] theorem wb_encs : (wb s t n off i b).encs = s.encs := rfl
@[simp] theorem wb_ssns : (wb s t n off i b).ssns = s.ssns := rfl
@[simp] theorem wb_pcmps : (wb s t n off i b).pcmps = s.pcmps := rfl
@[simp] theorem wb_steps : (wb s t n off i b).steps = s.steps := rfl
@[simp] theorem wb_axes : (wb s t n off i b).axes = s.axes := rfl
@[simp] theorem wb_prkSel : (wb s t n off i b).prkSel = s.prkSel := rfl
@[simp] theorem wb_scrubAt : (wb s t n off i b).scrubAt = s.scrubAt := rfl
@[simp] theorem wb_img1 : (wb s t n off i b).img1 = s.img1 := rfl
@[simp] theorem wb_img2 : (wb s t n off i b).img2 = s.img2 := rfl
@[simp] theorem wb_ustp : (wb s t n off i b).ustp = s.ustp := rfl
@[simp] theorem wb_lcs : (wb s t n off i b).lcs = s.lcs := rfl
@[simp] theorem wb_lschTick : (wb s t n off i b).lschTick = s.lschTick := rfl
@[simp] theorem wb_lschT0 : (wb s t n off i b).lschT0 = s.lschT0 := rfl
@[simp] theorem wb_lschZero : (wb s t n off i b).lschZero = s.lschZero := rfl
@[simp] theorem wb_taskFlags : (wb s t n off i b).taskFlags = s.taskFlags := rfl
@[simp] theorem wb_lschOp : (wb s t n off i b).lschOp = s.lschOp := rfl
@[simp] theorem wb_lschFoQ : (wb s t n off i b).lschFoQ = s.lschFoQ := rfl
@[simp] theorem wb_cslots : (wb s t n off i b).cslots = s.cslots := rfl
@[simp] theorem wb_ceQ : (wb s t n off i b).ceQ = s.ceQ := rfl
@[simp] theorem wb_pwms : (wb s t n off i b).pwms = s.pwms := rfl
@[simp] theorem wb_finRaw : (wb s t n off i b).finRaw = s.finRaw := rfl
@[simp] theorem wb_pwmClkLost : (wb s t n off i b).pwmClkLost = s.pwmClkLost := rfl
@[simp] theorem wb_pwmPads : (wb s t n off i b).pwmPads = s.pwmPads := rfl
@[simp] theorem wb_fchs : (wb s t n off i b).fchs = s.fchs := rfl
@[simp] theorem wb_fcgs : (wb s t n off i b).fcgs = s.fcgs := rfl
@[simp] theorem wb_pcvs : (wb s t n off i b).pcvs = s.pcvs := rfl
@[simp] theorem wb_les : (wb s t n off i b).les = s.les := rfl
@[simp] theorem wb_rseqs : (wb s t n off i b).rseqs = s.rseqs := rfl
@[simp] theorem wb_acqs : (wb s t n off i b).acqs = s.acqs := rfl
@[simp] theorem wb_sigCopy : (wb s t n off i b).sigCopy = s.sigCopy := rfl
@[simp] theorem wb_sigLoad : (wb s t n off i b).sigLoad = s.sigLoad := rfl
@[simp] theorem wb_histPos : (wb s t n off i b).histPos = s.histPos := rfl
@[simp] theorem wb_histCnt : (wb s t n off i b).histCnt = s.histCnt := rfl
@[simp] theorem wb_histWrap : (wb s t n off i b).histWrap = s.histWrap := rfl
@[simp] theorem wb_histSec : (wb s t n off i b).histSec = s.histSec := rfl
@[simp] theorem wb_recExp : (wb s t n off i b).recExp = s.recExp := rfl
@[simp] theorem wb_part : (wb s t n off i b).part = s.part := rfl
@[simp] theorem wb_tickAt : (wb s t n off i b).tickAt = s.tickAt := rfl
@[simp] theorem wb_timeStep : (wb s t n off i b).timeStep = s.timeStep := rfl
@[simp] theorem wb_stepDone : (wb s t n off i b).stepDone = s.stepDone := rfl
@[simp] theorem wb_adjAt : (wb s t n off i b).adjAt = s.adjAt := rfl
@[simp] theorem wb_joinDue : (wb s t n off i b).joinDue = s.joinDue := rfl
@[simp] theorem wb_joinCnt : (wb s t n off i b).joinCnt = s.joinCnt := rfl
@[simp] theorem wb_joinOk : (wb s t n off i b).joinOk = s.joinOk := rfl
@[simp] theorem wb_trgPin : (wb s t n off i b).trgPin = s.trgPin := rfl
@[simp] theorem wb_trgLocal : (wb s t n off i b).trgLocal = s.trgLocal := rfl
@[simp] theorem wb_trgSeen : (wb s t n off i b).trgSeen = s.trgSeen := rfl
@[simp] theorem wb_trgAt : (wb s t n off i b).trgAt = s.trgAt := rfl
@[simp] theorem wb_trgQ : (wb s t n off i b).trgQ = s.trgQ := rfl
@[simp] theorem wb_trgDone : (wb s t n off i b).trgDone = s.trgDone := rfl
@[simp] theorem wb_nodeGap : (wb s t n off i b).nodeGap = s.nodeGap := rfl
@[simp] theorem wb_dlks : (wb s t n off i b).dlks = s.dlks := rfl
@[simp] theorem wb_txq : (wb s t n off i b).txq = s.txq := rfl
@[simp] theorem wb_hostOut : (wb s t n off i b).hostOut = s.hostOut := rfl
@[simp] theorem wb_hsp : (wb s t n off i b).hsp = s.hsp := rfl
@[simp] theorem wb_msps : (wb s t n off i b).msps = s.msps := rfl
@[simp] theorem wb_psps : (wb s t n off i b).psps = s.psps := rfl
@[simp] theorem wb_ethTbl : (wb s t n off i b).ethTbl = s.ethTbl := rfl
@[simp] theorem wb_ethOut : (wb s t n off i b).ethOut = s.ethOut := rfl
@[simp] theorem wb_apRestart : (wb s t n off i b).apRestart = s.apRestart := rfl
@[simp] theorem wb_apHalt : (wb s t n off i b).apHalt = s.apHalt := rfl
@[simp] theorem wb_dbgHalt : (wb s t n off i b).dbgHalt = s.dbgHalt := rfl
@[simp] theorem wb_cans : (wb s t n off i b).cans = s.cans := rfl
@[simp] theorem wb_dio : (wb s t n off i b).dio = s.dio := rfl
@[simp] theorem wb_otp : (wb s t n off i b).otp = s.otp := rfl
@[simp] theorem wb_keys : (wb s t n off i b).keys = s.keys := rfl
@[simp] theorem wb_runVer : (wb s t n off i b).runVer = s.runVer := rfl
@[simp] theorem wb_failAt : (wb s t n off i b).failAt = s.failAt := rfl
@[simp] theorem wb_tampLog : (wb s t n off i b).tampLog = s.tampLog := rfl
@[simp] theorem wb_vbatBase : (wb s t n off i b).vbatBase = s.vbatBase := rfl
@[simp] theorem wb_jtag : (wb s t n off i b).jtag = s.jtag := rfl
@[simp] theorem wb_swOff : (wb s t n off i b).swOff = s.swOff := rfl
@[simp] theorem wb_swOn : (wb s t n off i b).swOn = s.swOn := rfl
@[simp] theorem wb_trained : (wb s t n off i b).trained = s.trained := rfl
@[simp] theorem wb_padIn : (wb s t n off i b).padIn = s.padIn := rfl
@[simp] theorem wb_histQ : (wb s t n off i b).histQ = s.histQ := rfl
@[simp] theorem wb_histLost : (wb s t n off i b).histLost = s.histLost := rfl
@[simp] theorem wb_resp : (wb s t n off i b).resp = s.resp := rfl
@[simp] theorem wb_seed : (wb s t n off i b).seed = s.seed := rfl
@[simp] theorem wb_pending : (wb s t n off i b).pending = s.pending := rfl
@[simp] theorem wr64_now : (wr64 s t n off z).now = s.now := rfl
@[simp] theorem wr64_stepSum : (wr64 s t n off z).stepSum = s.stepSum := rfl
@[simp] theorem wr64_lastStep : (wr64 s t n off z).lastStep = s.lastStep := rfl
@[simp] theorem wr64_dom : (wr64 s t n off z).dom = s.dom := rfl
@[simp] theorem wr64_sigs : (wr64 s t n off z).sigs = s.sigs := rfl
@[simp] theorem wr64_slots : (wr64 s t n off z).slots = s.slots := rfl
@[simp] theorem wr64_recCnt : (wr64 s t n off z).recCnt = s.recCnt := rfl
@[simp] theorem wr64_mem : (wr64 s t n off z).mem = s.mem := rfl
@[simp] theorem wr64_frc : (wr64 s t n off z).frc = s.frc := rfl
@[simp] theorem wr64_frcKeep : (wr64 s t n off z).frcKeep = s.frcKeep := rfl
@[simp] theorem wr64_flog : (wr64 s t n off z).flog = s.flog := rfl
@[simp] theorem wr64_holds : (wr64 s t n off z).holds = s.holds := rfl
@[simp] theorem wr64_recDue : (wr64 s t n off z).recDue = s.recDue := rfl
@[simp] theorem wr64_fabLog : (wr64 s t n off z).fabLog = s.fabLog := rfl
@[simp] theorem wr64_irqMap : (wr64 s t n off z).irqMap = s.irqMap := rfl
@[simp] theorem wr64_irqOn : (wr64 s t n off z).irqOn = s.irqOn := rfl
@[simp] theorem wr64_msixTbl : (wr64 s t n off z).msixTbl = s.msixTbl := rfl
@[simp] theorem wr64_msixPend : (wr64 s t n off z).msixPend = s.msixPend := rfl
@[simp] theorem wr64_msixMask : (wr64 s t n off z).msixMask = s.msixMask := rfl
@[simp] theorem wr64_msixSent : (wr64 s t n off z).msixSent = s.msixSent := rfl
@[simp] theorem wr64_encs : (wr64 s t n off z).encs = s.encs := rfl
@[simp] theorem wr64_ssns : (wr64 s t n off z).ssns = s.ssns := rfl
@[simp] theorem wr64_pcmps : (wr64 s t n off z).pcmps = s.pcmps := rfl
@[simp] theorem wr64_steps : (wr64 s t n off z).steps = s.steps := rfl
@[simp] theorem wr64_axes : (wr64 s t n off z).axes = s.axes := rfl
@[simp] theorem wr64_prkSel : (wr64 s t n off z).prkSel = s.prkSel := rfl
@[simp] theorem wr64_scrubAt : (wr64 s t n off z).scrubAt = s.scrubAt := rfl
@[simp] theorem wr64_img1 : (wr64 s t n off z).img1 = s.img1 := rfl
@[simp] theorem wr64_img2 : (wr64 s t n off z).img2 = s.img2 := rfl
@[simp] theorem wr64_ustp : (wr64 s t n off z).ustp = s.ustp := rfl
@[simp] theorem wr64_lcs : (wr64 s t n off z).lcs = s.lcs := rfl
@[simp] theorem wr64_lschTick : (wr64 s t n off z).lschTick = s.lschTick := rfl
@[simp] theorem wr64_lschT0 : (wr64 s t n off z).lschT0 = s.lschT0 := rfl
@[simp] theorem wr64_lschZero : (wr64 s t n off z).lschZero = s.lschZero := rfl
@[simp] theorem wr64_taskFlags : (wr64 s t n off z).taskFlags = s.taskFlags := rfl
@[simp] theorem wr64_lschOp : (wr64 s t n off z).lschOp = s.lschOp := rfl
@[simp] theorem wr64_lschFoQ : (wr64 s t n off z).lschFoQ = s.lschFoQ := rfl
@[simp] theorem wr64_cslots : (wr64 s t n off z).cslots = s.cslots := rfl
@[simp] theorem wr64_ceQ : (wr64 s t n off z).ceQ = s.ceQ := rfl
@[simp] theorem wr64_pwms : (wr64 s t n off z).pwms = s.pwms := rfl
@[simp] theorem wr64_finRaw : (wr64 s t n off z).finRaw = s.finRaw := rfl
@[simp] theorem wr64_pwmClkLost : (wr64 s t n off z).pwmClkLost = s.pwmClkLost := rfl
@[simp] theorem wr64_pwmPads : (wr64 s t n off z).pwmPads = s.pwmPads := rfl
@[simp] theorem wr64_fchs : (wr64 s t n off z).fchs = s.fchs := rfl
@[simp] theorem wr64_fcgs : (wr64 s t n off z).fcgs = s.fcgs := rfl
@[simp] theorem wr64_pcvs : (wr64 s t n off z).pcvs = s.pcvs := rfl
@[simp] theorem wr64_les : (wr64 s t n off z).les = s.les := rfl
@[simp] theorem wr64_rseqs : (wr64 s t n off z).rseqs = s.rseqs := rfl
@[simp] theorem wr64_acqs : (wr64 s t n off z).acqs = s.acqs := rfl
@[simp] theorem wr64_sigCopy : (wr64 s t n off z).sigCopy = s.sigCopy := rfl
@[simp] theorem wr64_sigLoad : (wr64 s t n off z).sigLoad = s.sigLoad := rfl
@[simp] theorem wr64_histPos : (wr64 s t n off z).histPos = s.histPos := rfl
@[simp] theorem wr64_histCnt : (wr64 s t n off z).histCnt = s.histCnt := rfl
@[simp] theorem wr64_histWrap : (wr64 s t n off z).histWrap = s.histWrap := rfl
@[simp] theorem wr64_histSec : (wr64 s t n off z).histSec = s.histSec := rfl
@[simp] theorem wr64_recExp : (wr64 s t n off z).recExp = s.recExp := rfl
@[simp] theorem wr64_part : (wr64 s t n off z).part = s.part := rfl
@[simp] theorem wr64_tickAt : (wr64 s t n off z).tickAt = s.tickAt := rfl
@[simp] theorem wr64_timeStep : (wr64 s t n off z).timeStep = s.timeStep := rfl
@[simp] theorem wr64_stepDone : (wr64 s t n off z).stepDone = s.stepDone := rfl
@[simp] theorem wr64_adjAt : (wr64 s t n off z).adjAt = s.adjAt := rfl
@[simp] theorem wr64_joinDue : (wr64 s t n off z).joinDue = s.joinDue := rfl
@[simp] theorem wr64_joinCnt : (wr64 s t n off z).joinCnt = s.joinCnt := rfl
@[simp] theorem wr64_joinOk : (wr64 s t n off z).joinOk = s.joinOk := rfl
@[simp] theorem wr64_trgPin : (wr64 s t n off z).trgPin = s.trgPin := rfl
@[simp] theorem wr64_trgLocal : (wr64 s t n off z).trgLocal = s.trgLocal := rfl
@[simp] theorem wr64_trgSeen : (wr64 s t n off z).trgSeen = s.trgSeen := rfl
@[simp] theorem wr64_trgAt : (wr64 s t n off z).trgAt = s.trgAt := rfl
@[simp] theorem wr64_trgQ : (wr64 s t n off z).trgQ = s.trgQ := rfl
@[simp] theorem wr64_trgDone : (wr64 s t n off z).trgDone = s.trgDone := rfl
@[simp] theorem wr64_nodeGap : (wr64 s t n off z).nodeGap = s.nodeGap := rfl
@[simp] theorem wr64_dlks : (wr64 s t n off z).dlks = s.dlks := rfl
@[simp] theorem wr64_txq : (wr64 s t n off z).txq = s.txq := rfl
@[simp] theorem wr64_hostOut : (wr64 s t n off z).hostOut = s.hostOut := rfl
@[simp] theorem wr64_hsp : (wr64 s t n off z).hsp = s.hsp := rfl
@[simp] theorem wr64_msps : (wr64 s t n off z).msps = s.msps := rfl
@[simp] theorem wr64_psps : (wr64 s t n off z).psps = s.psps := rfl
@[simp] theorem wr64_ethTbl : (wr64 s t n off z).ethTbl = s.ethTbl := rfl
@[simp] theorem wr64_ethOut : (wr64 s t n off z).ethOut = s.ethOut := rfl
@[simp] theorem wr64_apRestart : (wr64 s t n off z).apRestart = s.apRestart := rfl
@[simp] theorem wr64_apHalt : (wr64 s t n off z).apHalt = s.apHalt := rfl
@[simp] theorem wr64_dbgHalt : (wr64 s t n off z).dbgHalt = s.dbgHalt := rfl
@[simp] theorem wr64_cans : (wr64 s t n off z).cans = s.cans := rfl
@[simp] theorem wr64_dio : (wr64 s t n off z).dio = s.dio := rfl
@[simp] theorem wr64_otp : (wr64 s t n off z).otp = s.otp := rfl
@[simp] theorem wr64_keys : (wr64 s t n off z).keys = s.keys := rfl
@[simp] theorem wr64_runVer : (wr64 s t n off z).runVer = s.runVer := rfl
@[simp] theorem wr64_failAt : (wr64 s t n off z).failAt = s.failAt := rfl
@[simp] theorem wr64_tampLog : (wr64 s t n off z).tampLog = s.tampLog := rfl
@[simp] theorem wr64_vbatBase : (wr64 s t n off z).vbatBase = s.vbatBase := rfl
@[simp] theorem wr64_jtag : (wr64 s t n off z).jtag = s.jtag := rfl
@[simp] theorem wr64_swOff : (wr64 s t n off z).swOff = s.swOff := rfl
@[simp] theorem wr64_swOn : (wr64 s t n off z).swOn = s.swOn := rfl
@[simp] theorem wr64_trained : (wr64 s t n off z).trained = s.trained := rfl
@[simp] theorem wr64_padIn : (wr64 s t n off z).padIn = s.padIn := rfl
@[simp] theorem wr64_histQ : (wr64 s t n off z).histQ = s.histQ := rfl
@[simp] theorem wr64_histLost : (wr64 s t n off z).histLost = s.histLost := rfl
@[simp] theorem wr64_resp : (wr64 s t n off z).resp = s.resp := rfl
@[simp] theorem wr64_seed : (wr64 s t n off z).seed = s.seed := rfl
@[simp] theorem wr64_pending : (wr64 s t n off z).pending = s.pending := rfl
@[simp] theorem wrTs_now : (wrTs s t n off ts).now = s.now := rfl
@[simp] theorem wrTs_stepSum : (wrTs s t n off ts).stepSum = s.stepSum := rfl
@[simp] theorem wrTs_lastStep : (wrTs s t n off ts).lastStep = s.lastStep := rfl
@[simp] theorem wrTs_dom : (wrTs s t n off ts).dom = s.dom := rfl
@[simp] theorem wrTs_sigs : (wrTs s t n off ts).sigs = s.sigs := rfl
@[simp] theorem wrTs_slots : (wrTs s t n off ts).slots = s.slots := rfl
@[simp] theorem wrTs_recCnt : (wrTs s t n off ts).recCnt = s.recCnt := rfl
@[simp] theorem wrTs_mem : (wrTs s t n off ts).mem = s.mem := rfl
@[simp] theorem wrTs_frc : (wrTs s t n off ts).frc = s.frc := rfl
@[simp] theorem wrTs_frcKeep : (wrTs s t n off ts).frcKeep = s.frcKeep := rfl
@[simp] theorem wrTs_flog : (wrTs s t n off ts).flog = s.flog := rfl
@[simp] theorem wrTs_holds : (wrTs s t n off ts).holds = s.holds := rfl
@[simp] theorem wrTs_recDue : (wrTs s t n off ts).recDue = s.recDue := rfl
@[simp] theorem wrTs_fabLog : (wrTs s t n off ts).fabLog = s.fabLog := rfl
@[simp] theorem wrTs_irqMap : (wrTs s t n off ts).irqMap = s.irqMap := rfl
@[simp] theorem wrTs_irqOn : (wrTs s t n off ts).irqOn = s.irqOn := rfl
@[simp] theorem wrTs_msixTbl : (wrTs s t n off ts).msixTbl = s.msixTbl := rfl
@[simp] theorem wrTs_msixPend : (wrTs s t n off ts).msixPend = s.msixPend := rfl
@[simp] theorem wrTs_msixMask : (wrTs s t n off ts).msixMask = s.msixMask := rfl
@[simp] theorem wrTs_msixSent : (wrTs s t n off ts).msixSent = s.msixSent := rfl
@[simp] theorem wrTs_encs : (wrTs s t n off ts).encs = s.encs := rfl
@[simp] theorem wrTs_ssns : (wrTs s t n off ts).ssns = s.ssns := rfl
@[simp] theorem wrTs_pcmps : (wrTs s t n off ts).pcmps = s.pcmps := rfl
@[simp] theorem wrTs_steps : (wrTs s t n off ts).steps = s.steps := rfl
@[simp] theorem wrTs_axes : (wrTs s t n off ts).axes = s.axes := rfl
@[simp] theorem wrTs_prkSel : (wrTs s t n off ts).prkSel = s.prkSel := rfl
@[simp] theorem wrTs_scrubAt : (wrTs s t n off ts).scrubAt = s.scrubAt := rfl
@[simp] theorem wrTs_img1 : (wrTs s t n off ts).img1 = s.img1 := rfl
@[simp] theorem wrTs_img2 : (wrTs s t n off ts).img2 = s.img2 := rfl
@[simp] theorem wrTs_ustp : (wrTs s t n off ts).ustp = s.ustp := rfl
@[simp] theorem wrTs_lcs : (wrTs s t n off ts).lcs = s.lcs := rfl
@[simp] theorem wrTs_lschTick : (wrTs s t n off ts).lschTick = s.lschTick := rfl
@[simp] theorem wrTs_lschT0 : (wrTs s t n off ts).lschT0 = s.lschT0 := rfl
@[simp] theorem wrTs_lschZero : (wrTs s t n off ts).lschZero = s.lschZero := rfl
@[simp] theorem wrTs_taskFlags : (wrTs s t n off ts).taskFlags = s.taskFlags := rfl
@[simp] theorem wrTs_lschOp : (wrTs s t n off ts).lschOp = s.lschOp := rfl
@[simp] theorem wrTs_lschFoQ : (wrTs s t n off ts).lschFoQ = s.lschFoQ := rfl
@[simp] theorem wrTs_cslots : (wrTs s t n off ts).cslots = s.cslots := rfl
@[simp] theorem wrTs_ceQ : (wrTs s t n off ts).ceQ = s.ceQ := rfl
@[simp] theorem wrTs_pwms : (wrTs s t n off ts).pwms = s.pwms := rfl
@[simp] theorem wrTs_finRaw : (wrTs s t n off ts).finRaw = s.finRaw := rfl
@[simp] theorem wrTs_pwmClkLost : (wrTs s t n off ts).pwmClkLost = s.pwmClkLost := rfl
@[simp] theorem wrTs_pwmPads : (wrTs s t n off ts).pwmPads = s.pwmPads := rfl
@[simp] theorem wrTs_fchs : (wrTs s t n off ts).fchs = s.fchs := rfl
@[simp] theorem wrTs_fcgs : (wrTs s t n off ts).fcgs = s.fcgs := rfl
@[simp] theorem wrTs_pcvs : (wrTs s t n off ts).pcvs = s.pcvs := rfl
@[simp] theorem wrTs_les : (wrTs s t n off ts).les = s.les := rfl
@[simp] theorem wrTs_rseqs : (wrTs s t n off ts).rseqs = s.rseqs := rfl
@[simp] theorem wrTs_acqs : (wrTs s t n off ts).acqs = s.acqs := rfl
@[simp] theorem wrTs_sigCopy : (wrTs s t n off ts).sigCopy = s.sigCopy := rfl
@[simp] theorem wrTs_sigLoad : (wrTs s t n off ts).sigLoad = s.sigLoad := rfl
@[simp] theorem wrTs_histPos : (wrTs s t n off ts).histPos = s.histPos := rfl
@[simp] theorem wrTs_histCnt : (wrTs s t n off ts).histCnt = s.histCnt := rfl
@[simp] theorem wrTs_histWrap : (wrTs s t n off ts).histWrap = s.histWrap := rfl
@[simp] theorem wrTs_histSec : (wrTs s t n off ts).histSec = s.histSec := rfl
@[simp] theorem wrTs_recExp : (wrTs s t n off ts).recExp = s.recExp := rfl
@[simp] theorem wrTs_part : (wrTs s t n off ts).part = s.part := rfl
@[simp] theorem wrTs_tickAt : (wrTs s t n off ts).tickAt = s.tickAt := rfl
@[simp] theorem wrTs_timeStep : (wrTs s t n off ts).timeStep = s.timeStep := rfl
@[simp] theorem wrTs_stepDone : (wrTs s t n off ts).stepDone = s.stepDone := rfl
@[simp] theorem wrTs_adjAt : (wrTs s t n off ts).adjAt = s.adjAt := rfl
@[simp] theorem wrTs_joinDue : (wrTs s t n off ts).joinDue = s.joinDue := rfl
@[simp] theorem wrTs_joinCnt : (wrTs s t n off ts).joinCnt = s.joinCnt := rfl
@[simp] theorem wrTs_joinOk : (wrTs s t n off ts).joinOk = s.joinOk := rfl
@[simp] theorem wrTs_trgPin : (wrTs s t n off ts).trgPin = s.trgPin := rfl
@[simp] theorem wrTs_trgLocal : (wrTs s t n off ts).trgLocal = s.trgLocal := rfl
@[simp] theorem wrTs_trgSeen : (wrTs s t n off ts).trgSeen = s.trgSeen := rfl
@[simp] theorem wrTs_trgAt : (wrTs s t n off ts).trgAt = s.trgAt := rfl
@[simp] theorem wrTs_trgQ : (wrTs s t n off ts).trgQ = s.trgQ := rfl
@[simp] theorem wrTs_trgDone : (wrTs s t n off ts).trgDone = s.trgDone := rfl
@[simp] theorem wrTs_nodeGap : (wrTs s t n off ts).nodeGap = s.nodeGap := rfl
@[simp] theorem wrTs_dlks : (wrTs s t n off ts).dlks = s.dlks := rfl
@[simp] theorem wrTs_txq : (wrTs s t n off ts).txq = s.txq := rfl
@[simp] theorem wrTs_hostOut : (wrTs s t n off ts).hostOut = s.hostOut := rfl
@[simp] theorem wrTs_hsp : (wrTs s t n off ts).hsp = s.hsp := rfl
@[simp] theorem wrTs_msps : (wrTs s t n off ts).msps = s.msps := rfl
@[simp] theorem wrTs_psps : (wrTs s t n off ts).psps = s.psps := rfl
@[simp] theorem wrTs_ethTbl : (wrTs s t n off ts).ethTbl = s.ethTbl := rfl
@[simp] theorem wrTs_ethOut : (wrTs s t n off ts).ethOut = s.ethOut := rfl
@[simp] theorem wrTs_apRestart : (wrTs s t n off ts).apRestart = s.apRestart := rfl
@[simp] theorem wrTs_apHalt : (wrTs s t n off ts).apHalt = s.apHalt := rfl
@[simp] theorem wrTs_dbgHalt : (wrTs s t n off ts).dbgHalt = s.dbgHalt := rfl
@[simp] theorem wrTs_cans : (wrTs s t n off ts).cans = s.cans := rfl
@[simp] theorem wrTs_dio : (wrTs s t n off ts).dio = s.dio := rfl
@[simp] theorem wrTs_otp : (wrTs s t n off ts).otp = s.otp := rfl
@[simp] theorem wrTs_keys : (wrTs s t n off ts).keys = s.keys := rfl
@[simp] theorem wrTs_runVer : (wrTs s t n off ts).runVer = s.runVer := rfl
@[simp] theorem wrTs_failAt : (wrTs s t n off ts).failAt = s.failAt := rfl
@[simp] theorem wrTs_tampLog : (wrTs s t n off ts).tampLog = s.tampLog := rfl
@[simp] theorem wrTs_vbatBase : (wrTs s t n off ts).vbatBase = s.vbatBase := rfl
@[simp] theorem wrTs_jtag : (wrTs s t n off ts).jtag = s.jtag := rfl
@[simp] theorem wrTs_swOff : (wrTs s t n off ts).swOff = s.swOff := rfl
@[simp] theorem wrTs_swOn : (wrTs s t n off ts).swOn = s.swOn := rfl
@[simp] theorem wrTs_trained : (wrTs s t n off ts).trained = s.trained := rfl
@[simp] theorem wrTs_padIn : (wrTs s t n off ts).padIn = s.padIn := rfl
@[simp] theorem wrTs_histQ : (wrTs s t n off ts).histQ = s.histQ := rfl
@[simp] theorem wrTs_histLost : (wrTs s t n off ts).histLost = s.histLost := rfl
@[simp] theorem wrTs_resp : (wrTs s t n off ts).resp = s.resp := rfl
@[simp] theorem wrTs_seed : (wrTs s t n off ts).seed = s.seed := rfl
@[simp] theorem wrTs_pending : (wrTs s t n off ts).pending = s.pending := rfl
@[simp] theorem setInts_now : (setInts s t n w).now = s.now := rfl
@[simp] theorem setInts_stepSum : (setInts s t n w).stepSum = s.stepSum := rfl
@[simp] theorem setInts_lastStep : (setInts s t n w).lastStep = s.lastStep := rfl
@[simp] theorem setInts_dom : (setInts s t n w).dom = s.dom := rfl
@[simp] theorem setInts_sigs : (setInts s t n w).sigs = s.sigs := rfl
@[simp] theorem setInts_slots : (setInts s t n w).slots = s.slots := rfl
@[simp] theorem setInts_recCnt : (setInts s t n w).recCnt = s.recCnt := rfl
@[simp] theorem setInts_mem : (setInts s t n w).mem = s.mem := rfl
@[simp] theorem setInts_frc : (setInts s t n w).frc = s.frc := rfl
@[simp] theorem setInts_frcKeep : (setInts s t n w).frcKeep = s.frcKeep := rfl
@[simp] theorem setInts_flog : (setInts s t n w).flog = s.flog := rfl
@[simp] theorem setInts_holds : (setInts s t n w).holds = s.holds := rfl
@[simp] theorem setInts_recDue : (setInts s t n w).recDue = s.recDue := rfl
@[simp] theorem setInts_fabLog : (setInts s t n w).fabLog = s.fabLog := rfl
@[simp] theorem setInts_irqMap : (setInts s t n w).irqMap = s.irqMap := rfl
@[simp] theorem setInts_irqOn : (setInts s t n w).irqOn = s.irqOn := rfl
@[simp] theorem setInts_msixTbl : (setInts s t n w).msixTbl = s.msixTbl := rfl
@[simp] theorem setInts_msixPend : (setInts s t n w).msixPend = s.msixPend := rfl
@[simp] theorem setInts_msixMask : (setInts s t n w).msixMask = s.msixMask := rfl
@[simp] theorem setInts_msixSent : (setInts s t n w).msixSent = s.msixSent := rfl
@[simp] theorem setInts_encs : (setInts s t n w).encs = s.encs := rfl
@[simp] theorem setInts_ssns : (setInts s t n w).ssns = s.ssns := rfl
@[simp] theorem setInts_pcmps : (setInts s t n w).pcmps = s.pcmps := rfl
@[simp] theorem setInts_steps : (setInts s t n w).steps = s.steps := rfl
@[simp] theorem setInts_axes : (setInts s t n w).axes = s.axes := rfl
@[simp] theorem setInts_prkSel : (setInts s t n w).prkSel = s.prkSel := rfl
@[simp] theorem setInts_scrubAt : (setInts s t n w).scrubAt = s.scrubAt := rfl
@[simp] theorem setInts_img1 : (setInts s t n w).img1 = s.img1 := rfl
@[simp] theorem setInts_img2 : (setInts s t n w).img2 = s.img2 := rfl
@[simp] theorem setInts_ustp : (setInts s t n w).ustp = s.ustp := rfl
@[simp] theorem setInts_lcs : (setInts s t n w).lcs = s.lcs := rfl
@[simp] theorem setInts_lschTick : (setInts s t n w).lschTick = s.lschTick := rfl
@[simp] theorem setInts_lschT0 : (setInts s t n w).lschT0 = s.lschT0 := rfl
@[simp] theorem setInts_lschZero : (setInts s t n w).lschZero = s.lschZero := rfl
@[simp] theorem setInts_taskFlags : (setInts s t n w).taskFlags = s.taskFlags := rfl
@[simp] theorem setInts_lschOp : (setInts s t n w).lschOp = s.lschOp := rfl
@[simp] theorem setInts_lschFoQ : (setInts s t n w).lschFoQ = s.lschFoQ := rfl
@[simp] theorem setInts_cslots : (setInts s t n w).cslots = s.cslots := rfl
@[simp] theorem setInts_ceQ : (setInts s t n w).ceQ = s.ceQ := rfl
@[simp] theorem setInts_pwms : (setInts s t n w).pwms = s.pwms := rfl
@[simp] theorem setInts_finRaw : (setInts s t n w).finRaw = s.finRaw := rfl
@[simp] theorem setInts_pwmClkLost : (setInts s t n w).pwmClkLost = s.pwmClkLost := rfl
@[simp] theorem setInts_pwmPads : (setInts s t n w).pwmPads = s.pwmPads := rfl
@[simp] theorem setInts_fchs : (setInts s t n w).fchs = s.fchs := rfl
@[simp] theorem setInts_fcgs : (setInts s t n w).fcgs = s.fcgs := rfl
@[simp] theorem setInts_pcvs : (setInts s t n w).pcvs = s.pcvs := rfl
@[simp] theorem setInts_les : (setInts s t n w).les = s.les := rfl
@[simp] theorem setInts_rseqs : (setInts s t n w).rseqs = s.rseqs := rfl
@[simp] theorem setInts_acqs : (setInts s t n w).acqs = s.acqs := rfl
@[simp] theorem setInts_sigCopy : (setInts s t n w).sigCopy = s.sigCopy := rfl
@[simp] theorem setInts_sigLoad : (setInts s t n w).sigLoad = s.sigLoad := rfl
@[simp] theorem setInts_histPos : (setInts s t n w).histPos = s.histPos := rfl
@[simp] theorem setInts_histCnt : (setInts s t n w).histCnt = s.histCnt := rfl
@[simp] theorem setInts_histWrap : (setInts s t n w).histWrap = s.histWrap := rfl
@[simp] theorem setInts_histSec : (setInts s t n w).histSec = s.histSec := rfl
@[simp] theorem setInts_recExp : (setInts s t n w).recExp = s.recExp := rfl
@[simp] theorem setInts_part : (setInts s t n w).part = s.part := rfl
@[simp] theorem setInts_tickAt : (setInts s t n w).tickAt = s.tickAt := rfl
@[simp] theorem setInts_timeStep : (setInts s t n w).timeStep = s.timeStep := rfl
@[simp] theorem setInts_stepDone : (setInts s t n w).stepDone = s.stepDone := rfl
@[simp] theorem setInts_adjAt : (setInts s t n w).adjAt = s.adjAt := rfl
@[simp] theorem setInts_joinDue : (setInts s t n w).joinDue = s.joinDue := rfl
@[simp] theorem setInts_joinCnt : (setInts s t n w).joinCnt = s.joinCnt := rfl
@[simp] theorem setInts_joinOk : (setInts s t n w).joinOk = s.joinOk := rfl
@[simp] theorem setInts_trgPin : (setInts s t n w).trgPin = s.trgPin := rfl
@[simp] theorem setInts_trgLocal : (setInts s t n w).trgLocal = s.trgLocal := rfl
@[simp] theorem setInts_trgSeen : (setInts s t n w).trgSeen = s.trgSeen := rfl
@[simp] theorem setInts_trgAt : (setInts s t n w).trgAt = s.trgAt := rfl
@[simp] theorem setInts_trgQ : (setInts s t n w).trgQ = s.trgQ := rfl
@[simp] theorem setInts_trgDone : (setInts s t n w).trgDone = s.trgDone := rfl
@[simp] theorem setInts_nodeGap : (setInts s t n w).nodeGap = s.nodeGap := rfl
@[simp] theorem setInts_dlks : (setInts s t n w).dlks = s.dlks := rfl
@[simp] theorem setInts_txq : (setInts s t n w).txq = s.txq := rfl
@[simp] theorem setInts_hostOut : (setInts s t n w).hostOut = s.hostOut := rfl
@[simp] theorem setInts_hsp : (setInts s t n w).hsp = s.hsp := rfl
@[simp] theorem setInts_msps : (setInts s t n w).msps = s.msps := rfl
@[simp] theorem setInts_psps : (setInts s t n w).psps = s.psps := rfl
@[simp] theorem setInts_ethTbl : (setInts s t n w).ethTbl = s.ethTbl := rfl
@[simp] theorem setInts_ethOut : (setInts s t n w).ethOut = s.ethOut := rfl
@[simp] theorem setInts_apRestart : (setInts s t n w).apRestart = s.apRestart := rfl
@[simp] theorem setInts_apHalt : (setInts s t n w).apHalt = s.apHalt := rfl
@[simp] theorem setInts_dbgHalt : (setInts s t n w).dbgHalt = s.dbgHalt := rfl
@[simp] theorem setInts_cans : (setInts s t n w).cans = s.cans := rfl
@[simp] theorem setInts_dio : (setInts s t n w).dio = s.dio := rfl
@[simp] theorem setInts_otp : (setInts s t n w).otp = s.otp := rfl
@[simp] theorem setInts_keys : (setInts s t n w).keys = s.keys := rfl
@[simp] theorem setInts_runVer : (setInts s t n w).runVer = s.runVer := rfl
@[simp] theorem setInts_failAt : (setInts s t n w).failAt = s.failAt := rfl
@[simp] theorem setInts_tampLog : (setInts s t n w).tampLog = s.tampLog := rfl
@[simp] theorem setInts_vbatBase : (setInts s t n w).vbatBase = s.vbatBase := rfl
@[simp] theorem setInts_jtag : (setInts s t n w).jtag = s.jtag := rfl
@[simp] theorem setInts_swOff : (setInts s t n w).swOff = s.swOff := rfl
@[simp] theorem setInts_swOn : (setInts s t n w).swOn = s.swOn := rfl
@[simp] theorem setInts_trained : (setInts s t n w).trained = s.trained := rfl
@[simp] theorem setInts_padIn : (setInts s t n w).padIn = s.padIn := rfl
@[simp] theorem setInts_histQ : (setInts s t n w).histQ = s.histQ := rfl
@[simp] theorem setInts_histLost : (setInts s t n w).histLost = s.histLost := rfl
@[simp] theorem setInts_resp : (setInts s t n w).resp = s.resp := rfl
@[simp] theorem setInts_seed : (setInts s t n w).seed = s.seed := rfl
@[simp] theorem setInts_pending : (setInts s t n w).pending = s.pending := rfl
@[simp] theorem setInt_now : (setInt s t n i).now = s.now := rfl
@[simp] theorem setInt_stepSum : (setInt s t n i).stepSum = s.stepSum := rfl
@[simp] theorem setInt_lastStep : (setInt s t n i).lastStep = s.lastStep := rfl
@[simp] theorem setInt_dom : (setInt s t n i).dom = s.dom := rfl
@[simp] theorem setInt_sigs : (setInt s t n i).sigs = s.sigs := rfl
@[simp] theorem setInt_slots : (setInt s t n i).slots = s.slots := rfl
@[simp] theorem setInt_recCnt : (setInt s t n i).recCnt = s.recCnt := rfl
@[simp] theorem setInt_mem : (setInt s t n i).mem = s.mem := rfl
@[simp] theorem setInt_frc : (setInt s t n i).frc = s.frc := rfl
@[simp] theorem setInt_frcKeep : (setInt s t n i).frcKeep = s.frcKeep := rfl
@[simp] theorem setInt_flog : (setInt s t n i).flog = s.flog := rfl
@[simp] theorem setInt_holds : (setInt s t n i).holds = s.holds := rfl
@[simp] theorem setInt_recDue : (setInt s t n i).recDue = s.recDue := rfl
@[simp] theorem setInt_fabLog : (setInt s t n i).fabLog = s.fabLog := rfl
@[simp] theorem setInt_irqMap : (setInt s t n i).irqMap = s.irqMap := rfl
@[simp] theorem setInt_irqOn : (setInt s t n i).irqOn = s.irqOn := rfl
@[simp] theorem setInt_msixTbl : (setInt s t n i).msixTbl = s.msixTbl := rfl
@[simp] theorem setInt_msixPend : (setInt s t n i).msixPend = s.msixPend := rfl
@[simp] theorem setInt_msixMask : (setInt s t n i).msixMask = s.msixMask := rfl
@[simp] theorem setInt_msixSent : (setInt s t n i).msixSent = s.msixSent := rfl
@[simp] theorem setInt_encs : (setInt s t n i).encs = s.encs := rfl
@[simp] theorem setInt_ssns : (setInt s t n i).ssns = s.ssns := rfl
@[simp] theorem setInt_pcmps : (setInt s t n i).pcmps = s.pcmps := rfl
@[simp] theorem setInt_steps : (setInt s t n i).steps = s.steps := rfl
@[simp] theorem setInt_axes : (setInt s t n i).axes = s.axes := rfl
@[simp] theorem setInt_prkSel : (setInt s t n i).prkSel = s.prkSel := rfl
@[simp] theorem setInt_scrubAt : (setInt s t n i).scrubAt = s.scrubAt := rfl
@[simp] theorem setInt_img1 : (setInt s t n i).img1 = s.img1 := rfl
@[simp] theorem setInt_img2 : (setInt s t n i).img2 = s.img2 := rfl
@[simp] theorem setInt_ustp : (setInt s t n i).ustp = s.ustp := rfl
@[simp] theorem setInt_lcs : (setInt s t n i).lcs = s.lcs := rfl
@[simp] theorem setInt_lschTick : (setInt s t n i).lschTick = s.lschTick := rfl
@[simp] theorem setInt_lschT0 : (setInt s t n i).lschT0 = s.lschT0 := rfl
@[simp] theorem setInt_lschZero : (setInt s t n i).lschZero = s.lschZero := rfl
@[simp] theorem setInt_taskFlags : (setInt s t n i).taskFlags = s.taskFlags := rfl
@[simp] theorem setInt_lschOp : (setInt s t n i).lschOp = s.lschOp := rfl
@[simp] theorem setInt_lschFoQ : (setInt s t n i).lschFoQ = s.lschFoQ := rfl
@[simp] theorem setInt_cslots : (setInt s t n i).cslots = s.cslots := rfl
@[simp] theorem setInt_ceQ : (setInt s t n i).ceQ = s.ceQ := rfl
@[simp] theorem setInt_pwms : (setInt s t n i).pwms = s.pwms := rfl
@[simp] theorem setInt_finRaw : (setInt s t n i).finRaw = s.finRaw := rfl
@[simp] theorem setInt_pwmClkLost : (setInt s t n i).pwmClkLost = s.pwmClkLost := rfl
@[simp] theorem setInt_pwmPads : (setInt s t n i).pwmPads = s.pwmPads := rfl
@[simp] theorem setInt_fchs : (setInt s t n i).fchs = s.fchs := rfl
@[simp] theorem setInt_fcgs : (setInt s t n i).fcgs = s.fcgs := rfl
@[simp] theorem setInt_pcvs : (setInt s t n i).pcvs = s.pcvs := rfl
@[simp] theorem setInt_les : (setInt s t n i).les = s.les := rfl
@[simp] theorem setInt_rseqs : (setInt s t n i).rseqs = s.rseqs := rfl
@[simp] theorem setInt_acqs : (setInt s t n i).acqs = s.acqs := rfl
@[simp] theorem setInt_sigCopy : (setInt s t n i).sigCopy = s.sigCopy := rfl
@[simp] theorem setInt_sigLoad : (setInt s t n i).sigLoad = s.sigLoad := rfl
@[simp] theorem setInt_histPos : (setInt s t n i).histPos = s.histPos := rfl
@[simp] theorem setInt_histCnt : (setInt s t n i).histCnt = s.histCnt := rfl
@[simp] theorem setInt_histWrap : (setInt s t n i).histWrap = s.histWrap := rfl
@[simp] theorem setInt_histSec : (setInt s t n i).histSec = s.histSec := rfl
@[simp] theorem setInt_recExp : (setInt s t n i).recExp = s.recExp := rfl
@[simp] theorem setInt_part : (setInt s t n i).part = s.part := rfl
@[simp] theorem setInt_tickAt : (setInt s t n i).tickAt = s.tickAt := rfl
@[simp] theorem setInt_timeStep : (setInt s t n i).timeStep = s.timeStep := rfl
@[simp] theorem setInt_stepDone : (setInt s t n i).stepDone = s.stepDone := rfl
@[simp] theorem setInt_adjAt : (setInt s t n i).adjAt = s.adjAt := rfl
@[simp] theorem setInt_joinDue : (setInt s t n i).joinDue = s.joinDue := rfl
@[simp] theorem setInt_joinCnt : (setInt s t n i).joinCnt = s.joinCnt := rfl
@[simp] theorem setInt_joinOk : (setInt s t n i).joinOk = s.joinOk := rfl
@[simp] theorem setInt_trgPin : (setInt s t n i).trgPin = s.trgPin := rfl
@[simp] theorem setInt_trgLocal : (setInt s t n i).trgLocal = s.trgLocal := rfl
@[simp] theorem setInt_trgSeen : (setInt s t n i).trgSeen = s.trgSeen := rfl
@[simp] theorem setInt_trgAt : (setInt s t n i).trgAt = s.trgAt := rfl
@[simp] theorem setInt_trgQ : (setInt s t n i).trgQ = s.trgQ := rfl
@[simp] theorem setInt_trgDone : (setInt s t n i).trgDone = s.trgDone := rfl
@[simp] theorem setInt_nodeGap : (setInt s t n i).nodeGap = s.nodeGap := rfl
@[simp] theorem setInt_dlks : (setInt s t n i).dlks = s.dlks := rfl
@[simp] theorem setInt_txq : (setInt s t n i).txq = s.txq := rfl
@[simp] theorem setInt_hostOut : (setInt s t n i).hostOut = s.hostOut := rfl
@[simp] theorem setInt_hsp : (setInt s t n i).hsp = s.hsp := rfl
@[simp] theorem setInt_msps : (setInt s t n i).msps = s.msps := rfl
@[simp] theorem setInt_psps : (setInt s t n i).psps = s.psps := rfl
@[simp] theorem setInt_ethTbl : (setInt s t n i).ethTbl = s.ethTbl := rfl
@[simp] theorem setInt_ethOut : (setInt s t n i).ethOut = s.ethOut := rfl
@[simp] theorem setInt_apRestart : (setInt s t n i).apRestart = s.apRestart := rfl
@[simp] theorem setInt_apHalt : (setInt s t n i).apHalt = s.apHalt := rfl
@[simp] theorem setInt_dbgHalt : (setInt s t n i).dbgHalt = s.dbgHalt := rfl
@[simp] theorem setInt_cans : (setInt s t n i).cans = s.cans := rfl
@[simp] theorem setInt_dio : (setInt s t n i).dio = s.dio := rfl
@[simp] theorem setInt_otp : (setInt s t n i).otp = s.otp := rfl
@[simp] theorem setInt_keys : (setInt s t n i).keys = s.keys := rfl
@[simp] theorem setInt_runVer : (setInt s t n i).runVer = s.runVer := rfl
@[simp] theorem setInt_failAt : (setInt s t n i).failAt = s.failAt := rfl
@[simp] theorem setInt_tampLog : (setInt s t n i).tampLog = s.tampLog := rfl
@[simp] theorem setInt_vbatBase : (setInt s t n i).vbatBase = s.vbatBase := rfl
@[simp] theorem setInt_jtag : (setInt s t n i).jtag = s.jtag := rfl
@[simp] theorem setInt_swOff : (setInt s t n i).swOff = s.swOff := rfl
@[simp] theorem setInt_swOn : (setInt s t n i).swOn = s.swOn := rfl
@[simp] theorem setInt_trained : (setInt s t n i).trained = s.trained := rfl
@[simp] theorem setInt_padIn : (setInt s t n i).padIn = s.padIn := rfl
@[simp] theorem setInt_histQ : (setInt s t n i).histQ = s.histQ := rfl
@[simp] theorem setInt_histLost : (setInt s t n i).histLost = s.histLost := rfl
@[simp] theorem setInt_resp : (setInt s t n i).resp = s.resp := rfl
@[simp] theorem setInt_seed : (setInt s t n i).seed = s.seed := rfl
@[simp] theorem setInt_pending : (setInt s t n i).pending = s.pending := rfl

/-! ## Registers -/

/-- A bit of a register replaced. -/
@[simp] theorem rg_wb_same : rg (wb s t n off i b) t n off = setBit (rg s t n off) i b := by simp [wb]

/-- A field of a register replaced. -/
@[simp] theorem rg_wf_same : rg (wf s t n off lo len x) t n off = setFld (rg s t n off) lo len x := by simp [wf]

theorem rg_wb (off' : Nat) : rg (wb s t n off i b) t n off' = if off' = off then setBit (rg s t n off) i b else rg s t n off' := by
  simp [wb, rg_wr]

theorem rg_wf (off' : Nat) :
    rg (wf s t n off lo len x) t n off' = if off' = off then setFld (rg s t n off) lo len x else rg s t n off' := by
  simp [wf, rg_wr]

@[simp] theorem wb_page : (wb s t n off i b).page k =
    if k = pk t n then Page.wr t off (setBit (rg s t n off) i b) (s.page (pk t n)) else s.page k := by simp [wb]

@[simp] theorem wf_page : (wf s t n off lo len x).page k =
    if k = pk t n then Page.wr t off (setFld (rg s t n off) lo len x) (s.page (pk t n)) else s.page k := by simp [wf]

@[simp] theorem setInts_page : (setInts s t n w).page k =
    if k = pk t n then { s.page (pk t n) with intRaw := (s.page (pk t n)).intRaw ||| w } else s.page k := by simp [setInts]

@[simp] theorem setInt_page : (setInt s t n i).page k =
    if k = pk t n then { s.page (pk t n) with intRaw := (s.page (pk t n)).intRaw ||| 1#32 <<< i } else s.page k := by
  simp [setInt]

/-- Interrupts raised change no register in force. -/
@[simp] theorem rg_setInts (t' : PgTy) (n' off' : Nat) : rg (setInts s t n w) t' n' off' = rg s t' n' off' := by
  simp only [rg, setInts_page]; split
  · rename_i h; rw [h]
  · rfl

@[simp] theorem rg_setInt (t' : PgTy) (n' off' : Nat) : rg (setInt s t n i) t' n' off' = rg s t' n' off' := by
  simp [setInt]

/-- A change of a page that leaves its registers changes no register in force. -/
theorem rg_modPage (f : Page → Page) (t' : PgTy) (n' off' : Nat) (h : ∀ p, (f p).regs = p.regs) :
    rg (s.modPage k f) t' n' off' = rg s t' n' off' := by
  simp only [rg, State.modPage_page]; split
  · rename_i e; rw [h, e]
  · rfl

end

/-! ## Memory -/

section
variable (s : State) (a k n : Nat) (p : Page) (f : Page → Page)
@[simp] theorem mem8_setPage : mem8 (s.setPage k p) a = mem8 s a := rfl
@[simp] theorem mem8_modPage : mem8 (s.modPage k f) a = mem8 s a := rfl
@[simp] theorem mem8_at : mem8 (s.at n) a = mem8 s a := rfl
@[simp] theorem mem8_next : mem8 s.next a = mem8 s a := rfl
@[simp] theorem mem8_wr (t : PgTy) (off : Nat) (v : Word) : mem8 (wr s t n off v) a = mem8 s a := rfl
@[simp] theorem mem8_wf (t : PgTy) (off lo len x : Nat) : mem8 (wf s t n off lo len x) a = mem8 s a := rfl
@[simp] theorem mem8_wb (t : PgTy) (off i : Nat) (b : Bool) : mem8 (wb s t n off i b) a = mem8 s a := rfl
@[simp] theorem mem8_wr64 (t : PgTy) (off : Nat) (z : Int) : mem8 (wr64 s t n off z) a = mem8 s a := rfl
@[simp] theorem mem8_wrTs (t : PgTy) (off : Nat) (ts : BitVec 35) : mem8 (wrTs s t n off ts) a = mem8 s a := rfl
@[simp] theorem mem8_setInts (t : PgTy) (w : Word) : mem8 (setInts s t n w) a = mem8 s a := rfl
@[simp] theorem mem8_setInt (t : PgTy) (i : Nat) : mem8 (setInt s t n i) a = mem8 s a := rfl

/-- States that list the same bytes read the same. -/
theorem mem8_of_mem {s r : State} (h : s.mem = r.mem) (a : Nat) : mem8 s a = mem8 r a := by simp [mem8, h]

/-- A byte of memory after one byte was written. -/
theorem mem8_putMem8 (s : State) (a a' : Nat) (b : Byte) (h : 0x40000 ≤ a') :
    mem8 (putMem8 s a b) a' = if a' = a then b else mem8 s a' := by
  simp [mem8, putMem8, show ¬a' < 0x40000 by omega]

/-- A write of memory keeps its canonical form. -/
theorem putMem8_wf (s : State) (a : Nat) (b : Byte) (h : Memory.wf s.mem = true) : Memory.wf (putMem8 s a b).mem = true :=
  SMap.set_wf memDefault s.mem a b h

theorem putMem32_wf (s : State) (a : Nat) (w : Word) (h : Memory.wf s.mem = true) : Memory.wf (putMem32 s a w).mem = true :=
  putMem8_wf _ _ _ (putMem8_wf _ _ _ (putMem8_wf _ _ _ (putMem8_wf _ _ _ h)))

theorem putBytes_wf (s : State) (a : Nat) (l : List Nat) (h : Memory.wf s.mem = true) :
    Memory.wf (putBytes s a l).mem = true := by
  induction l generalizing s a with
  | nil => exact h
  | cons b l ih => exact ih _ _ (putMem8_wf _ _ _ h)

/-- Memory at reset has its canonical form. -/
theorem reset_mem_wf : Memory.wf State.reset.mem = true := rfl

end

end Sys2Proof.Machine
end

