-- ==== Sys2Proof/Laws/Commands.lean ====
section
/-! SUPPORT. What writing a command word to a page does (R54, R55): it is refused, it waits, or it acts at once. -/
namespace Sys2Proof.Machine

theorem fld_cmdWord (chk : BitVec 16) (code : Nat) (h : code < 65536) : fld (cmdWord chk code) 0 16 = code := by
  unfold fld cmdWord
  rw [BitVec.toNat_append, BitVec.toNat_ofNat, Nat.shiftRight_zero, Nat.shiftLeft_eq, Nat.or_mod_two_pow]
  simp
  omega

/-- The check half of a command word (R54). -/
theorem fld_cmdWord_check (chk : BitVec 16) (code : Nat) (h : code < 65536) : fld (cmdWord chk code) 16 16 = chk.toNat := by
  unfold fld cmdWord
  rw [BitVec.toNat_append, BitVec.toNat_ofNat, Nat.shiftRight_or_distrib, Nat.shiftLeft_shiftRight, Nat.mod_eq_of_lt h,
    Nat.shiftRight_eq_div_pow, Nat.div_eq_of_lt h, Nat.or_zero]
  exact Nat.mod_eq_of_lt chk.isLt

/-- The state of a page once PGCMD holds a word. -/
def State.cmdTaken (s : State) (t : PgTy) (n : Nat) (w : Word) : State :=
  s.modPage (pk t n) (fun p => { p with lastCmd := w })

@[simp] theorem cmdTaken_page (s : State) (t : PgTy) (n : Nat) (w : Word) (k : Nat) :
    (s.cmdTaken t n w).page k = if k = pk t n then { s.page (pk t n) with lastCmd := w } else s.page k := by
  simp [State.cmdTaken]

theorem cmdTaken_st (s : State) (t : PgTy) (n : Nat) (w : Word) (k : Nat) : ((s.cmdTaken t n w).page k).st = (s.page k).st := by
  simp only [cmdTaken_page]; split <;> simp_all

theorem cmdTaken_regs (s : State) (t : PgTy) (n : Nat) (w : Word) (k : Nat) :
    ((s.cmdTaken t n w).page k).regs = (s.page k).regs := by
  simp only [cmdTaken_page]; split <;> simp_all

theorem stOf_cmdTaken (s : State) (t t' : PgTy) (n n' : Nat) (w : Word) : stOf (s.cmdTaken t n w) t' n' = stOf s t' n' := by
  unfold stOf; rw [cmdTaken_st]; rfl

theorem inSt_cmdTaken (s : State) (t t' : PgTy) (n n' : Nat) (w : Word) (l : List PgState) :
    inSt (s.cmdTaken t n w) t' n' l = inSt s t' n' l := by
  unfold inSt; rw [stOf_cmdTaken]

theorem rg_cmdTaken (s : State) (t t' : PgTy) (n n' off : Nat) (w : Word) : rg (s.cmdTaken t n w) t' n' off = rg s t' n' off := by
  unfold rg; rw [cmdTaken_regs]

theorem rf_cmdTaken (s : State) (t t' : PgTy) (n n' off lo w' : Nat) (w : Word) :
    rf (s.cmdTaken t n w) t' n' off lo w' = rf s t' n' off lo w' := by
  unfold rf; rw [rg_cmdTaken]

theorem cmdTaken_en (s : State) (t : PgTy) (n : Nat) (w : Word) (k : Nat) : ((s.cmdTaken t n w).page k).en = (s.page k).en := by
  simp only [cmdTaken_page]; split <;> simp_all

/-- Whether a command waits does not depend on what PGCMD holds. -/
theorem cmdWaits_cmdTaken (s : State) (t t' : PgTy) (n n' : Nat) (w : Word) :
    cmdWaits (s.cmdTaken t n w) t' n' = cmdWaits s t' n' := by
  have hp : powered (s.cmdTaken t n w) = powered s := rfl
  have hw : pwmOf (s.cmdTaken t n w) = pwmOf s := rfl
  have hq : pspOf (s.cmdTaken t n w) = pspOf s := rfl
  have hc : (s.cmdTaken t n w).pwmClkLost = s.pwmClkLost := rfl
  cases t' <;> simp only [cmdWaits, boundaryRuns, inSt_cmdTaken, dlkUp, cslotLive, pwmCounts, pspBusy, dioOn, leBenchEn,
    rb, rg_cmdTaken, rf_cmdTaken, stOf_cmdTaken, cmdTaken_en, hp, hw, hq, hc]

/-- A write of PGCMD of a page that answers, with no unlock window open, is a command word of its master. -/
theorem sendCode_eq (s : State) (m : Master) (t : PgTy) (n code : Nat) (chk : BitVec 16) (ha : answers s ⟨t, n⟩ = true)
    (hk : (s.page (pk t n)).key ≠ .window) : sendCode s m t n code chk = sendCmd s t n m (cmdWord chk code) := by
  unfold sendCode putReg pageWrite
  simp [ha, hk, secSelvWrite, selvWrite, cmdWord]

/-- An accepted command that is free to act does so at once (R55). -/
theorem sendCode_acts {s : State} {t : PgTy} {n code : Nat} {m : Master} {chk : BitVec 16} (hc : code < 65536)
    (h : ActsNow s t n code m chk) :
    sendCode s m t n code chk = doCmd (s.cmdTaken t n (cmdWord chk code)) t n code := by
  obtain ⟨⟨ha, hk, hr⟩, -, r, hrule, hw, hf⟩ := h
  rw [sendCode_eq s m t n code chk ha hk]
  unfold sendCmd
  rw [hr]
  simp only [fld_cmdWord chk code hc, hrule]
  unfold acceptCmd
  rw [show s.modPage (pk t n) (fun p => { p with lastCmd := cmdWord chk code }) = s.cmdTaken t n (cmdWord chk code) from rfl,
    cmdWaits_cmdTaken, cmdTaken_page]
  rcases hw with hw | hw <;> rcases hf with hf | hf <;> simp [hw, hf]

/-- An accepted command whose page's boundary runs waits (R55). -/
theorem sendCode_waits {s : State} {t : PgTy} {n code : Nat} {m : Master} {chk : BitVec 16} (hc : code < 65536)
    (h : Waits s t n code m chk) :
    sendCode s m t n code chk = (s.cmdTaken t n (cmdWord chk code)).modPage (pk t n) (fun p => { p with cmd := some ⟨code, m⟩ }) := by
  obtain ⟨⟨ha, hk, hr⟩, r, hrule, hi, hw⟩ := h
  rw [sendCode_eq s m t n code chk ha hk]
  unfold sendCmd
  rw [hr]
  simp only [fld_cmdWord chk code hc, hrule]
  unfold acceptCmd
  rw [show s.modPage (pk t n) (fun p => { p with lastCmd := cmdWord chk code }) = s.cmdTaken t n (cmdWord chk code) from rfl,
    cmdWaits_cmdTaken]
  simp [hw, hi]

/-- A commit that is not accepted does not take effect with a command. -/
theorem settleCommit_none {s : State} {t : PgTy} {n : Nat} (h : commitReady s t n = false) : settleCommit s t n = s := by
  unfold settleCommit commitBoundary
  simp [h]

/-! ## The state a command acts on -/

/-- The state in which a command's effect begins: PGCMD holds the word, none is pending, PGERR is clear, CMD_DONE is set (R55). -/
def State.acting (s : State) (t : PgTy) (n : Nat) (w : Word) : State := cmdDone (s.cmdTaken t n w) t n

section
variable (s : State) (t t' : PgTy) (n n' k off : Nat) (w : Word)

@[simp] theorem acting_page : (s.acting t n w).page k = if k = pk t n then
    { s.page (pk t n) with lastCmd := w, cmd := none, err := 0, intRaw := (s.page (pk t n)).intRaw ||| 1#32 <<< 29 }
    else s.page k := by
  simp only [State.acting, cmdDone, setInt_page, State.modPage_page, cmdTaken_page]
  split <;> simp_all

@[simp] theorem rg_acting (off : Nat) : rg (s.acting t n w) t' n' off = rg s t' n' off := by
  simp only [rg, acting_page]; split
  · rename_i e; rw [e]
  · rfl

@[simp] theorem stOf_acting : stOf (s.acting t n w) t' n' = stOf s t' n' := by
  unfold stOf
  rw [acting_page, show powered (s.acting t n w) = powered s from rfl]
  split
  · split
    · rename_i e; rw [e]
    · rfl
  · rfl

@[simp] theorem acting_now : (s.acting t n w).now = s.now := by simp [State.acting, cmdDone, State.cmdTaken]
@[simp] theorem acting_stepSum : (s.acting t n w).stepSum = s.stepSum := by simp [State.acting, cmdDone, State.cmdTaken]
@[simp] theorem acting_lastStep : (s.acting t n w).lastStep = s.lastStep := by simp [State.acting, cmdDone, State.cmdTaken]
@[simp] theorem acting_dom : (s.acting t n w).dom = s.dom := by simp [State.acting, cmdDone, State.cmdTaken]
@[simp] theorem acting_sigs : (s.acting t n w).sigs = s.sigs := by simp [State.acting, cmdDone, State.cmdTaken]
@[simp] theorem acting_slots : (s.acting t n w).slots = s.slots := by simp [State.acting, cmdDone, State.cmdTaken]
@[simp] theorem acting_recCnt : (s.acting t n w).recCnt = s.recCnt := by simp [State.acting, cmdDone, State.cmdTaken]
@[simp] theorem acting_mem : (s.acting t n w).mem = s.mem := by simp [State.acting, cmdDone, State.cmdTaken]
@[simp] theorem acting_frc : (s.acting t n w).frc = s.frc := by simp [State.acting, cmdDone, State.cmdTaken]
@[simp] theorem acting_frcKeep : (s.acting t n w).frcKeep = s.frcKeep := by simp [State.acting, cmdDone, State.cmdTaken]
@[simp] theorem acting_flog : (s.acting t n w).flog = s.flog := by simp [State.acting, cmdDone, State.cmdTaken]
@[simp] theorem acting_holds : (s.acting t n w).holds = s.holds := by simp [State.acting, cmdDone, State.cmdTaken]
@[simp] theorem acting_recDue : (s.acting t n w).recDue = s.recDue := by simp [State.acting, cmdDone, State.cmdTaken]
@[simp] theorem acting_fabLog : (s.acting t n w).fabLog = s.fabLog := by simp [State.acting, cmdDone, State.cmdTaken]
@[simp] theorem acting_irqMap : (s.acting t n w).irqMap = s.irqMap := by simp [State.acting, cmdDone, State.cmdTaken]
@[simp] theorem acting_irqOn : (s.acting t n w).irqOn = s.irqOn := by simp [State.acting, cmdDone, State.cmdTaken]
@[simp] theorem acting_msixTbl : (s.acting t n w).msixTbl = s.msixTbl := by simp [State.acting, cmdDone, State.cmdTaken]
@[simp] theorem acting_msixPend : (s.acting t n w).msixPend = s.msixPend := by simp [State.acting, cmdDone, State.cmdTaken]
@[simp] theorem acting_msixMask : (s.acting t n w).msixMask = s.msixMask := by simp [State.acting, cmdDone, State.cmdTaken]
@[simp] theorem acting_msixSent : (s.acting t n w).msixSent = s.msixSent := by simp [State.acting, cmdDone, State.cmdTaken]
@[simp] theorem acting_encs : (s.acting t n w).encs = s.encs := by simp [State.acting, cmdDone, State.cmdTaken]
@[simp] theorem acting_ssns : (s.acting t n w).ssns = s.ssns := by simp [State.acting, cmdDone, State.cmdTaken]
@[simp] theorem acting_pcmps : (s.acting t n w).pcmps = s.pcmps := by simp [State.acting, cmdDone, State.cmdTaken]
@[simp] theorem acting_steps : (s.acting t n w).steps = s.steps := by simp [State.acting, cmdDone, State.cmdTaken]
@[simp] theorem acting_axes : (s.acting t n w).axes = s.axes := by simp [State.acting, cmdDone, State.cmdTaken]
@[simp] theorem acting_prkSel : (s.acting t n w).prkSel = s.prkSel := by simp [State.acting, cmdDone, State.cmdTaken]
@[simp] theorem acting_scrubAt : (s.acting t n w).scrubAt = s.scrubAt := by simp [State.acting, cmdDone, State.cmdTaken]
@[simp] theorem acting_img1 : (s.acting t n w).img1 = s.img1 := by simp [State.acting, cmdDone, State.cmdTaken]
@[simp] theorem acting_img2 : (s.acting t n w).img2 = s.img2 := by simp [State.acting, cmdDone, State.cmdTaken]
@[simp] theorem acting_ustp : (s.acting t n w).ustp = s.ustp := by simp [State.acting, cmdDone, State.cmdTaken]
@[simp] theorem acting_lcs : (s.acting t n w).lcs = s.lcs := by simp [State.acting, cmdDone, State.cmdTaken]
@[simp] theorem acting_lschTick : (s.acting t n w).lschTick = s.lschTick := by simp [State.acting, cmdDone, State.cmdTaken]
@[simp] theorem acting_lschT0 : (s.acting t n w).lschT0 = s.lschT0 := by simp [State.acting, cmdDone, State.cmdTaken]
@[simp] theorem acting_lschZero : (s.acting t n w).lschZero = s.lschZero := by simp [State.acting, cmdDone, State.cmdTaken]
@[simp] theorem acting_taskFlags : (s.acting t n w).taskFlags = s.taskFlags := by simp [State.acting, cmdDone, State.cmdTaken]
@[simp] theorem acting_lschOp : (s.acting t n w).lschOp = s.lschOp := by simp [State.acting, cmdDone, State.cmdTaken]
@[simp] theorem acting_lschFoQ : (s.acting t n w).lschFoQ = s.lschFoQ := by simp [State.acting, cmdDone, State.cmdTaken]
@[simp] theorem acting_cslots : (s.acting t n w).cslots = s.cslots := by simp [State.acting, cmdDone, State.cmdTaken]
@[simp] theorem acting_ceQ : (s.acting t n w).ceQ = s.ceQ := by simp [State.acting, cmdDone, State.cmdTaken]
@[simp] theorem acting_pwms : (s.acting t n w).pwms = s.pwms := by simp [State.acting, cmdDone, State.cmdTaken]
@[simp] theorem acting_finRaw : (s.acting t n w).finRaw = s.finRaw := by simp [State.acting, cmdDone, State.cmdTaken]
@[simp] theorem acting_pwmClkLost : (s.acting t n w).pwmClkLost = s.pwmClkLost := by simp [State.acting, cmdDone, State.cmdTaken]
@[simp] theorem acting_pwmPads : (s.acting t n w).pwmPads = s.pwmPads := by simp [State.acting, cmdDone, State.cmdTaken]
@[simp] theorem acting_fchs : (s.acting t n w).fchs = s.fchs := by simp [State.acting, cmdDone, State.cmdTaken]
@[simp] theorem acting_fcgs : (s.acting t n w).fcgs = s.fcgs := by simp [State.acting, cmdDone, State.cmdTaken]
@[simp] theorem acting_pcvs : (s.acting t n w).pcvs = s.pcvs := by simp [State.acting, cmdDone, State.cmdTaken]
@[simp] theorem acting_les : (s.acting t n w).les = s.les := by simp [State.acting, cmdDone, State.cmdTaken]
@[simp] theorem acting_rseqs : (s.acting t n w).rseqs = s.rseqs := by simp [State.acting, cmdDone, State.cmdTaken]
@[simp] theorem acting_acqs : (s.acting t n w).acqs = s.acqs := by simp [State.acting, cmdDone, State.cmdTaken]
@[simp] theorem acting_sigCopy : (s.acting t n w).sigCopy = s.sigCopy := by simp [State.acting, cmdDone, State.cmdTaken]
@[simp] theorem acting_sigLoad : (s.acting t n w).sigLoad = s.sigLoad := by simp [State.acting, cmdDone, State.cmdTaken]
@[simp] theorem acting_histPos : (s.acting t n w).histPos = s.histPos := by simp [State.acting, cmdDone, State.cmdTaken]
@[simp] theorem acting_histCnt : (s.acting t n w).histCnt = s.histCnt := by simp [State.acting, cmdDone, State.cmdTaken]
@[simp] theorem acting_histWrap : (s.acting t n w).histWrap = s.histWrap := by simp [State.acting, cmdDone, State.cmdTaken]
@[simp] theorem acting_histSec : (s.acting t n w).histSec = s.histSec := by simp [State.acting, cmdDone, State.cmdTaken]
@[simp] theorem acting_recExp : (s.acting t n w).recExp = s.recExp := by simp [State.acting, cmdDone, State.cmdTaken]
@[simp] theorem acting_part : (s.acting t n w).part = s.part := by simp [State.acting, cmdDone, State.cmdTaken]
@[simp] theorem acting_tickAt : (s.acting t n w).tickAt = s.tickAt := by simp [State.acting, cmdDone, State.cmdTaken]
@[simp] theorem acting_timeStep : (s.acting t n w).timeStep = s.timeStep := by simp [State.acting, cmdDone, State.cmdTaken]
@[simp] theorem acting_stepDone : (s.acting t n w).stepDone = s.stepDone := by simp [State.acting, cmdDone, State.cmdTaken]
@[simp] theorem acting_adjAt : (s.acting t n w).adjAt = s.adjAt := by simp [State.acting, cmdDone, State.cmdTaken]
@[simp] theorem acting_joinDue : (s.acting t n w).joinDue = s.joinDue := by simp [State.acting, cmdDone, State.cmdTaken]
@[simp] theorem acting_joinCnt : (s.acting t n w).joinCnt = s.joinCnt := by simp [State.acting, cmdDone, State.cmdTaken]
@[simp] theorem acting_joinOk : (s.acting t n w).joinOk = s.joinOk := by simp [State.acting, cmdDone, State.cmdTaken]
@[simp] theorem acting_trgPin : (s.acting t n w).trgPin = s.trgPin := by simp [State.acting, cmdDone, State.cmdTaken]
@[simp] theorem acting_trgLocal : (s.acting t n w).trgLocal = s.trgLocal := by simp [State.acting, cmdDone, State.cmdTaken]
@[simp] theorem acting_trgSeen : (s.acting t n w).trgSeen = s.trgSeen := by simp [State.acting, cmdDone, State.cmdTaken]
@[simp] theorem acting_trgAt : (s.acting t n w).trgAt = s.trgAt := by simp [State.acting, cmdDone, State.cmdTaken]
@[simp] theorem acting_trgQ : (s.acting t n w).trgQ = s.trgQ := by simp [State.acting, cmdDone, State.cmdTaken]
@[simp] theorem acting_trgDone : (s.acting t n w).trgDone = s.trgDone := by simp [State.acting, cmdDone, State.cmdTaken]
@[simp] theorem acting_nodeGap : (s.acting t n w).nodeGap = s.nodeGap := by simp [State.acting, cmdDone, State.cmdTaken]
@[simp] theorem acting_dlks : (s.acting t n w).dlks = s.dlks := by simp [State.acting, cmdDone, State.cmdTaken]
@[simp] theorem acting_txq : (s.acting t n w).txq = s.txq := by simp [State.acting, cmdDone, State.cmdTaken]
@[simp] theorem acting_hostOut : (s.acting t n w).hostOut = s.hostOut := by simp [State.acting, cmdDone, State.cmdTaken]
@[simp] theorem acting_hsp : (s.acting t n w).hsp = s.hsp := by simp [State.acting, cmdDone, State.cmdTaken]
@[simp] theorem acting_msps : (s.acting t n w).msps = s.msps := by simp [State.acting, cmdDone, State.cmdTaken]
@[simp] theorem acting_psps : (s.acting t n w).psps = s.psps := by simp [State.acting, cmdDone, State.cmdTaken]
@[simp] theorem acting_ethTbl : (s.acting t n w).ethTbl = s.ethTbl := by simp [State.acting, cmdDone, State.cmdTaken]
@[simp] theorem acting_ethOut : (s.acting t n w).ethOut = s.ethOut := by simp [State.acting, cmdDone, State.cmdTaken]
@[simp] theorem acting_apRestart : (s.acting t n w).apRestart = s.apRestart := by simp [State.acting, cmdDone, State.cmdTaken]
@[simp] theorem acting_apHalt : (s.acting t n w).apHalt = s.apHalt := by simp [State.acting, cmdDone, State.cmdTaken]
@[simp] theorem acting_dbgHalt : (s.acting t n w).dbgHalt = s.dbgHalt := by simp [State.acting, cmdDone, State.cmdTaken]
@[simp] theorem acting_cans : (s.acting t n w).cans = s.cans := by simp [State.acting, cmdDone, State.cmdTaken]
@[simp] theorem acting_dio : (s.acting t n w).dio = s.dio := by simp [State.acting, cmdDone, State.cmdTaken]
@[simp] theorem acting_otp : (s.acting t n w).otp = s.otp := by simp [State.acting, cmdDone, State.cmdTaken]
@[simp] theorem acting_keys : (s.acting t n w).keys = s.keys := by simp [State.acting, cmdDone, State.cmdTaken]
@[simp] theorem acting_runVer : (s.acting t n w).runVer = s.runVer := by simp [State.acting, cmdDone, State.cmdTaken]
@[simp] theorem acting_failAt : (s.acting t n w).failAt = s.failAt := by simp [State.acting, cmdDone, State.cmdTaken]
@[simp] theorem acting_tampLog : (s.acting t n w).tampLog = s.tampLog := by simp [State.acting, cmdDone, State.cmdTaken]
@[simp] theorem acting_vbatBase : (s.acting t n w).vbatBase = s.vbatBase := by simp [State.acting, cmdDone, State.cmdTaken]
@[simp] theorem acting_jtag : (s.acting t n w).jtag = s.jtag := by simp [State.acting, cmdDone, State.cmdTaken]
@[simp] theorem acting_swOff : (s.acting t n w).swOff = s.swOff := by simp [State.acting, cmdDone, State.cmdTaken]
@[simp] theorem acting_swOn : (s.acting t n w).swOn = s.swOn := by simp [State.acting, cmdDone, State.cmdTaken]
@[simp] theorem acting_trained : (s.acting t n w).trained = s.trained := by simp [State.acting, cmdDone, State.cmdTaken]
@[simp] theorem acting_padIn : (s.acting t n w).padIn = s.padIn := by simp [State.acting, cmdDone, State.cmdTaken]
@[simp] theorem acting_histQ : (s.acting t n w).histQ = s.histQ := by simp [State.acting, cmdDone, State.cmdTaken]
@[simp] theorem acting_histLost : (s.acting t n w).histLost = s.histLost := by simp [State.acting, cmdDone, State.cmdTaken]
@[simp] theorem acting_resp : (s.acting t n w).resp = s.resp := by simp [State.acting, cmdDone, State.cmdTaken]
@[simp] theorem acting_seed : (s.acting t n w).seed = s.seed := by simp [State.acting, cmdDone, State.cmdTaken]
@[simp] theorem acting_pending : (s.acting t n w).pending = s.pending := by simp [State.acting, cmdDone, State.cmdTaken]
@[simp] theorem encOf_acting : encOf (s.acting t n w) k = encOf s k := by simp [encOf]
@[simp] theorem ssnOf_acting : ssnOf (s.acting t n w) k = ssnOf s k := by simp [ssnOf]
@[simp] theorem pcmpOf_acting : pcmpOf (s.acting t n w) k = pcmpOf s k := by simp [pcmpOf]
@[simp] theorem stepOf_acting : stepOf (s.acting t n w) k = stepOf s k := by simp [stepOf]
@[simp] theorem axisOf_acting : axisOf (s.acting t n w) k = axisOf s k := by simp [axisOf]
@[simp] theorem lcOf_acting : lcOf (s.acting t n w) k = lcOf s k := by simp [lcOf]
@[simp] theorem cslotOf_acting : cslotOf (s.acting t n w) k = cslotOf s k := by simp [cslotOf]
@[simp] theorem pwmOf_acting : pwmOf (s.acting t n w) k = pwmOf s k := by simp [pwmOf]
@[simp] theorem fchOf_acting : fchOf (s.acting t n w) k = fchOf s k := by simp [fchOf]
@[simp] theorem fcgOf_acting : fcgOf (s.acting t n w) k = fcgOf s k := by simp [fcgOf]
@[simp] theorem pcvOf_acting : pcvOf (s.acting t n w) k = pcvOf s k := by simp [pcvOf]
@[simp] theorem leOf_acting : leOf (s.acting t n w) k = leOf s k := by simp [leOf]
@[simp] theorem rseqOf_acting : rseqOf (s.acting t n w) k = rseqOf s k := by simp [rseqOf]
@[simp] theorem acqOf_acting : acqOf (s.acting t n w) k = acqOf s k := by simp [acqOf]
@[simp] theorem dlkOf_acting : dlkOf (s.acting t n w) k = dlkOf s k := by simp [dlkOf]
@[simp] theorem mspOf_acting : mspOf (s.acting t n w) k = mspOf s k := by simp [mspOf]
@[simp] theorem pspOf_acting : pspOf (s.acting t n w) k = pspOf s k := by simp [pspOf]
@[simp] theorem canOf_acting : canOf (s.acting t n w) k = canOf s k := by simp [canOf]
@[simp] theorem slotOf_acting : slotOf (s.acting t n w) k = slotOf s k := by simp [slotOf]
@[simp] theorem mem8_acting : mem8 (s.acting t n w) k = mem8 s k := by simp [mem8]

end

/-- What a command other than HOLD and DISCARD does when it acts: its effect, on the state its acceptance left. -/
theorem doCmd_eq (s : State) (t : PgTy) (n code : Nat) (w : Word) (h3 : code ≠ 3) (h5 : code ≠ 5) :
    doCmd (s.cmdTaken t n w) t n code = settleCommit (actOf (s.acting t n w) t n code) t n := by
  unfold doCmd
  simp [h3, h5, State.acting]

/-- A command that acts at once gives the settled state of its effect, where no commit waits after it. -/
theorem gives_of_acts {c : Instr} {s : State} {t : PgTy} {n code : Nat} {m : Master} {chk : BitVec 16} {Q : State → Prop}
    (hex : exec c s = done (sendCode s m t n code chk)) (h : ActsNow s t n code m chk) (hc : code < 65536) (h3 : code ≠ 3)
    (h5 : code ≠ 5)
    (hcm : ((actOf (s.acting t n (cmdWord chk code)) t n code).page (pk t n)).commit = .none)
    (hq : Q (settle (actOf (s.acting t n (cmdWord chk code)) t n code))) : Gives c s Q := by
  refine ⟨_, hex, ?_⟩
  rw [sendCode_acts hc h, doCmd_eq s t n code _ h3 h5, settleCommit_none (by simp [commitReady, hcm])]
  exact hq

/-- A command that waits leaves its word and itself on its page, and changes nothing else. -/
theorem gives_of_waits {c : Instr} {s : State} {t : PgTy} {n code : Nat} {m : Master} {chk : BitVec 16} {Q : State → Prop}
    (hex : exec c s = done (sendCode s m t n code chk)) (h : Waits s t n code m chk) (hc : code < 65536)
    (hq : Q (settle ((s.cmdTaken t n (cmdWord chk code)).modPage (pk t n) (fun p => { p with cmd := some ⟨code, m⟩ })))) :
    Gives c s Q := by
  refine ⟨_, hex, ?_⟩
  rw [sendCode_waits hc h]
  exact hq

end Sys2Proof.Machine
end

