-- ==== Sys2Proof/Laws/Quiet.lean ====
section
/-! SUPPORT. What publishing, substituting safe values, reacting and raising a fault leave alone: memory, the signal table, time, power and
the queue, and of every page its control, its commands and its progress. -/
namespace Sys2Proof.Machine

/-- Of a page only registers, state, staging and interrupts may differ. -/
def Page.Quiet (p q : Page) : Prop :=
  q = { p with regs := q.regs, staged := q.staged, st := q.st, dirty := q.dirty, commit := q.commit, err := q.err, intRaw := q.intRaw }

/-- Of the state only the pages, the slots, the logs and the records of the blocks that react may differ. -/
def Quiet (s t : State) : Prop :=
  t = { s with pages := t.pages, slots := t.slots, recCnt := t.recCnt, frc := t.frc, frcKeep := t.frcKeep, flog := t.flog,
               holds := t.holds, recDue := t.recDue, pcmps := t.pcmps, steps := t.steps, axes := t.axes, cslots := t.cslots,
               ceQ := t.ceQ, pwms := t.pwms, les := t.les, rseqs := t.rseqs, dlks := t.dlks, psps := t.psps, histQ := t.histQ,
               histLost := t.histLost, seed := t.seed } ∧
  ∀ k, Page.Quiet (s.page k) (t.page k)

theorem Page.Quiet.refl (p : Page) : Page.Quiet p p := rfl

theorem Page.Quiet.trans {p q r : Page} (h : Page.Quiet p q) (g : Page.Quiet q r) : Page.Quiet p r := by
  unfold Page.Quiet at h g ⊢
  rw [g]
  conv => lhs; rw [h]

theorem Quiet.refl (s : State) : Quiet s s := ⟨rfl, fun _ => rfl⟩

theorem Quiet.trans {s t u : State} (h : Quiet s t) (g : Quiet t u) : Quiet s u := by
  refine ⟨?_, fun k => (h.2 k).trans (g.2 k)⟩
  have h1 := h.1
  have g1 := g.1
  rw [g1]
  conv => lhs; rw [h1]

/-- A fold of quiet steps is quiet. -/
theorem Quiet.foldl {α : Type} {f : State → α → State} (h : ∀ s a, Quiet s (f s a)) (l : List α) (s : State) :
    Quiet s (l.foldl f s) := by
  induction l generalizing s with
  | nil => exact Quiet.refl s
  | cons a l ih => exact (h s a).trans (ih (f s a))

theorem Quiet.ite {s a b : State} {c : Prop} [Decidable c] (ha : Quiet s a) (hb : Quiet s b) : Quiet s (if c then a else b) := by
  split <;> assumption

theorem Quiet.mem {s t : State} (h : Quiet s t) : t.mem = s.mem := by have := h.1; rw [this]
theorem Quiet.sigs {s t : State} (h : Quiet s t) : t.sigs = s.sigs := by have := h.1; rw [this]
theorem Quiet.now {s t : State} (h : Quiet s t) : t.now = s.now := by have := h.1; rw [this]
theorem Quiet.dom {s t : State} (h : Quiet s t) : t.dom = s.dom := by have := h.1; rw [this]
theorem Quiet.pending {s t : State} (h : Quiet s t) : t.pending = s.pending := by have := h.1; rw [this]
theorem Quiet.en {s t : State} (h : Quiet s t) (k : Nat) : (t.page k).en = (s.page k).en := by have := h.2 k; rw [this]
theorem Quiet.sameMem {s t : State} (h : Quiet s t) : SameMem s t := fun a => mem8_of_mem h.mem a

/-! ## Pages and records -/

theorem modPage_quiet (s : State) (k : Nat) (f : Page → Page) (h : ∀ p, Page.Quiet p (f p)) : Quiet s (s.modPage k f) := by
  refine ⟨rfl, fun k' => ?_⟩
  rw [State.modPage_page]
  split
  · rename_i e; rw [e]; exact h _
  · exact Page.Quiet.refl _

theorem wr_quiet (s : State) (t : PgTy) (n off : Nat) (v : Word) : Quiet s (wr s t n off v) :=
  modPage_quiet s _ _ (fun _ => rfl)
theorem wf_quiet (s : State) (t : PgTy) (n off lo len v : Nat) : Quiet s (wf s t n off lo len v) := wr_quiet ..
theorem wb_quiet (s : State) (t : PgTy) (n off i : Nat) (b : Bool) : Quiet s (wb s t n off i b) := wr_quiet ..
theorem wr64_quiet (s : State) (t : PgTy) (n off : Nat) (v : Int) : Quiet s (wr64 s t n off v) := (wr_quiet ..).trans (wr_quiet ..)
theorem wrTs_quiet (s : State) (t : PgTy) (n off : Nat) (v : BitVec 35) : Quiet s (wrTs s t n off v) := (wr_quiet ..).trans (wr_quiet ..)
theorem incSat_quiet (s : State) (t : PgTy) (n off : Nat) : Quiet s (incSat s t n off) := wr_quiet ..
theorem incWrap_quiet (s : State) (t : PgTy) (n off : Nat) : Quiet s (incWrap s t n off) := wr_quiet ..
theorem setInts_quiet (s : State) (t : PgTy) (n : Nat) (w : Word) : Quiet s (setInts s t n w) := modPage_quiet s _ _ (fun _ => rfl)
theorem setInt_quiet (s : State) (t : PgTy) (n i : Nat) : Quiet s (setInt s t n i) := setInts_quiet ..
theorem setSt_quiet (s : State) (t : PgTy) (n : Nat) (x : PgState) : Quiet s (setSt s t n x) := modPage_quiet s _ _ (fun _ => rfl)
theorem takeStaged_quiet (s : State) (t : PgTy) (n : Nat) : Quiet s (takeStaged s t n) := modPage_quiet s _ _ (fun _ => rfl)
theorem setSlot_quiet (s : State) (n : Nat) (x : Slot) : Quiet s (setSlot s n x) := ⟨rfl, fun _ => rfl⟩
theorem setDlk_quiet (s : State) (n : Nat) (x : DlkSt) : Quiet s (setDlk s n x) := ⟨rfl, fun _ => rfl⟩
theorem setPcmp_quiet (s : State) (n : Nat) (x : PcmpSt) : Quiet s (setPcmp s n x) := ⟨rfl, fun _ => rfl⟩
theorem setStep_quiet (s : State) (n : Nat) (x : StepSt) : Quiet s (setStep s n x) := ⟨rfl, fun _ => rfl⟩
theorem setAxis_quiet (s : State) (n : Nat) (x : AxisSt) : Quiet s (setAxis s n x) := ⟨rfl, fun _ => rfl⟩
theorem setCslot_quiet (s : State) (n : Nat) (x : CslotSt) : Quiet s (setCslot s n x) := ⟨rfl, fun _ => rfl⟩
theorem setPwm_quiet (s : State) (n : Nat) (x : PwmSt) : Quiet s (setPwm s n x) := ⟨rfl, fun _ => rfl⟩
theorem setLe_quiet (s : State) (n : Nat) (x : LeSt) : Quiet s (setLe s n x) := ⟨rfl, fun _ => rfl⟩
theorem setRseq_quiet (s : State) (n : Nat) (x : RseqSt) : Quiet s (setRseq s n x) := ⟨rfl, fun _ => rfl⟩
theorem setPsp_quiet (s : State) (n : Nat) (x : PspSt) : Quiet s (setPsp s n x) := ⟨rfl, fun _ => rfl⟩

section
variable {s x : State} (h : Quiet s x)
include h
theorem Quiet.wr (t : PgTy) (n off : Nat) (v : Word) : Quiet s (Machine.wr x t n off v) := h.trans (wr_quiet x t n off v)
theorem Quiet.wf (t : PgTy) (n off lo len v : Nat) : Quiet s (Machine.wf x t n off lo len v) := h.trans (wf_quiet x t n off lo len v)
theorem Quiet.wb (t : PgTy) (n off i : Nat) (b : Bool) : Quiet s (Machine.wb x t n off i b) := h.trans (wb_quiet x t n off i b)
theorem Quiet.wr64 (t : PgTy) (n off : Nat) (v : Int) : Quiet s (Machine.wr64 x t n off v) := h.trans (wr64_quiet x t n off v)
theorem Quiet.setInt (t : PgTy) (n i : Nat) : Quiet s (Machine.setInt x t n i) := h.trans (setInt_quiet x t n i)
theorem Quiet.setSt (t : PgTy) (n : Nat) (y : PgState) : Quiet s (Machine.setSt x t n y) := h.trans (setSt_quiet x t n y)
end

/-! ## Recording and publication -/

theorem histPush_quiet (s : State) (e : HistEnt) : Quiet s (histPush s e) := by
  unfold histPush
  dsimp only
  split
  · exact Quiet.refl s
  · split
    · exact ((incSat_quiet s .recStore 0 _).trans (setInt_quiet _ _ _ _)).trans ⟨rfl, fun _ => rfl⟩
    · have h : Quiet s { s with histQ := s.histQ ++ [e] } := ⟨rfl, fun _ => rfl⟩
      split
      · exact h.trans (wr_quiet ..)
      · exact h

theorem record_quiet (s : State) (id : Nat) (ts : BitVec 35) : Quiet s (record s id ts) := by
  unfold record
  dsimp only
  split
  · exact Quiet.refl s
  · have h (m : SMap Nat) : Quiet s { s with recCnt := m } := ⟨rfl, fun _ => rfl⟩
    split
    · exact (h _).trans (histPush_quiet _ _)
    · exact h _

theorem dlkShow_quiet (s : State) (p : Nat) : Quiet s (dlkShow s p) := wr_quiet ..

theorem queueRec_quiet (s : State) (p : Nat) (own : Bool) (r : LinkRec) : Quiet s (queueRec s p own r) := by
  unfold queueRec
  dsimp only
  split
  · exact Quiet.refl s
  · split
    · exact setDlk_quiet ..
    · exact (setDlk_quiet ..).trans (dlkShow_quiet ..)

theorem exportOne_quiet (s : State) (id : Nat) (ts : BitVec 35) (x : Nat) : Quiet s (exportOne s id ts x) := by
  unfold exportOne
  dsimp only
  have h := fun r => Quiet.foldl (fun s p => queueRec_quiet s p true r) (insts .dlk) s
  split
  · exact (h _).trans (incWrap_quiet ..)
  · exact h _

theorem exportPub_quiet (s : State) (id : Nat) (ts : BitVec 35) : Quiet s (exportPub s id ts) :=
  Quiet.foldl (fun s x => exportOne_quiet s id ts x) _ s

theorem pubSlot_quiet (s : State) (id : Nat) (v : BitVec 64) (ts : BitVec 35) : Quiet s (pubSlot s id v ts) :=
  ((setSlot_quiet ..).trans (record_quiet ..)).trans (exportPub_quiet ..)

/-- A publication is quiet. -/
theorem publish_quiet (s : State) (id : Nat) (v : BitVec 64) (ts : BitVec 35) : Quiet s (publish s id v ts) :=
  Quiet.ite (pubSlot_quiet ..) (Quiet.refl s)

theorem pubIf_quiet (s : State) (t : PgTy) (n : Nat) (ev : UpdEv) (ts : BitVec 35) (test : SigEntry → Bool) :
    Quiet s (pubIf s t n ev ts test) :=
  Quiet.foldl (fun _ _ => Quiet.ite (publish_quiet ..) (Quiet.refl _)) _ s

theorem pubAllAt_quiet (s : State) (t : PgTy) (n : Nat) (ev : UpdEv) (ts : BitVec 35) : Quiet s (pubAllAt s t n ev ts) := pubIf_quiet ..
theorem pubAll_quiet (s : State) (t : PgTy) (n : Nat) (ev : UpdEv) : Quiet s (pubAll s t n ev) := pubAllAt_quiet s t n ev _

theorem safeSlot_quiet (s : State) (id : Nat) : Quiet s (safeSlot s id) := (setSlot_quiet ..).trans (record_quiet ..)

theorem safeAll_quiet (s : State) (t : PgTy) (n : Nat) : Quiet s (safeAll s t n) :=
  Quiet.foldl (fun _ _ => Quiet.ite (safeSlot_quiet ..) (Quiet.refl _)) _ s

theorem safeIf_quiet (s : State) (t : PgTy) (n : Nat) (test : SigEntry → Bool) : Quiet s (safeIf s t n test) :=
  Quiet.foldl (fun _ _ => Quiet.ite (safeSlot_quiet ..) (Quiet.refl _)) _ s

theorem forceSlot_quiet (s : State) (id : Nat) (v : BitVec 64) : Quiet s (forceSlot s id v) := (setSlot_quiet ..).trans (record_quiet ..)
theorem unforceSlot_quiet (s : State) (id : Nat) : Quiet s (unforceSlot s id) := (setSlot_quiet ..).trans (record_quiet ..)

theorem sigConflict_quiet (s : State) (id : Nat) : Quiet s (sigConflict s id) := Quiet.ite (setSlot_quiet ..) (Quiet.refl s)
theorem pubBy_quiet (s : State) (own : SigEntry → Bool) (id : Nat) (v : BitVec 64) (ts : BitVec 35) : Quiet s (pubBy s own id v ts) :=
  Quiet.ite (publish_quiet ..) (sigConflict_quiet ..)

/-! ## Reactions (R408) -/

theorem pcmpOut_quiet (s : State) (n : Nat) (b : Bool) : Quiet s (pcmpOut s n b) := wb_quiet ..

theorem pcmpSync_quiet (s : State) (n : Nat) : Quiet s (pcmpSync s n) := by
  unfold pcmpSync
  extract_lets x time s1 s2 s3
  have h1 : Quiet s s1 := (((Quiet.refl s).wf ..).wf ..).wr ..
  have h2 : Quiet s s2 := by
    show Quiet s (match x.q with | [] => _ | e :: _ => _)
    split
    · exact (h1.wr64 ..).wr ..
    · exact (h1.wr64 ..).wr ..
  have h3 : Quiet s s3 := h2.wr ..
  split
  · exact h3
  · exact ((h3.wr64 ..).wr ..).wr ..

theorem pcmpSafe_quiet (s : State) (n : Nat) : Quiet s (pcmpSafe s n) := by
  unfold pcmpSafe
  split
  · extract_lets x s1 s2 s3
    have h2 : Quiet s s2 := ((setSt_quiet s .pcmp n .safe).trans (setPcmp_quiet ..)).trans (pcmpOut_quiet ..)
    have h3 : Quiet s s3 := Quiet.ite (h2.setInt ..) h2
    exact (((h3.wb ..).wb ..).trans (pcmpSync_quiet ..)).trans (safeAll_quiet ..)
  · exact Quiet.refl s

theorem stepHalt_quiet (s : State) (n : Nat) (st : PgState) : Quiet s (stepHalt s n st) :=
  (((((setSt_quiet ..).trans (wr_quiet ..)).trans (wr_quiet ..)).trans (wr_quiet ..)).trans (wf_quiet ..)).trans (setStep_quiet ..)

theorem stepSafe_quiet (s : State) (n : Nat) : Quiet s (stepSafe s n) :=
  Quiet.ite ((stepHalt_quiet ..).trans (safeAll_quiet ..)) (Quiet.refl s)

theorem repLost1_quiet (s : State) (k : Nat) : Quiet s (repLost1 s k) :=
  ((setCslot_quiet ..).trans (wf_quiet ..)).trans (setInt_quiet ..)

theorem repLost_quiet (s : State) (t : PgTy) (n : Nat) : Quiet s (repLost s t n) :=
  Quiet.foldl (fun _ _ => Quiet.ite (repLost1_quiet ..) (Quiet.refl _)) _ s

/-- What follows an axis, leaving RUN. -/
theorem leadSt_quiet (s : State) (n : Nat) (st : PgState) : Quiet s (leadSt s .axis n st) :=
  Quiet.ite ((setSt_quiet ..).trans (repLost_quiet ..)) (setSt_quiet ..)

theorem axisReact_quiet (s : State) (n lv : Nat) : Quiet s (axisReact s n lv) :=
  Quiet.ite (Quiet.refl s) ((Quiet.ite (leadSt_quiet ..) (Quiet.refl s)).trans (setAxis_quiet ..))

theorem slotGone_quiet (s : State) (k : Nat) : Quiet s (slotGone s k) := Quiet.foldl (fun _ _ => setPwm_quiet ..) _ s

theorem ceSync_quiet (s : State) (e : Nat) : Quiet s (ceSync s e) := (wf_quiet ..).trans (wf_quiet ..)

theorem cslotHalt_quiet (s : State) (k : Nat) (st : PgState) : Quiet s (cslotHalt s k st) := by
  unfold cslotHalt
  dsimp only
  have h (a : State) (m : SMap (List Nat)) : Quiet a { a with ceQ := m } := ⟨rfl, fun _ => rfl⟩
  exact ((((((slotGone_quiet s k).trans (setSt_quiet _ .cslot k st)).trans (setCslot_quiet ..)).trans (h _ _)).trans (wb_quiet ..)).trans
    (wf_quiet ..)).trans (ceSync_quiet ..)

theorem cslotStop_quiet (s : State) (k : Nat) (st : PgState) : Quiet s (cslotStop s k st) := by
  unfold cslotStop
  dsimp only
  exact (((cslotHalt_quiet ..).trans (Quiet.foldl (fun _ _ => wr_quiet ..) _ _)).trans
    (Quiet.foldl (fun _ _ => Quiet.ite (publish_quiet ..) (Quiet.refl _)) _ _)).trans (safeIf_quiet ..)

theorem cslotSafe_quiet (s : State) (k : Nat) : Quiet s (cslotSafe s k) := Quiet.ite (cslotStop_quiet ..) (Quiet.refl s)

theorem pwmTurn_quiet (s : State) (n t : Nat) (async : Bool) : Quiet s (pwmTurn s n t async) :=
  Quiet.ite ⟨rfl, fun _ => rfl⟩ (setPwm_quiet ..)

theorem pwmStop_quiet (s : State) (n cause : Nat) (st : PgState) : Quiet s (pwmStop s n cause st) := by
  unfold pwmStop
  dsimp only
  exact (((((pwmTurn_quiet ..).trans (setSt_quiet ..)).trans (setPwm_quiet ..)).trans
    (Quiet.foldl (fun _ _ => wr_quiet ..) _ _)).trans (wb_quiet ..)).trans (setInt_quiet ..)

theorem pwmSafe_quiet (s : State) (n cause : Nat) : Quiet s (pwmSafe s n cause) := Quiet.ite (pwmStop_quiet ..) (Quiet.refl s)
theorem pspSafe_quiet (s : State) (n : Nat) : Quiet s (pspSafe s n) := Quiet.ite (setPsp_quiet ..) (Quiet.refl s)
theorem canSafe_quiet (s : State) (k : Nat) : Quiet s (canSafe s k) := Quiet.ite (setSt_quiet ..) (Quiet.refl s)
theorem dioSafe_quiet (s : State) (cause : Nat) : Quiet s (dioSafe s cause) :=
  Quiet.ite ((setSt_quiet ..).trans (wf_quiet ..)) (Quiet.refl s)

theorem leShow_quiet (s : State) (e : Nat) : Quiet s (leShow s e) := (wf_quiet ..).trans (wb_quiet ..)

theorem lePools_quiet (s : State) : Quiet s (lePools s) :=
  Quiet.foldl (fun _ _ => ((wr_quiet ..).trans (wr_quiet ..)).trans (wr_quiet ..)) _ s

theorem frcShow_quiet (s : State) : Quiet s (frcShow s) := wr_quiet ..

theorem frcEval_quiet (s : State) : Quiet s (frcEval s) := by
  unfold frcEval
  dsimp only
  have h (a b : SMap ForceEnt) : Quiet s (frcShow { s with frc := a, frcKeep := b }) :=
    Quiet.trans ⟨rfl, fun _ => rfl⟩ (frcShow_quiet _)
  split
  · exact (h _ _).trans (setInt_quiet ..)
  · exact h _ _

theorem takeSome_quiet (s : State) (k : Nat) (t : PgTy) (test : Nat → Bool) : Quiet s (s.modPage k (Page.takeSome t test)) :=
  modPage_quiet s _ _ (fun _ => rfl)

theorem leSwitch_quiet (s : State) (e b : Nat) : Quiet s (leSwitch s e b) :=
  ((setLe_quiet ..).trans (wf_quiet ..)).trans (setInt_quiet ..)

theorem leBenchPass_quiet (s : State) (e b : Nat) : Quiet s (leBenchPass s e b) := by
  unfold leBenchPass
  dsimp only
  split
  · exact (takeSome_quiet ..).trans (leSwitch_quiet ..)
  · exact takeSome_quiet ..

theorem leCommitEnd_quiet (s : State) (e : Nat) : Quiet s (leCommitEnd s e) := by
  unfold leCommitEnd
  dsimp only
  split
  · exact (((((takeStaged_quiet ..).trans (setLe_quiet ..)).trans (wb_quiet ..)).trans (setInt_quiet ..)).trans (lePools_quiet _)).trans
      (frcEval_quiet _)
  · exact takeStaged_quiet ..

theorem leCommitStep_quiet (s : State) (e : Nat) : Quiet s (leCommitStep s e) := by
  unfold leCommitStep
  split
  · extract_lets s1 busy s2 o
    have h1 : Quiet s s1 := Quiet.foldl (fun _ _ => Quiet.ite (leBenchPass_quiet ..) (Quiet.refl _)) _ s
    have h2 : Quiet s s2 := Quiet.ite h1 (h1.trans (takeSome_quiet ..))
    have h3 : Quiet s (if o = true then s2 else leCommitEnd s2 e) := Quiet.ite h2 (h2.trans (leCommitEnd_quiet ..))
    exact h3.trans (leShow_quiet ..)
  · exact leShow_quiet ..

theorem leHalt_quiet (s : State) (e : Nat) (st : PgState) : Quiet s (leHalt s e st) :=
  ((setLe_quiet ..).trans (setSt_quiet ..)).trans (leCommitStep_quiet ..)
theorem leStop_quiet (s : State) (e : Nat) (st : PgState) : Quiet s (leStop s e st) := (leHalt_quiet ..).trans (safeAll_quiet ..)
theorem leSafe_quiet (s : State) (e : Nat) : Quiet s (leSafe s e) := Quiet.ite (leStop_quiet ..) (Quiet.refl s)

theorem rseqShow_quiet (s : State) (r : Nat) : Quiet s (rseqShow s r) := Quiet.foldl (fun _ _ => wr_quiet ..) _ s

theorem rseqTake_quiet (s : State) (r : Nat) : Quiet s (rseqTake s r) := by
  unfold rseqTake
  dsimp only
  split
  · exact ((((setRseq_quiet ..).trans (takeStaged_quiet ..)).trans (setInt_quiet ..)).trans (frcEval_quiet _)).trans (rseqShow_quiet ..)
  · exact (takeStaged_quiet ..).trans (rseqShow_quiet ..)

theorem rseqCommitStep_quiet (s : State) (r : Nat) : Quiet s (rseqCommitStep s r) :=
  Quiet.ite (rseqTake_quiet ..) (rseqShow_quiet ..)
theorem rseqHalt_quiet (s : State) (r : Nat) (st : PgState) : Quiet s (rseqHalt s r st) :=
  ((setRseq_quiet ..).trans (setSt_quiet ..)).trans (rseqCommitStep_quiet ..)
theorem rseqStop_quiet (s : State) (r : Nat) (st : PgState) : Quiet s (rseqStop s r st) := (rseqHalt_quiet ..).trans (safeAll_quiet ..)
theorem rseqSafe_quiet (s : State) (r : Nat) : Quiet s (rseqSafe s r) := Quiet.ite (rseqStop_quiet ..) (Quiet.refl s)
theorem rseqRequest_quiet (s : State) (r : Nat) (a : Bool) (c : Nat) : Quiet s (rseqRequest s r a c) := by
  unfold rseqRequest
  dsimp only
  split
  · exact Quiet.refl s
  · split <;> exact setRseq_quiet ..
theorem rseqReact_quiet (s : State) (r lv : Nat) : Quiet s (rseqReact s r lv) :=
  Quiet.ite (rseqSafe_quiet ..) (Quiet.ite (rseqRequest_quiet ..) (rseqRequest_quiet ..))

theorem reactPage_quiet (s : State) (t : PgTy) (n lv : Nat) : Quiet s (reactPage s t n lv) := by
  unfold reactPage
  split
  · exact axisReact_quiet s n lv
  · exact Quiet.ite (pcmpSafe_quiet s n) (Quiet.refl s)
  · exact Quiet.ite (stepSafe_quiet s n) (Quiet.refl s)
  · exact Quiet.ite (cslotSafe_quiet s n) (Quiet.refl s)
  · exact Quiet.ite (pwmSafe_quiet s n 5) (Quiet.refl s)
  · exact Quiet.ite (leSafe_quiet s n) (Quiet.refl s)
  · exact rseqReact_quiet s n lv
  · exact Quiet.ite (pspSafe_quiet s n) (Quiet.refl s)
  · exact Quiet.ite (canSafe_quiet s n) (Quiet.refl s)
  · exact Quiet.ite (dioSafe_quiet s 1) (Quiet.refl s)
  · exact Quiet.refl s

/-! ## Raises (R404 to R413) -/

theorem syncLog_quiet (s : State) : Quiet s (syncLog s) := wr_quiet ..
theorem flog_quiet (s : State) (l : List FltEnt) : Quiet s { s with flog := l } := ⟨rfl, fun _ => rfl⟩

theorem putEntry_quiet (s : State) (e : FltEnt) : Quiet s (putEntry s e) := by
  unfold putEntry
  dsimp only
  split
  · exact (((flog_quiet ..).trans (wr_quiet ..)).trans (syncLog_quiet _)).trans (setInt_quiet ..)
  · exact (((((flog_quiet ..).trans (incSat_quiet ..)).trans (setInt_quiet ..)).trans (wr_quiet ..)).trans (syncLog_quiet _)).trans
      (setInt_quiet ..)

theorem logRaise_quiet (s : State) (e : FltEnt) (t : PgTy) (n : Nat) : Quiet s (logRaise s e t n) := by
  unfold logRaise
  dsimp only
  split
  · split
    · exact putEntry_quiet ..
    · exact flog_quiet ..
  · exact putEntry_quiet ..

theorem syncActive_quiet (s : State) : Quiet s (syncActive s) := (wr_quiet ..).trans (wr_quiet ..)

theorem sendLevels_quiet (s : State) (w : Word) : Quiet s (sendLevels s w) := by
  unfold sendLevels
  dsimp only
  split
  · exact Quiet.refl s
  · exact (setInt_quiet ..).trans (Quiet.foldl (fun _ _ => Quiet.foldl (fun _ _ => Quiet.ite (Quiet.refl _) (reactPage_quiet ..)) _ _) _ _)

theorem raiseLevels_quiet (s : State) (w : Word) (lv : Nat → Nat) : Quiet s (raiseLevels s w lv) :=
  Quiet.foldl (fun _ _ => Quiet.ite (wf_quiet ..) (Quiet.refl _)) _ s

/-- A raise is quiet, its reactions included. -/
theorem raiseG_quiet (s : State) (src : Nat) (t : PgTy) (n sub detail : Nat) (derived : Word) :
    Quiet s (raiseG s src t n sub detail derived) := by
  unfold raiseG
  extract_lets level g s1 top r abandon gs lvA s2 s3 e s4 s5
  split
  · exact Quiet.refl s
  · split
    · exact Quiet.refl s
    · have h1 : Quiet s s1 := Quiet.ite (Quiet.trans ⟨rfl, fun _ => rfl⟩ (syncActive_quiet _)) (Quiet.refl s)
      have h2 : Quiet s s2 := Quiet.ite (h1.trans (raiseLevels_quiet ..)) (h1.trans (raiseLevels_quiet ..))
      have h2' : Quiet s { s2 with recDue := [] } := h2.trans ⟨rfl, fun _ => rfl⟩
      have h3 : Quiet s s3 := Quiet.ite ((h2'.wr ..).setInt ..) h2
      have h4 : Quiet s s4 := Quiet.ite (h3.trans (logRaise_quiet ..)) h3
      have h5 : Quiet s s5 := Quiet.ite (h4.setInt ..) h4
      exact h5.trans (sendLevels_quiet ..)

theorem raise_quiet (s : State) (src : Nat) (t : PgTy) (n sub detail : Nat) : Quiet s (raise s src t n sub detail) := raiseG_quiet ..

theorem endRaise_quiet (s : State) (src : Nat) (t : PgTy) (n sub : Nat) : Quiet s (endRaise s src t n sub) := by
  unfold endRaise
  extract_lets mine ovr s1
  split
  · have h1 : Quiet s s1 := ⟨rfl, fun _ => rfl⟩
    exact (h1.trans (syncActive_quiet _)).setInt ..
  · exact Quiet.refl s

end Sys2Proof.Machine
end

