-- ==== Sys2Proof/Laws/Calm.lean ====
section
/-! SUPPORT. Publishing, substituting safe values, reacting and raising a fault touch the pages of some types alone. -/
namespace Sys2Proof.Machine

/-- The page types whose pages a publication, a reaction or a raise may touch. -/
def calmTypes : List PgTy := [.axis, .pcmp, .step, .cslot, .ce, .pwm, .le, .rseq, .psp, .can, .dio, .flt, .frc, .recStore, .dlk, .time]

/-- The pages of the other types stand as before. -/
structure Calm (s x : State) : Prop where
  page : ∀ t n, t ∉ calmTypes → x.page (pk t n) = s.page (pk t n)

theorem Calm.refl (s : State) : Calm s s := ⟨fun _ _ _ => rfl⟩

theorem Calm.trans {s t u : State} (h : Calm s t) (g : Calm t u) : Calm s u :=
  ⟨fun y n hy => (g.page y n hy).trans (h.page y n hy)⟩

/-- A fold of calm steps is calm. -/
theorem Calm.foldl {α : Type} {f : State → α → State} (h : ∀ s a, Calm s (f s a)) (l : List α) (s : State) :
    Calm s (l.foldl f s) := by
  induction l generalizing s with
  | nil => exact Calm.refl s
  | cons a l ih => exact (h s a).trans (ih (f s a))

theorem Calm.ite {s a b : State} {c : Prop} [Decidable c] (ha : Calm s a) (hb : Calm s b) : Calm s (if c then a else b) := by
  split <;> assumption

/-! ## Pages and records -/

section
variable {t : PgTy} (ht : t ∈ calmTypes) (s : State) (n off : Nat)
include ht
theorem modPage_calm (f : Page → Page) : Calm s (s.modPage (pk t n) f) := by
  refine ⟨fun y m hy => ?_⟩
  rw [State.modPage_page, if_neg]
  intro e
  rw [pk_eq] at e
  exact hy (e.1 ▸ ht)
theorem wr_calm (v : Word) : Calm s (wr s t n off v) := modPage_calm ht ..
theorem wf_calm (lo len v : Nat) : Calm s (wf s t n off lo len v) := modPage_calm ht ..
theorem wb_calm (i : Nat) (b : Bool) : Calm s (wb s t n off i b) := modPage_calm ht ..
theorem wr64_calm (v : Int) : Calm s (wr64 s t n off v) := (wr_calm ht ..).trans (wr_calm ht ..)
theorem incSat_calm : Calm s (incSat s t n off) := wr_calm ht ..
theorem incWrap_calm : Calm s (incWrap s t n off) := wr_calm ht ..
theorem setInt_calm (i : Nat) : Calm s (setInt s t n i) := by
  unfold setInt setInts; exact modPage_calm ht s n _
theorem setSt_calm (x : PgState) : Calm s (setSt s t n x) := modPage_calm ht ..
theorem takeStaged_calm : Calm s (takeStaged s t n) := modPage_calm ht ..
theorem takeSome_calm (y : PgTy) (test : Nat → Bool) : Calm s (s.modPage (pk t n) (Page.takeSome y test)) := modPage_calm ht ..
end

section
variable {s x : State} (h : Calm s x) {t : PgTy} (ht : t ∈ calmTypes) (n off : Nat)
include h ht
theorem Calm.wr (v : Word) : Calm s (Machine.wr x t n off v) := h.trans (wr_calm ht ..)
theorem Calm.wf (lo len v : Nat) : Calm s (Machine.wf x t n off lo len v) := h.trans (wf_calm ht ..)
theorem Calm.wb (i : Nat) (b : Bool) : Calm s (Machine.wb x t n off i b) := h.trans (wb_calm ht ..)
theorem Calm.wr64 (v : Int) : Calm s (Machine.wr64 x t n off v) := h.trans (wr64_calm ht ..)
theorem Calm.setSt (y : PgState) : Calm s (Machine.setSt x t n y) := h.trans (setSt_calm ht ..)
theorem Calm.setInt (i : Nat) : Calm s (Machine.setInt x t n i) := h.trans (setInt_calm ht ..)
end

theorem setSlot_calm (s : State) (n : Nat) (x : Slot) : Calm s (setSlot s n x) := ⟨fun _ _ _ => rfl⟩
theorem setDlk_calm (s : State) (n : Nat) (x : DlkSt) : Calm s (setDlk s n x) := ⟨fun _ _ _ => rfl⟩
theorem setPcmp_calm (s : State) (n : Nat) (x : PcmpSt) : Calm s (setPcmp s n x) := ⟨fun _ _ _ => rfl⟩
theorem setStep_calm (s : State) (n : Nat) (x : StepSt) : Calm s (setStep s n x) := ⟨fun _ _ _ => rfl⟩
theorem setAxis_calm (s : State) (n : Nat) (x : AxisSt) : Calm s (setAxis s n x) := ⟨fun _ _ _ => rfl⟩
theorem setCslot_calm (s : State) (n : Nat) (x : CslotSt) : Calm s (setCslot s n x) := ⟨fun _ _ _ => rfl⟩
theorem setPwm_calm (s : State) (n : Nat) (x : PwmSt) : Calm s (setPwm s n x) := ⟨fun _ _ _ => rfl⟩
theorem setLe_calm (s : State) (n : Nat) (x : LeSt) : Calm s (setLe s n x) := ⟨fun _ _ _ => rfl⟩
theorem setRseq_calm (s : State) (n : Nat) (x : RseqSt) : Calm s (setRseq s n x) := ⟨fun _ _ _ => rfl⟩
theorem setPsp_calm (s : State) (n : Nat) (x : PspSt) : Calm s (setPsp s n x) := ⟨fun _ _ _ => rfl⟩


/-! ## Recording and publication -/

theorem histPush_calm (s : State) (e : HistEnt) : Calm s (histPush s e) := by
  unfold histPush
  dsimp only
  split
  · exact Calm.refl s
  · split
    · exact ((incSat_calm (t := .recStore) (by decide) s 0 _).trans (setInt_calm (by decide) ..)).trans ⟨fun _ _ _ => rfl⟩
    · have h : Calm s { s with histQ := s.histQ ++ [e] } := ⟨fun _ _ _ => rfl⟩
      split
      · exact h.trans (wr_calm (by decide) ..)
      · exact h

theorem record_calm (s : State) (id : Nat) (ts : BitVec 35) : Calm s (record s id ts) := by
  unfold record
  dsimp only
  split
  · exact Calm.refl s
  · have h (m : SMap Nat) : Calm s { s with recCnt := m } := ⟨fun _ _ _ => rfl⟩
    split
    · exact (h _).trans (histPush_calm _ _)
    · exact h _

theorem dlkShow_calm (s : State) (p : Nat) : Calm s (dlkShow s p) := wr_calm (by decide) ..

theorem queueRec_calm (s : State) (p : Nat) (own : Bool) (r : LinkRec) : Calm s (queueRec s p own r) := by
  unfold queueRec
  dsimp only
  split
  · exact Calm.refl s
  · split
    · exact setDlk_calm ..
    · exact (setDlk_calm ..).trans (dlkShow_calm ..)

theorem exportOne_calm (s : State) (id : Nat) (ts : BitVec 35) (x : Nat) : Calm s (exportOne s id ts x) := by
  unfold exportOne
  dsimp only
  have h := fun r => Calm.foldl (fun s p => queueRec_calm s p true r) (insts .dlk) s
  split
  · exact (h _).trans (incWrap_calm (by decide) ..)
  · exact h _

theorem exportPub_calm (s : State) (id : Nat) (ts : BitVec 35) : Calm s (exportPub s id ts) :=
  Calm.foldl (fun s x => exportOne_calm s id ts x) _ s

theorem pubSlot_calm (s : State) (id : Nat) (v : BitVec 64) (ts : BitVec 35) : Calm s (pubSlot s id v ts) :=
  ((setSlot_calm ..).trans (record_calm ..)).trans (exportPub_calm ..)

/-- A publication is calm. -/
theorem publish_calm (s : State) (id : Nat) (v : BitVec 64) (ts : BitVec 35) : Calm s (publish s id v ts) :=
  Calm.ite (pubSlot_calm ..) (Calm.refl s)

theorem pubIf_calm (s : State) (t : PgTy) (n : Nat) (ev : UpdEv) (ts : BitVec 35) (test : SigEntry → Bool) :
    Calm s (pubIf s t n ev ts test) :=
  Calm.foldl (fun _ _ => Calm.ite (publish_calm ..) (Calm.refl _)) _ s

theorem pubAllAt_calm (s : State) (t : PgTy) (n : Nat) (ev : UpdEv) (ts : BitVec 35) : Calm s (pubAllAt s t n ev ts) := pubIf_calm ..
theorem pubAll_calm (s : State) (t : PgTy) (n : Nat) (ev : UpdEv) : Calm s (pubAll s t n ev) := pubAllAt_calm s t n ev _

theorem safeSlot_calm (s : State) (id : Nat) : Calm s (safeSlot s id) := (setSlot_calm ..).trans (record_calm ..)

theorem safeAll_calm (s : State) (t : PgTy) (n : Nat) : Calm s (safeAll s t n) :=
  Calm.foldl (fun _ _ => Calm.ite (safeSlot_calm ..) (Calm.refl _)) _ s

theorem safeIf_calm (s : State) (t : PgTy) (n : Nat) (test : SigEntry → Bool) : Calm s (safeIf s t n test) :=
  Calm.foldl (fun _ _ => Calm.ite (safeSlot_calm ..) (Calm.refl _)) _ s

theorem forceSlot_calm (s : State) (id : Nat) (v : BitVec 64) : Calm s (forceSlot s id v) := (setSlot_calm ..).trans (record_calm ..)
theorem unforceSlot_calm (s : State) (id : Nat) : Calm s (unforceSlot s id) := (setSlot_calm ..).trans (record_calm ..)

theorem sigConflict_calm (s : State) (id : Nat) : Calm s (sigConflict s id) := Calm.ite (setSlot_calm ..) (Calm.refl s)
theorem pubBy_calm (s : State) (own : SigEntry → Bool) (id : Nat) (v : BitVec 64) (ts : BitVec 35) : Calm s (pubBy s own id v ts) :=
  Calm.ite (publish_calm ..) (sigConflict_calm ..)

/-! ## Reactions (R408) -/

theorem pcmpOut_calm (s : State) (n : Nat) (b : Bool) : Calm s (pcmpOut s n b) := wb_calm (by decide) ..

theorem pcmpSync_calm (s : State) (n : Nat) : Calm s (pcmpSync s n) := by
  unfold pcmpSync
  extract_lets x time s1 s2 s3
  have h1 : Calm s s1 := (((Calm.refl s).wf (by decide) ..).wf (by decide) ..).wr (by decide) ..
  have h2 : Calm s s2 := by
    show Calm s (match x.q with | [] => _ | e :: _ => _)
    split
    · exact (h1.wr64 (by decide) ..).wr (by decide) ..
    · exact (h1.wr64 (by decide) ..).wr (by decide) ..
  have h3 : Calm s s3 := h2.wr (by decide) ..
  split
  · exact h3
  · exact ((h3.wr64 (by decide) ..).wr (by decide) ..).wr (by decide) ..

theorem pcmpSafe_calm (s : State) (n : Nat) : Calm s (pcmpSafe s n) := by
  unfold pcmpSafe
  split
  · extract_lets x s1 s2 s3
    have h2 : Calm s s2 := ((setSt_calm (t := .pcmp) (by decide) s n .safe).trans (setPcmp_calm ..)).trans (pcmpOut_calm ..)
    have h3 : Calm s s3 := Calm.ite (h2.setInt (by decide) ..) h2
    exact (((h3.wb (by decide) ..).wb (by decide) ..).trans (pcmpSync_calm ..)).trans (safeAll_calm ..)
  · exact Calm.refl s

theorem stepHalt_calm (s : State) (n : Nat) (st : PgState) : Calm s (stepHalt s n st) :=
  (((((setSt_calm (by decide) ..).trans (wr_calm (by decide) ..)).trans (wr_calm (by decide) ..)).trans (wr_calm (by decide) ..)).trans (wf_calm (by decide) ..)).trans (setStep_calm ..)

theorem stepSafe_calm (s : State) (n : Nat) : Calm s (stepSafe s n) :=
  Calm.ite ((stepHalt_calm ..).trans (safeAll_calm ..)) (Calm.refl s)

theorem repLost1_calm (s : State) (k : Nat) : Calm s (repLost1 s k) :=
  ((setCslot_calm ..).trans (wf_calm (by decide) ..)).trans (setInt_calm (by decide) ..)

theorem repLost_calm (s : State) (t : PgTy) (n : Nat) : Calm s (repLost s t n) :=
  Calm.foldl (fun _ _ => Calm.ite (repLost1_calm ..) (Calm.refl _)) _ s

/-- What follows an axis, leaving RUN. -/
theorem leadSt_calm (s : State) (n : Nat) (st : PgState) : Calm s (leadSt s .axis n st) :=
  Calm.ite ((setSt_calm (by decide) ..).trans (repLost_calm ..)) (setSt_calm (by decide) ..)

theorem axisReact_calm (s : State) (n lv : Nat) : Calm s (axisReact s n lv) :=
  Calm.ite (Calm.refl s) ((Calm.ite (leadSt_calm ..) (Calm.refl s)).trans (setAxis_calm ..))

theorem slotGone_calm (s : State) (k : Nat) : Calm s (slotGone s k) := Calm.foldl (fun _ _ => setPwm_calm ..) _ s

theorem ceSync_calm (s : State) (e : Nat) : Calm s (ceSync s e) := (wf_calm (by decide) ..).trans (wf_calm (by decide) ..)

theorem cslotHalt_calm (s : State) (k : Nat) (st : PgState) : Calm s (cslotHalt s k st) := by
  unfold cslotHalt
  dsimp only
  have h (a : State) (m : SMap (List Nat)) : Calm a { a with ceQ := m } := ⟨fun _ _ _ => rfl⟩
  exact ((((((slotGone_calm s k).trans (setSt_calm (t := .cslot) (by decide) _ k st)).trans (setCslot_calm ..)).trans (h _ _)).trans
    (wb_calm (by decide) ..)).trans (wf_calm (by decide) ..)).trans (ceSync_calm ..)

theorem cslotStop_calm (s : State) (k : Nat) (st : PgState) : Calm s (cslotStop s k st) := by
  unfold cslotStop
  dsimp only
  exact (((cslotHalt_calm ..).trans (Calm.foldl (fun _ _ => wr_calm (by decide) ..) _ _)).trans
    (Calm.foldl (fun _ _ => Calm.ite (publish_calm ..) (Calm.refl _)) _ _)).trans (safeIf_calm ..)

theorem cslotSafe_calm (s : State) (k : Nat) : Calm s (cslotSafe s k) := Calm.ite (cslotStop_calm ..) (Calm.refl s)

theorem pwmTurn_calm (s : State) (n t : Nat) (async : Bool) : Calm s (pwmTurn s n t async) :=
  Calm.ite ⟨fun _ _ _ => rfl⟩ (setPwm_calm ..)

theorem pwmStop_calm (s : State) (n cause : Nat) (st : PgState) : Calm s (pwmStop s n cause st) := by
  unfold pwmStop
  dsimp only
  exact (((((pwmTurn_calm ..).trans (setSt_calm (by decide) ..)).trans (setPwm_calm ..)).trans
    (Calm.foldl (fun _ _ => wr_calm (by decide) ..) _ _)).trans (wb_calm (by decide) ..)).trans (setInt_calm (by decide) ..)

theorem pwmSafe_calm (s : State) (n cause : Nat) : Calm s (pwmSafe s n cause) := Calm.ite (pwmStop_calm ..) (Calm.refl s)
theorem pspSafe_calm (s : State) (n : Nat) : Calm s (pspSafe s n) := Calm.ite (setPsp_calm ..) (Calm.refl s)
theorem canSafe_calm (s : State) (k : Nat) : Calm s (canSafe s k) := Calm.ite (setSt_calm (by decide) ..) (Calm.refl s)
theorem dioSafe_calm (s : State) (cause : Nat) : Calm s (dioSafe s cause) :=
  Calm.ite ((setSt_calm (by decide) ..).trans (wf_calm (by decide) ..)) (Calm.refl s)

theorem leShow_calm (s : State) (e : Nat) : Calm s (leShow s e) := (wf_calm (by decide) ..).trans (wb_calm (by decide) ..)

theorem lePools_calm (s : State) : Calm s (lePools s) :=
  Calm.foldl (fun _ _ => ((wr_calm (by decide) ..).trans (wr_calm (by decide) ..)).trans (wr_calm (by decide) ..)) _ s

theorem frcShow_calm (s : State) : Calm s (frcShow s) := wr_calm (by decide) ..

theorem frcEval_calm (s : State) : Calm s (frcEval s) := by
  unfold frcEval
  dsimp only
  have h (a b : SMap ForceEnt) : Calm s (frcShow { s with frc := a, frcKeep := b }) :=
    Calm.trans (t := { s with frc := a, frcKeep := b }) ⟨fun _ _ _ => rfl⟩ (frcShow_calm _)
  split
  · exact (h _ _).trans (setInt_calm (by decide) ..)
  · exact h _ _

theorem leSwitch_calm (s : State) (e b : Nat) : Calm s (leSwitch s e b) :=
  ((setLe_calm ..).trans (wf_calm (by decide) ..)).trans (setInt_calm (by decide) ..)

theorem leBenchPass_calm (s : State) (e b : Nat) : Calm s (leBenchPass s e b) := by
  unfold leBenchPass
  dsimp only
  split
  · exact (takeSome_calm (by decide) ..).trans (leSwitch_calm ..)
  · exact takeSome_calm (by decide) ..

theorem leCommitEnd_calm (s : State) (e : Nat) : Calm s (leCommitEnd s e) := by
  unfold leCommitEnd
  dsimp only
  split
  · exact (((((takeStaged_calm (by decide) ..).trans (setLe_calm ..)).trans (wb_calm (by decide) ..)).trans (setInt_calm (by decide) ..)).trans (lePools_calm _)).trans
      (frcEval_calm _)
  · exact takeStaged_calm (by decide) ..

theorem leCommitStep_calm (s : State) (e : Nat) : Calm s (leCommitStep s e) := by
  unfold leCommitStep
  split
  · extract_lets s1 busy s2 o
    have h1 : Calm s s1 := Calm.foldl (fun _ _ => Calm.ite (leBenchPass_calm ..) (Calm.refl _)) _ s
    have h2 : Calm s s2 := Calm.ite h1 (h1.trans (takeSome_calm (by decide) ..))
    have h3 : Calm s (if o = true then s2 else leCommitEnd s2 e) := Calm.ite h2 (h2.trans (leCommitEnd_calm ..))
    exact h3.trans (leShow_calm ..)
  · exact leShow_calm ..

theorem leHalt_calm (s : State) (e : Nat) (st : PgState) : Calm s (leHalt s e st) :=
  ((setLe_calm ..).trans (setSt_calm (by decide) ..)).trans (leCommitStep_calm ..)
theorem leStop_calm (s : State) (e : Nat) (st : PgState) : Calm s (leStop s e st) := (leHalt_calm ..).trans (safeAll_calm ..)
theorem leSafe_calm (s : State) (e : Nat) : Calm s (leSafe s e) := Calm.ite (leStop_calm ..) (Calm.refl s)

theorem rseqShow_calm (s : State) (r : Nat) : Calm s (rseqShow s r) := Calm.foldl (fun _ _ => wr_calm (by decide) ..) _ s

theorem rseqTake_calm (s : State) (r : Nat) : Calm s (rseqTake s r) := by
  unfold rseqTake
  dsimp only
  split
  · exact ((((setRseq_calm ..).trans (takeStaged_calm (by decide) ..)).trans (setInt_calm (by decide) ..)).trans (frcEval_calm _)).trans (rseqShow_calm ..)
  · exact (takeStaged_calm (by decide) ..).trans (rseqShow_calm ..)

theorem rseqCommitStep_calm (s : State) (r : Nat) : Calm s (rseqCommitStep s r) :=
  Calm.ite (rseqTake_calm ..) (rseqShow_calm ..)
theorem rseqHalt_calm (s : State) (r : Nat) (st : PgState) : Calm s (rseqHalt s r st) :=
  ((setRseq_calm ..).trans (setSt_calm (by decide) ..)).trans (rseqCommitStep_calm ..)
theorem rseqStop_calm (s : State) (r : Nat) (st : PgState) : Calm s (rseqStop s r st) := (rseqHalt_calm ..).trans (safeAll_calm ..)
theorem rseqSafe_calm (s : State) (r : Nat) : Calm s (rseqSafe s r) := Calm.ite (rseqStop_calm ..) (Calm.refl s)
theorem rseqRequest_calm (s : State) (r : Nat) (a : Bool) (c : Nat) : Calm s (rseqRequest s r a c) := by
  unfold rseqRequest
  dsimp only
  split
  · exact Calm.refl s
  · split <;> exact setRseq_calm ..
theorem rseqReact_calm (s : State) (r lv : Nat) : Calm s (rseqReact s r lv) :=
  Calm.ite (rseqSafe_calm ..) (Calm.ite (rseqRequest_calm ..) (rseqRequest_calm ..))

theorem reactPage_calm (s : State) (t : PgTy) (n lv : Nat) : Calm s (reactPage s t n lv) := by
  unfold reactPage
  split
  · exact axisReact_calm s n lv
  · exact Calm.ite (pcmpSafe_calm s n) (Calm.refl s)
  · exact Calm.ite (stepSafe_calm s n) (Calm.refl s)
  · exact Calm.ite (cslotSafe_calm s n) (Calm.refl s)
  · exact Calm.ite (pwmSafe_calm s n 5) (Calm.refl s)
  · exact Calm.ite (leSafe_calm s n) (Calm.refl s)
  · exact rseqReact_calm s n lv
  · exact Calm.ite (pspSafe_calm s n) (Calm.refl s)
  · exact Calm.ite (canSafe_calm s n) (Calm.refl s)
  · exact Calm.ite (dioSafe_calm s 1) (Calm.refl s)
  · exact Calm.refl s

/-! ## Raises (R404 to R413) -/

theorem syncLog_calm (s : State) : Calm s (syncLog s) := wr_calm (by decide) ..
theorem flog_calm (s : State) (l : List FltEnt) : Calm s { s with flog := l } := ⟨fun _ _ _ => rfl⟩

theorem putEntry_calm (s : State) (e : FltEnt) : Calm s (putEntry s e) := by
  unfold putEntry
  dsimp only
  split
  · exact (((flog_calm ..).trans (wr_calm (by decide) ..)).trans (syncLog_calm _)).trans (setInt_calm (by decide) ..)
  · exact (((((flog_calm ..).trans (incSat_calm (by decide) ..)).trans (setInt_calm (by decide) ..)).trans (wr_calm (by decide) ..)).trans (syncLog_calm _)).trans
      (setInt_calm (by decide) ..)

theorem logRaise_calm (s : State) (e : FltEnt) (t : PgTy) (n : Nat) : Calm s (logRaise s e t n) := by
  unfold logRaise
  dsimp only
  split
  · split
    · exact putEntry_calm ..
    · exact flog_calm ..
  · exact putEntry_calm ..

theorem syncActive_calm (s : State) : Calm s (syncActive s) := (wr_calm (by decide) ..).trans (wr_calm (by decide) ..)

theorem sendLevels_calm (s : State) (w : Word) : Calm s (sendLevels s w) := by
  unfold sendLevels
  dsimp only
  split
  · exact Calm.refl s
  · exact (setInt_calm (by decide) ..).trans (Calm.foldl (fun _ _ => Calm.foldl (fun _ _ => Calm.ite (Calm.refl _) (reactPage_calm ..)) _ _) _ _)

theorem raiseLevels_calm (s : State) (w : Word) (lv : Nat → Nat) : Calm s (raiseLevels s w lv) :=
  Calm.foldl (fun _ _ => Calm.ite (wf_calm (by decide) ..) (Calm.refl _)) _ s

/-- A raise is calm, its reactions included. -/
theorem raiseG_calm (s : State) (src : Nat) (t : PgTy) (n sub detail : Nat) (derived : Word) :
    Calm s (raiseG s src t n sub detail derived) := by
  unfold raiseG
  extract_lets level g s1 top r abandon gs lvA s2 s3 e s4 s5
  split
  · exact Calm.refl s
  · split
    · exact Calm.refl s
    · have h1 : Calm s s1 := Calm.ite (Calm.trans (t := { s with holds := s.holds ++ [⟨src, t.code, n, sub, g⟩] }) ⟨fun _ _ _ => rfl⟩ (syncActive_calm _)) (Calm.refl s)
      have h2 : Calm s s2 := Calm.ite (h1.trans (raiseLevels_calm ..)) (h1.trans (raiseLevels_calm ..))
      have h2' : Calm s { s2 with recDue := [] } := h2.trans ⟨fun _ _ _ => rfl⟩
      have h3 : Calm s s3 := Calm.ite ((h2'.wr (by decide) ..).setInt (by decide) ..) h2
      have h4 : Calm s s4 := Calm.ite (h3.trans (logRaise_calm ..)) h3
      have h5 : Calm s s5 := Calm.ite (h4.setInt (by decide) ..) h4
      exact h5.trans (sendLevels_calm ..)

theorem raise_calm (s : State) (src : Nat) (t : PgTy) (n sub detail : Nat) : Calm s (raise s src t n sub detail) := raiseG_calm ..

theorem endRaise_calm (s : State) (src : Nat) (t : PgTy) (n sub : Nat) : Calm s (endRaise s src t n sub) := by
  unfold endRaise
  extract_lets mine ovr s1
  split
  · have h1 : Calm s s1 := ⟨fun _ _ _ => rfl⟩
    exact (h1.trans (syncActive_calm _)).setInt (by decide) ..
  · exact Calm.refl s

end Sys2Proof.Machine
end

