-- ==== Sys2Proof/Laws/Gives.lean ====
section
/-! SUPPORT. Ways to show what a command answers. -/
namespace Sys2Proof.Machine

/-- A meaning that completes gives its settled state. -/
theorem gives_done {c : Instr} {s x : State} {Q : State → Prop} (h : exec c s = done x) (q : Q (settle x)) : Gives c s Q := ⟨_, h, q⟩

/-- One state differs from another in its pages alone. -/
def PagesOnly (s x : State) : Prop := { s with pages := x.pages } = x

theorem PagesOnly.refl (s : State) : PagesOnly s s := rfl

theorem PagesOnly.trans {s x y : State} (h : PagesOnly s x) (g : PagesOnly x y) : PagesOnly s y := by
  unfold PagesOnly at *
  rw [← g, ← h]

section
variable {s x : State} (h : PagesOnly s x)
include h
theorem PagesOnly.modPage (k : Nat) (f : Page → Page) : PagesOnly s (x.modPage k f) := h.trans rfl
theorem PagesOnly.wr (t : PgTy) (n off : Nat) (v : Word) : PagesOnly s (Machine.wr x t n off v) := h.trans rfl
theorem PagesOnly.wb (t : PgTy) (n off i : Nat) (b : Bool) : PagesOnly s (Machine.wb x t n off i b) := h.trans rfl
theorem PagesOnly.wf (t : PgTy) (n off lo len v : Nat) : PagesOnly s (Machine.wf x t n off lo len v) := h.trans rfl
theorem PagesOnly.setInt (t : PgTy) (n i : Nat) : PagesOnly s (Machine.setInt x t n i) := h.trans rfl
theorem PagesOnly.setSt (t : PgTy) (n : Nat) (y : PgState) : PagesOnly s (Machine.setSt x t n y) := h.trans rfl
theorem PagesOnly.acting (t : PgTy) (n : Nat) (w : Word) : PagesOnly s (x.acting t n w) := h.trans rfl

/-- A state that differs in its pages alone differs so once settled. -/
theorem onlyPages_settle : OnlyPages s (settle x) := by
  have e : settle x = { x with irqOn := (settle x).irqOn, msixPend := (settle x).msixPend, msixSent := (settle x).msixSent } := by
    conv => lhs; rw [settle_frame x]
    rw [settle_irqOn]
  unfold PagesOnly at h
  unfold OnlyPages
  rw [settle_pages]
  refine e.trans ?_
  generalize settle x = y
  rw [← h]
end

/-- The bits of PGCTL. -/
theorem pgctl_bits (p : Page) : bit p.ctl 0 = p.en ∧ bit p.ctl 1 = false ∧ bit p.ctl 2 = p.freeze ∧ bit p.ctl 3 = p.dbgSafe ∧ bit p.ctl 4 = p.locked := by
  unfold Page.ctl
  generalize p.en = a; generalize p.freeze = b; generalize p.dbgSafe = c; generalize p.locked = d
  revert a b c d; decide


/-- A page's state is the one it has where its domain has power. -/
theorem stOf_congr {s t : State} {ty : PgTy} {n : Nat} (h : (t.page (pk ty n)).st = (s.page (pk ty n)).st) (d : t.dom = s.dom) :
    stOf t ty n = stOf s ty n := by
  unfold stOf powered; rw [h, d]

theorem rg_congr {s t : State} {ty : PgTy} {n : Nat} (h : (t.page (pk ty n)).regs = (s.page (pk ty n)).regs) (o : Nat) :
    rg t ty n o = rg s ty n o := by
  unfold rg; rw [h]

theorem inSt_congr {s t : State} {ty : PgTy} {n : Nat} (h : (t.page (pk ty n)).st = (s.page (pk ty n)).st) (d : t.dom = s.dom)
    (l : List PgState) : inSt t ty n l = inSt s ty n l := by
  unfold inSt; rw [stOf_congr h d]

/-- The pages after a 64-bit value or a timestamp was written to two registers. -/
@[simp] theorem wr64_page (s : State) (t : PgTy) (n off k : Nat) (v : Int) : (wr64 s t n off v).page k =
    if k = pk t n then Page.wr t (off + 4) (hi32 v) (Page.wr t off (lo32 v) (s.page (pk t n))) else s.page k := by
  simp only [wr64, wr_page, if_true]
  split <;> rfl

@[simp] theorem wrTs_page (s : State) (t : PgTy) (n off k : Nat) (v : BitVec 35) : (wrTs s t n off v).page k =
    if k = pk t n then Page.wr t (off + 4) (tsHi v) (Page.wr t off (tsLo v) (s.page (pk t n))) else s.page k := by
  simp only [wrTs, wr_page, if_true]
  split <;> rfl

/-- A page that answers has an instance number below 256. -/
theorem answers_lt {s : State} {ty : PgTy} {n : Nat} (h : answers s ⟨ty, n⟩ = true) : n < 256 := by
  have h1 : n < ty.count := by
    have := (Bool.and_eq_true_iff.1 h).1
    simpa [PageId.present] using this
  cases ty <;> simp [PgTy.count] at h1 <;> omega

/-- A page that answers has power. -/
theorem answers_powered {s : State} {ty : PgTy} {n : Nat} (h : answers s ⟨ty, n⟩ = true) : powered s ty n = true :=
  (Bool.and_eq_true_iff.1 h).2

/-- The state of a page that answers is the one it holds. -/
theorem stOf_of {s t : State} {ty : PgTy} {n : Nat} {x : PgState} (h : answers s ⟨ty, n⟩ = true) (d : t.dom = s.dom)
    (hx : (t.page (pk ty n)).st = x) : stOf t ty n = x := by
  have := answers_powered h
  unfold stOf powered at *
  rw [d, this, hx]
  rfl


/-- A staged value is the one listed, else the one in force (R46). -/
theorem staged_get (s : State) (t : PgTy) (n o : Nat) :
    staged s t n o = SMap.get (fun o => SMap.get (regReset t) (s.page (pk t n)).regs o) (s.page (pk t n)).staged o := by
  unfold staged
  dsimp only
  induction (s.page (pk t n)).staged with
  | nil => rfl
  | cons e l ih =>
    rw [List.find?_cons]
    by_cases h : o = e.1
    · simp [h, SMap.get]
    · have : (e.1 == o) = false := by simpa using fun x => h x.symm
      rw [this]
      refine ih.trans ?_
      conv => rhs; rw [SMap.get, if_neg h]

/-! ## Slots (R17, R20) -/

section
variable (s : State)

theorem histPush_slots (e : HistEnt) : (histPush s e).slots = s.slots := by
  unfold histPush; dsimp only
  split
  · rfl
  · split
    · rfl
    · split <;> rfl

theorem record_slots (id : Nat) (ts : BitVec 35) : (record s id ts).slots = s.slots := by
  unfold record; dsimp only
  split
  · rfl
  · split
    · rw [histPush_slots]
    · rfl

theorem queueRec_slots (p : Nat) (own : Bool) (r : LinkRec) : (queueRec s p own r).slots = s.slots := by
  unfold queueRec; dsimp only
  split
  · rfl
  · split <;> rfl

theorem foldl_slots {α : Type} {f : State → α → State} (h : ∀ s a, (f s a).slots = s.slots) (l : List α) (s : State) :
    (l.foldl f s).slots = s.slots := by
  induction l generalizing s with
  | nil => rfl
  | cons a l ih => rw [List.foldl_cons, ih, h]

theorem exportPub_slots (id : Nat) (ts : BitVec 35) : (exportPub s id ts).slots = s.slots := by
  refine foldl_slots (fun s x => ?_) _ s
  unfold exportOne; dsimp only
  split
  · rw [incWrap, wr_slots]; exact foldl_slots (fun s p => queueRec_slots s p _ _) _ s
  · exact foldl_slots (fun s p => queueRec_slots s p _ _) _ s

/-- A publication that lands changes its own slot alone. -/
theorem pubSlot_slotOf (id i : Nat) (v : BitVec 64) (ts : BitVec 35) : slotOf (pubSlot s id v ts) i =
    if i = id then { slotOf s id with raw := v, value := if (slotOf s id).forced then (slotOf s id).value else v, ts := ts, safe := false
                                      never := false, pubCnt := (slotOf s id).pubCnt + 1
                                      chg := (slotOf s id).stamp s ts (if (slotOf s id).forced then (slotOf s id).value else v) } else slotOf s i := by
  unfold pubSlot slotOf
  dsimp only
  rw [exportPub_slots, record_slots]
  exact SMap.get_set ..

theorem safeSlot_slotOf (id i : Nat) : slotOf (safeSlot s id) i =
    if i = id then { slotOf s id with value := if (slotOf s id).forced || (sigEnt s id).holds then (slotOf s id).value else safeValue (sigEnt s id)
                                      safe := true
                                      chg := (slotOf s id).stamp s (devTime s.now) (if (slotOf s id).forced || (sigEnt s id).holds
                                        then (slotOf s id).value else safeValue (sigEnt s id)) } else slotOf s i := by
  unfold safeSlot slotOf
  dsimp only
  rw [record_slots]
  exact SMap.get_set ..
end

/-- A page of a state that differs elsewhere. -/
theorem page_congr {s t : State} (h : t.pages = s.pages) (k : Nat) : t.page k = s.page k := by unfold State.page; rw [h]

end Sys2Proof.Machine
end

