-- ==== Sys2Proof/Laws/PerInstr.lean ====
section
/-! SUPPORT. Per command: the pages that a well-formed command names are pages the device has (R29, R36). -/
namespace Sys2Proof

/-- The register pages that a command names by type and instance; the other commands name theirs by a number whose range its type bounds. -/
def Laws.PagesPresent.named : Instr → List PageId
  | .pageEnable pg _ => [pg]
  | .softReset pg => [pg]
  | .pageFreeze pg _ => [pg]
  | .lockRequest pg => [pg]
  | .unlockWindow pg _ => [pg]
  | .dbgsafeChange pg _ => [pg]
  | .pgcommitWrite pg _ => [pg]
  | .commitValidationEnd pg => [pg]
  | .commitBoundary pg => [pg]
  | .cmdStart pg _ _ => [pg]
  | .cmdStop pg _ _ => [pg]
  | .cmdHold pg _ _ => [pg]
  | .cmdContinue pg _ _ => [pg]
  | .cmdDiscard pg _ _ => [pg]
  | .cmdClearFault pg _ _ => [pg]
  | .cmdAbort pg _ _ => [pg]
  | .commandBoundary pg => [pg]
  | .intClrWrite pg _ _ => [pg]
  | .intSetWrite pg _ => [pg]
  | .wideReadSnapshot pg _ => [pg]
  | .wideWriteApply pg _ _ => [pg]
  | .registerWrite _ pg _ _ => [pg]
  | .w1cStatusWrite pg _ _ _ => [pg]
  | .readClearRegister pg _ => [pg]
  | .faultRaise _ pg _ _ => [pg]
  | .faultConditionEnd _ pg _ => [pg]
  | _ => []

/-- Every page a well-formed command names is one of the device's. -/
def Laws.PagesPresent.Statement (i : Instr) : Prop := i.wellFormed = true → ∀ pg ∈ Laws.PagesPresent.named i, pg.present = true

/-- A command that names one page is well formed only where that page is present: what each lemma below takes from `Instr.wellFormed`. -/
theorem Laws.pagesPresent_of_named {i : Instr} {pg : PageId} (hn : Laws.PagesPresent.named i = [pg])
    (hw : i.wellFormed = true → pg.present = true) : Laws.PagesPresent.Statement i :=
  fun h _ hp => List.mem_singleton.mp (hn ▸ hp) ▸ hw h

theorem Laws.PagesPresent.pageEnable (pg : PageId) (on : Bool) : Laws.PagesPresent.Statement (.pageEnable pg on) :=
  Laws.pagesPresent_of_named rfl id

theorem Laws.PagesPresent.softReset (pg : PageId) : Laws.PagesPresent.Statement (.softReset pg) :=
  Laws.pagesPresent_of_named rfl id

theorem Laws.PagesPresent.pageFreeze (pg : PageId) (on : Bool) : Laws.PagesPresent.Statement (.pageFreeze pg on) :=
  Laws.pagesPresent_of_named rfl id

theorem Laws.PagesPresent.lockRequest (pg : PageId) : Laws.PagesPresent.Statement (.lockRequest pg) :=
  Laws.pagesPresent_of_named rfl id

theorem Laws.PagesPresent.unlockWindow (pg : PageId) (w : Word) : Laws.PagesPresent.Statement (.unlockWindow pg w) :=
  Laws.pagesPresent_of_named rfl id

theorem Laws.PagesPresent.dbgsafeChange (pg : PageId) (w : Word) : Laws.PagesPresent.Statement (.dbgsafeChange pg w) :=
  Laws.pagesPresent_of_named rfl id

theorem Laws.PagesPresent.pgcommitWrite (pg : PageId) (crc : Word) : Laws.PagesPresent.Statement (.pgcommitWrite pg crc) :=
  Laws.pagesPresent_of_named rfl id

theorem Laws.PagesPresent.commitValidationEnd (pg : PageId) : Laws.PagesPresent.Statement (.commitValidationEnd pg) :=
  Laws.pagesPresent_of_named rfl id

theorem Laws.PagesPresent.commitBoundary (pg : PageId) : Laws.PagesPresent.Statement (.commitBoundary pg) :=
  Laws.pagesPresent_of_named rfl id

theorem Laws.PagesPresent.cmdStart (pg : PageId) (m : Master) (chk : BitVec 16) : Laws.PagesPresent.Statement (.cmdStart pg m chk) :=
  Laws.pagesPresent_of_named rfl id

theorem Laws.PagesPresent.cmdStop (pg : PageId) (m : Master) (chk : BitVec 16) : Laws.PagesPresent.Statement (.cmdStop pg m chk) :=
  Laws.pagesPresent_of_named rfl id

theorem Laws.PagesPresent.cmdHold (pg : PageId) (m : Master) (chk : BitVec 16) : Laws.PagesPresent.Statement (.cmdHold pg m chk) :=
  Laws.pagesPresent_of_named rfl id

theorem Laws.PagesPresent.cmdContinue (pg : PageId) (m : Master) (chk : BitVec 16) : Laws.PagesPresent.Statement (.cmdContinue pg m chk) :=
  Laws.pagesPresent_of_named rfl id

theorem Laws.PagesPresent.cmdDiscard (pg : PageId) (m : Master) (chk : BitVec 16) : Laws.PagesPresent.Statement (.cmdDiscard pg m chk) :=
  Laws.pagesPresent_of_named rfl id

theorem Laws.PagesPresent.cmdClearFault (pg : PageId) (m : Master) (chk : BitVec 16) : Laws.PagesPresent.Statement (.cmdClearFault pg m chk) :=
  Laws.pagesPresent_of_named rfl id

theorem Laws.PagesPresent.cmdAbort (pg : PageId) (m : Master) (chk : BitVec 16) : Laws.PagesPresent.Statement (.cmdAbort pg m chk) :=
  Laws.pagesPresent_of_named rfl id

theorem Laws.PagesPresent.commandBoundary (pg : PageId) : Laws.PagesPresent.Statement (.commandBoundary pg) :=
  Laws.pagesPresent_of_named rfl id

theorem Laws.PagesPresent.intClrWrite (pg : PageId) (w : Word) (ev : Word) : Laws.PagesPresent.Statement (.intClrWrite pg w ev) :=
  Laws.pagesPresent_of_named rfl id

theorem Laws.PagesPresent.intSetWrite (pg : PageId) (w : Word) : Laws.PagesPresent.Statement (.intSetWrite pg w) :=
  Laws.pagesPresent_of_named rfl id

theorem Laws.PagesPresent.wideReadSnapshot (pg : PageId) (off : Nat) : Laws.PagesPresent.Statement (.wideReadSnapshot pg off) :=
  Laws.pagesPresent_of_named rfl (fun h => (Bool.and_eq_true_iff.mp h).1)

theorem Laws.PagesPresent.wideWriteApply (pg : PageId) (off : Nat) (v : Word) : Laws.PagesPresent.Statement (.wideWriteApply pg off v) :=
  Laws.pagesPresent_of_named rfl (fun h => (Bool.and_eq_true_iff.mp h).1)

theorem Laws.PagesPresent.registerWrite (m : Master) (pg : PageId) (off : Nat) (v : Word) : Laws.PagesPresent.Statement (.registerWrite m pg off v) :=
  Laws.pagesPresent_of_named rfl (fun h => (Bool.and_eq_true_iff.mp h).1)

theorem Laws.PagesPresent.w1cStatusWrite (pg : PageId) (off : Nat) (w : Word) (ev : Word) : Laws.PagesPresent.Statement (.w1cStatusWrite pg off w ev) :=
  Laws.pagesPresent_of_named rfl (fun h => (Bool.and_eq_true_iff.mp h).1)

theorem Laws.PagesPresent.readClearRegister (pg : PageId) (off : Nat) : Laws.PagesPresent.Statement (.readClearRegister pg off) :=
  Laws.pagesPresent_of_named rfl (fun h => (Bool.and_eq_true_iff.mp h).1)

theorem Laws.PagesPresent.baseTick (t : Nat) : Laws.PagesPresent.Statement (.baseTick t) :=
  fun _ _ h => absurd h List.not_mem_nil

theorem Laws.PagesPresent.apcPublish (m : Master) (id : BitVec 16) (hi : Bool) (v : Word) : Laws.PagesPresent.Statement (.apcPublish m id hi v) :=
  fun _ _ h => absurd h List.not_mem_nil

theorem Laws.PagesPresent.piValueRead (id : BitVec 16) (ecc : List (Bool × Nat)) : Laws.PagesPresent.Statement (.piValueRead id ecc) :=
  fun _ _ h => absurd h List.not_mem_nil

theorem Laws.PagesPresent.debugHalt (e : Engine) : Laws.PagesPresent.Statement (.debugHalt e) :=
  fun _ _ h => absurd h List.not_mem_nil

theorem Laws.PagesPresent.accessError (m : Master) (addr : Nat) (write : Bool) : Laws.PagesPresent.Statement (.accessError m addr write) :=
  fun _ _ h => absurd h List.not_mem_nil

theorem Laws.PagesPresent.fabLogIdxWrite (v : Word) : Laws.PagesPresent.Statement (.fabLogIdxWrite v) :=
  fun _ _ h => absurd h List.not_mem_nil

theorem Laws.PagesPresent.fabClearLog (chk : BitVec 16) : Laws.PagesPresent.Statement (.fabClearLog chk) :=
  fun _ _ h => absurd h List.not_mem_nil

theorem Laws.PagesPresent.memScrub (n : Fin 2) (chk : BitVec 16) : Laws.PagesPresent.Statement (.memScrub n chk) :=
  fun _ _ h => absurd h List.not_mem_nil

theorem Laws.PagesPresent.scrubPassEnd (n : Fin 2) (ecc : List (Bool × Nat)) : Laws.PagesPresent.Statement (.scrubPassEnd n ecc) :=
  fun _ _ h => absurd h List.not_mem_nil

theorem Laws.PagesPresent.scrubTimer (n : Fin 2) (t : Nat) (ecc : List (Bool × Nat)) : Laws.PagesPresent.Statement (.scrubTimer n t ecc) :=
  fun _ _ h => absurd h List.not_mem_nil

theorem Laws.PagesPresent.encEdgeAccept (n : Fin 64) (t te : Nat) (a b z : Bool) : Laws.PagesPresent.Statement (.encEdgeAccept n t te a b z) :=
  fun _ _ h => absurd h List.not_mem_nil

theorem Laws.PagesPresent.encIndex (n : Fin 64) (t te : Nat) : Laws.PagesPresent.Statement (.encIndex n t te) :=
  fun _ _ h => absurd h List.not_mem_nil

theorem Laws.PagesPresent.standstill (n : Fin 64) (t : Nat) : Laws.PagesPresent.Statement (.standstill n t) :=
  fun _ _ h => absurd h List.not_mem_nil

theorem Laws.PagesPresent.setPos (n : Fin 64) (chk : BitVec 16) : Laws.PagesPresent.Statement (.setPos n chk) :=
  fun _ _ h => absurd h List.not_mem_nil

theorem Laws.PagesPresent.armIndex (n : Fin 64) (chk : BitVec 16) : Laws.PagesPresent.Statement (.armIndex n chk) :=
  fun _ _ h => absurd h List.not_mem_nil

theorem Laws.PagesPresent.learnLines (n : Fin 64) (chk : BitVec 16) : Laws.PagesPresent.Statement (.learnLines n chk) :=
  fun _ _ h => absurd h List.not_mem_nil

theorem Laws.PagesPresent.ssnFrameStart (m : Fin 16) (t : Nat) : Laws.PagesPresent.Statement (.ssnFrameStart m t) :=
  fun _ _ h => absurd h List.not_mem_nil

theorem Laws.PagesPresent.ssnFrameEnd (m : Fin 16) (t : Nat) (sl : Bool) (f : SsnFrame) : Laws.PagesPresent.Statement (.ssnFrameEnd m t sl f) :=
  fun _ _ h => absurd h List.not_mem_nil

theorem Laws.PagesPresent.ssnTimeout (m : Fin 16) (t : Nat) (f : Option SsnFrame) : Laws.PagesPresent.Statement (.ssnTimeout m t f) :=
  fun _ _ h => absurd h List.not_mem_nil

theorem Laws.PagesPresent.ssnTrigger (m : Fin 16) (chk : BitVec 16) : Laws.PagesPresent.Statement (.ssnTrigger m chk) :=
  fun _ _ h => absurd h List.not_mem_nil

theorem Laws.PagesPresent.cdmTxWrite (m : Fin 16) (v : Word) : Laws.PagesPresent.Statement (.cdmTxWrite m v) :=
  fun _ _ h => absurd h List.not_mem_nil

theorem Laws.PagesPresent.cdsRxRead (m : Fin 16) : Laws.PagesPresent.Statement (.cdsRxRead m) :=
  fun _ _ h => absurd h List.not_mem_nil

theorem Laws.PagesPresent.moveAbs (n : Fin 128) (chk : BitVec 16) : Laws.PagesPresent.Statement (.moveAbs n chk) :=
  fun _ _ h => absurd h List.not_mem_nil

theorem Laws.PagesPresent.moveRel (n : Fin 128) (chk : BitVec 16) : Laws.PagesPresent.Statement (.moveRel n chk) :=
  fun _ _ h => absurd h List.not_mem_nil

theorem Laws.PagesPresent.axisVelocity (n : Fin 128) (chk : BitVec 16) : Laws.PagesPresent.Statement (.axisVelocity n chk) :=
  fun _ _ h => absurd h List.not_mem_nil

theorem Laws.PagesPresent.gearIn (n : Fin 128) (chk : BitVec 16) : Laws.PagesPresent.Statement (.gearIn n chk) :=
  fun _ _ h => absurd h List.not_mem_nil

theorem Laws.PagesPresent.gearOut (n : Fin 128) (chk : BitVec 16) : Laws.PagesPresent.Statement (.gearOut n chk) :=
  fun _ _ h => absurd h List.not_mem_nil

theorem Laws.PagesPresent.camIn (n : Fin 128) (chk : BitVec 16) : Laws.PagesPresent.Statement (.camIn n chk) :=
  fun _ _ h => absurd h List.not_mem_nil

theorem Laws.PagesPresent.camOut (n : Fin 128) (chk : BitVec 16) : Laws.PagesPresent.Statement (.camOut n chk) :=
  fun _ _ h => absurd h List.not_mem_nil

theorem Laws.PagesPresent.pvtStart (n : Fin 128) (chk : BitVec 16) : Laws.PagesPresent.Statement (.pvtStart n chk) :=
  fun _ _ h => absurd h List.not_mem_nil

theorem Laws.PagesPresent.followOn (n : Fin 128) (chk : BitVec 16) : Laws.PagesPresent.Statement (.followOn n chk) :=
  fun _ _ h => absurd h List.not_mem_nil

theorem Laws.PagesPresent.followOff (n : Fin 128) (chk : BitVec 16) : Laws.PagesPresent.Statement (.followOff n chk) :=
  fun _ _ h => absurd h List.not_mem_nil

theorem Laws.PagesPresent.axisHome (n : Fin 128) (chk : BitVec 16) : Laws.PagesPresent.Statement (.axisHome n chk) :=
  fun _ _ h => absurd h List.not_mem_nil

theorem Laws.PagesPresent.axisResume (n : Fin 128) (chk : BitVec 16) : Laws.PagesPresent.Statement (.axisResume n chk) :=
  fun _ _ h => absurd h List.not_mem_nil

theorem Laws.PagesPresent.quickstop (n : Fin 128) (chk : BitVec 16) : Laws.PagesPresent.Statement (.quickstop n chk) :=
  fun _ _ h => absurd h List.not_mem_nil

theorem Laws.PagesPresent.limitAccept (n : Fin 128) (t : Nat) (neg : Bool) (dt : Nat) : Laws.PagesPresent.Statement (.limitAccept n t neg dt) :=
  fun _ _ h => absurd h List.not_mem_nil

theorem Laws.PagesPresent.limitRelease (n : Fin 128) (t : Nat) (neg : Bool) : Laws.PagesPresent.Statement (.limitRelease n t neg) :=
  fun _ _ h => absurd h List.not_mem_nil

theorem Laws.PagesPresent.homeEdgeAccept (n : Fin 128) (t : Nat) (active : Bool) (dt : Nat) : Laws.PagesPresent.Statement (.homeEdgeAccept n t active dt) :=
  fun _ _ h => absurd h List.not_mem_nil

theorem Laws.PagesPresent.prkCheck (n : Fin 4) (chk : BitVec 16) : Laws.PagesPresent.Statement (.prkCheck n chk) :=
  fun _ _ h => absurd h List.not_mem_nil

theorem Laws.PagesPresent.prkCheckEnd (n : Fin 4) : Laws.PagesPresent.Statement (.prkCheckEnd n) :=
  fun _ _ h => absurd h List.not_mem_nil

theorem Laws.PagesPresent.prkPointWrite (m : Master) (addr : Nat) (v : Word) : Laws.PagesPresent.Statement (.prkPointWrite m addr v) :=
  fun _ _ h => absurd h List.not_mem_nil

theorem Laws.PagesPresent.pcmpFire (n : Fin 64) (t : Nat) : Laws.PagesPresent.Statement (.pcmpFire n t) :=
  fun _ _ h => absurd h List.not_mem_nil

theorem Laws.PagesPresent.pcmpPulseEnd (n : Fin 64) (t : Nat) : Laws.PagesPresent.Statement (.pcmpPulseEnd n t) :=
  fun _ _ h => absurd h List.not_mem_nil

theorem Laws.PagesPresent.pcmpLatchEdge (n : Fin 64) (te : Nat) (rising : Bool) : Laws.PagesPresent.Statement (.pcmpLatchEdge n te rising) :=
  fun _ _ h => absurd h List.not_mem_nil

theorem Laws.PagesPresent.markWindowClose (n : Fin 64) (t : Nat) : Laws.PagesPresent.Statement (.markWindowClose n t) :=
  fun _ _ h => absurd h List.not_mem_nil

theorem Laws.PagesPresent.latchQueueRead (n : Fin 64) : Laws.PagesPresent.Statement (.latchQueueRead n) :=
  fun _ _ h => absurd h List.not_mem_nil

theorem Laws.PagesPresent.pcmpFlush (n : Fin 64) (chk : BitVec 16) : Laws.PagesPresent.Statement (.pcmpFlush n chk) :=
  fun _ _ h => absurd h List.not_mem_nil

theorem Laws.PagesPresent.latchClear (n : Fin 64) (chk : BitVec 16) : Laws.PagesPresent.Statement (.latchClear n chk) :=
  fun _ _ h => absurd h List.not_mem_nil

theorem Laws.PagesPresent.stepEmit (n : Fin 64) (t : Nat) : Laws.PagesPresent.Statement (.stepEmit n t) :=
  fun _ _ h => absurd h List.not_mem_nil

theorem Laws.PagesPresent.stepHoldAmp (n : Fin 64) (t : Nat) : Laws.PagesPresent.Statement (.stepHoldAmp n t) :=
  fun _ _ h => absurd h List.not_mem_nil

theorem Laws.PagesPresent.editSelWrite (v : Word) : Laws.PagesPresent.Statement (.editSelWrite v) :=
  fun _ _ h => absurd h List.not_mem_nil

theorem Laws.PagesPresent.ustpCopyEnd : Laws.PagesPresent.Statement (.ustpCopyEnd) :=
  fun _ _ h => absurd h List.not_mem_nil

theorem Laws.PagesPresent.lcNop (a : LcAt) (wide : Bool) : Laws.PagesPresent.Statement (.lcNop a wide) :=
  fun _ _ h => absurd h List.not_mem_nil

theorem Laws.PagesPresent.lcMpy (a : LcAt) (mv : Option LcSlots) (an : Fin 4) (da db : Fin 32) : Laws.PagesPresent.Statement (.lcMpy a mv an da db) :=
  fun _ _ h => absurd h List.not_mem_nil

theorem Laws.PagesPresent.lcMac (a : LcAt) (mv : Option LcSlots) (an : Fin 4) (da db : Fin 32) : Laws.PagesPresent.Statement (.lcMac a mv an da db) :=
  fun _ _ h => absurd h List.not_mem_nil

theorem Laws.PagesPresent.lcMsu (a : LcAt) (mv : Option LcSlots) (an : Fin 4) (da db : Fin 32) : Laws.PagesPresent.Statement (.lcMsu a mv an da db) :=
  fun _ _ h => absurd h List.not_mem_nil

theorem Laws.PagesPresent.lcPmac (a : LcAt) (mv : Option LcSlots) (an : Fin 4) (da db dd : Fin 32) : Laws.PagesPresent.Statement (.lcPmac a mv an da db dd) :=
  fun _ _ h => absurd h List.not_mem_nil

theorem Laws.PagesPresent.lcClra (a : LcAt) (mv : Option LcSlots) (an : Fin 4) : Laws.PagesPresent.Statement (.lcClra a mv an) :=
  fun _ _ h => absurd h List.not_mem_nil

theorem Laws.PagesPresent.lcLda (a : LcAt) (mv : Option LcSlots) (an : Fin 4) (da : Fin 32) : Laws.PagesPresent.Statement (.lcLda a mv an da) :=
  fun _ _ h => absurd h List.not_mem_nil

theorem Laws.PagesPresent.lcAdda (a : LcAt) (mv : Option LcSlots) (an am : Fin 4) : Laws.PagesPresent.Statement (.lcAdda a mv an am) :=
  fun _ _ h => absurd h List.not_mem_nil

theorem Laws.PagesPresent.lcSuba (a : LcAt) (mv : Option LcSlots) (an am : Fin 4) : Laws.PagesPresent.Statement (.lcSuba a mv an am) :=
  fun _ _ h => absurd h List.not_mem_nil

theorem Laws.PagesPresent.lcNega (a : LcAt) (mv : Option LcSlots) (an : Fin 4) : Laws.PagesPresent.Statement (.lcNega a mv an) :=
  fun _ _ h => absurd h List.not_mem_nil

theorem Laws.PagesPresent.lcAbsa (a : LcAt) (mv : Option LcSlots) (an : Fin 4) : Laws.PagesPresent.Statement (.lcAbsa a mv an) :=
  fun _ _ h => absurd h List.not_mem_nil

theorem Laws.PagesPresent.lcShla (a : LcAt) (mv : Option LcSlots) (an : Fin 4) (k : Fin 16) : Laws.PagesPresent.Statement (.lcShla a mv an k) :=
  fun _ _ h => absurd h List.not_mem_nil

theorem Laws.PagesPresent.lcShra (a : LcAt) (mv : Option LcSlots) (an : Fin 4) (k : Fin 16) : Laws.PagesPresent.Statement (.lcShra a mv an k) :=
  fun _ _ h => absurd h List.not_mem_nil

theorem Laws.PagesPresent.lcSata (a : LcAt) (mv : Option LcSlots) (an : Fin 4) : Laws.PagesPresent.Statement (.lcSata a mv an) :=
  fun _ _ h => absurd h List.not_mem_nil

theorem Laws.PagesPresent.lcRnda (a : LcAt) (mv : Option LcSlots) (an : Fin 4) : Laws.PagesPresent.Statement (.lcRnda a mv an) :=
  fun _ _ h => absurd h List.not_mem_nil

theorem Laws.PagesPresent.lcMova (a : LcAt) (mv : Option LcSlots) (dd : Fin 32) (an : Fin 4) : Laws.PagesPresent.Statement (.lcMova a mv dd an) :=
  fun _ _ h => absurd h List.not_mem_nil

theorem Laws.PagesPresent.lcAdd (a : LcAt) (mv : Option LcSlots) (dd da db : Fin 32) : Laws.PagesPresent.Statement (.lcAdd a mv dd da db) :=
  fun _ _ h => absurd h List.not_mem_nil

theorem Laws.PagesPresent.lcSub (a : LcAt) (mv : Option LcSlots) (dd da db : Fin 32) : Laws.PagesPresent.Statement (.lcSub a mv dd da db) :=
  fun _ _ h => absurd h List.not_mem_nil

theorem Laws.PagesPresent.lcAdds (a : LcAt) (mv : Option LcSlots) (dd da db : Fin 32) : Laws.PagesPresent.Statement (.lcAdds a mv dd da db) :=
  fun _ _ h => absurd h List.not_mem_nil

theorem Laws.PagesPresent.lcSubs (a : LcAt) (mv : Option LcSlots) (dd da db : Fin 32) : Laws.PagesPresent.Statement (.lcSubs a mv dd da db) :=
  fun _ _ h => absurd h List.not_mem_nil

theorem Laws.PagesPresent.lcNeg (a : LcAt) (mv : Option LcSlots) (dd da : Fin 32) : Laws.PagesPresent.Statement (.lcNeg a mv dd da) :=
  fun _ _ h => absurd h List.not_mem_nil

theorem Laws.PagesPresent.lcAbs (a : LcAt) (mv : Option LcSlots) (dd da : Fin 32) : Laws.PagesPresent.Statement (.lcAbs a mv dd da) :=
  fun _ _ h => absurd h List.not_mem_nil

theorem Laws.PagesPresent.lcAnd (a : LcAt) (mv : Option LcSlots) (dd da db : Fin 32) : Laws.PagesPresent.Statement (.lcAnd a mv dd da db) :=
  fun _ _ h => absurd h List.not_mem_nil

theorem Laws.PagesPresent.lcOr (a : LcAt) (mv : Option LcSlots) (dd da db : Fin 32) : Laws.PagesPresent.Statement (.lcOr a mv dd da db) :=
  fun _ _ h => absurd h List.not_mem_nil

theorem Laws.PagesPresent.lcXor (a : LcAt) (mv : Option LcSlots) (dd da db : Fin 32) : Laws.PagesPresent.Statement (.lcXor a mv dd da db) :=
  fun _ _ h => absurd h List.not_mem_nil

theorem Laws.PagesPresent.lcShl (a : LcAt) (mv : Option LcSlots) (dd da : Fin 32) (k : Fin 16) : Laws.PagesPresent.Statement (.lcShl a mv dd da k) :=
  fun _ _ h => absurd h List.not_mem_nil

theorem Laws.PagesPresent.lcShr (a : LcAt) (mv : Option LcSlots) (dd da : Fin 32) (k : Fin 16) : Laws.PagesPresent.Statement (.lcShr a mv dd da k) :=
  fun _ _ h => absurd h List.not_mem_nil

theorem Laws.PagesPresent.lcShrl (a : LcAt) (mv : Option LcSlots) (dd da : Fin 32) (k : Fin 16) : Laws.PagesPresent.Statement (.lcShrl a mv dd da k) :=
  fun _ _ h => absurd h List.not_mem_nil

theorem Laws.PagesPresent.lcMin (a : LcAt) (mv : Option LcSlots) (dd da db : Fin 32) : Laws.PagesPresent.Statement (.lcMin a mv dd da db) :=
  fun _ _ h => absurd h List.not_mem_nil

theorem Laws.PagesPresent.lcMax (a : LcAt) (mv : Option LcSlots) (dd da db : Fin 32) : Laws.PagesPresent.Statement (.lcMax a mv dd da db) :=
  fun _ _ h => absurd h List.not_mem_nil

theorem Laws.PagesPresent.lcCmp (a : LcAt) (mv : Option LcSlots) (da db : Fin 32) : Laws.PagesPresent.Statement (.lcCmp a mv da db) :=
  fun _ _ h => absurd h List.not_mem_nil

theorem Laws.PagesPresent.lcClip (a : LcAt) (mv : Option LcSlots) (dd da db : Fin 32) : Laws.PagesPresent.Statement (.lcClip a mv dd da db) :=
  fun _ _ h => absurd h List.not_mem_nil

theorem Laws.PagesPresent.lcMov (a : LcAt) (rd rs : Fin 64) : Laws.PagesPresent.Statement (.lcMov a rd rs) :=
  fun _ _ h => absurd h List.not_mem_nil

theorem Laws.PagesPresent.lcMvcToControl (a : LcAt) (ctl rs : Fin 64) : Laws.PagesPresent.Statement (.lcMvcToControl a ctl rs) :=
  fun _ _ h => absurd h List.not_mem_nil

theorem Laws.PagesPresent.lcMvcFromControl (a : LcAt) (rd ctl : Fin 64) : Laws.PagesPresent.Statement (.lcMvcFromControl a rd ctl) :=
  fun _ _ h => absurd h List.not_mem_nil

theorem Laws.PagesPresent.lcClrf (a : LcAt) : Laws.PagesPresent.Statement (.lcClrf a) :=
  fun _ _ h => absurd h List.not_mem_nil

theorem Laws.PagesPresent.lcRot (a : LcAt) : Laws.PagesPresent.Statement (.lcRot a) :=
  fun _ _ h => absurd h List.not_mem_nil

theorem Laws.PagesPresent.lcLd (a : LcAt) (y : Bool) (p : Fin 8) (am : Fin 8) (ofs : BitVec 11) (reg : Fin 64) : Laws.PagesPresent.Statement (.lcLd a y p am ofs reg) :=
  fun _ _ h => absurd h List.not_mem_nil

theorem Laws.PagesPresent.lcSt (a : LcAt) (y : Bool) (p : Fin 8) (am : Fin 8) (ofs : BitVec 11) (reg : Fin 64) : Laws.PagesPresent.Statement (.lcSt a y p am ofs reg) :=
  fun _ _ h => absurd h List.not_mem_nil

theorem Laws.PagesPresent.lcLdp (a : LcAt) (y : Bool) (p : Fin 8) (am : Fin 8) (ofs : BitVec 11) (reg : Fin 64) : Laws.PagesPresent.Statement (.lcLdp a y p am ofs reg) :=
  fun _ _ h => absurd h List.not_mem_nil

theorem Laws.PagesPresent.lcStp (a : LcAt) (y : Bool) (p : Fin 8) (am : Fin 8) (ofs : BitVec 11) (reg : Fin 64) : Laws.PagesPresent.Statement (.lcStp a y p am ofs reg) :=
  fun _ _ h => absurd h List.not_mem_nil

theorem Laws.PagesPresent.lcMoveSlotLoad (a : LcAt) (y pair : Bool) (p : Fin 8) (am : Fin 4) (d : Fin 32) (other : BitVec 16) : Laws.PagesPresent.Statement (.lcMoveSlotLoad a y pair p am d other) :=
  fun _ _ h => absurd h List.not_mem_nil

theorem Laws.PagesPresent.lcMoveSlotStore (a : LcAt) (y pair : Bool) (p : Fin 8) (am : Fin 4) (d : Fin 32) (other : BitVec 16) : Laws.PagesPresent.Statement (.lcMoveSlotStore a y pair p am d other) :=
  fun _ _ h => absurd h List.not_mem_nil

theorem Laws.PagesPresent.lcMoveSlotExchange (a : LcAt) (y : Bool) (p : Fin 8) (am : Fin 4) (d : Fin 32) (other : BitVec 16) : Laws.PagesPresent.Statement (.lcMoveSlotExchange a y p am d other) :=
  fun _ _ h => absurd h List.not_mem_nil

theorem Laws.PagesPresent.lcIn (a : LcAt) (reg : Fin 64) (port : Fin 2048) : Laws.PagesPresent.Statement (.lcIn a reg port) :=
  fun _ _ h => absurd h List.not_mem_nil

theorem Laws.PagesPresent.lcOut (a : LcAt) (reg : Fin 64) (port : Fin 2048) : Laws.PagesPresent.Statement (.lcOut a reg port) :=
  fun _ _ h => absurd h List.not_mem_nil

theorem Laws.PagesPresent.lcLdg (a : LcAt) (g1 : Bool) (reg : Fin 64) (ofs : BitVec 17) (stall : Nat) (ecc : List (Bool × Nat)) : Laws.PagesPresent.Statement (.lcLdg a g1 reg ofs stall ecc) :=
  fun _ _ h => absurd h List.not_mem_nil

theorem Laws.PagesPresent.lcStg (a : LcAt) (g1 : Bool) (reg : Fin 64) (ofs : BitVec 17) (stall : Nat) : Laws.PagesPresent.Statement (.lcStg a g1 reg ofs stall) :=
  fun _ _ h => absurd h List.not_mem_nil

theorem Laws.PagesPresent.lcFtap (a : LcAt) (clr : Bool) (an : Fin 4) (px py : Fin 8) : Laws.PagesPresent.Statement (.lcFtap a clr an px py) :=
  fun _ _ h => absurd h List.not_mem_nil

theorem Laws.PagesPresent.lcBr (a : LcAt) (cond : Fin 16) (tgt : BitVec 14) : Laws.PagesPresent.Statement (.lcBr a cond tgt) :=
  fun _ _ h => absurd h List.not_mem_nil

theorem Laws.PagesPresent.lcCall (a : LcAt) (cond : Fin 16) (tgt : BitVec 14) : Laws.PagesPresent.Statement (.lcCall a cond tgt) :=
  fun _ _ h => absurd h List.not_mem_nil

theorem Laws.PagesPresent.lcRet (a : LcAt) (cond : Fin 16) : Laws.PagesPresent.Statement (.lcRet a cond) :=
  fun _ _ h => absurd h List.not_mem_nil

theorem Laws.PagesPresent.lcReti (a : LcAt) (cond : Fin 16) : Laws.PagesPresent.Statement (.lcReti a cond) :=
  fun _ _ h => absurd h List.not_mem_nil

theorem Laws.PagesPresent.lcBreak (a : LcAt) (cond : Fin 16) : Laws.PagesPresent.Statement (.lcBreak a cond) :=
  fun _ _ h => absurd h List.not_mem_nil

theorem Laws.PagesPresent.lcTend (a : LcAt) (cond : Fin 16) : Laws.PagesPresent.Statement (.lcTend a cond) :=
  fun _ _ h => absurd h List.not_mem_nil

theorem Laws.PagesPresent.lcTrap (a : LcAt) (cond n : Fin 16) : Laws.PagesPresent.Statement (.lcTrap a cond n) :=
  fun _ _ h => absurd h List.not_mem_nil

theorem Laws.PagesPresent.lcBrep (a : LcAt) (reg : Option (Fin 32)) (cnt : BitVec 16) (rot : Bool) (last : BitVec 8) : Laws.PagesPresent.Statement (.lcBrep a reg cnt rot last) :=
  fun _ _ h => absurd h List.not_mem_nil

theorem Laws.PagesPresent.lcBrepLoopEnd (c : Fin 18) : Laws.PagesPresent.Statement (.lcBrepLoopEnd c) :=
  fun _ _ h => absurd h List.not_mem_nil

theorem Laws.PagesPresent.lcMovi (a : LcAt) (reg : Fin 64) (imm : BitVec 20) : Laws.PagesPresent.Statement (.lcMovi a reg imm) :=
  fun _ _ h => absurd h List.not_mem_nil

theorem Laws.PagesPresent.lcLdi (a : LcAt) (reg : Fin 64) (imm : Word) : Laws.PagesPresent.Statement (.lcLdi a reg imm) :=
  fun _ _ h => absurd h List.not_mem_nil

theorem Laws.PagesPresent.lcLdc (a : LcAt) (ctl : Fin 64) (imm : Word) : Laws.PagesPresent.Statement (.lcLdc a ctl imm) :=
  fun _ _ h => absurd h List.not_mem_nil

theorem Laws.PagesPresent.lcInterrupt (c : Fin 18) (v : Fin 32) : Laws.PagesPresent.Statement (.lcInterrupt c v) :=
  fun _ _ h => absurd h List.not_mem_nil

theorem Laws.PagesPresent.sampleStart (c : Fin 18) (gap : Nat) : Laws.PagesPresent.Statement (.sampleStart c gap) :=
  fun _ _ h => absurd h List.not_mem_nil

theorem Laws.PagesPresent.sampleCut (c : Fin 18) : Laws.PagesPresent.Statement (.sampleCut c) :=
  fun _ _ h => absurd h List.not_mem_nil

theorem Laws.PagesPresent.lschStitch (chk : BitVec 16) : Laws.PagesPresent.Statement (.lschStitch chk) :=
  fun _ _ h => absurd h List.not_mem_nil

theorem Laws.PagesPresent.stitchCopyEnd (lost : List (Fin 8192)) (ecc : List (Bool × Nat)) : Laws.PagesPresent.Statement (.stitchCopyEnd lost ecc) :=
  fun _ _ h => absurd h List.not_mem_nil

theorem Laws.PagesPresent.stitchSwitch (t : Nat) : Laws.PagesPresent.Statement (.stitchSwitch t) :=
  fun _ _ h => absurd h List.not_mem_nil

theorem Laws.PagesPresent.stitchTimeout (t : Nat) : Laws.PagesPresent.Statement (.stitchTimeout t) :=
  fun _ _ h => absurd h List.not_mem_nil

theorem Laws.PagesPresent.failoverSwitch (t : Nat) : Laws.PagesPresent.Statement (.failoverSwitch t) :=
  fun _ _ h => absurd h List.not_mem_nil

theorem Laws.PagesPresent.failoverTimeout (t : Nat) : Laws.PagesPresent.Statement (.failoverTimeout t) :=
  fun _ _ h => absurd h List.not_mem_nil

theorem Laws.PagesPresent.lschRestart (chk : BitVec 16) : Laws.PagesPresent.Statement (.lschRestart chk) :=
  fun _ _ h => absurd h List.not_mem_nil

theorem Laws.PagesPresent.lschRestartEnd (t : Nat) (ecc : List (Bool × Nat)) : Laws.PagesPresent.Statement (.lschRestartEnd t ecc) :=
  fun _ _ h => absurd h List.not_mem_nil

theorem Laws.PagesPresent.lcSelftest (c : Fin 18) (chk : BitVec 16) : Laws.PagesPresent.Statement (.lcSelftest c chk) :=
  fun _ _ h => absurd h List.not_mem_nil

theorem Laws.PagesPresent.lcSelftestEnd (c : Fin 18) (cause : Fin 9) (w : Fin 16384) : Laws.PagesPresent.Statement (.lcSelftestEnd c cause w) :=
  fun _ _ h => absurd h List.not_mem_nil

theorem Laws.PagesPresent.cslotSampleEvent (k : Fin 64) (t : Nat) : Laws.PagesPresent.Statement (.cslotSampleEvent k t) :=
  fun _ _ h => absurd h List.not_mem_nil

theorem Laws.PagesPresent.updatePhase (e : Fin 8) (t : Nat) (err : Option CsErr) : Laws.PagesPresent.Statement (.updatePhase e t err) :=
  fun _ _ h => absurd h List.not_mem_nil

theorem Laws.PagesPresent.inputWatchdog (k : Fin 64) (t : Nat) : Laws.PagesPresent.Statement (.inputWatchdog k t) :=
  fun _ _ h => absurd h List.not_mem_nil

theorem Laws.PagesPresent.rtExpired (k : Fin 64) (t : Nat) : Laws.PagesPresent.Statement (.rtExpired k t) :=
  fun _ _ h => absurd h List.not_mem_nil

theorem Laws.PagesPresent.plausFault (k : Fin 64) : Laws.PagesPresent.Statement (.plausFault k) :=
  fun _ _ h => absurd h List.not_mem_nil

theorem Laws.PagesPresent.repLearn (k : Fin 64) (chk : BitVec 16) : Laws.PagesPresent.Statement (.repLearn k chk) :=
  fun _ _ h => absurd h List.not_mem_nil

theorem Laws.PagesPresent.repFreeze (k : Fin 64) (chk : BitVec 16) : Laws.PagesPresent.Statement (.repFreeze k chk) :=
  fun _ _ h => absurd h List.not_mem_nil

theorem Laws.PagesPresent.repClear (k : Fin 64) (chk : BitVec 16) : Laws.PagesPresent.Statement (.repClear k chk) :=
  fun _ _ h => absurd h List.not_mem_nil

theorem Laws.PagesPresent.repClearEnd (k : Fin 64) : Laws.PagesPresent.Statement (.repClearEnd k) :=
  fun _ _ h => absurd h List.not_mem_nil

theorem Laws.PagesPresent.cslotRide (k : Fin 64) (chk : BitVec 16) : Laws.PagesPresent.Statement (.cslotRide k chk) :=
  fun _ _ h => absurd h List.not_mem_nil

theorem Laws.PagesPresent.resetState (k : Fin 64) (chk : BitVec 16) : Laws.PagesPresent.Statement (.resetState k chk) :=
  fun _ _ h => absurd h List.not_mem_nil

theorem Laws.PagesPresent.repDataAccess (k : Fin 64) (v : Option Word) : Laws.PagesPresent.Statement (.repDataAccess k v) :=
  fun _ _ h => absurd h List.not_mem_nil

theorem Laws.PagesPresent.ceUcodeLoaded (e : Fin 8) (t : Nat) : Laws.PagesPresent.Statement (.ceUcodeLoaded e t) :=
  fun _ _ h => absurd h List.not_mem_nil

theorem Laws.PagesPresent.pwmZeroEvent (n : Fin 32) (t : Nat) : Laws.PagesPresent.Statement (.pwmZeroEvent n t) :=
  fun _ _ h => absurd h List.not_mem_nil

theorem Laws.PagesPresent.pwmPeriodEvent (n : Fin 32) (t : Nat) : Laws.PagesPresent.Statement (.pwmPeriodEvent n t) :=
  fun _ _ h => absurd h List.not_mem_nil

theorem Laws.PagesPresent.pwmPositionTrigger (n : Fin 32) (k : Fin 4) (t : Nat) : Laws.PagesPresent.Statement (.pwmPositionTrigger n k t) :=
  fun _ _ h => absurd h List.not_mem_nil

theorem Laws.PagesPresent.forceWrite (n : Fin 32) (v : Word) : Laws.PagesPresent.Statement (.forceWrite n v) :=
  fun _ _ h => absurd h List.not_mem_nil

theorem Laws.PagesPresent.finTrip (raw : BitVec 16) (t : Nat) : Laws.PagesPresent.Statement (.finTrip raw t) :=
  fun _ _ h => absurd h List.not_mem_nil

theorem Laws.PagesPresent.finClear (chk : BitVec 16) : Laws.PagesPresent.Statement (.finClear chk) :=
  fun _ _ h => absurd h List.not_mem_nil

theorem Laws.PagesPresent.pwmClockLoss (t : Nat) : Laws.PagesPresent.Statement (.pwmClockLoss t) :=
  fun _ _ h => absurd h List.not_mem_nil

theorem Laws.PagesPresent.pwmClockReturn (t : Nat) : Laws.PagesPresent.Statement (.pwmClockReturn t) :=
  fun _ _ h => absurd h List.not_mem_nil

theorem Laws.PagesPresent.pwmReadbackMismatch (n : Fin 32) (out : Fin 6) (held : Nat) : Laws.PagesPresent.Statement (.pwmReadbackMismatch n out held) :=
  fun _ _ h => absurd h List.not_mem_nil

theorem Laws.PagesPresent.fchEffectiveTrigger (c : Fin 96) (t : Nat) : Laws.PagesPresent.Statement (.fchEffectiveTrigger c t) :=
  fun _ _ h => absurd h List.not_mem_nil

theorem Laws.PagesPresent.fchTrigger (c : Fin 96) (chk : BitVec 16) : Laws.PagesPresent.Statement (.fchTrigger c chk) :=
  fun _ _ h => absurd h List.not_mem_nil

theorem Laws.PagesPresent.convEnd (c : Fin 96) (t : Nat) (qs other : List (BitVec 16)) : Laws.PagesPresent.Statement (.convEnd c t qs other) :=
  fun _ _ h => absurd h List.not_mem_nil

theorem Laws.PagesPresent.fchLimit (c : Fin 96) : Laws.PagesPresent.Statement (.fchLimit c) :=
  fun _ _ h => absurd h List.not_mem_nil

theorem Laws.PagesPresent.fcgCal (g : Fin 3) (chk : BitVec 16) : Laws.PagesPresent.Statement (.fcgCal g chk) :=
  fun _ _ h => absurd h List.not_mem_nil

theorem Laws.PagesPresent.bobbinCalEnd (g : Fin 3) (t : Nat) (ofs : Int) (gain : Nat) : Laws.PagesPresent.Statement (.bobbinCalEnd g t ofs gain) :=
  fun _ _ h => absurd h List.not_mem_nil

theorem Laws.PagesPresent.shadowComplete (g : Fin 3) (t : Nat) : Laws.PagesPresent.Statement (.shadowComplete g t) :=
  fun _ _ h => absurd h List.not_mem_nil

theorem Laws.PagesPresent.converterCalEnd (g : Fin 3) (t : Nat) (ofs : Int) (gain : Nat) : Laws.PagesPresent.Statement (.converterCalEnd g t ofs gain) :=
  fun _ _ h => absurd h List.not_mem_nil

theorem Laws.PagesPresent.verifyComplete (g : Fin 3) (t : Nat) : Laws.PagesPresent.Statement (.verifyComplete g t) :=
  fun _ _ h => absurd h List.not_mem_nil

theorem Laws.PagesPresent.calTimeout (g : Fin 3) (t : Nat) : Laws.PagesPresent.Statement (.calTimeout g t) :=
  fun _ _ h => absurd h List.not_mem_nil

theorem Laws.PagesPresent.conversionFailure (c : Fin 96) (t : Nat) : Laws.PagesPresent.Statement (.conversionFailure c t) :=
  fun _ _ h => absurd h List.not_mem_nil

theorem Laws.PagesPresent.autoCalTimer (g : Fin 3) (t : Nat) : Laws.PagesPresent.Statement (.autoCalTimer g t) :=
  fun _ _ h => absurd h List.not_mem_nil

theorem Laws.PagesPresent.startupCalEnd (g : Fin 3) (t : Nat) (cs : List (Int × Nat)) : Laws.PagesPresent.Statement (.startupCalEnd g t cs) :=
  fun _ _ h => absurd h List.not_mem_nil

theorem Laws.PagesPresent.pcvOutputWord (k : Fin 8) (t : Nat) (p : Option (Fin 16)) (w : Int) : Laws.PagesPresent.Statement (.pcvOutputWord k t p w) :=
  fun _ _ h => absurd h List.not_mem_nil

theorem Laws.PagesPresent.pcvCal (k : Fin 8) (chk : BitVec 16) : Laws.PagesPresent.Statement (.pcvCal k chk) :=
  fun _ _ h => absurd h List.not_mem_nil

theorem Laws.PagesPresent.benchRelease (e : Fin 6) (b : Fin 4) (t : Nat) : Laws.PagesPresent.Statement (.benchRelease e b t) :=
  fun _ _ h => absurd h List.not_mem_nil

theorem Laws.PagesPresent.benchCycleStart (e : Fin 6) (b : Fin 4) (t : Nat) (ecc : List (Bool × Nat)) : Laws.PagesPresent.Statement (.benchCycleStart e b t ecc) :=
  fun _ _ h => absurd h List.not_mem_nil

theorem Laws.PagesPresent.benchCycleEnd (e : Fin 6) (b : Fin 4) (t : Nat) (acts : List LeAct) : Laws.PagesPresent.Statement (.benchCycleEnd e b t acts) :=
  fun _ _ h => absurd h List.not_mem_nil

theorem Laws.PagesPresent.leWatchdogTrip (e : Fin 6) (b : Fin 4) (t : Nat) (i : Fin 65536) : Laws.PagesPresent.Statement (.leWatchdogTrip e b t i) :=
  fun _ _ h => absurd h List.not_mem_nil

theorem Laws.PagesPresent.leLoad (e : Fin 6) (chk : BitVec 16) : Laws.PagesPresent.Statement (.leLoad e chk) :=
  fun _ _ h => absurd h List.not_mem_nil

theorem Laws.PagesPresent.leLoadEnd (e : Fin 6) (prog : List LeCode) (env : List (Nat × LeCode)) (ecc : List (Bool × Nat)) : Laws.PagesPresent.Statement (.leLoadEnd e prog env ecc) :=
  fun _ _ h => absurd h List.not_mem_nil

theorem Laws.PagesPresent.leUnload (e : Fin 6) (chk : BitVec 16) : Laws.PagesPresent.Statement (.leUnload e chk) :=
  fun _ _ h => absurd h List.not_mem_nil

theorem Laws.PagesPresent.resetInst (e : Fin 6) (chk : BitVec 16) : Laws.PagesPresent.Statement (.resetInst e chk) :=
  fun _ _ h => absurd h List.not_mem_nil

theorem Laws.PagesPresent.forceSet (id : BitVec 16) (v : BitVec 64) : Laws.PagesPresent.Statement (.forceSet id v) :=
  fun _ _ h => absurd h List.not_mem_nil

theorem Laws.PagesPresent.forceRelease (id : BitVec 16) : Laws.PagesPresent.Statement (.forceRelease id) :=
  fun _ _ h => absurd h List.not_mem_nil

theorem Laws.PagesPresent.releaseAll (chk : BitVec 16) : Laws.PagesPresent.Statement (.releaseAll chk) :=
  fun _ _ h => absurd h List.not_mem_nil

theorem Laws.PagesPresent.rseqClockEdge (r : Fin 8) (t : Nat) : Laws.PagesPresent.Statement (.rseqClockEdge r t) :=
  fun _ _ h => absurd h List.not_mem_nil

theorem Laws.PagesPresent.rseqStepEnd (r : Fin 8) : Laws.PagesPresent.Statement (.rseqStepEnd r) :=
  fun _ _ h => absurd h List.not_mem_nil

theorem Laws.PagesPresent.waitTimeout (r : Fin 8) : Laws.PagesPresent.Statement (.waitTimeout r) :=
  fun _ _ h => absurd h List.not_mem_nil

theorem Laws.PagesPresent.rseqPulseEnd (r : Fin 8) : Laws.PagesPresent.Statement (.rseqPulseEnd r) :=
  fun _ _ h => absurd h List.not_mem_nil

theorem Laws.PagesPresent.rseqLoad (r : Fin 8) (chk : BitVec 16) : Laws.PagesPresent.Statement (.rseqLoad r chk) :=
  fun _ _ h => absurd h List.not_mem_nil

theorem Laws.PagesPresent.rseqLoadEnd (r : Fin 8) (ecc : List (Bool × Nat)) : Laws.PagesPresent.Statement (.rseqLoadEnd r ecc) :=
  fun _ _ h => absurd h List.not_mem_nil

theorem Laws.PagesPresent.rseqUnload (r : Fin 8) (chk : BitVec 16) : Laws.PagesPresent.Statement (.rseqUnload r chk) :=
  fun _ _ h => absurd h List.not_mem_nil

theorem Laws.PagesPresent.branchAbort (r : Fin 8) (chk : BitVec 16) : Laws.PagesPresent.Statement (.branchAbort r chk) :=
  fun _ _ h => absurd h List.not_mem_nil

theorem Laws.PagesPresent.tlogClear (r : Fin 8) (chk : BitVec 16) : Laws.PagesPresent.Statement (.tlogClear r chk) :=
  fun _ _ h => absurd h List.not_mem_nil

theorem Laws.PagesPresent.tlogEntRead (r : Fin 8) : Laws.PagesPresent.Statement (.tlogEntRead r) :=
  fun _ _ h => absurd h List.not_mem_nil

theorem Laws.PagesPresent.entIdWrite (v : Word) : Laws.PagesPresent.Statement (.entIdWrite v) :=
  fun _ _ h => absurd h List.not_mem_nil

theorem Laws.PagesPresent.sigCopyEnd : Laws.PagesPresent.Statement (.sigCopyEnd) :=
  fun _ _ h => absurd h List.not_mem_nil

theorem Laws.PagesPresent.sigLoad (chk : BitVec 16) : Laws.PagesPresent.Statement (.sigLoad chk) :=
  fun _ _ h => absurd h List.not_mem_nil

theorem Laws.PagesPresent.sigLoadEnd (ecc : List (Bool × Nat)) : Laws.PagesPresent.Statement (.sigLoadEnd ecc) :=
  fun _ _ h => absurd h List.not_mem_nil

theorem Laws.PagesPresent.historyAppend (t : Nat) (ecc : List (Bool × Nat)) : Laws.PagesPresent.Statement (.historyAppend t ecc) :=
  fun _ _ h => absurd h List.not_mem_nil

theorem Laws.PagesPresent.acqSample (u : Fin 16) (t : Nat) (pads : Word) : Laws.PagesPresent.Statement (.acqSample u t pads) :=
  fun _ _ h => absurd h List.not_mem_nil

theorem Laws.PagesPresent.acqTrigger (u : Fin 16) (t : Nat) : Laws.PagesPresent.Statement (.acqTrigger u t) :=
  fun _ _ h => absurd h List.not_mem_nil

theorem Laws.PagesPresent.acqTriggerCmd (u : Fin 16) (chk : BitVec 16) : Laws.PagesPresent.Statement (.acqTriggerCmd u chk) :=
  fun _ _ h => absurd h List.not_mem_nil

theorem Laws.PagesPresent.acqRearm (u : Fin 16) (chk : BitVec 16) : Laws.PagesPresent.Statement (.acqRearm u chk) :=
  fun _ _ h => absurd h List.not_mem_nil

theorem Laws.PagesPresent.postComplete (u : Fin 16) (t : Nat) : Laws.PagesPresent.Statement (.postComplete u t) :=
  fun _ _ h => absurd h List.not_mem_nil

theorem Laws.PagesPresent.acqRearmEnd (u : Fin 16) (t : Nat) : Laws.PagesPresent.Statement (.acqRearmEnd u t) :=
  fun _ _ h => absurd h List.not_mem_nil

theorem Laws.PagesPresent.recExport (chk : BitVec 16) : Laws.PagesPresent.Statement (.recExport chk) :=
  fun _ _ h => absurd h List.not_mem_nil

theorem Laws.PagesPresent.recExportEnd (lost : Bool) (ues : List Nat) : Laws.PagesPresent.Statement (.recExportEnd lost ues) :=
  fun _ _ h => absurd h List.not_mem_nil

theorem Laws.PagesPresent.timeWrap (t : Nat) : Laws.PagesPresent.Statement (.timeWrap t) :=
  fun _ _ h => absurd h List.not_mem_nil

theorem Laws.PagesPresent.rateWrite (v : Word) : Laws.PagesPresent.Statement (.rateWrite v) :=
  fun _ _ h => absurd h List.not_mem_nil

theorem Laws.PagesPresent.timeStep (chk : BitVec 16) : Laws.PagesPresent.Statement (.timeStep chk) :=
  fun _ _ h => absurd h List.not_mem_nil

theorem Laws.PagesPresent.timeForceStep (chk : BitVec 16) : Laws.PagesPresent.Statement (.timeForceStep chk) :=
  fun _ _ h => absurd h List.not_mem_nil

theorem Laws.PagesPresent.timeStepApply (t : Nat) : Laws.PagesPresent.Statement (.timeStepApply t) :=
  fun _ _ h => absurd h List.not_mem_nil

theorem Laws.PagesPresent.holdover (t : Nat) : Laws.PagesPresent.Statement (.holdover t) :=
  fun _ _ h => absurd h List.not_mem_nil

theorem Laws.PagesPresent.timeJoin (chk : BitVec 16) : Laws.PagesPresent.Statement (.timeJoin chk) :=
  fun _ _ h => absurd h List.not_mem_nil

theorem Laws.PagesPresent.timeJoinTimeout (t : Nat) : Laws.PagesPresent.Statement (.timeJoinTimeout t) :=
  fun _ _ h => absurd h List.not_mem_nil

theorem Laws.PagesPresent.linkFrameSend (p : Fin 4) (t : Nat) : Laws.PagesPresent.Statement (.linkFrameSend p t) :=
  fun _ _ h => absurd h List.not_mem_nil

theorem Laws.PagesPresent.linkFrameReceive (p : Fin 4) (ta t : Nat) (f : LinkFrame) : Laws.PagesPresent.Statement (.linkFrameReceive p ta t f) :=
  fun _ _ h => absurd h List.not_mem_nil

theorem Laws.PagesPresent.linkDown (p : Fin 4) (t : Nat) : Laws.PagesPresent.Statement (.linkDown p t) :=
  fun _ _ h => absurd h List.not_mem_nil

theorem Laws.PagesPresent.nodeLost (node : Fin 32) (t : Nat) : Laws.PagesPresent.Statement (.nodeLost node t) :=
  fun _ _ h => absurd h List.not_mem_nil

theorem Laws.PagesPresent.dlkCalibrate (p : Fin 4) (chk : BitVec 16) : Laws.PagesPresent.Statement (.dlkCalibrate p chk) :=
  fun _ _ h => absurd h List.not_mem_nil

theorem Laws.PagesPresent.dlkCalibrateEnd (p : Fin 4) (tx rx : Word) : Laws.PagesPresent.Statement (.dlkCalibrateEnd p tx rx) :=
  fun _ _ h => absurd h List.not_mem_nil

theorem Laws.PagesPresent.triggerLineChange (l : Fin 8) (level : Bool) (t : Nat) : Laws.PagesPresent.Statement (.triggerLineChange l level t) :=
  fun _ _ h => absurd h List.not_mem_nil

theorem Laws.PagesPresent.triggerEventDue (t : Nat) : Laws.PagesPresent.Statement (.triggerEventDue t) :=
  fun _ _ h => absurd h List.not_mem_nil

theorem Laws.PagesPresent.txqKeyRead (p : Fin 3) : Laws.PagesPresent.Statement (.txqKeyRead p) :=
  fun _ _ h => absurd h List.not_mem_nil

theorem Laws.PagesPresent.txqFlush (chk : BitVec 16) : Laws.PagesPresent.Statement (.txqFlush chk) :=
  fun _ _ h => absurd h List.not_mem_nil

theorem Laws.PagesPresent.faultRaise (src : Fin 64) (pg : PageId) (sub : Nat) (detail : BitVec 16) : Laws.PagesPresent.Statement (.faultRaise src pg sub detail) :=
  Laws.pagesPresent_of_named rfl id

theorem Laws.PagesPresent.faultConditionEnd (src : Fin 64) (pg : PageId) (sub : Nat) : Laws.PagesPresent.Statement (.faultConditionEnd src pg sub) :=
  Laws.pagesPresent_of_named rfl id

theorem Laws.PagesPresent.fltRecover (chk : BitVec 16) : Laws.PagesPresent.Statement (.fltRecover chk) :=
  fun _ _ h => absurd h List.not_mem_nil

theorem Laws.PagesPresent.fltRecovered (chk : BitVec 16) : Laws.PagesPresent.Statement (.fltRecovered chk) :=
  fun _ _ h => absurd h List.not_mem_nil

theorem Laws.PagesPresent.fltAck (chk : BitVec 16) : Laws.PagesPresent.Statement (.fltAck chk) :=
  fun _ _ h => absurd h List.not_mem_nil

theorem Laws.PagesPresent.fltClearLog (chk : BitVec 16) : Laws.PagesPresent.Statement (.fltClearLog chk) :=
  fun _ _ h => absurd h List.not_mem_nil

theorem Laws.PagesPresent.fltRaise (chk : BitVec 16) : Laws.PagesPresent.Statement (.fltRaise chk) :=
  fun _ _ h => absurd h List.not_mem_nil

theorem Laws.PagesPresent.fltRecoverTimeout (g : Fin 32) : Laws.PagesPresent.Statement (.fltRecoverTimeout g) :=
  fun _ _ h => absurd h List.not_mem_nil

theorem Laws.PagesPresent.fltLogIdxWrite (v : Word) : Laws.PagesPresent.Statement (.fltLogIdxWrite v) :=
  fun _ _ h => absurd h List.not_mem_nil

theorem Laws.PagesPresent.pcieRequest (r : PcieReq) : Laws.PagesPresent.Statement (.pcieRequest r) :=
  fun _ _ h => absurd h List.not_mem_nil

theorem Laws.PagesPresent.msixUnmask (v : Option (Fin 64)) : Laws.PagesPresent.Statement (.msixUnmask v) :=
  fun _ _ h => absurd h List.not_mem_nil

theorem Laws.PagesPresent.chTailWrite (c : Fin 16) (v : Word) : Laws.PagesPresent.Statement (.chTailWrite c v) :=
  fun _ _ h => absurd h List.not_mem_nil

theorem Laws.PagesPresent.dmaDescriptor (c : Fin 16) (desc : List Word) (src : List Nat) (hostErr : Option Nat) (ecc : List (Bool × Nat)) : Laws.PagesPresent.Statement (.dmaDescriptor c desc src hostErr ecc) :=
  fun _ _ h => absurd h List.not_mem_nil

theorem Laws.PagesPresent.pcieLinkReset (flr : Bool) : Laws.PagesPresent.Statement (.pcieLinkReset flr) :=
  fun _ _ h => absurd h List.not_mem_nil

theorem Laws.PagesPresent.hspRead (t : Nat) (alive : BitVec 8) (len : Nat) (addr : Nat) (crc : BitVec 16) (early : Bool) (ecc : List (Bool × Nat)) : Laws.PagesPresent.Statement (.hspRead t alive len addr crc early ecc) :=
  fun _ _ h => absurd h List.not_mem_nil

theorem Laws.PagesPresent.hspWrite (t : Nat) (alive : BitVec 8) (len : Nat) (addr : Nat) (data : List Nat) (crc : BitVec 16) (early : Bool) : Laws.PagesPresent.Statement (.hspWrite t alive len addr data crc early) :=
  fun _ _ h => absurd h List.not_mem_nil

theorem Laws.PagesPresent.hspStatus (t : Nat) (alive : BitVec 8) (addr : Nat) (crc : BitVec 16) (early : Bool) : Laws.PagesPresent.Statement (.hspStatus t alive addr crc early) :=
  fun _ _ h => absurd h List.not_mem_nil

theorem Laws.PagesPresent.hspSilent (t : Nat) : Laws.PagesPresent.Statement (.hspSilent t) :=
  fun _ _ h => absurd h List.not_mem_nil

theorem Laws.PagesPresent.xipRead (p : Fin 2) (m : Master) (off : BitVec 28) (fetch : List (List Nat)) (ecc : List (Bool × Nat)) : Laws.PagesPresent.Statement (.xipRead p m off fetch ecc) :=
  fun _ _ h => absurd h List.not_mem_nil

theorem Laws.PagesPresent.mspIndirect (p : Fin 2) (m : Master) (chk : BitVec 16) : Laws.PagesPresent.Statement (.mspIndirect p m chk) :=
  fun _ _ h => absurd h List.not_mem_nil

theorem Laws.PagesPresent.mspIndirectDone (p : Fin 2) (data : List Nat) : Laws.PagesPresent.Statement (.mspIndirectDone p data) :=
  fun _ _ h => absurd h List.not_mem_nil

theorem Laws.PagesPresent.mspIndirectTimeout (p : Fin 2) (t : Nat) : Laws.PagesPresent.Statement (.mspIndirectTimeout p t) :=
  fun _ _ h => absurd h List.not_mem_nil

theorem Laws.PagesPresent.pspFrame (n : Fin 8) (t : Nat) (rx : List Word) (crc : BitVec 16) : Laws.PagesPresent.Statement (.pspFrame n t rx crc) :=
  fun _ _ h => absurd h List.not_mem_nil

theorem Laws.PagesPresent.pspTrigger (n : Fin 8) (chk : BitVec 16) : Laws.PagesPresent.Statement (.pspTrigger n chk) :=
  fun _ _ h => absurd h List.not_mem_nil

theorem Laws.PagesPresent.ethReceive (p : Fin 3) (t : Nat) (frame : List Nat) (good : Bool) (te : Nat) (ecc : List (Bool × Nat)) : Laws.PagesPresent.Statement (.ethReceive p t frame good te ecc) :=
  fun _ _ h => absurd h List.not_mem_nil

theorem Laws.PagesPresent.ethTransmit (p : Fin 3) (t : Nat) (ecc : List (Bool × Nat)) : Laws.PagesPresent.Statement (.ethTransmit p t ecc) :=
  fun _ _ h => absurd h List.not_mem_nil

theorem Laws.PagesPresent.ethAddressAge (t : Nat) : Laws.PagesPresent.Statement (.ethAddressAge t) :=
  fun _ _ h => absurd h List.not_mem_nil

theorem Laws.PagesPresent.mdioAccess (p : Fin 3) (v : Word) : Laws.PagesPresent.Statement (.mdioAccess p v) :=
  fun _ _ h => absurd h List.not_mem_nil

theorem Laws.PagesPresent.mdioDone (data : BitVec 16) : Laws.PagesPresent.Statement (.mdioDone data) :=
  fun _ _ h => absurd h List.not_mem_nil

theorem Laws.PagesPresent.restartAp0 (chk : BitVec 16) : Laws.PagesPresent.Statement (.restartAp0 chk) :=
  fun _ _ h => absurd h List.not_mem_nil

theorem Laws.PagesPresent.restartAp1 (chk : BitVec 16) : Laws.PagesPresent.Statement (.restartAp1 chk) :=
  fun _ _ h => absurd h List.not_mem_nil

theorem Laws.PagesPresent.readyWrite (m : Master) (v : Word) : Laws.PagesPresent.Statement (.readyWrite m v) :=
  fun _ _ h => absurd h List.not_mem_nil

theorem Laws.PagesPresent.restartTimeout (t : Nat) : Laws.PagesPresent.Statement (.restartTimeout t) :=
  fun _ _ h => absurd h List.not_mem_nil

theorem Laws.PagesPresent.mbRing (m : Master) (v : Word) : Laws.PagesPresent.Statement (.mbRing m v) :=
  fun _ _ h => absurd h List.not_mem_nil

theorem Laws.PagesPresent.mbRspRing (m : Master) (v : Word) : Laws.PagesPresent.Statement (.mbRspRing m v) :=
  fun _ _ h => absurd h List.not_mem_nil

theorem Laws.PagesPresent.mbAck (m : Master) (w : Word) : Laws.PagesPresent.Statement (.mbAck m w) :=
  fun _ _ h => absurd h List.not_mem_nil

theorem Laws.PagesPresent.canFrameReceive (k : Fin 8) (tsof t : Nat) (f : CanFrame) : Laws.PagesPresent.Statement (.canFrameReceive k tsof t f) :=
  fun _ _ h => absurd h List.not_mem_nil

theorem Laws.PagesPresent.txReq (k : Fin 8) (w : Fin 4) (v : Word) : Laws.PagesPresent.Statement (.txReq k w v) :=
  fun _ _ h => absurd h List.not_mem_nil

theorem Laws.PagesPresent.txCancel (k : Fin 8) (w : Fin 4) (v : Word) (onBus : Option (Fin 128)) : Laws.PagesPresent.Statement (.txCancel k w v onBus) :=
  fun _ _ h => absurd h List.not_mem_nil

theorem Laws.PagesPresent.canFrameSent (k : Fin 8) (tsof t : Nat) (tdc : Fin 128) : Laws.PagesPresent.Statement (.canFrameSent k tsof t tdc) :=
  fun _ _ h => absurd h List.not_mem_nil

theorem Laws.PagesPresent.canArbitrationLost (k : Fin 8) (tsof t : Nat) : Laws.PagesPresent.Statement (.canArbitrationLost k tsof t) :=
  fun _ _ h => absurd h List.not_mem_nil

theorem Laws.PagesPresent.canError (k : Fin 8) (tx : Bool) (inc : Fin 9) (lec : Fin 7) (tsof t : Nat) : Laws.PagesPresent.Statement (.canError k tx inc lec tsof t) :=
  fun _ _ h => absurd h List.not_mem_nil

theorem Laws.PagesPresent.rxFullWrite (k : Fin 8) (w : Fin 4) (v ev : Word) : Laws.PagesPresent.Statement (.rxFullWrite k w v ev) :=
  fun _ _ h => absurd h List.not_mem_nil

theorem Laws.PagesPresent.objIdxWrite (k : Fin 8) (v : Word) : Laws.PagesPresent.Statement (.objIdxWrite k v) :=
  fun _ _ h => absurd h List.not_mem_nil

theorem Laws.PagesPresent.objHdrRead (k : Fin 8) : Laws.PagesPresent.Statement (.objHdrRead k) :=
  fun _ _ h => absurd h List.not_mem_nil

theorem Laws.PagesPresent.canCyclicRequest (k : Fin 8) (n : Fin 128) (t : Nat) : Laws.PagesPresent.Statement (.canCyclicRequest k n t) :=
  fun _ _ h => absurd h List.not_mem_nil

theorem Laws.PagesPresent.rxStale (k : Fin 8) (h : Fin 128) (t : Nat) : Laws.PagesPresent.Statement (.rxStale k h t) :=
  fun _ _ h => absurd h List.not_mem_nil

theorem Laws.PagesPresent.timeReference (k : Fin 8) (t : Nat) (onBus : Bool) : Laws.PagesPresent.Statement (.timeReference k t onBus) :=
  fun _ _ h => absurd h List.not_mem_nil

theorem Laws.PagesPresent.canRecover (k : Fin 8) (chk : BitVec 16) : Laws.PagesPresent.Statement (.canRecover k chk) :=
  fun _ _ h => absurd h List.not_mem_nil

theorem Laws.PagesPresent.canRecoveryEnd (k : Fin 8) : Laws.PagesPresent.Statement (.canRecoveryEnd k) :=
  fun _ _ h => absurd h List.not_mem_nil

theorem Laws.PagesPresent.fieldRefresh (t : Nat) (a0 a1 : DieAns) : Laws.PagesPresent.Statement (.fieldRefresh t a0 a1) :=
  fun _ _ h => absurd h List.not_mem_nil

theorem Laws.PagesPresent.dieLost (d : Fin 2) (t : Nat) : Laws.PagesPresent.Statement (.dieLost d t) :=
  fun _ _ h => absurd h List.not_mem_nil

theorem Laws.PagesPresent.dioInputAccept (i : Fin 32) (level : Bool) : Laws.PagesPresent.Statement (.dioInputAccept i level) :=
  fun _ _ h => absurd h List.not_mem_nil

theorem Laws.PagesPresent.wireBreak (i : Fin 32) : Laws.PagesPresent.Statement (.wireBreak i) :=
  fun _ _ h => absurd h List.not_mem_nil

theorem Laws.PagesPresent.wireBreakClear (i : Fin 32) : Laws.PagesPresent.Statement (.wireBreakClear i) :=
  fun _ _ h => absurd h List.not_mem_nil

theorem Laws.PagesPresent.outputDiagnostic (o : Fin 16) (kind : Fin 4) : Laws.PagesPresent.Statement (.outputDiagnostic o kind) :=
  fun _ _ h => absurd h List.not_mem_nil

theorem Laws.PagesPresent.ocRetry (o : Fin 16) (holds : Bool) : Laws.PagesPresent.Statement (.ocRetry o holds) :=
  fun _ _ h => absurd h List.not_mem_nil

theorem Laws.PagesPresent.clearDiag (chk : BitVec 16) : Laws.PagesPresent.Statement (.clearDiag chk) :=
  fun _ _ h => absurd h List.not_mem_nil

theorem Laws.PagesPresent.fieldSilence (d : Fin 2) (t : Nat) : Laws.PagesPresent.Statement (.fieldSilence d t) :=
  fun _ _ h => absurd h List.not_mem_nil

theorem Laws.PagesPresent.lplusLow (d : Fin 2) : Laws.PagesPresent.Statement (.lplusLow d) :=
  fun _ _ h => absurd h List.not_mem_nil

theorem Laws.PagesPresent.lplusRestore (d : Fin 2) : Laws.PagesPresent.Statement (.lplusRestore d) :=
  fun _ _ h => absurd h List.not_mem_nil

theorem Laws.PagesPresent.lcAdvance (m : Master) (chk : BitVec 16) : Laws.PagesPresent.Statement (.lcAdvance m chk) :=
  fun _ _ h => absurd h List.not_mem_nil

theorem Laws.PagesPresent.keyLoad (m : Master) (chk : BitVec 16) : Laws.PagesPresent.Statement (.keyLoad m chk) :=
  fun _ _ h => absurd h List.not_mem_nil

theorem Laws.PagesPresent.keyErase (m : Master) (chk : BitVec 16) : Laws.PagesPresent.Statement (.keyErase m chk) :=
  fun _ _ h => absurd h List.not_mem_nil

theorem Laws.PagesPresent.keyEraseAll (m : Master) (chk : BitVec 16) : Laws.PagesPresent.Statement (.keyEraseAll m chk) :=
  fun _ _ h => absurd h List.not_mem_nil

theorem Laws.PagesPresent.rollbackSet (m : Master) (chk : BitVec 16) : Laws.PagesPresent.Statement (.rollbackSet m chk) :=
  fun _ _ h => absurd h List.not_mem_nil

theorem Laws.PagesPresent.rootRevoke (m : Master) (chk : BitVec 16) : Laws.PagesPresent.Statement (.rootRevoke m chk) :=
  fun _ _ h => absurd h List.not_mem_nil

theorem Laws.PagesPresent.secDerive (m : Master) (chk : BitVec 16) : Laws.PagesPresent.Statement (.secDerive m chk) :=
  fun _ _ h => absurd h List.not_mem_nil

theorem Laws.PagesPresent.secProvision (m : Master) (chk : BitVec 16) : Laws.PagesPresent.Statement (.secProvision m chk) :=
  fun _ _ h => absurd h List.not_mem_nil

theorem Laws.PagesPresent.newChallenge (m : Master) (chk : BitVec 16) : Laws.PagesPresent.Statement (.newChallenge m chk) :=
  fun _ _ h => absurd h List.not_mem_nil

theorem Laws.PagesPresent.dbgUnlock (m : Master) (chk : BitVec 16) : Laws.PagesPresent.Statement (.dbgUnlock m chk) :=
  fun _ _ h => absurd h List.not_mem_nil

theorem Laws.PagesPresent.dbgLock (m : Master) (chk : BitVec 16) : Laws.PagesPresent.Statement (.dbgLock m chk) :=
  fun _ _ h => absurd h List.not_mem_nil

theorem Laws.PagesPresent.tamperAlarm (sensor : Fin 5) (vbat : Bool) (b : BootRes) : Laws.PagesPresent.Statement (.tamperAlarm sensor vbat b) :=
  fun _ _ h => absurd h List.not_mem_nil

theorem Laws.PagesPresent.jtagInstruction (i : JtagInstr) (b : BootRes) : Laws.PagesPresent.Statement (.jtagInstruction i b) :=
  fun _ _ h => absurd h List.not_mem_nil

theorem Laws.PagesPresent.domainOnComplete (d : Fin 14) (ecc : List (Bool × Nat)) : Laws.PagesPresent.Statement (.domainOnComplete d ecc) :=
  fun _ _ h => absurd h List.not_mem_nil

theorem Laws.PagesPresent.brownout (d : Fin 14) : Laws.PagesPresent.Statement (.brownout d) :=
  fun _ _ h => absurd h List.not_mem_nil

theorem Laws.PagesPresent.brownoutRecovery (d : Fin 14) : Laws.PagesPresent.Statement (.brownoutRecovery d) :=
  fun _ _ h => absurd h List.not_mem_nil

theorem Laws.PagesPresent.powerOnReset (b : BootRes) : Laws.PagesPresent.Statement (.powerOnReset b) :=
  fun _ _ h => absurd h List.not_mem_nil

theorem Laws.PagesPresent.systemReset (cause : Fin 6) (b : BootRes) : Laws.PagesPresent.Statement (.systemReset cause b) :=
  fun _ _ h => absurd h List.not_mem_nil

theorem Laws.PagesPresent.sysReset (m : Master) (chk : BitVec 16) (b : BootRes) : Laws.PagesPresent.Statement (.sysReset m chk b) :=
  fun _ _ h => absurd h List.not_mem_nil

theorem Laws.PagesPresent.stageWrite (m : Master) (v : Word) : Laws.PagesPresent.Statement (.stageWrite m v) :=
  fun _ _ h => absurd h List.not_mem_nil

theorem Laws.PagesPresent.irqSelWrite (v : Word) : Laws.PagesPresent.Statement (.irqSelWrite v) :=
  fun _ _ h => absurd h List.not_mem_nil

theorem Laws.PagesPresent.irqLineWrite (v : Word) : Laws.PagesPresent.Statement (.irqLineWrite v) :=
  fun _ _ h => absurd h List.not_mem_nil

theorem Laws.PagesPresent.referenceLoss : Laws.PagesPresent.Statement (.referenceLoss) :=
  fun _ _ h => absurd h List.not_mem_nil

theorem Laws.PagesPresent.referenceLock : Laws.PagesPresent.Statement (.referenceLock) :=
  fun _ _ h => absurd h List.not_mem_nil

theorem Laws.PagesPresent.pllLockLoss (p : Fin 4) : Laws.PagesPresent.Statement (.pllLockLoss p) :=
  fun _ _ h => absurd h List.not_mem_nil

theorem Laws.PagesPresent.gpioEdge (pad : Fin 616) (level : Bool) : Laws.PagesPresent.Statement (.gpioEdge pad level) :=
  fun _ _ h => absurd h List.not_mem_nil

theorem Laws.PagesPresent.gpioOutSet (w : Fin 20) (v : Word) : Laws.PagesPresent.Statement (.gpioOutSet w v) :=
  fun _ _ h => absurd h List.not_mem_nil

theorem Laws.PagesPresent.gpioOutClr (w : Fin 20) (v : Word) : Laws.PagesPresent.Statement (.gpioOutClr w v) :=
  fun _ _ h => absurd h List.not_mem_nil

theorem Laws.PagesPresent.dlkFrameLock (p : Fin 4) (t : Nat) : Laws.PagesPresent.Statement (.dlkFrameLock p t) :=
  fun _ _ h => absurd h List.not_mem_nil

theorem Laws.PagesPresent.ethLinkChange (p : Fin 3) (up : Bool) (speed : Fin 4) (an : Bool) : Laws.PagesPresent.Statement (.ethLinkChange p up speed an) :=
  fun _ _ h => absurd h List.not_mem_nil

theorem Laws.PagesPresent.pcieLinkUp (speed : Fin 8) (width : Fin 8) : Laws.PagesPresent.Statement (.pcieLinkUp speed width) :=
  fun _ _ h => absurd h List.not_mem_nil

theorem Laws.PagesPresent.canBusIntegration (k : Fin 8) : Laws.PagesPresent.Statement (.canBusIntegration k) :=
  fun _ _ h => absurd h List.not_mem_nil

theorem Laws.PagesPresent.hspBadFrame : Laws.PagesPresent.Statement (.hspBadFrame) :=
  fun _ _ h => absurd h List.not_mem_nil

theorem Laws.PagesPresent.lcIllegalBundle (a : LcAt) (w v : Word) : Laws.PagesPresent.Statement (.lcIllegalBundle a w v) :=
  fun _ _ h => absurd h List.not_mem_nil

theorem Laws.PagesPresent.debugResume (e : Engine) : Laws.PagesPresent.Statement (.debugResume e) :=
  fun _ _ h => absurd h List.not_mem_nil

theorem Laws.PagesPresent.visoInLoss : Laws.PagesPresent.Statement (.visoInLoss) :=
  fun _ _ h => absurd h List.not_mem_nil

theorem Laws.PagesPresent.vbatLow : Laws.PagesPresent.Statement (.vbatLow) :=
  fun _ _ h => absurd h List.not_mem_nil

theorem Laws.PagesPresent.domainOffComplete (d : Fin 14) : Laws.PagesPresent.Statement (.domainOffComplete d) :=
  fun _ _ h => absurd h List.not_mem_nil

theorem Laws.PagesPresent.overTemperatureRecovery (o : Fin 16) : Laws.PagesPresent.Statement (.overTemperatureRecovery o) :=
  fun _ _ h => absurd h List.not_mem_nil

theorem Laws.PagesPresent.markWindowOpen (n : Fin 64) (t : Nat) : Laws.PagesPresent.Statement (.markWindowOpen n t) :=
  fun _ _ h => absurd h List.not_mem_nil

end Sys2Proof
end

