-- ==== Sys2Proof/Laws/Published.lean ====
section
/-! SUPPORT. Frames of events that publish: what a publication leaves of the state, and how such frames are put together. -/
namespace Sys2Proof.Machine

/-- Apart from the pages of a list, one state differs from another in what publications change alone. -/
structure Pub (own : List Nat) (s x : State) : Prop where
  eq : { s with pages := x.pages, slots := x.slots, recCnt := x.recCnt, dlks := x.dlks, histQ := x.histQ, histLost := x.histLost } = x
  page : ∀ ty n, ty ∉ pubTypes → pk ty n ∉ own → x.page (pk ty n) = s.page (pk ty n)

theorem Pub.refl (own : List Nat) (s : State) : Pub own s s := ⟨rfl, fun _ _ _ _ => rfl⟩

theorem Pub.trans {own : List Nat} {s t u : State} (h : Pub own s t) (g : Pub own t u) : Pub own s u := by
  refine ⟨?_, fun y n a b => (g.page y n a b).trans (h.page y n a b)⟩
  rw [← g.eq, ← h.eq]

/-- More pages may be excepted. -/
theorem Pub.mono {own l : List Nat} {s x : State} (h : Pub own s x) (hl : ∀ k ∈ own, k ∈ l) : Pub l s x :=
  ⟨h.eq, fun y n a b => h.page y n a (fun c => b (hl _ c))⟩

theorem Pub.foldl {own : List Nat} {α : Type} {f : State → α → State} (h : ∀ s a, Pub own s (f s a)) (l : List α) (s : State) :
    Pub own s (l.foldl f s) := by
  induction l generalizing s with
  | nil => exact Pub.refl own s
  | cons a l ih => exact (h s a).trans (ih (f s a))

theorem Pub.ite {own : List Nat} {s a b : State} {c : Prop} [Decidable c] (ha : Pub own s a) (hb : Pub own s b) :
    Pub own s (if c then a else b) := by
  split <;> assumption

/-- A page of the list changed. -/
theorem Pub.modPage {own : List Nat} {s x : State} (h : Pub own s x) {k : Nat} (hk : k ∈ own) (f : Page → Page) :
    Pub own s (x.modPage k f) := by
  refine h.trans ⟨rfl, fun y n _ b => ?_⟩
  rw [State.modPage_page, if_neg]
  rintro rfl
  exact b hk

/-- A page that publications change, changed. -/
theorem Pub.modPub {own : List Nat} {s x : State} (h : Pub own s x) {t : PgTy} (ht : t ∈ pubTypes) (n : Nat) (f : Page → Page) :
    Pub own s (x.modPage (pk t n) f) := by
  refine h.trans ⟨rfl, fun y m a _ => ?_⟩
  rw [State.modPage_page, if_neg]
  intro e
  exact a ((pk_eq.1 e).1 ▸ ht)

section
variable {own : List Nat} {s x : State} (h : Pub own s x) {t : PgTy} {n : Nat} (hk : pk t n ∈ own) (off : Nat)
include h hk
theorem Pub.wr (v : Word) : Pub own s (Machine.wr x t n off v) := h.modPage hk _
theorem Pub.wf (lo len v : Nat) : Pub own s (Machine.wf x t n off lo len v) := h.modPage hk _
theorem Pub.wb (i : Nat) (b : Bool) : Pub own s (Machine.wb x t n off i b) := h.modPage hk _
theorem Pub.wr64 (v : Int) : Pub own s (Machine.wr64 x t n off v) := (h.modPage hk _).modPage hk _
theorem Pub.wrTs (v : BitVec 35) : Pub own s (Machine.wrTs x t n off v) := (h.modPage hk _).modPage hk _
theorem Pub.incSat : Pub own s (Machine.incSat x t n off) := h.modPage hk _
theorem Pub.incWrap : Pub own s (Machine.incWrap x t n off) := h.modPage hk _
theorem Pub.setInt (i : Nat) : Pub own s (Machine.setInt x t n i) := by
  unfold Machine.setInt setInts; exact h.modPage hk _
theorem Pub.setSt (y : PgState) : Pub own s (Machine.setSt x t n y) := h.modPage hk _
end

section
variable (s : State) (own : List Nat)

theorem setSlot_pub (n : Nat) (x : Slot) : Pub own s (setSlot s n x) := ⟨rfl, fun _ _ _ _ => rfl⟩

theorem histPush_pub (e : HistEnt) : Pub own s (histPush s e) := by
  unfold histPush
  dsimp only
  split
  · exact Pub.refl own s
  · split
    · have h : Pub own s (setInt (incSat s .recStore 0 Reg.REC.HIST_LOST) .recStore 0 1) := by
        unfold setInt setInts
        exact (Pub.modPub (Pub.refl own s) (by decide) 0 _).modPub (by decide) 0 _
      exact h.trans ⟨rfl, fun _ _ _ _ => rfl⟩
    · have h : Pub own s { s with histQ := s.histQ ++ [e] } := ⟨rfl, fun _ _ _ _ => rfl⟩
      split
      · exact h.modPub (by decide) 0 _
      · exact h

theorem record_pub (id : Nat) (ts : BitVec 35) : Pub own s (record s id ts) := by
  unfold record
  dsimp only
  split
  · exact Pub.refl own s
  · have h (m : SMap Nat) : Pub own s { s with recCnt := m } := ⟨rfl, fun _ _ _ _ => rfl⟩
    split
    · exact (h _).trans (histPush_pub _ own _)
    · exact h _

theorem queueRec_pub (p : Nat) (b : Bool) (r : LinkRec) : Pub own s (queueRec s p b r) := by
  have h (x : DlkSt) : Pub own s (setDlk s p x) := ⟨rfl, fun _ _ _ _ => rfl⟩
  unfold queueRec
  dsimp only
  split
  · exact Pub.refl own s
  · split
    · exact h _
    · exact (h _).modPub (by decide) p _

theorem exportOne_pub (id : Nat) (ts : BitVec 35) (x : Nat) : Pub own s (exportOne s id ts x) := by
  have h := fun r => Pub.foldl (fun s p => queueRec_pub s own p true r) (insts .dlk) s
  unfold exportOne
  dsimp only
  split
  · exact (h _).modPub (by decide) 0 _
  · exact h _

theorem pubSlot_pub (id : Nat) (v : BitVec 64) (ts : BitVec 35) : Pub own s (pubSlot s id v ts) :=
  ((setSlot_pub s own id _).trans (record_pub _ own id ts)).trans (Pub.foldl (fun s x => exportOne_pub s own id ts x) _ _)

theorem publish_pub (id : Nat) (v : BitVec 64) (ts : BitVec 35) : Pub own s (publish s id v ts) :=
  Pub.ite (pubSlot_pub s own id v ts) (Pub.refl own s)

theorem pubIf_pub (t : PgTy) (n : Nat) (ev : UpdEv) (ts : BitVec 35) (test : SigEntry → Bool) : Pub own s (pubIf s t n ev ts test) :=
  Pub.foldl (fun _ _ => Pub.ite (publish_pub _ own _ _ _) (Pub.refl own _)) _ s

theorem pubAllAt_pub (t : PgTy) (n : Nat) (ev : UpdEv) (ts : BitVec 35) : Pub own s (pubAllAt s t n ev ts) := pubIf_pub ..
theorem pubAll_pub (t : PgTy) (n : Nat) (ev : UpdEv) : Pub own s (pubAll s t n ev) := by
  unfold pubAll pubAllAt; exact pubIf_pub s own t n ev _ _

theorem safeSlot_pub (id : Nat) : Pub own s (safeSlot s id) := (setSlot_pub s own id _).trans (record_pub _ own id _)

theorem safeAll_pub (t : PgTy) (n : Nat) : Pub own s (safeAll s t n) :=
  Pub.foldl (fun _ _ => Pub.ite (safeSlot_pub _ own _) (Pub.refl own _)) _ s

theorem safeIf_pub (t : PgTy) (n : Nat) (test : SigEntry → Bool) : Pub own s (safeIf s t n test) :=
  Pub.foldl (fun _ _ => Pub.ite (safeSlot_pub _ own _) (Pub.refl own _)) _ s
end

/-- Such a frame, settled. -/
theorem Pub.settle {own : List Nat} {s x : State} (h : Pub own s x) : OnlyPublished s (settle x) own := by
  refine ⟨?_, fun y n a b => by rw [settle_page]; exact h.page y n a b⟩
  have e : Machine.settle x = { x with irqOn := (Machine.settle x).irqOn, msixPend := (Machine.settle x).msixPend, msixSent := (Machine.settle x).msixSent } := by
    conv => lhs; rw [settle_frame x]
    rw [settle_irqOn]
  rw [settle_pages, settle_slots, settle_recCnt, settle_dlks, settle_histQ, settle_histLost]
  refine e.trans ?_
  generalize Machine.settle x = y
  rw [← h.eq]

/-! ## What stands -/

section
variable {own : List Nat} {s x : State} (h : Pub own s x)
include h
theorem Pub.now : x.now = s.now := by rw [← h.eq]
theorem Pub.stepSum : x.stepSum = s.stepSum := by rw [← h.eq]
theorem Pub.lastStep : x.lastStep = s.lastStep := by rw [← h.eq]
theorem Pub.dom : x.dom = s.dom := by rw [← h.eq]
theorem Pub.sigs : x.sigs = s.sigs := by rw [← h.eq]
theorem Pub.mem : x.mem = s.mem := by rw [← h.eq]
theorem Pub.frc : x.frc = s.frc := by rw [← h.eq]
theorem Pub.frcKeep : x.frcKeep = s.frcKeep := by rw [← h.eq]
theorem Pub.flog : x.flog = s.flog := by rw [← h.eq]
theorem Pub.holds : x.holds = s.holds := by rw [← h.eq]
theorem Pub.recDue : x.recDue = s.recDue := by rw [← h.eq]
theorem Pub.fabLog : x.fabLog = s.fabLog := by rw [← h.eq]
theorem Pub.irqMap : x.irqMap = s.irqMap := by rw [← h.eq]
theorem Pub.irqOn : x.irqOn = s.irqOn := by rw [← h.eq]
theorem Pub.msixTbl : x.msixTbl = s.msixTbl := by rw [← h.eq]
theorem Pub.msixPend : x.msixPend = s.msixPend := by rw [← h.eq]
theorem Pub.msixMask : x.msixMask = s.msixMask := by rw [← h.eq]
theorem Pub.msixSent : x.msixSent = s.msixSent := by rw [← h.eq]
theorem Pub.encs : x.encs = s.encs := by rw [← h.eq]
theorem Pub.ssns : x.ssns = s.ssns := by rw [← h.eq]
theorem Pub.pcmps : x.pcmps = s.pcmps := by rw [← h.eq]
theorem Pub.steps : x.steps = s.steps := by rw [← h.eq]
theorem Pub.axes : x.axes = s.axes := by rw [← h.eq]
theorem Pub.prkSel : x.prkSel = s.prkSel := by rw [← h.eq]
theorem Pub.scrubAt : x.scrubAt = s.scrubAt := by rw [← h.eq]
theorem Pub.img1 : x.img1 = s.img1 := by rw [← h.eq]
theorem Pub.img2 : x.img2 = s.img2 := by rw [← h.eq]
theorem Pub.ustp : x.ustp = s.ustp := by rw [← h.eq]
theorem Pub.lcs : x.lcs = s.lcs := by rw [← h.eq]
theorem Pub.lschTick : x.lschTick = s.lschTick := by rw [← h.eq]
theorem Pub.lschZero : x.lschZero = s.lschZero := by rw [← h.eq]
theorem Pub.taskFlags : x.taskFlags = s.taskFlags := by rw [← h.eq]
theorem Pub.lschOp : x.lschOp = s.lschOp := by rw [← h.eq]
theorem Pub.lschFoQ : x.lschFoQ = s.lschFoQ := by rw [← h.eq]
theorem Pub.cslots : x.cslots = s.cslots := by rw [← h.eq]
theorem Pub.ceQ : x.ceQ = s.ceQ := by rw [← h.eq]
theorem Pub.pwms : x.pwms = s.pwms := by rw [← h.eq]
theorem Pub.finRaw : x.finRaw = s.finRaw := by rw [← h.eq]
theorem Pub.pwmClkLost : x.pwmClkLost = s.pwmClkLost := by rw [← h.eq]
theorem Pub.fchs : x.fchs = s.fchs := by rw [← h.eq]
theorem Pub.fcgs : x.fcgs = s.fcgs := by rw [← h.eq]
theorem Pub.pcvs : x.pcvs = s.pcvs := by rw [← h.eq]
theorem Pub.les : x.les = s.les := by rw [← h.eq]
theorem Pub.rseqs : x.rseqs = s.rseqs := by rw [← h.eq]
theorem Pub.acqs : x.acqs = s.acqs := by rw [← h.eq]
theorem Pub.sigCopy : x.sigCopy = s.sigCopy := by rw [← h.eq]
theorem Pub.sigLoad : x.sigLoad = s.sigLoad := by rw [← h.eq]
theorem Pub.histPos : x.histPos = s.histPos := by rw [← h.eq]
theorem Pub.histCnt : x.histCnt = s.histCnt := by rw [← h.eq]
theorem Pub.histWrap : x.histWrap = s.histWrap := by rw [← h.eq]
theorem Pub.histSec : x.histSec = s.histSec := by rw [← h.eq]
theorem Pub.recExp : x.recExp = s.recExp := by rw [← h.eq]
theorem Pub.part : x.part = s.part := by rw [← h.eq]
theorem Pub.tickAt : x.tickAt = s.tickAt := by rw [← h.eq]
theorem Pub.timeStep : x.timeStep = s.timeStep := by rw [← h.eq]
theorem Pub.stepDone : x.stepDone = s.stepDone := by rw [← h.eq]
theorem Pub.adjAt : x.adjAt = s.adjAt := by rw [← h.eq]
theorem Pub.joinDue : x.joinDue = s.joinDue := by rw [← h.eq]
theorem Pub.joinCnt : x.joinCnt = s.joinCnt := by rw [← h.eq]
theorem Pub.joinOk : x.joinOk = s.joinOk := by rw [← h.eq]
theorem Pub.trgPin : x.trgPin = s.trgPin := by rw [← h.eq]
theorem Pub.trgLocal : x.trgLocal = s.trgLocal := by rw [← h.eq]
theorem Pub.trgSeen : x.trgSeen = s.trgSeen := by rw [← h.eq]
theorem Pub.trgQ : x.trgQ = s.trgQ := by rw [← h.eq]
theorem Pub.trgDone : x.trgDone = s.trgDone := by rw [← h.eq]
theorem Pub.nodeGap : x.nodeGap = s.nodeGap := by rw [← h.eq]
theorem Pub.txq : x.txq = s.txq := by rw [← h.eq]
theorem Pub.hostOut : x.hostOut = s.hostOut := by rw [← h.eq]
theorem Pub.hsp : x.hsp = s.hsp := by rw [← h.eq]
theorem Pub.msps : x.msps = s.msps := by rw [← h.eq]
theorem Pub.psps : x.psps = s.psps := by rw [← h.eq]
theorem Pub.ethTbl : x.ethTbl = s.ethTbl := by rw [← h.eq]
theorem Pub.ethOut : x.ethOut = s.ethOut := by rw [← h.eq]
theorem Pub.apRestart : x.apRestart = s.apRestart := by rw [← h.eq]
theorem Pub.apHalt : x.apHalt = s.apHalt := by rw [← h.eq]
theorem Pub.dbgHalt : x.dbgHalt = s.dbgHalt := by rw [← h.eq]
theorem Pub.cans : x.cans = s.cans := by rw [← h.eq]
theorem Pub.dio : x.dio = s.dio := by rw [← h.eq]
theorem Pub.otp : x.otp = s.otp := by rw [← h.eq]
theorem Pub.keys : x.keys = s.keys := by rw [← h.eq]
theorem Pub.runVer : x.runVer = s.runVer := by rw [← h.eq]
theorem Pub.failAt : x.failAt = s.failAt := by rw [← h.eq]
theorem Pub.tampLog : x.tampLog = s.tampLog := by rw [← h.eq]
theorem Pub.vbatBase : x.vbatBase = s.vbatBase := by rw [← h.eq]
theorem Pub.jtag : x.jtag = s.jtag := by rw [← h.eq]
theorem Pub.swOff : x.swOff = s.swOff := by rw [← h.eq]
theorem Pub.swOn : x.swOn = s.swOn := by rw [← h.eq]
theorem Pub.trained : x.trained = s.trained := by rw [← h.eq]
theorem Pub.padIn : x.padIn = s.padIn := by rw [← h.eq]
theorem Pub.resp : x.resp = s.resp := by rw [← h.eq]
theorem Pub.seed : x.seed = s.seed := by rw [← h.eq]
theorem Pub.pending : x.pending = s.pending := by rw [← h.eq]
theorem Pub.sameMem : SameMem s x := fun a => mem8_of_mem h.mem a
theorem Pub.rg (t : PgTy) (n off : Nat) (ht : t ∉ pubTypes) (hn : pk t n ∉ own) : rg x t n off = Machine.rg s t n off := by
  unfold Machine.rg; rw [h.page t n ht hn]
end

end Sys2Proof.Machine
end

