-- ==== Sys2Proof/Tests/Slice0.lean ====
section
/-! SUPPORT. Tests: states that meet the hypotheses of the statements, what WellFormed refuses, and a few results worked out by hand from
the spec. -/
section
set_option Elab.async false
open Sys2Proof Sys2Proof.Machine
namespace Sys2Proof.Tests
/-- Every domain has power, and time has passed. -/
def up : State := { State.reset with dom := 0x3FFF#14, now := 90000000, tickAt := 62500 }
/-- A page enabled, in a state. -/
def pin (s : State) (t : PgTy) (n : Nat) (x : PgState) : State := s.modPage (pk t n) (fun p => { p with en := true, st := x })
/-- Registers of a page set in force. -/
def regs (s : State) (t : PgTy) (n : Nat) (l : List (Nat × Word)) : State := l.foldl (fun s e => wr s t n e.1 e.2) s
/-- A page changed. -/
def mod (s : State) (t : PgTy) (n : Nat) (f : Page → Page) : State := s.modPage (pk t n) f
/-- Every source of the fault manager concerns group 0 and warns. -/
def warnAll (s : State) : State :=
  let l : SMap Word := (List.range 64).map (fun i => (Reg.FLT.SRC_MASK + 4 * i, 1)) ++ (List.range 256).map (fun i => (Reg.FLT.REACT + 4 * i, 0x22222222))
  s.modPage (pk .flt 0) (fun p => { p with regs := l })
/-- `Accepts`, `ActsNow`, `Waits` and `WaitsFree` as checks. -/
def acceptsB (s : State) (t : PgTy) (n code : Nat) (m : Master) (chk : BitVec 16) : Bool :=
  answers s ⟨t, n⟩ && (s.page (pk t n)).key != .window && (cmdRefusal s t n m (cmdWord chk code)).isNone
theorem accepts_of {s t n code m chk} (h : acceptsB s t n code m chk = true) : Accepts s t n code m chk := by
  simpa [acceptsB, Accepts, and_assoc] using h
/-- The check for `ActsNow`. -/
def actsNowB (s : State) (t : PgTy) (n code : Nat) (m : Master) (chk : BitVec 16) : Bool :=
  acceptsB s t n code m chk && (s.page (pk t n)).commit == .none &&
    (ruleOf s t n code m).any (fun r => (r.imm || !cmdWaits s t n) && (!(s.page (pk t n)).freeze || r.safe))
theorem actsNow_of {s t n code m chk} (h : actsNowB s t n code m chk = true) : ActsNow s t n code m chk := by
  simp only [actsNowB, Bool.and_eq_true, beq_iff_eq, Option.any_eq_true] at h
  obtain ⟨⟨h1, h2⟩, r, hr, h3, h4⟩ := h
  exact ⟨accepts_of h1, h2, r, hr, by simpa using h3, by simpa using h4⟩
/-- The check for `Waits`. -/
def waitsB (s : State) (t : PgTy) (n code : Nat) (m : Master) (chk : BitVec 16) : Bool :=
  acceptsB s t n code m chk && (ruleOf s t n code m).any (fun r => !r.imm) && cmdWaits s t n
theorem waits_of {s t n code m chk} (h : waitsB s t n code m chk = true) : Waits s t n code m chk := by
  simp only [waitsB, Bool.and_eq_true, Option.any_eq_true] at h
  obtain ⟨⟨h1, r, hr, h2⟩, h3⟩ := h
  exact ⟨accepts_of h1, r, hr, by simpa using h2, h3⟩
/-- The check for `WaitsFree`. -/
def waitsFreeB (s : State) (t : PgTy) (n code : Nat) (m : Master) (chk : BitVec 16) : Bool :=
  waitsB s t n code m chk && (s.page (pk t n)).commit == .none && !(s.page (pk t n)).freeze && !(s.page (pk t n)).frozen
theorem waitsFree_of {s t n code m chk} (h : waitsFreeB s t n code m chk = true) : WaitsFree s t n code m chk := by
  simp only [waitsFreeB, Bool.and_eq_true, beq_iff_eq] at h
  obtain ⟨⟨⟨h1, h2⟩, h3⟩, h4⟩ := h
  exact ⟨waits_of h1, h2, by simpa using h3, by simpa using h4⟩
/-- `StagedOnce` of the pages a state lists. -/
theorem stagedOnce_of {s : State} (h : s.pages.all (fun e => decide (e.2.staged.map Prod.fst).Nodup) = true) : StagedOnce s := by
  intro k
  have get : ∀ m : SMap Page, m.all (fun e => decide (e.2.staged.map Prod.fst).Nodup) = true →
      ((SMap.get Page.reset m k).staged.map Prod.fst).Nodup := by
    intro m
    induction m with
    | nil => intro _; exact List.nodup_nil
    | cons e m ih =>
      intro h
      obtain ⟨a, v⟩ := e
      simp only [List.all_cons, Bool.and_eq_true, decide_eq_true_eq] at h
      by_cases hk : k = a
      · simpa [SMap.get, hk] using h.1
      · simpa [SMap.get, hk] using ih h.2
  exact get _ h

/-! ## States that meet the hypotheses of the statements -/

theorem witness_step_runs_front_command_2 : ∃ (s : State), (s.pending = []) :=
  ⟨up, by decide +kernel⟩
theorem witness_lines_follow_every_step : ∃ s : State, LinesFollow s := ⟨State.reset, by unfold LinesFollow; decide +kernel⟩
/-- A state with a byte in memory and a base tick in front. -/
def ticked : State := { up with mem := [(0x10000000, 7)], pending := [.baseTick 125000] }
theorem witness_memory_form_kept : ∃ s t : State, Memory.wf s.mem = true ∧ step s = .next t := ⟨ticked, _, by decide +kernel, rfl⟩
theorem witness_always_on_domain_kept : ∃ s t : State, s.dom.getLsbD 0 = true ∧ step s = .next t := ⟨ticked, _, by decide +kernel, rfl⟩
theorem witness_staged_once_kept : ∃ s t : State, StagedOnce s ∧ step s = .next t := ⟨ticked, _, stagedOnce_of (by decide +kernel), rfl⟩
theorem witness_reset_state : ∃ (t : PgTy) (n : Nat), t.domain n ≠ 0 := ⟨.enc, 63, by decide +kernel⟩
theorem witness_unpowered_pages_2 : ∃ (s : State) (pg : PageId), (pg.present = true) ∧ (powered s pg.ty pg.inst = false) :=
  ⟨State.reset, ⟨.enc, 63⟩, by decide +kernel⟩
theorem witness_unpowered_pages_3 : ∃ (s : State) (pg : PageId), (pg.present = true) ∧ (powered s pg.ty pg.inst = false) ∧ (LinesFollow s) :=
  ⟨State.reset, ⟨.enc, 0⟩, by unfold LinesFollow; decide +kernel⟩
def sealed (f : LinkFrame) : LinkFrame := { f with crc := linkCrc f }
theorem sealed_good (f : LinkFrame) : linkGood (sealed f) = true :=
  show (linkCrc f == linkCrc f) = true from beq_self_eq_true _
theorem unsealed_bad (f : LinkFrame) : linkGood { sealed f with crc := linkCrc f ^^^ 1 } = false :=
  show (linkCrc f ^^^ 1 == linkCrc f) = false from by
    generalize linkCrc f = w
    have h : w ^^^ 1 ≠ w := fun e => by
      have g := congrArg (fun x => x ^^^ w) e
      simp only [BitVec.xor_self, BitVec.xor_comm w 1, BitVec.xor_assoc, BitVec.xor_zero] at g
      exact absurd g (by decide)
    simpa using h
end Sys2Proof.Tests
namespace Sys2Proof.Tests.W01
def pOn (t : PgTy) (n : Nat) : State := pin up t n .idle
theorem witness_page_control_1 : ∃ (s : State) (n : Nat) (ty : PgTy), (ty ∈ [PgTy.enc, .ssn, .axis, .prk, .step, .eth, .psp, .can, .fch, .acq]) ∧ (answers s ⟨ty, n⟩ = true) ∧ ((s.page (pk ty n)).locked = false) ∧ ((s.page (pk ty n)).key ≠ .window) ∧ ((s.page (pk ty n)).en = false) :=
  ⟨up, 63, .enc, by decide +kernel⟩
theorem witness_page_control_1b : ∃ (s : State) (n : Nat) (ty : PgTy), (ty ∈ [PgTy.enc, .ssn, .axis, .prk, .step, .eth, .psp, .can, .fch, .acq]) ∧ (answers s ⟨ty, n⟩ = true) ∧ ((s.page (pk ty n)).locked = false) ∧ ((s.page (pk ty n)).key ≠ .window) ∧ ((s.page (pk ty n)).en = false) :=
  ⟨up, 0, .acq, by decide +kernel⟩
theorem witness_page_control_2 : ∃ (s : State) (n : Nat) (ty : PgTy), (ty ∈ [PgTy.prk, .ptp, .hsp, .gpio]) ∧ (answers s ⟨ty, n⟩ = true) ∧ ((s.page (pk ty n)).locked = false) ∧ ((s.page (pk ty n)).key ≠ .window) ∧ ((s.page (pk ty n)).en = true) ∧ ((s.page (pk ty n)).commit = .none) :=
  ⟨pOn .prk 3, 3, .prk, by decide +kernel⟩
theorem witness_page_control_2b : ∃ (s : State) (n : Nat) (ty : PgTy), (ty ∈ [PgTy.prk, .ptp, .hsp, .gpio]) ∧ (answers s ⟨ty, n⟩ = true) ∧ ((s.page (pk ty n)).locked = false) ∧ ((s.page (pk ty n)).key ≠ .window) ∧ ((s.page (pk ty n)).en = true) ∧ ((s.page (pk ty n)).commit = .none) :=
  ⟨pOn .gpio 0, 0, .gpio, by decide +kernel⟩
theorem witness_page_control_3 : ∃ (s : State) (n : Nat), (answers s ⟨.prk, n⟩ = true) ∧ ((s.page (pk .prk n)).locked = false) ∧ ((s.page (pk .prk n)).key ≠ .window) ∧ (stOf s .prk n = .idle) ∧ ((s.page (pk .prk n)).en = true) :=
  ⟨mod (pOn .prk 1) .prk 1 (fun p => { p with staged := [(0x40, 5)], err := 5, intRaw := 7 }), 1, by decide +kernel⟩
theorem witness_page_control_4 : ∃ (s : State) (n : Nat), (answers s ⟨.pwm, n⟩ = true) ∧ ((s.page (pk .pwm n)).locked = false) ∧ ((s.page (pk .pwm n)).key ≠ .window) ∧ (boundaryRuns s .pwm n = true) :=
  ⟨setPwm (pin up .pwm 31 .run) 31 { PwmSt.reset with run := true }, 31, by decide +kernel⟩
theorem witness_page_control_5 : ∃ (s : State) (pg : PageId), (answers s pg = true) ∧ ((s.page pg.key).locked = false) ∧ ((s.page pg.key).key ≠ .window) ∧ (secPages.contains pg.ty = false) :=
  ⟨up, ⟨.enc, 0⟩, by decide +kernel⟩
theorem witness_page_control_6 : ∃ (s : State) (pg : PageId), (answers s pg = true) ∧ (secPages.contains pg.ty = false) :=
  ⟨up, ⟨.enc, 3⟩, by decide +kernel⟩
theorem witness_page_control_7 : ∃ (s : State) (n : Nat) (b : Bool), (answers s ⟨.enc, n⟩ = true) ∧ ((s.page (pk .enc n)).key = .window) ∧ (secured s = false ∨ b = true) :=
  ⟨mod up .enc 3 (fun p => { p with key := .window }), 3, false, by decide +kernel⟩
theorem witness_staged_commits_1 : ∃ (s : State) (pg : PageId), (answers s pg = true) ∧ (secPages.contains pg.ty = false) ∧ (pg.ty ≠ .pwr) ∧ ((s.page pg.key).locked = false) ∧ ((s.page pg.key).key ≠ .window) ∧ (commitBusy s pg.ty pg.inst = false) :=
  ⟨pOn .enc 2, ⟨.enc, 2⟩, by decide +kernel⟩
def cV (t : PgTy) (n : Nat) (c : CommitSt) (l : SMap Word) : State := mod (pOn t n) t n (fun p => { p with commit := c, staged := l, dirty := true })
theorem witness_staged_commits_2 : ∃ (s : State) (pg : PageId), (answers s pg = true) ∧ ((s.page pg.key).commit = .validating) ∧ (pg.ty ≠ .frc) ∧ (pg.ty ≠ .le) :=
  ⟨cV .enc 2 .validating [(0x40, 0xFF)], ⟨.enc, 2⟩, by decide +kernel⟩
theorem witness_staged_commits_3 : ∃ (s : State) (ty : PgTy) (n : Nat), (ty ∈ [PgTy.enc, .ssn, .step, .fch, .fcg, .pcv, .psp, .eth, .mem, .dio]) ∧ (answers s ⟨ty, n⟩ = true) ∧ ((s.page (pk ty n)).commit = .accepted) ∧ ((s.page (pk ty n)).freeze = false) ∧ (StagedOnce s) :=
  ⟨cV .enc 2 .accepted [(0x40, 0)], .enc, 2, by decide +kernel, by decide +kernel, by decide +kernel, by decide +kernel, stagedOnce_of (by decide +kernel)⟩
theorem witness_staged_commits_3b : ∃ (s : State) (ty : PgTy) (n : Nat), (ty ∈ [PgTy.enc, .ssn, .step, .fch, .fcg, .pcv, .psp, .eth, .mem, .dio]) ∧ (answers s ⟨ty, n⟩ = true) ∧ ((s.page (pk ty n)).commit = .accepted) ∧ ((s.page (pk ty n)).freeze = false) ∧ (StagedOnce s) :=
  ⟨cV .dio 0 .accepted [(0x40, 1)], .dio, 0, by decide +kernel, by decide +kernel, by decide +kernel, by decide +kernel, stagedOnce_of (by decide +kernel)⟩
theorem witness_common_commands_1 : ∃ (s : State) (ty : PgTy) (n : Nat) (m : Master) (chk : BitVec 16), (ty ∈ [PgTy.enc, .ssn, .step, .fch, .pcv, .eth, .psp, .dio, .le]) ∧ (ActsNow s ty n 1 m chk) :=
  ⟨pOn .eth 1, .eth, 1, .ap0, 0xFFFE, by decide +kernel, actsNow_of (by decide +kernel)⟩
theorem witness_common_commands_1b : ∃ (s : State) (ty : PgTy) (n : Nat) (m : Master) (chk : BitVec 16), (ty ∈ [PgTy.enc, .ssn, .step, .fch, .pcv, .eth, .psp, .dio, .le]) ∧ (ActsNow s ty n 1 m chk) :=
  ⟨pOn .dio 0, .dio, 0, .sc, 0xFFFE, by decide +kernel, actsNow_of (by decide +kernel)⟩
theorem witness_common_commands_3 : ∃ (s : State) (ty : PgTy) (n : Nat) (m : Master) (chk : BitVec 16), (ty ∈ [PgTy.cslot, .pcmp, .pwm, .eth, .psp]) ∧ (ActsNow s ty n 2 m chk) :=
  ⟨pin up .psp 1 .run, .psp, 1, .ap0, 0xFFFD, by decide +kernel, actsNow_of (by decide +kernel)⟩
theorem witness_common_commands_3b : ∃ (s : State) (ty : PgTy) (n : Nat) (m : Master) (chk : BitVec 16), (ty ∈ [PgTy.cslot, .pcmp, .pwm, .eth, .psp]) ∧ (ActsNow s ty n 2 m chk) :=
  ⟨pin up .pwm 31 .run, .pwm, 31, .ap0, 0xFFFD, by decide +kernel, actsNow_of (by decide +kernel)⟩
theorem witness_common_commands_4 : ∃ (s : State) (ty : PgTy) (n : Nat) (m : Master) (chk : BitVec 16), (ty ∈ [PgTy.pcmp, .pwm]) ∧ (ActsNow s ty n 3 m chk) :=
  ⟨pin up .pcmp 63 .run, .pcmp, 63, .ap0, 0xFFFC, by decide +kernel, actsNow_of (by decide +kernel)⟩
theorem witness_common_commands_5 : ∃ (s : State) (ty : PgTy) (n : Nat) (m : Master) (chk : BitVec 16), (ty ∈ [PgTy.pwm, .le]) ∧ (ActsNow s ty n 4 m chk) :=
  ⟨pin up .pwm 3 .hold, .pwm, 3, .ap0, 0xFFFB, by decide +kernel, actsNow_of (by decide +kernel)⟩
theorem witness_common_commands_6 : ∃ (s : State) (pg : PageId) (m : Master) (chk : BitVec 16), (pg.ty ∉ [PgTy.sig, .frc, .ustp]) ∧ (ActsNow s pg.ty pg.inst 5 m chk) :=
  ⟨cV .enc 0 .none [(0x40, 0)], ⟨.enc, 0⟩, .ap0, 0xFFFA, by decide +kernel, actsNow_of (by decide +kernel)⟩
theorem witness_common_commands_7 : ∃ (s : State) (ty : PgTy) (n : Nat) (m : Master) (chk : BitVec 16), (ty ∈ [PgTy.ssn, .pcmp, .fch, .cslot, .psp]) ∧ (ActsNow s ty n 6 m chk) :=
  ⟨pin up .pcmp 3 .fault, .pcmp, 3, .ap0, 0xFFF9, by decide +kernel, actsNow_of (by decide +kernel)⟩
theorem witness_common_commands_7b : ∃ (s : State) (ty : PgTy) (n : Nat) (m : Master) (chk : BitVec 16), (ty ∈ [PgTy.ssn, .pcmp, .fch, .cslot, .psp]) ∧ (ActsNow s ty n 6 m chk) :=
  ⟨pin up .ssn 3 .fault, .ssn, 3, .ap0, 0xFFF9, by decide +kernel, actsNow_of (by decide +kernel)⟩
theorem witness_common_commands_9 : ∃ (s : State) (ty : PgTy) (n : Nat) (m : Master) (chk : BitVec 16), (ty ∈ [PgTy.enc, .ssn, .step, .fch]) ∧ (WaitsFree s ty n 2 m chk) :=
  ⟨pin up .enc 63 .run, .enc, 63, .ap0, 0xFFFD, by decide +kernel, waitsFree_of (by decide +kernel)⟩
theorem witness_common_commands_9b : ∃ (s : State) (ty : PgTy) (n : Nat) (m : Master) (chk : BitVec 16), (ty ∈ [PgTy.enc, .ssn, .step, .fch]) ∧ (WaitsFree s ty n 2 m chk) :=
  ⟨pin up .ssn 3 .run, .ssn, 3, .ap0, 0xFFFD, by decide +kernel, waitsFree_of (by decide +kernel)⟩
theorem witness_common_commands_10 : ∃ (s : State) (n : Nat) (m : Master) (chk : BitVec 16), (WaitsFree s .enc n 6 m chk) :=
  ⟨pin up .enc 63 .fault, 63, .ap0, 0xFFF9, waitsFree_of (by decide +kernel)⟩
theorem witness_common_commands_8 : ∃ (s : State) (ty : PgTy) (n : Nat) (m : Master) (chk : BitVec 16), (ty ∈ [PgTy.mem, .can, .cslot]) ∧ (ActsNow s ty n 7 m chk) :=
  ⟨mod (pin up .mem 1 .run) .mem 1 (fun p => { p with busy := true, prog := progWord 2 1 0 }), .mem, 1, .ap0, 0xFFF8, by decide +kernel, actsNow_of (by decide +kernel)⟩
theorem witness_common_commands_11 : ∃ (s : State) (n : Nat) (m : Master), (answers s ⟨.enc, n⟩ = true) ∧ ((s.page (pk .enc n)).cmd = some ⟨5, m⟩) ∧ ((s.page (pk .enc n)).freeze = false) ∧ ((s.page (pk .enc n)).commit = .none) :=
  ⟨mod (pin up .enc 3 .run) .enc 3 (fun p => { p with cmd := some ⟨5, .ap0⟩, staged := [(0x40, 1)] }), 3, .ap0, by decide +kernel⟩
theorem witness_common_commands_2 : ∃ (s : State) (n : Nat) (m : Master) (chk : BitVec 16), (ActsNow s .fcg n 1 m chk) :=
  ⟨pOn .fcg 2, 2, .ap0, 0xFFFE, actsNow_of (by decide +kernel)⟩
theorem witness_common_commands_2b : ∃ (s : State) (n : Nat) (m : Master) (chk : BitVec 16), (ActsNow s .fcg n 1 m chk) :=
  ⟨setFcg (pOn .fcg 2) 2 { fcgOf (pOn .fcg 2) 2 with carry := some 3 }, 2, .sc, 0xFFFE, actsNow_of (by decide +kernel)⟩
theorem witness_refused_and_waiting_commands_1 : ∃ (s : State) (pg : PageId) (m : Master) (chk : BitVec 16) (c : ErrCode), (answers s pg = true) ∧ ((s.page pg.key).key ≠ .window) ∧ (pg.ty ∉ [PgTy.pwm, .time]) ∧ (cmdRefusal s pg.ty pg.inst m (cmdWord chk 1) = some c) :=
  ⟨pin up .enc 3 .run, ⟨.enc, 3⟩, .ap0, 0xFFFE, .wrongState, by decide +kernel⟩
theorem witness_refused_and_waiting_commands_2 : ∃ (chk : BitVec 16), (chk ≠ 0xFFFE) :=
  ⟨0xFFFF, by decide +kernel⟩
theorem witness_refused_and_waiting_commands_3 : ∃ (s : State) (n : Nat), ((s.page (pk .enc n)).locked = true) :=
  ⟨mod up .enc 3 (fun p => { p with locked := true }), 3, by decide +kernel⟩
theorem witness_refused_and_waiting_commands_4 : ∃ (s : State) (pg : PageId) (m : Master) (chk : BitVec 16), (Waits s pg.ty pg.inst 2 m chk) :=
  ⟨pin up .enc 3 .run, ⟨.enc, 3⟩, .ap0, 0xFFFD, waits_of (by decide +kernel)⟩
theorem witness_interrupt_registers_1 : ∃ (s : State) (pg : PageId), (answers s pg = true) ∧ ((s.page pg.key).key ≠ .window) ∧ (secPages.contains pg.ty = false) :=
  ⟨mod up .enc 3 (fun p => { p with intRaw := 0xF000000F, intEn := 0xFFFFFFFF }), ⟨.enc, 3⟩, by decide +kernel⟩
theorem witness_interrupt_registers_2 : ∃ (s : State) (pg : PageId), (answers s pg = true) ∧ ((s.page pg.key).key ≠ .window) ∧ (secPages.contains pg.ty = false) :=
  ⟨mod up .enc 3 (fun p => { p with intEn := 0xFFFFFFFF }), ⟨.enc, 3⟩, by decide +kernel⟩
theorem witness_register_writes_1 : ∃ (s : State) (pg : PageId) (off : Nat) (r : RegRow), (answers s pg = true) ∧ ((s.page pg.key).key ≠ .window) ∧ (0x040 ≤ off) ∧ (off < 4096) ∧ (off % 4 = 0) ∧ (regRowAt pg.ty pg.inst off = some r) ∧ (r.acc = .ro) :=
  ⟨up, ⟨.enc, 3⟩, Reg.ENC.POS_LO, (regRowAt .enc 3 Reg.ENC.POS_LO).getD ⟨0, 0, 0, .ro, false, 0, 0⟩, by decide +kernel⟩
theorem witness_register_writes_2 : ∃ (s : State) (pg : PageId) (off : Nat) (r : RegRow), (answers s pg = true) ∧ ((s.page pg.key).key ≠ .window) ∧ (0x040 ≤ off) ∧ (off < 4096) ∧ (off % 4 = 0) ∧ (regRowAt pg.ty pg.inst off = some r) ∧ (r.acc ≠ .ro) ∧ ((s.page pg.key).locked = true) :=
  ⟨mod up .enc 3 (fun p => { p with locked := true }), ⟨.enc, 3⟩, Reg.ENC.CFG, (regRowAt .enc 3 Reg.ENC.CFG).getD ⟨0, 0, 0, .ro, false, 0, 0⟩, by decide +kernel⟩
theorem witness_register_writes_3 : ∃ (s : State) (ty : PgTy) (n : Nat) (off : Nat) (r : RegRow), (ty ∈ [PgTy.prk, .pwm, .fin, .fcg, .dio]) ∧ (answers s ⟨ty, n⟩ = true) ∧ ((s.page (pk ty n)).key ≠ .window) ∧ ((s.page (pk ty n)).locked = false) ∧ (0x040 ≤ off) ∧ (off < 4096) ∧ (off % 4 = 0) ∧ (regRow ty off = some r) ∧ (r.acc = .rw) ∧ (r.prot = false) :=
  ⟨up, .fcg, 2, Reg.FCG.CAL_SEL, (regRow .fcg Reg.FCG.CAL_SEL).getD ⟨0, 0, 0, .ro, false, 0, 0⟩, by decide +kernel⟩
theorem witness_register_writes_4 : ∃ (s : State) (ty : PgTy) (n : Nat) (off : Nat) (r : RegRow), (secPages.contains ty = false) ∧ (ty ≠ .pwr) ∧ (answers s ⟨ty, n⟩ = true) ∧ ((s.page (pk ty n)).key ≠ .window) ∧ ((s.page (pk ty n)).locked = false) ∧ (0x040 ≤ off) ∧ (off < 4096) ∧ (off % 4 = 0) ∧ (regRowAt ty n off = some r) ∧ (r.acc = .rs) ∧ (r.prot = false) ∧ (commitBusy s ty n = false) :=
  ⟨up, .enc, 0, Reg.ENC.CFG, (regRowAt .enc 0 Reg.ENC.CFG).getD ⟨0, 0, 0, .ro, false, 0, 0⟩, by decide +kernel⟩
theorem witness_register_writes_5 : ∃ (s : State) (ty : PgTy) (n : Nat) (off : Nat) (r : RegRow), (ty ∈ [PgTy.sys, .can, .gpio]) ∧ (ty = .can → off < Reg.CAN.RX_FULL) ∧ (answers s ⟨ty, n⟩ = true) ∧ ((s.page (pk ty n)).key ≠ .window) ∧ ((s.page (pk ty n)).locked = false) ∧ (0x040 ≤ off) ∧ (off < 4096) ∧ (off % 4 = 0) ∧ (regRow ty off = some r) ∧ (r.acc = .w1c) ∧ (r.prot = false) :=
  ⟨regs up .can 7 [(Reg.CAN.TX_DONE + 12, 0xFFFF)], .can, 7, Reg.CAN.TX_DONE + 12, (regRow .can (Reg.CAN.TX_DONE + 12)).getD ⟨0, 0, 0, .ro, false, 0, 0⟩, by decide +kernel⟩
theorem witness_register_writes_6 : ∃ (s : State) (ty : PgTy) (n : Nat) (lo : Nat) (r : RegRow), (ty ∈ [PgTy.le, .rseq, .recStore]) ∧ (lo ∈ rwLows ty) ∧ (answers s ⟨ty, n⟩ = true) ∧ ((s.page (pk ty n)).key ≠ .window) ∧ ((s.page (pk ty n)).locked = false) ∧ (regRow ty (lo + 4) = some r) ∧ (r.acc = .rw) ∧ (r.prot = false) :=
  ⟨up, .le, 5, Reg.LE.LOAD_SRC_LO, (regRow .le (Reg.LE.LOAD_SRC_LO + 4)).getD ⟨0, 0, 0, .ro, false, 0, 0⟩, by decide +kernel⟩
theorem witness_reads_that_latch_or_clear_4 : ∃ (s : State) (n : Nat) (off : Nat), (off ∈ wideLows .axis) ∧ (answers s ⟨.axis, n⟩ = true) :=
  ⟨regs up .axis 127 [(Reg.AXIS.TARGET_LO, 5), (Reg.AXIS.TARGET_LO + 4, 6)], 127, Reg.AXIS.TARGET_LO, by decide +kernel⟩
theorem witness_reads_that_latch_or_clear_5 : ∃ (s : State) (n : Nat) (ty : PgTy) (off : Nat), ((ty, off) ∈ [(PgTy.fch, Reg.FCH.WAIT_MAX), (.ce, Reg.CE.QUEUE_MAX)]) ∧ (answers s ⟨ty, n⟩ = true) :=
  ⟨regs up .ce 7 [(Reg.CE.QUEUE_MAX, 5)], 7, .ce, Reg.CE.QUEUE_MAX, by decide +kernel⟩
theorem witness_reads_that_latch_or_clear_5b : ∃ (s : State) (n : Nat) (ty : PgTy) (off : Nat), ((ty, off) ∈ [(PgTy.fch, Reg.FCH.WAIT_MAX), (.ce, Reg.CE.QUEUE_MAX)]) ∧ (answers s ⟨ty, n⟩ = true) :=
  ⟨regs up .fch 95 [(Reg.FCH.WAIT_MAX, 5)], 95, .fch, Reg.FCH.WAIT_MAX, by decide +kernel⟩
theorem witness_device_time_10 : ∃ (s : State) (t : Nat), (powered s .time 0 = true) ∧ (tickFalls s t = true) :=
  ⟨{ up with pages := [] }, 125000, by decide +kernel⟩
theorem witness_device_time_11 : ∃ (s : State) (t : Nat), (tickFalls s t = false) :=
  ⟨up, 62500, by decide +kernel⟩
theorem witness_device_time_12 : ∃ (s : State), (tickDev s = 0) :=
  ⟨up, by decide +kernel⟩
def pub (ty : Nat) : State := { pin up .sig 0 .run with sigs := [(9, ⟨0x38000000, 0x200 + ofN ty, 0, 0⟩)], slots := [(9, { Slot.reset with lowPart := some 5 })] }
theorem witness_software_publication_1 : ∃ (s : State) (m : Master) (id : BitVec 16), (id ≠ 0) ∧ (mayPublish s m id.toNat = true) ∧ ((sigEnt s id.toNat).en = true) ∧ (sigRun s = true) ∧ ((sigEnt s id.toNat).typ ≠ 2) :=
  ⟨pub 1, .ap0, 9, by decide +kernel⟩
theorem witness_software_publication_2 : ∃ (s : State) (m : Master) (id : BitVec 16) (w : Word), (id ≠ 0) ∧ (mayPublish s m id.toNat = true) ∧ ((sigEnt s id.toNat).en = true) ∧ (sigRun s = true) ∧ ((sigEnt s id.toNat).typ = 2) ∧ ((slotOf s id.toNat).lowPart = some w) :=
  ⟨pub 2, .ap1, 9, 5, by decide +kernel⟩
theorem witness_software_publication_3 : ∃ (s : State) (m : Master) (id : BitVec 16), (id ≠ 0) ∧ (powered s .sig 0 = true) ∧ (mayPublish s m id.toNat = false) ∧ ((sigEnt s id.toNat).en = true) :=
  ⟨{ pub 1 with sigs := [(65535, ⟨0x10000000, 0x201, 0, 0⟩)] }, .ap0, 65535, by decide +kernel⟩
def dbg : State := { pin (pin up .dbg 0 .run) .lc 17 .run with otp := ⟨2, false, [], 0, [], []⟩ }
theorem witness_debug_halts_1 : ∃ (s : State) (e : Engine), (dbgOpen s e = true) ∧ (engineUp s e = true) :=
  ⟨regs (regs dbg .sec 0 [(Reg.SEC.STAT, 2)]) .dbg 0 [(Reg.DBG.STAT, 0x13F)], .lc 17, by decide +kernel⟩
theorem witness_debug_halts_2 : ∃ (s : State) (c : Fin 18), (Engine.lc c ∈ s.dbgHalt) ∧ (stOf s .lc c.val = .hold) ∧ (inOp s c.val = false) :=
  ⟨{ pin up .lc 17 .hold with dbgHalt := [.lc 17] }, 17, by decide +kernel⟩
theorem witness_debug_halts_3 : ∃ (s : State) (i : Fin 2), (Engine.ap i ∈ s.dbgHalt) :=
  ⟨{ up with dbgHalt := [.ap 1], apHalt := 2 }, 1, by decide +kernel⟩
theorem witness_fabric_errors_and_scrubbing_1 : ∃ (s : State) (m : Master) (a : Nat) (w : Bool), ((m.isAp || m.isHost) = true) ∧ (powered s .fab 0 = true) ∧ (busEnd s m a w ≠ .ok) ∧ (s.fabLog.length < 16) :=
  ⟨up, .ap0, 0xFFFFFFFFFF, true, by decide +kernel⟩
theorem witness_fabric_errors_and_scrubbing_2 : ∃ (s : State), (answers s ⟨.fab, 0⟩ = true) ∧ ((s.page (pk .fab 0)).key ≠ .window) ∧ ((s.page (pk .fab 0)).locked = false) :=
  ⟨{ up with fabLog := [⟨0, 0, 0, true, 0⟩] }, by decide +kernel⟩
theorem witness_fabric_errors_and_scrubbing_2b : ∃ (s : State), (answers s ⟨.fab, 0⟩ = true) ∧ ((s.page (pk .fab 0)).key ≠ .window) ∧ ((s.page (pk .fab 0)).locked = false) :=
  ⟨{ up with fabLog := [⟨0, 0, 0, true, 0⟩] }, by decide +kernel⟩
theorem witness_fabric_errors_and_scrubbing_3 : ∃ (s : State) (chk : BitVec 16), (ActsNow s .fab 0 0x10 .ap0 chk) :=
  ⟨{ up with fabLog := [⟨0, 0, 0, true, 0⟩] }, 0xFFEF, actsNow_of (by decide +kernel)⟩
theorem witness_fabric_errors_and_scrubbing_4 : ∃ (s : State) (n : Fin 2) (chk : BitVec 16), (ActsNow s .mem n.val 0x10 .ap0 chk) :=
  ⟨up, 1, 0xFFEF, actsNow_of (by decide +kernel)⟩
theorem witness_fabric_errors_and_scrubbing_5 : ∃ (s : State) (n : Fin 2), (powered s .mem n.val = true) ∧ ((s.page (pk .mem n.val)).busy = true) :=
  ⟨mod up .mem 1 (fun p => { p with busy := true }), 1, by decide +kernel⟩
theorem witness_fabric_errors_and_scrubbing_6 : ∃ (s : State) (n : Fin 2), (powered s .mem n.val = true) ∧ (rb s .mem n.val Reg.MEM.CFG 0 = true) :=
  ⟨regs up .mem 0 [(Reg.MEM.CFG, 1)], 0, by decide +kernel⟩
theorem witness_fabric_errors_and_scrubbing_7 : ∃ (s : State) (n : Fin 2) (a : Nat), (powered s .mem n.val = true) ∧ ((s.page (pk .mem n.val)).busy = true) ∧ (inDram a 1 = true) ∧ (memCtl a = n.val) ∧ (regionOf a = .dram) :=
  ⟨mod (regs up .mem 0 [(Reg.MEM.SCRUB_CNT, 4)]) .mem 0 (fun p => { p with busy := true }), 0, 0x800000000, by decide +kernel⟩
theorem witness_fabric_errors_and_scrubbing_6b : ∃ (s : State) (n : Fin 2), (powered s .mem n.val = true) ∧ (rb s .mem n.val Reg.MEM.CFG 0 = true) :=
  ⟨regs up .mem 0 [(Reg.MEM.CFG, 0x00010001)], 0, by decide +kernel⟩
theorem witness_complement_check_1 : ∃ (s : State) (pg : PageId) (w : Word), (answers s pg = true) ∧ (fld w 16 16 ≠ 0xFFFF - fld w 0 16) :=
  ⟨mod (pin up .enc 3 .run) .enc 3 (fun p => { p with locked := true, key := .window }), ⟨.enc, 3⟩, 0xFFEE0010, by decide +kernel⟩
theorem witness_complement_check_1b : ∃ (s : State) (pg : PageId) (w : Word), (answers s pg = true) ∧ (fld w 16 16 ≠ 0xFFFF - fld w 0 16) :=
  ⟨pin up .sec 0 .run, ⟨.sec, 0⟩, 0x10, by decide +kernel⟩
theorem witness_complement_check_2 : ∃ (s : State) (pg : PageId) (m : Master) (w : Word), (fld w 16 16 = 0xFFFF - fld w 0 16) ∧ ((ruleOf s pg.ty pg.inst (fld w 0 16) m).all (fun r => r.err != some .cmdCheck) = true) :=
  ⟨pin up .enc 3 .run, ⟨.enc, 3⟩, .ap0, 0xFFEF0010, by decide +kernel⟩
theorem witness_frozen_commits_1 : ∃ (s : State) (pg : PageId), (answers s pg = true) ∧ (pg.ty ≠ .le) ∧ ((s.page pg.key).commit = .accepted) ∧ ((s.page pg.key).freeze = true) :=
  ⟨mod (cV .enc 2 .accepted [(0x40, 0)]) .enc 2 (fun p => { p with freeze := true }), ⟨.enc, 2⟩, by decide +kernel⟩
theorem witness_frozen_commits_2 : ∃ (s : State) (n : Nat), (answers s ⟨.le, n⟩ = true) ∧ ((s.page (pk .le n)).commit = .accepted) ∧ ((s.page (pk .le n)).freeze = true) :=
  ⟨mod (cV .le 5 .accepted [(0x40, 0)]) .le 5 (fun p => { p with freeze := true, st := .run }), 5, by decide +kernel⟩
theorem witness_frozen_commits_3 : ∃ (s : State) (ty : PgTy) (n : Nat), (ty ∈ [PgTy.enc, .ssn, .step, .fch, .fcg, .pcv, .psp, .eth, .mem, .dio]) ∧ (answers s ⟨ty, n⟩ = true) ∧ ((s.page (pk ty n)).commit = .accepted) ∧ ((s.page (pk ty n)).freeze = false) ∧ (StagedOnce s) :=
  ⟨cV .enc 63 .accepted [(0x40, 0)], .enc, 63, by decide +kernel, by decide +kernel, by decide +kernel, by decide +kernel, stagedOnce_of (by decide +kernel)⟩
end Sys2Proof.Tests.W01
namespace Sys2Proof.Tests.W05
def encRun : State := regs (pin (pin up .enc 5 .run) .sig 0 .run) .enc 5 [(Reg.ENC.CFG, 0)]
theorem witness_encoder_events_1 : ∃ (s : State) (n : Fin 64) (t : Nat) (te : Nat) (a : Bool) (b : Bool) (z : Bool) (back : Bool), (stOf s .enc n.val = .run) ∧ (EncCounts s n.val a b z back) ∧ (encAccepts s n.val t te a b z = true) ∧ (z = true → encLevel s n.val 2 = true ∨ encHallMode s n.val = true) ∧ ((s.page (pk .enc n.val)).busy = false) :=
  ⟨encRun, 5, 90000100, 89990000, true, false, false, false, by decide +kernel, by simp only [EncCounts, show rf encRun .enc ((5 : Fin 64) : Nat) Reg.ENC.CFG 0 3 = 0 from by decide +kernel]; decide +kernel, by decide +kernel⟩
theorem witness_encoder_events_2 : ∃ (s : State) (n : Fin 64) (t : Nat) (te : Nat) (a : Bool) (b : Bool) (z : Bool), (inSt s .enc n.val [.idle, .fault] = true) ∧ (encAccepts s n.val t te a b z = true) ∧ (z = true → encLevel s n.val 2 = true ∨ encHallMode s n.val = true) :=
  ⟨pin up .enc 5 .fault, 5, 90000100, 89990000, true, false, false, by decide +kernel⟩
theorem witness_encoder_events_3 : ∃ (s : State) (n : Fin 64) (t : Nat) (te : Nat) (a : Bool) (b : Bool) (z : Bool), (stOf s .enc n.val = .run) ∧ (rf s .enc n.val Reg.ENC.CFG 0 3 = 0) ∧ (a ≠ encLevel s n.val 0) ∧ (b ≠ encLevel s n.val 1) ∧ (encAccepts s n.val t te a b z = true) :=
  ⟨encRun, 5, 90000100, 89990000, true, true, false, by decide +kernel⟩
theorem witness_encoder_events_3b : ∃ (s : State) (n : Fin 64) (t : Nat) (te : Nat) (a : Bool) (b : Bool) (z : Bool), (stOf s .enc n.val = .run) ∧ (rf s .enc n.val Reg.ENC.CFG 0 3 = 0) ∧ (a ≠ encLevel s n.val 0) ∧ (b ≠ encLevel s n.val 1) ∧ (encAccepts s n.val t te a b z = true) :=
  ⟨regs encRun .enc 5 [(Reg.ENC.CFG, 0x80)], 5, 90000100, 89990000, true, true, false, by decide +kernel⟩
theorem witness_encoder_events_6 : ∃ (s : State) (n : Fin 64) (t : Nat) (te : Nat), (stOf s .enc n.val = .run) ∧ (rf s .enc n.val Reg.ENC.CFG 0 3 ≠ 3) ∧ (encLevel s n.val 2 = false) ∧ (encHeld s n.val t te 8 = true) ∧ (rb s .enc n.val Reg.ENC.INDEX 6 = true → rb s .enc n.val Reg.ENC.INDEX 5 = encLevel s n.val 0 ∧ rb s .enc n.val Reg.ENC.INDEX 4 = encLevel s n.val 1) :=
  ⟨encRun, 5, 90000100, 89990000, by decide +kernel⟩
theorem witness_encoder_events_6b : ∃ (s : State) (n : Fin 64) (t : Nat) (te : Nat), (stOf s .enc n.val = .run) ∧ (rf s .enc n.val Reg.ENC.CFG 0 3 ≠ 3) ∧ (encLevel s n.val 2 = false) ∧ (encHeld s n.val t te 8 = true) ∧ (rb s .enc n.val Reg.ENC.INDEX 6 = true → rb s .enc n.val Reg.ENC.INDEX 5 = encLevel s n.val 0 ∧ rb s .enc n.val Reg.ENC.INDEX 4 = encLevel s n.val 1) :=
  ⟨regs encRun .enc 5 [(Reg.ENC.INDEX, 1)], 5, 90000100, 89990000, by decide +kernel⟩
theorem witness_encoder_events_7 : ∃ (s : State) (n : Fin 64) (t : Nat), (stOf s .enc n.val = .run) ∧ (rb s .enc n.val Reg.ENC.STAT 0 = false) ∧ ((encOf s n.val).tEdge + 8000 * (rg s .enc n.val Reg.ENC.STANDSTILL_T).toNat ≤ s.lap t) :=
  ⟨encRun, 5, 90000100, by decide +kernel⟩
theorem witness_encoder_events_4 : ∃ (s : State) (n : Fin 64) (t : Nat) (te : Nat) (a : Bool) (b : Bool) (z : Bool), (encAccepts s n.val t te a b (z && (encLevel s n.val 2 || encHallMode s n.val)) = false) :=
  ⟨regs encRun .enc 5 [(Reg.ENC.FILT, 20)], 5, 90000100, 90000090, true, false, false, by decide +kernel⟩
theorem witness_encoder_events_5 : ∃ (s : State) (n : Fin 64) (t : Nat) (te : Nat), (encLevel s n.val 2 = true ∨ encHallMode s n.val = true ∨ encHeld s n.val t te 8 = false) :=
  ⟨regs encRun .enc 5 [(Reg.ENC.FILT, 0x1400)], 5, 90000100, 90000090, by decide +kernel⟩
theorem witness_encoder_events_5b : ∃ (s : State) (n : Fin 64) (t : Nat) (te : Nat), (encLevel s n.val 2 = true ∨ encHallMode s n.val = true ∨ encHeld s n.val t te 8 = false) :=
  ⟨regs encRun .enc 5 [(Reg.ENC.STAT, 0x200)], 5, 90000100, 90000000, by decide +kernel⟩
theorem witness_encoder_commands_1 : ∃ (s : State) (n : Fin 64) (chk : BitVec 16), (ActsNow s .enc n.val 0x10 .ap0 chk) ∧ ((encOf s n.val).rstCyc ≠ some (s.now / 10)) :=
  ⟨regs (pin up .enc 5 .idle) .enc 5 [(Reg.ENC.PRESET_LO, 77), (Reg.ENC.PRESET_HI, 3)], 5, 0xFFEF, actsNow_of (by decide +kernel), by decide +kernel⟩
theorem witness_encoder_commands_2 : ∃ (s : State) (n : Fin 64) (chk : BitVec 16), (stOf s .enc n.val = .run) ∧ (WaitsFree s .enc n.val 0x10 .ap0 chk) ∧ ((encOf s n.val).rstCyc ≠ some (s.now / 10)) :=
  ⟨regs encRun .enc 5 [(Reg.ENC.PRESET_LO, 77), (Reg.ENC.PRESET_HI, 3)], 5, 0xFFEF, by decide +kernel, waitsFree_of (by decide +kernel), by decide +kernel⟩
theorem witness_encoder_commands_3 : ∃ (s : State) (n : Fin 64) (chk : BitVec 16), (ActsNow s .enc n.val 0x11 .ap0 chk) :=
  ⟨regs encRun .enc 5 [(Reg.ENC.INDEX, 2)], 5, 0xFFEE, actsNow_of (by decide +kernel)⟩
theorem witness_encoder_commands_4 : ∃ (s : State) (n : Fin 64) (chk : BitVec 16), (ActsNow s .enc n.val 0x12 .ap0 chk) :=
  ⟨regs encRun .enc 5 [(Reg.ENC.INDEX, 0x100)], 5, 0xFFED, actsNow_of (by decide +kernel)⟩
def ssnRun : State := pin up .ssn 2 .run
def ssnFr : State := regs ssnRun .ssn 2 [(Reg.SSN.STAT, 0x10)]
theorem witness_serial_frames_2 : ∃ (s : State) (m : Fin 16) (t : Nat), (stOf s .ssn m.val = .run) ∧ (ssnTriggered s m.val t = true) :=
  ⟨setSsn ssnRun 2 { ssnOf ssnRun 2 with trg := some 90000000 }, 2, 90000000, by decide +kernel⟩
theorem witness_serial_frames_2b : ∃ (s : State) (m : Fin 16) (t : Nat), (stOf s .ssn m.val = .run) ∧ (ssnTriggered s m.val t = true) :=
  ⟨setSsn ssnFr 2 { ssnOf ssnFr 2 with trg := some 90000000 }, 2, 90000000, by decide +kernel⟩
theorem witness_serial_frames_3 : ∃ (s : State) (m : Fin 16) (sl : Bool) (f : SsnFrame), (stOf s .ssn m.val = .run) ∧ (rb s .ssn m.val Reg.SSN.STAT 4 = true) ∧ (SsnGood s m.val sl f) ∧ ((s.page (pk .ssn m.val)).cmd = none) ∧ ((s.page (pk .ssn m.val)).commit = .none) ∧ ((s.page (pk .ssn m.val)).freeze = false) ∧ ((s.page (pk .ssn m.val)).frozen = false) :=
  ⟨ssnFr, 2, true, ⟨0xABCDEF0123, true, true, 0, false, 4⟩, by unfold SsnGood; decide +kernel⟩
theorem witness_serial_frames_3b : ∃ (s : State) (m : Fin 16) (sl : Bool) (f : SsnFrame), (stOf s .ssn m.val = .run) ∧ (rb s .ssn m.val Reg.SSN.STAT 4 = true) ∧ (SsnGood s m.val sl f) ∧ ((s.page (pk .ssn m.val)).cmd = none) ∧ ((s.page (pk .ssn m.val)).commit = .none) ∧ ((s.page (pk .ssn m.val)).freeze = false) ∧ ((s.page (pk .ssn m.val)).frozen = false) :=
  ⟨regs ssnFr .ssn 2 [(Reg.SSN.CFG, 2), (Reg.SSN.CRC, 0)], 2, true, ⟨0xABCDEF0123, true, true, 0, true, 4⟩, by unfold SsnGood; decide +kernel⟩
theorem witness_serial_frames_4 : ∃ (s : State) (m : Fin 16), (stOf s .ssn m.val = .run) ∧ (rb s .ssn m.val Reg.SSN.STAT 4 = true) ∧ (ssnBiss s m.val = false) ∧ ((ssnOf s m.val).bad + 1 < rf s .ssn m.val Reg.SSN.LIMITS 0 8) ∧ ((s.page (pk .ssn m.val)).cmd = none) ∧ ((s.page (pk .ssn m.val)).commit = .none) ∧ ((s.page (pk .ssn m.val)).freeze = false) ∧ ((s.page (pk .ssn m.val)).frozen = false) :=
  ⟨regs ssnFr .ssn 2 [(Reg.SSN.LIMITS, 3)], 2, by decide +kernel⟩
theorem witness_serial_frames_5 : ∃ (s : State) (m : Fin 16) (t : Nat), (stOf s .ssn m.val = .run) ∧ (rb s .ssn m.val Reg.SSN.STAT 4 = true) ∧ (ssnBiss s m.val = true) ∧ ((ssnOf s m.val).start + ssnTmo s m.val ≤ t) ∧ ((ssnOf s m.val).bad + 1 < rf s .ssn m.val Reg.SSN.LIMITS 0 8) ∧ ((s.page (pk .ssn m.val)).cmd = none) ∧ ((s.page (pk .ssn m.val)).commit = .none) ∧ ((s.page (pk .ssn m.val)).freeze = false) ∧ ((s.page (pk .ssn m.val)).frozen = false) :=
  ⟨regs ssnFr .ssn 2 [(Reg.SSN.LIMITS, 3), (Reg.SSN.CFG, 2)], 2, 90000000, by decide +kernel⟩
theorem witness_serial_frames_6 : ∃ (s : State) (m : Fin 16) (chk : BitVec 16), (ActsNow s .ssn m.val 0x10 .ap0 chk) ∧ (rb s .ssn m.val Reg.SSN.STAT 4 = false) ∧ ((ssnOf s m.val).free ≤ s.lap s.now) :=
  ⟨regs ssnRun .ssn 2 [(Reg.SSN.CFG, 8)], 2, 0xFFEF, actsNow_of (by decide +kernel), by decide +kernel⟩
theorem witness_serial_frames_7 : ∃ (s : State) (m : Fin 16), (answers s ⟨.ssn, m.val⟩ = true) ∧ ((s.page (pk .ssn m.val)).key ≠ .window) ∧ ((s.page (pk .ssn m.val)).locked = false) :=
  ⟨ssnRun, 2, by decide +kernel⟩
theorem witness_serial_frames_8 : ∃ (s : State) (m : Fin 16), (answers s ⟨.ssn, m.val⟩ = true) :=
  ⟨regs ssnRun .ssn 2 [(Reg.SSN.CDS_RX, 0x77)], 2, by decide +kernel⟩
theorem witness_serial_frames_1 : ∃ (s : State) (m : Fin 16) (t : Nat), (ssnTriggered s m.val t = false) :=
  ⟨ssnRun, 2, 90000000, by decide +kernel⟩
theorem witness_serial_frames_1b : ∃ (s : State) (m : Fin 16) (t : Nat), (ssnTriggered s m.val t = false) :=
  ⟨regs ssnRun .ssn 2 [(Reg.SSN.CFG, 4)], 2, 90000000, by decide +kernel⟩
def axRun : State := regs (pin up .axis 9 .run) .axis 9 [(Reg.AXIS.VMAX_LO, 1000), (Reg.AXIS.AMAX_LO, 1000), (Reg.AXIS.DMAX_LO, 1000), (Reg.AXIS.JMAX_LO, 1000), (Reg.AXIS.TARGET_LO, 0x12345), (Reg.AXIS.SETP_LO, 0x111), (Reg.AXIS.REMAIN_LO, 5)]
theorem witness_axis_commands_1 : ∃ (s : State) (n : Fin 128) (chk : BitVec 16) (c : Instr) (code : Nat) (g : Int), ((c, code, g) ∈ [(Instr.moveAbs n chk, 0x10, moveTarget s n.val false), (.moveRel n chk, 0x11, moveTarget s n.val true), (.axisResume n chk, 0x1B, ax s n.val Reg.AXIS.TARGET_ACT_LO)]) ∧ (WaitsFree s .axis n.val code .ap0 chk) :=
  ⟨axRun, 9, 0xFFEF, .moveAbs 9 0xFFEF, 0x10, moveTarget axRun 9 false, by decide +kernel, waitsFree_of (by decide +kernel)⟩
def axRem : State := regs axRun .axis 9 [(Reg.AXIS.STAT, 0x20), (Reg.AXIS.TARGET_ACT_LO, 0x12345)]
theorem witness_axis_commands_1b : ∃ (s : State) (n : Fin 128) (chk : BitVec 16) (c : Instr) (code : Nat) (g : Int), ((c, code, g) ∈ [(Instr.moveAbs n chk, 0x10, moveTarget s n.val false), (.moveRel n chk, 0x11, moveTarget s n.val true), (.axisResume n chk, 0x1B, ax s n.val Reg.AXIS.TARGET_ACT_LO)]) ∧ (WaitsFree s .axis n.val code .ap0 chk) :=
  ⟨axRem, 9, 0xFFE4, .axisResume 9 0xFFE4, 0x1B, ax axRem 9 Reg.AXIS.TARGET_ACT_LO, by decide +kernel, waitsFree_of (by decide +kernel)⟩
def axM : State := regs (pin axRem .enc 5 .run) .axis 9 [(Reg.AXIS.MASTER, 0x501), (Reg.AXIS.STAT, 0x9820)]
theorem witness_axis_commands_2 : ∃ (s : State) (n : Fin 128) (chk : BitVec 16) (c : Instr) (code : Nat) (mo : Nat), ((c, code, mo) ∈ [(Instr.axisVelocity n chk, 0x12, 2), (.gearIn n chk, 0x13, 3), (.camIn n chk, 0x15, 4), (.pvtStart n chk, 0x17, 5), (.followOn n chk, 0x18, 6)]) ∧ (WaitsFree s .axis n.val code .ap0 chk) :=
  ⟨axM, 9, 0xFFED, .axisVelocity 9 0xFFED, 0x12, 2, by decide +kernel, waitsFree_of (by decide +kernel)⟩
def axT : State := regs (pin axM .prk 0 .idle) .prk 0 [(Reg.PRK.VALID, 0xFFFF), (Reg.PRK.TBL_MODE, 1), (Reg.PRK.TBL_MODE + 4, 0), (Reg.PRK.TBL_RANGE, 0x20000), (Reg.PRK.TBL_RANGE + 4, 0x20004)]
theorem witness_axis_commands_2b : ∃ (s : State) (n : Fin 128) (chk : BitVec 16) (c : Instr) (code : Nat) (mo : Nat), ((c, code, mo) ∈ [(Instr.axisVelocity n chk, 0x12, 2), (.gearIn n chk, 0x13, 3), (.camIn n chk, 0x15, 4), (.pvtStart n chk, 0x17, 5), (.followOn n chk, 0x18, 6)]) ∧ (WaitsFree s .axis n.val code .ap0 chk) :=
  ⟨regs axT .axis 9 [(Reg.AXIS.SP_SRC, 0x502)], 9, 0xFFE7, .followOn 9 0xFFE7, 0x18, 6, by decide +kernel, waitsFree_of (by decide +kernel)⟩
theorem witness_axis_commands_3 : ∃ (s : State) (n : Fin 128) (chk : BitVec 16) (c : Instr) (code : Nat), ((c, code) ∈ [(Instr.gearOut n chk, 0x14), (.camOut n chk, 0x16), (.followOff n chk, 0x19)]) ∧ (code = 0x16 → prkCyclic s (n.val / 32) (axisOf s n.val).tbl = false ∨ axSt s n.val 16 = true) ∧ (WaitsFree s .axis n.val code .ap0 chk) :=
  ⟨regs axT .axis 9 [(Reg.AXIS.STAT, 0x803)], 9, 0xFFEB, .gearOut 9 0xFFEB, 0x14, by decide +kernel, by decide +kernel, waitsFree_of (by decide +kernel)⟩
theorem witness_axis_commands_3b : ∃ (s : State) (n : Fin 128) (chk : BitVec 16) (c : Instr) (code : Nat), ((c, code) ∈ [(Instr.gearOut n chk, 0x14), (.camOut n chk, 0x16), (.followOff n chk, 0x19)]) ∧ (code = 0x16 → prkCyclic s (n.val / 32) (axisOf s n.val).tbl = false ∨ axSt s n.val 16 = true) ∧ (WaitsFree s .axis n.val code .ap0 chk) :=
  ⟨regs axT .axis 9 [(Reg.AXIS.STAT, 0x806)], 9, 0xFFE6, .followOff 9 0xFFE6, 0x19, by decide +kernel, by decide +kernel, waitsFree_of (by decide +kernel)⟩
theorem witness_axis_commands_4 : ∃ (s : State) (n : Fin 128) (chk : BitVec 16), (prkCyclic s (n.val / 32) (axisOf s n.val).tbl = true) ∧ (axSt s n.val 16 = false) ∧ (WaitsFree s .axis n.val 0x16 .ap0 chk) :=
  ⟨regs (regs axT .axis 9 [(Reg.AXIS.STAT, 0x804)]) .prk 0 [(Reg.PRK.TBL_MODE, 3)], 9, 0xFFE9, by decide +kernel, by decide +kernel, waitsFree_of (by decide +kernel)⟩
theorem witness_axis_commands_5 : ∃ (s : State) (n : Fin 128) (chk : BitVec 16), (WaitsFree s .axis n.val 0x1A .ap0 chk) :=
  ⟨regs axT .axis 9 [(Reg.AXIS.HOME_VFAST, 0x806), (Reg.AXIS.HOME_VSLOW, 0x80), (Reg.AXIS.HOMECFG, 2)], 9, 0xFFE5, waitsFree_of (by decide +kernel)⟩
theorem witness_axis_commands_6 : ∃ (s : State) (n : Fin 128) (chk : BitVec 16), (WaitsFree s .axis n.val 0x1C .ap0 chk) :=
  ⟨regs axT .axis 9 [(Reg.AXIS.STAT, 1)], 9, 0xFFE3, waitsFree_of (by decide +kernel)⟩
theorem witness_axis_commands_6b : ∃ (s : State) (n : Fin 128) (chk : BitVec 16), (WaitsFree s .axis n.val 0x1C .ap0 chk) :=
  ⟨axT, 9, 0xFFE3, waitsFree_of (by decide +kernel)⟩
theorem witness_limits_and_prickings_1 : ∃ (s : State) (n : Fin 128) (t : Nat) (neg : Bool) (dt : Nat), (rb s .axis n.val Reg.AXIS.CFG 8 = true) ∧ (axSt s n.val (if neg then 8 else 7) = false) ∧ (stOf s .axis n.val ≠ .off) ∧ (motion s n.val ≠ 7) ∧ (limHeld (s.at t) n.val neg true = true) ∧ (sinceEdge (s.at t) (rf s .axis n.val Reg.AXIS.LIMCFG (if neg then 16 else 0) 16) dt = true) :=
  ⟨{ (pin (regs axT .axis 9 [(Reg.AXIS.CFG, 0x100), (Reg.AXIS.SETV_LO, 5), (Reg.AXIS.STAT, 1), (Reg.AXIS.ACT_LO, 0x999), (Reg.AXIS.LIMCFG, 0x140014), (Reg.AXIS.DEBOUNCE, 100)]) .sig 0 .run) with sigs := [(20, ⟨0x30000000, 0x203, 0, 0⟩)], slots := [(20, { Slot.reset with never := false, value := 1, chg := 89000000 })] }, 9, 90000000, false, 1000000, by decide +kernel⟩
theorem witness_limits_and_prickings_1b : ∃ (s : State) (n : Fin 128) (t : Nat) (neg : Bool) (dt : Nat), (rb s .axis n.val Reg.AXIS.CFG 8 = true) ∧ (axSt s n.val (if neg then 8 else 7) = false) ∧ (stOf s .axis n.val ≠ .off) ∧ (motion s n.val ≠ 7) ∧ (limHeld (s.at t) n.val neg true = true) ∧ (sinceEdge (s.at t) (rf s .axis n.val Reg.AXIS.LIMCFG (if neg then 16 else 0) 16) dt = true) :=
  ⟨{ (pin (regs axT .axis 9 [(Reg.AXIS.CFG, 0x100), (Reg.AXIS.SETV_LO, 5), (Reg.AXIS.STAT, 1), (Reg.AXIS.ACT_LO, 0x999), (Reg.AXIS.LIMCFG, 0x140014), (Reg.AXIS.DEBOUNCE, 100)]) .sig 0 .run) with sigs := [(20, ⟨0x30000000, 0x203, 0, 0⟩)], slots := [(20, { Slot.reset with never := false, value := 1, chg := 89000000 })] }, 9, 90000000, true, 1000000, by decide +kernel⟩
theorem witness_limits_and_prickings_3 : ∃ (s : State) (n : Fin 128) (t : Nat) (neg : Bool), (stOf s .axis n.val ≠ .off) ∧ (axSt s n.val (if neg then 8 else 7) = true) ∧ (limHeld (s.at t) n.val neg false = true) ∧ (motion s n.val ≠ 7) :=
  ⟨regs axT .axis 9 [(Reg.AXIS.STAT, 0x81), (Reg.AXIS.ACT_LO, 0xF0000),(Reg.AXIS.LIM_CLEAR, 5)], 9, 90000000, false, by decide +kernel⟩
theorem witness_limits_and_prickings_3b : ∃ (s : State) (n : Fin 128) (t : Nat) (neg : Bool), (stOf s .axis n.val ≠ .off) ∧ (axSt s n.val (if neg then 8 else 7) = true) ∧ (limHeld (s.at t) n.val neg false = true) ∧ (motion s n.val ≠ 7) :=
  ⟨regs axT .axis 9 [(Reg.AXIS.STAT, 0x81), (Reg.AXIS.ACT_LO, 0x999), (Reg.AXIS.LIM_CLEAR, 5)], 9, 90000000, false, by decide +kernel⟩
def axH (m ph : Nat) : State := (regs axT .axis 9 [(Reg.AXIS.STAT, 0x7), (Reg.AXIS.HOMECFG, ofN m)]).modPage (pk .axis 9) (fun p => { p with prog := progWord 2 ph 0, busy := true })
theorem witness_limits_and_prickings_4 : ∃ (s : State) (n : Fin 128) (act : Bool) (t : Nat) (dt : Nat) (ph : Nat), (stOf s .axis n.val ≠ .off) ∧ (motion s n.val = 7) ∧ (sigHeld (s.at t) (rf s .axis n.val Reg.AXIS.HOMECFG 16 16) (act != rb s .axis n.val Reg.AXIS.CFG 10) (rf s .axis n.val Reg.AXIS.DEBOUNCE 16 16) = true) ∧ (sinceEdge (s.at t) (rf s .axis n.val Reg.AXIS.HOMECFG 16 16) dt = true) ∧ (act = true → (axisOf s n.val).hAt ≤ (slotOf s (rf s .axis n.val Reg.AXIS.HOMECFG 16 16)).chg + 8000 * rf s .axis n.val Reg.AXIS.DEBOUNCE 16 16) ∧ ((homeMethod s n.val, act, homePhase s n.val, ph) ∈ [(2, true, 1, 3), (2, true, 2, 3), (2, true, 4, 6), (3, true, 1, 3), (3, true, 2, 3), (3, true, 4, 5), (2, false, 3, 3), (3, false, 3, 3)]) :=
  ⟨{ (pin (regs (axH 2 1) .axis 9 [(Reg.AXIS.HOMECFG, 0x140002)]) .sig 0 .run) with sigs := [(20, ⟨0x30000000, 0x203, 0, 0⟩)], slots := [(20, { Slot.reset with never := false, value := 1, chg := 89000000 })] }, 9, true, 90000000, 1000000, 3, by decide +kernel⟩
theorem witness_limits_and_prickings_4b : ∃ (s : State) (n : Fin 128) (act : Bool) (t : Nat) (dt : Nat) (ph : Nat), (stOf s .axis n.val ≠ .off) ∧ (motion s n.val = 7) ∧ (sigHeld (s.at t) (rf s .axis n.val Reg.AXIS.HOMECFG 16 16) (act != rb s .axis n.val Reg.AXIS.CFG 10) (rf s .axis n.val Reg.AXIS.DEBOUNCE 16 16) = true) ∧ (sinceEdge (s.at t) (rf s .axis n.val Reg.AXIS.HOMECFG 16 16) dt = true) ∧ (act = true → (axisOf s n.val).hAt ≤ (slotOf s (rf s .axis n.val Reg.AXIS.HOMECFG 16 16)).chg + 8000 * rf s .axis n.val Reg.AXIS.DEBOUNCE 16 16) ∧ ((homeMethod s n.val, act, homePhase s n.val, ph) ∈ [(2, true, 1, 3), (2, true, 2, 3), (2, true, 4, 6), (3, true, 1, 3), (3, true, 2, 3), (3, true, 4, 5), (2, false, 3, 3), (3, false, 3, 3)]) :=
  ⟨{ (pin (regs (axH 3 3) .axis 9 [(Reg.AXIS.HOMECFG, 0x140003)]) .sig 0 .run) with sigs := [(20, ⟨0x30000000, 0x203, 0, 0⟩)], slots := [(20, { Slot.reset with never := false, value := 0, chg := 89000000 })] }, 9, false, 90000000, 1000000, 3, by decide +kernel⟩
theorem witness_limits_and_prickings_5 : ∃ (s : State) (n : Fin 4) (chk : BitVec 16), (ActsNow s .prk n.val 0x10 .ap0 chk) :=
  ⟨axT, 0, 0xFFEF, actsNow_of (by decide +kernel)⟩
def prkB : State := axT.modPage (pk .prk 0) (fun p => { p with busy := true, prog := progWord 1 1 0 })
theorem witness_limits_and_prickings_6 : ∃ (s : State) (n : Fin 4) (k : Nat), (powered s .prk n.val = true) ∧ ((s.page (pk .prk n.val)).busy = true) ∧ (k < 16) ∧ (SMap.get (fun _ => 0) s.prkSel n.val = k) :=
  ⟨prkB, 0, 0, by decide +kernel⟩
theorem witness_limits_and_prickings_6b : ∃ (s : State) (n : Fin 4) (k : Nat), (powered s .prk n.val = true) ∧ ((s.page (pk .prk n.val)).busy = true) ∧ (k < 16) ∧ (SMap.get (fun _ => 0) s.prkSel n.val = k) :=
  ⟨putMem32 (putMem32 (putMem32 (putMem32 prkB 0x60000018 1) 0x60000020 5) 0x60000038 1) 0x60000040 9, 0, 0, by decide +kernel⟩
theorem witness_limits_and_prickings_7 : ∃ (s : State) (m : Master) (a : Nat), (prkAddr 0 0 ≤ a) ∧ (a < prkAddr 4 0) ∧ (busEnd s m a true = .ok) ∧ ((prkCovers s ((a - 0x60000000) / 0x80000) ((a - 0x60000000) % 0x80000 / 32)).any (fun k => (prkInUse s ((a - 0x60000000) / 0x80000)).getLsbD k) = false) :=
  ⟨axT, .ap0, 0x60000022, by decide +kernel⟩
theorem witness_limits_and_prickings_8 : ∃ (s : State) (m : Master) (a : Nat), (prkAddr 0 0 ≤ a) ∧ (a < prkAddr 4 0) ∧ (busEnd s m a true = .ok) ∧ ((prkCovers s ((a - 0x60000000) / 0x80000) ((a - 0x60000000) % 0x80000 / 32)).any (fun k => (prkInUse s ((a - 0x60000000) / 0x80000)).getLsbD k) = true) :=
  ⟨regs axT .axis 9 [(Reg.AXIS.STAT, 0x804)], .ap0, 0x60000022, by decide +kernel⟩
theorem witness_limits_and_prickings_2 : ∃ (s : State) (n : Fin 128) (t : Nat) (neg : Bool), (limHeld (s.at t) n.val neg true = false) ∧ (limHeld (s.at t) n.val neg false = false) ∧ (stOf s .axis n.val ≠ .off) :=
  ⟨{ (pin (regs axT .axis 9 [(Reg.AXIS.CFG, 0x100), (Reg.AXIS.LIMCFG, 20), (Reg.AXIS.DEBOUNCE, 1000)]) .sig 0 .run) with sigs := [(20, ⟨0x30000000, 0x203, 0, 0⟩)], slots := [(20, { Slot.reset with never := false, value := 1, chg := 89000000 })] }, 9, 90000000, false, by decide +kernel⟩
theorem witness_limits_and_prickings_2b : ∃ (s : State) (n : Fin 128) (t : Nat) (neg : Bool), (limHeld (s.at t) n.val neg true = false) ∧ (limHeld (s.at t) n.val neg false = false) ∧ (stOf s .axis n.val ≠ .off) :=
  ⟨{ (pin (regs axT .axis 9 [(Reg.AXIS.CFG, 0x100), (Reg.AXIS.LIMCFG, 20), (Reg.AXIS.DEBOUNCE, 1000)]) .sig 0 .run) with sigs := [(20, ⟨0x30000000, 0x203, 0, 0⟩)], slots := [(20, { Slot.reset with never := false, value := 0, chg := 89000000 })] }, 9, 90000000, false, by decide +kernel⟩
def pcRun : State := regs (pin (pin up .pcmp 3 .run) .enc 5 .run) .pcmp 3 [(Reg.PCMP.CFG, 0x15), (Reg.PCMP.LATCH_CFG, 0x10003)]
def pcE : PcmpEnt := ⟨0x100000000, 0x100000000000, 1, 0, 5, 0, true, 0, false⟩
theorem witness_compare_events_1 : ∃ (s : State) (n : Fin 64) (t : Nat) (e : PcmpEnt) (rest : List PcmpEnt) (q : List PcmpEnt), (stOf s .pcmp n.val = .run) ∧ ((pcmpOf s n.val).q = e :: rest) ∧ (q = (if e.rep = 0 then rest else e.advance :: rest)) ∧ (pcmpReached (s.at t) n.val t = true) ∧ (∀ h, q.head? = some h → pcmpBehind s n.val t (pcmpAim s n.val h) = false) ∧ ((pcmpOf s n.val).next = none) :=
  ⟨setEnc (setPcmp (regs pcRun .enc 5 []) 3 { pcmpOf pcRun 3 with q := [pcE] }) 5 { encOf (setPcmp (regs pcRun .enc 5 []) 3 { pcmpOf pcRun 3 with q := [pcE] }) 5 with o := ⟨fine 0x100000000000, 0, 0, 90000000⟩ }, 3, 90000000, pcE, [], [], by decide +kernel⟩
theorem witness_compare_events_1b : ∃ (s : State) (n : Fin 64) (t : Nat) (e : PcmpEnt) (rest : List PcmpEnt) (q : List PcmpEnt), (stOf s .pcmp n.val = .run) ∧ ((pcmpOf s n.val).q = e :: rest) ∧ (q = (if e.rep = 0 then rest else e.advance :: rest)) ∧ (pcmpReached (s.at t) n.val t = true) ∧ (∀ h, q.head? = some h → pcmpBehind s n.val t (pcmpAim s n.val h) = false) ∧ ((pcmpOf s n.val).next = none) :=
  ⟨setEnc (setPcmp (regs pcRun .enc 5 []) 3 { pcmpOf pcRun 3 with q := [{ pcE with rep := 2, action := 1 }] }) 5 { encOf (setPcmp (regs pcRun .enc 5 []) 3 { pcmpOf pcRun 3 with q := [{ pcE with rep := 2, action := 1 }] }) 5 with o := ⟨fine 0x20000, 0, 0, 90000000⟩ }, 3, 90000000, { pcE with rep := 2, action := 1 }, [], [({ pcE with rep := 2, action := 1 } : PcmpEnt).advance], by decide +kernel⟩
theorem witness_compare_events_3 : ∃ (s : State) (n : Fin 64) (t : Nat) (e : Nat), (powered s .pcmp n.val = true) ∧ ((pcmpOf s n.val).pulse = some e) ∧ (e ≤ t) ∧ ((pcmpOf s n.val).next = none) :=
  ⟨setPcmp pcRun 3 { pcmpOf pcRun 3 with pulse := some 90000000 }, 3, 90000000, 90000000, by decide +kernel⟩
theorem witness_compare_events_4 : ∃ (s : State) (n : Fin 64) (te : Nat) (up : Bool), (stOf s .pcmp n.val = .run) ∧ (bit (rg s .pcmp n.val Reg.PCMP.LATCH_CFG) (if up then 0 else 1) = true) ∧ (rb s .pcmp n.val Reg.PCMP.LATCH_CFG 2 = true → s.trgSeen.getLsbD (rf s .pcmp n.val Reg.PCMP.LATCH_CFG 4 3) = up ∧ SMap.get (fun _ => 0) s.trgAt (rf s .pcmp n.val Reg.PCMP.LATCH_CFG 4 3) = te) :=
  ⟨pcRun, 3, (pcRun).now + 1000, true, by decide +kernel⟩
theorem witness_compare_events_4b : ∃ (s : State) (n : Fin 64) (te : Nat) (up : Bool), (stOf s .pcmp n.val = .run) ∧ (bit (rg s .pcmp n.val Reg.PCMP.LATCH_CFG) (if up then 0 else 1) = true) ∧ (rb s .pcmp n.val Reg.PCMP.LATCH_CFG 2 = true → s.trgSeen.getLsbD (rf s .pcmp n.val Reg.PCMP.LATCH_CFG 4 3) = up ∧ SMap.get (fun _ => 0) s.trgAt (rf s .pcmp n.val Reg.PCMP.LATCH_CFG 4 3) = te) :=
  ⟨setPcmp pcRun 3 { pcmpOf pcRun 3 with win := some (-5, 5, false) }, 3, (setPcmp pcRun 3 { pcmpOf pcRun 3 with win := some (-5, 5, false) }).now + 1000, false, by decide +kernel⟩
theorem witness_compare_events_5 : ∃ (s : State) (n : Fin 64) (t : Nat), (stOf s .pcmp n.val = .run) ∧ (rb s .pcmp n.val Reg.PCMP.LATCH_CFG 16 = true) ∧ (pcmpKind s n.val = 1) ∧ (encBack s (pcmpSrc s n.val) = false) ∧ (rgU64 s .pcmp n.val Reg.PCMP.WIN_PITCH_LO ≠ 0 ∨ (pcmpOf s n.val).winNext = 0) ∧ ((pcmpOf s n.val).win = none) ∧ ((pcmpWindow s n.val (pcmpOf s n.val).winNext).1 ≤ encPos (s.at t) (pcmpSrc s n.val) t) :=
  ⟨setEnc (regs pcRun .pcmp 3 [(Reg.PCMP.WIN_PITCH_LO, 0x100)]) 5 { encOf (regs pcRun .pcmp 3 [(Reg.PCMP.WIN_PITCH_LO, 0x100)]) 5 with o := ⟨fine 0x100, 0, 0, 90000000⟩ }, 3, 90000000, by decide +kernel⟩
theorem witness_compare_events_6 : ∃ (s : State) (n : Fin 64) (t : Nat) (w : Int) (e : Int) (got : Bool), (powered s .pcmp n.val = true) ∧ ((pcmpOf s n.val).win = some (w, e, got)) ∧ (e ≤ encPos (s.at t) (pcmpSrc s n.val) t) :=
  ⟨setEnc (setPcmp pcRun 3 { pcmpOf pcRun 3 with win := some (-5, 5, false) }) 5 { encOf (setPcmp pcRun 3 { pcmpOf pcRun 3 with win := some (-5, 5, false) }) 5 with o := ⟨fine 6, 0, 0, 90000000⟩ }, 3, 90000000, -5, 5, false, by decide +kernel⟩
theorem witness_compare_events_6b : ∃ (s : State) (n : Fin 64) (t : Nat) (w : Int) (e : Int) (got : Bool), (powered s .pcmp n.val = true) ∧ ((pcmpOf s n.val).win = some (w, e, got)) ∧ (e ≤ encPos (s.at t) (pcmpSrc s n.val) t) :=
  ⟨setEnc (setPcmp pcRun 3 { pcmpOf pcRun 3 with win := some (-5, 5, true) }) 5 { encOf (setPcmp pcRun 3 { pcmpOf pcRun 3 with win := some (-5, 5, true) }) 5 with o := ⟨fine 6, 0, 0, 90000000⟩ }, 3, 90000000, -5, 5, true, by decide +kernel⟩
theorem witness_compare_events_7 : ∃ (s : State) (n : Fin 64), (answers s ⟨.pcmp, n.val⟩ = true) :=
  ⟨pcRun, 3, by decide +kernel⟩
theorem witness_compare_events_7b : ∃ (s : State) (n : Fin 64), (answers s ⟨.pcmp, n.val⟩ = true) :=
  ⟨setPcmp pcRun 3 { pcmpOf pcRun 3 with lq := [⟨0x123456789A,5,true,false⟩, ⟨7,6,true,false⟩] }, 3, by decide +kernel⟩
theorem witness_compare_events_8 : ∃ (s : State) (n : Fin 64) (chk : BitVec 16), (ActsNow s .pcmp n.val 0x10 .ap0 chk) :=
  ⟨setPcmp pcRun 3 { pcmpOf pcRun 3 with q := [pcE] }, 3, 0xFFEF, actsNow_of (by decide +kernel)⟩
theorem witness_compare_events_9 : ∃ (s : State) (n : Fin 64) (chk : BitVec 16), (ActsNow s .pcmp n.val 0x11 .ap0 chk) :=
  ⟨setPcmp pcRun 3 { pcmpOf pcRun 3 with lq := [⟨0x123456789A,5,true,false⟩, ⟨7,6,true,false⟩] }, 3, 0xFFEE, actsNow_of (by decide +kernel)⟩
theorem witness_compare_events_2 : ∃ (s : State) (n : Fin 64) (t : Nat) (e : Nat) (a : Nat) (b : Nat), (powered s .pcmp n.val = true) ∧ ((pcmpOf s n.val).pulse = some e) ∧ (e ≤ t) ∧ ((pcmpOf s n.val).next = some (a, b)) ∧ (a ≤ t) :=
  ⟨setPcmp pcRun 3 { pcmpOf pcRun 3 with pulse := some 89999990, next := some (90000000, 90000040) }, 3, 90000001, 89999990, 90000000, 90000040, by decide +kernel⟩
def stRun : State := regs (pin (pin up .step 4 .run) .axis 9 .run) .step 4 [(Reg.STEP.CFG, 0x24), (Reg.STEP.LAG_LIM, 0)]
theorem witness_stepper_events_1 : ∃ (s : State) (n : Fin 64) (t : Nat) (c : Int) (d : Int), (stOf s .step n.val = .run) ∧ (rf s .step n.val Reg.STEP.CFG 0 2 = 0) ∧ (c = rg64 s .step n.val Reg.STEP.STEPS_LO) ∧ (d = stepPlaced s n.val t) ∧ (c ≠ d) ∧ (stepFree (s.at t) n.val t (decide (d < c)) = true) ∧ (rf s .step n.val Reg.STEP.LAG_LIM 0 16 = 0 ∨ (d - (if c < d then c + 1 else c - 1)).natAbs ≤ rf s .step n.val Reg.STEP.LAG_LIM 0 16) :=
  ⟨setStep stRun 4 ⟨0, 0x50000, 89990000, false, none, none, false⟩, 4, 90040000, 0, stepPlaced (setStep stRun 4 ⟨0, 0x50000, 89990000, false, none, none, false⟩) 4 90040000, by decide +kernel⟩
theorem witness_stepper_events_3 : ∃ (s : State) (n : Fin 64) (t : Nat), (stOf s .step n.val = .run) ∧ (rf s .step n.val Reg.STEP.CFG 0 2 = 1) ∧ (stepStands (s.at t) n.val t = true) :=
  ⟨setStep (regs stRun .step 4 [(Reg.STEP.CFG, 0x25), (Reg.STEP.AMP_HOLD, 0x123456), (Reg.STEP.STEPS_LO, 8)]) 4 ⟨0, 0, 0, false, none, some 0, false⟩, 4, 90000000, by decide +kernel⟩
def us : State := pin up .ustp 0 .idle
theorem witness_stepper_events_4 : ∃ (s : State), (answers s ⟨.ustp, 0⟩ = true) ∧ ((s.page (pk .ustp 0)).key ≠ .window) ∧ ((s.page (pk .ustp 0)).locked = false) :=
  ⟨us, by decide +kernel⟩
theorem witness_stepper_events_4b : ∃ (s : State), (answers s ⟨.ustp, 0⟩ = true) ∧ ((s.page (pk .ustp 0)).key ≠ .window) ∧ ((s.page (pk .ustp 0)).locked = false) :=
  ⟨us.modPage (pk .ustp 0) (fun p => { p with dirty := true }), by decide +kernel⟩
theorem witness_stepper_events_5 : ∃ (s : State), (powered s .ustp 0 = true) ∧ ((s.page (pk .ustp 0)).busy = true) :=
  ⟨regs (us.modPage (pk .ustp 0) (fun p => { p with busy := true })) .ustp 0 [(Reg.USTP.EDIT_SEL, 2)], by decide +kernel⟩
theorem witness_stepper_events_2 : ∃ (s : State) (n : Fin 64) (t : Nat) (c : Int) (d : Int), (stOf s .step n.val = .run) ∧ (rf s .step n.val Reg.STEP.CFG 0 2 = 0) ∧ (c = rg64 s .step n.val Reg.STEP.STEPS_LO) ∧ (d = stepPlaced s n.val t) ∧ (c ≠ d) ∧ (stepFree (s.at t) n.val t (decide (d < c)) = false) ∧ (rf s .step n.val Reg.STEP.LAG_LIM 0 16 = 0 ∨ (d - c).natAbs ≤ rf s .step n.val Reg.STEP.LAG_LIM 0 16) :=
  ⟨setStep (regs stRun .step 4 [(Reg.STEP.PULSE_T, 1000)]) 4 ⟨0, 0x50000, 89990000, false, some 90039990, none, false⟩, 4, 90040000, 0, stepPlaced (setStep (regs stRun .step 4 [(Reg.STEP.PULSE_T, 1000)]) 4 ⟨0, 0x50000, 89990000, false, some 90039990, none, false⟩) 4 90040000, by decide +kernel⟩
end Sys2Proof.Tests.W05
namespace Sys2Proof.Tests.W06
def lcB : State := regs (pin (pin up .lc 3 .run) .lsch 0 .run) .lsch 0 [(taskReg 4 0, 0x107), (taskReg 4 2, 0x1000), (taskReg 4 1, 0x123)]
def lcS (f : LcSt → LcSt) : State := setLc lcB 3 (f { LcSt.reset with act := .sample 4, cyc := 10, tick := 5, pc := 100 })
def xo (s : State) : LcSt := lcReady s 3
def a3 : LcAt := ⟨3, none⟩
def puts (l : List (Nat × Nat)) (x : LcSt) : LcSt := l.foldl (fun x e => x.put e.1 e.2) x
def sA : State := lcS (puts [(1, 0x123456), (2, 0x800000), (3, 0x7FFFFF), (32, 0x12345678901), (33, 0xF0000012345678)])
def sT : State := lcS (puts [(1, 0x123456), (2, 0x800000), (lcCtlKey 0 1, 4), (32, 0x7F000000000000)])
theorem witness_loop_accumulators_1 : ∃ (s : State) (a : LcAt) (mv : Option LcSlots) (len : Nat) (x : LcSt) (an : Fin 4) (am : Fin 4) (da : Fin 32) (db : Fin 32) (k : Fin 16) (c : Instr) (e : Int) (lat : Nat) (mul : Bool), ((mv = none ∧ len = 1) ∨ (mv = some ⟨0, 0⟩ ∧ len = 2)) ∧ (LcIssues s a len x) ∧ ((c, e, lat, mul) ∈ [(Instr.lcMpy a mv an da db, 2 * x.ds da * x.ds db, 3, true), (.lcMac a mv an da db, x.aFwd an + 2 * x.ds da * x.ds db, 3, true), (.lcMsu a mv an da db, x.aFwd an - 2 * x.ds da * x.ds db, 3, true), (.lcClra a mv an, 0, 1, false), (.lcAdda a mv an am, x.a an + x.a am, 1, false), (.lcSuba a mv an am, x.a an - x.a am, 1, false), (.lcNega a mv an, -x.a an, 1, false), (.lcAbsa a mv an, (x.a an).natAbs, 1, false), (.lcShla a mv an k, x.a an * 2 ^ k.val, 1, false), (.lcShra a mv an k, x.a an / 2 ^ k.val, 1, false), (.lcRnda a mv an, roundAcc x.rnd (x.a an) * 16777216, 1, false)]) ∧ (clampI (-36028797018963968) 36028797018963967 e ≠ e → x.reg (lcCtlKey x.level 1) / 4 % 2 = 0) :=
  ⟨sA, a3, none, 1, xo sA, 1, 0, 2, 2, 3, (Instr.lcMpy a3 none 1 2 2), 2 * (xo sA).ds 2 * (xo sA).ds 2, 3, true, by unfold LcIssues; decide +kernel⟩
theorem witness_loop_accumulators_1b : ∃ (s : State) (a : LcAt) (mv : Option LcSlots) (len : Nat) (x : LcSt) (an : Fin 4) (am : Fin 4) (da : Fin 32) (db : Fin 32) (k : Fin 16) (c : Instr) (e : Int) (lat : Nat) (mul : Bool), ((mv = none ∧ len = 1) ∨ (mv = some ⟨0, 0⟩ ∧ len = 2)) ∧ (LcIssues s a len x) ∧ ((c, e, lat, mul) ∈ [(Instr.lcMpy a mv an da db, 2 * x.ds da * x.ds db, 3, true), (.lcMac a mv an da db, x.aFwd an + 2 * x.ds da * x.ds db, 3, true), (.lcMsu a mv an da db, x.aFwd an - 2 * x.ds da * x.ds db, 3, true), (.lcClra a mv an, 0, 1, false), (.lcAdda a mv an am, x.a an + x.a am, 1, false), (.lcSuba a mv an am, x.a an - x.a am, 1, false), (.lcNega a mv an, -x.a an, 1, false), (.lcAbsa a mv an, (x.a an).natAbs, 1, false), (.lcShla a mv an k, x.a an * 2 ^ k.val, 1, false), (.lcShra a mv an k, x.a an / 2 ^ k.val, 1, false), (.lcRnda a mv an, roundAcc x.rnd (x.a an) * 16777216, 1, false)]) ∧ (clampI (-36028797018963968) 36028797018963967 e ≠ e → x.reg (lcCtlKey x.level 1) / 4 % 2 = 0) :=
  ⟨sA, a3, (some ⟨0, 0⟩), 2, xo sA, 1, 0, 2, 2, 3, (.lcRnda a3 (some ⟨0, 0⟩) 1), roundAcc (xo sA).rnd ((xo sA).a 1) * 16777216, 1, false, by unfold LcIssues; decide +kernel⟩
theorem witness_loop_accumulators_2 : ∃ (s : State) (a : LcAt) (mv : Option LcSlots) (len : Nat) (x : LcSt) (an : Fin 4) (da : Fin 32) (c : Instr) (v : Int) (sat : Bool), ((mv = none ∧ len = 1) ∨ (mv = some ⟨0, 0⟩ ∧ len = 2)) ∧ (LcIssues s a len x) ∧ ((c, v, sat) ∈ [(Instr.lcLda a mv an da, x.ds da * 16777216, false), (.lcSata a mv an, clampI (-140737488355328) 140737488355327 (x.a an), decide (clampI (-140737488355328) 140737488355327 (x.a an) ≠ x.a an))]) :=
  ⟨sA, a3, none, 1, xo sA, 1, 2, .lcLda a3 none 1 2, (xo sA).ds 2 * 16777216, false, by unfold LcIssues; decide +kernel⟩
theorem witness_loop_accumulators_2b : ∃ (s : State) (a : LcAt) (mv : Option LcSlots) (len : Nat) (x : LcSt) (an : Fin 4) (da : Fin 32) (c : Instr) (v : Int) (sat : Bool), ((mv = none ∧ len = 1) ∨ (mv = some ⟨0, 0⟩ ∧ len = 2)) ∧ (LcIssues s a len x) ∧ ((c, v, sat) ∈ [(Instr.lcLda a mv an da, x.ds da * 16777216, false), (.lcSata a mv an, clampI (-140737488355328) 140737488355327 (x.a an), decide (clampI (-140737488355328) 140737488355327 (x.a an) ≠ x.a an))]) :=
  ⟨sA, a3, none, 1, xo sA, 1, 2, .lcSata a3 none 1, clampI (-140737488355328) 140737488355327 ((xo sA).a 1), true, by unfold LcIssues; decide +kernel⟩
theorem witness_loop_accumulators_3 : ∃ (s : State) (a : LcAt) (x : LcSt) (an : Fin 4) (da : Fin 32) (db : Fin 32) (dd : Fin 32) (e : Int) (f : Int), (LcIssues s a 1 x) ∧ (e = x.aFwd an + 2 * x.ds da * x.ds db) ∧ (f = x.aFwd (Nat.xor an.val 1) + 2 * x.ds da * x.ds dd) ∧ (accOver e = false) ∧ (accOver f = false) :=
  ⟨sA, a3, xo sA, 0, 1, 3, 1, (xo sA).aFwd 0 + 2 * (xo sA).ds 1 * (xo sA).ds 3, (xo sA).aFwd 1 + 2 * (xo sA).ds 1 * (xo sA).ds 1, by unfold LcIssues; decide +kernel⟩
theorem witness_loop_accumulators_4 : ∃ (s : State) (a : LcAt) (mv : Option LcSlots) (len : Nat) (x : LcSt) (an : Fin 4) (r : Int), ((mv = none ∧ len = 1) ∨ (mv = some ⟨0, 0⟩ ∧ len = 2)) ∧ (LcIssues s a len x) ∧ (r = roundAcc x.rnd (x.a an)) :=
  ⟨sA, a3, none, 1, xo sA, 0, roundAcc (xo sA).rnd ((xo sA).a 0), by unfold LcIssues; decide +kernel⟩
theorem witness_loop_accumulators_4b : ∃ (s : State) (a : LcAt) (mv : Option LcSlots) (len : Nat) (x : LcSt) (an : Fin 4) (r : Int), ((mv = none ∧ len = 1) ∨ (mv = some ⟨0, 0⟩ ∧ len = 2)) ∧ (LcIssues s a len x) ∧ (r = roundAcc x.rnd (x.a an)) :=
  ⟨sA, a3, none, 1, xo sA, 1, roundAcc (xo sA).rnd ((xo sA).a 1), by unfold LcIssues; decide +kernel⟩
theorem witness_loop_accumulators_5 : ∃ (s : State) (a : LcAt) (x : LcSt) (an : Fin 4) (k : Fin 16), (LcIssues s a 1 x) ∧ (x.level < 2) ∧ (accOver (x.a an * 2 ^ k.val) = true) ∧ (x.reg (lcCtlKey x.level 1) / 4 % 2 = 1) ∧ (x.pend = []) ∧ (x.traps = []) :=
  ⟨sT, a3, xo sT, 0, 8, by unfold LcIssues; decide +kernel⟩
theorem witness_loop_data_operations_1 : ∃ (s : State) (a : LcAt) (mv : Option LcSlots) (len : Nat) (x : LcSt) (dd : Fin 32) (da : Fin 32) (db : Fin 32) (k : Fin 16) (c : Instr) (v : Int) (vf : Bool) (cf : Bool) (sov : Bool), ((mv = none ∧ len = 1) ∨ (mv = some ⟨0, 0⟩ ∧ len = 2)) ∧ (LcIssues s a len x) ∧ (k.val ≠ 0) ∧ ((c, v, vf, cf, sov) ∈ [ (Instr.lcAdd a mv dd da db, x.ds da + x.ds db, d24Over (x.ds da + x.ds db), decide (16777216 ≤ x.d da + x.d db), false), (.lcSub a mv dd da db, x.ds da - x.ds db, d24Over (x.ds da - x.ds db), decide (x.d db ≤ x.d da), false), (.lcAdds a mv dd da db, clampI (-8388608) 8388607 (x.ds da + x.ds db), false, decide (16777216 ≤ x.d da + x.d db), d24Over (x.ds da + x.ds db)), (.lcSubs a mv dd da db, clampI (-8388608) 8388607 (x.ds da - x.ds db), false, decide (x.d db ≤ x.d da), d24Over (x.ds da - x.ds db)), (.lcNeg a mv dd da, -x.ds da, d24Over (-x.ds da), false, false), (.lcAbs a mv dd da, min ((x.ds da).natAbs : Int) 8388607, false, false, decide (x.ds da = -8388608)), (.lcAnd a mv dd da db, (Nat.land (x.d da) (x.d db) : Nat), false, false, false), (.lcOr a mv dd da db, (Nat.lor (x.d da) (x.d db) : Nat), false, false, false), (.lcXor a mv dd da db, (Nat.xor (x.d da) (x.d db) : Nat), false, false, false), (.lcMin a mv dd da db, min (x.ds da) (x.ds db), false, false, false), (.lcMax a mv dd da db, max (x.ds da) (x.ds db), false, false, false), (.lcClip a mv dd da db, clampI (-(absClip (x.ds db))) (absClip (x.ds db)) (x.ds da), false, decide (clampI (-(absClip (x.ds db))) (absClip (x.ds db)) (x.ds da) ≠ x.ds da), false), (.lcShl a mv dd da k, x.ds da * 2 ^ k.val, d24Over (x.ds da * 2 ^ k.val), decide (x.d da / 2 ^ (24 - k.val) % 2 = 1), false), (.lcShr a mv dd da k, x.ds da / 2 ^ k.val, false, decide (x.d da / 2 ^ (k.val - 1) % 2 = 1), false), (.lcShrl a mv dd da k, (x.d da / 2 ^ k.val : Nat), false, decide (x.d da / 2 ^ (k.val - 1) % 2 = 1), false)]) :=
  ⟨sA, a3, none, 1, xo sA, 17, 1, 2, 5, Instr.lcAdd a3 none 17 1 2, ((xo sA).ds 1 + (xo sA).ds 2), d24Over ((xo sA).ds 1 + (xo sA).ds 2), decide (16777216 ≤ (xo sA).d 1 + (xo sA).d 2), false, by unfold LcIssues; decide +kernel⟩
theorem witness_loop_data_operations_1b : ∃ (s : State) (a : LcAt) (mv : Option LcSlots) (len : Nat) (x : LcSt) (dd : Fin 32) (da : Fin 32) (db : Fin 32) (k : Fin 16) (c : Instr) (v : Int) (vf : Bool) (cf : Bool) (sov : Bool), ((mv = none ∧ len = 1) ∨ (mv = some ⟨0, 0⟩ ∧ len = 2)) ∧ (LcIssues s a len x) ∧ (k.val ≠ 0) ∧ ((c, v, vf, cf, sov) ∈ [ (Instr.lcAdd a mv dd da db, x.ds da + x.ds db, d24Over (x.ds da + x.ds db), decide (16777216 ≤ x.d da + x.d db), false), (.lcSub a mv dd da db, x.ds da - x.ds db, d24Over (x.ds da - x.ds db), decide (x.d db ≤ x.d da), false), (.lcAdds a mv dd da db, clampI (-8388608) 8388607 (x.ds da + x.ds db), false, decide (16777216 ≤ x.d da + x.d db), d24Over (x.ds da + x.ds db)), (.lcSubs a mv dd da db, clampI (-8388608) 8388607 (x.ds da - x.ds db), false, decide (x.d db ≤ x.d da), d24Over (x.ds da - x.ds db)), (.lcNeg a mv dd da, -x.ds da, d24Over (-x.ds da), false, false), (.lcAbs a mv dd da, min ((x.ds da).natAbs : Int) 8388607, false, false, decide (x.ds da = -8388608)), (.lcAnd a mv dd da db, (Nat.land (x.d da) (x.d db) : Nat), false, false, false), (.lcOr a mv dd da db, (Nat.lor (x.d da) (x.d db) : Nat), false, false, false), (.lcXor a mv dd da db, (Nat.xor (x.d da) (x.d db) : Nat), false, false, false), (.lcMin a mv dd da db, min (x.ds da) (x.ds db), false, false, false), (.lcMax a mv dd da db, max (x.ds da) (x.ds db), false, false, false), (.lcClip a mv dd da db, clampI (-(absClip (x.ds db))) (absClip (x.ds db)) (x.ds da), false, decide (clampI (-(absClip (x.ds db))) (absClip (x.ds db)) (x.ds da) ≠ x.ds da), false), (.lcShl a mv dd da k, x.ds da * 2 ^ k.val, d24Over (x.ds da * 2 ^ k.val), decide (x.d da / 2 ^ (24 - k.val) % 2 = 1), false), (.lcShr a mv dd da k, x.ds da / 2 ^ k.val, false, decide (x.d da / 2 ^ (k.val - 1) % 2 = 1), false), (.lcShrl a mv dd da k, (x.d da / 2 ^ k.val : Nat), false, decide (x.d da / 2 ^ (k.val - 1) % 2 = 1), false)]) :=
  ⟨sA, a3, none, 1, xo sA, 17, 3, 3, 5, Instr.lcShrl a3 none 17 3 5, (((xo sA).d 3 / 2 ^ 5 : Nat)), false, decide ((xo sA).d 3 / 2 ^ (5 - 1) % 2 = 1), false, by unfold LcIssues; decide +kernel⟩
theorem witness_loop_data_operations_2 : ∃ (s : State) (a : LcAt) (x : LcSt) (dd : Fin 32) (da : Fin 32) (c : Instr), (LcIssues s a 1 x) ∧ (c ∈ [Instr.lcShl a none dd da 0, .lcShr a none dd da 0, .lcShrl a none dd da 0]) :=
  ⟨sA, a3, xo sA, 17, 2, Instr.lcShl a3 none 17 2 0, by unfold LcIssues; decide +kernel⟩
theorem witness_loop_data_operations_2b : ∃ (s : State) (a : LcAt) (x : LcSt) (dd : Fin 32) (da : Fin 32) (c : Instr), (LcIssues s a 1 x) ∧ (c ∈ [Instr.lcShl a none dd da 0, .lcShr a none dd da 0, .lcShrl a none dd da 0]) :=
  ⟨sA, a3, xo sA, 17, 2, Instr.lcShrl a3 none 17 2 0, by unfold LcIssues; decide +kernel⟩
theorem witness_loop_data_operations_3 : ∃ (s : State) (a : LcAt) (mv : Option LcSlots) (len : Nat) (x : LcSt) (da : Fin 32) (db : Fin 32) (r : Nat), ((mv = none ∧ len = 1) ∨ (mv = some ⟨0, 0⟩ ∧ len = 2)) ∧ (LcIssues s a len x) ∧ (r = ((x.ds da - x.ds db) % 16777216).toNat) :=
  ⟨sA, a3, none, 1, xo sA, 1, 2, (((xo sA).ds 1 - (xo sA).ds 2) % 16777216).toNat, by unfold LcIssues; decide +kernel⟩
theorem witness_loop_moves_1 : ∃ (s : State) (a : LcAt) (x : LcSt), (LcIssues s a 1 x) :=
  ⟨sA, a3, xo sA, by unfold LcIssues; decide +kernel⟩
theorem witness_loop_moves_3 : ∃ (s : State) (a : LcAt) (x : LcSt) (rd : Fin 64) (rs : Fin 64) (imm : BitVec 20) (c : Instr) (v : Nat), (LcIssues s a 1 x) ∧ (rd.val < 60) ∧ (¬(32 ≤ rd.val ∧ rd.val < 36)) ∧ (rs.val < 60) ∧ (¬(32 ≤ rs.val ∧ rs.val < 36)) ∧ ((c, v) ∈ [(Instr.lcMov a rd rs, x.value24 rs), (.lcMovi a rd imm, (imm.toInt % 16777216).toNat)]) :=
  ⟨sA, a3, xo sA, 5, 1, 0x80001, Instr.lcMov a3 5 1, (xo sA).value24 1, by unfold LcIssues; decide +kernel⟩
theorem witness_loop_moves_3b : ∃ (s : State) (a : LcAt) (x : LcSt) (rd : Fin 64) (rs : Fin 64) (imm : BitVec 20) (c : Instr) (v : Nat), (LcIssues s a 1 x) ∧ (rd.val < 60) ∧ (¬(32 ≤ rd.val ∧ rd.val < 36)) ∧ (rs.val < 60) ∧ (¬(32 ≤ rs.val ∧ rs.val < 36)) ∧ ((c, v) ∈ [(Instr.lcMov a rd rs, x.value24 rs), (.lcMovi a rd imm, (imm.toInt % 16777216).toNat)]) :=
  ⟨sA, a3, xo sA, 45, 1, 0x80001, Instr.lcMovi a3 45 0x80001, ((0x80001 : BitVec 20).toInt % 16777216).toNat, by unfold LcIssues; decide +kernel⟩
theorem witness_loop_moves_4 : ∃ (s : State) (a : LcAt) (x : LcSt) (rd : Fin 64), (LcIssues s a 2 x) ∧ (rd.val < 60) :=
  ⟨sA, a3, xo sA, 5, by unfold LcIssues; decide +kernel⟩
theorem witness_loop_moves_4b : ∃ (s : State) (a : LcAt) (x : LcSt) (rd : Fin 64), (LcIssues s a 2 x) ∧ (rd.val < 60) :=
  ⟨sA, a3, xo sA, 59, by unfold LcIssues; decide +kernel⟩
theorem witness_loop_moves_5 : ∃ (ctl : Fin 64) (w : Nat), ((ctl.val, w) ∈ [(2, 4), (3, 24), (4, 14), (5, 14), (6, 16), (7, 32), (8, 32)]) :=
  ⟨2, 4, by decide +kernel⟩
theorem witness_loop_moves_5b : ∃ (ctl : Fin 64) (w : Nat), ((ctl.val, w) ∈ [(2, 4), (3, 24), (4, 14), (5, 14), (6, 16), (7, 32), (8, 32)]) :=
  ⟨5, 14, by decide +kernel⟩
theorem witness_loop_moves_6 : ∃ (s : State) (a : LcAt) (x : LcSt) (rs : Fin 64) (w : Word) (v : Word) (c : Instr), (LcIssues s a 1 x) ∧ (x.level < 2) ∧ (60 ≤ rs.val) ∧ (x.noTrap 4) ∧ (lcDecode a w v = none) ∧ (c ∈ [Instr.lcMov a rs 0, .lcMov a 0 rs, .lcMovi a rs 0, .lcMvcToControl a 2 rs, .lcIllegalBundle a w v]) :=
  ⟨sA, a3, xo sA, 61, 0x7F000000, 0, Instr.lcMov a3 61 0, by unfold LcIssues LcSt.noTrap; decide +kernel⟩
theorem witness_loop_moves_6b : ∃ (s : State) (a : LcAt) (x : LcSt) (rs : Fin 64) (w : Word) (v : Word) (c : Instr), (LcIssues s a 1 x) ∧ (x.level < 2) ∧ (60 ≤ rs.val) ∧ (x.noTrap 4) ∧ (lcDecode a w v = none) ∧ (c ∈ [Instr.lcMov a rs 0, .lcMov a 0 rs, .lcMovi a rs 0, .lcMvcToControl a 2 rs, .lcIllegalBundle a w v]) :=
  ⟨sA, a3, xo sA, 61, 0x7F000000, 0, .lcIllegalBundle a3 0x7F000000 0, by unfold LcIssues LcSt.noTrap; decide +kernel⟩
theorem witness_loop_moves_2 : ∃ (s : State) (a : LcAt) (x : LcSt), (LcIssues s a 2 x) :=
  ⟨sA, a3, xo sA, by unfold LcIssues; decide +kernel⟩
def sM : State := putMem32 (putMem32 (lcS (puts [(1, 0x123456), (2, 0x800000), (32, 0x12345678901), (33, 0xF0000012345678), (36, 0x20), (40 + 384, 0x30), (37, 0x41)])) (lcAddr 3 1 0x20) 0xFFAABBCC) (lcAddr 3 1 0x21) 0x12345678
def acc (s : State) (p am : Nat) (o : Int) (b : Bool) : Nat := (((xo s).access p am o b).map Prod.fst).getD 0
def acq (s : State) (p am : Nat) (o : Int) (b : Bool) : Option Nat := (((xo s).access p am o b).map Prod.snd).getD none
theorem witness_loop_memory_1 : ∃ (s : State) (a : LcAt) (x : LcSt) (p : Fin 8) (am : Fin 8) (ofs : BitVec 11) (reg : Fin 64) (w : Nat) (q : Option Nat), (LcIssues s a 1 x) ∧ (x.access p am ofs.toInt false = some (w, q)) ∧ (reg.val < 60) :=
  ⟨sM, a3, xo sM, 0, 0, 0x7FF, 2, acc sM 0 0 (-1) false, acq sM 0 0 (-1) false, by unfold LcIssues; decide +kernel⟩
theorem witness_loop_memory_1b : ∃ (s : State) (a : LcAt) (x : LcSt) (p : Fin 8) (am : Fin 8) (ofs : BitVec 11) (reg : Fin 64) (w : Nat) (q : Option Nat), (LcIssues s a 1 x) ∧ (x.access p am ofs.toInt false = some (w, q)) ∧ (reg.val < 60) :=
  ⟨sM, a3, xo sM, 0, 6, 0x7FF, 37, acc sM 0 6 (-1) false, acq sM 0 6 (-1) false, by unfold LcIssues; decide +kernel⟩
theorem witness_loop_memory_2 : ∃ (s : State) (a : LcAt) (x : LcSt) (p : Fin 8) (am : Fin 8) (ofs : BitVec 11) (reg : Fin 64) (w : Nat) (q : Option Nat), (LcIssues s a 1 x) ∧ (s.lschOp = none) ∧ (x.access p am ofs.toInt false = some (w, q)) ∧ (32 ≤ reg.val) ∧ (reg.val < 36) :=
  ⟨sM, a3, xo sM, 4, 1, 0x7FF, 32, acc sM 4 1 (-1) false, acq sM 4 1 (-1) false, by unfold LcIssues; decide +kernel⟩
theorem witness_loop_memory_2b : ∃ (s : State) (a : LcAt) (x : LcSt) (p : Fin 8) (am : Fin 8) (ofs : BitVec 11) (reg : Fin 64) (w : Nat) (q : Option Nat), (LcIssues s a 1 x) ∧ (s.lschOp = none) ∧ (x.access p am ofs.toInt false = some (w, q)) ∧ (32 ≤ reg.val) ∧ (reg.val < 36) :=
  ⟨sM, a3, xo sM, 4, 1, 0x7FF, 33, acc sM 4 1 (-1) false, acq sM 4 1 (-1) false, by unfold LcIssues; decide +kernel⟩
theorem witness_loop_memory_3 : ∃ (s : State) (a : LcAt) (x : LcSt) (p : Fin 8) (am : Fin 8) (ofs : BitVec 11) (reg : Fin 64) (w : Nat) (r : Nat) (q : Option Nat), (LcIssues s a 1 x) ∧ (x.access p am ofs.toInt true = some (w, q)) ∧ (reg.val < 60) ∧ (¬(32 ≤ reg.val ∧ reg.val < 36)) ∧ (pairNext reg = some r) :=
  ⟨sM, a3, xo sM, 0, 1, 0x7FF, 2, acc sM 0 1 (-1) true, 3, acq sM 0 1 (-1) true, by unfold LcIssues; decide +kernel⟩
theorem witness_loop_memory_3b : ∃ (s : State) (a : LcAt) (x : LcSt) (p : Fin 8) (am : Fin 8) (ofs : BitVec 11) (reg : Fin 64) (w : Nat) (r : Nat) (q : Option Nat), (LcIssues s a 1 x) ∧ (x.access p am ofs.toInt true = some (w, q)) ∧ (reg.val < 60) ∧ (¬(32 ≤ reg.val ∧ reg.val < 36)) ∧ (pairNext reg = some r) :=
  ⟨sM, a3, xo sM, 0, 1, 0x7FF, 38, acc sM 0 1 (-1) true, 39, acq sM 0 1 (-1) true, by unfold LcIssues; decide +kernel⟩
theorem witness_loop_memory_4 : ∃ (s : State) (a : LcAt) (x : LcSt) (p : Fin 8) (am : Fin 8) (ofs : BitVec 11) (w : Nat) (q : Option Nat), (LcIssues s a 1 x) ∧ (x.access p am ofs.toInt true = some (w, q)) :=
  ⟨sM, a3, xo sM, 1, 1, 0x7FF, acc sM 1 1 (-1) true, acq sM 1 1 (-1) true, by unfold LcIssues; decide +kernel⟩
theorem witness_loop_memory_4b : ∃ (s : State) (a : LcAt) (x : LcSt) (p : Fin 8) (am : Fin 8) (ofs : BitVec 11) (w : Nat) (q : Option Nat), (LcIssues s a 1 x) ∧ (x.access p am ofs.toInt true = some (w, q)) :=
  ⟨sM, a3, xo sM, 0, 6, 0x20, acc sM 0 6 32 true, acq sM 0 6 32 true, by unfold LcIssues; decide +kernel⟩
theorem witness_loop_memory_5 : ∃ (s : State) (a : LcAt) (x : LcSt) (p : Fin 8) (am : Fin 4) (w : Nat) (q : Option Nat), (LcIssues s a 2 x) ∧ (x.access p am 0 false = some (w, q)) :=
  ⟨sM, a3, xo sM, 0, 1, acc sM 0 1 0 false, acq sM 0 1 0 false, by unfold LcIssues; decide +kernel⟩
theorem witness_loop_memory_5b : ∃ (s : State) (a : LcAt) (x : LcSt) (p : Fin 8) (am : Fin 4) (w : Nat) (q : Option Nat), (LcIssues s a 2 x) ∧ (x.access p am 0 false = some (w, q)) :=
  ⟨sM, a3, xo sM, 0, 2, acc sM 0 2 0 false, acq sM 0 2 0 false, by unfold LcIssues; decide +kernel⟩
theorem witness_loop_memory_6 : ∃ (s : State) (a : LcAt) (x : LcSt) (clr : Bool) (an : Fin 4) (px : Fin 8) (py : Fin 8) (wx : Nat) (wy : Nat) (e : Int), (LcIssues s a 1 x) ∧ (s.lschOp = none) ∧ (lKind (x.code (52 + px.val)) = 0) ∧ (lKind (x.code (52 + py.val)) = 0) ∧ (px ≠ py) ∧ (wx = x.code (36 + px.val) / 2 * 2) ∧ (wy = x.code (36 + py.val) / 2 * 2) ∧ (e = 2 * sext 24 (x.reg (lcCtlKey x.level 3)) * sext 24 (lcMem s a.core 2 wy).toNat + 2 * sext 24 (lcMem s a.core 1 wx).toNat * sext 24 (lcMem s a.core 2 (wy + 1)).toNat + (if clr then 0 else x.aFwd an)) ∧ (accOver e = false) :=
  ⟨sM, a3, xo sM, true, 0, 0, 4, 0x20, 0x30, 2 * sext 24 ((xo sM).reg (lcCtlKey (xo sM).level 3)) * sext 24 (lcMem sM 3 2 0x30).toNat + 2 * sext 24 (lcMem sM 3 1 0x20).toNat * sext 24 (lcMem sM 3 2 (0x30 + 1)).toNat + 0, by unfold LcIssues; decide +kernel⟩
theorem witness_loop_memory_6b : ∃ (s : State) (a : LcAt) (x : LcSt) (clr : Bool) (an : Fin 4) (px : Fin 8) (py : Fin 8) (wx : Nat) (wy : Nat) (e : Int), (LcIssues s a 1 x) ∧ (s.lschOp = none) ∧ (lKind (x.code (52 + px.val)) = 0) ∧ (lKind (x.code (52 + py.val)) = 0) ∧ (px ≠ py) ∧ (wx = x.code (36 + px.val) / 2 * 2) ∧ (wy = x.code (36 + py.val) / 2 * 2) ∧ (e = 2 * sext 24 (x.reg (lcCtlKey x.level 3)) * sext 24 (lcMem s a.core 2 wy).toNat + 2 * sext 24 (lcMem s a.core 1 wx).toNat * sext 24 (lcMem s a.core 2 (wy + 1)).toNat + (if clr then 0 else x.aFwd an)) ∧ (accOver e = false) :=
  ⟨sM, a3, xo sM, false, 0, 0, 4, 0x20, 0x30, 2 * sext 24 ((xo sM).reg (lcCtlKey (xo sM).level 3)) * sext 24 (lcMem sM 3 2 0x30).toNat + 2 * sext 24 (lcMem sM 3 1 0x20).toNat * sext 24 (lcMem sM 3 2 (0x30 + 1)).toNat + (xo sM).aFwd 0, by unfold LcIssues; decide +kernel⟩
theorem witness_loop_flow_1 : ∃ (s : State) (a : LcAt) (x : LcSt) (cond : Fin 16) (tgt : BitVec 14) (c : Instr) (f : LcFlow), (LcIssues s a 1 x) ∧ (cond.val ≠ 15) ∧ ((c, f) ∈ [(Instr.lcBr a cond tgt, .jump tgt.toNat), (.lcCall a cond tgt, .call tgt.toNat x.cyc), (.lcRet a cond, .jump (x.reg (lcCtlKey x.level 4))), (.lcBreak a cond, .brk)]) :=
  ⟨sA, a3, xo sA, 14, 77, Instr.lcBr a3 14 77, .jump 77, by unfold LcIssues; decide +kernel⟩
theorem witness_loop_flow_1b : ∃ (s : State) (a : LcAt) (x : LcSt) (cond : Fin 16) (tgt : BitVec 14) (c : Instr) (f : LcFlow), (LcIssues s a 1 x) ∧ (cond.val ≠ 15) ∧ ((c, f) ∈ [(Instr.lcBr a cond tgt, .jump tgt.toNat), (.lcCall a cond tgt, .call tgt.toNat x.cyc), (.lcRet a cond, .jump (x.reg (lcCtlKey x.level 4))), (.lcBreak a cond, .brk)]) :=
  ⟨sA, a3, xo sA, 2, 77, .lcBreak a3 2, .brk, by unfold LcIssues; decide +kernel⟩
def sF (f : LcFlow) : State := lcS (fun x => x.setSlot (some f))
theorem witness_loop_flow_2 : ∃ (s : State) (a : LcAt) (x : LcSt), (lcRuns s a.core.val = true) ∧ (a.err = none) ∧ (x = lcReady s a.core.val) ∧ (x.level = 0 → lcDue (setLc s a.core.val x) a.core.val = false) ∧ (∀ d ∈ x.traps, x.cyc + 1 < d) ∧ (x.stack = []) :=
  ⟨sF (.jump 55), a3, xo (sF (.jump 55)), by decide +kernel⟩
theorem witness_loop_flow_2b : ∃ (s : State) (a : LcAt) (x : LcSt), (lcRuns s a.core.val = true) ∧ (a.err = none) ∧ (x = lcReady s a.core.val) ∧ (x.level = 0 → lcDue (setLc s a.core.val x) a.core.val = false) ∧ (∀ d ∈ x.traps, x.cyc + 1 < d) ∧ (x.stack = []) :=
  ⟨sF (.brk), a3, xo (sF (.brk)), by decide +kernel⟩
def sR (n last : Nat) : State := lcS (fun x => x.setStack [⟨98, last, n, false⟩])
theorem witness_loop_flow_3 : ∃ (s : State) (a : LcAt) (x : LcSt) (r : LcRep) (l : List LcRep), (lcRuns s a.core.val = true) ∧ (a.err = none) ∧ (x = lcReady s a.core.val) ∧ (x.level = 0 → lcDue (setLc s a.core.val x) a.core.val = false) ∧ (∀ d ∈ x.traps, x.cyc + 1 < d) ∧ (x.slot = none) ∧ (x.stack = r :: l) ∧ (r.last = x.pc) ∧ (r.rot = false) :=
  ⟨sR 1 100, a3, xo (sR 1 100), ⟨98, 100, 1, false⟩, [], by decide +kernel⟩
theorem witness_loop_flow_3b : ∃ (s : State) (a : LcAt) (x : LcSt) (r : LcRep) (l : List LcRep), (lcRuns s a.core.val = true) ∧ (a.err = none) ∧ (x = lcReady s a.core.val) ∧ (x.level = 0 → lcDue (setLc s a.core.val x) a.core.val = false) ∧ (∀ d ∈ x.traps, x.cyc + 1 < d) ∧ (x.slot = none) ∧ (x.stack = r :: l) ∧ (r.last = x.pc) ∧ (r.rot = false) :=
  ⟨sR 2 100, a3, xo (sR 2 100), ⟨98, 100, 2, false⟩, [], by decide +kernel⟩
def sB (k : Nat) : State := lcS (fun x => (x.setStack ((List.range k).map (fun i => ⟨98-i, 200+i, 3, false⟩))).put 1 0x50003)
theorem witness_loop_flow_4 : ∃ (s : State) (a : LcAt) (x : LcSt) (reg : Option (Fin 32)) (cnt : BitVec 16) (last : BitVec 8) (k : Nat), (LcIssues s a 1 x) ∧ (last ≠ 0) ∧ (k = (match reg with | some r => x.d r % 65536 | none => cnt.toNat)) :=
  ⟨sB 0, a3, xo (sB 0), none, 7, 9, 7, by unfold LcIssues; decide +kernel⟩
theorem witness_loop_flow_4b : ∃ (s : State) (a : LcAt) (x : LcSt) (reg : Option (Fin 32)) (cnt : BitVec 16) (last : BitVec 8) (k : Nat), (LcIssues s a 1 x) ∧ (last ≠ 0) ∧ (k = (match reg with | some r => x.d r % 65536 | none => cnt.toNat)) :=
  ⟨sB 4, a3, xo (sB 4), (some 1), 0, 9, 3, by unfold LcIssues; decide +kernel⟩
theorem witness_loop_flow_5 : ∃ (s : State) (c : Fin 18) (r : LcRep), (lcRuns s c.val = true) ∧ ((lcOf s c.val).stack = [r]) ∧ (r.cnt = 0) :=
  ⟨sR 0 100, 3, ⟨98, 100, 0, false⟩, by decide +kernel⟩
def sI : State := lcS (fun x => { (puts [(lcCtlKey 1 5, 0x99), (lcPlvlKey 1, 0)] x) with level := 1 })
theorem witness_loop_flow_6 : ∃ (s : State) (a : LcAt) (x : LcSt) (cond : Fin 16), (LcIssues s a 1 x) ∧ (cond.val ≠ 15) ∧ (x.level ≠ 0) ∧ (x.noTrap 3) :=
  ⟨sI, a3, xo sI, 0, by unfold LcIssues LcSt.noTrap; decide +kernel⟩
theorem witness_loop_flow_7 : ∃ (s : State) (a : LcAt) (x : LcSt) (cond : Fin 16), (LcIssues s a 1 x) ∧ (cond.val ≠ 15) ∧ (x.level < 2) ∧ (x.noTrap 5) :=
  ⟨sI, a3, xo sI, 0, by unfold LcIssues LcSt.noTrap; decide +kernel⟩
theorem witness_loop_flow_6b : ∃ (s : State) (a : LcAt) (x : LcSt) (cond : Fin 16), (LcIssues s a 1 x) ∧ (cond.val ≠ 15) ∧ (x.level ≠ 0) ∧ (x.noTrap 3) :=
  ⟨sI, a3, xo sI, 14, by unfold LcIssues LcSt.noTrap; decide +kernel⟩
theorem witness_loop_flow_7b : ∃ (s : State) (a : LcAt) (x : LcSt) (cond : Fin 16), (LcIssues s a 1 x) ∧ (cond.val ≠ 15) ∧ (x.level < 2) ∧ (x.noTrap 5) :=
  ⟨sA, a3, xo sA, 14, by unfold LcIssues LcSt.noTrap; decide +kernel⟩
theorem witness_loop_ports_and_samples_1 : ∃ (s : State) (a : LcAt) (x : LcSt) (reg : Fin 64), (LcIssues s a 1 x) ∧ (reg.val < 32) :=
  ⟨sA, a3, xo sA, 7, by unfold LcIssues; decide +kernel⟩
theorem witness_loop_ports_and_samples_1b : ∃ (s : State) (a : LcAt) (x : LcSt) (reg : Fin 64), (LcIssues s a 1 x) ∧ (reg.val < 32) :=
  ⟨sA, a3, xo sA, 7, by unfold LcIssues; decide +kernel⟩
theorem witness_loop_ports_and_samples_2 : ∃ (s : State) (a : LcAt) (x : LcSt) (reg : Fin 64) (port : Fin 2048), (LcIssues s a 1 x) ∧ (reg.val < 32) ∧ (portOutOk port.val = true) :=
  ⟨sA, a3, xo sA, 2, 0x410, by unfold LcIssues; decide +kernel⟩
theorem witness_loop_ports_and_samples_2b : ∃ (s : State) (a : LcAt) (x : LcSt) (reg : Fin 64) (port : Fin 2048), (LcIssues s a 1 x) ∧ (reg.val < 32) ∧ (portOutOk port.val = true) :=
  ⟨sA, a3, xo sA, 2, 0x545, by unfold LcIssues; decide +kernel⟩
def sE : State := lcS (fun x => { x with out := [(0x545, 0x800001)] })
theorem witness_loop_ports_and_samples_3 : ∃ (s : State) (a : LcAt) (x : LcSt) (t : Nat) (w : Nat) (v : Nat), (LcIssues s a 1 x) ∧ (x.level = 0) ∧ (x.act = .sample t) ∧ (w < 64) ∧ (x.out = [(0x540 + w, v)]) :=
  ⟨sE, a3, xo sE, 4, 5, 0x800001, by unfold LcIssues; decide +kernel⟩
def sG : State := lcS (puts [(2, 0x800007), (lcCtlKey 0 7, 0x10000000), (lcCtlKey 0 8, 0x10000100)])
theorem witness_loop_ports_and_samples_4 : ∃ (s : State) (a : LcAt) (x : LcSt) (g1 : Bool) (reg : Fin 64) (ofs : BitVec 17) (stall : Nat) (ad : Nat), (LcIssues s a 1 x) ∧ (reg.val < 32) ∧ (ad = x.reg (lcCtlKey x.level (if g1 then 8 else 7)) + 4 * ofs.toNat) ∧ (ad % 4 = 0) ∧ (regionOf ad = .sram) ∧ (x.noTrap (1 + stall)) :=
  ⟨sG, a3, xo sG, false, 2, 4, 5, 0x10000010, by unfold LcIssues LcSt.noTrap; decide +kernel⟩
theorem witness_loop_ports_and_samples_4b : ∃ (s : State) (a : LcAt) (x : LcSt) (g1 : Bool) (reg : Fin 64) (ofs : BitVec 17) (stall : Nat) (ad : Nat), (LcIssues s a 1 x) ∧ (reg.val < 32) ∧ (ad = x.reg (lcCtlKey x.level (if g1 then 8 else 7)) + 4 * ofs.toNat) ∧ (ad % 4 = 0) ∧ (regionOf ad = .sram) ∧ (x.noTrap (1 + stall)) :=
  ⟨sG, a3, xo sG, true, 2, 4, 5, 0x10000110, by unfold LcIssues LcSt.noTrap; decide +kernel⟩
def sV : State := (regs (mod (regs sA .lc 3 [(Reg.LC.IRQV, 0x8005)]) .lsch 0 (fun p => { p with intRaw := 1, intEn := 1 })) .lc 3 [(Reg.LC.IRQV, 0x8005)])
def sV2 : State := { sV with irqOn := (BitVec.ofNat _ 32) }
theorem witness_loop_ports_and_samples_5 : ∃ (s : State) (c : Fin 18) (v : Fin 32) (x : LcSt) (lvl : Nat), (x = lcReady s c.val) ∧ (lvl = irqvLevel s c.val v.val) ∧ (lcUp s c.val = true) ∧ (irqvEn s c.val v.val = true) ∧ (s.irqOn.getLsbD (irqvLine s c.val v.val) = true) ∧ (x.level < lvl) ∧ (x.reg (lcFlagKey x.level (9 + lvl)) % 2 = 1) ∧ (x.slot = none) ∧ (irqRouted s c.val (irqvLine s c.val v.val) = true) ∧ (x.noTrap 4) :=
  ⟨{ (wr sV2 .sys 0 (Reg.SYS.IRQ_ROUTE_T + 8 * irqvLine sV2 3 8) 8) with irqOn := sV2.irqOn }, 3, 8, xo ({ (wr sV2 .sys 0 (Reg.SYS.IRQ_ROUTE_T + 8 * irqvLine sV2 3 8) 8) with irqOn := sV2.irqOn }), irqvLevel ({ (wr sV2 .sys 0 (Reg.SYS.IRQ_ROUTE_T + 8 * irqvLine sV2 3 8) 8) with irqOn := sV2.irqOn }) 3 8, by unfold LcSt.noTrap; decide +kernel⟩
def sW : State := lcS (fun x => { x with act := .idle, waiting := [⟨4, 9, [(0x200, 5)]⟩, ⟨5, 9, []⟩] })
theorem witness_loop_ports_and_samples_6 : ∃ (s : State) (c : Fin 18) (gap : Nat) (r : LcRel) (q : List LcRel), (lcUp s c.val = true) ∧ ((lcOf s c.val).level = 0) ∧ ((lcOf s c.val).act = .idle) ∧ (firstRel (lcOf s c.val).waiting = some r) ∧ (q = (lcOf s c.val).waiting.erase r) ∧ ((lcOf s c.val).noTrap (gap + 24)) :=
  ⟨sW, 3, 3, ⟨4, 9, [(0x200, 5)]⟩, [⟨5, 9, []⟩], by unfold LcSt.noTrap; decide +kernel⟩
def sC : State := regs (lcS (fun x => { x with charged := 0x2000 })) .lsch 0 [(Reg.LSCH.OVR_LIMIT, 5), (taskReg 4 3, 0x11000000)]
theorem witness_loop_ports_and_samples_7 : ∃ (s : State) (c : Fin 18) (t : Nat), ((lcOf s c.val).level = 0) ∧ ((lcOf s c.val).act = .sample t) ∧ (lcDue s c.val = true) ∧ (t < 128) ∧ (min (rf s .lsch 0 (taskReg t 3) 24 4 + 1) 15 ≠ rf s .lsch 0 Reg.LSCH.OVR_LIMIT 0 4) :=
  ⟨sC, 3, 4, by decide +kernel⟩
end Sys2Proof.Tests.W06
namespace Sys2Proof.Tests.W06b
def lsB : State := regs (pin (pin (pin up .lc 3 .run) .lc 9 .idle) .lsch 0 .run) .lsch 0 [(taskReg 4 0, 0x107), (taskReg 4 2, 0x1000), (Reg.LSCH.STITCH, 0x903), (Reg.LSCH.STANDBY, 0x200), (Reg.LSCH.CFG, 0x00050500)]
theorem witness_loop_scheduler_operations_1 : ∃ (s : State) (chk : BitVec 16), (WaitsFree s .lsch 0 0x10 .ap0 chk) :=
  ⟨pin lsB .lsch 0 .idle, 0xFFEF, waitsFree_of (by decide +kernel)⟩
theorem witness_loop_scheduler_operations_13 : ∃ (s : State) (chk : BitVec 16), (WaitsFree s .lsch 0 0x10 .ap0 chk) :=
  ⟨lsB, 0xFFEF, waitsFree_of (by decide +kernel)⟩
theorem witness_loop_scheduler_operations_2 : ∃ (s : State) (chk : BitVec 16), (WaitsFree s .lsch 0 0x11 .ap0 chk) :=
  ⟨pin (regs lsB .lc 3 [(Reg.LC.IMG_LO, 0x10000000)]) .lsch 0 .idle, 0xFFEE, waitsFree_of (by decide +kernel)⟩
theorem witness_loop_scheduler_operations_2b : ∃ (s : State) (chk : BitVec 16), (WaitsFree s .lsch 0 0x11 .ap0 chk) :=
  ⟨pin (regs lsB .lsch 0 [(Reg.LSCH.STANDBY, 0)]) .lsch 0 .idle, 0xFFEE, waitsFree_of (by decide +kernel)⟩
theorem witness_loop_scheduler_operations_3 : ∃ (s : State) (c : Fin 18) (chk : BitVec 16), (ActsNow s .lc c.val 0x10 .ap0 chk) :=
  ⟨lsB, 9, 0xFFEF, actsNow_of (by decide +kernel)⟩
def oo (op ph : Nat) : LschOp := ⟨op, 3, 9, ph, false, 0, 7, false, 0⟩
def sO (op ph : Nat) : State := mod { putMem32 lsB (lcAddr 3 1 0x20) 0x12345 with lschOp := some (oo op ph) } .lsch 0 (fun p => { p with busy := true })
theorem witness_loop_scheduler_operations_4 : ∃ (s : State) (o : LschOp), (Memory.wf s.mem = true) ∧ (s.lschOp = some o) ∧ (o.op = 1) ∧ (o.phase = 1) ∧ (o.img = false) ∧ (o.src < 18) ∧ (o.dst < 18) ∧ (o.src ≠ o.dst) :=
  ⟨sO 1 1, oo 1 1, by decide +kernel⟩
theorem witness_loop_scheduler_operations_5 : ∃ (s : State) (ecc : List (Bool × Nat)) (o : LschOp), (s.lschOp = some o) ∧ (o.op = 1) ∧ (o.phase = 2) ∧ (o.img = true → ecc = []) :=
  ⟨sO 1 2, [], oo 1 2, by decide +kernel⟩
theorem witness_loop_scheduler_operations_6 : ∃ (s : State) (t : Nat) (op : Nat) (o : LschOp) (c : Instr), ((c, op) ∈ [(Instr.stitchSwitch t, 1), (.failoverSwitch t, 2)]) ∧ (s.lschOp = some o) ∧ (powered s .time 0 = true) ∧ (powered s .lsch 0 = true) ∧ (tickFalls s t = true) ∧ (o.op = op) ∧ (o.phase = 3) ∧ (o.src < 18) ∧ (o.dst < 18) ∧ (op = 1 → (lcOf s o.src).act = .idle ∧ (lcOf s o.src).waiting = []) ∧ (s.lschFoQ = []) :=
  ⟨sO 1 3, 62500 * 1500, 1, oo 1 3, .stitchSwitch (62500 * 1500), by decide +kernel⟩
theorem witness_loop_scheduler_operations_6b : ∃ (s : State) (t : Nat) (op : Nat) (o : LschOp) (c : Instr), ((c, op) ∈ [(Instr.stitchSwitch t, 1), (.failoverSwitch t, 2)]) ∧ (s.lschOp = some o) ∧ (powered s .time 0 = true) ∧ (powered s .lsch 0 = true) ∧ (tickFalls s t = true) ∧ (o.op = op) ∧ (o.phase = 3) ∧ (o.src < 18) ∧ (o.dst < 18) ∧ (op = 1 → (lcOf s o.src).act = .idle ∧ (lcOf s o.src).waiting = []) ∧ (s.lschFoQ = []) :=
  ⟨sO 2 3, 62500 * 1500, 2, oo 2 3, .failoverSwitch (62500 * 1500), by decide +kernel⟩
theorem witness_loop_scheduler_operations_7 : ∃ (s : State) (o : LschOp), (s.lschOp = some o) ∧ (o.op = 1) ∧ (o.phase = 3) ∧ (rf s .lsch 0 Reg.LSCH.CFG 16 16 ≤ o.wait) ∧ (s.lschFoQ = []) :=
  ⟨sO 1 3, oo 1 3, by decide +kernel⟩
theorem witness_loop_scheduler_operations_8 : ∃ (s : State) (o : LschOp), (s.lschOp = some o) ∧ (o.op = 2) ∧ (rf s .lsch 0 Reg.LSCH.CFG 8 8 ≤ o.wait) ∧ (s.lschFoQ = []) :=
  ⟨sO 2 2, oo 2 2, by decide +kernel⟩
theorem witness_loop_scheduler_operations_10 : ∃ (s : State) (o : LschOp), (s.lschOp = some o) ∧ (o.op = 3) ∧ (o.phase = 1) :=
  ⟨{ mod (sO 3 1) .lsch 0 (fun p => { p with st := .update }) with lschOp := some (oo 3 1) }, oo 3 1, by decide +kernel⟩
theorem witness_loop_scheduler_operations_10b : ∃ (s : State) (o : LschOp), (s.lschOp = some o) ∧ (o.op = 3) ∧ (o.phase = 1) :=
  ⟨{ sO 3 1 with lschOp := some { oo 3 1 with bad := true } }, { oo 3 1 with bad := true }, by decide +kernel⟩
def sT : State := mod (regs (pin lsB .lc 3 .update) .lc 3 []) .lc 3 (fun p => { p with busy := true })
theorem witness_loop_scheduler_operations_12 : ∃ (s : State) (c : Fin 18), (powered s .lc c.val = true) ∧ (selfTesting s c.val = true) :=
  ⟨sT, 3, by decide +kernel⟩
theorem witness_loop_scheduler_operations_12b : ∃ (s : State) (c : Fin 18), (powered s .lc c.val = true) ∧ (selfTesting s c.val = true) :=
  ⟨sT, 3, by decide +kernel⟩
theorem witness_loop_scheduler_operations_9 : ∃ (s : State) (t : Nat) (c : Instr), (tickFalls s t = false) ∧ (c ∈ [Instr.stitchSwitch t, .failoverSwitch t]) :=
  ⟨sO 3 1, 90000001, .stitchSwitch 90000001, by decide +kernel⟩
theorem witness_loop_scheduler_operations_9b : ∃ (s : State) (t : Nat) (c : Instr), (tickFalls s t = false) ∧ (c ∈ [Instr.stitchSwitch t, .failoverSwitch t]) :=
  ⟨sO 3 1, 90000001, .failoverSwitch 90000001, by decide +kernel⟩
end Sys2Proof.Tests.W06b
namespace Sys2Proof.Tests.W07
def csB : State := regs (pin (pin (warnAll up) .cslot 17 .run) .ce 2 .run) .cslot 17
  [(Reg.CSLOT.DIMS, 0x2112), (Reg.CSLOT.E, 0x300000), (Reg.CSLOT.H, 0x100000), (Reg.CSLOT.E + 16, 0x700000), (Reg.CSLOT.U_LIM, 0x7FFFFF), (Reg.CSLOT.U_LIM + 4, 0x10),
   (Reg.CSLOT.IN_SRC, 2), (Reg.CSLOT.IN_VAL, 0x12345), (Reg.CSLOT.IN_SLEW, 0x100), (Reg.CSLOT.U_MAP, 0x109), (Reg.CSLOT.TMIN, 4000), (Reg.CSLOT.SHIFT_U, 0x21),
   (Reg.CSLOT.Y_SRC, 0x15), (Reg.CSLOT.REP_CPR, 4096), (Reg.CSLOT.ELEC, 0x01001000), (Reg.CSLOT.U_MAP + 4, 0x10D), (Reg.CSLOT.A, 0x700000), (Reg.CSLOT.G, 0x10000), (Reg.CSLOT.XHAT, 0x7FFFFFFF), (Reg.CSLOT.XHAT+4, 0x222), (Reg.CSLOT.CM, 0x300000), (Reg.CSLOT.PLAUS, 0)]
theorem witness_control_samples_1 : ∃ (s : State) (k : Fin 64) (t : Nat) (e : Fin 8) (corr : List Int), (stOf s .cslot k.val = .run) ∧ (e.val = k.val / 8) ∧ (halted s (.ce e) = false) ∧ (csTriggered (s.at t) k.val t = true) ∧ (csEarly (s.at t) k.val t = false) ∧ (corr = csCorr s k.val (repSample (s.at t) k.val t).2.2.2) ∧ (PageIdle s (pk .cslot k.val)) ∧ (rf s .cslot k.val Reg.CSLOT.MISC 0 8 = 0) :=
  ⟨setFch (regs csB .fch 5 [(Reg.FCH.RESULT, 0x1234)]) 0 { fchOf (regs csB .fch 5 [(Reg.FCH.RESULT, 0x1234)]) 0 with endAt := some 90000100 }, 17, 90000100, 2, csCorr (setFch (regs csB .fch 5 [(Reg.FCH.RESULT, 0x1234)]) 0 { fchOf (regs csB .fch 5 [(Reg.FCH.RESULT, 0x1234)]) 0 with endAt := some 90000100 }) 17 (repSample ((setFch (regs csB .fch 5 [(Reg.FCH.RESULT, 0x1234)]) 0 { fchOf (regs csB .fch 5 [(Reg.FCH.RESULT, 0x1234)]) 0 with endAt := some 90000100 }).at 90000100) 17 90000100).2.2.2, by unfold PageIdle; decide +kernel⟩
def csDQs : State := regs (regs csB .fch 5 [(Reg.FCH.RESULT, 0x1234)]) .cslot 17 [(Reg.CSLOT.CFG, 2), (Reg.CSLOT.DIMS, 0x2312)]
theorem witness_control_samples_1b : ∃ (s : State) (k : Fin 64) (t : Nat) (e : Fin 8) (corr : List Int), (stOf s .cslot k.val = .run) ∧ (e.val = k.val / 8) ∧ (halted s (.ce e) = false) ∧ (csTriggered (s.at t) k.val t = true) ∧ (csEarly (s.at t) k.val t = false) ∧ (corr = csCorr s k.val (repSample (s.at t) k.val t).2.2.2) ∧ (PageIdle s (pk .cslot k.val)) ∧ (rf s .cslot k.val Reg.CSLOT.MISC 0 8 = 0) :=
  ⟨setFch (csDQs) 0 { fchOf (csDQs) 0 with endAt := some 90000100 }, 17, 90000100, 2, csCorr (setFch (csDQs) 0 { fchOf (csDQs) 0 with endAt := some 90000100 }) 17 (repSample ((setFch (csDQs) 0 { fchOf (csDQs) 0 with endAt := some 90000100 }).at 90000100) 17 90000100).2.2.2, by unfold PageIdle; decide +kernel⟩
def csE : State := setCslot csB 17 { cslotOf csB 17 with last := some 89999999 }
theorem witness_control_samples_2 : ∃ (s : State) (k : Fin 64) (t : Nat) (e : Fin 8), (inSt s .cslot k.val [.run, .update] = true) ∧ (e.val = k.val / 8) ∧ (halted s (.ce e) = false) ∧ (csTriggered (s.at t) k.val t = true) ∧ (csEarly (s.at t) k.val t = true) :=
  ⟨setFch (csE) 0 { fchOf (csE) 0 with endAt := some 90000100 }, 17, 90000100, 2, by decide +kernel⟩
theorem witness_control_samples_3 : ∃ (s : State) (k : Fin 64) (t : Nat), (csTriggered (s.at t) k.val t = false) :=
  ⟨csB, 17, 90000100, by decide +kernel⟩
def wk : CsWork := ⟨[5000,0,0,0], [7000,0,0,0], [100,-200,0,0], 0, 77, 1, false, 5, false, true⟩
def csW (w : CsWork) : State := { setCslot csB 17 { cslotOf csB 17 with work := some w, yhat := [4000,0,0,0] } with ceQ := [(2, [17, 20])] }
theorem witness_control_updates_1 : ∃ (s : State) (e : Fin 8) (k : Nat) (q : List Nat) (w : CsWork), (halted s (.ce e) = false) ∧ (ceQueue s e.val = k :: q) ∧ ((cslotOf s k).work = some w) ∧ (inSt s .cslot k [.run, .update] = true) ∧ (w.fresh = false) ∧ (rf s .cslot k Reg.CSLOT.PLAUS 0 8 = 0) ∧ (csNS s k ≤ 8) ∧ (csNY s k ≤ 4) :=
  ⟨csW wk, 2, 17, [20], wk, by decide +kernel⟩
def wk2 : CsWork := { wk with repOn := true }
def csL : State := regs (csW wk2) .cslot 17 [(Reg.CSLOT.REP_CFG, 2), (Reg.CSLOT.STAT, 2), (Reg.CSLOT.REP_CH + 4, 0), (Reg.CSLOT.REP_GAIN+4, 0x400000), (Reg.CSLOT.REP_FORGET+4, 0x7F0000)]
theorem witness_control_updates_2 : ∃ (s : State) (e : Fin 8) (k : Nat) (c : Nat) (b : Nat) (q : List Nat) (w : CsWork), (halted s (.ce e) = false) ∧ (ceQueue s e.val = k :: q) ∧ ((cslotOf s k).work = some w) ∧ (inSt s .cslot k [.run, .update] = true) ∧ (w.fresh = false) ∧ (rf s .cslot k Reg.CSLOT.PLAUS 0 8 = 0) ∧ (w.repOn = true) ∧ ((s.page (pk .cslot k)).busy = false) ∧ (c < 4) ∧ (∀ i, i < 4 → rb s .cslot k Reg.CSLOT.STAT i = decide (i = c)) ∧ (rb s .cslot k Reg.CSLOT.REP_CFG 4 = false) ∧ (w.lim / 2 ^ rf s .cslot k (Reg.CSLOT.REP_CH + 4 * c) 8 2 % 2 = 0) ∧ (b = 4096 * w.theta / repDen s k) :=
  ⟨csL, 2, 17, 1, 4096 * 77 / repDen csL 17, [20], wk2, by decide +kernel⟩
def csD (fb : Word) : State := regs (setCslot csB 17 { cslotOf csB 17 with dog := 5 }) .cslot 17 [(Reg.CSLOT.MISC, 0x305), (Reg.CSLOT.FB_CFG, fb)]
theorem witness_control_updates_3 : ∃ (s : State) (k : Fin 64), (stOf s .cslot k.val = .run) ∧ (rf s .cslot k.val Reg.CSLOT.MISC 0 8 ≠ 0) ∧ ((cslotOf s k.val).dog = rf s .cslot k.val Reg.CSLOT.MISC 0 8) :=
  ⟨csD 0, 17, by decide +kernel⟩
theorem witness_control_updates_3b : ∃ (s : State) (k : Fin 64), (stOf s .cslot k.val = .run) ∧ (rf s .cslot k.val Reg.CSLOT.MISC 0 8 ≠ 0) ∧ ((cslotOf s k.val).dog = rf s .cslot k.val Reg.CSLOT.MISC 0 8) :=
  ⟨csD 1, 17, by decide +kernel⟩
def csR : State := regs (setSt (csD 1) .cslot 17 .update) .cslot 17 [(Reg.CSLOT.RT_MAX, 5)]
theorem witness_control_updates_4 : ∃ (s : State) (k : Fin 64) (t : Nat), (stOf s .cslot k.val = .update) ∧ ((cslotOf s k.val).expired = false) ∧ ((cslotOf s k.val).rtFrom + 8000000 * (rg s .cslot k.val Reg.CSLOT.RT_MAX).toNat ≤ (s.at t).lap t) ∧ (RaiseLogs (s.at t) 0x06 .cslot k.val 0) :=
  ⟨csR, 17, 90000100, by unfold RaiseLogs; decide +kernel⟩
def csP' (b : Word) : State := regs (csD 0) .cslot 17 [(Reg.CSLOT.PLAUS, 0x5 + b), (Reg.CSLOT.PLAUS_CNT, 7)]
theorem witness_control_updates_5 : ∃ (s : State) (k : Fin 64), (inSt s .cslot k.val [.run, .update] = true) ∧ (rf s .cslot k.val Reg.CSLOT.PLAUS 0 8 ≠ 0) ∧ (rf s .cslot k.val Reg.CSLOT.PLAUS 0 8 ≤ (rg s .cslot k.val Reg.CSLOT.PLAUS_CNT).toNat) ∧ ((cslotOf s k.val).told = false) ∧ (∀ m, RaiseLogs s 0x04 .cslot k.val m) :=
  ⟨csP' 0, 17, by decide +kernel, by decide +kernel, by decide +kernel, by decide +kernel, fun m => show RaiseLogs (csP' 0) 0x04 .cslot 17 m from (by have h : RaiseLogs (csP' 0) 0x04 .cslot 17 0 := (by unfold RaiseLogs; decide +kernel); exact h)⟩
theorem witness_control_updates_5b : ∃ (s : State) (k : Fin 64), (inSt s .cslot k.val [.run, .update] = true) ∧ (rf s .cslot k.val Reg.CSLOT.PLAUS 0 8 ≠ 0) ∧ (rf s .cslot k.val Reg.CSLOT.PLAUS 0 8 ≤ (rg s .cslot k.val Reg.CSLOT.PLAUS_CNT).toNat) ∧ ((cslotOf s k.val).told = false) ∧ (∀ m, RaiseLogs s 0x04 .cslot k.val m) :=
  ⟨csP' 256, 17, by decide +kernel, by decide +kernel, by decide +kernel, by decide +kernel, fun m => show RaiseLogs (csP' 256) 0x04 .cslot 17 m from (by have h : RaiseLogs (csP' 256) 0x04 .cslot 17 0 := (by unfold RaiseLogs; decide +kernel); exact h)⟩
theorem witness_control_commands_1 : ∃ (s : State) (k : Fin 64) (t : Nat) (chk : BitVec 16), (WaitsFree s .cslot k.val 0x10 .ap0 chk) ∧ (SampleFalls s k t) ∧ (rf s .cslot k.val Reg.CSLOT.MISC 0 8 = 0) :=
  ⟨setFch (csL) 0 { fchOf (csL) 0 with endAt := some 90000100 }, 17, 90000100, 0xFFEF, waitsFree_of (by decide +kernel), by unfold SampleFalls; decide +kernel⟩
theorem witness_control_commands_2 : ∃ (s : State) (k : Fin 64) (chk : BitVec 16), (ActsNow s .cslot k.val 0x11 .ap0 chk) :=
  ⟨pin csL .cslot 17 .idle, 17, 0xFFEE, actsNow_of (by decide +kernel)⟩
theorem witness_control_commands_3 : ∃ (s : State) (k : Fin 64) (t : Nat) (chk : BitVec 16), (WaitsFree s .cslot k.val 0x11 .ap0 chk) ∧ (SampleFalls s k t) ∧ (rf s .cslot k.val Reg.CSLOT.MISC 0 8 = 0) :=
  ⟨setFch (csL) 0 { fchOf (csL) 0 with endAt := some 90000100 }, 17, 90000100, 0xFFEE, waitsFree_of (by decide +kernel), by unfold SampleFalls; decide +kernel⟩
theorem witness_control_commands_4 : ∃ (s : State) (k : Fin 64) (chk : BitVec 16), (ActsNow s .cslot k.val 0x12 .ap0 chk) :=
  ⟨csL, 17, 0xFFED, actsNow_of (by decide +kernel)⟩
theorem witness_control_commands_5 : ∃ (s : State) (k : Fin 64), (powered s .cslot k.val = true) ∧ ((s.page (pk .cslot k.val)).busy = true) :=
  ⟨mod (setCslot csB 17 { cslotOf csB 17 with tab := [(3, 7)] }) .cslot 17 (fun p => { p with busy := true }), 17, by decide +kernel⟩
theorem witness_control_commands_6 : ∃ (s : State) (k : Fin 64) (t : Nat) (chk : BitVec 16), (WaitsFree s .cslot k.val 0x13 .ap0 chk) ∧ (SampleFalls s k t) ∧ ((cslotOf s k.val).written / 2 ^ rf s .cslot k.val Reg.CSLOT.FB_CFG 1 2 % 2 = 0) :=
  ⟨setFch (csD 1) 0 { fchOf (csD 1) 0 with endAt := some 90000100 }, 17, 90000100, 0xFFEC, waitsFree_of (by decide +kernel), by unfold SampleFalls; decide +kernel⟩
theorem witness_control_commands_7 : ∃ (s : State) (k : Fin 64) (chk : BitVec 16), (ActsNow s .cslot k.val 0x14 .ap0 chk) :=
  ⟨regs (pin csL .cslot 17 .idle) .cslot 17 [(Reg.CSLOT.X_INIT+4, 88)], 17, 0xFFEB, actsNow_of (by decide +kernel)⟩
theorem witness_control_commands_8 : ∃ (s : State) (k : Fin 64) (t : Nat) (chk : BitVec 16), (WaitsFree s .cslot k.val 0x14 .ap0 chk) ∧ (SampleFalls s k t) ∧ (rf s .cslot k.val Reg.CSLOT.MISC 0 8 = 0) :=
  ⟨setFch (regs csL .cslot 17 [(Reg.CSLOT.X_INIT+4, 88)]) 0 { fchOf (regs csL .cslot 17 [(Reg.CSLOT.X_INIT+4, 88)]) 0 with endAt := some 90000100 }, 17, 90000100, 0xFFEB, waitsFree_of (by decide +kernel), by unfold SampleFalls; decide +kernel⟩
theorem witness_control_commands_9 : ∃ (s : State) (k : Fin 64) (c : Nat) (b : Nat), (answers s ⟨.cslot, k.val⟩ = true) ∧ ((s.page (pk .cslot k.val)).key ≠ .window) ∧ ((s.page (pk .cslot k.val)).locked = false) ∧ (c = rf s .cslot k.val Reg.CSLOT.REP_IDX 12 2) ∧ (b = rf s .cslot k.val Reg.CSLOT.REP_IDX 0 12) :=
  ⟨regs csL .cslot 17 [(Reg.CSLOT.REP_IDX, 0x9FFF)], 17, 1, 0xFFF, by decide +kernel⟩
theorem witness_control_commands_9b : ∃ (s : State) (k : Fin 64) (c : Nat) (b : Nat), (answers s ⟨.cslot, k.val⟩ = true) ∧ ((s.page (pk .cslot k.val)).key ≠ .window) ∧ ((s.page (pk .cslot k.val)).locked = false) ∧ (c = rf s .cslot k.val Reg.CSLOT.REP_IDX 12 2) ∧ (b = rf s .cslot k.val Reg.CSLOT.REP_IDX 0 12) :=
  ⟨regs csL .cslot 17 [(Reg.CSLOT.REP_IDX, 0x0007)], 17, 0, 7, by decide +kernel⟩
theorem witness_control_commands_10 : ∃ (s : State) (e : Fin 8), (powered s .ce e.val = true) ∧ ((s.page (pk .ce e.val)).en = true) ∧ (stOf s .ce e.val = .off) :=
  ⟨setSt (setSt csB .ce 2 .off) .cslot 17 .off, 2, by decide +kernel⟩
end Sys2Proof.Tests.W07
namespace Sys2Proof.Tests.W08
def pB : State := setPwm (regs (pin (pin (warnAll up) .pwm 3 .run) .fin 0 .run) .pwm 3
  [(Reg.PWM.PERIOD, 8000), (Reg.PWM.CMP, 9000), (Reg.PWM.CMP+4, 200), (Reg.PWM.CMP+8, 4000), (Reg.PWM.DT, 0x00640064), (Reg.PWM.MINP, 300), (Reg.PWM.CFG, 0x20), (Reg.PWM.FORCE, 9)]) 3
  { PwmSt.reset with run := true, zero := 89999000, per := 8000 }
theorem witness_pwm_periods_1 : ∃ (s : State) (n : Fin 32) (t : Nat) (tt : Nat), (stOf s .pwm n.val = .run) ∧ (s.pwmClkLost = false) ∧ (pwmNextZero s n.val = some t) ∧ (PageIdle s (pk .pwm n.val)) ∧ (tt = pwmT s n.val) :=
  ⟨pB, 3, 89999000 + 8000, pwmT pB 3, by unfold PageIdle; decide +kernel⟩
def pB2 : State := regs pB .pwm 3 [(Reg.PWM.CFG, 0x58), (Reg.PWM.CMP+4, 0x0300), (Reg.PWM.PAIR_CFG, 4), (Reg.PWM.PAIR_CFG+8, 8)]
def pB3 : State := regs pB .pwm 3 [(Reg.PWM.CFG, 0x04), (Reg.PWM.TRG_CFG, 4)]
theorem witness_pwm_periods_1b : ∃ (s : State) (n : Fin 32) (t : Nat) (tt : Nat), (stOf s .pwm n.val = .run) ∧ (s.pwmClkLost = false) ∧ (pwmNextZero s n.val = some t) ∧ (PageIdle s (pk .pwm n.val)) ∧ (tt = pwmT s n.val) :=
  ⟨pB3, 3, 89999000 + 8000, pwmT pB3 3, by unfold PageIdle; decide +kernel⟩
def pU (l : Word) : State := regs pB .pwm 3 [(Reg.PWM.CFG, 0x41 + l)]
theorem witness_pwm_periods_2 : ∃ (s : State) (n : Fin 32) (t : Nat) (tt : Nat), (stOf s .pwm n.val = .run) ∧ (s.pwmClkLost = false) ∧ (PageIdle s (pk .pwm n.val)) ∧ ((pwmOf s n.val).run = true) ∧ (pwmUpDown s n.val = true) ∧ ((pwmOf s n.val).mid = none) ∧ (t = (pwmOf s n.val).zero + (pwmOf s n.val).per / 2) ∧ (tt = pwmT s n.val) :=
  ⟨pU 0, 3, 89999000 + 4000, pwmT pB3 3, by unfold PageIdle; decide +kernel⟩
theorem witness_pwm_periods_2b : ∃ (s : State) (n : Fin 32) (t : Nat) (tt : Nat), (stOf s .pwm n.val = .run) ∧ (s.pwmClkLost = false) ∧ (PageIdle s (pk .pwm n.val)) ∧ ((pwmOf s n.val).run = true) ∧ (pwmUpDown s n.val = true) ∧ ((pwmOf s n.val).mid = none) ∧ (t = (pwmOf s n.val).zero + (pwmOf s n.val).per / 2) ∧ (tt = pwmT s n.val) :=
  ⟨pU 8, 3, 89999000 + 4000, pwmT pB3 3, by unfold PageIdle; decide +kernel⟩
def pT (c : Word) : State := regs pB .pwm 3 [(Reg.PWM.TRG_CFG + 8, 0x17 + c), (Reg.PWM.TRG_POS + 8, 100)]
theorem witness_pwm_periods_3 : ∃ (s : State) (n : Fin 32) (k : Fin 4) (t : Nat) (e : Nat), (pwmCounts s n.val = true) ∧ (rb s .pwm n.val (Reg.PWM.TRG_CFG + 4 * k.val) 2 = true) ∧ (rf s .pwm n.val (Reg.PWM.TRG_CFG + 4 * k.val) 0 2 = 3) ∧ (rf s .pwm n.val (Reg.PWM.TRG_POS + 4 * k.val) 0 24 < (pwmOf s n.val).per) ∧ (t = (pwmOf s n.val).zero + rf s .pwm n.val (Reg.PWM.TRG_POS + 4 * k.val) 0 24) ∧ (e = (pwmOf s n.val).evts.getD k.val 0) :=
  ⟨pT 0, 3, 2, 89999000 + 100, 0, by decide +kernel⟩
theorem witness_pwm_periods_3b : ∃ (s : State) (n : Fin 32) (k : Fin 4) (t : Nat) (e : Nat), (pwmCounts s n.val = true) ∧ (rb s .pwm n.val (Reg.PWM.TRG_CFG + 4 * k.val) 2 = true) ∧ (rf s .pwm n.val (Reg.PWM.TRG_CFG + 4 * k.val) 0 2 = 3) ∧ (rf s .pwm n.val (Reg.PWM.TRG_POS + 4 * k.val) 0 24 < (pwmOf s n.val).per) ∧ (t = (pwmOf s n.val).zero + rf s .pwm n.val (Reg.PWM.TRG_POS + 4 * k.val) 0 24) ∧ (e = (pwmOf s n.val).evts.getD k.val 0) :=
  ⟨pT 0x100, 3, 2, 89999000 + 100, 0, by decide +kernel⟩
theorem witness_pwm_periods_4 : ∃ (s : State) (n : Fin 32), (answers s ⟨.pwm, n.val⟩ = true) ∧ ((s.page (pk .pwm n.val)).key ≠ .window) ∧ ((s.page (pk .pwm n.val)).locked = false) :=
  ⟨pB, 3, by decide +kernel⟩
def fB : State := regs pB .fin 0 [(Reg.FIN.CFG, 0x00300030), (Reg.FIN.MAP + 16, 8), (Reg.FIN.MAP + 20, 0xFF)]
theorem witness_pwm_stops_1 : ∃ (s : State) (raw : BitVec 16) (p : Fin 16), (stOf s .fin 0 = .run) ∧ (rb s .fin 0 Reg.FIN.CFG (16 + p.val) = true) ∧ (∀ i, i < 16 → ((finEnabled s i = true ∧ raw.getLsbD i ≠ rb s .fin 0 Reg.FIN.CFG i ∧ rb s .fin 0 Reg.FIN.LATCH i = false) ↔ i = p.val)) :=
  ⟨fB, 0x0020, 4, by decide +kernel⟩
theorem witness_pwm_stops_1b : ∃ (s : State) (raw : BitVec 16) (p : Fin 16), (stOf s .fin 0 = .run) ∧ (rb s .fin 0 Reg.FIN.CFG (16 + p.val) = true) ∧ (∀ i, i < 16 → ((finEnabled s i = true ∧ raw.getLsbD i ≠ rb s .fin 0 Reg.FIN.CFG i ∧ rb s .fin 0 Reg.FIN.LATCH i = false) ↔ i = p.val)) :=
  ⟨regs fB .fin 0 [(Reg.FIN.LATCH, 0x20)], 0x0000, 4, by decide +kernel⟩
theorem witness_pwm_stops_2 : ∃ (s : State) (raw : BitVec 16), (stOf s .fin 0 = .run) ∧ (∀ i, i < 16 → ¬(finEnabled s i = true ∧ raw.getLsbD i ≠ rb s .fin 0 Reg.FIN.CFG i ∧ rb s .fin 0 Reg.FIN.LATCH i = false)) :=
  ⟨fB, 0x0030, by decide +kernel⟩
theorem witness_pwm_stops_3 : ∃ (s : State) (chk : BitVec 16), (ActsNow s .fin 0 0x10 .ap0 chk) :=
  ⟨{regs fB .fin 0 [(Reg.FIN.LATCH, 0x21), (Reg.FIN.CLR_MASK, 0x70)] with finRaw := 0x30}, 0xFFEF, actsNow_of (by decide +kernel)⟩
theorem witness_pwm_stops_4 : ∃ (s : State), (s.pwmClkLost = false) :=
  ⟨pB, by decide +kernel⟩
theorem witness_pwm_stops_5 : ∃ (s : State), (s.pwmClkLost = true) :=
  ⟨{ pB with pwmClkLost := true, holds := [⟨2, PgTy.pwm.code, 3, 0, 1⟩] }, by decide +kernel⟩
theorem witness_pwm_stops_6 : ∃ (s : State) (n : Fin 32) (held : Nat), (10 * rf s .pwm n.val Reg.PWM.RB_T 0 8 ≤ held) ∧ (stOf s .pwm n.val ≠ .off) :=
  ⟨pB, 3, 2550, by decide +kernel⟩
theorem witness_pwm_stops_6b : ∃ (s : State) (n : Fin 32) (held : Nat), (10 * rf s .pwm n.val Reg.PWM.RB_T 0 8 ≤ held) ∧ (stOf s .pwm n.val ≠ .off) :=
  ⟨regs pB .pwm 3 [(Reg.PWM.CFG, 0x8000)], 3, 2550, by decide +kernel⟩
end Sys2Proof.Tests.W08
namespace Sys2Proof.Tests.W09
def fB : State := regs (pin (pin (warnAll up) .fch 37 .run) .fcg 1 .run) .fch 37 [(Reg.FCH.DELAY, 7), (Reg.FCH.CFG, 0x40), (Reg.FCH.LIM_LO, 0xFFFFFF00), (Reg.FCH.LIM_HI, 0x100), (Reg.FCH.LIM_N, 3)]
def fFree : State := setFcg fB 1 { fcgOf fB 1 with free := [(1, 90001000)] }
theorem witness_fast_conversions_1 : ∃ (s : State) (c : Fin 96) (g : Nat) (v : Nat) (f : Nat), (stOf s .fch c.val = .run) ∧ (rf s .fch c.val Reg.FCH.CFG 0 2 ≠ 2) ∧ ((fchOf s c.val).trig = none) ∧ (g = chGroup c.val) ∧ ((fcgOf s g).cur = none) ∧ ((fcgOf s g).back = none) ∧ ((fcgOf s g).toPark = none) ∧ (v = chServer s c.val) ∧ (f = SMap.get (fun _ => 0) (fcgOf s g).free v) ∧ (convJobs s g v = []) :=
  ⟨fFree, 37, 1, 1, 90001000, by decide +kernel⟩
theorem witness_fast_conversions_1b : ∃ (s : State) (c : Fin 96) (g : Nat) (v : Nat) (f : Nat), (stOf s .fch c.val = .run) ∧ (rf s .fch c.val Reg.FCH.CFG 0 2 ≠ 2) ∧ ((fchOf s c.val).trig = none) ∧ (g = chGroup c.val) ∧ ((fcgOf s g).cur = none) ∧ ((fcgOf s g).back = none) ∧ ((fcgOf s g).toPark = none) ∧ (v = chServer s c.val) ∧ (f = SMap.get (fun _ => 0) (fcgOf s g).free v) ∧ (convJobs s g v = []) :=
  ⟨regs fFree .fch 37 [(Reg.FCH.CFG, 0xD)], 37, 1, 1, 90001000, by decide +kernel⟩
def fT (st : Word) : State := regs (setFch fB 37 { fchOf fB 37 with trig := some 90000000, start := 90000010, outN := 1 }) .fch 37 [(Reg.FCH.CFG, st)]
theorem witness_fast_conversions_2 : ∃ (s : State) (c : Fin 96) (t : Nat), (stOf s .fch c.val = .run) ∧ (PageIdle s (pk .fch c.val)) ∧ (fchDueAt s c.val t = true) ∧ ((fchOf s c.val).trig.isSome = true) ∧ (rf s .fch c.val Reg.FCH.CFG 0 2 = 2 → (fchOf s c.val).isOpen = true) :=
  ⟨setFch (fT 0) 37 { fchOf (fT 0) 37 with due := [90000500] }, 37, 90000500, by unfold PageIdle; decide +kernel⟩
theorem witness_fast_conversions_3 : ∃ (s : State) (c : Fin 96) (t : Nat), (stOf s .fch c.val = .run) ∧ (PageIdle s (pk .fch c.val)) ∧ (fchDueAt s c.val t = true) ∧ (rf s .fch c.val Reg.FCH.CFG 0 2 = 2) ∧ ((fchOf s c.val).isOpen = false) :=
  ⟨setFch (regs fB .fch 37 [(Reg.FCH.CFG, 2)]) 37 { fchOf (regs fB .fch 37 [(Reg.FCH.CFG, 2)]) 37 with due := [90000500] }, 37, 90000500, by unfold PageIdle; decide +kernel⟩
theorem witness_fast_conversions_4 : ∃ (s : State) (c : Fin 96) (t : Nat) (tr : Nat) (w : Nat) (qs : List (BitVec 16)) (l : List Int) (r : Int), (stOf s .fch c.val = .run) ∧ ((fchOf s c.val).trig = some tr) ∧ (fchEndAt s c.val t = true) ∧ (qs ≠ []) ∧ (qs.length = chCodes s c.val) ∧ (l = qs.map (fun q => q.toInt)) ∧ (r = corrected s (chGroup c.val) (fchOf s c.val).by_ (codeMean l)) ∧ (rb s .fch c.val Reg.FCH.CFG 7 = false) ∧ (w = (fq (((fchOf s c.val).start - tr : Nat) : Int) 8).toNat) :=
  ⟨fT 0x40, 37, (fchOf (fT 0x40) 37).start + convEnd (chLp (fT 0x40) 37) + (chN (fT 0x40) 37 - 1) * convOcc (chLp (fT 0x40) 37), 90000000, (fq (((fchOf (fT 0x40) 37).start - 90000000 : Nat) : Int) 8).toNat, [0x8000], [-32768], corrected (fT 0x40) 1 0 (codeMean [-32768]), by decide +kernel, by decide +kernel, by decide +kernel, by decide +kernel, by decide +kernel, by decide +kernel, by decide +kernel, by decide +kernel, rfl⟩
theorem witness_fast_conversions_4b : ∃ (s : State) (c : Fin 96) (t : Nat) (tr : Nat) (w : Nat) (qs : List (BitVec 16)) (l : List Int) (r : Int), (stOf s .fch c.val = .run) ∧ ((fchOf s c.val).trig = some tr) ∧ (fchEndAt s c.val t = true) ∧ (qs ≠ []) ∧ (qs.length = chCodes s c.val) ∧ (l = qs.map (fun q => q.toInt)) ∧ (r = corrected s (chGroup c.val) (fchOf s c.val).by_ (codeMean l)) ∧ (rb s .fch c.val Reg.FCH.CFG 7 = false) ∧ (w = (fq (((fchOf s c.val).start - tr : Nat) : Int) 8).toNat) :=
  ⟨setFch (fT 0x02) 37 { fchOf (fT 0x02) 37 with prev := 89997600, grid := 89990000, isOpen := true }, 37, 90000000, 90000000, (fq (((fchOf (setFch (fT 0x02) 37 { fchOf (fT 0x02) 37 with prev := 89997600, grid := 89990000, isOpen := true }) 37).start - 90000000 : Nat) : Int) 8).toNat, [0x8001, 5, 7], [-32767, 5, 7], corrected (fT 0x40) 1 0 (codeMean [-32767, 5, 7]), by decide +kernel, by decide +kernel, by decide +kernel, by decide +kernel, by decide +kernel, by decide +kernel, by decide +kernel, by decide +kernel, rfl⟩
theorem witness_fast_conversions_5 : ∃ (s : State) (c : Fin 96) (t : Nat) (q : BitVec 16) (r : Int), (stOf s .fch c.val = .run) ∧ ((fchOf s c.val).trig.isSome = true) ∧ (fchEndAt s c.val t = true) ∧ (rf s .fch c.val Reg.FCH.CFG 0 2 = 0) ∧ (r = corrected s (chGroup c.val) (fchOf s c.val).by_ (256 * q.toInt)) ∧ (rb s .fch c.val Reg.FCH.CFG 7 = true) ∧ ((fchOf s c.val).outN + 1 < rf s .fch c.val Reg.FCH.LIM_N 0 8) :=
  ⟨fT 0x80, 37, (fchOf (fT 0x80) 37).start + convEnd (chLp (fT 0x80) 37) + (chN (fT 0x80) 37 - 1) * convOcc (chLp (fT 0x80) 37), 0x8000, corrected (fT 0x80) 1 0 (256 * -32768), by decide +kernel⟩
theorem witness_fast_conversions_5b : ∃ (s : State) (c : Fin 96) (t : Nat) (q : BitVec 16) (r : Int), (stOf s .fch c.val = .run) ∧ ((fchOf s c.val).trig.isSome = true) ∧ (fchEndAt s c.val t = true) ∧ (rf s .fch c.val Reg.FCH.CFG 0 2 = 0) ∧ (r = corrected s (chGroup c.val) (fchOf s c.val).by_ (256 * q.toInt)) ∧ (rb s .fch c.val Reg.FCH.CFG 7 = true) ∧ ((fchOf s c.val).outN + 1 < rf s .fch c.val Reg.FCH.LIM_N 0 8) :=
  ⟨fT 0x80, 37, (fchOf (fT 0x80) 37).start + convEnd (chLp (fT 0x80) 37) + (chN (fT 0x80) 37 - 1) * convOcc (chLp (fT 0x80) 37), 0, corrected (fT 0x80) 1 0 0, by decide +kernel⟩
theorem witness_fast_conversions_7 : ∃ (s : State) (c : Fin 96), (stOf s .fch c.val ≠ .off) ∧ (rb s .fch c.val Reg.FCH.CFG 7 = true) ∧ (rf s .fch c.val Reg.FCH.LIM_N 0 8 ≠ 0) ∧ (rf s .fch c.val Reg.FCH.LIM_N 0 8 ≤ (fchOf s c.val).outN) ∧ (rb s .fch c.val Reg.FCH.STAT 4 = false) ∧ (RaiseLogs s 0x16 .fch c.val 0) :=
  ⟨setFch (fT 0x80) 37 { fchOf fB 37 with outN := 3 }, 37, by unfold RaiseLogs; decide +kernel⟩
theorem witness_fast_conversions_6 : ∃ (s : State) (c : Fin 96) (t : Nat) (q : BitVec 16) (r : Int), (stOf s .fch c.val = .run) ∧ ((fchOf s c.val).trig.isSome = true) ∧ (fchEndAt s c.val t = true) ∧ (rf s .fch c.val Reg.FCH.CFG 0 2 = 0) ∧ (r = corrected s (chGroup c.val) (fchOf s c.val).by_ (256 * q.toInt)) ∧ (sw (rg s .fch c.val Reg.FCH.LIM_LO) ≤ r) ∧ (r ≤ sw (rg s .fch c.val Reg.FCH.LIM_HI)) :=
  ⟨fT 0, 37, (fchOf (fT 0) 37).start + convEnd (chLp (fT 0) 37) + (chN (fT 0) 37 - 1) * convOcc (chLp (fT 0) 37), 0, corrected (fT 0) 1 0 0, by decide +kernel⟩
def g0 (v : Word) (f : FcgSt → FcgSt) : State := let s := regs fB .fcg 1 [(Reg.FCG.CAL_SEL, v)]; setFcg s 1 (f (fcgOf s 1))
theorem witness_converter_calibrations_1 : ∃ (s : State) (g : Fin 3) (chk : BitVec 16) (v : Nat), (ActsNow s .fcg g.val 0x10 .ap0 chk) ∧ (v = rf s .fcg g.val Reg.FCG.CAL_SEL 0 4) :=
  ⟨g0 8 id, 1, 0xFFEF, 8, actsNow_of (by decide +kernel), by decide +kernel⟩
def gY (v : Word) : State := regs (g0 v (fun x => { x with age := [(8, 89999999)] })) .fcg 1 [(Reg.FCG.BOB_AGE, 100)]
theorem witness_converter_calibrations_1b : ∃ (s : State) (g : Fin 3) (chk : BitVec 16) (v : Nat), (ActsNow s .fcg g.val 0x10 .ap0 chk) ∧ (v = rf s .fcg g.val Reg.FCG.CAL_SEL 0 4) :=
  ⟨g0 1 (fun x => { x with cur := some 3, queue := [5] }), 1, 0xFFEF, 1, actsNow_of (by decide +kernel), by decide +kernel⟩
def gP (ph : Nat) (f : FcgSt → FcgSt) : State := mod (regs (g0 8 f) .fcg 1 [(Reg.FCG.CAL_CFG, 0x00050041)]) .fcg 1 (fun p => { p with busy := true, prog := progWord 1 ph 0 })
theorem witness_converter_calibrations_2 : ∃ (s : State) (g : Fin 3) (v : Nat) (ofs : Int) (gain : Nat), ((fcgOf s g.val).cur = some v) ∧ (opPhase s .fcg g.val = 1) ∧ ((fcgOf s g.val).startup = false) ∧ (coefOk ofs gain = true) :=
  ⟨gP 1 (fun x => { x with cur := some 8 }), 1, 8, -100, 4200000, by decide +kernel⟩
theorem witness_converter_calibrations_2b : ∃ (s : State) (g : Fin 3) (v : Nat) (ofs : Int) (gain : Nat), ((fcgOf s g.val).cur = some v) ∧ (opPhase s .fcg g.val = 1) ∧ ((fcgOf s g.val).startup = false) ∧ (coefOk ofs gain = true) :=
  ⟨gP 1 (fun x => { x with cur := some 3, take := true }), 1, 3, -100, 4200000, by decide +kernel⟩
def gC (ph : Nat) (d : Int) : State := gP ph (fun x => { x with cur := some 3, take := true, pairs := 4, diff := d })
theorem witness_converter_calibrations_3 : ∃ (s : State) (g : Fin 3) (t : Nat) (v : Nat) (ph : Nat) (c : Instr), ((ph, c) ∈ [(2, Instr.shadowComplete g t), (4, .verifyComplete g t)]) ∧ (v < 8) ∧ ((fcgOf s g.val).cur = some v) ∧ (opPhase s .fcg g.val = ph) ∧ ((fcgOf s g.val).passed = false) ∧ (rf s .fcg g.val Reg.FCG.CAL_CFG 4 11 ≤ (fcgOf s g.val).pairs) :=
  ⟨gC 2 7, 1, 90000100, 3, 2, .shadowComplete 1 90000100, by decide +kernel⟩
theorem witness_converter_calibrations_3b : ∃ (s : State) (g : Fin 3) (t : Nat) (v : Nat) (ph : Nat) (c : Instr), ((ph, c) ∈ [(2, Instr.shadowComplete g t), (4, .verifyComplete g t)]) ∧ (v < 8) ∧ ((fcgOf s g.val).cur = some v) ∧ (opPhase s .fcg g.val = ph) ∧ ((fcgOf s g.val).passed = false) ∧ (rf s .fcg g.val Reg.FCG.CAL_CFG 4 11 ≤ (fcgOf s g.val).pairs) :=
  ⟨gC 4 777, 1, 90000100, 3, 4, .verifyComplete 1 90000100, by decide +kernel⟩
theorem witness_converter_calibrations_4 : ∃ (s : State) (g : Fin 3) (v : Nat) (ofs : Int) (gain : Nat), ((fcgOf s g.val).cur = some v) ∧ (v < 8) ∧ (opPhase s .fcg g.val = 3) ∧ (coefOk ofs gain = true) :=
  ⟨gC 3 7, 1, 3, -100, 4200000, by decide +kernel⟩
theorem witness_converter_calibrations_4b : ∃ (s : State) (g : Fin 3) (v : Nat) (ofs : Int) (gain : Nat), ((fcgOf s g.val).cur = some v) ∧ (v < 8) ∧ (opPhase s .fcg g.val = 3) ∧ (coefOk ofs gain = true) :=
  ⟨gP 3 (fun x => { x with cur := some 3 }), 1, 3, -100, 4200000, by decide +kernel⟩
theorem witness_converter_calibrations_5 : ∃ (s : State) (g : Fin 3) (t : Nat) (v : Nat), ((fcgOf s g.val).cur = some v) ∧ (opPhase s .fcg g.val = 2 ∨ opPhase s .fcg g.val = 4) ∧ ((fcgOf s g.val).passed = false) ∧ ((fcgOf s g.val).queue = []) ∧ ((fcgOf s g.val).startup = false) ∧ ((fcgOf s g.val).since + 8000000 * (rg s .fcg g.val Reg.FCG.CAL_TMO).toNat ≤ (s.at t).lap t) :=
  ⟨regs (gC 4 7) .fcg 1 [(Reg.FCG.CAL_TMO, 1)], 1, 90000100, 3, by decide +kernel⟩
theorem witness_converter_calibrations_6 : ∃ (s : State) (c : Fin 96) (t : Nat) (k : Nat) (g : Nat), (stOf s .fch c.val = .run) ∧ ((fchOf s c.val).trig.isSome = true) ∧ ((fchOf s c.val).start + chOcc s c.val ≤ s.lap t) ∧ (g = chGroup c.val) ∧ (k = chConv c.val) ∧ (RaiseLogs (s.at t) 0x17 .fcg g k) :=
  ⟨setFch (regs fB .fcg 1 [(Reg.FCG.STAT, 0xF0F)]) 37 { fchOf fB 37 with trig := some 90000000, start := 90000000 }, 37, 90010000, 1, 1, by unfold RaiseLogs; decide +kernel⟩
theorem witness_converter_calibrations_6b : ∃ (s : State) (c : Fin 96) (t : Nat) (k : Nat) (g : Nat), (stOf s .fch c.val = .run) ∧ ((fchOf s c.val).trig.isSome = true) ∧ ((fchOf s c.val).start + chOcc s c.val ≤ s.lap t) ∧ (g = chGroup c.val) ∧ (k = chConv c.val) ∧ (RaiseLogs (s.at t) 0x17 .fcg g k) :=
  ⟨setFch (regs fB .fcg 1 [(Reg.FCG.STAT, 0x30F)]) 37 { fchOf fB 37 with trig := some 90000000, start := 90000000 }, 37, 90010000, 1, 1, by unfold RaiseLogs; decide +kernel⟩
theorem witness_converter_calibrations_7 : ∃ (s : State) (g : Fin 3) (t : Nat) (v : Nat), (rb s .fcg g.val Reg.FCG.CAL_CFG 0 = true) ∧ (inSt s .fcg g.val [.idle, .run, .update] = true) ∧ ((fcgOf s g.val).cur = none) ∧ ((fcgOf s g.val).queue = []) ∧ ((fcgOf s g.val).back = none) ∧ ((fcgOf s g.val).toPark = none) ∧ (fcgParked s g.val = none) ∧ (rb s .fcg g.val Reg.FCG.STAT 5 = false) ∧ ((fcgOf s g.val).startup = false) ∧ (v = (fcgOf s g.val).auto % 8) ∧ ((fcgOf s g.val).autoAt + perS * (rg s .fcg g.val Reg.FCG.CAL_PERIOD).toNat ≤ (s.at t).lap t) :=
  ⟨regs (gP 15 (fun x => { x with auto := 7 })) .fcg 1 [(Reg.FCG.STAT, 0xF0F), (Reg.FCG.CAL_PERIOD, 0)], 1, 90000000, 7, by decide +kernel⟩
theorem witness_converter_calibrations_8 : ∃ (s : State) (g : Fin 3) (cs : List (Int × Nat)), ((fcgOf s g.val).startup = true) ∧ ((fcgOf s g.val).cur = none) ∧ ((fcgOf s g.val).queue = []) ∧ (cs.length = 9) :=
  ⟨gP 1 (fun x => { x with startup := true }), 1, (List.range 9).map (fun (i : Nat) => ((i : Int), 4194304)), by decide +kernel⟩
theorem witness_converter_calibrations_8b : ∃ (s : State) (g : Fin 3) (cs : List (Int × Nat)), ((fcgOf s g.val).startup = true) ∧ ((fcgOf s g.val).cur = none) ∧ ((fcgOf s g.val).queue = []) ∧ (cs.length = 9) :=
  ⟨gP 1 (fun x => { x with startup := true }), 1, (List.range 9).map (fun (i : Nat) => ((i : Int), if i < 4 then 4194304 else 0)), by decide +kernel⟩
theorem witness_converter_calibrations_1c : ∃ (s : State) (g : Fin 3) (chk : BitVec 16) (v : Nat), (ActsNow s .fcg g.val 0x10 .ap0 chk) ∧ (v = rf s .fcg g.val Reg.FCG.CAL_SEL 0 4) :=
  ⟨g0 1 (fun x => { x with back := some true }), 1, 0xFFEF, 1, actsNow_of (by decide +kernel), by decide +kernel⟩
theorem witness_converter_calibrations_1d : ∃ (s : State) (g : Fin 3) (chk : BitVec 16) (v : Nat), (ActsNow s .fcg g.val 0x10 .ap0 chk) ∧ (v = rf s .fcg g.val Reg.FCG.CAL_SEL 0 4) :=
  ⟨setSt (g0 1 id) .fcg 1 .off, 1, 0xFFEF, 1, actsNow_of (by decide +kernel), by decide +kernel⟩
theorem witness_converter_calibrations_6c : ∃ (s : State) (c : Fin 96) (t : Nat) (k : Nat) (g : Nat), (stOf s .fch c.val = .run) ∧ ((fchOf s c.val).trig.isSome = true) ∧ ((fchOf s c.val).start + chOcc s c.val ≤ s.lap t) ∧ (g = chGroup c.val) ∧ (k = chConv c.val) ∧ (RaiseLogs (s.at t) 0x17 .fcg g k) :=
  ⟨setFch (setFcg (regs fB .fcg 1 [(Reg.FCG.STAT, 0xF03)]) 1 { fcgOf fB 1 with cur := some 3 }) 37 { fchOf fB 37 with trig := some 90000000, start := 90000000 }, 37, 90010000, 1, 1, by unfold RaiseLogs; decide +kernel⟩
def pB (c : Word) : State := regs (pin (warnAll up) .pcv 2 .run) .pcv 2 [(Reg.PCV.SCAN, 0x0030), (Reg.PCV.CFG, c), (Reg.PCV.OW_LIM, 100), (Reg.PCV.CH_CFG + 16, 0x800)]
theorem witness_precision_scans_1 : ∃ (s : State) (k : Fin 8) (t : Nat) (p : Fin 16) (w : Int) (v : Int), (stOf s .pcv k.val = .run) ∧ (PageIdle s (pk .pcv k.val)) ∧ ((pcvOf s k.val).conv = some (p.val, s.lap t)) ∧ (rf s .pcv k.val Reg.PCV.CFG 8 2 = 0) ∧ (v = pcvCorrect s k.val (rf s .pcv k.val (Reg.PCV.CH_CFG + 4 * p.val) 10 3) w) :=
  ⟨setPcv (pB 0) 2 { pcvOf (pB 0) 2 with conv := some (4, 90001000) }, 2, 90001000, 4, 12345, pcvCorrect (pB 0) 2 2 12345, by unfold PageIdle; decide +kernel⟩
theorem witness_precision_scans_1b : ∃ (s : State) (k : Fin 8) (t : Nat) (p : Fin 16) (w : Int) (v : Int), (stOf s .pcv k.val = .run) ∧ (PageIdle s (pk .pcv k.val)) ∧ ((pcvOf s k.val).conv = some (p.val, s.lap t)) ∧ (rf s .pcv k.val Reg.PCV.CFG 8 2 = 0) ∧ (v = pcvCorrect s k.val (rf s .pcv k.val (Reg.PCV.CH_CFG + 4 * p.val) 10 3) w) :=
  ⟨setPcv (pB 0) 2 { pcvOf (pB 0) 2 with conv := some (5, 90001000) }, 2, 90001000, 5, 12345, pcvCorrect (pB 0) 2 0 12345, by unfold PageIdle; decide +kernel⟩
theorem witness_precision_scans_2 : ∃ (s : State) (k : Fin 8) (t : Nat) (p : Fin 16) (w : Int) (v : Int), (stOf s .pcv k.val = .run) ∧ (PageIdle s (pk .pcv k.val)) ∧ ((pcvOf s k.val).conv = some (p.val, s.lap t)) ∧ (rf s .pcv k.val Reg.PCV.CFG 8 2 = 1) ∧ (rb s .pcv k.val Reg.PCV.OPEN p.val = false) ∧ (v = clampI (-8388607) 8388607 (pcvCorrect s k.val (rf s .pcv k.val (Reg.PCV.CH_CFG + 4 * p.val) 10 3) w)) ∧ (if rb s .pcv k.val Reg.PCV.CFG 12 then v ≤ -sw (rg s .pcv k.val Reg.PCV.OW_LIM) else sw (rg s .pcv k.val Reg.PCV.OW_LIM) ≤ v) :=
  ⟨setPcv (regs (pB 0x100) .pcv 2 [(Reg.PCV.OW_LIM, 0)]) 2 { pcvOf (regs (pB 0x100) .pcv 2 [(Reg.PCV.OW_LIM, 0)]) 2 with conv := some (4, 90001000) }, 2, 90001000, 4, 12345, clampI (-8388607) 8388607 (pcvCorrect (pB 0) 2 2 12345), by unfold PageIdle; decide +kernel⟩
def pC (l : List (Nat × Bool)) : State := setPcv (pB 0) 2 { pcvOf (pB 0) 2 with first := true, cal := l, zero := [(2, 55)] }
theorem witness_precision_scans_3 : ∃ (s : State) (k : Fin 8) (g : Nat) (ref : Bool) (l : List (Nat × Bool)) (z : Int), (stOf s .pcv k.val = .run) ∧ (PageIdle s (pk .pcv k.val)) ∧ ((pcvOf s k.val).first = true) ∧ ((pcvOf s k.val).conv = none) ∧ ((pcvOf s k.val).cal = (g, ref) :: l) ∧ (g < 8) ∧ (z = SMap.get (fun _ => 0) (pcvOf s k.val).zero g) :=
  ⟨pC [(2, false), (2, true)], 2, 2, false, [(2, true)], 55, by unfold PageIdle; decide +kernel⟩
theorem witness_precision_scans_3b : ∃ (s : State) (k : Fin 8) (g : Nat) (ref : Bool) (l : List (Nat × Bool)) (z : Int), (stOf s .pcv k.val = .run) ∧ (PageIdle s (pk .pcv k.val)) ∧ ((pcvOf s k.val).first = true) ∧ ((pcvOf s k.val).conv = none) ∧ ((pcvOf s k.val).cal = (g, ref) :: l) ∧ (g < 8) ∧ (z = SMap.get (fun _ => 0) (pcvOf s k.val).zero g) :=
  ⟨pC [(2, false), (2, true)], 2, 2, false, [(2, true)], 55, by unfold PageIdle; decide +kernel⟩
theorem witness_precision_scans_4 : ∃ (s : State) (k : Fin 8) (chk : BitVec 16), (ActsNow s .pcv k.val 0x10 .ap0 chk) :=
  ⟨pB 0, 2, 0xFFEF, actsNow_of (by decide +kernel)⟩
theorem witness_precision_scans_5 : ∃ (s : State) (k : Fin 8) (t : Nat) (p : Option (Fin 16)), (pcvDue s k.val t p = false) :=
  ⟨setPcv (pB 0) 2 { pcvOf (pB 0) 2 with conv := some (4, 90001000) }, 2, 90000000, some 4, by decide +kernel⟩
theorem witness_precision_scans_5b : ∃ (s : State) (k : Fin 8) (t : Nat) (p : Option (Fin 16)), (pcvDue s k.val t p = false) :=
  ⟨setPcv (pB 0) 2 { pcvOf (pB 0) 2 with conv := some (4, 90001000) }, 2, 90001000, none, by decide +kernel⟩
end Sys2Proof.Tests.W09
namespace Sys2Proof.Tests.W10
def eB : State := { regs (pin (pin (pin (warnAll up) .le 2 .run) .sig 0 .run) .frc 0 .run) .le 2 [(Reg.LE.BENCH_CTRL + 16, 1), (Reg.LE.BENCH_PERIOD+16, 100), (Reg.LE.BENCH_PHASE + 16, 50), (Reg.LE.BENCH_BUDGET+16, 50)] with
  sigs := [(9, ⟨0x24020040, 0x201 + 16 * ofN UpdEv.bench.num, 0, 0⟩), (11, ⟨0x30000000, 0x201, 0, 0⟩), (12, ⟨0x30000000, 0x200, 0, 0⟩)] }
theorem witness_logic_benches_1 : ∃ (s : State) (e : Fin 6) (b : Fin 4) (t : Nat) (u : Nat), (stOf s .le e.val = .run) ∧ (halted s (.le e) = false) ∧ (powered s .le e.val = true) ∧ (leBenchEn s e.val b.val = true) ∧ (u = (s.at t).lap t) ∧ (leReleaseAt s e.val b.val u = true) ∧ (((leOf s e.val).bench b.val).last ≠ some u) :=
  ⟨eB, 2, 1, 90800000, 90800000, by decide +kernel⟩
def eB1 : State := setLe eB 2 { (leOf eB 2).setBench 1 ⟨some 90000000, some 90000000, false, []⟩ with slot0 := some ⟨0, 0, 0, [], [⟨9, 1, 1, false⟩], [], [], []⟩ }
theorem witness_logic_benches_2 : ∃ (s : State) (e : Fin 6) (b : Fin 4), (stOf s .le e.val = .run) ∧ (halted s (.le e) = false) ∧ (PageIdle s (pk .le e.val)) ∧ (leMayStart s e.val b.val = true) :=
  ⟨eB1, 2, 1, by unfold PageIdle; decide +kernel⟩
theorem witness_logic_benches_2b : ∃ (s : State) (e : Fin 6) (b : Fin 4), (stOf s .le e.val = .run) ∧ (halted s (.le e) = false) ∧ (PageIdle s (pk .le e.val)) ∧ (leMayStart s e.val b.val = true) :=
  ⟨eB1, 2, 1, by unfold PageIdle; decide +kernel⟩
def eR : State := setLe eB 2 ((leOf eB 2).setBench 1 ⟨some 90000000, some 90000000, true, []⟩)
theorem witness_logic_benches_4 : ∃ (s : State) (e : Fin 6) (b : Fin 4) (t : Nat) (u : Nat) (n : Nat) (k : Nat) (snap : List (Nat × BitVec 64)), (halted s (.le e) = false) ∧ (((leOf s e.val).bench b.val).run = true) ∧ (∀ h, h < b.val → ((leOf s e.val).bench h).run = false) ∧ (((leOf s e.val).bench b.val).rel = some u) ∧ (leTooLate (s.at t) e.val b.val = false) ∧ (n = ((s.at t).lap (s.at t).now - u) / 20) ∧ (k = leSlotAct s e.val b.val) ∧ (snap = ((leOf s e.val).bench b.val).snap) :=
  ⟨eR, 2, 1, 90300000, 90000000, 15000, 0, [], by decide +kernel⟩
theorem witness_logic_benches_6 : ∃ (s : State) (e : Fin 6) (b : Fin 4) (t : Nat) (u : Nat) (id : BitVec 16) (acts : List LeAct) (y : LeSlot) (w : BitVec 64), (halted s (.le e) = false) ∧ (((leOf s e.val).bench b.val).run = true) ∧ (∀ h, h < b.val → ((leOf s e.val).bench h).run = false) ∧ (((leOf s e.val).bench b.val).rel = some u) ∧ (leTooLate (s.at t) e.val b.val = false) ∧ ((sigEnt s id.toNat).en = true) ∧ ((leOf s e.val).slot (leSlotAct s e.val b.val) = some y) ∧ ((leCycle b.val (u / 8000) ((leOf s e.val).bench b.val).snap acts y).held = [(id, w)]) :=
  ⟨setLe eR 2 { leOf eR 2 with slot0 := some ⟨0, 0, 0, [⟨5, 0x0030, 1, 0, List.replicate 8 0, [], false⟩], [], [], [], []⟩ }, 2, 1, 90300000, 90000000, 9, [.write 9 (.lit 0x123456789)], ⟨0, 0, 0, [⟨5, 0x0030, 1, 0, List.replicate 8 0, [], false⟩], [], [], [], []⟩, 0x123456789, by decide +kernel⟩
theorem witness_logic_benches_6b : ∃ (s : State) (e : Fin 6) (b : Fin 4) (t : Nat) (u : Nat) (id : BitVec 16) (acts : List LeAct) (y : LeSlot) (w : BitVec 64), (halted s (.le e) = false) ∧ (((leOf s e.val).bench b.val).run = true) ∧ (∀ h, h < b.val → ((leOf s e.val).bench h).run = false) ∧ (((leOf s e.val).bench b.val).rel = some u) ∧ (leTooLate (s.at t) e.val b.val = false) ∧ ((sigEnt s id.toNat).en = true) ∧ ((leOf s e.val).slot (leSlotAct s e.val b.val) = some y) ∧ ((leCycle b.val (u / 8000) ((leOf s e.val).bench b.val).snap acts y).held = [(id, w)]) :=
  ⟨setLe eR 2 { leOf eR 2 with slot0 := some ⟨0, 0, 0, [⟨5, 0x0030, 1, 0, List.replicate 8 0, [], false⟩], [], [], [], []⟩ }, 2, 1, 90300000, 90000000, 11, [.write 11 (.lit 0x123456789)], ⟨0, 0, 0, [⟨5, 0x0030, 1, 0, List.replicate 8 0, [], false⟩], [], [], [], []⟩, 0x123456789, by decide +kernel⟩
theorem witness_logic_benches_7 : ∃ (s : State) (e : Fin 6) (b : Fin 4) (t : Nat), (inSt s .le e.val [.run, .hold] = true) ∧ (halted s (.le e) = false) ∧ (leOverdue (s.at t) e.val b.val = true) :=
  ⟨eR, 2, 1, 90500000, by decide +kernel⟩
theorem witness_logic_benches_5 : ∃ (s : State) (e : Fin 6) (b : Fin 4) (h : Fin 4), (h < b) ∧ (((leOf s e.val).bench h.val).run = true) :=
  ⟨setLe eR 2 (((leOf eR 2).setBench 0 ⟨some 90000000, some 90000000, true, []⟩)), 2, 1, 0, by decide +kernel⟩
def img (a : Nat) (l : List (Nat × Word)) (s : State) : State := l.foldl (fun s e => putMem32 s (a + e.1) e.2) s
def A : Nat := 0x80000000
def eI : State := img 0x800000000 [(0, 0x4C450001), (4, 64), (8, 64), (0x10, 64), (0x18, 64), (0x20, 0xFFFFFFFF), (0x24, 0xFFFFFFFF), (0x28, 0xFFFFFFFF), (0x2C, 0xFFFFFFFF)] (regs (pin eB .le 2 .idle) .le 2 [(Reg.LE.LOAD_SRC_HI, 8)])
theorem witness_programs_and_forces_1 : ∃ (s : State) (e : Fin 6) (chk : BitVec 16), (ActsNow s .le e.val 0x10 .ap0 chk) :=
  ⟨eI, 2, 0xFFEF, actsNow_of (by decide +kernel)⟩
def eL : State := setLe eI 2 { leOf eI 2 with src := some 0x800000000 }
def ySlot : LeSlot := match leLoad eL 2 0x800000000 [] [] false with | .ok y => y | .error _ => ⟨9,9,9,[],[],[],[],[]⟩
theorem witness_programs_and_forces_2 : ∃ (s : State) (e : Fin 6) (prog : List LeCode) (env : List (Nat × LeCode)) (a : Nat) (y : LeSlot), (powered s .le e.val = true) ∧ ((leOf s e.val).src = some a) ∧ ((leLoad (setLe s e.val { leOf s e.val with src := none }) e.val a prog env false).toOption = some y) :=
  ⟨eL, 2, [], [], 0x800000000, ySlot, by decide +kernel⟩
theorem witness_programs_and_forces_3 : ∃ (s : State) (e : Fin 6) (a : Nat) (o : Nat), (powered s .le e.val = true) ∧ ((leOf s e.val).src = some a) ∧ (leHeaderBad s a = some o) :=
  ⟨setLe eI 2 { leOf eI 2 with src := some 0x800000004 }, 2, 0x800000004, 0, by decide +kernel⟩
theorem witness_programs_and_forces_5 : ∃ (s : State) (e : Fin 6) (chk : BitVec 16), (ActsNow s .le e.val 0x11 .ap0 chk) :=
  ⟨eI, 2, 0xFFEE, actsNow_of (by decide +kernel)⟩
theorem witness_programs_and_forces_6 : ∃ (s : State) (e : Fin 6) (chk : BitVec 16), (ActsNow s .le e.val 0x12 .ap0 chk) :=
  ⟨setLe eI 2 { leOf eI 2 with slot0 := some { ySlot with src := 0x800000000 } }, 2, 0xFFED, actsNow_of (by decide +kernel)⟩
theorem witness_programs_and_forces_7 : ∃ (s : State) (id : BitVec 16) (v : BitVec 64) (i : Nat), (answers s ⟨.frc, 0⟩ = true) ∧ ((s.page (pk .frc 0)).key ≠ .window) ∧ ((s.page (pk .frc 0)).locked = false) ∧ (PageIdle s (pk .frc 0)) ∧ (StagedOnce s) ∧ (stOf s .frc 0 ≠ .off) ∧ (id ≠ 0) ∧ ((sigEnt s id.toNat).en = true) ∧ (forceBad (sigEnt s id.toNat).typ (v.setWidth 32) ((v >>> 32).setWidth 32) = none) ∧ ((frcFind s id.toNat).or (frcFree s) = some i) :=
  ⟨eB, 11, 0xFFFFFFFF80000000, 0, by decide +kernel, by decide +kernel, by decide +kernel, by unfold PageIdle; decide +kernel, stagedOnce_of (by decide +kernel), by decide +kernel⟩
def eF : State := { eB with frc := [(3, ⟨11, 5, 1, false⟩), (4, ⟨9, 5, 1, true⟩)], slots := [(9, { Slot.reset with forced := true, value := 5 }), (11, { Slot.reset with forced := true, value := 5, raw := 6 })] }
theorem witness_programs_and_forces_7b : ∃ (s : State) (id : BitVec 16) (v : BitVec 64) (i : Nat), (answers s ⟨.frc, 0⟩ = true) ∧ ((s.page (pk .frc 0)).key ≠ .window) ∧ ((s.page (pk .frc 0)).locked = false) ∧ (PageIdle s (pk .frc 0)) ∧ (StagedOnce s) ∧ (stOf s .frc 0 ≠ .off) ∧ (id ≠ 0) ∧ ((sigEnt s id.toNat).en = true) ∧ (forceBad (sigEnt s id.toNat).typ (v.setWidth 32) ((v >>> 32).setWidth 32) = none) ∧ ((frcFind s id.toNat).or (frcFree s) = some i) :=
  ⟨{ eF with sigs := eF.sigs ++ [(13, ⟨0x30000000, 0x201, 0, 0⟩)] }, 13, 0xFFFFFFFF80000000, 0, by decide +kernel, by decide +kernel, by decide +kernel, by unfold PageIdle; decide +kernel, stagedOnce_of (by decide +kernel), by decide +kernel⟩
theorem witness_programs_and_forces_8 : ∃ (s : State) (id : BitVec 16) (i : Nat), (answers s ⟨.frc, 0⟩ = true) ∧ ((s.page (pk .frc 0)).key ≠ .window) ∧ ((s.page (pk .frc 0)).locked = false) ∧ (PageIdle s (pk .frc 0)) ∧ (StagedOnce s) ∧ (id ≠ 0) ∧ (frcFind s id.toNat = some i) ∧ ((frcEnt s i).id = id.toNat) :=
  ⟨eF, 11, 3, by decide +kernel, by decide +kernel, by decide +kernel, by unfold PageIdle; decide +kernel, stagedOnce_of (by decide +kernel), by decide +kernel⟩
theorem witness_programs_and_forces_9 : ∃ (s : State) (chk : BitVec 16), (ActsNow s .frc 0 0x10 .ap0 chk) :=
  ⟨eF, 0xFFEF, actsNow_of (by decide +kernel)⟩
end Sys2Proof.Tests.W10
namespace Sys2Proof.Tests.W11
def st0 (k d : Nat) (f re : Bool) (ar : Nat) : RStep := ⟨d, k, f, re, 0, 1, 11, 5, 2, 100, ar⟩
def bk (k d : Nat) (f : Bool) : RBank := ⟨[st0 k d f false 3, st0 0 5 false false 0, st0 0 6 true false 0], [⟨12, 0, 0, 0xFFFFFFFF80000005⟩], 0, 0xFFFF, 0xFFFF, 7, 8⟩
def rB (k d : Nat) (f : Bool) : State := { setRseq (regs (pin (pin up .rseq 7 .run) .sig 0 .run) .rseq 7 [(Reg.RSEQ.CFG, 1)]) 7 { RseqSt.reset with bank0 := some (bk k d f), el := 4, edge := 9 } with
  sigs := [(11, ⟨0x30000000, 0x201, 0, 0⟩), (12, ⟨0x26070000, 0x201 + 16 * ofN UpdEv.step.num, 0, 0⟩), (13, ⟨0x26070000, 0x203 + 16 * ofN UpdEv.step.num, 0, 0⟩)], slots := [(11, { Slot.reset with never := false, value := 100, raw := 100 })] }
theorem witness_recipe_clock_1 : ∃ (s : State) (r : Fin 8) (t : Nat) (x : RseqSt) (y : RBank) (st : RStep) (c : Bool), (stOf s .rseq r.val = .run) ∧ (PageIdle s (pk .rseq r.val)) ∧ (x = rseqOf s r.val) ∧ (x.ending = none) ∧ (x.timeout = false) ∧ (x.runs = []) ∧ (x.holdReq = none) ∧ (x.abortReq = none) ∧ (rseqRecipe s r.val = some y) ∧ (y.steps[x.cur]? = some st) ∧ (st.kind < 4) ∧ (rseqEdgeAt s r.val ((s.at t).lap t) = true) ∧ (c = rCond s st) :=
  ⟨rB 0 5 false, 7, 90400000, rseqOf (rB 0 5 false) 7, bk 0 5 false, st0 0 5 false false 3, true, by unfold PageIdle; decide +kernel⟩
def rN (k d : Nat) : State := { rB k d false with slots := [] }
def bkR : RBank := ⟨[{ st0 0 5 false false 3 with rest := true }, st0 0 5 false false 0, st0 0 6 true false 0], [⟨12, 0, 0, 0xFFFFFFFF80000005⟩], 0, 0xFFFF, 0xFFFF, 7, 8⟩
def rR (n : Nat) : State := setRseq (rB 0 5 false) 7 { rseqOf (rB 0 5 false) 7 with bank0 := some bkR, ending := some (.next 1 0), log := List.replicate n ⟨7, 8⟩ }
theorem witness_recipe_clock_1b : ∃ (s : State) (r : Fin 8) (t : Nat) (x : RseqSt) (y : RBank) (st : RStep) (c : Bool), (stOf s .rseq r.val = .run) ∧ (PageIdle s (pk .rseq r.val)) ∧ (x = rseqOf s r.val) ∧ (x.ending = none) ∧ (x.timeout = false) ∧ (x.runs = []) ∧ (x.holdReq = none) ∧ (x.abortReq = none) ∧ (rseqRecipe s r.val = some y) ∧ (y.steps[x.cur]? = some st) ∧ (st.kind < 4) ∧ (rseqEdgeAt s r.val ((s.at t).lap t) = true) ∧ (c = rCond s st) :=
  ⟨rN 3 9, 7, 90400000, rseqOf (rN 3 9) 7, bk 3 9 false, st0 3 9 false false 3, false, by unfold PageIdle; decide +kernel⟩
def rw (a : RRun) : State := setRseq (rB 0 50 false) 7 { rseqOf (rB 0 50 false) 7 with runs := [a] }
def ra : RRun := ⟨12, false, 10, -91, 3, 0⟩
theorem witness_recipe_clock_2 : ∃ (s : State) (r : Fin 8) (t : Nat) (x : RseqSt) (y : RBank) (a : RRun), (stOf s .rseq r.val = .run) ∧ (PageIdle s (pk .rseq r.val)) ∧ (x = rseqOf s r.val) ∧ (x.ending = none) ∧ (x.timeout = false) ∧ (x.runs = [a]) ∧ (a.pulse = false) ∧ (rseqRecipe s r.val = some y) ∧ (a.sig ≠ 0) ∧ ((sigEnt s a.sig).en = true) ∧ (sigRun s = true) ∧ (rseqOwns r.val (sigEnt s a.sig) = true) ∧ ((sigEnt s a.sig).typ = 1) ∧ (a.j < a.n) ∧ (-2147483648 ≤ a.s) ∧ (a.s < 2147483648) ∧ (-2147483648 ≤ a.g) ∧ (a.g < 2147483648) ∧ (rseqEdgeAt s r.val ((s.at t).lap t) = true) :=
  ⟨rw ra, 7, 90400000, rseqOf (rw ra) 7, bk 0 50 false, ra, by unfold PageIdle; decide +kernel⟩
theorem witness_recipe_clock_2b : ∃ (s : State) (r : Fin 8) (t : Nat) (x : RseqSt) (y : RBank) (a : RRun), (stOf s .rseq r.val = .run) ∧ (PageIdle s (pk .rseq r.val)) ∧ (x = rseqOf s r.val) ∧ (x.ending = none) ∧ (x.timeout = false) ∧ (x.runs = [a]) ∧ (a.pulse = false) ∧ (rseqRecipe s r.val = some y) ∧ (a.sig ≠ 0) ∧ ((sigEnt s a.sig).en = true) ∧ (sigRun s = true) ∧ (rseqOwns r.val (sigEnt s a.sig) = true) ∧ ((sigEnt s a.sig).typ = 1) ∧ (a.j < a.n) ∧ (-2147483648 ≤ a.s) ∧ (a.s < 2147483648) ∧ (-2147483648 ≤ a.g) ∧ (a.g < 2147483648) ∧ (rseqEdgeAt s r.val ((s.at t).lap t) = true) :=
  ⟨rw { ra with j := 2 }, 7, 90400000, rseqOf (rw { ra with j := 2 }) 7, bk 0 50 false, { ra with j := 2 }, by unfold PageIdle; decide +kernel⟩
def rE (d : REnd) (n : Nat) (f : Bool) : State := setRseq (rB 0 5 f) 7 { rseqOf (rB 0 5 f) 7 with ending := some d, log := List.replicate n ⟨7, 8⟩ }
theorem witness_recipe_clock_3 : ∃ (s : State) (r : Fin 8) (x : RseqSt) (y : RBank) (st : RStep) (d : Nat) (c : Nat) (a : RAct), (stOf s .rseq r.val = .run) ∧ (PageIdle s (pk .rseq r.val)) ∧ (x = rseqOf s r.val) ∧ (x.ending = some (.next d c)) ∧ (rseqRecipe s r.val = some y) ∧ (y.steps[x.cur]? = some st) ∧ (st.fin = false) ∧ (st.rest = false) ∧ (x.runs = []) ∧ (y.actsOf d = [a]) ∧ (a.kind = 0) ∧ (a.sig ≠ 0) ∧ ((sigEnt s a.sig).en = true) ∧ (sigRun s = true) ∧ (rseqOwns r.val (sigEnt s a.sig) = true) :=
  ⟨rE (.next 1 0) 0 false, 7, rseqOf (rE (.next 1 0) 0 false) 7, bk 0 5 false, st0 0 5 false false 3, 1, 0, ⟨12, 0, 0, 0xFFFFFFFF80000005⟩, by unfold PageIdle; decide +kernel⟩
theorem witness_recipe_clock_3b : ∃ (s : State) (r : Fin 8) (x : RseqSt) (y : RBank) (st : RStep) (d : Nat) (c : Nat) (a : RAct), (stOf s .rseq r.val = .run) ∧ (PageIdle s (pk .rseq r.val)) ∧ (x = rseqOf s r.val) ∧ (x.ending = some (.next d c)) ∧ (rseqRecipe s r.val = some y) ∧ (y.steps[x.cur]? = some st) ∧ (st.fin = false) ∧ (st.rest = false) ∧ (x.runs = []) ∧ (y.actsOf d = [a]) ∧ (a.kind = 0) ∧ (a.sig ≠ 0) ∧ ((sigEnt s a.sig).en = true) ∧ (sigRun s = true) ∧ (rseqOwns r.val (sigEnt s a.sig) = true) :=
  ⟨rE (.next 2 1) 64 false, 7, rseqOf (rE (.next 2 1) 64 false) 7, bk 0 5 false, st0 0 5 false false 3, 2, 1, ⟨12, 0, 0, 0xFFFFFFFF80000005⟩, by unfold PageIdle; decide +kernel⟩
theorem witness_recipe_clock_4 : ∃ (s : State) (r : Fin 8) (x : RseqSt) (y : RBank) (st : RStep) (d : Nat) (c : Nat), (stOf s .rseq r.val = .run) ∧ (PageIdle s (pk .rseq r.val)) ∧ (x = rseqOf s r.val) ∧ (x.ending = some (.next d c)) ∧ (rseqRecipe s r.val = some y) ∧ (y.steps[x.cur]? = some st) ∧ (st.fin = true) ∧ (x.runs = []) :=
  ⟨rE (.next 1 0) 64 true, 7, rseqOf (rE (.next 1 0) 64 true) 7, bk 0 5 true, st0 0 5 true false 3, 1, 0, by unfold PageIdle; decide +kernel⟩
def rT : State := setRseq (rB 1 5 false) 7 { rseqOf (rB 1 5 false) 7 with timeout := true }
theorem witness_recipe_clock_6 : ∃ (s : State) (r : Fin 8), (inSt s .rseq r.val [.run, .hold] = true) ∧ ((rseqOf s r.val).timeout = true) :=
  ⟨rT, 7, by decide +kernel⟩
def rP : RRun := ⟨13, true, 0, 1, 0, 0⟩
theorem witness_recipe_clock_7 : ∃ (s : State) (r : Fin 8) (a : RRun), (stOf s .rseq r.val ≠ .off) ∧ ((rseqOf s r.val).runs = [a]) ∧ (a.pulse = true) ∧ (a.n = 0) ∧ (a.sig ≠ 0) ∧ ((sigEnt s a.sig).en = true) ∧ (sigRun s = true) ∧ (rseqOwns r.val (sigEnt s a.sig) = true) ∧ ((sigEnt s a.sig).typ = 3) ∧ (0 ≤ a.g) ∧ (a.g ≤ 1) :=
  ⟨rw rP, 7, rP, by decide +kernel⟩
theorem witness_recipe_clock_5 : ∃ (s : State) (r : Fin 8) (x : RseqSt) (y : RBank) (st : RStep) (d : Nat) (c : Nat), (stOf s .rseq r.val = .run) ∧ (PageIdle s (pk .rseq r.val)) ∧ (x = rseqOf s r.val) ∧ (x.ending = some (.next d c)) ∧ (rseqRecipe s r.val = some y) ∧ (y.steps[x.cur]? = some st) ∧ (st.fin = false) ∧ (st.rest = true) ∧ (x.path ≠ 2) ∧ (x.runs = []) :=
  ⟨rR 1, 7, rseqOf (rR 1) 7, bkR, { st0 0 5 false false 3 with rest := true }, 1, 0, by unfold PageIdle; decide +kernel⟩
theorem witness_recipe_clock_5b : ∃ (s : State) (r : Fin 8) (x : RseqSt) (y : RBank) (st : RStep) (d : Nat) (c : Nat), (stOf s .rseq r.val = .run) ∧ (PageIdle s (pk .rseq r.val)) ∧ (x = rseqOf s r.val) ∧ (x.ending = some (.next d c)) ∧ (rseqRecipe s r.val = some y) ∧ (y.steps[x.cur]? = some st) ∧ (st.fin = false) ∧ (st.rest = true) ∧ (x.path ≠ 2) ∧ (x.runs = []) :=
  ⟨rR 64, 7, rseqOf (rR 64) 7, bkR, { st0 0 5 false false 3 with rest := true }, 1, 0, by unfold PageIdle; decide +kernel⟩
def rI : State := regs (rB 0 5 false) .rseq 7 [(Reg.RSEQ.LOAD_SRC_HI, 8)]
def rHA (a : Nat) : State := setSt (setRseq rI 7 { rseqOf rI 7 with bank0 := some { bk 0 5 false with abort := a } }) .rseq 7 .hold
theorem witness_recipe_programs_1 : ∃ (s : State) (r : Fin 8) (chk : BitVec 16) (k : Nat), (ActsNow s .rseq r.val 0x10 .ap0 chk) ∧ (k = 1 - rseqActive s r.val) :=
  ⟨rI, 7, 0xFFEF, 1, actsNow_of (by decide +kernel), by decide +kernel⟩
def img (a : Nat) (l : List (Nat × Word)) (s : State) : State := l.foldl (fun s e => putMem32 s (a + e.1) e.2) s
def im (c : Word) : State := img 0x10000000 [(0, 0x52530001), (4, 112), (8, 1), (12, 1), (16, 64), (20, 96), (24, 0), (28, 0xFFFF), (32, 0xFFFF), (36, 5), (40, c),
  (64, 0x08000005), (68, 0x4000), (96, 12), (104, 9)] (setRseq rI 7 { rseqOf rI 7 with src := some (0x10000000, 1) })
def imC : Word := ofN (imgCrc (im 0) 0x10000000).toNat
def yb : RBank := ((rLoad (im imC) 7 0x10000000 false).toOption).getD (bk 0 0 true)
theorem witness_recipe_programs_2 : ∃ (s : State) (r : Fin 8) (a : Nat) (k : Nat) (y : RBank), (powered s .rseq r.val = true) ∧ ((rseqOf s r.val).src = some (a, k)) ∧ (k ≤ 1) ∧ ((rLoad s r.val a false).toOption = some y) :=
  ⟨im imC, 7, 0x10000000, 1, yb, by decide +kernel⟩
theorem witness_recipe_programs_3 : ∃ (s : State) (r : Fin 8) (a : Nat) (k : Nat) (c : ErrCode) (kind : Nat) (item : Nat), (powered s .rseq r.val = true) ∧ ((rseqOf s r.val).src = some (a, k)) ∧ (rHeaderBad s a false = some (c, kind, item)) :=
  ⟨setRseq rI 7 { rseqOf rI 7 with src := some (0x10000004, 1) }, 7, 0x10000004, 1, .range, 1, 0, by decide +kernel⟩
theorem witness_recipe_programs_5 : ∃ (s : State) (r : Fin 8) (chk : BitVec 16), (ActsNow s .rseq r.val 0x11 .ap0 chk) :=
  ⟨rI, 7, 0xFFEE, actsNow_of (by decide +kernel)⟩
theorem witness_recipe_programs_6 : ∃ (s : State) (r : Fin 8) (chk : BitVec 16) (t : Nat) (x : RseqSt) (y : RBank), (WaitsFree s .rseq r.val 0x12 .ap0 chk) ∧ (x = rseqOf s r.val) ∧ (x.ending = none) ∧ (x.timeout = false) ∧ (x.runs = []) ∧ (x.abortReq = none) ∧ (rseqRecipe s r.val = some y) ∧ (rseqEdgeAt s r.val ((s.at t).lap t) = true) :=
  ⟨rI, 7, 0xFFED, 90400000, rseqOf rI 7, bk 0 5 false, waitsFree_of (by decide +kernel), by decide +kernel⟩
theorem witness_recipe_programs_7 : ∃ (s : State) (r : Fin 8) (chk : BitVec 16), (ActsNow s .rseq r.val 0x13 .ap0 chk) :=
  ⟨rE (.next 1 0) 64 false, 7, 0xFFEC, actsNow_of (by decide +kernel)⟩
theorem witness_recipe_programs_8 : ∃ (s : State) (r : Fin 8), (answers s ⟨.rseq, r.val⟩ = true) :=
  ⟨rE (.next 1 0) 64 false, 7, by decide +kernel⟩
theorem witness_recipe_programs_8b : ∃ (s : State) (r : Fin 8), (answers s ⟨.rseq, r.val⟩ = true) :=
  ⟨rI, 7, by decide +kernel⟩
theorem witness_recipe_programs_6b : ∃ (s : State) (r : Fin 8) (chk : BitVec 16) (t : Nat) (x : RseqSt) (y : RBank), (WaitsFree s .rseq r.val 0x12 .ap0 chk) ∧ (x = rseqOf s r.val) ∧ (x.ending = none) ∧ (x.timeout = false) ∧ (x.runs = []) ∧ (x.abortReq = none) ∧ (rseqRecipe s r.val = some y) ∧ (rseqEdgeAt s r.val ((s.at t).lap t) = true) :=
  ⟨rHA 1, 7, 0xFFED, 90400000, rseqOf (rHA 1) 7, { bk 0 5 false with abort := 1 }, waitsFree_of (by decide +kernel), by decide +kernel⟩
theorem witness_recipe_programs_6c : ∃ (s : State) (r : Fin 8) (chk : BitVec 16) (t : Nat) (x : RseqSt) (y : RBank), (WaitsFree s .rseq r.val 0x12 .ap0 chk) ∧ (x = rseqOf s r.val) ∧ (x.ending = none) ∧ (x.timeout = false) ∧ (x.runs = []) ∧ (x.abortReq = none) ∧ (rseqRecipe s r.val = some y) ∧ (rseqEdgeAt s r.val ((s.at t).lap t) = true) :=
  ⟨rHA 0xFFFF, 7, 0xFFED, 90400000, rseqOf (rHA 0xFFFF) 7, { bk 0 5 false with abort := 0xFFFF }, waitsFree_of (by decide +kernel), by decide +kernel⟩
end Sys2Proof.Tests.W11
namespace Sys2Proof.Tests.W12
def gB : State := { pin up .sig 0 .run with sigs := [(11, ⟨0x30000000, 0x201, 5, 6⟩)] }
theorem witness_signals_and_history_1 : ∃ (s : State), (answers s ⟨.sig, 0⟩ = true) ∧ ((s.page (pk .sig 0)).key ≠ .window) ∧ ((s.page (pk .sig 0)).locked = false) :=
  ⟨gB, by decide +kernel⟩
theorem witness_signals_and_history_1b : ∃ (s : State), (answers s ⟨.sig, 0⟩ = true) ∧ ((s.page (pk .sig 0)).key ≠ .window) ∧ ((s.page (pk .sig 0)).locked = false) :=
  ⟨mod gB .sig 0 (fun p => { p with dirty := true }), by decide +kernel⟩
theorem witness_signals_and_history_2 : ∃ (s : State) (id : Nat), (powered s .sig 0 = true) ∧ (s.sigCopy = some id) :=
  ⟨{ mod gB .sig 0 (fun p => { p with staged := [(0x44, 7)], dirty := true, busy := true }) with sigCopy := some 11 }, 11, by decide +kernel⟩
theorem witness_signals_and_history_3 : ∃ (s : State) (chk : BitVec 16), (ActsNow s .sig 0 0x10 .ap0 chk) :=
  ⟨regs gB .sig 0 [(Reg.SIG.LOAD_SRC_LO, 0x10000000), (Reg.SIG.LOAD_FIRST, 65534), (Reg.SIG.LOAD_N, 2)], 0xFFEF, actsNow_of (by decide +kernel)⟩
def img (a : Nat) (l : List (Nat × Word)) (s : State) : State := l.foldl (fun s e => putMem32 s (a + e.1) e.2) s
def gI (w : Word) : State := img 0x10000000 [(0, 0x38000000), (4, 0x201), (8, 0), (12, 1), (16, 0x38000000), (20, w), (24, 0), (28, 0)] gB
def gL (w : Word) : SigLoad := ⟨0x10000000, 65534, 2, crc32c (memBytes (gI w) 0x10000000 32)⟩
theorem witness_signals_and_history_4 : ∃ (s : State) (l : SigLoad), (powered s .sig 0 = true) ∧ (s.sigLoad = some l) ∧ (crc32c (memBytes s l.src (16 * l.n)) = l.crc) ∧ (loadBad { s with sigLoad := none } l l.n = none) :=
  ⟨{ gI 0x201 with sigLoad := some (gL 0x201) }, gL 0x201, by decide +kernel⟩
theorem witness_signals_and_history_5 : ∃ (s : State) (l : SigLoad), (powered s .sig 0 = true) ∧ (s.sigLoad = some l) ∧ (crc32c (memBytes s l.src (16 * l.n)) ≠ l.crc) :=
  ⟨{ gI 0x282 with sigLoad := some { gL 0x282 with crc := 0 } }, { gL 0x282 with crc := 0 }, by decide +kernel⟩
theorem witness_signals_and_history_6 : ∃ (s : State) (l : SigLoad) (id : Nat) (c : ErrCode), (powered s .sig 0 = true) ∧ (s.sigLoad = some l) ∧ (crc32c (memBytes s l.src (16 * l.n)) = l.crc) ∧ (loadBad { s with sigLoad := none } l l.n = some (id, c)) :=
  ⟨{ gI 0x2F2 with sigLoad := some (gL 0x2F2) }, gL 0x2F2, 65535, .range, by decide +kernel⟩
def hB : State := { regs (pin gB .recStore 0 .run) .recStore 0 [(Reg.REC.HIST_AREA, 0x400000), (Reg.REC.CFG, 1)] with histQ := [⟨0, 11, true, false, 0x7FFFFFFFF, 0x123456789ABCDEF0⟩, ⟨0, 12, true, false, 5, 6⟩], histPos := 4194303, histCnt := 5 }
theorem witness_signals_and_history_8 : ∃ (s : State) (e : HistEnt) (q : List HistEnt), (stOf s .recStore 0 = .run) ∧ (histCap s ≠ 0) ∧ (s.histQ = e :: q) ∧ (s.histLost = none) ∧ (s.histCnt < histCap s) ∧ (s.recExp = none) :=
  ⟨hB, ⟨0, 11, true, false, 0x7FFFFFFFF, 0x123456789ABCDEF0⟩, [⟨0, 12, true, false, 5, 6⟩], by decide +kernel⟩
def aB (ph : Word) (x : AcqSt) : State := setAcq { regs (regs (pin (pin gB .recStore 0 .run) .acq 15 .run) .recStore 0 [(Reg.REC.REGION + 60, 0x00400010)]) .acq 15
  [(Reg.ACQ.SRC + 8, 0x000B0001), (Reg.ACQ.PERIOD, 20), (Reg.ACQ.PRE, 3), (Reg.ACQ.POST, 2), (Reg.ACQ.STAT, ph), (Reg.ACQ.REC_SEQ, 7)] with slots := [(11, { Slot.reset with value := 0xFFFFFFFF87654321 })] } 15 x
def x0 : AcqSt := { AcqSt.reset with pre := [⟨1, [1]⟩, ⟨2, [2]⟩], ring := 2 }
theorem witness_acquisition_records_1 : ∃ (s : State) (u : Fin 16) (t : Nat) (i : Nat) (a : Nat) (w : Word) (x : AcqSt), (stOf s .acq u.val = .run) ∧ ((acqInstant (s.at t) u.val ((s.at t).lap t)).1 = true) ∧ (acqDigital (acqReg s u.val) = false) ∧ (acqEvent (acqReg s u.val) = false) ∧ (acqK (acqReg s u.val) = 0) ∧ (rf s .acq u.val Reg.ACQ.TRIG 0 3 = 0) ∧ (acqSources (acqReg s u.val) = [(i, w)]) ∧ (fld w 0 2 = 1) ∧ ((sigEnt s (fld w 16 16)).typ < 2) ∧ (x = acqOf s u.val) ∧ (x.grp = []) ∧ (x.toBegin = false) ∧ (acqSlot s u.val = some a) ∧ (s.recExp = none) :=
  ⟨aB 0 x0, 15, 90000000, 2, 0x801000000 + 2048 * 0 + 7 * 1600, 0x000B0001, x0, by decide +kernel⟩
def x1 : AcqSt := { x0 with trig := true, post := [⟨4, [9]⟩] }
theorem witness_acquisition_records_1b : ∃ (s : State) (u : Fin 16) (t : Nat) (i : Nat) (a : Nat) (w : Word) (x : AcqSt), (stOf s .acq u.val = .run) ∧ ((acqInstant (s.at t) u.val ((s.at t).lap t)).1 = true) ∧ (acqDigital (acqReg s u.val) = false) ∧ (acqEvent (acqReg s u.val) = false) ∧ (acqK (acqReg s u.val) = 0) ∧ (rf s .acq u.val Reg.ACQ.TRIG 0 3 = 0) ∧ (acqSources (acqReg s u.val) = [(i, w)]) ∧ (fld w 0 2 = 1) ∧ ((sigEnt s (fld w 16 16)).typ < 2) ∧ (x = acqOf s u.val) ∧ (x.grp = []) ∧ (x.toBegin = false) ∧ (acqSlot s u.val = some a) ∧ (s.recExp = none) :=
  ⟨aB 2 x1, 15, 90000000, 2, 0x801000000 + 7 * 1600, 0x000B0001, x1, by decide +kernel⟩
theorem witness_acquisition_records_4 : ∃ (s : State) (u : Fin 16) (chk : BitVec 16), (ActsNow s .acq u.val 0x10 .ap0 chk) ∧ (acqFollowers s u.val = []) :=
  ⟨aB 1 x0, 15, 0xFFEF, actsNow_of (by decide +kernel), by decide +kernel⟩
theorem witness_acquisition_records_4b : ∃ (s : State) (u : Fin 16) (chk : BitVec 16), (ActsNow s .acq u.val 0x10 .ap0 chk) ∧ (acqFollowers s u.val = []) :=
  ⟨aB 2 x0, 15, 0xFFEF, actsNow_of (by decide +kernel), by decide +kernel⟩
theorem witness_acquisition_records_5 : ∃ (s : State) (u : Fin 16), (stOf s .acq u.val = .run) ∧ (acqEventDue s u.val = true) ∧ (acqPhase s u.val = 1) ∧ (acqFollowers s u.val = []) :=
  ⟨regs (aB 1 { x0 with busDue := true }) .acq 15 [(Reg.ACQ.TRIG, 4)], 15, by decide +kernel⟩
theorem witness_acquisition_records_6 : ∃ (s : State) (u : Fin 16) (chk : BitVec 16), (ActsNow s .acq u.val 0x11 .ap0 chk) :=
  ⟨aB 1 x0, 15, 0xFFEE, actsNow_of (by decide +kernel)⟩
theorem witness_acquisition_records_7 : ∃ (s : State) (u : Fin 16) (t : Nat), (stOf s .acq u.val = .run) ∧ (acqPhase s u.val = 2) ∧ (acqPost (acqReg s u.val) ≤ (acqOf s u.val).post.length) ∧ (acqCome (s.at t) (acqRearmAt s u.val) = true) :=
  ⟨aB 2 ({ x1 with post := [⟨4, [9]⟩, ⟨4, [8]⟩], full := some 50000000 }), 15, 90000000, by decide +kernel⟩
def x3 : AcqSt := { x1 with post := [⟨4, [9]⟩, ⟨4, [8]⟩], marks := [⟨2, 0, false, 3, 4, 5⟩] }
theorem witness_acquisition_records_8 : ∃ (s : State) (u : Fin 16) (t : Nat) (a : Nat) (b : Nat), (stOf s .acq u.val = .run) ∧ (acqPhase s u.val = 3) ∧ (acqSlot s u.val = some a) ∧ ((acqOf s u.val).pubs = []) ∧ ((acqOf s u.val).marks.length ≤ 64) ∧ (s.recExp = none) ∧ ((s.page (pk .acq u.val)).commit = .none) ∧ (rf s .acq u.val Reg.ACQ.CFG 2 2 ∈ [0, 2]) ∧ ((acqOf s u.val).toBegin = false) ∧ (b = acqSlotBytes s (acqReg s u.val)) ∧ (acqCome (s.at t) (acqRearmDue s u.val) = true) :=
  ⟨aB 3 { x3 with full := some 50000000 }, 15, 90000000, 0x801000000 + 7 * 1600, 1600, by decide +kernel⟩
theorem witness_acquisition_records_10 : ∃ (s : State) (chk : BitVec 16), (ActsNow s .recStore 0 0x10 .ap0 chk) :=
  ⟨regs (aB 3 x3) .recStore 0 [(Reg.REC.EXP_CTL, 0xF0), (Reg.REC.EXP_SEQ, 7), (Reg.REC.EXP_DST_LO, 0x10001000)], 0xFFEF, actsNow_of (by decide +kernel)⟩
def xe : RecExp := ⟨0, 15, 8, 0x801000000 + 7 * 1600, 0x801000000 + 8 * 1600, 0x10001000, 4096, false, true, 1, 1, [], []⟩
def eB : State := img (0x801000000 + 7 * 1600) [(0, 0x41430001), (8, 8), (12, 4), (16, 3), (20, 2), (512, 7)] { aB 3 x3 with recExp := some xe }
theorem witness_acquisition_records_11 : ∃ (s : State) (x : RecExp) (ws : List Word), (powered s .recStore 0 = true) ∧ (s.recExp = some x) ∧ (x.found = true) ∧ (ws = ((expCopy s x []).1).take (x.limit / 4)) :=
  ⟨eB, xe, ((expCopy (wr eB .recStore 0 Reg.REC.EXP_UE 0) xe []).1).take 1024, by decide +kernel⟩
theorem witness_acquisition_records_13 : ∃ (s : State) (x : RecExp), (powered s .recStore 0 = true) ∧ (s.recExp = some x) ∧ (x.hit = true) :=
  ⟨{ eB with recExp := some { xe with hit := true } }, { xe with hit := true }, by decide +kernel⟩
theorem witness_acquisition_records_2 : ∃ (s : State) (u : Nat) (m : Master) (chk : BitVec 16), (ActsNow s .acq u 1 m chk) :=
  ⟨regs (pin (aB 0 AcqSt.reset) .acq 15 .idle) .recStore 0 [(Reg.REC.BW_LIMIT, 16000)], 15, .ap0, 0xFFFE, actsNow_of (by decide +kernel)⟩
theorem witness_acquisition_records_3 : ∃ (s : State) (u : Fin 16) (t : Nat) (i : Nat) (a : Nat) (w : Word), ((acqOf s u.val).toBegin = true) ∧ (stOf s .acq u.val = .idle ∨ stOf s .acq u.val = .run ∧ acqPhase s u.val = 3) ∧ ((acqInstant (s.at t) u.val ((s.at t).lap t)).1 = true) ∧ (acqDigital (acqReg s u.val) = false) ∧ (acqEvent (acqReg s u.val) = false) ∧ (acqK (acqReg s u.val) = 0) ∧ (rf s .acq u.val Reg.ACQ.TRIG 0 3 = 0) ∧ (acqSources (acqReg s u.val) = [(i, w)]) ∧ (fld w 0 2 = 1) ∧ ((sigEnt s (fld w 16 16)).typ < 2) ∧ (acqSlot s u.val = some a) ∧ (s.recExp = none) ∧ (2 ≤ acqPre (acqReg s u.val)) :=
  ⟨pin (aB 0 { AcqSt.reset with toBegin := true }) .acq 15 .idle, 15, 90000000, 2, 0x801000000 + 7 * 1600, 0x000B0001, by decide +kernel⟩
theorem witness_acquisition_records_3b : ∃ (s : State) (u : Fin 16) (t : Nat) (i : Nat) (a : Nat) (w : Word), ((acqOf s u.val).toBegin = true) ∧ (stOf s .acq u.val = .idle ∨ stOf s .acq u.val = .run ∧ acqPhase s u.val = 3) ∧ ((acqInstant (s.at t) u.val ((s.at t).lap t)).1 = true) ∧ (acqDigital (acqReg s u.val) = false) ∧ (acqEvent (acqReg s u.val) = false) ∧ (acqK (acqReg s u.val) = 0) ∧ (rf s .acq u.val Reg.ACQ.TRIG 0 3 = 0) ∧ (acqSources (acqReg s u.val) = [(i, w)]) ∧ (fld w 0 2 = 1) ∧ ((sigEnt s (fld w 16 16)).typ < 2) ∧ (acqSlot s u.val = some a) ∧ (s.recExp = none) ∧ (2 ≤ acqPre (acqReg s u.val)) :=
  ⟨aB 3 { x3 with toBegin := true }, 15, 90000000, 2, 0x801000000 + 7 * 1600, 0x000B0001, by decide +kernel⟩
theorem witness_acquisition_records_8b : ∃ (s : State) (u : Fin 16) (t : Nat) (a : Nat) (b : Nat), (stOf s .acq u.val = .run) ∧ (acqPhase s u.val = 3) ∧ (acqSlot s u.val = some a) ∧ ((acqOf s u.val).pubs = []) ∧ ((acqOf s u.val).marks.length ≤ 64) ∧ (s.recExp = none) ∧ ((s.page (pk .acq u.val)).commit = .none) ∧ (rf s .acq u.val Reg.ACQ.CFG 2 2 ∈ [0, 2]) ∧ ((acqOf s u.val).toBegin = false) ∧ (b = acqSlotBytes s (acqReg s u.val)) ∧ (acqCome (s.at t) (acqRearmDue s u.val) = true) :=
  ⟨regs (aB 3 { x3 with full := some 50000000 }) .acq 15 [(Reg.ACQ.CFG, 8)], 15, 90000000, 0x801000000 + 7 * 1600, 1600, by decide +kernel⟩
theorem witness_acquisition_records_9 : ∃ (s : State) (u : Fin 16) (t : Nat), (stOf s .acq u.val = .run) ∧ (acqPhase s u.val = 3) ∧ (acqSlot s u.val = none) ∧ ((acqOf s u.val).pubs = []) ∧ ((s.page (pk .acq u.val)).commit = .none) ∧ (rf s .acq u.val Reg.ACQ.CFG 2 2 = 0) ∧ ((acqOf s u.val).toBegin = false) ∧ (acqCome (s.at t) (acqRearmDue s u.val) = true) :=
  ⟨regs (aB 3 { x3 with full := some 50000000 }) .recStore 0 [(Reg.REC.REGION + 60, 0)], 15, 90000000, by decide +kernel⟩
theorem witness_acquisition_records_12 : ∃ (s : State) (x : RecExp) (lost : Bool), (powered s .recStore 0 = true) ∧ (s.recExp = some x) ∧ (x.found = false) ∧ (lost = true → x.hit = false) :=
  ⟨{ eB with recExp := some { xe with found := false } }, { xe with found := false }, false, by decide +kernel⟩
end Sys2Proof.Tests.W12
namespace Sys2Proof.Tests.W13
def tH : State := { pin (regs (pin up .recStore 0 .run) .recStore 0 [(Reg.REC.HIST_AREA, 0x400000), (Reg.REC.CFG, 1)]) .time 0 .run with stepSum := 5 }
theorem witness_device_time_1 : ∃ (s : State) (t : Nat), (t % 34359738368 = 0) ∧ (s.now < t) :=
  ⟨tH, 34359738368, by decide +kernel⟩
theorem witness_device_time_1b : ∃ (s : State) (t : Nat), (t % 34359738368 = 0) ∧ (s.now < t) :=
  ⟨up, 34359738368, by decide +kernel⟩
def tX : State := { wb (warnAll tH) .time 0 Reg.TIME.STAT 0 true with holds := [⟨0x1B, 7, 0, 0, 1⟩, ⟨0x1C, 7, 0, 0, 1⟩] }
theorem witness_device_time_2 : ∃ (s : State), (answers s ⟨.time, 0⟩ = true) ∧ ((s.page (pk .time 0)).key ≠ .window) ∧ ((s.page (pk .time 0)).locked = false) :=
  ⟨tX, by decide +kernel⟩
theorem witness_device_time_2b : ∃ (s : State), (answers s ⟨.time, 0⟩ = true) ∧ ((s.page (pk .time 0)).key ≠ .window) ∧ ((s.page (pk .time 0)).locked = false) :=
  ⟨regs tX .time 0 [(Reg.TIME.DOMAIN, 2)], by decide +kernel⟩
theorem witness_device_time_3 : ∃ (s : State) (chk : BitVec 16), (ActsNow s .time 0 0x10 .ap0 chk) :=
  ⟨regs tX .time 0 [(Reg.TIME.DOMAIN, 1), (Reg.TIME.STEP_VAL_LO, 8000)], 0xFFEF, actsNow_of (by decide +kernel)⟩
theorem witness_device_time_3b : ∃ (s : State) (chk : BitVec 16), (ActsNow s .time 0 0x10 .ap0 chk) :=
  ⟨regs tX .time 0 [(Reg.TIME.STEP_VAL_LO, 0xFFFFE0C0), (Reg.TIME.STEP_VAL_HI, 0xFFFFFFFF)], 0xFFEF, actsNow_of (by decide +kernel)⟩
theorem witness_device_time_4 : ∃ (s : State) (chk : BitVec 16), (answers s ⟨.time, 0⟩ = true) ∧ ((s.page (pk .time 0)).key ≠ .window) ∧ (cmdRefusal s .time 0 .ap0 (cmdWord chk 0x10) = some .range) :=
  ⟨regs tX .time 0 [(Reg.TIME.STEP_VAL_LO, 8001)], 0xFFEF, by decide +kernel⟩
theorem witness_device_time_5 : ∃ (s : State) (chk : BitVec 16), (ActsNow s .time 0 0x11 .ap0 chk) :=
  ⟨regs tX .time 0 [(Reg.TIME.STEP_VAL_LO, 8001)], 0xFFEE, actsNow_of (by decide +kernel)⟩
theorem witness_device_time_6 : ∃ (s : State) (t : Nat) (x : TimeStep), (s.timeStep = some x) ∧ (x.at_.getD 0 ≤ t) ∧ (x.late = false) :=
  ⟨{ tX with timeStep := some ⟨-9876538, none, false⟩ }, 90000001, ⟨-9876538, none, false⟩, by decide +kernel⟩
theorem witness_device_time_6b : ∃ (s : State) (t : Nat) (x : TimeStep), (s.timeStep = some x) ∧ (x.at_.getD 0 ≤ t) ∧ (x.late = false) :=
  ⟨{ tX with timeStep := some ⟨34359738368, some 90000000, false⟩ }, 90000000, ⟨34359738368, some 90000000, false⟩, by decide +kernel⟩
theorem witness_device_time_7 : ∃ (s : State) (t : Nat) (a : Nat), (s.adjAt = some a) ∧ (a + 8000000 * rf s .time 0 Reg.TIME.HOLDOVER_T 0 16 ≤ (s.at t).lap (max s.now t)) ∧ (max s.now t = t) ∧ (rb s .time 0 Reg.TIME.STAT 0 = false) ∧ (RaiseLogs s 0x1B .time 0 0) :=
  ⟨{ warnAll tH with adjAt := some 5 }, 32000000010, 5, by unfold RaiseLogs; decide +kernel⟩
theorem witness_device_time_8 : ∃ (s : State) (chk : BitVec 16), (ActsNow s .time 0 0x12 .ap0 chk) :=
  ⟨regs tX .time 0 [(Reg.TIME.DOMAIN, 2)], 0xFFED, actsNow_of (by decide +kernel)⟩
theorem witness_device_time_9 : ∃ (s : State) (t : Nat) (d : Nat), (s.joinDue = some d) ∧ (d ≤ (s.at t).lap t) :=
  ⟨{ regs tX .time 0 [(Reg.TIME.DOMAIN, 2)] with joinDue := some 90000000 }, 90000005, 90000000, by decide +kernel⟩
end Sys2Proof.Tests.W13
namespace Sys2Proof.Tests.W14
def dB (x : DlkSt) (l : List (Nat × Word)) : State := setDlk (regs (pin (pin (regs (pin (pin (pin (warnAll up) .dlk 3 .run) .dlk 0 .run) .time 0 .run) .time 0 ((Reg.TIME.RATE, 77) :: l)) .sig 0 .run) .recStore 0 .run) .dlk 3 [(Reg.DLK.STAT, 1), (Reg.DLK.ASYM, 0xFFFFFF06)]) 3 x
def gr (i : Nat) : LinkRec := ⟨9, i, 1, 5, 6, 7⟩
def ge (i n : Nat) : TrgEv × Nat := (⟨4, 1, true, i⟩, n)
def x1 : DlkSt := { DlkSt.reset with fseq := 65535, sent := [(7, 89990000), (6, 89980000)], rx := some (3, 89999000), recs := (List.range 57).map gr, evs := [ge 1 1, ge 2 2, ge 3 2, ge 4 2, ge 5 2, ge 6 2, ge 7 2, ge 8 2, ge 9 2] }
def s1 : State := { dB x1 [(Reg.TIME.DOMAIN, 0x401)] with timeStep := some ⟨-5, some 90000000, false⟩ }
theorem witness_link_frames_1 : ∃ (s : State) (p : Fin 4) (t : Nat) (x : DlkSt) (c : Bool) (st : Int × Nat), (inSt s .dlk p.val [.run, .update, .fault] = true) ∧ (t % 8000 = 0) ∧ (x = dlkOf s p.val) ∧ (c = dlkCarries s p.val) ∧ (st = (match s.timeStep with | some ⟨n, some a, false⟩ => if t ≤ a ∧ n ≠ 0 ∧ stOf s .dlk p.val ≠ .fault ∧ isUp s p.val = false then (n, a) else (0, 0) | _ => (0, 0))) :=
  ⟨s1, 3, 90000000, x1, true, (-5, 90000000), by decide +kernel⟩
theorem witness_link_frames_1b : ∃ (s : State) (p : Fin 4) (t : Nat) (x : DlkSt) (c : Bool) (st : Int × Nat), (inSt s .dlk p.val [.run, .update, .fault] = true) ∧ (t % 8000 = 0) ∧ (x = dlkOf s p.val) ∧ (c = dlkCarries s p.val) ∧ (st = (match s.timeStep with | some ⟨n, some a, false⟩ => if t ≤ a ∧ n ≠ 0 ∧ stOf s .dlk p.val ≠ .fault ∧ isUp s p.val = false then (n, a) else (0, 0) | _ => (0, 0))) :=
  ⟨wr s1 .dlk 3 Reg.DLK.STAT 0, 3, 90008000, x1, false, (0, 0), by decide +kernel⟩
/-- A frame with the check field that belongs to it. -/
def f0 : LinkFrame := ⟨0, 1, 9, false, true, 5, 89999000, 66, 0, 7, 200, 0x200, [], [], 0⟩
theorem witness_link_frames_2 : ∃ (s : State) (p : Fin 4) (f : LinkFrame), (inSt s .dlk p.val [.run, .update, .fault] = true) ∧ (dlkUp s p.val = true) ∧ (PageIdle s (pk .dlk p.val)) ∧ (linkGood f = false ∨ f.ver ≠ 1) :=
  ⟨s1, 3, { sealed f0 with crc := linkCrc f0 ^^^ 1 }, by decide +kernel, by decide +kernel, by unfold PageIdle; decide +kernel, .inl (unsealed_bad _)⟩
theorem witness_link_frames_2b : ∃ (s : State) (p : Fin 4) (f : LinkFrame), (inSt s .dlk p.val [.run, .update, .fault] = true) ∧ (dlkUp s p.val = true) ∧ (PageIdle s (pk .dlk p.val)) ∧ (linkGood f = false ∨ f.ver ≠ 1) :=
  ⟨regs s1 .dlk 3 [(Reg.DLK.CRC_CNT, 0xFFFFFFFF)], 3, sealed { f0 with ver := 2 }, by decide +kernel, by decide +kernel, by unfold PageIdle; decide +kernel, .inr (by decide)⟩
theorem witness_link_frames_3 : ∃ (s : State) (p : Fin 4) (ta : Nat) (t : Nat) (f : LinkFrame) (rts : List Int), (inSt s .dlk p.val [.run, .update] = true) ∧ (dlkUp s p.val = true) ∧ (PageIdle s (pk .dlk p.val)) ∧ (isUp s p.val = false) ∧ (linkGood f = true) ∧ (f.ver = 1) ∧ (dlkCause s p.val f.node f.nodes = 0) ∧ (f.evs = []) ∧ (f.recs = []) ∧ (rts = (match (dlkOf s p.val).sent.find? (fun e => e.1 == f.echo) with | some e => ((((sofLap (s.at t) ta : Nat) : Int) - e.2 - f.turn) :: (dlkOf s p.val).rts).take 64 | none => (dlkOf s p.val).rts)) :=
  ⟨s1, 3, 90000000, (s1).now + 1000, sealed f0, [9800], by decide +kernel, by decide +kernel, by unfold PageIdle; decide +kernel, by decide +kernel, sealed_good _, by decide +kernel⟩
def x2 : DlkSt := { x1 with rts := List.replicate 64 1616 }
def s2 : State := setDlk s1 3 x2
theorem witness_link_frames_3b : ∃ (s : State) (p : Fin 4) (ta : Nat) (t : Nat) (f : LinkFrame) (rts : List Int), (inSt s .dlk p.val [.run, .update] = true) ∧ (dlkUp s p.val = true) ∧ (PageIdle s (pk .dlk p.val)) ∧ (isUp s p.val = false) ∧ (linkGood f = true) ∧ (f.ver = 1) ∧ (dlkCause s p.val f.node f.nodes = 0) ∧ (f.evs = []) ∧ (f.recs = []) ∧ (rts = (match (dlkOf s p.val).sent.find? (fun e => e.1 == f.echo) with | some e => ((((sofLap (s.at t) ta : Nat) : Int) - e.2 - f.turn) :: (dlkOf s p.val).rts).take 64 | none => (dlkOf s p.val).rts)) :=
  ⟨s2, 3, 90000000, (s2).now + 1000, sealed { f0 with echo := 1 }, x2.rts, by decide +kernel, by decide +kernel, by unfold PageIdle; decide +kernel, by decide +kernel, sealed_good _, by decide +kernel⟩
def e1 : SigEntry := ⟨0x08090080, 0x201, 3, 4⟩
def s3 (e : SigEntry) : State := { s1 with sigs := [(11, e)] }
theorem witness_link_frames_4 : ∃ (s : State) (p : Fin 4) (id : Nat) (f : LinkFrame) (r : LinkRec) (e : SigEntry), (inSt s .dlk p.val [.run, .update] = true) ∧ (dlkUp s p.val = true) ∧ (PageIdle s (pk .dlk p.val)) ∧ (isUp s p.val = false) ∧ (linkGood f = true) ∧ (f.ver = 1) ∧ (dlkCause s p.val f.node f.nodes = 0) ∧ (f.evs = []) ∧ (f.recs = [r]) ∧ (r.node ≠ timeNode s) ∧ (s.sigs = [(id, e)]) ∧ (id ≠ 0) ∧ (e.en = true) ∧ (sigRun s = true) ∧ (e.from .dlk r.node = true) ∧ (e.word = r.exp) :=
  ⟨s3 e1, 3, 11, sealed { f0 with recs := [gr 2] }, gr 2, e1, by decide +kernel, by decide +kernel, by unfold PageIdle; decide +kernel, by decide +kernel, sealed_good _, by decide +kernel⟩
theorem witness_link_frames_4b : ∃ (s : State) (p : Fin 4) (id : Nat) (f : LinkFrame) (r : LinkRec) (e : SigEntry), (inSt s .dlk p.val [.run, .update] = true) ∧ (dlkUp s p.val = true) ∧ (PageIdle s (pk .dlk p.val)) ∧ (isUp s p.val = false) ∧ (linkGood f = true) ∧ (f.ver = 1) ∧ (dlkCause s p.val f.node f.nodes = 0) ∧ (f.evs = []) ∧ (f.recs = [r]) ∧ (r.node ≠ timeNode s) ∧ (s.sigs = [(id, e)]) ∧ (id ≠ 0) ∧ (e.en = true) ∧ (sigRun s = true) ∧ (e.from .dlk r.node = true) ∧ (e.word = r.exp) :=
  ⟨s3 { e1 with w1 := 0x200 }, 3, 11, sealed { f0 with recs := [gr 2] }, gr 2, { e1 with w1 := 0x200 }, by decide +kernel, by decide +kernel, by unfold PageIdle; decide +kernel, by decide +kernel, sealed_good _, by decide +kernel⟩
theorem witness_link_frames_5 : ∃ (s : State) (p : Fin 4), (inSt s .dlk p.val [.run, .update, .fault] = true) ∧ (dlkUp s p.val = false) :=
  ⟨{ wr s1 .dlk 3 Reg.DLK.STAT 4 with holds := [⟨0x1E, 8, 3, 0, 1⟩, ⟨0x1E, 8, 2, 0, 1⟩] }, 3, by decide +kernel⟩
theorem witness_link_frames_6 : ∃ (s : State) (p : Fin 4), (inSt s .dlk p.val [.run, .update] = true) ∧ (dlkUp s p.val = true) ∧ (RaiseLogs s 0x1E .dlk p.val 0) :=
  ⟨wr s1 .time 0 Reg.TIME.DOMAIN 0x30402, 3, by unfold RaiseLogs; decide +kernel⟩
theorem witness_link_frames_6b : ∃ (s : State) (p : Fin 4), (inSt s .dlk p.val [.run, .update] = true) ∧ (dlkUp s p.val = true) ∧ (RaiseLogs s 0x1E .dlk p.val 0) :=
  ⟨s1, 3, by unfold RaiseLogs; decide +kernel⟩
theorem witness_link_frames_7 : ∃ (s : State) (p : Fin 4) (chk : BitVec 16), (ActsNow s .dlk p.val 0x10 .ap0 chk) :=
  ⟨s1, 3, 0xFFEF, actsNow_of (by decide +kernel)⟩
theorem witness_link_frames_8 : ∃ (s : State) (p : Fin 4), (stOf s .dlk p.val = .update) :=
  ⟨mod (pin s2 .dlk 3 .update) .dlk 3 (fun p => { p with busy := true }), 3, by decide +kernel⟩
theorem witness_link_domain_1 : ∃ (s : State) (p : Fin 4) (c : Nat) (f : LinkFrame), (inSt s .dlk p.val [.run, .update] = true) ∧ (dlkUp s p.val = true) ∧ (linkGood f = true) ∧ (f.ver = 1) ∧ (c ≠ 0) ∧ (c = (if f.nodes &&& nodesBeyond s p.val ≠ 0 then 1 else if f.node = timeNode s ∨ f.nodes.getLsbD (timeNode s) = true then 2 else 0)) :=
  ⟨s1, 3, 2, sealed { f0 with node := 4 }, by decide +kernel, by decide +kernel, sealed_good _, by decide +kernel⟩
theorem witness_link_domain_1b : ∃ (s : State) (p : Fin 4) (c : Nat) (f : LinkFrame), (inSt s .dlk p.val [.run, .update] = true) ∧ (dlkUp s p.val = true) ∧ (linkGood f = true) ∧ (f.ver = 1) ∧ (c ≠ 0) ∧ (c = (if f.nodes &&& nodesBeyond s p.val ≠ 0 then 1 else if f.node = timeNode s ∨ f.nodes.getLsbD (timeNode s) = true then 2 else 0)) :=
  ⟨regs s1 .dlk 0 [(Reg.DLK.STAT, 1), (Reg.DLK.PEER_NODES, 0x200)], 3, 1, sealed f0, by decide +kernel, by decide +kernel, sealed_good _, by decide +kernel⟩
def sj (l : List (Nat × Word)) (b : Bool) (ph c : Nat) : State := { mod (regs s2 .time 0 ((Reg.TIME.DOMAIN, 0x30402) :: l)) .time 0 (fun p => { p with busy := b, prog := progWord 0 ph 0 }) with joinCnt := c, joinDue := some 99999999, timeStep := none }
theorem witness_link_domain_2 : ∃ (s : State) (p : Fin 4) (f : LinkFrame), (inSt s .dlk p.val [.run, .update] = true) ∧ (dlkUp s p.val = true) ∧ (PageIdle s (pk .dlk p.val)) ∧ (isUp s p.val = true) ∧ (linkGood f = true) ∧ (f.ver = 1) ∧ (dlkCause s p.val f.node f.nodes = 0) ∧ (f.evs = []) ∧ (f.recs = []) ∧ (f.step = 0) ∧ ((s.page (pk .time 0)).busy = true) ∧ (fld (s.page (pk .time 0)).prog 24 4 = 2) ∧ (rb s .time 0 Reg.TIME.STAT 5 = false) :=
  ⟨sj [] true 2 63, 3, sealed { f0 with time := 90000000 - 807, turn := 8384, echo := 7 }, by decide +kernel, by decide +kernel, by unfold PageIdle; decide +kernel, by decide +kernel, sealed_good _, by decide +kernel⟩
theorem witness_link_domain_2b : ∃ (s : State) (p : Fin 4) (f : LinkFrame), (inSt s .dlk p.val [.run, .update] = true) ∧ (dlkUp s p.val = true) ∧ (PageIdle s (pk .dlk p.val)) ∧ (isUp s p.val = true) ∧ (linkGood f = true) ∧ (f.ver = 1) ∧ (dlkCause s p.val f.node f.nodes = 0) ∧ (f.evs = []) ∧ (f.recs = []) ∧ (f.step = 0) ∧ ((s.page (pk .time 0)).busy = true) ∧ (fld (s.page (pk .time 0)).prog 24 4 = 2) ∧ (rb s .time 0 Reg.TIME.STAT 5 = false) :=
  ⟨sj [] true 2 62, 3, sealed { f0 with turn := 8384, echo := 7 }, by decide +kernel, by decide +kernel, by unfold PageIdle; decide +kernel, by decide +kernel, sealed_good _, by decide +kernel⟩
theorem witness_link_domain_3 : ∃ (s : State) (p : Fin 4) (f : LinkFrame), (inSt s .dlk p.val [.run, .update] = true) ∧ (dlkUp s p.val = true) ∧ (PageIdle s (pk .dlk p.val)) ∧ (isUp s p.val = true) ∧ (linkGood f = true) ∧ (f.ver = 1) ∧ (dlkCause s p.val f.node f.nodes = 0) ∧ (f.evs = []) ∧ (f.recs = []) ∧ (f.step = 0) ∧ (f.masterOk = true) ∧ ((s.page (pk .time 0)).busy = true) ∧ (fld (s.page (pk .time 0)).prog 24 4 = 1) ∧ (64 ≤ (dlkOf s p.val).rts.length) :=
  ⟨sj [] true 1 62, 3, sealed { f0 with turn := 8384, echo := 7 }, by decide +kernel, by decide +kernel, by unfold PageIdle; decide +kernel, by decide +kernel, sealed_good _, by decide +kernel⟩
theorem witness_link_domain_4 : ∃ (s : State) (p : Fin 4) (f : LinkFrame), (inSt s .dlk p.val [.run, .update] = true) ∧ (dlkUp s p.val = true) ∧ (PageIdle s (pk .dlk p.val)) ∧ (isUp s p.val = true) ∧ (linkGood f = true) ∧ (f.ver = 1) ∧ (dlkCause s p.val f.node f.nodes = 0) ∧ (f.evs = []) ∧ (f.recs = []) ∧ (f.step = 0) ∧ ((s.page (pk .time 0)).busy = false) ∧ (rb s .time 0 Reg.TIME.STAT 5 = false) ∧ (rb s .time 0 Reg.TIME.STAT 2 = true) ∧ (RaiseLogs s 0x1C .time 0 0) :=
  ⟨sj [(Reg.TIME.STAT, 4)] false 15 62, 3, sealed { f0 with turn := 8384, echo := 7, time := 80000000 }, by decide +kernel, by decide +kernel, by unfold PageIdle; decide +kernel, by decide +kernel, sealed_good _, by unfold RaiseLogs; decide +kernel⟩
theorem witness_link_domain_4b : ∃ (s : State) (p : Fin 4) (f : LinkFrame), (inSt s .dlk p.val [.run, .update] = true) ∧ (dlkUp s p.val = true) ∧ (PageIdle s (pk .dlk p.val)) ∧ (isUp s p.val = true) ∧ (linkGood f = true) ∧ (f.ver = 1) ∧ (dlkCause s p.val f.node f.nodes = 0) ∧ (f.evs = []) ∧ (f.recs = []) ∧ (f.step = 0) ∧ ((s.page (pk .time 0)).busy = false) ∧ (rb s .time 0 Reg.TIME.STAT 5 = false) ∧ (rb s .time 0 Reg.TIME.STAT 2 = true) ∧ (RaiseLogs s 0x1C .time 0 0) :=
  ⟨sj [(Reg.TIME.STAT, 4)] false 15 62, 3, sealed { f0 with turn := 8384, echo := 7 }, by decide +kernel, by decide +kernel, by unfold PageIdle; decide +kernel, by decide +kernel, sealed_good _, by unfold RaiseLogs; decide +kernel⟩
theorem witness_link_domain_5 : ∃ (s : State) (p : Fin 4) (f : LinkFrame), (inSt s .dlk p.val [.run, .update] = true) ∧ (dlkUp s p.val = true) ∧ (PageIdle s (pk .dlk p.val)) ∧ (isUp s p.val = true) ∧ (linkGood f = true) ∧ (f.ver = 1) ∧ (dlkCause s p.val f.node f.nodes = 0) ∧ (f.evs = []) ∧ (f.recs = []) ∧ (f.step ≠ 0) ∧ (s.stepDone ≠ some (f.step, f.stepAt)) ∧ ((s.page (pk .time 0)).busy = false) ∧ (rb s .time 0 Reg.TIME.STAT 5 = false) ∧ (rb s .time 0 Reg.TIME.STAT 2 = false) :=
  ⟨sj [] false 15 62, 3, sealed { f0 with step := -7, stepAt := 90008001 }, by decide +kernel, by decide +kernel, by unfold PageIdle; decide +kernel, by decide +kernel, sealed_good _, by decide +kernel⟩
theorem witness_link_domain_5b : ∃ (s : State) (p : Fin 4) (f : LinkFrame), (inSt s .dlk p.val [.run, .update] = true) ∧ (dlkUp s p.val = true) ∧ (PageIdle s (pk .dlk p.val)) ∧ (isUp s p.val = true) ∧ (linkGood f = true) ∧ (f.ver = 1) ∧ (dlkCause s p.val f.node f.nodes = 0) ∧ (f.evs = []) ∧ (f.recs = []) ∧ (f.step ≠ 0) ∧ (s.stepDone ≠ some (f.step, f.stepAt)) ∧ ((s.page (pk .time 0)).busy = false) ∧ (rb s .time 0 Reg.TIME.STAT 5 = false) ∧ (rb s .time 0 Reg.TIME.STAT 2 = false) :=
  ⟨sj [] false 15 62, 3, sealed { f0 with step := -7, stepAt := 90008000 }, by decide +kernel, by decide +kernel, by unfold PageIdle; decide +kernel, by decide +kernel, sealed_good _, by decide +kernel⟩
def sn : State := { wr (s3 e1) .time 0 Reg.TIME.NODES 0x210 with nodeGap := [(9, 90000000)] }
theorem witness_link_domain_6 : ∃ (s : State) (n : Fin 32) (t : Nat) (id : Nat) (e : SigEntry), ((rg s .time 0 Reg.TIME.NODES).getLsbD n.val = true) ∧ (SMap.get (fun _ => 0) s.nodeGap n.val + 64000 ≤ (s.at t).lap t) ∧ (s.sigs = [(id, e)]) ∧ (e.en = true) ∧ (e.from .dlk n.val = true) ∧ (RaiseLogs s 0x1F .time 0 0) :=
  ⟨sn, 9, 90064000, 11, e1, by unfold RaiseLogs; decide +kernel⟩
end Sys2Proof.Tests.W14
namespace Sys2Proof.Tests.W15
def tB (d c : Word) : State := regs (regs (pin (pin (pin (warnAll up) .dlk 3 .run) .dlk 0 .update) .acq 7 .run) .time 0 [(Reg.TIME.DOMAIN, d), (Reg.TIME.TRG_CFG + 12, c)]) .acq 7 [(Reg.ACQ.TRIG, 0x3004)]
theorem witness_triggers_and_timestamps_1 : ∃ (s : State) (l : Fin 8) (level : Bool) (b : Bool), (trgDomain s l.val = false) ∧ (b = trgLevel { s with trgPin := setLine s.trgPin l.val level } l.val) :=
  ⟨tB 0 3, 3, true, true, by decide +kernel⟩
theorem witness_triggers_and_timestamps_1b : ∃ (s : State) (l : Fin 8) (level : Bool) (b : Bool), (trgDomain s l.val = false) ∧ (b = trgLevel { s with trgPin := setLine s.trgPin l.val level } l.val) :=
  ⟨{ tB 0 2 with trgSeen := 8, trgLocal := 8 }, 3, false, false, by decide +kernel⟩
theorem witness_triggers_and_timestamps_2 : ∃ (s : State) (l : Fin 8) (level : Bool) (b : Bool) (t : Nat) (ev : TrgEv), (trgDomain s l.val = true) ∧ (fld (trgCfg s l.val) 8 5 = timeNode s) ∧ (b = trgLevel { s with trgPin := setLine s.trgPin l.val level } l.val) ∧ (s.trgLocal.getLsbD l.val ≠ b) ∧ (ev = ⟨timeNode s, l.val, b, max s.now t + 8000 * rf s .time 0 Reg.TIME.TRG_DELAY 0 8⟩) :=
  ⟨tB 0x401 0x403, 3, true, true, 90000005, ⟨4, 3, true, 90064005⟩, by decide +kernel⟩
theorem witness_triggers_and_timestamps_2b : ∃ (s : State) (l : Fin 8) (level : Bool) (b : Bool) (t : Nat) (ev : TrgEv), (trgDomain s l.val = true) ∧ (fld (trgCfg s l.val) 8 5 = timeNode s) ∧ (b = trgLevel { s with trgPin := setLine s.trgPin l.val level } l.val) ∧ (s.trgLocal.getLsbD l.val ≠ b) ∧ (ev = ⟨timeNode s, l.val, b, max s.now t + 8000 * rf s .time 0 Reg.TIME.TRG_DELAY 0 8⟩) :=
  ⟨setDlk (tB 0x401 0x403) 0 { DlkSt.reset with evs := List.replicate 32 (⟨4, 1, true, 5⟩, 2) }, 3, true, true, 90000005, ⟨4, 3, true, 90064005⟩, by decide +kernel⟩
theorem witness_triggers_and_timestamps_3 : ∃ (s : State) (t : Nat) (a : TrgEv) (b : TrgEv), (s.trgQ = [a, b]) ∧ (b.due < a.due) ∧ (a.due ≤ t) ∧ (a.line < 8) ∧ (b.line = a.line) ∧ (trgDomain s a.line = true) ∧ (fld (trgCfg s a.line) 8 5 = a.node) ∧ (b.node = a.node) :=
  ⟨{ tB 0x401 0x403 with trgQ := [⟨4, 3, true, 90000004⟩, ⟨4, 3, false, 90000003⟩] }, 90000005, ⟨4, 3, true, 90000004⟩, ⟨4, 3, false, 90000003⟩, by decide +kernel⟩
def tf (d : Nat) : LinkFrame := sealed ⟨0, 1, 9, false, true, 5, 89999000, 66, 0, 7, 200, 0x200, [⟨9, 3, true, d⟩], [], 0⟩
theorem witness_triggers_and_timestamps_5 : ∃ (s : State) (p : Fin 4) (t : Nat) (f : LinkFrame) (e : TrgEv) (ev : TrgEv), (inSt s .dlk p.val [.run, .update] = true) ∧ (dlkUp s p.val = true) ∧ (PageIdle s (pk .dlk p.val)) ∧ (isUp s p.val = false) ∧ (linkGood f = true) ∧ (f.ver = 1) ∧ (dlkCause s p.val f.node f.nodes = 0) ∧ (f.evs = [e]) ∧ (f.recs = []) ∧ (ev = { e with due := near32 (max s.now t) e.due }) ∧ (ev ∉ s.trgQ) ∧ (ev ∉ s.trgDone) ∧ (e.node ≠ timeNode s) ∧ (trgWaiting s < 32) ∧ (e.line < 8) :=
  ⟨wr (tB 0x401 0x903) .dlk 3 Reg.DLK.STAT 1, 3, 90008000, tf 90008000, ⟨9, 3, true, 90008000⟩, ⟨9, 3, true, 90008000⟩, by decide +kernel, by decide +kernel, by unfold PageIdle; decide +kernel, by decide +kernel, sealed_good _, by decide +kernel⟩
theorem witness_triggers_and_timestamps_5b : ∃ (s : State) (p : Fin 4) (t : Nat) (f : LinkFrame) (e : TrgEv) (ev : TrgEv), (inSt s .dlk p.val [.run, .update] = true) ∧ (dlkUp s p.val = true) ∧ (PageIdle s (pk .dlk p.val)) ∧ (isUp s p.val = false) ∧ (linkGood f = true) ∧ (f.ver = 1) ∧ (dlkCause s p.val f.node f.nodes = 0) ∧ (f.evs = [e]) ∧ (f.recs = []) ∧ (ev = { e with due := near32 (max s.now t) e.due }) ∧ (ev ∉ s.trgQ) ∧ (ev ∉ s.trgDone) ∧ (e.node ≠ timeNode s) ∧ (trgWaiting s < 32) ∧ (e.line < 8) :=
  ⟨wr (tB 0x401 0x903) .dlk 3 Reg.DLK.STAT 1, 3, 90008000, tf 90007999, ⟨9, 3, true, 90007999⟩, ⟨9, 3, true, 90007999⟩, by decide +kernel, by decide +kernel, by unfold PageIdle; decide +kernel, by decide +kernel, sealed_good _, by decide +kernel⟩
def pq : State := setTxq (setTxq (wb (pin up .ptp 0 .run) .ptp 0 Reg.PTP.STAT 18 true) 2 [⟨0xABCD, 9, false, 0x7FFFFFFFF⟩, ⟨0, 0, true, 5⟩]) 1 [⟨0, 0, true, 5⟩]
theorem witness_triggers_and_timestamps_6 : ∃ (s : State) (p : Fin 3) (e : TxqEnt) (q : List TxqEnt), (powered s .ptp 0 = true) ∧ (txqOf s p.val = e :: q) :=
  ⟨pq, 2, ⟨0xABCD, 9, false, 0x7FFFFFFFF⟩, [⟨0, 0, true, 5⟩], by decide +kernel⟩
theorem witness_triggers_and_timestamps_6b : ∃ (s : State) (p : Fin 3) (e : TxqEnt) (q : List TxqEnt), (powered s .ptp 0 = true) ∧ (txqOf s p.val = e :: q) :=
  ⟨pq, 1, ⟨0, 0, true, 5⟩, [], by decide +kernel⟩
theorem witness_triggers_and_timestamps_7 : ∃ (s : State) (p : Fin 3), (powered s .ptp 0 = true) ∧ (txqOf s p.val = []) :=
  ⟨pq, 0, by decide +kernel⟩
theorem witness_triggers_and_timestamps_8 : ∃ (s : State) (chk : BitVec 16), (ActsNow s .ptp 0 0x10 .ap0 chk) :=
  ⟨pq, 0xFFEF, actsNow_of (by decide +kernel)⟩
end Sys2Proof.Tests.W15
namespace Sys2Proof.Tests.W16
def fx (src react seq : Nat) (ack act : Bool) : FltEnt := ⟨seq, src, react, ack, act, false, 0x3A, 4, 7, 5, 1, 6, 0, 65534⟩
def fB (l : List FltEnt) : State := { pin (pin (warnAll up) .flt 0 .run) .axis 3 .run with flog := l }
def fm (l : List (Nat × Word)) (s : State) : State := regs s .flt 0 l
def fe (src seq top : Nat) (lv : Bool) (g : Word) : FltEnt := ⟨seq, src, top, false, lv, false, PgTy.fch.code, 4, 7, 0xBEEF, g, devTime 90000000, 0, 0⟩
def f1 : State := fm [(Reg.FLT.LOG_SEQ, 65535), (Reg.FLT.SRC_MASK + 4 * 0x16, 5), (Reg.FLT.REACT + 16 * 0x16, 0x100), (Reg.FLT.GRP_LEVEL, 0x60)] (fB [fx 3 2 5 false true])
theorem witness_fault_manager_1 : ∃ (s : State) (src : Fin 64) (pg : PageId) (sub : Nat) (top : Nat) (detail : BitVec 16) (e : FltEnt), (answers s pg = true) ∧ ((raisers src.val).contains pg.ty = true) ∧ (src.val ≠ 0x0A) ∧ (src.val ≠ 0x02) ∧ (RaiseLogs s src.val pg.ty pg.inst sub) ∧ (∀ g ∈ raiseGroups s src.val pg.ty pg.inst sub, reaction s src.val g ≤ top) ∧ (∃ g ∈ raiseGroups s src.val pg.ty pg.inst sub, reaction s src.val g = top) ∧ (∀ x ∈ s.flog, x.of src.val pg.ty pg.inst sub = true → x.ack = true) ∧ (e = ⟨rf s .flt 0 Reg.FLT.LOG_SEQ 0 16, src.val, top, false, levelSources.contains src.val, false, pg.ty.code, pg.inst, sub, detail.toNat, derivedGroups s src.val pg.ty pg.inst sub ||| rg s .flt 0 (Reg.FLT.SRC_MASK + 4 * src.val), devTime s.now, s.now / 34359738368 % 8192, 0⟩) :=
  ⟨f1, 0x16, ⟨.fch, 4⟩, 7, 1, 0xBEEF, fe 0x16 65535 1 false 5, by unfold RaiseLogs; decide +kernel⟩
def f2 : State := fm [(Reg.FLT.LOG_SEQ, 5)] (fB (List.replicate 256 (fx 3 2 5 false true)))
theorem witness_fault_manager_1b : ∃ (s : State) (src : Fin 64) (pg : PageId) (sub : Nat) (top : Nat) (detail : BitVec 16) (e : FltEnt), (answers s pg = true) ∧ ((raisers src.val).contains pg.ty = true) ∧ (src.val ≠ 0x0A) ∧ (src.val ≠ 0x02) ∧ (RaiseLogs s src.val pg.ty pg.inst sub) ∧ (∀ g ∈ raiseGroups s src.val pg.ty pg.inst sub, reaction s src.val g ≤ top) ∧ (∃ g ∈ raiseGroups s src.val pg.ty pg.inst sub, reaction s src.val g = top) ∧ (∀ x ∈ s.flog, x.of src.val pg.ty pg.inst sub = true → x.ack = true) ∧ (e = ⟨rf s .flt 0 Reg.FLT.LOG_SEQ 0 16, src.val, top, false, levelSources.contains src.val, false, pg.ty.code, pg.inst, sub, detail.toNat, derivedGroups s src.val pg.ty pg.inst sub ||| rg s .flt 0 (Reg.FLT.SRC_MASK + 4 * src.val), devTime s.now, s.now / 34359738368 % 8192, 0⟩) :=
  ⟨f2, 0x1E, ⟨.dlk, 3⟩, 7, 2, 0xBEEF, { fe 0x1E 5 2 (levelSources.contains 0x1E) 1 with pgType := PgTy.dlk.code, inst := 3 }, by unfold RaiseLogs; decide +kernel⟩
def fy : FltEnt := { fx 0x16 1 9 false false with pgType := PgTy.fch.code }
theorem witness_fault_manager_2 : ∃ (s : State) (src : Fin 64) (pg : PageId) (sub : Nat) (l : List FltEnt) (x : FltEnt), (answers s pg = true) ∧ ((raisers src.val).contains pg.ty = true) ∧ (src.val ≠ 0x0A) ∧ (src.val ≠ 0x02) ∧ (RaiseLogs s src.val pg.ty pg.inst sub) ∧ (s.flog = l ++ [x]) ∧ (x.of src.val pg.ty pg.inst sub = true) ∧ (x.ack = false) :=
  ⟨fB [fx 3 2 5 false true, fy], 0x16, ⟨.fch, 4⟩, 7, [fx 3 2 5 false true], fy, by unfold RaiseLogs; decide +kernel⟩
theorem witness_fault_manager_3 : ∃ (s : State) (src : Fin 64) (pg : PageId) (sub : Nat) (g : Fin 32), (answers s pg = true) ∧ ((raisers src.val).contains pg.ty = true) ∧ (src.val ≠ 0x0A) ∧ (src.val ≠ 0x02) ∧ (powered s .flt 0 = true) ∧ (levelSources.contains src.val = false) ∧ (recovering s = 0) ∧ (g.val ∈ raiseGroups s src.val pg.ty pg.inst sub) ∧ (3 ≤ reaction s src.val g.val) ∧ (grpLevel s g.val < reaction s src.val g.val) :=
  ⟨fm [(Reg.FLT.AXIS_GRP + 12, 3), (Reg.FLT.REACT + 16 * 0x16, 4)] (fB []), 0x16, ⟨.fch, 4⟩, 7, 0, by decide +kernel⟩
def fz : FltEnt := { fx 0x1E 1 9 false true with pgType := PgTy.fch.code }
theorem witness_fault_manager_4 : ∃ (s : State) (src : Fin 64) (pg : PageId) (sub : Nat) (l : List FltEnt) (x : FltEnt) (h : Hold), (pg.present = true) ∧ (s.holds = [h]) ∧ (h.src = src.val) ∧ (h.pgType = pg.ty.code) ∧ (h.inst = pg.inst) ∧ (h.sub = sub) ∧ (s.flog = l ++ [x]) ∧ (x.of src.val pg.ty pg.inst sub = true) :=
  ⟨{ fm [(Reg.FLT.SRC_ACTIVE_LO, 0x40000000)] (fB [fx 3 2 5 false true, fz]) with holds := [⟨0x1E, PgTy.fch.code, 4, 7, 1⟩] }, 0x1E, ⟨.fch, 4⟩, 7, [fx 3 2 5 false true], fz, ⟨0x1E, PgTy.fch.code, 4, 7, 1⟩, by decide +kernel⟩
def fR (l : List (Nat × Word)) : State := fm ([(Reg.FLT.RECOVER_MASK, 0x80000001), (Reg.FLT.GRP_LEVEL, 0x44), (Reg.FLT.GRP_LEVEL + 12, 0x50000000), (Reg.FLT.CFG, 2)] ++ l) (fB [fx 3 2 5 true true, fx 3 2 5 true false, fx 3 2 5 false false])
theorem witness_fault_manager_5 : ∃ (s : State) (chk : BitVec 16), (ActsNow s .flt 0 0x10 .ap0 chk) :=
  ⟨fR [(Reg.FLT.GRP_RECOVERING, 2)], 0xFFEF, actsNow_of (by decide +kernel)⟩
theorem witness_fault_manager_6 : ∃ (s : State) (chk : BitVec 16), (ActsNow s .flt 0 0x11 .ap0 chk) :=
  ⟨{ fR [(Reg.FLT.GRP_RECOVERING, 0x80000002)] with recDue := [(31, 90000000), (1, 5)] }, 0xFFEE, actsNow_of (by decide +kernel)⟩
theorem witness_fault_manager_7 : ∃ (s : State) (chk : BitVec 16), (ActsNow s .flt 0 0x12 .ap0 chk) :=
  ⟨fR [], 0xFFED, actsNow_of (by decide +kernel)⟩
theorem witness_fault_manager_8 : ∃ (s : State) (chk : BitVec 16), (ActsNow s .flt 0 0x13 .ap0 chk) :=
  ⟨fR [], 0xFFEC, actsNow_of (by decide +kernel)⟩
theorem witness_fault_manager_9 : ∃ (s : State) (chk : BitVec 16), (ActsNow s .flt 0 0x14 .ap0 chk) ∧ (RaiseLogs s 0x24 .flt 0 0) :=
  ⟨fR [(Reg.FLT.RAISE_MASK, 6), (Reg.FLT.RAISE_DETAIL, 0x1234)], 0xFFEB, actsNow_of (by decide +kernel), by unfold RaiseLogs; decide +kernel⟩
theorem witness_fault_manager_10 : ∃ (s : State) (g : Fin 32), ((recovering s).getLsbD g.val = true) ∧ (SMap.get (fun _ => 0) s.recDue g.val ≤ s.lap s.now) :=
  ⟨{ fR [(Reg.FLT.GRP_RECOVERING, 0x80000002)] with recDue := [(31, 90000000), (1, 5)] }, 31, by decide +kernel⟩
theorem witness_fault_manager_11 : ∃ (s : State), (answers s ⟨.flt, 0⟩ = true) ∧ ((s.page (pk .flt 0)).key ≠ .window) ∧ ((s.page (pk .flt 0)).locked = false) :=
  ⟨fR [], by decide +kernel⟩
theorem witness_fault_manager_11b : ∃ (s : State), (answers s ⟨.flt, 0⟩ = true) ∧ ((s.page (pk .flt 0)).key ≠ .window) ∧ ((s.page (pk .flt 0)).locked = false) :=
  ⟨fR [], by decide +kernel⟩
theorem witness_fault_manager_12 : ∃ (s : State) (n : Fin 32), (powered s .pwm n.val = true) ∧ (powered s .flt 0 = true) ∧ (∀ h ∈ s.holds, h.src ≠ 2) ∧ (∀ g : Fin 32, reaction s 2 g.val < 3) :=
  ⟨(wr (fm [(Reg.FLT.SRC_MASK + 8, 6)] (pin (warnAll up) .flt 0 .run)) .pwm 3 Reg.PWM.CFG 0), 3, by decide +kernel⟩
theorem witness_fault_manager_13 : ∃ (s : State) (src : Fin 64) (pg : PageId), (answers s pg = false ∨ (raisers src.val).contains pg.ty = false) :=
  ⟨fB [], 0x3F, ⟨.fch, 4⟩, by decide +kernel⟩
theorem witness_fault_manager_13b : ∃ (s : State) (src : Fin 64) (pg : PageId), (answers s pg = false ∨ (raisers src.val).contains pg.ty = false) :=
  ⟨fB [], 0x16, ⟨.dlk, 3⟩, by decide +kernel⟩
end Sys2Proof.Tests.W16
namespace Sys2Proof.Tests.W17
def img17 (a : Nat) (l : List (Nat × Word)) (s : State) : State := l.foldl (fun s e => putMem32 s (a + e.1) e.2) s
def pB (l : List (Nat × Word)) : State := regs (pin up .pcie 0 .run) .pcie 0 ((Reg.PCIE.STAT, 1) :: l)
theorem witness_host_pcie_1 : ∃ (s : State) (off : Nat), (pcieUp s = true) ∧ (0x06000000 ≤ off) ∧ (off < 0x07000000) ∧ (off % 4 = 0) :=
  ⟨img17 0x10FFFFFC [(0, 0x12345678)] (pB []), 0x06FFFFFC, by decide +kernel⟩
theorem witness_host_pcie_2 : ∃ (s : State) (off : Nat), (pcieUp s = true) ∧ (0x06000000 ≤ off) ∧ (off < 0x07000000) ∧ (off % 4 = 0) :=
  ⟨pB [], 0x06000000, by decide +kernel⟩
theorem witness_host_pcie_3 : ∃ (s : State) (off : Nat), (pcieUp s = true) ∧ (0x04500000 ≤ off) ∧ (off < 0x06000000) :=
  ⟨pB [], 0x04500000, by decide +kernel⟩
theorem witness_host_pcie_3b : ∃ (s : State) (off : Nat), (pcieUp s = true) ∧ (0x04500000 ≤ off) ∧ (off < 0x06000000) :=
  ⟨pB [], 0x05FFFFFF, by decide +kernel⟩
theorem witness_host_pcie_4 : ∃ (s : State), (pcieUp s = false) :=
  ⟨pin up .pcie 0 .run, by decide +kernel⟩
def pM (on : Bool) : State :=
  let s := mod (regs (pB []) .sys 0 [(Reg.SYS.IRQ_ROUTE_V + 8 * 0x39, 0x105)]) .can 0 (fun p => { p with intRaw := b2n on, intEn := 1 })
  let s := { s with msixPend := 0x30, irqMap := [(pk .can 0, 0x39)] }
  { s with irqOn := levels s }
theorem witness_host_pcie_5 : ∃ (s : State) (v : Fin 64) (l : Fin 256), (LinesFollow s) ∧ (s.msixMask = false) ∧ (s.msixPend.getLsbD v.val = true) ∧ (bit (rg s .sys 0 (Reg.SYS.IRQ_ROUTE_V + 8 * l.val)) 8 = true) ∧ (fld (rg s .sys 0 (Reg.SYS.IRQ_ROUTE_V + 8 * l.val)) 0 6 = v.val) ∧ (∀ i : Fin 256, i ≠ l → bit (rg s .sys 0 (Reg.SYS.IRQ_ROUTE_V + 8 * i.val)) 8 = false) :=
  ⟨pM true, 5, 0x39, by unfold LinesFollow; decide +kernel⟩
theorem witness_host_pcie_5b : ∃ (s : State) (v : Fin 64) (l : Fin 256), (LinesFollow s) ∧ (s.msixMask = false) ∧ (s.msixPend.getLsbD v.val = true) ∧ (bit (rg s .sys 0 (Reg.SYS.IRQ_ROUTE_V + 8 * l.val)) 8 = true) ∧ (fld (rg s .sys 0 (Reg.SYS.IRQ_ROUTE_V + 8 * l.val)) 0 6 = v.val) ∧ (∀ i : Fin 256, i ≠ l → bit (rg s .sys 0 (Reg.SYS.IRQ_ROUTE_V + 8 * i.val)) 8 = false) :=
  ⟨pM false, 5, 0x39, by unfold LinesFollow; decide +kernel⟩
theorem witness_host_pcie_6 : ∃ (s : State), (LinesFollow s) :=
  ⟨{ pM true with msixMask := true, msixTbl := [(23, 0)] }, by unfold LinesFollow; decide +kernel⟩
theorem witness_host_pcie_7 : ∃ (s : State), (answers s ⟨.pcie, 0⟩ = true) ∧ ((s.page (pk .pcie 0)).key ≠ .window) ∧ ((s.page (pk .pcie 0)).locked = false) :=
  ⟨pB [(chOff 15 Reg.PCIE.CH_SIZE, 4096), (chOff 15 Reg.PCIE.CH_CTRL, 1)], by decide +kernel⟩
theorem witness_host_pcie_7b : ∃ (s : State), (answers s ⟨.pcie, 0⟩ = true) ∧ ((s.page (pk .pcie 0)).key ≠ .window) ∧ ((s.page (pk .pcie 0)).locked = false) :=
  ⟨pB [(chOff 15 Reg.PCIE.CH_SIZE, 4095), (chOff 15 Reg.PCIE.CH_CTRL, 1)], by decide +kernel⟩
def pD (l : List (Nat × Word)) : State := img17 0x10000020 l (pB [(chOff 3 Reg.PCIE.CH_SIZE, 2), (chOff 3 Reg.PCIE.CH_CTRL, 1), (chOff 3 Reg.PCIE.CH_RING_LO, 0x10000000), (chOff 3 Reg.PCIE.CH_HEAD, 1)])
def dd (s : State) : List Word := (List.range 8).map (fun i => mem32 s (0x10000020 + 4 * i))
theorem witness_host_pcie_8 : ∃ (s : State) (c : Fin 16) (d : List Word) (a : Nat), (pcieUp s = true) ∧ (bit (chRg s c.val Reg.PCIE.CH_CTRL) 0 = true) ∧ (chRg s c.val Reg.PCIE.CH_HEAD ≠ chRg s c.val Reg.PCIE.CH_TAIL) ∧ (bit (chRg s c.val Reg.PCIE.CH_CTRL) 1 = false) ∧ (a = joinN (chRg s c.val Reg.PCIE.CH_RING_LO) (chRg s c.val Reg.PCIE.CH_RING_HI) + 32 * (chRg s c.val Reg.PCIE.CH_HEAD).toNat) ∧ (inSram a 32 = true) ∧ (d = (List.range 8).map (fun i => mem32 s (a + 4 * i))) :=
  ⟨pD [(16, 6), (20, 0x80000001)], 3, dd (pD [(16, 6), (20, 0x80000001)]), 0x10000020, by decide +kernel⟩
def p1 : State := pD [(8, 0x10000040), (16, 8), (20, 0x80000005)]
def p2 : State := pD [(0, 0x10000020), (8, 0x77), (16, 8), (20, 0x80000006)]
theorem witness_host_pcie_8b : ∃ (s : State) (c : Fin 16) (d : List Word) (a : Nat), (pcieUp s = true) ∧ (bit (chRg s c.val Reg.PCIE.CH_CTRL) 0 = true) ∧ (chRg s c.val Reg.PCIE.CH_HEAD ≠ chRg s c.val Reg.PCIE.CH_TAIL) ∧ (bit (chRg s c.val Reg.PCIE.CH_CTRL) 1 = false) ∧ (a = joinN (chRg s c.val Reg.PCIE.CH_RING_LO) (chRg s c.val Reg.PCIE.CH_RING_HI) + 32 * (chRg s c.val Reg.PCIE.CH_HEAD).toNat) ∧ (inSram a 32 = true) ∧ (d = (List.range 8).map (fun i => mem32 s (a + 4 * i))) :=
  ⟨p2, 3, dd p2, 0x10000020, by decide +kernel⟩
theorem witness_host_pcie_9 : ∃ (s : State), (stOf s .pcie 0 = .run) :=
  ⟨{ p2 with msixTbl := [(3, 0)] }, by decide +kernel⟩
theorem witness_host_pcie_9b : ∃ (s : State), (stOf s .pcie 0 = .run) :=
  ⟨{ p2 with msixTbl := [(3, 0)] }, by decide +kernel⟩
theorem witness_host_pcie_10 : ∃ (s : State) (speed : Fin 8) (width : Fin 8), (stOf s .pcie 0 = .run) ∧ (1 ≤ speed.val) ∧ (speed.val ≤ pcieGen s) ∧ (width.val ∈ [1, 2, 4]) :=
  ⟨pB [], 3, 4, by decide +kernel⟩
end Sys2Proof.Tests.W17
namespace Sys2Proof.Tests.W18
def img18 (a : Nat) (l : List (Nat × Word)) (s : State) : State := l.foldl (fun s e => putMem32 s (a + e.1) e.2) s
def hB (st : Word) (x : HspSt) : State := { img18 0x10000FF0 [(0, 1), (4, 2), (8, 3), (12, 4), (16, 5)] (regs (pin up .hsp 0 .run) .hsp 0 [(Reg.HSP.STAT, st), (Reg.HSP.SILENT_T, 100)]) with hsp := x }
theorem witness_host_serial_1 : ∃ (s : State) (len : Nat) (addr : Nat) (alive : BitVec 8) (crc : BitVec 16) (seq : Bool) (cut : Bool), (stOf s .hsp 0 = .run) ∧ (1 ≤ len) ∧ (len ≤ 1024) ∧ (addr % 4 = 0) ∧ (crc.toNat = crc16 ([1, alive.toNat, len % 256, len / 256] ++ wordBytes (ofN addr))) ∧ (inSram addr 4096 = true) ∧ (seq = (alive.toNat != rf s .hsp 0 Reg.HSP.STAT 8 8)) ∧ (cut = decide (4096 < addr % 4096 + 4 * len)) :=
  ⟨hB 0x3701 ⟨1, some 0x36, 5, none⟩, 8, 0x10000FF0, 0x37, BitVec.ofNat 16 (crc16 ([1, 0x37, 8 % 256, 8 / 256] ++ wordBytes (ofN 0x10000FF0))), false, true, by decide +kernel⟩
theorem witness_host_serial_1b : ∃ (s : State) (len : Nat) (addr : Nat) (alive : BitVec 8) (crc : BitVec 16) (seq : Bool) (cut : Bool), (stOf s .hsp 0 = .run) ∧ (1 ≤ len) ∧ (len ≤ 1024) ∧ (addr % 4 = 0) ∧ (crc.toNat = crc16 ([1, alive.toNat, len % 256, len / 256] ++ wordBytes (ofN addr))) ∧ (inSram addr 4096 = true) ∧ (seq = (alive.toNat != rf s .hsp 0 Reg.HSP.STAT 8 8)) ∧ (cut = decide (4096 < addr % 4096 + 4 * len)) :=
  ⟨hB 0x3801 ⟨1, some 0x36, 5, none⟩, 4, 0x10000FF0, 0x37, BitVec.ofNat 16 (crc16 ([1, 0x37, 4 % 256, 4 / 256] ++ wordBytes (ofN 0x10000FF0))), true, false, by decide +kernel⟩
theorem witness_host_serial_2 : ∃ (s : State) (len : Nat) (addr : Nat) (alive : BitVec 8) (crc : BitVec 16), (stOf s .hsp 0 = .run) ∧ (1 ≤ len) ∧ (len ≤ 1024) ∧ (addr % 4 = 0) ∧ (addr < 4294967296) ∧ (crc.toNat ≠ crc16 ([1, alive.toNat, len % 256, len / 256] ++ wordBytes (ofN addr))) :=
  ⟨hB 0x3801 ⟨1, some 0x36, 5, none⟩, 4, 0x10000FF0, 0x37, ~~~(BitVec.ofNat 16 (crc16 ([1, 0x37, 4 % 256, 4 / 256] ++ wordBytes (ofN 0x10000FF0)))), by decide +kernel⟩
theorem witness_host_serial_3 : ∃ (s : State) (len : Nat) (addr : Nat) (alive : BitVec 8) (data : List Nat) (crc : BitVec 16), (stOf s .hsp 0 = .run) ∧ (1 ≤ len) ∧ (len ≤ 1024) ∧ (addr % 4 = 0) ∧ (crc.toNat = crc16 ([2, alive.toNat, len % 256, len / 256] ++ wordBytes (ofN addr) ++ toBytes (data.map ofN))) ∧ (inSram addr 4096 = true) ∧ (data.length = len) ∧ (addr % 4096 + 4 * len ≤ 4096) :=
  ⟨hB 0x3801 ⟨1, some 0x36, 5, none⟩, 4, 0x10000FF0, 0x37, [7, 8, 9, 0x1FFFFFFFF], BitVec.ofNat 16 (crc16 ([2, 0x37, 4 % 256, 4 / 256] ++ wordBytes (ofN 0x10000FF0) ++ toBytes (([7, 8, 9, 0x1FFFFFFFF] : List Nat).map ofN))), by decide +kernel⟩
theorem witness_host_serial_3b : ∃ (s : State) (len : Nat) (addr : Nat) (alive : BitVec 8) (data : List Nat) (crc : BitVec 16), (stOf s .hsp 0 = .run) ∧ (1 ≤ len) ∧ (len ≤ 1024) ∧ (addr % 4 = 0) ∧ (crc.toNat = crc16 ([2, alive.toNat, len % 256, len / 256] ++ wordBytes (ofN addr) ++ toBytes (data.map ofN))) ∧ (inSram addr 4096 = true) ∧ (data.length = len) ∧ (addr % 4096 + 4 * len ≤ 4096) :=
  ⟨hB 0x3801 ⟨1, some 0x36, 5, none⟩, 4, 0x10000FF0, 0x37, [7, 8, 9, 0x1FFFFFFFF], BitVec.ofNat 16 (crc16 ([2, 0x37, 4 % 256, 4 / 256] ++ wordBytes (ofN 0x10000FF0) ++ toBytes (([7, 8, 9, 0x1FFFFFFFF] : List Nat).map ofN))), by decide +kernel⟩
theorem witness_host_serial_4 : ∃ (s : State) (len : Nat) (addr : Nat) (alive : BitVec 8) (data : List Nat) (crc : BitVec 16) (early : Bool), (stOf s .hsp 0 = .run) ∧ (crc.toNat ≠ crc16 ([2, alive.toNat, len % 256, len / 256 % 256] ++ wordBytes (ofN addr) ++ toBytes (data.map ofN)) ∨ early = true) :=
  ⟨hB 0x3801 ⟨1, some 0x36, 5, none⟩, 1, 0x10000FF0, 0x37, [7], ~~~(BitVec.ofNat 16 (crc16 ([2, 0x37, 1 % 256, 1 / 256] ++ wordBytes (ofN 0x10000FF0) ++ toBytes (([7] : List Nat).map ofN)))), false, by decide +kernel⟩
theorem witness_host_serial_4b : ∃ (s : State) (len : Nat) (addr : Nat) (alive : BitVec 8) (data : List Nat) (crc : BitVec 16) (early : Bool), (stOf s .hsp 0 = .run) ∧ (crc.toNat ≠ crc16 ([2, alive.toNat, len % 256, len / 256 % 256] ++ wordBytes (ofN addr) ++ toBytes (data.map ofN)) ∨ early = true) :=
  ⟨hB 0x3801 ⟨1, some 0x36, 5, none⟩, 1, 0x10000FF0, 0x37, [7], BitVec.ofNat 16 (crc16 ([2, 0x37, 1 % 256, 1 / 256] ++ wordBytes (ofN 0x10000FF0) ++ toBytes (([7] : List Nat).map ofN))), true, by decide +kernel⟩
theorem witness_host_serial_5 : ∃ (s : State) (addr : Nat) (alive : BitVec 8) (crc : BitVec 16), (stOf s .hsp 0 = .run) ∧ (addr % 4 = 0) ∧ (addr < 4294967296) ∧ (crc.toNat = crc16 ([3, alive.toNat, 0, 0] ++ wordBytes (ofN addr))) :=
  ⟨hB 0x3801 ⟨4, some 0x36, 5, none⟩, 0x10000FF0, 0x37, BitVec.ofNat 16 (crc16 ([3, 0x37, 0, 0] ++ wordBytes (ofN 0x10000FF0))), by decide +kernel⟩
theorem witness_host_serial_5b : ∃ (s : State) (addr : Nat) (alive : BitVec 8) (crc : BitVec 16), (stOf s .hsp 0 = .run) ∧ (addr % 4 = 0) ∧ (addr < 4294967296) ∧ (crc.toNat = crc16 ([3, alive.toNat, 0, 0] ++ wordBytes (ofN addr))) :=
  ⟨hB 0xFF01 ⟨4, some 0x36, 5, none⟩, 0x10000FF0, 0x37, BitVec.ofNat 16 (crc16 ([3, 0x37, 0, 0] ++ wordBytes (ofN 0x10000FF0))), by decide +kernel⟩
theorem witness_host_serial_6 : ∃ (s : State) (t : Nat), (stOf s .hsp 0 = .run) ∧ (rb s .hsp 0 Reg.HSP.STAT 0 = false) ∧ (s.hsp.at_ + 8000000 * (rg s .hsp 0 Reg.HSP.SILENT_T).toNat ≤ (s.at t).lap t) :=
  ⟨hB 0x3800 ⟨4, some 0x36, 5, none⟩, 800000005, by decide +kernel⟩
theorem witness_host_serial_7 : ∃ (s : State), (stOf s .hsp 0 = .run) :=
  ⟨hB 0x3801 ⟨4, some 0x36, 5, none⟩, by decide +kernel⟩
def mB (x : PgState) (st c : Word) (l : List (Nat × List Nat)) : State := { regs (pin up .msp 1 x) .msp 1 [(Reg.MSP.STAT, st), (Reg.MSP.CFG, c), (Reg.MSP.IND_CMD, 0x2050000), (Reg.MSP.IND_POLL, 0x20000)] with msps := [(1, ⟨l, some 4194302, 9⟩)] }
theorem witness_memory_and_peripheral_ports_1 : ∃ (s : State) (p : Fin 2) (off : BitVec 28) (b : List Nat), (inSt s .msp p.val [.run, .update] = true) ∧ ((mspOf s p.val).lines.find? (fun e => e.1 == off.toNat / 64) = some (off.toNat / 64, b)) :=
  ⟨mB .update 0 2 [(4194303, List.range 64)], 1, 0xFFFFFFE, List.range 64, by decide +kernel⟩
theorem witness_memory_and_peripheral_ports_2 : ∃ (s : State) (p : Fin 2) (off : BitVec 28), (stOf s .msp p.val = .run) ∧ ((mspOf s p.val).lines.find? (fun e => e.1 == off.toNat / 64) = none) ∧ ((cacheSet (mspOf s p.val) (off.toNat / 64)).length < 4) ∧ (off.toNat < 64 ∨ (mspOf s p.val).last ≠ some (off.toNat / 64 - 1) ∨ rf s .msp p.val Reg.MSP.CFG 2 3 = 0) :=
  ⟨mB .run 0 2 [(63, List.range 64)], 1, 0xFFFFFFE, by decide +kernel⟩
theorem witness_memory_and_peripheral_ports_3 : ∃ (s : State) (p : Fin 2) (off : BitVec 28), (stOf s .msp p.val = .update) ∧ ((mspOf s p.val).lines.find? (fun e => e.1 == off.toNat / 64) = none) :=
  ⟨mB .update 0 2 [(63, List.range 64)], 1, 0xFFFFFFE, by decide +kernel⟩
theorem witness_memory_and_peripheral_ports_4 : ∃ (s : State) (p : Fin 2) (m : Master) (chk : BitVec 16), (ActsNow s .msp p.val 0x10 m chk) :=
  ⟨mB .run 1 2 [(63, List.range 64)], 1, .ap1, 0xFFEF, actsNow_of (by decide +kernel)⟩
theorem witness_memory_and_peripheral_ports_5 : ∃ (s : State) (p : Fin 2), (stOf s .msp p.val = .update) ∧ ((s.page (pk .msp p.val)).commit = .none) ∧ (bit (rg s .msp p.val Reg.MSP.IND_CMD) 25 = true) :=
  ⟨mB .update 2 2 [], 1, by decide +kernel⟩
theorem witness_memory_and_peripheral_ports_6 : ∃ (s : State) (p : Fin 2) (t : Nat), (stOf s .msp p.val = .update) ∧ ((s.page (pk .msp p.val)).commit = .none) ∧ (rf s .msp p.val Reg.MSP.IND_POLL 16 16 ≠ 0) ∧ ((mspOf s p.val).since + 8000000 * rf s .msp p.val Reg.MSP.IND_POLL 16 16 ≤ (s.at t).lap t) :=
  ⟨mB .update 2 2 [], 1, 90000000, by decide +kernel⟩
def sB (c : Word) (x : PspSt) (l : List (Nat × Word)) : State := { setPsp (regs (pin (pin (pin up .psp 5 .run) .sig 0 .run) .recStore 0 .run) .psp 5 ([(Reg.PSP.CFG, c), (Reg.PSP.CLKDIV, 1), (Reg.PSP.ERR_LIMIT, 2)] ++ l)) 5 x with
  sigs := [(11, ⟨ofN (PgTy.psp.code * 16777216 + 5 * 65536 + Reg.PSP.RX / 4 * 64), 0x200 + 16 * ofN UpdEv.frame.num, 0, 0⟩), (12, ⟨0x30000000, 0x201, 0, 0⟩)], slots := [(12, { Slot.reset with value := 0x87654321 })] }
def xt : PspSt := { PspSt.reset with trig := true, until_ := 89999999, bad := 1 }
theorem witness_memory_and_peripheral_ports_7 : ∃ (s : State) (n : Fin 8) (chk : BitVec 16) (w : Nat) (k : Nat), (ActsNow s .psp n.val 0x10 .ap0 chk) ∧ (k = rf s .psp n.val Reg.PSP.CFG 8 7) ∧ (w = (if rf s .psp n.val Reg.PSP.CFG 3 5 = 0 then 32 else rf s .psp n.val Reg.PSP.CFG 3 5)) :=
  ⟨sB 0x280 .reset [(Reg.PSP.TX, 0x12345), (Reg.PSP.TX + 4, 0x8000000C)], 5, 0xFFEF, 16, 2, actsNow_of (by decide +kernel), by decide +kernel⟩
theorem witness_memory_and_peripheral_ports_7b : ∃ (s : State) (n : Fin 8) (chk : BitVec 16) (w : Nat) (k : Nat), (ActsNow s .psp n.val 0x10 .ap0 chk) ∧ (k = rf s .psp n.val Reg.PSP.CFG 8 7) ∧ (w = (if rf s .psp n.val Reg.PSP.CFG 3 5 = 0 then 32 else rf s .psp n.val Reg.PSP.CFG 3 5)) :=
  ⟨sB 0x280 xt [], 5, 0xFFEF, 16, 2, actsNow_of (by decide +kernel), by decide +kernel⟩
theorem witness_memory_and_peripheral_ports_8 : ∃ (s : State) (n : Fin 8) (t : Nat) (w : Nat) (rx : List Word) (crc : BitVec 16) (good : Bool), (stOf s .psp n.val = .run) ∧ ((pspOf s n.val).trig = true) ∧ ((pspOf s n.val).sending = false) ∧ (PageIdle s (pk .psp n.val)) ∧ ((pspOf s n.val).until_ ≤ (s.at t).lap (max s.now t)) ∧ (max s.now t = t) ∧ (rx.length = rf s .psp n.val Reg.PSP.CFG 8 7) ∧ (rx.length ≤ 64) ∧ (w = (if rf s .psp n.val Reg.PSP.CFG 3 5 = 0 then 32 else rf s .psp n.val Reg.PSP.CFG 3 5)) ∧ (good = (!rb s .psp n.val Reg.PSP.CFG 0 || wordCrc w rx == crc.toNat)) :=
  ⟨sB 0x280 xt [], 5, 90000000, 16, [0x8001, 0x7FFF], 0, true, by unfold PageIdle; decide +kernel⟩
theorem witness_memory_and_peripheral_ports_8b : ∃ (s : State) (n : Fin 8) (t : Nat) (w : Nat) (rx : List Word) (crc : BitVec 16) (good : Bool), (stOf s .psp n.val = .run) ∧ ((pspOf s n.val).trig = true) ∧ ((pspOf s n.val).sending = false) ∧ (PageIdle s (pk .psp n.val)) ∧ ((pspOf s n.val).until_ ≤ (s.at t).lap (max s.now t)) ∧ (max s.now t = t) ∧ (rx.length = rf s .psp n.val Reg.PSP.CFG 8 7) ∧ (rx.length ≤ 64) ∧ (w = (if rf s .psp n.val Reg.PSP.CFG 3 5 = 0 then 32 else rf s .psp n.val Reg.PSP.CFG 3 5)) ∧ (good = (!rb s .psp n.val Reg.PSP.CFG 0 || wordCrc w rx == crc.toNat)) :=
  ⟨sB 0x281 { xt with bad := 0 } [], 5, 90000000, 16, [0x8001, 0x7FFF], 0, false, by unfold PageIdle; decide +kernel⟩
def s9 : State := { sB 0x180 xt [] with sigs := [(11, ⟨ofN (PgTy.psp.code * 16777216 + 5 * 65536 + Reg.PSP.RX / 4 * 64), 0x200 + 16 * ofN UpdEv.frame.num, 0, 0⟩)] }
theorem witness_memory_and_peripheral_ports_9 : ∃ (s : State) (n : Fin 8) (t : Nat) (id : Nat) (e : SigEntry), (stOf s .psp n.val = .run) ∧ ((pspOf s n.val).trig = true) ∧ ((pspOf s n.val).sending = false) ∧ (PageIdle s (pk .psp n.val)) ∧ ((pspOf s n.val).until_ ≤ (s.at t).lap (max s.now t)) ∧ (rf s .psp n.val Reg.PSP.CFG 8 7 = 1) ∧ (rb s .psp n.val Reg.PSP.CFG 0 = false) ∧ (rf s .psp n.val Reg.PSP.CFG 3 5 = 16) ∧ (s.sigs = [(id, e)]) ∧ (id ≠ 0) ∧ (e.en = true) ∧ (sigRun s = true) ∧ (e.from .psp n.val = true) ∧ (e.upd = UpdEv.frame.num) ∧ (4 * e.word = Reg.PSP.RX) ∧ (e.typ = 0) :=
  ⟨s9, 5, 90000000, 11, ⟨ofN (PgTy.psp.code * 16777216 + 5 * 65536 + Reg.PSP.RX / 4 * 64), 0x200 + 16 * ofN UpdEv.frame.num, 0, 0⟩, by unfold PageIdle; decide +kernel⟩
end Sys2Proof.Tests.W18
namespace Sys2Proof.Tests.W19
def img19 (a : Nat) (l : List (Nat × Word)) (s : State) : State := l.foldl (fun s e => putMem32 s (a + e.1) e.2) s
/-- A frame of 60 bytes for an address, from an address, with an Ethertype and the bytes that follow. -/
def ef (d : List Nat) (ty : Nat) (l : List Nat) : List Nat := d ++ [2, 0, 0, 0, 0, 9, ty / 256, ty % 256] ++ l ++ List.replicate (46 - l.length) 3
def eB (p : Nat) (l : List (Nat × Word)) : State := regs (pin (pin up .ptp 0 .run) .eth p .run) .eth p ([(Reg.ETH.STAT, 1), (Reg.ETH.MAC_LO, 7), (Reg.ETH.MAC_HI, 0x200), (Reg.ETH.QMAP, 0xE4)] ++ l)
def er (r : Nat) (p : Nat) (w : Word) (s : State) : State := img19 0x10000020 [(0, 0x10000040), (8, w)] (regs s .eth p [(r, 0x10000000), (r + 8, 2), (r + 16, 1)])
def e1 : State := regs (er Reg.ETH.RXR_LO 2 0x90200 (eB 2 [])) .ptp 0 [(Reg.PTP.RX_CORR + 8, 16)]
theorem witness_ethernet_and_cores_1 : ∃ (s : State) (d : Nat) (b : Nat) (n : Nat) (f : List Nat), (ethUp s 2 = true) ∧ (60 ≤ f.length) ∧ (fb16 f 12 ≠ 0x8808 ∨ rb s .eth 2 Reg.ETH.CFG 3 = false) ∧ (f.length + 4 ≤ ethMax s 2) ∧ (ethDst f = ethMac s 2) ∧ (ringReady s 2 Reg.ETH.RXR_LO = true) ∧ (d = rgU64 s .eth 2 Reg.ETH.RXR_LO + 32 * (rg s .eth 2 (Reg.ETH.RXR_LO + 16)).toNat) ∧ (b = joinN (mem32 s d) (mem32 s (d + 4))) ∧ (n = fld (mem32 s (d + 8)) 0 14) ∧ (inSram b n = true) ∧ (f.length ≤ n) ∧ (b + n ≤ d ∨ d + 32 ≤ b) :=
  ⟨e1, 0x10000020, 0x10000040, 512, ef [2, 0, 0, 0, 0, 7] 0x800 [1, 2], by decide +kernel⟩
theorem witness_ethernet_and_cores_2 : ∃ (s : State) (f : List Nat), (ethUp s 2 = true) ∧ (60 ≤ f.length) ∧ (fb16 f 12 ≠ 0x8808 ∨ rb s .eth 2 Reg.ETH.CFG 3 = false) ∧ (f.length + 4 ≤ ethMax s 2) ∧ (ethDst f = ethMac s 2) ∧ (ringReady s 2 Reg.ETH.RXR_LO = false) :=
  ⟨regs e1 .eth 2 [(Reg.ETH.RXR_LO + 12, 1)], ef [2, 0, 0, 0, 0, 7] 0x800 [1, 2], by decide +kernel⟩
def e3 : State := { regs (regs (eB 1 []) .eth 0 []) .eth 0 [(Reg.ETH.STAT, 1), (Reg.ETH.SW_CFG, 0x12C0002), (Reg.ETH.MAC_LO, 8)] with
  ethTbl := [⟨0x020000000009, 1, 5⟩, ⟨0x020000000006, 1, 6⟩] }
def e3b : State := pin e3 .eth 0 .run
theorem witness_ethernet_and_cores_3 : ∃ (s : State) (p : Fin 3) (q : Fin 3) (f : List Nat) (l : List EthAddr), (p.val < 2) ∧ (q.val = 1 - p.val) ∧ (ethUp s p.val = true) ∧ (ethUp s q.val = true) ∧ (60 ≤ f.length) ∧ (fb16 f 12 ≠ 0x8808) ∧ (f.length + 4 ≤ ethMax s p.val) ∧ (ethDst f ≠ ethMac s 0) ∧ (ethDst f ≠ ethMac s 1) ∧ (ethGroup (ethDst f) = false) ∧ (ethGroup (ethSrc f) = false) ∧ (rb s .eth 0 Reg.ETH.SW_CFG 1 = true) ∧ (l = s.ethTbl.filter (fun x => x.mac != ethSrc f)) ∧ (l.length < 1024) ∧ ((l.find? (fun x => x.mac == ethDst f)).map EthAddr.port = some q.val) ∧ (rf s .ptp 0 Reg.PTP.CFG 0 2 = 0 ∨ ptpOf s p.val f = none) ∧ (ptpOf s q.val f = none) :=
  ⟨e3b, 0, 1, ef [2, 0, 0, 0, 0, 6] 0x8100 [0x60, 0, 8, 0], [⟨0x020000000006, 1, 6⟩], by decide +kernel⟩
def fp : List Nat := ef [1, 0x1B, 0x19, 0, 0, 0] 0x88F7 ([0x10, 2, 0, 44, 0, 0, 0, 0] ++ [255, 255, 255, 255, 255, 255, 255, 0])
def e4 : State := regs (regs e3b .eth 0 [(Reg.ETH.SW_CFG, 0)]) .ptp 0 [(Reg.PTP.CFG, 1), (Reg.PTP.PORT_CFG, 3), (Reg.PTP.TX_CORR + 4, 8)]
theorem witness_ethernet_and_cores_4 : ∃ (s : State) (p : Fin 3) (q : Fin 3) (o : Nat) (f : List Nat), (p.val < 2) ∧ (q.val = 1 - p.val) ∧ (ethUp s p.val = true) ∧ (ethUp s q.val = true) ∧ (60 ≤ f.length) ∧ (fb16 f 12 ≠ 0x8808) ∧ (f.length + 4 ≤ ethMax s p.val) ∧ (ethDst f ≠ ethMac s 0) ∧ (ethDst f ≠ ethMac s 1) ∧ (ethGroup (ethDst f) = true) ∧ (rf s .ptp 0 Reg.PTP.CFG 0 2 = 1) ∧ (ptpOf s p.val f = some (o, .l2)) ∧ (ptpType f o = 0) ∧ (o + 16 ≤ f.length) ∧ (ringReady s p.val Reg.ETH.RXR_LO = false) ∧ (rb s .eth 0 Reg.ETH.SW_CFG 1 = false) :=
  ⟨e4, 0, 1, 14, fp, by decide +kernel⟩
def e5 (w : Word) : State := regs (er Reg.ETH.TXR_LO 1 w (eB 1 [])) .ptp 0 [(Reg.PTP.TX_CORR + 4, 8)]
theorem witness_ethernet_and_cores_5 : ∃ (s : State) (p : Fin 3) (d : Nat) (b : Nat) (n : Nat), (ethUp s p.val = true) ∧ (ringReady s p.val Reg.ETH.TXR_LO = true) ∧ (d = rgU64 s .eth p.val Reg.ETH.TXR_LO + 32 * (rg s .eth p.val (Reg.ETH.TXR_LO + 16)).toNat) ∧ (b = joinN (mem32 s d) (mem32 s (d + 4))) ∧ (n = fld (mem32 s (d + 8)) 0 14) ∧ (inSram b n = true) ∧ (n + 4 ≤ ethMax s p.val) ∧ (bit (mem32 s (d + 8)) 18 = false) :=
  ⟨e5 0x90040, 1, 0x10000020, 0x10000040, 64, by decide +kernel⟩
theorem witness_ethernet_and_cores_5b : ∃ (s : State) (p : Fin 3) (d : Nat) (b : Nat) (n : Nat), (ethUp s p.val = true) ∧ (ringReady s p.val Reg.ETH.TXR_LO = true) ∧ (d = rgU64 s .eth p.val Reg.ETH.TXR_LO + 32 * (rg s .eth p.val (Reg.ETH.TXR_LO + 16)).toNat) ∧ (b = joinN (mem32 s d) (mem32 s (d + 4))) ∧ (n = fld (mem32 s (d + 8)) 0 14) ∧ (inSram b n = true) ∧ (n + 4 ≤ ethMax s p.val) ∧ (bit (mem32 s (d + 8)) 18 = false) :=
  ⟨e5 0x30040, 1, 0x10000020, 0x10000040, 64, by decide +kernel⟩
theorem witness_ethernet_and_cores_7 : ∃ (s : State), (rf s .eth 0 Reg.ETH.SW_CFG 16 16 ≠ 0) :=
  ⟨{ regs e3 .eth 0 [(Reg.ETH.SW_CFG, 0x10002)] with ethTbl := [⟨9, 1, 5⟩, ⟨6, 1, 90000000⟩] }, by decide +kernel⟩
theorem witness_ethernet_and_cores_8 : ∃ (s : State) (p : Fin 3), (answers s ⟨.eth, p.val⟩ = true) ∧ ((s.page (pk .eth p.val)).key ≠ .window) ∧ ((s.page (pk .eth p.val)).locked = false) :=
  ⟨eB 2 [], 2, by decide +kernel⟩
theorem witness_ethernet_and_cores_8b : ∃ (s : State) (p : Fin 3), (answers s ⟨.eth, p.val⟩ = true) ∧ ((s.page (pk .eth p.val)).key ≠ .window) ∧ ((s.page (pk .eth p.val)).locked = false) :=
  ⟨eB 0 [], 0, by decide +kernel⟩
theorem witness_ethernet_and_cores_9 : ∃ (s : State), (powered s .eth 2 = true) ∧ (rb s .eth 2 Reg.ETH.MDIO 12 = true) :=
  ⟨eB 2 [(Reg.ETH.MDIO, 0x1800)], by decide +kernel⟩
theorem witness_ethernet_and_cores_10 : ∃ (s : State) (p : Fin 3), (inSt s .eth p.val [.idle, .run] = true) :=
  ⟨eB 2 [], 2, by decide +kernel⟩
theorem witness_ethernet_and_cores_10b : ∃ (s : State) (p : Fin 3), (inSt s .eth p.val [.idle, .run] = true) :=
  ⟨eB 2 [], 2, by decide +kernel⟩
def aB (st : Word) : State := { regs (pin up .apc 0 .run) .apc 0 [(Reg.APC.READY, 3), (Reg.APC.RESTART_CNT, 0xFFFFFFFF), (Reg.APC.MB_STAT, st)] with apHalt := 3, dbgHalt := [.ap 0, .ap 1] }
theorem witness_ethernet_and_cores_11 : ∃ (s : State) (chk : BitVec 16), (ActsNow s .apc 0 0x10 .ap0 chk) :=
  ⟨aB 0, 0xFFEF, actsNow_of (by decide +kernel)⟩
theorem witness_ethernet_and_cores_12 : ∃ (s : State) (chk : BitVec 16), (ActsNow s .apc 0 0x11 .ap0 chk) :=
  ⟨aB 0, 0xFFEE, actsNow_of (by decide +kernel)⟩
theorem witness_ethernet_and_cores_13 : ∃ (s : State) (m : Master) (i : Fin 2), (m = (if i.val = 0 then .ap0 else .ap1)) ∧ (answers s ⟨.apc, 0⟩ = true) ∧ ((s.page (pk .apc 0)).key ≠ .window) ∧ ((s.page (pk .apc 0)).locked = false) :=
  ⟨{ aB 0 with apRestart := some (1, 5) }, .ap1, 1, by decide +kernel⟩
theorem witness_ethernet_and_cores_13b : ∃ (s : State) (m : Master) (i : Fin 2), (m = (if i.val = 0 then .ap0 else .ap1)) ∧ (answers s ⟨.apc, 0⟩ = true) ∧ ((s.page (pk .apc 0)).key ≠ .window) ∧ ((s.page (pk .apc 0)).locked = false) :=
  ⟨{ aB 0 with apRestart := some (1, 5) }, .ap0, 0, by decide +kernel⟩
theorem witness_ethernet_and_cores_14 : ∃ (s : State) (m : Master), (m ≠ .ap0) ∧ (m ≠ .ap1) ∧ (answers s ⟨.apc, 0⟩ = true) ∧ ((s.page (pk .apc 0)).key ≠ .window) ∧ ((s.page (pk .apc 0)).locked = false) :=
  ⟨aB 0, .hsp, by decide +kernel⟩
theorem witness_ethernet_and_cores_15 : ∃ (s : State) (t : Nat) (i : Nat) (due : Nat), (s.apRestart = some (i, due)) ∧ (due ≤ (s.at t).lap t) :=
  ⟨{ aB 0 with apRestart := some (1, 90000005) }, 90000005, 1, 90000005, by decide +kernel⟩
theorem witness_ethernet_and_cores_16 : ∃ (s : State), (answers s ⟨.apc, 0⟩ = true) ∧ ((s.page (pk .apc 0)).key ≠ .window) ∧ ((s.page (pk .apc 0)).locked = false) :=
  ⟨aB 0, by decide +kernel⟩
theorem witness_ethernet_and_cores_16b : ∃ (s : State), (answers s ⟨.apc, 0⟩ = true) ∧ ((s.page (pk .apc 0)).key ≠ .window) ∧ ((s.page (pk .apc 0)).locked = false) :=
  ⟨aB 3, by decide +kernel⟩
end Sys2Proof.Tests.W19
namespace Sys2Proof.Tests.W20
def cB (l : List (Nat × Word)) (x : CanSt) : State := { regs (pin (pin (pin (warnAll up) .can 5 .run) .sig 0 .run) .recStore 0 .run) .can 5
  ([(Reg.CAN.OBJ_CFG + 4 * 120, 0x446), (Reg.CAN.FILT_ID + 4 * 120, 0x300), (Reg.CAN.FILT_MASK + 4 * 120, 0x20000780)] ++ (List.range 7).map (fun i => (Reg.CAN.OBJ_CFG + 4 * (121 + i), 0x402)) ++ l) with cans := [(5, x)] }
def cf : CanFrame := ⟨0x37F, false, true, true, false, false, 9, [1, 2, 3, 4, 5, 6, 0x87, 8, 9, 10, 11, 12, 13]⟩
def xr : CanSt := { CanSt.reset with ring := [(120, 7)] }
theorem witness_can_controllers_1 : ∃ (s : State) (k : Fin 8) (h : Nat) (n : Nat) (f : CanFrame), (canLive s k.val = true) ∧ ((canOf s k.val).rxErr = 0) ∧ ((List.range 128).find? (fun i => canMatch s k.val i f) = some h) ∧ (n = h + SMap.get (fun _ => 0) (canOf s k.val).ring h) ∧ (n < 128) ∧ (objBit s k.val Reg.CAN.RX_FULL n = false ∨ bit (objCfg s k.val h) 9 = true) ∧ (s.sigs = []) :=
  ⟨cB [(Reg.CAN.RX_STALE + 12, 0x1000000)] xr, 5, 120, 127, cf, by decide +kernel⟩
theorem witness_can_controllers_1b : ∃ (s : State) (k : Fin 8) (h : Nat) (n : Nat) (f : CanFrame), (canLive s k.val = true) ∧ ((canOf s k.val).rxErr = 0) ∧ ((List.range 128).find? (fun i => canMatch s k.val i f) = some h) ∧ (n = h + SMap.get (fun _ => 0) (canOf s k.val).ring h) ∧ (n < 128) ∧ (objBit s k.val Reg.CAN.RX_FULL n = false ∨ bit (objCfg s k.val h) 9 = true) ∧ (s.sigs = []) :=
  ⟨cB [(Reg.CAN.OBJ_CFG + 4 * 120, 0x60E), (Reg.CAN.RX_FULL + 12, 0x1000000)] .reset, 5, 120, 120, { cf with rtr := true, fdf := false }, by decide +kernel⟩
theorem witness_can_controllers_2 : ∃ (s : State) (k : Fin 8) (h : Nat) (n : Nat) (f : CanFrame), (canLive s k.val = true) ∧ ((canOf s k.val).rxErr = 0) ∧ ((List.range 128).find? (fun i => canMatch s k.val i f) = some h) ∧ (n = h + SMap.get (fun _ => 0) (canOf s k.val).ring h) ∧ (n < 128) ∧ (objBit s k.val Reg.CAN.RX_FULL n = true) ∧ (bit (objCfg s k.val h) 9 = false) :=
  ⟨cB [(Reg.CAN.RX_FULL + 12, 0x80000000)] xr, 5, 120, 127, cf, by decide +kernel⟩
def ce : SigEntry := ⟨ofN (PgTy.can.code * 16777216 + 5 * 65536 + 3 * 64), 0x201 + 16 * ofN UpdEv.frame.num, 77, 0⟩
def c3 : State := { cB [(Reg.CAN.MAP + 12, ofN (127 * 65536 + 3 * 67108864))] xr with sigs := [(11, ce)] }
theorem witness_can_controllers_3 : ∃ (s : State) (k : Fin 8) (h : Nat) (n : Nat) (id : Nat) (f : CanFrame) (e : SigEntry), (canLive s k.val = true) ∧ ((canOf s k.val).rxErr = 0) ∧ ((List.range 128).find? (fun i => canMatch s k.val i f) = some h) ∧ (n = h + SMap.get (fun _ => 0) (canOf s k.val).ring h) ∧ (n < 128) ∧ (objBit s k.val Reg.CAN.RX_FULL n = false) ∧ (s.sigs = [(id, e)]) ∧ (id ≠ 0) ∧ (e.en = true) ∧ (sigRun s = true) ∧ (e.from .can k.val = true) ∧ (e.upd = UpdEv.frame.num) ∧ (e.word < 64) ∧ (fld (canMap s k.val e.word) 16 7 = n) ∧ (e.typ = 1) ∧ (f.rtr = false) :=
  ⟨c3, 5, 120, 127, 11, cf, ce, by decide +kernel⟩
theorem witness_can_controllers_4 : ∃ (s : State) (k : Fin 8) (w : Fin 4) (b : Fin 32) (n : Nat), (answers s ⟨.can, k.val⟩ = true) ∧ ((s.page (pk .can k.val)).key ≠ .window) ∧ ((s.page (pk .can k.val)).locked = false) ∧ (n = 32 * w.val + b.val) :=
  ⟨cB [] xr, 5, 3, 31, 127, by decide +kernel⟩
theorem witness_can_controllers_4b : ∃ (s : State) (k : Fin 8) (w : Fin 4) (b : Fin 32) (n : Nat), (answers s ⟨.can, k.val⟩ = true) ∧ ((s.page (pk .can k.val)).key ≠ .window) ∧ ((s.page (pk .can k.val)).locked = false) ∧ (n = 32 * w.val + b.val) :=
  ⟨cB [(Reg.CAN.OBJ_CFG + 4, 1), (Reg.CAN.TX_PEND, 2)] xr, 5, 0, 1, 1, by decide +kernel⟩
def c5 : State := { cB [(Reg.CAN.OBJ_CFG + 4, 1), (Reg.CAN.MAP + 12, ofN (65536 + 60 * 67108864 + 12))] xr with sigs := [(12, ⟨0x30000000, 0x201, 0, 0⟩)], slots := [(12, { Slot.reset with value := 0xFFFFFFFF87654321 })] }
theorem witness_can_controllers_5 : ∃ (s : State) (k : Fin 8) (w : Fin 4) (b : Fin 32) (i : Fin 64) (n : Nat) (id : Nat), (answers s ⟨.can, k.val⟩ = true) ∧ ((s.page (pk .can k.val)).key ≠ .window) ∧ ((s.page (pk .can k.val)).locked = false) ∧ (n = 32 * w.val + b.val) ∧ (fld (objCfg s k.val n) 0 2 = 1) ∧ (objBit s k.val Reg.CAN.TX_PEND n = false) ∧ (fld (canMap s k.val i.val) 16 7 = n) ∧ (id = fld (canMap s k.val i.val) 0 16) ∧ (id ≠ 0) ∧ ((sigEnt s id).typ = 1) ∧ (fld (canMap s k.val i.val) 26 6 ≤ 60) ∧ (∀ j : Fin 64, j ≠ i → fld (canMap s k.val j.val) 16 7 ≠ n) :=
  ⟨c5, 5, 0, 1, 3, 1, 12, by decide +kernel⟩
def c6 : State := cB [(Reg.CAN.OBJ_CFG + 4, 0xE600A401), (Reg.CAN.OBJ_CFG + 8, 0x90000001), (Reg.CAN.FILT_ID + 4, 0x120), (Reg.CAN.FILT_ID + 8, 0x121), (Reg.CAN.TX_PEND, 6)] { xr with objs := [(1, { CanObj.reset with arb := 5, data := List.range 64 })] }
theorem witness_can_controllers_6 : ∃ (s : State) (k : Fin 8) (w : Fin 4) (b : Fin 32) (n : Nat), (answers s ⟨.can, k.val⟩ = true) ∧ ((s.page (pk .can k.val)).key ≠ .window) ∧ ((s.page (pk .can k.val)).locked = false) ∧ (n = 32 * w.val + b.val) ∧ (objBit s k.val Reg.CAN.TX_PEND n = true) ∧ ((canObj s k.val n).again = false) :=
  ⟨c6, 5, 0, 2, 2, by decide +kernel⟩
theorem witness_can_controllers_6b : ∃ (s : State) (k : Fin 8) (w : Fin 4) (b : Fin 32) (n : Nat), (answers s ⟨.can, k.val⟩ = true) ∧ ((s.page (pk .can k.val)).key ≠ .window) ∧ ((s.page (pk .can k.val)).locked = false) ∧ (n = 32 * w.val + b.val) ∧ (objBit s k.val Reg.CAN.TX_PEND n = true) ∧ ((canObj s k.val n).again = false) :=
  ⟨c6, 5, 0, 2, 2, by decide +kernel⟩
theorem witness_can_controllers_7 : ∃ (s : State) (k : Fin 8) (tsof : Nat) (n : Nat) (m : Nat), (canSends s k.val = true) ∧ (rf s .can k.val Reg.CAN.CFG 0 2 = 0) ∧ (n < 128) ∧ (m < 128) ∧ (rb s .can k.val Reg.CAN.CFG 2 = false) ∧ (∀ i : Fin 128, objBit s k.val Reg.CAN.TX_PEND i.val = decide (i.val = n ∨ i.val = m)) ∧ ((canObj s k.val n).reqAt ≤ s.lap tsof) ∧ (n = m ∨ (rb s .can k.val (Reg.CAN.FILT_ID + 4 * n) 29 = false ∧ rb s .can k.val (Reg.CAN.FILT_ID + 4 * m) 29 = false ∧ rf s .can k.val (Reg.CAN.FILT_ID + 4 * n) 0 11 < rf s .can k.val (Reg.CAN.FILT_ID + 4 * m) 0 11)) ∧ ((canObj s k.val n).again = false) ∧ ((canOf s k.val).txErr = 0) :=
  ⟨c6, 5, 89990000, 1, 2, by decide +kernel⟩
theorem witness_can_controllers_7b : ∃ (s : State) (k : Fin 8) (tsof : Nat) (n : Nat) (m : Nat), (canSends s k.val = true) ∧ (rf s .can k.val Reg.CAN.CFG 0 2 = 0) ∧ (n < 128) ∧ (m < 128) ∧ (rb s .can k.val Reg.CAN.CFG 2 = false) ∧ (∀ i : Fin 128, objBit s k.val Reg.CAN.TX_PEND i.val = decide (i.val = n ∨ i.val = m)) ∧ ((canObj s k.val n).reqAt ≤ s.lap tsof) ∧ (n = m ∨ (rb s .can k.val (Reg.CAN.FILT_ID + 4 * n) 29 = false ∧ rb s .can k.val (Reg.CAN.FILT_ID + 4 * m) 29 = false ∧ rf s .can k.val (Reg.CAN.FILT_ID + 4 * n) 0 11 < rf s .can k.val (Reg.CAN.FILT_ID + 4 * m) 0 11)) ∧ ((canObj s k.val n).again = false) ∧ ((canOf s k.val).txErr = 0) :=
  ⟨regs c6 .can 5 [(Reg.CAN.TX_PEND, 4), (Reg.CAN.TIMEREF, 0x201)], 5, 89990000, 2, 2, by decide +kernel⟩
theorem witness_can_controllers_8 : ∃ (s : State) (k : Fin 8) (tsof : Nat) (n : Nat), (canSends s k.val = true) ∧ (canChosen s k.val tsof = some n) ∧ ((canObj s k.val n).cancel = false) ∧ ((canObj s k.val n).again = false) :=
  ⟨c6, 5, 89990000, 1, by decide +kernel⟩
theorem witness_can_controllers_8b : ∃ (s : State) (k : Fin 8) (tsof : Nat) (n : Nat), (canSends s k.val = true) ∧ (canChosen s k.val tsof = some n) ∧ ((canObj s k.val n).cancel = false) ∧ ((canObj s k.val n).again = false) :=
  ⟨regs c6 .can 5 [(Reg.CAN.RETRY, 6)], 5, 89990000, 1, by decide +kernel⟩
theorem witness_can_controllers_9 : ∃ (s : State) (k : Fin 8), (canLive s k.val = true) :=
  ⟨cB [] { xr with rxErr := 95 }, 5, by decide +kernel⟩
theorem witness_can_controllers_9b : ∃ (s : State) (k : Fin 8), (canLive s k.val = true) :=
  ⟨cB [] { xr with rxErr := 127 }, 5, by decide +kernel⟩
theorem witness_can_controllers_10 : ∃ (s : State) (k : Fin 8) (inc : Fin 9) (tsof : Nat), (canLive s k.val = true) ∧ (canChosen s k.val tsof = none) ∧ (255 < (canOf s k.val).txErr + inc.val) ∧ (RaiseLogs s 0x20 .can k.val 0) :=
  ⟨cB [] { xr with txErr := 248 }, 5, 8, 89990000, by unfold RaiseLogs; decide +kernel⟩
theorem witness_can_controllers_11 : ∃ (s : State) (k : Fin 8) (w : Fin 4) (b : Fin 32) (n : Nat), (answers s ⟨.can, k.val⟩ = true) ∧ ((s.page (pk .can k.val)).key ≠ .window) ∧ ((s.page (pk .can k.val)).locked = false) ∧ (n = 32 * w.val + b.val) :=
  ⟨cB [(Reg.CAN.RX_FULL + 12, 0x80000001)] xr, 5, 3, 31, 127, by decide +kernel⟩
theorem witness_can_controllers_11b : ∃ (s : State) (k : Fin 8) (w : Fin 4) (b : Fin 32) (n : Nat), (answers s ⟨.can, k.val⟩ = true) ∧ ((s.page (pk .can k.val)).key ≠ .window) ∧ ((s.page (pk .can k.val)).locked = false) ∧ (n = 32 * w.val + b.val) :=
  ⟨cB [(Reg.CAN.RX_FULL + 12, 0x80000001)] xr, 5, 3, 31, 127, by decide +kernel⟩
theorem witness_can_controllers_12 : ∃ (s : State) (k : Fin 8), (answers s ⟨.can, k.val⟩ = true) ∧ ((s.page (pk .can k.val)).key ≠ .window) ∧ ((s.page (pk .can k.val)).locked = false) :=
  ⟨cB [] xr, 5, by decide +kernel⟩
theorem witness_can_controllers_13 : ∃ (s : State) (k : Fin 8) (o : CanObj), (powered s .can k.val = true) ∧ (o = canObj s k.val (rf s .can k.val Reg.CAN.OBJ_IDX 0 7)) :=
  ⟨cB [(Reg.CAN.OBJ_IDX, 1)] { xr with objs := [(1, { CanObj.reset with ts := 0x7FFFFFFFF, hdr := 5, info := 6, data := [1, 2, 3, 4, 5] })] }, 5, { CanObj.reset with ts := 0x7FFFFFFFF, hdr := 5, info := 6, data := [1, 2, 3, 4, 5] }, by decide +kernel⟩
theorem witness_can_controllers_14 : ∃ (s : State) (k : Fin 8) (n : Fin 128) (t : Nat), (inSt s .can k.val [.run, .safe] = true) ∧ (fld (objCfg s k.val n.val) 0 2 = 1) ∧ (fld (objCfg s k.val n.val) 12 12 ≠ 0) ∧ (t % (8000000 * fld (objCfg s k.val n.val) 12 12) = 0) :=
  ⟨c6, 5, 1, 80000000, by decide +kernel⟩
theorem witness_can_controllers_14b : ∃ (s : State) (k : Fin 8) (n : Fin 128) (t : Nat), (inSt s .can k.val [.run, .safe] = true) ∧ (fld (objCfg s k.val n.val) 0 2 = 1) ∧ (fld (objCfg s k.val n.val) 12 12 ≠ 0) ∧ (t % (8000000 * fld (objCfg s k.val n.val) 12 12) = 0) :=
  ⟨wr c6 .can 5 Reg.CAN.TX_PEND 0, 5, 1, 80000000, by decide +kernel⟩
def c15 : State := { wr c3 .can 5 (Reg.CAN.OBJ_CFG + 4 * 120) 0x1446 with cans := [(5, { xr with seen := [(120, 5)] })] }
theorem witness_can_controllers_15 : ∃ (s : State) (k : Fin 8) (h : Fin 128) (t : Nat) (id : Nat) (e : SigEntry), (inSt s .can k.val [.run, .safe] = true) ∧ (cfgHead (objCfg s k.val h.val) = true) ∧ (fld (objCfg s k.val h.val) 12 12 ≠ 0) ∧ (objBit s k.val Reg.CAN.RX_STALE h.val = false) ∧ (SMap.get (fun _ => 0) (canOf s k.val).seen h.val + 8000000 * fld (objCfg s k.val h.val) 12 12 ≤ (s.at t).lap t) ∧ (s.sigs = [(id, e)]) ∧ (e.en = true) ∧ (e.from .can k.val = true) ∧ (e.word < 64) ∧ (headOf s k.val (fld (canMap s k.val e.word) 16 7) = some h.val) :=
  ⟨c15, 5, 120, 90000005, 11, ce, by decide +kernel⟩
theorem witness_can_controllers_16 : ∃ (s : State) (k : Fin 8) (t : Nat) (n : Nat), (stOf s .can k.val = .run) ∧ (rb s .can k.val Reg.CAN.TIMEREF 0 = true) ∧ (n = rf s .can k.val Reg.CAN.TIMEREF 8 7) ∧ (t % (8000 * (rg s .can k.val Reg.CAN.REF_PERIOD).toNat) = 0) :=
  ⟨regs c6 .can 5 [(Reg.CAN.TIMEREF, 0x201), (Reg.CAN.REF_PERIOD, 100)], 5, 80000000, 2, by decide +kernel⟩
theorem witness_can_controllers_16b : ∃ (s : State) (k : Fin 8) (t : Nat) (n : Nat), (stOf s .can k.val = .run) ∧ (rb s .can k.val Reg.CAN.TIMEREF 0 = true) ∧ (n = rf s .can k.val Reg.CAN.TIMEREF 8 7) ∧ (t % (8000 * (rg s .can k.val Reg.CAN.REF_PERIOD).toNat) = 0) :=
  ⟨regs c6 .can 5 [(Reg.CAN.TIMEREF, 0x201), (Reg.CAN.REF_PERIOD, 100)], 5, 80000000, 2, by decide +kernel⟩
theorem witness_can_controllers_17 : ∃ (s : State) (k : Fin 8) (chk : BitVec 16), (ActsNow s .can k.val 0x10 .ap0 chk) :=
  ⟨pin (wr (cB [] xr) .can 5 Reg.CAN.ECR 0x20000) .can 5 .fault, 5, 0xFFEF, actsNow_of (by decide +kernel)⟩
theorem witness_can_controllers_18 : ∃ (s : State) (k : Fin 8), (stOf s .can k.val = .fault) ∧ ((s.page (pk .can k.val)).busy = true) :=
  ⟨mod (pin (wr (cB [] { xr with txErr := 256, rxErr := 9 }) .can 5 Reg.CAN.ECR 0x209FF) .can 5 .fault) .can 5 (fun p => { p with busy := true }), 5, by decide +kernel⟩
theorem witness_can_controllers_19 : ∃ (s : State) (k : Fin 8), (inSt s .can k.val [.run, .safe] = true) :=
  ⟨wr (cB [] xr) .can 5 Reg.CAN.STAT 1, 5, by decide +kernel⟩
end Sys2Proof.Tests.W20
namespace Sys2Proof.Tests.W21
def e21 (w k : Nat) : SigEntry := ⟨ofN (PgTy.dio.code * 16777216 + w / 4 * 64 + k), 0x203 + 16 * ofN UpdEv.frame.num, 1, 0⟩
def d21 : DioSt := { DioSt.reset with drive := true, power := true, acc := 0x80018002, off := 0x80F1, die0 := ⟨2, 5, false, 0x35, 0x81, 100⟩, die1 := ⟨3, 5, false, 0x75, 0x81, 100⟩ }
def b21 (x : PgState) (l : List (Nat × Word)) (d : DioSt) : State := { regs (pin (pin (pin (warnAll up) .dio 0 x) .sig 0 .run) .recStore 0 .run) .dio 0 ([(Reg.DIO.CFG, 0x1000500), (Reg.DIO.SAFE_VAL, 0xA5C3), (Reg.DIO.OUT_VAL, 0x8F01), (Reg.DIO.OUT_SRC + 8, 0xC0001), (Reg.DIO.IN_CFG + 60, 9), (Reg.DIO.IN_CFG + 4, 0xD), (Reg.DIO.OUT_CMD, 0xFFFF)] ++ l) with dio := d }
theorem witness_field_io_1 : ∃ (s : State) (t : Nat), (refreshAt (s.at t) t = true) ∧ (dioLegacy s = false) ∧ (PageIdle s (pk .dio 0)) ∧ (s.dio.power = true) ∧ (s.dio.die0.overdue ((s.at t).lap t) = false) ∧ (s.dio.die1.overdue ((s.at t).lap t) = false) ∧ (s.dio.die0.held = false) ∧ (s.dio.die1.held = false) ∧ (s.sigs = []) ∧ (s.holds = []) ∧ (s.dio.rb = []) ∧ (rg s .dio 0 Reg.DIO.PAR = 0) :=
  ⟨b21 .run [(Reg.DIO.DIAG_OL_SH, 0xFFFFFFFF)] d21, 90000000, by unfold PageIdle; decide +kernel⟩
theorem witness_field_io_1b : ∃ (s : State) (t : Nat), (refreshAt (s.at t) t = true) ∧ (dioLegacy s = false) ∧ (PageIdle s (pk .dio 0)) ∧ (s.dio.power = true) ∧ (s.dio.die0.overdue ((s.at t).lap t) = false) ∧ (s.dio.die1.overdue ((s.at t).lap t) = false) ∧ (s.dio.die0.held = false) ∧ (s.dio.die1.held = false) ∧ (s.sigs = []) ∧ (s.holds = []) ∧ (s.dio.rb = []) ∧ (rg s .dio 0 Reg.DIO.PAR = 0) :=
  ⟨b21 .off [(Reg.DIO.DIAG_OL_SH, 0xFFFFFFFF)] { d21 with clear := true }, 90000000, by unfold PageIdle; decide +kernel⟩
def g21 : State := { b21 .run [] d21 with sigs := [(12, ⟨0x30000000, 0x203, 0, 0⟩)], slots := [(12, { Slot.reset with value := 1 })] }
theorem witness_field_io_2 : ∃ (s : State) (t : Nat), (refreshAt (s.at t) t = true) ∧ (dioLegacy s = false) ∧ (PageIdle s (pk .dio 0)) ∧ (s.holds = []) ∧ (stOf s .dio 0 ≠ .off) ∧ (s.dio.power = true) ∧ (rb s .dio 0 Reg.DIO.STAT 0 = true → s.dio.die0.miss < 2) ∧ (rb s .dio 0 Reg.DIO.STAT 1 = true → s.dio.die1.miss < 2) :=
  ⟨b21 .fault [] d21, 90000000, by unfold PageIdle; decide +kernel⟩
theorem witness_field_io_2b : ∃ (s : State) (t : Nat), (refreshAt (s.at t) t = true) ∧ (dioLegacy s = false) ∧ (PageIdle s (pk .dio 0)) ∧ (s.holds = []) ∧ (stOf s .dio 0 ≠ .off) ∧ (s.dio.power = true) ∧ (rb s .dio 0 Reg.DIO.STAT 0 = true → s.dio.die0.miss < 2) ∧ (rb s .dio 0 Reg.DIO.STAT 1 = true → s.dio.die1.miss < 2) :=
  ⟨b21 .run [(Reg.DIO.FRAME_ERR, 0xFFFFFFFF)] d21, 90000000, by unfold PageIdle; decide +kernel⟩
def h21 : DioSt := { d21 with die0 := { d21.die0 with held := true } }
theorem witness_field_io_3 : ∃ (s : State) (t : Nat), (refreshAt (s.at t) t = true) ∧ (dioLegacy s = false) ∧ (PageIdle s (pk .dio 0)) ∧ (s.dio.power = true) ∧ (s.dio.die1.overdue ((s.at t).lap t) = false) ∧ (s.dio.die0.held = true) ∧ (s.dio.release = false) ∧ (rb s .dio 0 Reg.DIO.STAT 4 = false) ∧ (s.dio.die1.held = false) ∧ (s.sigs = []) ∧ (s.dio.rb = []) ∧ (inSt s .dio 0 [.off, .idle, .run] = true) ∧ (RaiseLogs s 0x21 .dio 0 0) :=
  ⟨b21 .run [] h21, 90000000, by unfold PageIdle RaiseLogs; decide +kernel⟩
theorem witness_field_io_4 : ∃ (s : State) (t : Nat) (id : Nat) (k : Nat) (e : SigEntry), (refreshAt (s.at t) t = true) ∧ (dioLegacy s = false) ∧ (PageIdle s (pk .dio 0)) ∧ (s.dio.power = true) ∧ (s.dio.die0.overdue ((s.at t).lap t) = false) ∧ (s.dio.die1.overdue ((s.at t).lap t) = false) ∧ (s.dio.die0.held = false) ∧ (s.dio.die1.held = false) ∧ (s.dio.rb = []) ∧ (s.holds = []) ∧ (s.sigs = [(id, e)]) ∧ (id ≠ 0) ∧ (e.en = true) ∧ (sigRun s = true) ∧ (e.from .dio 0 = true) ∧ (e.upd = UpdEv.frame.num) ∧ (e.typ = 3) ∧ (e.word = Reg.DIO.IN_STATE / 4) ∧ (e.lsb = k) ∧ (k < 32) :=
  ⟨{ b21 .run [] d21 with sigs := [(12, e21 Reg.DIO.IN_STATE 31)] }, 90000000, 12, 31, e21 Reg.DIO.IN_STATE 31, by unfold PageIdle; decide +kernel⟩
theorem witness_field_io_4b : ∃ (s : State) (t : Nat) (id : Nat) (k : Nat) (e : SigEntry), (refreshAt (s.at t) t = true) ∧ (dioLegacy s = false) ∧ (PageIdle s (pk .dio 0)) ∧ (s.dio.power = true) ∧ (s.dio.die0.overdue ((s.at t).lap t) = false) ∧ (s.dio.die1.overdue ((s.at t).lap t) = false) ∧ (s.dio.die0.held = false) ∧ (s.dio.die1.held = false) ∧ (s.dio.rb = []) ∧ (s.holds = []) ∧ (s.sigs = [(id, e)]) ∧ (id ≠ 0) ∧ (e.en = true) ∧ (sigRun s = true) ∧ (e.from .dio 0 = true) ∧ (e.upd = UpdEv.frame.num) ∧ (e.typ = 3) ∧ (e.word = Reg.DIO.IN_STATE / 4) ∧ (e.lsb = k) ∧ (k < 32) :=
  ⟨{ b21 .run [(Reg.DIO.IN_WB, 2)] d21 with sigs := [(12, e21 Reg.DIO.IN_STATE 1)] }, 90000000, 12, 1, e21 Reg.DIO.IN_STATE 1, by unfold PageIdle; decide +kernel⟩
theorem witness_field_io_5 : ∃ (s : State) (d : Fin 2) (t : Nat) (id : Nat) (e : SigEntry), (dioOn s = true) ∧ (dioLegacy s = false) ∧ (s.sigs = [(id, e)]) ∧ (e.en = true) ∧ (e.from .dio 0 = true) ∧ (e.word = Reg.DIO.IN_STATE / 4) ∧ (e.lsb / 16 = d.val) ∧ (RaiseLogs s 0x21 .dio 0 0) ∧ ((rb s .dio 0 Reg.DIO.STAT d.val = true ∧ 3 ≤ (s.dio.die d.val).miss) ∨ (rb s .dio 0 Reg.DIO.STAT d.val = false ∧ stOf s .dio 0 = .off ∧ s.dio.enAt + 160000000 ≤ (s.at t).lap t)) :=
  ⟨{ b21 .run [(Reg.DIO.STAT, 3)] d21 with sigs := [(12, e21 Reg.DIO.IN_STATE 31)] }, 1, 90000000, 12, e21 Reg.DIO.IN_STATE 31, by unfold RaiseLogs; decide +kernel⟩
theorem witness_field_io_5b : ∃ (s : State) (d : Fin 2) (t : Nat) (id : Nat) (e : SigEntry), (dioOn s = true) ∧ (dioLegacy s = false) ∧ (s.sigs = [(id, e)]) ∧ (e.en = true) ∧ (e.from .dio 0 = true) ∧ (e.word = Reg.DIO.IN_STATE / 4) ∧ (e.lsb / 16 = d.val) ∧ (RaiseLogs s 0x21 .dio 0 0) ∧ ((rb s .dio 0 Reg.DIO.STAT d.val = true ∧ 3 ≤ (s.dio.die d.val).miss) ∨ (rb s .dio 0 Reg.DIO.STAT d.val = false ∧ stOf s .dio 0 = .off ∧ s.dio.enAt + 160000000 ≤ (s.at t).lap t)) :=
  ⟨{ b21 .off [] d21 with sigs := [(12, e21 Reg.DIO.IN_STATE 15)] }, 0, 160000000, 12, e21 Reg.DIO.IN_STATE 15, by unfold RaiseLogs; decide +kernel⟩
theorem witness_field_io_6 : ∃ (s : State), (dioOn s = true) ∧ (s.dio.power = true) :=
  ⟨b21 .run [] d21, by decide +kernel⟩
theorem witness_field_io_6b : ∃ (s : State), (dioOn s = true) ∧ (s.dio.power = true) :=
  ⟨b21 .off [] d21, by decide +kernel⟩
theorem witness_field_io_7 : ∃ (s : State) (i : Fin 32) (id : Nat) (e : SigEntry), (dieReports s = true) ∧ (rb s .dio 0 (Reg.DIO.IN_CFG + 4 * i.val) 2 = true) ∧ (rb s .dio 0 Reg.DIO.IN_WB i.val = false) ∧ (s.sigs = [(id, e)]) ∧ (e.en = true) ∧ (e.from .dio 0 = true) ∧ (e.word = Reg.DIO.IN_STATE / 4) ∧ (RaiseLogs s 0x21 .dio 0 0) :=
  ⟨{ b21 .run [(Reg.DIO.IN_CFG + 124, 5)] d21 with sigs := [(12, e21 Reg.DIO.IN_STATE 31)] }, 31, 12, e21 Reg.DIO.IN_STATE 31, by unfold RaiseLogs; decide +kernel⟩
theorem witness_field_io_7b : ∃ (s : State) (i : Fin 32) (id : Nat) (e : SigEntry), (dieReports s = true) ∧ (rb s .dio 0 (Reg.DIO.IN_CFG + 4 * i.val) 2 = true) ∧ (rb s .dio 0 Reg.DIO.IN_WB i.val = false) ∧ (s.sigs = [(id, e)]) ∧ (e.en = true) ∧ (e.from .dio 0 = true) ∧ (e.word = Reg.DIO.IN_STATE / 4) ∧ (RaiseLogs s 0x21 .dio 0 0) :=
  ⟨{ b21 .run [(Reg.DIO.IN_CFG + 124, 5)] d21 with sigs := [(12, e21 Reg.DIO.IN_STATE 30)] }, 31, 12, e21 Reg.DIO.IN_STATE 30, by unfold RaiseLogs; decide +kernel⟩
def k21 (l : List (Nat × Word)) : State := { b21 .run l d21 with holds := [⟨0x21, PgTy.dio.code, 0, 0, 1⟩, ⟨0x20, PgTy.can.code, 0, 0, 1⟩] }
theorem witness_field_io_8 : ∃ (s : State) (i : Fin 32), (dieReports s = true) ∧ (rb s .dio 0 Reg.DIO.IN_WB i.val = true) :=
  ⟨k21 [(Reg.DIO.IN_WB, 0x80000000)], 31, by decide +kernel⟩
theorem witness_field_io_8b : ∃ (s : State) (i : Fin 32), (dieReports s = true) ∧ (rb s .dio 0 Reg.DIO.IN_WB i.val = true) :=
  ⟨k21 [(Reg.DIO.IN_WB, 0x80000001)], 31, by decide +kernel⟩
theorem witness_field_io_9 : ∃ (s : State) (o : Fin 16) (kind : Fin 4) (p : Nat) (r : Nat) (b : Nat), (dieReports s = true) ∧ (RaiseLogs s 0x21 .dio 0 0) ∧ (p = rf s .dio 0 Reg.DIO.PAR (2 * (o.val / 4)) 2) ∧ (r = (if kind.val < 2 then Reg.DIO.DIAG_OC_OT else Reg.DIO.DIAG_OL_SH)) ∧ (kind.val = 2 → rb s .dio 0 Reg.DIO.OUT_CMD o.val = true) ∧ (kind.val = 3 → rb s .dio 0 Reg.DIO.OUT_CMD o.val = false) ∧ (b = (if kind.val % 2 = 0 then o.val else 16 + o.val)) :=
  ⟨b21 .run [(Reg.DIO.PAR, 0x80)] d21, 15, 0, 2, Reg.DIO.DIAG_OC_OT, 15, by unfold RaiseLogs; decide +kernel⟩
theorem witness_field_io_9b : ∃ (s : State) (o : Fin 16) (kind : Fin 4) (p : Nat) (r : Nat) (b : Nat), (dieReports s = true) ∧ (RaiseLogs s 0x21 .dio 0 0) ∧ (p = rf s .dio 0 Reg.DIO.PAR (2 * (o.val / 4)) 2) ∧ (r = (if kind.val < 2 then Reg.DIO.DIAG_OC_OT else Reg.DIO.DIAG_OL_SH)) ∧ (kind.val = 2 → rb s .dio 0 Reg.DIO.OUT_CMD o.val = true) ∧ (kind.val = 3 → rb s .dio 0 Reg.DIO.OUT_CMD o.val = false) ∧ (b = (if kind.val % 2 = 0 then o.val else 16 + o.val)) :=
  ⟨regs (b21 .run [(Reg.DIO.PAR, 0xC0)] d21) .dio 0 [(Reg.DIO.OUT_CMD, 0)], 12, 3, 3, Reg.DIO.DIAG_OL_SH, 28, by unfold RaiseLogs; decide +kernel⟩
theorem witness_field_io_10 : ∃ (s : State) (o : Fin 16) (p : Nat), (dieReports s = true) ∧ (rb s .dio 0 Reg.DIO.CFG 24 = true) ∧ (rb s .dio 0 Reg.DIO.DIAG_OC_OT o.val = true) ∧ (rb s .dio 0 Reg.DIO.OUT_CMD o.val = true) ∧ (p = rf s .dio 0 Reg.DIO.PAR (2 * (o.val / 4)) 2) :=
  ⟨k21 [(Reg.DIO.PAR, 0x80), (Reg.DIO.DIAG_OC_OT, 0x8000)], 15, 2, by decide +kernel⟩
theorem witness_field_io_10b : ∃ (s : State) (o : Fin 16) (p : Nat), (dieReports s = true) ∧ (rb s .dio 0 Reg.DIO.CFG 24 = true) ∧ (rb s .dio 0 Reg.DIO.DIAG_OC_OT o.val = true) ∧ (rb s .dio 0 Reg.DIO.OUT_CMD o.val = true) ∧ (p = rf s .dio 0 Reg.DIO.PAR (2 * (o.val / 4)) 2) :=
  ⟨k21 [(Reg.DIO.PAR, 0x1), (Reg.DIO.DIAG_OC_OT, 0x8001)], 0, 1, by decide +kernel⟩
theorem witness_field_io_11 : ∃ (s : State) (o : Fin 16) (p : Nat), (dieReports s = true) ∧ (rb s .dio 0 Reg.DIO.CFG 24 = true) ∧ (rb s .dio 0 Reg.DIO.DIAG_OC_OT (16 + o.val) = true) ∧ (p = rf s .dio 0 Reg.DIO.PAR (2 * (o.val / 4)) 2) :=
  ⟨k21 [(Reg.DIO.PAR, 0x80), (Reg.DIO.DIAG_OC_OT, 0x80000000)], 15, 2, by decide +kernel⟩
theorem witness_field_io_11b : ∃ (s : State) (o : Fin 16) (p : Nat), (dieReports s = true) ∧ (rb s .dio 0 Reg.DIO.CFG 24 = true) ∧ (rb s .dio 0 Reg.DIO.DIAG_OC_OT (16 + o.val) = true) ∧ (p = rf s .dio 0 Reg.DIO.PAR (2 * (o.val / 4)) 2) :=
  ⟨k21 [(Reg.DIO.PAR, 0x1), (Reg.DIO.DIAG_OC_OT, 0x10001)], 0, 1, by decide +kernel⟩
theorem witness_field_io_12 : ∃ (s : State) (chk : BitVec 16), (ActsNow s .dio 0 0x10 .ap0 chk) :=
  ⟨k21 [(Reg.DIO.DIAG_OC_OT, 0x80000000), (Reg.DIO.DIAG_RB, 5)], 0xFFEF, actsNow_of (by decide +kernel)⟩
theorem witness_field_io_12b : ∃ (s : State) (chk : BitVec 16), (ActsNow s .dio 0 0x10 .ap0 chk) :=
  ⟨{ k21 [(Reg.DIO.DIAG_OC_OT, 0x80000000), (Reg.DIO.IN_WB, 5)] with dio := { d21 with rb := [(3, 1)] } }, 0xFFEF, actsNow_of (by decide +kernel)⟩
theorem witness_field_io_13 : ∃ (s : State) (d : Fin 2) (t : Nat), (s.dio.power = true) ∧ ((s.dio.die d.val).frame + 8000000 * (s.dio.die d.val).safeT ≤ (s.at t).lap t) :=
  ⟨b21 .run [] d21, 1, 800000005, by decide +kernel⟩
theorem witness_field_io_13b : ∃ (s : State) (d : Fin 2) (t : Nat), (s.dio.power = true) ∧ ((s.dio.die d.val).frame + 8000000 * (s.dio.die d.val).safeT ≤ (s.at t).lap t) :=
  ⟨b21 .off [] d21, 0, 800000006, by decide +kernel⟩
theorem witness_field_io_14 : ∃ (s : State) (d : Fin 2), (dieReports s = true) ∧ (rb s .dio 0 Reg.DIO.STAT (2 + d.val) = false) ∧ (RaiseLogs s 0x21 .dio 0 0) :=
  ⟨b21 .run [] d21, 1, by unfold RaiseLogs; decide +kernel⟩
theorem witness_field_io_15 : ∃ (s : State) (d : Fin 2), (dieReports s = true) ∧ (rb s .dio 0 Reg.DIO.STAT (2 + d.val) = true) :=
  ⟨k21 [(Reg.DIO.STAT, 0xF)], 1, by decide +kernel⟩
theorem witness_field_io_15b : ∃ (s : State) (d : Fin 2), (dieReports s = true) ∧ (rb s .dio 0 Reg.DIO.STAT (2 + d.val) = true) :=
  ⟨{ k21 [(Reg.DIO.STAT, 0x7)] with dio := { d21 with off := 0 } }, 0, by decide +kernel⟩
end Sys2Proof.Tests.W21
namespace Sys2Proof.Tests.W22
def b22 (lc : Word) (l : List (Nat × Word)) : State := { regs (pin (pin (warnAll up) .sec 0 .run) .dbg 0 .run) .sec 0 ([(Reg.SEC.STAT, lc + 0x1300), (Reg.SEC.ROOT_STAT, 0x3000000)] ++ (List.range 4).map (fun i => (Reg.SEC.ID + 4 * i, 0x11111111 + ofN i)) ++ l) with otp := { State.reset.otp with lc := lc.toNat }, keys := [(3, ⟨1, true, [1, 2]⟩), (15, ⟨2, false, [3]⟩)], failAt := 7 }
def t22 (l : List (Nat × Word)) : List (Nat × Word) := [(Reg.SEC.TOKEN, 0x52544E01)] ++ (List.range 4).map (fun i => (Reg.SEC.TOKEN + 4 + 4 * i, 0x11111111 + ofN i)) ++ l
theorem witness_security_1 : ∃ (s : State) (m : Master) (chk : BitVec 16) (a : Nat) (b : Nat), (ActsNow s .sec 0 0x10 m chk) ∧ (a = lifeCycle s) ∧ (b = rf s .sec 0 Reg.SEC.TRANSITION 0 3) ∧ ((a = 2 ∧ b = 3) ∨ (b = 5 ∧ a ≠ 3)) :=
  ⟨{ b22 2 [(Reg.SEC.TRANSITION, 3)] with otp := { State.reset.otp with lc := 2, roots := [(1, [5])] } }, .ap0, 0xFFEF, 2, 3, actsNow_of (by decide +kernel), by decide +kernel⟩
theorem witness_security_1b : ∃ (s : State) (m : Master) (chk : BitVec 16) (a : Nat) (b : Nat), (ActsNow s .sec 0 0x10 m chk) ∧ (a = lifeCycle s) ∧ (b = rf s .sec 0 Reg.SEC.TRANSITION 0 3) ∧ ((a = 2 ∧ b = 3) ∨ (b = 5 ∧ a ≠ 3)) :=
  ⟨b22 4 [(Reg.SEC.TRANSITION, 5)], .pcieHost, 0xFFEF, 4, 5, actsNow_of (by decide +kernel), by decide +kernel⟩
theorem witness_security_2 : ∃ (s : State) (m : Master) (chk : BitVec 16), (ActsNow s .sec 0 0x10 m chk) ∧ (lifeCycle s = 2) ∧ (rf s .sec 0 Reg.SEC.TRANSITION 0 3 = 4) ∧ (s.otp.roots = []) ∧ (rg s .sec 0 Reg.SEC.TOKEN = 0x52544E01) ∧ (∀ i : Fin 4, rg s .sec 0 (Reg.SEC.TOKEN + 4 + 4 * i.val) = rg s .sec 0 (Reg.SEC.ID + 4 * i.val)) :=
  ⟨b22 2 (t22 [(Reg.SEC.TRANSITION, 4)]), .debugPort, 0xFFEF, actsNow_of (by decide +kernel), by decide +kernel⟩
theorem witness_security_3 : ∃ (s : State) (m : Master) (chk : BitVec 16) (b : Nat), (ActsNow s .sec 0 0x10 m chk) ∧ (b = rf s .sec 0 Reg.SEC.TRANSITION 0 3) ∧ (b = 4 ∨ (b = 5 ∧ lifeCycle s = 3)) ∧ ((∃ i : Fin 4, rg s .sec 0 (Reg.SEC.TOKEN + 4 + 4 * i.val) ≠ rg s .sec 0 (Reg.SEC.ID + 4 * i.val)) ∨ rg s .sec 0 Reg.SEC.TOKEN ≠ 0x52544E01 ∨ (lifeCycle s = 3 ∧ ∀ e ∈ s.otp.roots, s.otp.revoked.getLsbD e.1 = true)) :=
  ⟨b22 2 (t22 [(Reg.SEC.TRANSITION, 4), (Reg.SEC.ID + 12, 0)]), .debugPort, 0xFFEF, 4, actsNow_of (by decide +kernel), by decide +kernel⟩
theorem witness_security_3b : ∃ (s : State) (m : Master) (chk : BitVec 16) (b : Nat), (ActsNow s .sec 0 0x10 m chk) ∧ (b = rf s .sec 0 Reg.SEC.TRANSITION 0 3) ∧ (b = 4 ∨ (b = 5 ∧ lifeCycle s = 3)) ∧ ((∃ i : Fin 4, rg s .sec 0 (Reg.SEC.TOKEN + 4 + 4 * i.val) ≠ rg s .sec 0 (Reg.SEC.ID + 4 * i.val)) ∨ rg s .sec 0 Reg.SEC.TOKEN ≠ 0x52544E01 ∨ (lifeCycle s = 3 ∧ ∀ e ∈ s.otp.roots, s.otp.revoked.getLsbD e.1 = true)) :=
  ⟨{ b22 3 (t22 [(Reg.SEC.TRANSITION, 5)]) with otp := { State.reset.otp with lc := 3, roots := [(1, [5])], revoked := 2 } }, .ap1, 0xFFEF, 5, actsNow_of (by decide +kernel), by decide +kernel⟩
theorem witness_security_4 : ∃ (s : State) (m : Master) (chk : BitVec 16) (k : Nat), (ActsNow s .sec 0 0x11 m chk) ∧ (lifeCycle s = 2) ∧ (k = rf s .sec 0 Reg.SEC.KEY_IDX 0 4) :=
  ⟨b22 2 ([(Reg.SEC.KEY_IDX, 14), (Reg.SEC.KEY_ATTR, 0x11)] ++ (List.range 8).map (fun i => (Reg.SEC.KEY_DATA + 4 * i, 0x01020304 * ofN i))), .ap0, 0xFFEE, 14, actsNow_of (by decide +kernel), by decide +kernel⟩
theorem witness_security_4b : ∃ (s : State) (m : Master) (chk : BitVec 16) (k : Nat), (ActsNow s .sec 0 0x11 m chk) ∧ (lifeCycle s = 2) ∧ (k = rf s .sec 0 Reg.SEC.KEY_IDX 0 4) :=
  ⟨{ b22 2 ([(Reg.SEC.KEY_IDX, 15), (Reg.SEC.KEY_ATTR, 0x12)] ++ (List.range 8).map (fun i => (Reg.SEC.KEY_DATA + 4 * i, 0x01020304 * ofN i))) with keys := [] }, .ap0, 0xFFEE, 15, actsNow_of (by decide +kernel), by decide +kernel⟩
theorem witness_security_5 : ∃ (s : State) (m : Master) (chk : BitVec 16) (k : Nat), (ActsNow s .sec 0 0x12 m chk) ∧ (k = rf s .sec 0 Reg.SEC.KEY_IDX 0 4) :=
  ⟨b22 3 [(Reg.SEC.KEY_IDX, 3), (Reg.SEC.KEY_STAT, 0x88008)], .ap0, 0xFFED, 3, actsNow_of (by decide +kernel), by decide +kernel⟩
theorem witness_security_5b : ∃ (s : State) (m : Master) (chk : BitVec 16) (k : Nat), (ActsNow s .sec 0 0x12 m chk) ∧ (k = rf s .sec 0 Reg.SEC.KEY_IDX 0 4) :=
  ⟨b22 5 [(Reg.SEC.KEY_IDX, 4)], .ap0, 0xFFED, 4, actsNow_of (by decide +kernel), by decide +kernel⟩
theorem witness_security_6 : ∃ (s : State) (m : Master) (chk : BitVec 16), (ActsNow s .sec 0 0x13 m chk) :=
  ⟨b22 3 [(Reg.SEC.KEY_STAT, 0x88008)], .ap1, 0xFFEC, actsNow_of (by decide +kernel)⟩
theorem witness_security_7 : ∃ (s : State) (m : Master) (chk : BitVec 16) (k : Nat) (v : Nat), (ActsNow s .sec 0 0x14 m chk) ∧ (k = rf s .sec 0 Reg.SEC.KIND_SEL 0 8) ∧ (v = max (SMap.get (fun _ => 0) s.otp.minVer k) (SMap.get (fun _ => 0) s.runVer k)) :=
  ⟨{ b22 3 [(Reg.SEC.KIND_SEL, 7)] with runVer := [(1, 5), (7, 127)] }, .ap1, 0xFFEB, 7, 127, actsNow_of (by decide +kernel), by decide +kernel⟩
theorem witness_security_7b : ∃ (s : State) (m : Master) (chk : BitVec 16) (k : Nat) (v : Nat), (ActsNow s .sec 0 0x14 m chk) ∧ (k = rf s .sec 0 Reg.SEC.KIND_SEL 0 8) ∧ (v = max (SMap.get (fun _ => 0) s.otp.minVer k) (SMap.get (fun _ => 0) s.runVer k)) :=
  ⟨{ b22 3 [(Reg.SEC.KIND_SEL, 1)] with runVer := [(1, 5)], otp := { State.reset.otp with minVer := [(1, 6)] } }, .ap1, 0xFFEB, 1, 6, actsNow_of (by decide +kernel), by decide +kernel⟩
def r22 (n : Nat) (w : BitVec 4) : State := { b22 2 [(Reg.SEC.PROV_SEL, ofN n)] with otp := { State.reset.otp with roots := [(1, [5]), (3, [6])], revoked := w } }
theorem witness_security_8 : ∃ (s : State) (i : Fin 4), (rf s .sec 0 Reg.SEC.PROV_SEL 0 3 = i.val) :=
  ⟨r22 3 0, 3, by decide +kernel⟩
theorem witness_security_8b : ∃ (s : State) (i : Fin 4), (rf s .sec 0 Reg.SEC.PROV_SEL 0 3 = i.val) :=
  ⟨r22 3 2, 3, by decide +kernel⟩
theorem witness_security_9 : ∃ (s : State) (m : Master) (chk : BitVec 16) (k : List Nat) (l : Word), (ActsNow s .sec 0 0x16 m chk) ∧ (k = (SMap.get (fun _ => KeySlot.reset) s.keys (rf s .sec 0 Reg.SEC.KEY_IDX 0 4)).value) ∧ (l = rg s .sec 0 Reg.SEC.DERIVE_LABEL) :=
  ⟨b22 2 [(Reg.SEC.KEY_IDX, 15), (Reg.SEC.DERIVE_LABEL, 77)], .ap1, 0xFFE9, [3], 77, actsNow_of (by decide +kernel), by decide +kernel⟩
theorem witness_security_10 : ∃ (s : State) (m : Master) (chk : BitVec 16) (i : Nat) (h : List Nat), (ActsNow s .sec 0 0x17 m chk) ∧ (i = rf s .sec 0 Reg.SEC.PROV_SEL 0 3) ∧ (h = (List.range 12).flatMap (fun j => wordBytes (rg s .sec 0 (Reg.SEC.TOKEN + 4 * j)))) :=
  ⟨regs (r22 2 2) .sec 0 [(Reg.SEC.TOKEN + 44, 0x05060708)], .ap1, 0xFFE8, 2, (List.replicate 44 0) ++ [8, 7, 6, 5], actsNow_of (by decide +kernel), by decide +kernel⟩
theorem witness_security_10b : ∃ (s : State) (m : Master) (chk : BitVec 16) (i : Nat) (h : List Nat), (ActsNow s .sec 0 0x17 m chk) ∧ (i = rf s .sec 0 Reg.SEC.PROV_SEL 0 3) ∧ (h = (List.range 12).flatMap (fun j => wordBytes (rg s .sec 0 (Reg.SEC.TOKEN + 4 * j)))) :=
  ⟨regs (r22 4 2) .sec 0 [(Reg.SEC.TOKEN + 44, 0x05060708)], .ap1, 0xFFE8, 4, (List.replicate 44 0) ++ [8, 7, 6, 5], actsNow_of (by decide +kernel), by decide +kernel⟩
theorem witness_security_11 : ∃ (s : State) (m : Master) (chk : BitVec 16), (ActsNow s .dbg 0 0x10 m chk) :=
  ⟨b22 3 [], .debugPort, 0xFFEF, actsNow_of (by decide +kernel)⟩
theorem witness_security_12 : ∃ (s : State) (chk : BitVec 16) (n : Nat), (answers s ⟨.dbg, 0⟩ = true) ∧ ((s.page (pk .dbg 0)).key ≠ .window) ∧ (chk = 0xFFEF) ∧ ((s.page (pk .dbg 0)).locked = false) ∧ ((s.page (pk .dbg 0)).cmd = none) ∧ (n = rf s .dbg 0 Reg.DBG.STAT 16 8) ∧ (n ≠ 0) ∧ (s.lap s.now < s.failAt + 8000000000 * min 1024 (2 ^ (n - 1))) :=
  ⟨{ wr (b22 3 []) .dbg 0 Reg.DBG.STAT 0x20000 with failAt := 89000000 }, 0xFFEF, 2, by decide +kernel⟩
theorem witness_security_12b : ∃ (s : State) (chk : BitVec 16) (n : Nat), (answers s ⟨.dbg, 0⟩ = true) ∧ ((s.page (pk .dbg 0)).key ≠ .window) ∧ (chk = 0xFFEF) ∧ ((s.page (pk .dbg 0)).locked = false) ∧ ((s.page (pk .dbg 0)).cmd = none) ∧ (n = rf s .dbg 0 Reg.DBG.STAT 16 8) ∧ (n ≠ 0) ∧ (s.lap s.now < s.failAt + 8000000000 * min 1024 (2 ^ (n - 1))) :=
  ⟨{ wr (b22 3 []) .dbg 0 Reg.DBG.STAT 0xFF0000 with failAt := -8100000000000 }, 0xFFEF, 255, by decide +kernel⟩
theorem witness_security_13 : ∃ (s : State) (m : Master) (chk : BitVec 16), (ActsNow s .dbg 0 0x11 m chk) :=
  ⟨regs (b22 3 []) .dbg 0 [(Reg.DBG.STAT, 0xFF0321), (Reg.DBG.CHALLENGE, 7), (Reg.DBG.CHALLENGE + 28, 7)], .debugPort, 0xFFEE, actsNow_of (by decide +kernel)⟩
theorem witness_security_14 : ∃ (s : State) (m : Master) (chk : BitVec 16), (ActsNow s .dbg 0 0x12 m chk) :=
  ⟨regs (b22 3 []) .dbg 0 [(Reg.DBG.STAT, 0xFF033F), (Reg.DBG.CHALLENGE, 7), (Reg.DBG.CHALLENGE + 28, 7)], .debugPort, 0xFFED, actsNow_of (by decide +kernel)⟩
def a22 (c : Word) : State := { regs (b22 3 [(Reg.SEC.KEY_STAT, 0x88008)]) .tamp 0 [(Reg.TAMP.CFG, c), (Reg.TAMP.STAT, 0x300)] with tampLog := (List.range 16).map (fun i => ⟨i % 5, 1, i⟩), vbatBase := 1000 }
theorem witness_security_15 : ∃ (s : State) (i : Fin 5), (RaiseLogs s 0x22 .tamp 0 0) ∧ (rf s .tamp 0 Reg.TAMP.CFG (2 * i.val) 2 = 1) :=
  ⟨a22 0x155, 4, by unfold RaiseLogs; decide +kernel⟩
theorem witness_security_15b : ∃ (s : State) (i : Fin 5), (RaiseLogs s 0x22 .tamp 0 0) ∧ (rf s .tamp 0 Reg.TAMP.CFG (2 * i.val) 2 = 1) :=
  ⟨{ a22 0x155 with tampLog := [] }, 0, by unfold RaiseLogs; decide +kernel⟩
theorem witness_security_16 : ∃ (s : State) (i : Fin 5), (rf s .tamp 0 Reg.TAMP.CFG (2 * i.val) 2 = 3) ∧ (RaiseLogs s 0x22 .tamp 0 0) :=
  ⟨wr (a22 0x3FF) .dbg 0 Reg.DBG.STAT 0x33F, 4, by unfold RaiseLogs; decide +kernel⟩
theorem witness_security_16b : ∃ (s : State) (i : Fin 5), (rf s .tamp 0 Reg.TAMP.CFG (2 * i.val) 2 = 3) ∧ (RaiseLogs s 0x22 .tamp 0 0) :=
  ⟨{ wr (a22 0x3FF) .dbg 0 Reg.DBG.STAT 0x33F with jtag := .extest }, 0, by unfold RaiseLogs; decide +kernel⟩
theorem witness_security_17 : ∃ (s : State) (i : Fin 5), (rf s .tamp 0 Reg.TAMP.CFG (2 * i.val) 2 = 3) ∧ (3 ≤ i.val) :=
  ⟨a22 0x3FF, 3, by decide +kernel⟩
theorem witness_security_18 : ∃ (s : State) (i : Fin 5) (vbat : Bool), (rf s .tamp 0 Reg.TAMP.CFG (2 * i.val) 2 = 0 ∨ (vbat = true ∧ i.val < 3)) :=
  ⟨a22 0x0FF, 4, true, by decide +kernel⟩
theorem witness_security_18b : ∃ (s : State) (i : Fin 5) (vbat : Bool), (rf s .tamp 0 Reg.TAMP.CFG (2 * i.val) 2 = 0 ∨ (vbat = true ∧ i.val < 3)) :=
  ⟨a22 0x0FF, 2, true, by decide +kernel⟩
theorem witness_security_19 : ∃ (s : State), (s.jtag ≠ .extest) ∧ (s.jtag ≠ .clamp) ∧ (s.jtag ≠ .intest) :=
  ⟨b22 2 [], by decide +kernel⟩
theorem witness_security_19b : ∃ (s : State), (s.jtag ≠ .extest) ∧ (s.jtag ≠ .clamp) ∧ (s.jtag ≠ .intest) :=
  ⟨b22 5 [], by decide +kernel⟩
end Sys2Proof.Tests.W22
namespace Sys2Proof.Tests.W23
def e23 (t : PgTy) (w k : Nat) (ev : Nat) : SigEntry := ⟨ofN (t.code * 16777216 + w * 64 + k), 0x203 + 16 * ofN ev, 1, 0⟩
def o23 (d : Nat) (l : List Nat) : State := { mod up .pwr 0 (fun p => { p with busy := true, prog := progWord 1 2 0 }) with dom := (BitVec.allOnes 14) &&& ~~~(1#14 <<< d), swOn := d :: l, dio := { DioSt.reset with drive := true }, frcKeep := [(2, ⟨7, 3, 0, false⟩)] }
theorem witness_power_resets_and_pads_1 : ∃ (s : State) (d : Fin 14) (l : List Nat) (ecc : List (Bool × Nat)), (s.swOff = []) ∧ (s.swOn = d.val :: l) ∧ (s.dom.getLsbD d.val = false) ∧ (d.val ≠ 12 ∨ ecc = []) :=
  ⟨o23 12 [13], 12, [13], [], by decide +kernel⟩
theorem witness_power_resets_and_pads_1b : ∃ (s : State) (d : Fin 14) (l : List Nat) (ecc : List (Bool × Nat)), (s.swOff = []) ∧ (s.swOn = d.val :: l) ∧ (s.dom.getLsbD d.val = false) ∧ (d.val ≠ 12 ∨ ecc = []) :=
  ⟨o23 1 [4], 1, [4], [(true, 0x800000000)], by decide +kernel⟩
def f23 (d : Nat) (l m : List Nat) (t : PgTy) : State := { wr (wr (pin (pin (mod up .pwr 0 (fun p => { p with busy := true, prog := progWord 1 1 0 })) t 0 .idle) .can 3 .run) t 0 0x44 7) .frc 0 Reg.FRC.SET_CNT 9 with swOff := d :: l, swOn := m, sigs := [(12, e23 t 3 1 1)], mem := [(0x10000000, 5), (0x0C000000, 3), (0x800000010, 8)], keys := [(3, ⟨1, true, [1, 2]⟩)] }
theorem witness_power_resets_and_pads_2 : ∃ (s : State) (d : Fin 14) (l : List Nat) (id : Nat) (e : SigEntry), (s.swOff = d.val :: l) ∧ (d.val ≠ 0) ∧ (s.dom.getLsbD d.val = true) ∧ (s.sigs = [(id, e)]) ∧ (e.en = true) ∧ (keyDomain (256 * e.pageType + e.inst) = d.val) :=
  ⟨f23 13 [] [] .dio, 13, [], 12, e23 .dio 3 1 1, by decide +kernel⟩
theorem witness_power_resets_and_pads_2b : ∃ (s : State) (d : Fin 14) (l : List Nat) (id : Nat) (e : SigEntry), (s.swOff = d.val :: l) ∧ (d.val ≠ 0) ∧ (s.dom.getLsbD d.val = true) ∧ (s.sigs = [(id, e)]) ∧ (e.en = true) ∧ (keyDomain (256 * e.pageType + e.inst) = d.val) :=
  ⟨f23 8 [3] [] .enc, 8, [3], 12, e23 .enc 3 1 1, by decide +kernel⟩
def g23 (d : Nat) : State := { regs (pin (pin (warnAll up) .dio 0 .run) .can 3 .run) .pwr 0 [(Reg.PWR.DOM_EN, 0x3FFF), (Reg.PWR.BOR_CNT, 0xFFFFFFFF)] with swOff := [d, 5], swOn := [4] }
theorem witness_power_resets_and_pads_3 : ∃ (s : State) (d : Fin 14), (d.val ≠ 0) ∧ (d.val ≠ 1) ∧ (s.dom.getLsbD d.val = true) ∧ (s.sigs = []) ∧ (RaiseLogs s 0x23 .pwr 0 0) :=
  ⟨g23 13, 13, by unfold RaiseLogs; decide +kernel⟩
theorem witness_power_resets_and_pads_3b : ∃ (s : State) (d : Fin 14), (d.val ≠ 0) ∧ (d.val ≠ 1) ∧ (s.dom.getLsbD d.val = true) ∧ (s.sigs = []) ∧ (RaiseLogs s 0x23 .pwr 0 0) :=
  ⟨mod { g23 2 with swOff := [], swOn := [] } .pwr 0 (fun p => { p with staged := [(Reg.PWR.DOM_EN, 0x3FFF)] }), 2, by unfold RaiseLogs; decide +kernel⟩
theorem witness_power_resets_and_pads_4 : ∃ (s : State) (d : Fin 14), (rb s .pwr 0 Reg.PWR.BOR_STAT d.val = true) :=
  ⟨{ wr (warnAll up) .pwr 0 Reg.PWR.BOR_STAT 0x3000 with holds := [⟨0x23, PgTy.pwr.code, 0, 12, 1⟩, ⟨0x23, PgTy.pwr.code, 0, 13, 1⟩] }, 13, by decide +kernel⟩
def r23 : State := { regs (regs (regs (regs (pin (pin (warnAll up) .dio 0 .run) .can 3 .run) .sys 0 [(Reg.SYS.RST_CAUSE, 0x11), (Reg.SYS.STAGE, 15)]) .dbg 0 [(Reg.DBG.STAT, 0x5013F)]) .tamp 0 [(Reg.TAMP.ERASE_CNT, 9)]) .frc 0 [(Reg.FRC.SET_CNT, 9)] with mem := [(0x10000000, 5), (0x0C000000, 3), (0x7FFFFFFFF, 4), (0x800000000, 8)], keys := [(3, ⟨1, true, [1, 2]⟩)], tampLog := [⟨1, 1, 5⟩], vbatBase := 77, otp := { State.reset.otp with lc := 3 }, frcKeep := [(2, ⟨7, 3, 0, false⟩)], sigs := [(12, e23 .dio 3 1 1)], dio := { DioSt.reset with drive := true, power := true, off := 7 }, flog := [⟨5, 0x21, 2, false, true, false, 0x3A, 0, 0, 5, 1, 0, 0, 0⟩], holds := [⟨0x21, PgTy.dio.code, 0, 0, 1⟩], part := ⟨1024, 14336, 1024, true⟩, trained := true }
/-- An unsigned image of KIND 2 with some body: the header of Table 19-2, its first words written out. -/
def i23 (body : List Nat) : FlashImg :=
  ⟨[0x47, 0x4D, 0x49, 0x4B, 1, 0, 0, 0, 2, 0, 0, 0, 9, 0, 0, 0] ++ List.replicate 8 0 ++ [0, 0, 0, 0x40] ++ List.replicate 8 0 ++ [0, 0, 0xFF, 0] ++
    List.replicate 56 0 ++ (Config.sha384 body).toList ++ List.replicate 368 0, body⟩
theorem i23_hash : ((i23 []).hdr.drop 0x060).take 48 = (Config.sha384 []).toList := by
  have h : ∀ k : Vector Nat 48, ((([0x47, 0x4D, 0x49, 0x4B, 1, 0, 0, 0, 2, 0, 0, 0, 9, 0, 0, 0] ++ List.replicate 8 0 ++ [0, 0, 0, 0x40] ++
      List.replicate 8 0 ++ [0, 0, 0xFF, 0] ++ List.replicate 56 0) ++ (k.toList ++ List.replicate 368 0)).drop 0x060).take 48 = k.toList := fun k => by
    rw [List.drop_left' (by decide), List.take_left' (by simp)]
  simpa only [i23, List.append_assoc] using h (Config.sha384 [])
def v23 (l : Option (List BootEntry)) (k : Bool) : BootRes := ⟨k, l, none, []⟩
theorem witness_power_resets_and_pads_5 : ∃ (s : State) (b : BootRes) (r : BootEnd), (r = bootFind (secShow (porAssert s) b.ksOk) b) ∧ (r.cfg = none) :=
  ⟨r23, v23 none false, bootFind (secShow (porAssert r23) false) (v23 none false), by decide +kernel⟩
theorem witness_power_resets_and_pads_5b : ∃ (s : State) (b : BootRes) (r : BootEnd), (r = bootFind (secShow (porAssert s) b.ksOk) b) ∧ (r.cfg = none) :=
  ⟨r23, v23 (some [⟨2, true, 5, i23 [0x77]⟩]) true, bootFind (secShow (porAssert r23) true) (v23 (some [⟨2, true, 5, i23 [0x77]⟩]) true), rfl, by decide +kernel⟩
theorem witness_power_resets_and_pads_6 : ∃ (s : State) (cause : Fin 6) (b : BootRes) (r : BootEnd), (rf s .pwr 0 Reg.PWR.BOR_STAT 1 13 = 0) ∧ (s.jtag ∉ [.extest, .clamp, .intest]) ∧ (r = bootFind (sysAssert s cause.val) b) :=
  ⟨r23, 3, v23 none false, bootFind (sysAssert r23 3) (v23 none false), by decide +kernel⟩
theorem witness_power_resets_and_pads_6b : ∃ (s : State) (cause : Fin 6) (b : BootRes) (r : BootEnd), (rf s .pwr 0 Reg.PWR.BOR_STAT 1 13 = 0) ∧ (s.jtag ∉ [.extest, .clamp, .intest]) ∧ (r = bootFind (sysAssert s cause.val) b) :=
  ⟨r23, 5, v23 none true, bootFind (sysAssert r23 5) (v23 none true), by decide +kernel⟩
theorem witness_power_resets_and_pads_9 : ∃ (s : State), (s.jtag ∈ [.extest, .clamp, .intest]) :=
  ⟨{ r23 with jtag := .clamp }, by decide +kernel⟩
theorem witness_power_resets_and_pads_10 : ∃ (s : State) (m : Master) (chk : BitVec 16), (Accepts s .sys 0 0x10 m chk) :=
  ⟨r23, .ap0, 0xFFEF, by unfold Accepts; decide +kernel⟩
theorem witness_power_resets_and_pads_10b : ∃ (s : State) (m : Master) (chk : BitVec 16), (Accepts s .sys 0 0x10 m chk) :=
  ⟨r23, .debugPort, 0xFFEF, by unfold Accepts; decide +kernel⟩
theorem witness_power_resets_and_pads_11 : ∃ (s : State) (m : Master) (chk : BitVec 16), (answers s ⟨.sys, 0⟩ = true) ∧ ((s.page (pk .sys 0)).key ≠ .window) ∧ (chk = 0xFFEF) ∧ ((s.page (pk .sys 0)).locked = false) ∧ ((s.page (pk .sys 0)).cmd = none) ∧ (lifeCycle s = 3) ∧ (m ∈ [.pcieHost, .pcieDma, .hsp]) :=
  ⟨wr r23 .sec 0 Reg.SEC.STAT 3, .hsp, 0xFFEF, by decide +kernel⟩
theorem witness_power_resets_and_pads_12 : ∃ (s : State), (answers s ⟨.sys, 0⟩ = true) ∧ ((s.page (pk .sys 0)).key ≠ .window) ∧ ((s.page (pk .sys 0)).locked = false) :=
  ⟨r23, by decide +kernel⟩
theorem witness_power_resets_and_pads_12b : ∃ (s : State), (answers s ⟨.sys, 0⟩ = true) ∧ ((s.page (pk .sys 0)).key ≠ .window) ∧ ((s.page (pk .sys 0)).locked = false) :=
  ⟨r23, by decide +kernel⟩
theorem witness_power_resets_and_pads_13 : ∃ (s : State), (answers s ⟨.sys, 0⟩ = true) ∧ ((s.page (pk .sys 0)).key ≠ .window) ∧ ((s.page (pk .sys 0)).locked = false) :=
  ⟨{ r23 with irqMap := [(pk .can 7, 99)] }, by decide +kernel⟩
theorem witness_power_resets_and_pads_13b : ∃ (s : State), (answers s ⟨.sys, 0⟩ = true) ∧ ((s.page (pk .sys 0)).key ≠ .window) ∧ ((s.page (pk .sys 0)).locked = false) :=
  ⟨r23, by decide +kernel⟩
theorem witness_power_resets_and_pads_14 : ∃ (s : State), (answers s ⟨.sys, 0⟩ = true) ∧ ((s.page (pk .sys 0)).key ≠ .window) ∧ ((s.page (pk .sys 0)).locked = false) :=
  ⟨wr { r23 with irqMap := [(pk .can 7, 99)] } .sys 0 Reg.SYS.IRQ_SEL (ofN (pk .can 7)), by decide +kernel⟩
theorem witness_power_resets_and_pads_14b : ∃ (s : State), (answers s ⟨.sys, 0⟩ = true) ∧ ((s.page (pk .sys 0)).key ≠ .window) ∧ ((s.page (pk .sys 0)).locked = false) :=
  ⟨wr r23 .sys 0 Reg.SYS.IRQ_SEL 0xFF00, by decide +kernel⟩
theorem witness_power_resets_and_pads_15 : ∃ (s : State), (powered s .clk 0 = true) :=
  ⟨wr r23 .clk 0 Reg.CLK.STAT 0x1F, by decide +kernel⟩
theorem witness_power_resets_and_pads_16 : ∃ (s : State), (powered s .clk 0 = true) ∧ (rb s .clk 0 Reg.CLK.STAT 9 = true) :=
  ⟨regs r23 .clk 0 [(Reg.CLK.STAT, 0x310), (Reg.CLK.CFG, 2)], by decide +kernel⟩
theorem witness_power_resets_and_pads_16b : ∃ (s : State), (powered s .clk 0 = true) ∧ (rb s .clk 0 Reg.CLK.STAT 9 = true) :=
  ⟨regs r23 .clk 0 [(Reg.CLK.STAT, 0x320), (Reg.CLK.CFG, 0)], by decide +kernel⟩
theorem witness_power_resets_and_pads_17 : ∃ (s : State) (p : Fin 4) (w : BitVec 14), (powered s .clk 0 = true) ∧ (w = [0x38BE#14, 0x942#14, 0x600#14, 0x1000#14].getD p.val 0) :=
  ⟨r23, 0, 0x38BE, by decide +kernel⟩
theorem witness_power_resets_and_pads_17b : ∃ (s : State) (p : Fin 4) (w : BitVec 14), (powered s .clk 0 = true) ∧ (w = [0x38BE#14, 0x942#14, 0x600#14, 0x1000#14].getD p.val 0) :=
  ⟨wr r23 .clk 0 Reg.CLK.STAT 0x1F, 3, 0x1000, by decide +kernel⟩
def p23 (x : PgState) (l : List (Nat × Word)) (i : BitVec 616) : State := { regs (pin (pin (pin up .gpio 0 x) .sig 0 .run) .recStore 0 .run) .gpio 0 l with sigs := [(12, e23 .gpio 339 7 UpdEv.edge.num)], padIn := i }
theorem witness_power_resets_and_pads_18 : ∃ (s : State) (p : Fin 616) (level : Bool) (id : Nat) (e : SigEntry) (en : Bool), (padDriven s p.val = false) ∧ (powered s .gpio 0 = true) ∧ (s.padIn.getLsbD p.val = !level) ∧ (s.sigs = [(id, e)]) ∧ (id ≠ 0) ∧ (e.en = true) ∧ (sigRun s = true) ∧ (e.from .gpio 0 = true) ∧ (e.upd = UpdEv.edge.num) ∧ (e.typ = 3) ∧ (e.word = 320 + p.val / 32) ∧ (e.lsb = p.val % 32) ∧ (en = (stOf s .gpio 0 == .run && rb s .gpio 0 ((if level then Reg.GPIO.RISE_EN else Reg.GPIO.FALL_EN) + 4 * (p.val / 32)) (p.val % 32))) :=
  ⟨p23 .run [(Reg.GPIO.RISE_EN + 76, 0x80)] 5, 615, true, 12, e23 .gpio 339 7 UpdEv.edge.num, true, by decide +kernel⟩
theorem witness_power_resets_and_pads_18b : ∃ (s : State) (p : Fin 616) (level : Bool) (id : Nat) (e : SigEntry) (en : Bool), (padDriven s p.val = false) ∧ (powered s .gpio 0 = true) ∧ (s.padIn.getLsbD p.val = !level) ∧ (s.sigs = [(id, e)]) ∧ (id ≠ 0) ∧ (e.en = true) ∧ (sigRun s = true) ∧ (e.from .gpio 0 = true) ∧ (e.upd = UpdEv.edge.num) ∧ (e.typ = 3) ∧ (e.word = 320 + p.val / 32) ∧ (e.lsb = p.val % 32) ∧ (en = (stOf s .gpio 0 == .run && rb s .gpio 0 ((if level then Reg.GPIO.RISE_EN else Reg.GPIO.FALL_EN) + 4 * (p.val / 32)) (p.val % 32))) :=
  ⟨p23 .off [(Reg.GPIO.RISE_EN + 76, 0x80)] 5, 615, true, 12, e23 .gpio 339 7 UpdEv.edge.num, false, by decide +kernel⟩
def q23 (x : PgState) : State := { regs (pin up .gpio 0 x) .gpio 0 [(Reg.GPIO.DIR + 76, 0x84), (Reg.GPIO.MUX + 304, 0x44440444), (Reg.GPIO.OUT + 76, 0x81), (Reg.GPIO.RISE_EN + 76, 0xFF), (Reg.GPIO.FALL_EN + 76, 0xFF), (Reg.GPIO.IN + 76, 0x7)] with padIn := 7#616 <<< 608 }
theorem witness_power_resets_and_pads_19 : ∃ (s : State) (w : Fin 20) (v : Word) (x : Word), (answers s ⟨.gpio, 0⟩ = true) ∧ ((s.page (pk .gpio 0)).key ≠ .window) ∧ ((s.page (pk .gpio 0)).locked = false) ∧ (s.sigs = []) ∧ (x = (if w.val = 19 then v &&& 0xFF else v)) :=
  ⟨q23 .run, 19, 0xFFFFFFF4, 0xF4, by decide +kernel⟩
theorem witness_power_resets_and_pads_20 : ∃ (s : State) (w : Fin 20) (v : Word) (x : Word), (answers s ⟨.gpio, 0⟩ = true) ∧ ((s.page (pk .gpio 0)).key ≠ .window) ∧ ((s.page (pk .gpio 0)).locked = false) ∧ (s.sigs = []) ∧ (x = (if w.val = 19 then v &&& 0xFF else v)) :=
  ⟨q23 .run, 19, 0xFFFFFFF4, 0xF4, by decide +kernel⟩
theorem witness_power_resets_and_pads_19b : ∃ (s : State) (w : Fin 20) (v : Word) (x : Word), (answers s ⟨.gpio, 0⟩ = true) ∧ ((s.page (pk .gpio 0)).key ≠ .window) ∧ ((s.page (pk .gpio 0)).locked = false) ∧ (s.sigs = []) ∧ (x = (if w.val = 19 then v &&& 0xFF else v)) :=
  ⟨q23 .run, 0, 0xFFFFFFFF, 0xFFFFFFFF, by decide +kernel⟩
theorem witness_power_resets_and_pads_7 : ∃ (s : State) (b : BootRes) (e : BootEntry), (rf s .pwr 0 Reg.PWR.BOR_STAT 1 13 = 0) ∧ (s.jtag ∉ [.extest, .clamp, .intest]) ∧ (b.tab0 = some [e]) ∧ (e.kind.val = 2) ∧ (hdrWord e.img 0 ≠ 0x4B494D47 ∨ hdrWord e.img 4 ≠ 1 ∨ hdrWord e.img 8 ≠ 2 ∨ e.img.body.length ≠ hdrWord e.img 0x020 ∨ (e.img.hdr.drop 0x060).take 48 ≠ (Config.sha384 e.img.body).toList ∨ 127 < hdrWord e.img 0x00C ∨ hdrWord e.img 0x00C < SMap.get (fun _ => 0) s.otp.minVer 2 ∨ (lifeCycle s = 3 ∧ (3 < hdrWord e.img 0x024 / 65536 % 256 ∨ (∀ x ∈ s.otp.roots, x.1 ≠ hdrWord e.img 0x024 / 65536 % 256) ∨ s.otp.revoked.getLsbD (hdrWord e.img 0x024 / 65536 % 256) = true ∨ Config.ecdsaOk ((e.img.hdr.drop 0x090).take 96) (Config.sha384 (e.img.hdr.take 0x0F0)).toList ((e.img.hdr.drop 0x0F0).take 96) = false))) :=
  ⟨r23, v23 (some [⟨2, false, 1, i23 [0x77]⟩]) true, ⟨2, false, 1, i23 [0x77]⟩, by decide +kernel, by decide +kernel, rfl, by decide +kernel, .inr (.inr (.inr (.inl (by decide +kernel))))⟩
theorem witness_power_resets_and_pads_7b : ∃ (s : State) (b : BootRes) (e : BootEntry), (rf s .pwr 0 Reg.PWR.BOR_STAT 1 13 = 0) ∧ (s.jtag ∉ [.extest, .clamp, .intest]) ∧ (b.tab0 = some [e]) ∧ (e.kind.val = 2) ∧ (hdrWord e.img 0 ≠ 0x4B494D47 ∨ hdrWord e.img 4 ≠ 1 ∨ hdrWord e.img 8 ≠ 2 ∨ e.img.body.length ≠ hdrWord e.img 0x020 ∨ (e.img.hdr.drop 0x060).take 48 ≠ (Config.sha384 e.img.body).toList ∨ 127 < hdrWord e.img 0x00C ∨ hdrWord e.img 0x00C < SMap.get (fun _ => 0) s.otp.minVer 2 ∨ (lifeCycle s = 3 ∧ (3 < hdrWord e.img 0x024 / 65536 % 256 ∨ (∀ x ∈ s.otp.roots, x.1 ≠ hdrWord e.img 0x024 / 65536 % 256) ∨ s.otp.revoked.getLsbD (hdrWord e.img 0x024 / 65536 % 256) = true ∨ Config.ecdsaOk ((e.img.hdr.drop 0x090).take 96) (Config.sha384 (e.img.hdr.take 0x0F0)).toList ((e.img.hdr.drop 0x0F0).take 96) = false))) :=
  ⟨{ r23 with otp := { State.reset.otp with lc := 3, minVer := [(2, 10)] } }, v23 (some [⟨2, false, 1, i23 []⟩]) true, ⟨2, false, 1, i23 []⟩, by decide +kernel, by decide +kernel, rfl, by decide +kernel, .inr (.inr (.inr (.inr (.inr (.inr (.inl (by decide +kernel)))))))⟩
theorem witness_power_resets_and_pads_8 : ∃ (s : State) (b : BootRes) (e : BootEntry), (rf s .pwr 0 Reg.PWR.BOR_STAT 1 13 = 0) ∧ (s.jtag ∉ [.extest, .clamp, .intest]) ∧ (b.tab0 = some [e]) ∧ (e.kind.val = 2) ∧ (hdrWord e.img 0 = 0x4B494D47) ∧ (hdrWord e.img 4 = 1) ∧ (hdrWord e.img 8 = 2) ∧ (e.img.body.length = hdrWord e.img 0x020) ∧ ((e.img.hdr.drop 0x060).take 48 = (Config.sha384 e.img.body).toList) ∧ (hdrWord e.img 0x00C ≤ 127) ∧ (SMap.get (fun _ => 0) s.otp.minVer 2 ≤ hdrWord e.img 0x00C) ∧ (hdrWord e.img 0x024 % 2 = 0) ∧ (lifeCycle s = 2) ∧ (rb s .sec 0 Reg.SEC.CFG 0 = false) ∧ (s.otp.roots = []) ∧ (hdrWord e.img 0x024 / 65536 % 256 = 255) :=
  ⟨wf ({ r23 with otp := { State.reset.otp with lc := 2 } }) .sec 0 Reg.SEC.STAT 0 3 2, v23 (some [⟨2, true, 1, i23 []⟩]) true, ⟨2, true, 1, i23 []⟩, by decide +kernel, by decide +kernel, rfl, by decide +kernel, by decide +kernel, by decide +kernel, by decide +kernel, by decide +kernel, i23_hash, by decide +kernel⟩
end Sys2Proof.Tests.W23
namespace Sys2Proof.Tests

/-! ## What WellFormed refuses, one term for each of its checks -/

theorem test_wf_absent_page : (Instr.pageEnable ⟨.enc, 64⟩ true).wellFormed = false := by decide +kernel
theorem test_wf_offset : (Instr.registerWrite .ap0 ⟨.enc, 0⟩ 4096 0).wellFormed = false := by decide +kernel
theorem test_wf_offset_word : (Instr.wideReadSnapshot ⟨.enc, 0⟩ 0x82).wellFormed = false := by decide +kernel
theorem test_wf_address : (Instr.accessError .ap0 0x1000000000 true).wellFormed = false := by decide +kernel
theorem test_wf_pcie : (Instr.pcieRequest (.read false 0x8000000 false [])).wellFormed = false := by decide +kernel
theorem test_wf_pcie_pair : (Instr.pcieRequest (.read false 4 true [])).wellFormed = false := by decide +kernel
theorem test_wf_can_length : (Instr.canFrameReceive 0 0 0 ⟨0, false, true, false, false, false, 15, List.replicate 65 0⟩).wellFormed = false := by
  decide +kernel
theorem test_wf_can_remote : (Instr.canFrameReceive 0 0 0 ⟨0, false, false, false, false, true, 1, [7]⟩).wellFormed = false := by decide +kernel
theorem test_wf_link : (Instr.linkFrameReceive 0 0 0
    ⟨0, 1, 32, true, true, 0, 0, 0, 0, 0, 0, 0, [], [], 0⟩).wellFormed = false := by decide +kernel
theorem test_wf_link_events : (Instr.linkFrameReceive 0 0 0
    ⟨0, 1, 3, true, true, 0, 0, 0, 0, 0, 0, 0, [⟨32, 0, true, 0⟩], [], 0⟩).wellFormed = false := by decide +kernel
theorem test_wf_link_records : (Instr.linkFrameReceive 0 0 0
    ⟨0, 1, 3, true, true, 0, 0, 0, 0, 0, 0, 0, [], [⟨0, 256, 1, 0, 0, 0⟩], 0⟩).wellFormed = false := by decide +kernel
theorem test_wf_die : (Instr.fieldRefresh 0 .silent (.good 0 0 0 1024 [] [])).wellFormed = false := by decide +kernel
theorem test_wf_boot : (Instr.powerOnReset ⟨true, none, none, [1, 2, 3, 4, 5]⟩).wellFormed = false := by decide +kernel
theorem test_wf_boot_table : (Instr.powerOnReset ⟨true, some [⟨2, false, 1, ⟨[], []⟩⟩], none, []⟩).wellFormed = false := by decide +kernel
theorem test_wf_precision : (Instr.pcvOutputWord 0 0 none 8388608).wellFormed = false := by decide +kernel
theorem test_wf_coefficients : (Instr.bobbinCalEnd 0 0 2147483648 0).wellFormed = false := by decide +kernel
theorem test_wf_startup : (Instr.startupCalEnd 0 0 []).wellFormed = false := by decide +kernel
theorem test_wf_descriptor : (Instr.dmaDescriptor 0 [] [] none []).wellFormed = false := by decide +kernel
theorem test_wf_serial_length : (Instr.hspRead 0 0 65536 0 0 false []).wellFormed = false := by decide +kernel
theorem test_wf_serial_data : (Instr.hspWrite 0 0 1 0 [4294967296] 0 false).wellFormed = false := by decide +kernel
theorem test_wf_fetch : (Instr.xipRead 0 .ap0 0 [[256]] []).wellFormed = false := by decide +kernel
theorem test_wf_frame : (Instr.ethReceive 0 0 [256] true 0 []).wellFormed = false := by decide +kernel
theorem test_wf_points : (Instr.prkPointWrite .ap0 0x1000000000 0).wellFormed = false := by decide +kernel

/-! ## Results from the spec's worked examples -/

/-- R5: the command code 0x0012 is written as 0xFFED_0012. -/
theorem test_command_word : cmdWord 0xFFED 0x12 = 0xFFED0012 := by decide +kernel
/-- R26: the page of `AXIS[17]` lies at 0x4121_1000. -/
theorem test_page_address : addrPage 0x41211000 = some ⟨.axis, 17⟩ := by decide +kernel
/-- R44: the unlock pair of `AXIS[17]` is 0x6B65_1211 and 0x949A_EDEE. -/
theorem test_unlock_pair : pgid .axis 17 >>> 16 = 0x1211 ∧ ~~~(0x6B650000 + (pgid .axis 17 >>> 16)) = 0x949AEDEE := by decide +kernel
/-- R6: the check values of CRC-32C and CRC-16/CCITT-FALSE over the digits 1 to 9, from their definitions. -/
theorem test_crc32c : crc32c [0x31, 0x32, 0x33, 0x34, 0x35, 0x36, 0x37, 0x38, 0x39] = 0xE3069283 := by decide +kernel
theorem test_crc16 : crc16 [0x31, 0x32, 0x33, 0x34, 0x35, 0x36, 0x37, 0x38, 0x39] = 0x29B1 := by decide +kernel
/-- R179: with L0 = 0x8040 the accesses read words 0, 32, 16, 48, 8, 40, 24, 56. -/
theorem test_mirror : (List.range 8).map (fun p => lcMirror 0x8040 p p) = [0, 32, 16, 48, 8, 40, 24, 56] := by decide +kernel
/-- R163: entry 160 of the built-in table is 0.831470, which is 6,974,873 of 2²³, and its cosine 0.555570, 4,660,461. -/
theorem test_microstep : builtinS 160 = 6974873 ∧ builtinK 160 = 4660461 := by decide +kernel
/-- R116: the TIME segment from (0, 0, 0) to (10,000,000 ns, 1,000, 200,000 counts/s) gives 250 counts at its middle. -/
theorem test_cubic : (fun c : Curve => c.y = 250 * c.den) (segCurve ⟨0, 0, 0, 0⟩ ⟨10000000, 1000, 200000, 0⟩ 1000000000 5000000) := by
  decide +kernel
/-- R60: the words of the position of `ENC[4]` in the example of chapter 2: the low word reads 0xFFFF_8000 and latches 0x0000_0001. -/
theorem test_wide_words : lo32 0x00000001FFFF8000 = 0xFFFF8000 ∧ hi32 0x00000001FFFF8000 = 1 := by decide +kernel
/-! Bundles written out field by field from Tables 6-8 to 6-10. -/

/-- OP 0x01, FN 0, A 2, DA 3, DB 5; and OP 0x03, FN 0, DA 3, DB 5, DD 7. -/
theorem test_decode_arithmetic : lcDecode W06.a3 0x0410CA00 0 = some (.lcMpy W06.a3 none 2 3 5) ∧
    lcDecode W06.a3 0x0C00CA70 0 = some (.lcAdd W06.a3 none 7 3 5) := by decide +kernel
/-- OP 0x04, FN 0, RD 37 (P1), RS 2; OP 0x0A, REG 6, IMM -1; 64-bit OP 0x1F, LFN 0, REG 10. -/
theorem test_decode_moves : lcDecode W06.a3 0x10250800 0 = some (.lcMov W06.a3 37 2) ∧
    lcDecode W06.a3 0x286FFFFF 0 = some (.lcMovi W06.a3 6 0xFFFFF) ∧ lcDecode W06.a3 0xFC0A0000 0x12345678 = some (.lcLdi W06.a3 10 0x12345678) := by
  decide +kernel
/-- OP 0x05, MEM 1, PAIR 0, ST 0, P 3, AM 1, REG 9, OFS 0x7FF; OP 0x07, CLR 1, A 1, PX 2, PY 6; OP 0x06, FN 0, REG 4, port 100. -/
theorem test_decode_memory : lcDecode W06.a3 0x16324FFF 0 = some (.lcLd W06.a3 true 3 1 0x7FF 9) ∧
    lcDecode W06.a3 0x1EAC0000 0 = some (.lcFtap W06.a3 true 1 2 6) ∧ lcDecode W06.a3 0x18100064 0 = some (.lcIn W06.a3 4 100) := by decide +kernel
/-- OP 0x08, FN 0, COND 1, TGT 0x123; OP 0x09, SRC 0, ROT 1, CNT 100, END 5. -/
theorem test_decode_flow : lcDecode W06.a3 0x20040123 0 = some (.lcBr W06.a3 1 0x123) ∧
    lcDecode W06.a3 0x25006405 0 = some (.lcBrep W06.a3 none 100 true 5) := by decide +kernel
/-- 64-bit OP 0x00, X slot EN 1, P 2, AM 1, D 1, Y slot 0. -/
theorem test_decode_slots : lcDecode W06.a3 0x80000000 0x89080000 = some (.lcMoveSlotLoad W06.a3 false false 2 1 1 0) := by decide +kernel
/-- OP 0x0B is illegal (R196), and a bundle whose arithmetic and move slots write one register (R187): D7 by ADD and by the X slot. -/
theorem test_decode_illegal : lcDecode W06.a3 0x2C000000 0 = none ∧ lcDecode W06.a3 0x8C00CA70 0x88380000 = none := by decide +kernel
/-- The rows of the opcode table give no bits. -/
theorem test_no_words : Sys2Proof.decodeTableWord 32 0 = none := by decide +kernel
end Sys2Proof.Tests
end
end

section
/-! PROOF. The complement check (R5): what a command word without its complement does. -/
namespace Sys2Proof.Machine

/-! ## Changes of one page -/

/-- One state differs from another in one page alone. -/
def PageAlone (s x : State) (k : Nat) : Prop := PagesOnly s x ∧ ∀ k', k' ≠ k → x.page k' = s.page k'

theorem PageAlone.refl (s : State) (k : Nat) : PageAlone s s k := ⟨PagesOnly.refl s, fun _ _ => rfl⟩

section
variable {s x : State} {k : Nat}

theorem PageAlone.modPage (h : PageAlone s x k) (f : Page → Page) : PageAlone s (x.modPage k f) k := by
  obtain ⟨hp, ho⟩ := h
  refine ⟨hp.modPage k f, fun k' hk => ?_⟩
  rw [State.modPage_page, if_neg hk, ho k' hk]

theorem PageAlone.wr {t : PgTy} {n : Nat} (h : PageAlone s x (pk t n)) (off : Nat) (v : Word) :
    PageAlone s (Machine.wr x t n off v) (pk t n) := h.modPage (Page.wr t off v)

theorem PageAlone.reject {t : PgTy} {n : Nat} (h : PageAlone s x (pk t n)) (c : ErrCode) (off src : Nat) :
    PageAlone s (Machine.reject x t n c off src) (pk t n) := (h.modPage _).modPage _

/-- A state that differs in one page differs so once settled. -/
theorem PageAlone.settled (h : PageAlone s x k) : OnlyPages s (settle x) ∧ OtherPages s (settle x) k :=
  ⟨onlyPages_settle h.1, fun k' hk => (settle_page x k').trans (h.2 k' hk)⟩

end

/-! ## What a change of the pages leaves -/

section
variable {s x : State} (h : PagesOnly s x)
include h
theorem PagesOnly.dom : x.dom = s.dom := (congrArg State.dom h).symm
theorem PagesOnly.sigs : x.sigs = s.sigs := (congrArg State.sigs h).symm
theorem PagesOnly.slots : x.slots = s.slots := (congrArg State.slots h).symm
theorem PagesOnly.mem : x.mem = s.mem := (congrArg State.mem h).symm
end

/-! ## Rejections (R56) -/

/-- A page after a rejection: PGERR shows it and INT_RAW.ERR is set. -/
theorem reject_page (s : State) (t : PgTy) (n : Nat) (c : ErrCode) (off src k : Nat) :
    (reject s t n c off src).page k = if k = pk t n then
      { s.page (pk t n) with err := errWord c off src, intRaw := (s.page (pk t n)).intRaw ||| 1#32 <<< 31 } else s.page k := by
  simp only [reject, setInt_page, State.modPage_page, if_true]
  split <;> rfl

/-- The page a rejection is shown on. -/
theorem reject_page_same (s : State) (t : PgTy) (n : Nat) (c : ErrCode) (off src : Nat) :
    (reject s t n c off src).page (pk t n) =
      { s.page (pk t n) with err := errWord c off src, intRaw := (s.page (pk t n)).intRaw ||| 1#32 <<< 31 } := by
  rw [reject_page, if_pos rfl]

/-! ## The unlock window (R44) -/

/-- A state in which a page's unlock window, where it was open, has closed: any write of the page closes it. -/
def State.windowClosed (s : State) (k : Nat) : State :=
  if (s.page k).key = .window then s.modPage k (fun p => { p with key := .idle }) else s

theorem windowClosed_alone (s : State) (k : Nat) : PageAlone s (s.windowClosed k) k := by
  unfold State.windowClosed
  split
  · exact (PageAlone.refl s k).modPage _
  · exact PageAlone.refl s k

/-- Of the page itself only the window has changed. -/
theorem windowClosed_page (s : State) (k : Nat) :
    (s.windowClosed k).page k = { s.page k with key := ((s.windowClosed k).page k).key } := by
  unfold State.windowClosed
  split
  · rw [State.modPage_page, if_pos rfl]
  · rfl

/-! ## Command words (R5, R54) -/

/-- A word written to PGCMD of a page that answers is a command word of its master, whatever the page and its state. -/
theorem pageWrite_pgcmd {s : State} {pg : PageId} (m : Master) (v ev : Word) (ha : answers s pg = true) :
    pageWrite s m pg 0x010 v ev = sendCmd (s.windowClosed pg.key) pg.ty pg.inst m v := by
  unfold pageWrite State.windowClosed PageId.key
  by_cases hk : (s.page (pk pg.ty pg.inst)).key = .window <;> simp [ha, hk, secSelvWrite, selvWrite]

/-- The complement check comes first (R5, R543). -/
theorem cmdRefusal_badCheck {w : Word} (s : State) (t : PgTy) (n : Nat) (m : Master) (hw : fld w 16 16 ≠ 0xFFFF - fld w 0 16) :
    cmdRefusal s t n m w = some .cmdCheck := by
  simp [cmdRefusal, firstOf, hw]

/-- The code of a refusal is that of a test that holds. -/
theorem mem_of_firstOf {l : List (Bool × ErrCode)} {c : ErrCode} (h : firstOf l = some c) : (true, c) ∈ l := by
  induction l with
  | nil => cases h
  | cons e l ih =>
    obtain ⟨b, c'⟩ := e
    cases b with
    | true =>
      obtain rfl : c' = c := Option.some.inj h
      exact List.mem_cons_self
    | false => exact List.mem_cons_of_mem _ (ih h)

/-- A word that passes the check is refused with CMD_CHECK only where its page's rule says so. -/
theorem cmdRefusal_ne_cmdCheck {s : State} {t : PgTy} {n : Nat} {m : Master} {w : Word} (hw : fld w 16 16 = 0xFFFF - fld w 0 16)
    (hr : ∀ r, ruleOf s t n (fld w 0 16) m = some r → r.err ≠ some .cmdCheck) : cmdRefusal s t n m w ≠ some .cmdCheck := by
  intro h
  unfold cmdRefusal at h
  dsimp only at h
  rcases Option.or_eq_some_iff.1 h with hfirst | ⟨-, hrule⟩
  · simpa [hw] using mem_of_firstOf hfirst
  · split at hrule
    · split at hrule <;> cases hrule
    · exact hr _ ‹_› hrule

/-- The state in which a refusal with CMD_CHECK is shown: a PWM page takes the free value its tests may have used. -/
def State.checkTaken (s : State) (t : PgTy) : State := if t = .pwm then s.next else s

@[simp] theorem checkTaken_page (s : State) (t : PgTy) (k : Nat) : (s.checkTaken t).page k = s.page k := by
  unfold State.checkTaken; split <;> rfl
@[simp] theorem checkTaken_dom (s : State) (t : PgTy) : (s.checkTaken t).dom = s.dom := by unfold State.checkTaken; split <;> rfl
@[simp] theorem checkTaken_sigs (s : State) (t : PgTy) : (s.checkTaken t).sigs = s.sigs := by unfold State.checkTaken; split <;> rfl
@[simp] theorem checkTaken_slots (s : State) (t : PgTy) : (s.checkTaken t).slots = s.slots := by unfold State.checkTaken; split <;> rfl
@[simp] theorem checkTaken_mem (s : State) (t : PgTy) : (s.checkTaken t).mem = s.mem := by unfold State.checkTaken; split <;> rfl

/-- A word without its complement is rejected with CMD_CHECK and nothing else happens (R5). -/
theorem sendCmd_badCheck {w : Word} (s : State) (t : PgTy) (n : Nat) (m : Master) (hw : fld w 16 16 ≠ 0xFFFF - fld w 0 16) :
    sendCmd s t n m w = reject (s.checkTaken t) t n .cmdCheck 0x010 2 := by
  unfold sendCmd
  rw [cmdRefusal_badCheck s t n m hw]
  simp [refuseCmd, timeRefused, rejCmd, State.checkTaken]

/-- What the write of such a word to PGCMD answers. -/
theorem exec_badCheck {s : State} {pg : PageId} {w : Word} (m : Master) (ha : answers s pg = true)
    (hw : fld w 16 16 ≠ 0xFFFF - fld w 0 16) : exec (.registerWrite m pg 0x010 w) s =
      done (reject ((s.windowClosed pg.key).checkTaken pg.ty) pg.ty pg.inst .cmdCheck 0x010 2) := by
  rw [← sendCmd_badCheck _ pg.ty pg.inst m hw, ← pageWrite_pgcmd m w 0 ha]
  rfl

/-- The page such a word was written to: the unlock window has closed, and the refusal is shown. -/
theorem badCheck_page (s : State) (t : PgTy) (n : Nat) :
    (settle (reject ((s.windowClosed (pk t n)).checkTaken t) t n .cmdCheck 0x010 2)).page (pk t n) =
      { s.page (pk t n) with key := ((s.windowClosed (pk t n)).page (pk t n)).key, err := errWord .cmdCheck 0x010 2,
                             intRaw := (s.page (pk t n)).intRaw ||| 1#32 <<< 31 } := by
  rw [settle_page, reject_page_same, checkTaken_page, windowClosed_page]

/-- Settles O18: the check comes before every other test, and its refusal touches PGERR and INT_RAW.ERR alone. -/
theorem complementCheck : Obligations.complement_check := by
  unfold Obligations.complement_check
  refine ⟨fun s pg m w ha hw => gives_done (exec_badCheck m ha hw) ?refused,
    fun s pg m w hw hr => cmdRefusal_ne_cmdCheck hw fun r h => ?passed⟩
  case refused =>
    obtain ⟨honly, hother⟩ := windowClosed_alone s pg.key
    simp only [PageId.key] at honly hother ⊢
    rw [badCheck_page]
    refine ⟨rfl, by simp, rfl, rfl, rfl, rfl, rfl, stOf_congr ?_ ?_, fun o _ => rg_congr ?_ o, fun k hk => ?_, ?_, ?_, mem8_of_mem ?_⟩
    · rw [badCheck_page]
    · rw [settle_dom]; exact (checkTaken_dom _ _).trans honly.dom
    · rw [badCheck_page]
    · rw [settle_page, reject_page, if_neg hk, checkTaken_page, hother k hk]
    · rw [settle_sigs]; exact (checkTaken_sigs _ _).trans honly.sigs
    · rw [settle_slots]; exact (checkTaken_slots _ _).trans honly.slots
    · rw [settle_mem]; exact (checkTaken_mem _ _).trans honly.mem
  case passed => simpa [h] using hr

end Sys2Proof.Machine
end

section
/-! PROOF. Register writes by access code (Table 0-3). -/
namespace Sys2Proof.Machine

/-! ## Ways to a block register -/

/-- The offset of a word within its page is the word's own (log entry 27). -/
theorem wordOff_aligned {off : Nat} (hlt : off < 4096) (hal : off % 4 = 0) : wordOff off = off := by
  unfold wordOff; omega

/-- A write of a block register of a page that answers, no unlock window open. -/
theorem pageWrite_block {s : State} {pg : PageId} {off : Nat} (m : Master) (v ev : Word) (ha : answers s pg = true)
    (hk : (s.page pg.key).key ≠ .window) (ho : 0x040 ≤ off) :
    pageWrite s m pg off v ev = regWrite s m pg.ty pg.inst false off v ev := by
  unfold PageId.key at hk
  unfold pageWrite
  simp [ha, hk, show ¬off < 0x040 by omega]

/-- REGISTER_WRITE of a block register; the next two say the same of W1C_STATUS_WRITE and WIDE_WRITE_APPLY. -/
theorem exec_registerWrite {s : State} {pg : PageId} {off : Nat} (m : Master) (v : Word) (ha : answers s pg = true)
    (hk : (s.page pg.key).key ≠ .window) (ho : 0x040 ≤ off) (hlt : off < 4096) (hal : off % 4 = 0) :
    exec (.registerWrite m pg off v) s = done (regWrite s m pg.ty pg.inst false off v 0) := by
  show done (pageWrite s m pg (wordOff off) v 0) = _
  rw [wordOff_aligned hlt hal, pageWrite_block m v 0 ha hk ho]

theorem exec_w1cStatusWrite {s : State} {pg : PageId} {off : Nat} (v ev : Word) (ha : answers s pg = true)
    (hk : (s.page pg.key).key ≠ .window) (ho : 0x040 ≤ off) (hlt : off < 4096) (hal : off % 4 = 0) :
    exec (.w1cStatusWrite pg off v ev) s = done (regWrite s .ap0 pg.ty pg.inst false off v ev) := by
  show done (pageWrite s .ap0 pg (wordOff off) v ev) = _
  rw [wordOff_aligned hlt hal, pageWrite_block .ap0 v ev ha hk ho]

theorem exec_wideWriteApply {s : State} {pg : PageId} {off : Nat} (v : Word) (ha : answers s pg = true)
    (hk : (s.page pg.key).key ≠ .window) (ho : 0x040 ≤ off) (hlt : off < 4096) (hal : off % 4 = 0) :
    exec (.wideWriteApply pg off v) s = done (regWrite s .ap0 pg.ty pg.inst false off v 0) := by
  show done (pageWrite s .ap0 pg (wordOff off) v 0) = _
  rw [wordOff_aligned hlt hal, pageWrite_block .ap0 v 0 ha hk ho]

section
variable {s : State} {m : Master} {t : PgTy} {n off : Nat} {win : Bool} {v ev : Word} {r : RegRow} (hr : regRowAt t n off = some r)
include hr

theorem regWrite_ro (h : r.acc = .ro) : regWrite s m t n win off v ev = s := by
  simp [regWrite, hr, h]

theorem regWrite_locked (h : r.acc ≠ .ro) (hl : (s.page (pk t n)).locked = true) :
    regWrite s m t n win off v ev = rejWr s t n .locked off := by
  simp [regWrite, hr, h, hl]

theorem regWrite_rs (h : r.acc = .rs) (hsec : secPages.contains t = false) (hl : (s.page (pk t n)).locked = false) (hp : r.prot = false) :
    regWrite s m t n win off v ev = stageWord s t n off v := by
  have hsec : t ∉ secPages := by simpa using hsec
  simp [regWrite, hr, h, hl, hp, hsec]

theorem regWrite_live (h : r.acc ≠ .ro) (h' : r.acc ≠ .rs) (hl : (s.page (pk t n)).locked = false) (hp : r.prot = false) :
    regWrite s m t n win off v ev = blockWrite s m t n off v ev := by
  simp [regWrite, hr, h, h', hl, hp]

end

/-- Only ETH has pages whose maps differ. -/
theorem regRowAt_eq {t : PgTy} (h : t ≠ .eth) (n off : Nat) : regRowAt t n off = regRow t off := by
  simp [regRowAt, h]

/-! ## Live registers (Table 0-3) -/

/-- Page types whose live registers are written by their access code alone, without a rule of their own. -/
def plainTypes : List PgTy := [.prk, .pwm, .fin, .fcg, .dio, .le, .rseq, .recStore]

theorem blockWrite_plain {t : PgTy} (h : t ∈ plainTypes) (s : State) (m : Master) (n off : Nat) (v ev : Word) :
    blockWrite s m t n off v ev = liveWrite s t n off v ev := by
  simp only [plainTypes, List.mem_cons, List.not_mem_nil, or_false] at h
  rcases h with rfl | rfl | rfl | rfl | rfl | rfl | rfl | rfl <;> rfl

theorem liveWrite_rw {t : PgTy} {off : Nat} {r : RegRow} (hr : regRow t off = some r) (h : r.acc = .rw) (s : State) (n : Nat) (v ev : Word) :
    liveWrite s t n off v ev = rwStore s t n off v := by
  simp [liveWrite, hr, h]

/-- An RW register of such a page that is not locked takes the word written. -/
theorem regWrite_rw {s : State} {m : Master} {t : PgTy} {n off : Nat} {win : Bool} {v ev : Word} {r : RegRow} (ht : t ∈ plainTypes)
    (hr : regRow t off = some r) (h : r.acc = .rw) (hl : (s.page (pk t n)).locked = false) (hp : r.prot = false) :
    regWrite s m t n win off v ev = rwStore s t n off v := by
  have hne : t ≠ .eth := by rintro rfl; simp [plainTypes] at ht
  rw [regWrite_live ((regRowAt_eq hne n off).trans hr) (by simp [h]) (by simp [h]) hl hp, blockWrite_plain ht, liveWrite_rw hr h]

theorem liveWrite_w1c {t : PgTy} {off : Nat} {r : RegRow} (hr : regRow t off = some r) (h : r.acc = .w1c) (s : State) (n : Nat)
    (v ev : Word) : liveWrite s t n off v ev = w1cWrite s t n off v ev := by
  simp [liveWrite, hr, h]

/-- A register of a page type without wide RW values takes the bits it implements. -/
theorem rwStore_narrow {t : PgTy} (h : rwLows t = []) (s : State) (n off : Nat) (v : Word) :
    rwStore s t n off v = wr s t n off (v &&& regMask t off) := by
  simp [rwStore, h]

/-- The high word of a wide RW value applies both words (R61). -/
theorem rwStore_high {t : PgTy} {lo : Nat} (hlo : lo ∈ rwLows t) (hhi : lo + 4 ∉ rwLows t) (s : State) (n : Nat) (v : Word) :
    rwStore s t n (lo + 4) v = wr (wr s t n lo (lowWord s t n lo)) t n (lo + 4) (v &&& regMask t (lo + 4)) := by
  simp [rwStore, hlo, hhi]

/-- Where the high words of the wide RW values of LE, RSEQ and REC lie. -/
theorem rwLows_place {t : PgTy} (ht : t ∈ [PgTy.le, .rseq, .recStore]) {lo : Nat} (hlo : lo ∈ rwLows t) :
    0x040 ≤ lo + 4 ∧ lo + 4 < 4096 ∧ (lo + 4) % 4 = 0 ∧ lo + 4 ∉ rwLows t := by
  revert lo
  simp only [List.mem_cons, List.not_mem_nil, or_false] at ht
  rcases ht with rfl | rfl | rfl <;> decide

/-! ## W1C registers (R62) -/

/-- A page that answers is in the directory. -/
theorem answers_count {s : State} {t : PgTy} {n : Nat} (h : answers s ⟨t, n⟩ = true) : n < t.count := by
  have := (Bool.and_eq_true_iff.1 h).1
  simpa [PageId.present] using this

/-- A row found at an offset is one of the map, and the offset lies within it. -/
theorem regRow_some {t : PgTy} {off : Nat} {r : RegRow} (h : regRow t off = some r) : r ∈ regRows t ∧ r.has off = true :=
  ⟨List.mem_of_find?_eq_some h, List.find?_some (p := fun r : RegRow => r.has off) h⟩

/-- An offset a row holds lies at or after its first word. -/
theorem RegRow.off_le_of_has {r : RegRow} {off : Nat} (h : r.has off = true) : r.off ≤ off := by
  simp only [RegRow.has, Bool.and_eq_true, decide_eq_true_eq] at h
  obtain ⟨⟨hle, -⟩, -⟩ := h
  exact hle

/-- An offset a row holds lies before the row's end. -/
theorem RegRow.lt_of_has {r : RegRow} {off : Nat} (hs : 0 < r.stride) (h : r.has off = true) : off < r.off + r.count * r.stride := by
  simp only [RegRow.has, Bool.and_eq_true, decide_eq_true_eq] at h
  obtain ⟨-, hlt⟩ := h
  have := (Nat.div_lt_iff_lt_mul hs).1 hlt
  omega

/-- The W1C registers of SYS, CAN (but for RX_FULL) and GPIO clear as Table 0-3 has it. -/
theorem blockWrite_w1c {s : State} {t : PgTy} {n off : Nat} {r : RegRow} (ht : t ∈ [PgTy.sys, .can, .gpio])
    (hfull : t = .can → off < Reg.CAN.RX_FULL) (hn : n < t.count) (hr : regRow t off = some r) (h : r.acc = .w1c) (m : Master)
    (v ev : Word) : blockWrite s m t n off v ev = w1cWrite s t n off v ev := by
  obtain ⟨hmem, hhas⟩ := regRow_some hr
  have hge := RegRow.off_le_of_has hhas
  simp only [List.mem_cons, List.not_mem_nil, or_false] at ht
  rcases ht with rfl | rfl | rfl
  · have hrow : ∀ r ∈ regsSYS, r.acc = .w1c → 0 < r.stride ∧ r.off + r.count * r.stride ≤ 0x084 := by decide
    obtain ⟨hs, hend⟩ := hrow r hmem h
    have hlt := RegRow.lt_of_has hs hhas
    obtain rfl : n = 0 := Nat.lt_one_iff.1 hn
    simp only [blockWrite, sysWrite, Reg.SYS.STAGE, Reg.SYS.IRQ_SEL, Reg.SYS.IRQ_LINE]
    rw [if_neg (by omega), if_neg (by omega), if_neg (by omega), liveWrite_w1c hr h]
  · have hrow : ∀ r ∈ regsCAN, r.acc = .w1c → 0x090 ≤ r.off := by decide
    have hoff := hrow r hmem h
    have hend : off < 0x0B0 := hfull rfl
    simp only [blockWrite, canWrite, Reg.CAN.TX_REQ, Reg.CAN.TX_CANCEL, Reg.CAN.RX_FULL, Reg.CAN.OBJ_DATA]
    rw [if_neg (by omega), if_neg (by omega), if_neg (by omega), if_neg (by omega), liveWrite_w1c hr h]
  · have hrow : ∀ r ∈ regsGPIO, r.acc = .w1c → Reg.GPIO.EDGE_ST ≤ r.off := by decide
    have hoff := hrow r hmem h
    simp only [blockWrite]
    rw [if_pos (by omega)]

/-- A W1C register of such a page that is not locked. -/
theorem regWrite_w1c {s : State} {t : PgTy} {n off : Nat} {r : RegRow} {m : Master} {win : Bool} {v ev : Word}
    (ht : t ∈ [PgTy.sys, .can, .gpio]) (hfull : t = .can → off < Reg.CAN.RX_FULL) (hn : n < t.count) (hr : regRow t off = some r)
    (h : r.acc = .w1c) (hl : (s.page (pk t n)).locked = false) (hp : r.prot = false) :
    regWrite s m t n win off v ev = w1cWrite s t n off v ev := by
  have hne : t ≠ .eth := by rintro rfl; simp at ht
  rw [regWrite_live ((regRowAt_eq hne n off).trans hr) (by simp [h]) (by simp [h]) hl hp, blockWrite_w1c ht hfull hn hr h]

/-! ## Registers after a settled write -/

theorem rg_settle_wr (s : State) (t : PgTy) (n off : Nat) (v : Word) : rg (settle (wr s t n off v)) t n off = v := by simp

theorem otherRegs_wr (s : State) (t : PgTy) (n off : Nat) (v : Word) : OtherRegs s (settle (wr s t n off v)) t n [off] := by
  intro o ho
  rw [settle_rg, rg_wr, if_neg (by simpa using ho)]

/-! ## Staged values (R46) -/

/-- Where no commit or copy is under way, a write of an RS register is entered in the staging store (R46, R50); DOM_EN of PWR has a rule
of its own. -/
theorem stageWord_eq {s : State} {t : PgTy} {n : Nat} (hb : commitBusy s t n = false) (ht : t ≠ .pwr) (off : Nat) (v : Word) :
    stageWord s t n off v = s.modPage (pk t n) (fun p =>
      { p with staged := SMap.insert (SMap.erase p.staged off) off (v &&& regMask t off), dirty := true }) := by
  simp [stageWord, hb, ht]

/-- Its staged value is then the word written, in the bits it implements, and every other staged value stands. -/
theorem staged_stageWord {s : State} {t : PgTy} {n : Nat} (hb : commitBusy s t n = false) (ht : t ≠ .pwr) (off o : Nat) (v : Word) :
    staged (settle (stageWord s t n off v)) t n o = if o = off then v &&& regMask t off else staged s t n o := by
  rw [staged_get, staged_get, settle_page, stageWord_eq hb ht, State.modPage_page, if_pos rfl]
  rw [SMap.get_insert _ _ _ _ _ (SMap.erase_ne _ _), SMap.get_erase]
  split <;> rfl

/-! ## The statement -/

/-- Settles O12: each clause is the branch of `regWrite` that the access code and the lock take, on an aligned offset. -/
theorem registerWrites : Obligations.register_writes := by
  unfold Obligations.register_writes
  refine ⟨?ro, ?locked, ?rw, ?rs, ?w1c, ?wide⟩
  case ro =>
    intro s m pg off v r ha hk ho hlt hal hr hacc
    refine gives_done (x := s) ?_ ⟨settle_page s _, (PageAlone.refl s pg.key).settled⟩
    rw [exec_registerWrite m v ha hk ho hlt hal, regWrite_ro hr hacc]
  case locked =>
    intro s m pg off v r ha hk ho hlt hal hr hacc hl
    have hpage := reject_page_same s pg.ty pg.inst .locked off 3
    refine gives_done (x := reject s pg.ty pg.inst .locked off 3) ?_ ⟨?_, ?_, ?_, ?_,
      ((PageAlone.refl s pg.key).reject _ _ _).settled⟩
    · rw [exec_registerWrite m v ha hk ho hlt hal, regWrite_locked hr hacc hl, rejWr]
    all_goals rw [settle_page, PageId.key, hpage]
    simp
  case rw =>
    intro s m ty n off v r ht ha hk hl ho hlt hal hr hacc hp
    have hplain : ty ∈ plainTypes := List.mem_append_left [PgTy.le, .rseq, .recStore] ht
    have hlow : rwLows ty = [] := by
      simp only [List.mem_cons, List.not_mem_nil, or_false] at ht
      rcases ht with rfl | rfl | rfl | rfl | rfl <;> rfl
    refine gives_done (x := wr s ty n off (v &&& regMask ty off)) ?_ ⟨rg_settle_wr .., otherRegs_wr s ty n off _, by simp,
      ((PageAlone.refl s (pk ty n)).wr _ _).settled⟩
    rw [exec_registerWrite m v ha hk ho hlt hal, regWrite_rw hplain hr hacc hl hp, rwStore_narrow hlow]
  case rs =>
    intro s m ty n off v r hsec hpwr ha hk hl ho hlt hal hr hacc hp hb
    have hx := stageWord_eq hb hpwr off v
    refine gives_done (x := stageWord s ty n off v) ?_ ⟨?_, fun o h => ?_, ?_, fun o _ => ?_, ?_⟩
    · rw [exec_registerWrite m v ha hk ho hlt hal, regWrite_rs hr hacc hsec hl hp]
    · rw [staged_stageWord hb hpwr, if_pos rfl]
    · rw [staged_stageWord hb hpwr, if_neg h]
    · rw [settle_page, hx, State.modPage_page, if_pos rfl]
    · rw [settle_rg, hx]
      exact rg_modPage _ _ _ _ _ _ fun _ => rfl
    · rw [hx]
      exact ((PageAlone.refl s (pk ty n)).modPage _).settled
  case w1c =>
    intro s ty n off w ev r ht hfull ha hk hl ho hlt hal hr hacc hp
    refine gives_done (x := w1cWrite s ty n off w ev) ?_ ⟨rg_settle_wr .., otherRegs_wr s ty n off _,
      ((PageAlone.refl s (pk ty n)).wr _ _).settled⟩
    rw [exec_w1cStatusWrite w ev ha hk ho hlt hal, regWrite_w1c ht hfull (answers_count ha) hr hacc hl hp]
  case wide =>
    intro s ty n lo v r ht hlo ha hk hl hr hacc hp
    have hplain : ty ∈ plainTypes := List.mem_append_right [PgTy.prk, .pwm, .fin, .fcg, .dio] ht
    obtain ⟨ho, hlt, hal, hhi⟩ := rwLows_place ht hlo
    refine gives_done (x := wr (wr s ty n lo (lowWord s ty n lo)) ty n (lo + 4) (v &&& regMask ty (lo + 4))) ?_
      ⟨?_, rg_settle_wr .., fun o h => ?_, (((PageAlone.refl s (pk ty n)).wr _ _).wr _ _).settled⟩
    · rw [exec_wideWriteApply v ha hk ho hlt hal, regWrite_rw hplain hr hacc hl hp, rwStore_high hlo hhi]
    · rw [settle_rg, rg_wr, if_neg (by omega), rg_wr_same]
    · simp only [List.mem_cons, List.not_mem_nil, or_false, not_or] at h
      rw [settle_rg, rg_wr, if_neg h.2, rg_wr, if_neg h.1]

end Sys2Proof.Machine
end

section
/-! PROOF. Position compare events (R144 to R155): a read of the latch queue shows the pulse that has begun by then (R151). -/
namespace Sys2Proof.Machine

/-! ## The latch queue (R154) -/

/-- A read of LATCH_POS_LO first brings the unit up to the present, and then takes the oldest entry (R151, R154). -/
theorem getReg_latchPos {s : State} {n : Nat} (m : Master) (ha : answers s ⟨.pcmp, n⟩ = true) :
    getReg s m .pcmp n Reg.PCMP.LATCH_POS_LO =
      { (pcmpLatchRead (pcmpRise s n s.now) n).1 with resp := ⟨(pcmpLatchRead (pcmpRise s n s.now) n).2, 0, .ok⟩ } := by
  obtain ⟨hpresent, hpowered⟩ := Bool.and_eq_true_iff.1 ha
  have hread : pageRead s m ⟨.pcmp, n⟩ Reg.PCMP.LATCH_POS_LO = pcmpLatchRead (pcmpRise s n s.now) n := by
    unfold pageRead
    rw [hpresent, hpowered]
    rfl
  unfold getReg
  rw [hread]

/-- A pulse whose pin edge is due begins, where none is in progress (R151). -/
theorem pcmpRise_due {s : State} {n t a b : Nat} (hp : (pcmpOf s n).pulse = none) (hn : (pcmpOf s n).next = some (a, b)) (h : a ≤ t) :
    pcmpRise s n t = pcmpOut (setPcmp s n { pcmpOf s n with pulse := some b, next := none }) n true := by
  simp [pcmpRise, hp, hn, h]

/-- The output level is a register: the unit's record stands. -/
theorem pcmpOf_pcmpOut (s : State) (n n' : Nat) (b : Bool) : pcmpOf (pcmpOut s n b) n' = pcmpOf s n' := pcmpOf_modPage ..

/-- The registers that show the queues are registers: the unit's record stands. -/
theorem pcmpOf_pcmpSync (s : State) (n n' : Nat) : pcmpOf (pcmpSync s n) n' = pcmpOf s n' := by
  have h : (pcmpSync s n).pcmps = s.pcmps := by
    unfold pcmpSync
    dsimp only
    split <;> split <;> simp only [wr_pcmps, wr64_pcmps, wf_pcmps]
  unfold pcmpOf
  rw [h]

/-- A read of the latch queue removes its oldest entry and leaves the rest of the unit. -/
theorem pcmpOf_pcmpLatchRead (s : State) (n : Nat) :
    pcmpOf (pcmpLatchRead s n).1 n = { pcmpOf s n with lq := (pcmpOf s n).lq.tail } := by
  unfold pcmpLatchRead
  dsimp only
  split
  next hq => rw [pcmpOf_modPage, hq, List.tail_nil, ← hq]
  next l q hq => rw [pcmpOf_modPage, pcmpOf_pcmpSync, pcmpOf_setPcmp, if_pos rfl, hq, List.tail_cons]

/-- LATCH_QUEUE_READ begins a pulse that is due. -/
theorem latchQueueRead_begins_pulse {s : State} {n : Fin 64} {a b : Nat} (ha : answers s ⟨.pcmp, n.val⟩ = true)
    (hp : (pcmpOf s n.val).pulse = none) (hn : (pcmpOf s n.val).next = some (a, b)) (h : a ≤ s.now) {u : State}
    (hu : exec (.latchQueueRead n) s = .next u) : (pcmpOf u n.val).pulse = some b := by
  have hex : exec (.latchQueueRead n) s = done (getReg s .ap0 .pcmp n.val Reg.PCMP.LATCH_POS_LO) := rfl
  rw [hex, done_eq, getReg_latchPos .ap0 ha] at hu
  obtain rfl := Host.Outcome.next.inj hu
  rw [settle_pcmpOf]
  show (pcmpOf (pcmpLatchRead (pcmpRise s n.val s.now) n.val).1 n.val).pulse = some b
  rw [pcmpOf_pcmpLatchRead, pcmpRise_due hp hn h, pcmpOf_pcmpOut, pcmpOf_setPcmp, if_pos rfl]

/-! ## The statement -/

/-- Unit 0 in RUN between two pulses (R151), its latch queue empty: the next pulse's pin edge was due at 1000, and it is 2000 by now.
PCMP_PULSE_END of the first pulse leaves the record so when it comes before 1000, and the events after it move `now` on. -/
def pulseDue : State :=
  { State.reset with dom := 0x3FFF#14, now := 2000, pcmps := [(0, { PcmpSt.reset with next := some (1000, 1640) })] }.modPage
    (pk .pcmp 0) (fun p => { p with en := true, st := .run })

/-- Refutes O25: the statement has a read of an empty latch queue leave the unit as it was. In `pulseDue` the read first brings the unit
up to the present (`showOf`), and so begins the pulse whose pin edge has passed. -/
theorem not_compareEvents : ¬ Obligations.compare_events := by
  unfold Obligations.compare_events
  rintro ⟨-, -, -, -, -, -, hread, -⟩
  obtain ⟨u, hu, hempty, -⟩ := hread pulseDue 0 (by decide)
  obtain ⟨-, hstands⟩ := hempty rfl
  have hbegun : (pcmpOf u 0).pulse = some 1640 := latchQueueRead_begins_pulse (n := 0) (a := 1000) (by decide) rfl rfl (by decide) hu
  have hnone : (pcmpOf u 0).pulse = none := congrArg PcmpSt.pulse hstands
  cases hbegun.symm.trans hnone

end Sys2Proof.Machine
end

section
/-! PROOF. Step channels and microstep tables (R160 to R162, R167). -/
namespace Sys2Proof.Machine

/-! ## Changes of one step channel -/

/-- One state differs from another in one step channel alone: its page and its record. -/
def StepAlone (s x : State) (n : Nat) : Prop := PageAlone { s with steps := x.steps } x (pk .step n)

theorem StepAlone.refl (s : State) (n : Nat) : StepAlone s s n := PageAlone.refl s _

section
variable {s x : State} {n : Nat} (h : StepAlone s x n)
include h

theorem StepAlone.wr (off : Nat) (v : Word) : StepAlone s (Machine.wr x .step n off v) n := PageAlone.modPage h _
theorem StepAlone.wb (off i : Nat) (b : Bool) : StepAlone s (Machine.wb x .step n off i b) n := PageAlone.modPage h _
theorem StepAlone.wr64 (off : Nat) (v : Int) : StepAlone s (Machine.wr64 x .step n off v) n := (h.wr _ _).wr _ _
theorem StepAlone.setInt (i : Nat) : StepAlone s (Machine.setInt x .step n i) n := PageAlone.modPage h _

theorem StepAlone.setStep (e : StepSt) : StepAlone s (Machine.setStep x n e) n := by
  obtain ⟨hp, ho⟩ := h
  refine ⟨?_, ho⟩
  unfold PagesOnly at hp ⊢
  unfold Machine.setStep
  rw [← hp]

/-- Such a state differs so once settled. -/
theorem StepAlone.settled : OnlyPages { s with steps := (settle x).steps } (settle x) ∧ OtherPages s (settle x) (pk .step n) := by
  rw [settle_steps]
  exact PageAlone.settled h

end

/-! ## LAG (R161) -/

/-- Owed steps lie within LAG_LIM, or there is no limit. -/
def LagWithin (s : State) (n : Nat) (lag : Int) : Prop :=
  rf s .step n Reg.STEP.LAG_LIM 0 16 = 0 ∨ lag.natAbs ≤ rf s .step n Reg.STEP.LAG_LIM 0 16

/-- A step channel that shows its owed steps. -/
def stepShowLag (s : State) (n : Nat) (lag : Int) : State :=
  let s1 := wb (wr s .step n Reg.STEP.LAG (satI32 lag)) .step n Reg.STEP.STAT 1 (lag != 0)
  if rg s .step n Reg.STEP.LAG = 0 && lag != 0 then setInt s1 .step n 0 else s1

section
variable {s : State} {n : Nat} {lag : Int} (hlim : LagWithin s n lag)
include hlim

/-- Such steps are shown and raise nothing. -/
theorem stepLag_within : stepLag s n lag = setStep (stepShowLag s n lag) n { stepOf (stepShowLag s n lag) n with ovr := false } := by
  have h : (rf s .step n Reg.STEP.LAG_LIM 0 16 != 0 && decide (rf s .step n Reg.STEP.LAG_LIM 0 16 < lag.natAbs)) = false := by
    rcases hlim with hnone | hle
    · rw [hnone]; rfl
    · rw [decide_eq_false (Nat.not_lt.2 hle), Bool.and_false]
  unfold stepLag
  dsimp only
  rw [h]
  rfl

theorem StepAlone.stepLag {s0 : State} (h : StepAlone s0 s n) : StepAlone s0 (Machine.stepLag s n lag) n := by
  rw [stepLag_within hlim]
  refine StepAlone.setStep ?_ _
  unfold stepShowLag
  dsimp only
  split
  · exact ((h.wr _ _).wb _ _ _).setInt 0
  · exact (h.wr _ _).wb _ _ _

/-- LAG and its bit of STAT are all the registers that change. -/
theorem rg_stepLag (o : Nat) : rg (stepLag s n lag) .step n o =
    if o = Reg.STEP.STAT then setBit (rg s .step n Reg.STEP.STAT) 1 (lag != 0)
    else if o = Reg.STEP.LAG then satI32 lag else rg s .step n o := by
  have h : rg (stepLag s n lag) .step n o =
      rg (wb (wr s .step n Reg.STEP.LAG (satI32 lag)) .step n Reg.STEP.STAT 1 (lag != 0)) .step n o := by
    rw [stepLag_within hlim]
    show rg (stepShowLag s n lag) .step n o = _
    unfold stepShowLag
    dsimp only
    split
    · rw [rg_setInt]
    · rfl
  rw [h, rg_wb, rg_wr, rg_wr, if_neg (by decide : Reg.STEP.STAT ≠ Reg.STEP.LAG)]

/-- The first owed step sets the interrupt LAG. -/
theorem stepLag_int (hwas : rg s .step n Reg.STEP.LAG = 0) (hlag : lag ≠ 0) :
    bit ((stepLag s n lag).page (pk .step n)).intRaw 0 = true := by
  rw [stepLag_within hlim]
  simp [stepShowLag, hwas, hlag]

end

/-! ## STEP_EMIT (R160, R161) -/

/-- A step channel that has moved STEPS by one, with the direction it shows and the time of the leading edge. -/
def stepCounted (s : State) (n t : Nat) (c : Int) (back : Bool) : State :=
  setStep (wb (wr64 s .step n Reg.STEP.STEPS_LO c) .step n Reg.STEP.STAT 0 back) n
    { stepOf s n with edge := some (s.lap t), back := back }

theorem stepCounted_alone (s : State) (n t : Nat) (c : Int) (back : Bool) : StepAlone s (stepCounted s n t c back) n :=
  (((StepAlone.refl s n).wr64 _ _).wb _ _ _).setStep _

theorem rg_stepCounted (s : State) (n t o : Nat) (c : Int) (back : Bool) : rg (stepCounted s n t c back) .step n o =
    if o = Reg.STEP.STAT then setBit (rg s .step n Reg.STEP.STAT) 0 back
    else if o = Reg.STEP.STEPS_HI then hi32 c else if o = Reg.STEP.STEPS_LO then lo32 c else rg s .step n o := by
  show rg (wb (wr (wr s .step n Reg.STEP.STEPS_LO (lo32 c)) .step n Reg.STEP.STEPS_HI (hi32 c)) .step n Reg.STEP.STAT 0 back) .step n o = _
  simp only [rg_wb, rg_wr]
  rfl

section
variable {s : State} {n : Nat} {lag : Int} (t : Nat) (c : Int) (back : Bool) (hlim : LagWithin s n lag)
include hlim

/-- STEPS and the direction do not touch LAG_LIM. -/
theorem stepCounted_within : LagWithin (stepCounted s n t c back) n lag := by
  have h : rg (stepCounted s n t c back) .step n Reg.STEP.LAG_LIM = rg s .step n Reg.STEP.LAG_LIM := rg_stepCounted ..
  rwa [LagWithin, rf, h]

theorem stepLag_stepCounted_alone : StepAlone s (stepLag (stepCounted s n t c back) n lag) n :=
  (stepCounted_alone s n t c back).stepLag (stepCounted_within t c back hlim)

/-- The registers after a step that went out. -/
theorem rg_stepLag_stepCounted (o : Nat) : rg (stepLag (stepCounted s n t c back) n lag) .step n o =
    if o = Reg.STEP.STAT then setBit (setBit (rg s .step n Reg.STEP.STAT) 0 back) 1 (lag != 0)
    else if o = Reg.STEP.LAG then satI32 lag
    else if o = Reg.STEP.STEPS_HI then hi32 c else if o = Reg.STEP.STEPS_LO then lo32 c else rg s .step n o := by
  rw [rg_stepLag (stepCounted_within t c back hlim), rg_stepCounted, rg_stepCounted, if_pos rfl]
  split
  · rfl
  · rfl

end

section
variable {s : State} {n t : Nat} {c d : Int} (hrun : stOf s .step n = .run) (hmode : rf s .step n Reg.STEP.CFG 0 2 = 0)
  (hc : c = rg64 s .step n Reg.STEP.STEPS_LO) (hd : d = stepPlaced s n t) (hne : c ≠ d)
include hrun hmode hc hd hne

/-- A step the minima hold back is owed. -/
theorem stepEmit_held (hfree : stepFree s n t (decide (d < c)) = false) : stepEmit s n t = stepLag s n (d - c) := by
  simp [stepEmit, hrun, hmode, ← hc, ← hd, hne.symm, hfree]

/-- A step the minima allow goes out. -/
theorem stepEmit_free (hfree : stepFree s n t (decide (d < c)) = true) : stepEmit s n t =
    stepLag (stepCounted s n t (if c < d then c + 1 else c - 1) (decide (d < c))) n (d - if c < d then c + 1 else c - 1) := by
  simp only [stepEmit, hrun, hmode, ← hc, ← hd, hne.symm, hfree]
  rfl

end

/-! ## STEP_HOLD_AMP (R162) -/

/-- A step channel that shows two phases, its table and an electrical angle. -/
def stepPhased (s : State) (n : Nat) (a b x : Word) : State :=
  wr (wf (wr (wr s .step n Reg.STEP.PHASE_A a) .step n Reg.STEP.PHASE_B b) .step n Reg.STEP.STAT 3 3 (rf s .step n Reg.STEP.CFG 12 3))
    .step n Reg.STEP.ELEC x

theorem rg_stepPhased (s : State) (n o : Nat) (a b x : Word) : rg (stepPhased s n a b x) .step n o =
    if o = Reg.STEP.ELEC then x
    else if o = Reg.STEP.STAT then setFld (rg s .step n Reg.STEP.STAT) 3 3 (rf s .step n Reg.STEP.CFG 12 3)
    else if o = Reg.STEP.PHASE_B then b else if o = Reg.STEP.PHASE_A then a else rg s .step n o := by
  simp only [stepPhased, rg_wr, rg_wf]
  rfl

/-- In the first quadrant and at the hold amplitude the phases are the table's entry scaled. -/
theorem stepPhases_phased (s : State) (n : Nat) (c : Int) : ∃ a b x, stepPhases s n c = stepPhased s n a b x ∧
    (rb s .step n Reg.STEP.STAT 2 = true → c / 2 ^ rf s .step n Reg.STEP.CFG 16 4 % 4 = 0 → ∀ e : Int × Int,
      e = stepEntry s (rf s .step n Reg.STEP.CFG 12 3)
        (c % 2 ^ rf s .step n Reg.STEP.CFG 16 4 * 256 / 2 ^ rf s .step n Reg.STEP.CFG 16 4).toNat →
      a = q23 (fq (sw (rg s .step n Reg.STEP.AMP_HOLD) * e.1) 8388608) ∧
      b = q23 (fq (sw (rg s .step n Reg.STEP.AMP_HOLD) * e.2) 8388608)) := by
  refine ⟨_, _, _, rfl, fun hhold hq e he => ?_⟩
  unfold rf at hq he
  rw [hq, hhold, he]
  exact ⟨rfl, rfl⟩

/-- A step channel whose hold amplitude acts: STAT.HOLD is set and the phases of a count follow. -/
def stepAtHold (s : State) (n : Nat) (c : Int) : State := stepPhases (wb s .step n Reg.STEP.STAT 2 true) n c

/-- Once the axis stands, the hold amplitude acts. -/
theorem stepHoldAmp_stands {s : State} {n t : Nat} (hrun : stOf s .step n = .run) (hmode : rf s .step n Reg.STEP.CFG 0 2 = 1)
    (hst : stepStands s n t = true) : stepHoldAmp s n t = stepAtHold s n (rg64 s .step n Reg.STEP.STEPS_LO) := by
  unfold stepHoldAmp stepAtHold
  rw [hrun, hmode, hst]
  rfl

theorem stepAtHold_alone (s : State) (n : Nat) (c : Int) : PageAlone s (stepAtHold s n c) (pk .step n) :=
  (((((PageAlone.refl s _).modPage _).wr _ _).wr _ _).modPage _).wr _ _

/-- The registers that show a phase position, and no others, change. -/
theorem rg_stepAtHold_apart (s : State) (n o : Nat) (c : Int) (h : o ∉ [Reg.STEP.PHASE_A, Reg.STEP.PHASE_B, Reg.STEP.STAT, Reg.STEP.ELEC]) :
    rg (stepAtHold s n c) .step n o = rg s .step n o := by
  simp only [List.mem_cons, List.not_mem_nil, or_false, not_or] at h
  obtain ⟨ha, hb, hs, he⟩ := h
  obtain ⟨a, b, x, hx, -⟩ := stepPhases_phased (wb s .step n Reg.STEP.STAT 2 true) n c
  rw [stepAtHold, hx, rg_stepPhased, if_neg he, if_neg hs, if_neg hb, if_neg ha, rg_wb, if_neg hs]

/-- STAT shows the table in use beside HOLD. -/
theorem rb_stepAtHold (s : State) (n : Nat) (c : Int) : rb (stepAtHold s n c) .step n Reg.STEP.STAT 2 = true := by
  obtain ⟨a, b, x, hx, -⟩ := stepPhases_phased (wb s .step n Reg.STEP.STAT 2 true) n c
  rw [stepAtHold, hx, rb, rg_stepPhased, if_neg (by decide), if_pos rfl, bit_setFld_apart _ _ _ _ _ (by decide) (by decide),
    rg_wb_same, bit_setBit _ _ _ _ (by decide), if_pos rfl]

/-- In the first quadrant the phases take the table's entry, at the hold amplitude. -/
theorem stepAtHold_first {s : State} {n : Nat} {c : Int} {e : Int × Int} (hq : c / 2 ^ rf s .step n Reg.STEP.CFG 16 4 % 4 = 0)
    (he : e = stepEntry s (rf s .step n Reg.STEP.CFG 12 3)
      (c % 2 ^ rf s .step n Reg.STEP.CFG 16 4 * 256 / 2 ^ rf s .step n Reg.STEP.CFG 16 4).toNat) :
    rg (stepAtHold s n c) .step n Reg.STEP.PHASE_A = q23 (fq (sw (rg s .step n Reg.STEP.AMP_HOLD) * e.1) 8388608) ∧
      rg (stepAtHold s n c) .step n Reg.STEP.PHASE_B = q23 (fq (sw (rg s .step n Reg.STEP.AMP_HOLD) * e.2) 8388608) := by
  have hapart (o : Nat) (ho : o ≠ Reg.STEP.STAT) : rg (wb s .step n Reg.STEP.STAT 2 true) .step n o = rg s .step n o := by
    rw [rg_wb, if_neg ho]
  have hhold : rb (wb s .step n Reg.STEP.STAT 2 true) .step n Reg.STEP.STAT 2 = true := by
    rw [rb, rg_wb_same, bit_setBit _ _ _ _ (by decide), if_pos rfl]
  have hcfg (lo len : Nat) : rf (wb s .step n Reg.STEP.STAT 2 true) .step n Reg.STEP.CFG lo len = rf s .step n Reg.STEP.CFG lo len := by
    rw [rf, hapart _ (by decide), rf]
  obtain ⟨a, b, x, hx, hab⟩ := stepPhases_phased (wb s .step n Reg.STEP.STAT 2 true) n c
  rw [hcfg, hcfg, hapart Reg.STEP.AMP_HOLD (by decide)] at hab
  obtain ⟨ha, hb⟩ := hab hhold hq e he
  rw [stepAtHold, hx, rg_stepPhased, rg_stepPhased]
  exact ⟨ha, hb⟩

/-! ## Microstep tables (R167) -/

/-- EDIT_SEL is live and has a rule of its own. -/
theorem putReg_editSel {s : State} (v : Word) (ha : answers s ⟨.ustp, 0⟩ = true) (hk : (s.page (pk .ustp 0)).key ≠ .window)
    (hl : (s.page (pk .ustp 0)).locked = false) : putReg s .ap0 .ustp 0 Reg.USTP.EDIT_SEL v = ustpEditSel s v := by
  unfold putReg
  rw [pageWrite_block .ap0 v 0 ha hk (by decide)]
  exact regWrite_live (r := ⟨Reg.USTP.EDIT_SEL, 1, 4, .rw, false, 0x00000000, 0x00000003⟩) rfl (by decide) (by decide) hl rfl

/-- Without a staged table a copy starts. -/
theorem ustpEditSel_free {s : State} (v : Word) (hd : (s.page (pk .ustp 0)).dirty = false) (hc : (s.page (pk .ustp 0)).commit = .none) :
    ustpEditSel s v = (wr s .ustp 0 Reg.USTP.EDIT_SEL (ofN (fld v 0 2))).modPage (pk .ustp 0) (fun p => { p with busy := true }) := by
  simp [ustpEditSel, hd, hc]

theorem rg_ustpEditSel_free {s : State} (v : Word) (hd : (s.page (pk .ustp 0)).dirty = false) (hc : (s.page (pk .ustp 0)).commit = .none)
    (o : Nat) : rg (ustpEditSel s v) .ustp 0 o = if o = Reg.USTP.EDIT_SEL then ofN (fld v 0 2) else rg s .ustp 0 o := by
  rw [ustpEditSel_free v hd hc, rg_modPage, rg_wr]
  exact fun _ => rfl

/-- A staged table, or one being validated or committed, is not overwritten. -/
theorem ustpEditSel_staged {s : State} (v : Word) (h : (s.page (pk .ustp 0)).dirty = true ∨ (s.page (pk .ustp 0)).commit ≠ .none) :
    ustpEditSel s v = reject s .ustp 0 .conflict Reg.USTP.EDIT_SEL 3 := by
  unfold ustpEditSel
  rw [if_pos (by simpa using h)]
  rfl

theorem ustpEditSel_alone (s : State) (v : Word) : PageAlone s (ustpEditSel s v) (pk .ustp 0) := by
  have h := PageAlone.refl s (pk .ustp 0)
  unfold ustpEditSel
  dsimp only
  split
  · exact h.reject _ _ _
  · exact (h.wr _ _).modPage _

/-- One word of the edited table shown in TBL_DATA. -/
def ustpShowWord (s : State) (w : Nat) : State := wr s .ustp 0 (Reg.USTP.TBL_DATA + 4 * w) (ustpWord s (ustpSel s) w)

theorem ustpShow_eq (s : State) : ustpShow s = (List.range 512).foldl ustpShowWord s := rfl

theorem ustpWord_showWord (s : State) (w k i : Nat) : ustpWord (ustpShowWord s w) k i = ustpWord s k i := rfl

/-- TBL_DATA lies apart from EDIT_SEL. -/
theorem ustpSel_showWord (s : State) (w : Nat) : ustpSel (ustpShowWord s w) = ustpSel s := by
  unfold ustpSel rf ustpShowWord
  rw [rg_wr, if_neg (by simp only [Reg.USTP.EDIT_SEL, Reg.USTP.TBL_DATA]; omega)]

/-- The registers after some words were shown. -/
theorem rg_showWords (l : List Nat) (s : State) (o : Nat) : rg (l.foldl ustpShowWord s) .ustp 0 o =
    if o ∈ l.map (fun w => Reg.USTP.TBL_DATA + 4 * w) then ustpWord s (ustpSel s) ((o - Reg.USTP.TBL_DATA) / 4) else rg s .ustp 0 o := by
  induction l generalizing s with
  | nil => rfl
  | cons w l ih =>
    rw [List.foldl_cons, ih, ustpWord_showWord, ustpSel_showWord, ustpShowWord, rg_wr]
    simp only [List.map_cons, List.mem_cons]
    by_cases hl : o ∈ l.map (fun w => Reg.USTP.TBL_DATA + 4 * w)
    · rw [if_pos hl, if_pos (.inr hl)]
    · by_cases ho : o = Reg.USTP.TBL_DATA + 4 * w
      · rw [if_neg hl, if_pos ho, if_pos (.inl ho), ho, Nat.add_sub_cancel_left, Nat.mul_div_cancel_left w (by decide)]
      · rw [if_neg hl, if_neg ho, if_neg (not_or.2 ⟨ho, hl⟩)]

theorem showWords_alone {s x : State} (h : PageAlone s x (pk .ustp 0)) (l : List Nat) :
    PageAlone s (l.foldl ustpShowWord x) (pk .ustp 0) := by
  induction l generalizing x with
  | nil => exact h
  | cons w l ih => exact ih (h.wr _ _)

/-- Where nothing is staged, the value in force counts as staged (R46). -/
theorem staged_of_empty {s : State} {t : PgTy} {n : Nat} (h : (s.page (pk t n)).staged = []) (o : Nat) : staged s t n o = rg s t n o := by
  simp [staged, rg, h]

/-- The state once the copy has ended: TBL_DATA shows the edited table, and nothing is staged. -/
def ustpCopied (s : State) : State :=
  ((List.range 512).foldl ustpShowWord s).modPage (pk .ustp 0) (fun p => { p with busy := false, dirty := false, staged := [] })

theorem ustpCopyEnd_busy {s : State} (h : (s.page (pk .ustp 0)).busy = true) : ustpCopyEnd s = ustpCopied s := by
  simp [ustpCopyEnd, h, ustpShow_eq, ustpCopied]

theorem ustpCopied_alone (s : State) : PageAlone s (ustpCopied s) (pk .ustp 0) := (showWords_alone (PageAlone.refl s _) _).modPage _

theorem rg_ustpCopied (s : State) (o : Nat) : rg (ustpCopied s) .ustp 0 o =
    if o ∈ (List.range 512).map (fun w => Reg.USTP.TBL_DATA + 4 * w) then ustpWord s (ustpSel s) ((o - Reg.USTP.TBL_DATA) / 4)
    else rg s .ustp 0 o := by
  rw [ustpCopied, rg_modPage, rg_showWords]
  exact fun _ => rfl

/-- The words of the table stand in TBL_DATA. -/
theorem rg_ustpCopied_table (s : State) {w : Nat} (h : w < 512) :
    rg (ustpCopied s) .ustp 0 (Reg.USTP.TBL_DATA + 4 * w) = ustpWord s (ustpSel s) w := by
  rw [rg_ustpCopied, if_pos (List.mem_map_of_mem (List.mem_range.2 h)), Nat.add_sub_cancel_left, Nat.mul_div_cancel_left w (by decide)]

/-! ## The statement -/

/-- Settles O26: each clause is one branch of its event, with the frame and the registers that the lemmas above give it. -/
theorem stepperEvents : Obligations.stepper_events := by
  unfold Obligations.stepper_events
  refine ⟨?emit, ?held, ?hold, ?edit, ?copy⟩
  case emit =>
    intro s n t c d hrun hmode hc hd hne hfree hlim
    have hx := stepEmit_free (s := s.at t) hrun hmode hc hd hne hfree
    generalize (if c < d then c + 1 else c - 1) = c' at hx hlim ⊢
    obtain ⟨honly, hother⟩ := (stepLag_stepCounted_alone (s := s.at t) t c' (decide (d < c)) hlim).settled
    have hrg := rg_stepLag_stepCounted (s := s.at t) t c' (decide (d < c)) hlim
    refine gives_done (congrArg done hx) ⟨?_, ?_, ?_, ?_, honly, hother, fun o ho => ?_⟩
    · rw [settle_rg, hrg]; rfl
    · rw [settle_rg, hrg]; rfl
    · rw [rb, settle_rg, hrg, if_pos rfl, bit_setBit _ _ _ _ (by decide), bit_setBit _ _ _ _ (by decide)]; rfl
    · rw [settle_rg, hrg]; rfl
    · simp only [List.mem_cons, List.not_mem_nil, or_false, not_or] at ho
      obtain ⟨hlo, hhi, hstat, hlag⟩ := ho
      rw [settle_rg, hrg, if_neg hstat, if_neg hlag, if_neg hhi, if_neg hlo]; rfl
  case held =>
    intro s n t c d hrun hmode hc hd hne hfree hlim
    have hx := stepEmit_held (s := s.at t) hrun hmode hc hd hne hfree
    have howed : d - c ≠ 0 := by omega
    obtain ⟨honly, hother⟩ := (StepAlone.stepLag (s := s.at t) hlim (StepAlone.refl _ _)).settled
    have hrg := rg_stepLag (s := s.at t) hlim
    refine gives_done (congrArg done hx) ⟨?_, ?_, fun hwas => ?_, honly, hother, fun o ho => ?_⟩
    · rw [settle_rg, hrg]; rfl
    · rw [rb, settle_rg, hrg, if_pos rfl, bit_setBit _ _ _ _ (by decide), if_pos rfl, bne_iff_ne]; exact howed
    · rw [settle_page]; exact stepLag_int (s := s.at t) hlim hwas howed
    · simp only [List.mem_cons, List.not_mem_nil, or_false, not_or] at ho
      obtain ⟨hstat, hlag⟩ := ho
      rw [settle_rg, hrg, if_neg hstat, if_neg hlag]; rfl
  case hold =>
    intro s n t hrun hmode hst
    have hx := stepHoldAmp_stands (s := s.at t) hrun hmode hst
    obtain ⟨honly, hother⟩ := (stepAtHold_alone (s.at t) n (rg64 s .step n Reg.STEP.STEPS_LO)).settled
    refine gives_done (congrArg done hx) ⟨?_, fun e hq he => ?_, honly, hother, fun o ho => ?_⟩
    · rw [rb, settle_rg]; exact rb_stepAtHold (s.at t) n _
    · rw [settle_rg, settle_rg]; exact stepAtHold_first (s := s.at t) hq he
    · rw [settle_rg]; exact rg_stepAtHold_apart (s.at t) n o _ ho
  case edit =>
    intro s v ha hk hl
    have hx : exec (.editSelWrite v) s = done (ustpEditSel s v) := congrArg done (putReg_editSel v ha hk hl)
    obtain ⟨honly, hother⟩ := (ustpEditSel_alone s v).settled
    refine gives_done hx ⟨fun hd hc => ?free, fun h => ?staged, honly, hother⟩
    case free =>
      refine ⟨?_, ?_, fun o ho => ?_⟩
      · rw [settle_rg, rg_ustpEditSel_free v hd hc, if_pos rfl]
      · rw [settle_page, ustpEditSel_free v hd hc, State.modPage_page, if_pos rfl]
      · rw [settle_rg, rg_ustpEditSel_free v hd hc, if_neg (by simpa using ho)]
    case staged =>
      rw [ustpEditSel_staged v h]
      have hpage := reject_page_same s .ustp 0 .conflict Reg.USTP.EDIT_SEL 3
      refine ⟨?_, fun o _ => ?_⟩
      · rw [settle_page, hpage]
      · rw [settle_rg]; exact rg_congr (by rw [hpage]) o
  case copy =>
    intro s hp hb
    have hx : exec .ustpCopyEnd s = done (if powered s .ustp 0 then ustpCopyEnd s else s) := rfl
    rw [if_pos hp, ustpCopyEnd_busy hb] at hx
    obtain ⟨honly, hother⟩ := (ustpCopied_alone s).settled
    refine gives_done hx ⟨fun w hw => ?_, fun w hw => ?_, ?_, ?_, honly, hother, fun o ho => ?_⟩
    · rw [settle_rg, rg_ustpCopied_table s hw]
    · rw [staged_of_empty (by simp [ustpCopied]), settle_rg, rg_ustpCopied_table s hw]
    · simp [ustpCopied]
    · simp [ustpCopied]
    · rw [settle_rg, rg_ustpCopied, if_neg ho]

end Sys2Proof.Machine
end
